-- ==== Sys2Proof/Word.lean ====
section
/-! DEFINITION. The plain words of the model: bytes, 32-bit registers, PCIe functions, partitions
and the other numbered parts of the module (spec/01 R18 to R20, spec/02 R26). -/

namespace Sys2Proof

/-- A byte of memory. -/
abbrev Byte := BitVec 8

/-- A register (R6). -/
abbrev Word := BitVec 32

/-- A PCIe function: 0 is the owner, 1 to 32 the virtual functions (R26). -/
abbrev Fn := Fin 33

/-- A partition; virtual function v serves partition v - 1 (R26). -/
abbrev Part := Fin 32

/-- A ring number (R34). -/
abbrev Ring := Fin 64

/-- A module-wide logical core (R19). -/
abbrev CoreId := Fin 256

/-- A cluster (R18). -/
abbrev ClusterId := Fin 32

/-- A Holgor link (R20). -/
abbrev LinkId := Fin 12

/-- A GDDR7 channel (R18). -/
abbrev ChanId := Fin 24

/-- A shed (ONFI) channel (R20). -/
abbrev ShedChan := Fin 16

/-- A drover: four in each cluster (R20). -/
abbrev DroverId := Fin 128

/-- A compute die C0 to C3 (R18). -/
abbrev DieId := Fin 4

/-- Where a register write lands (R8, R437): a register of BAR0, a word of the function's MSI-X
table in BAR2, or its MSI-X control word in configuration space. -/
inductive RegSpace where
  | bar0 | msixTable | msixControl
deriving DecidableEq, Repr

/-- Bytes that software on the host has put into host memory before it acts: address and bytes; `dark` where
PCIe reads of them fail from then on, until they are stored again (R84, R93, R278; log entry 4). -/
structure HostStore where
  addr : Nat
  bytes : List Byte
  dark : Bool
deriving DecidableEq, Repr

/-- The header of a contribution, sum, result or whistle message (R237, R372, R376, R390, R391, R473). -/
structure SumHdr where
  nf : Bool
  part : Bool
  poison : Bool
  left : Nat
  layout : Nat
  /-- STICKY of each bale of the shard, in bale order (R376). -/
  sticky : List Nat
  /-- The slowest member: collective rank, lateness, LEFT_OUT. -/
  slow : Option (Nat × Nat × Bool)
  withdrawn : Bool
  replay : Bool
deriving DecidableEq, Repr

/-- What an all-to-all row has in one column bale (R377): its data and scale bytes, and the STICKY and POISON of
the bale it comes from. -/
structure RowPiece where
  bytes : List Byte
  sticky : Nat
  poison : Bool
deriving DecidableEq, Repr

/-- Rows of an all-to-all from one sender (R377 to R379): its counts by expert (one count otherwise), the rows
by column bale, the headers of the first source bale of each column, and the header bits of the message (R237,
R391, R473). -/
structure RowMsg where
  sender : Nat
  counts : List Nat
  rows : List (List RowPiece)
  hdrs : List (List Byte)
  nf : Bool
  withdrawn : Bool
  replay : Bool
deriving DecidableEq, Repr

/-- An error that an access to memory meets (R270, R290, R293, R519): a single-bit error, corrected; a
double-bit error (or an invalid MARK); or EDC CRC failures of a GDDR access, with the retries they took and
whether the third retry failed too. -/
inductive MemError where
  | corrected
  | uncorrectable
  | crc (retries : Fin 4) (fail : Bool)
deriving DecidableEq, Repr

/-- An error that an access of the command meets: in a 64-byte unit of core scratch, or of a function's GDDR. -/
structure MemEvent where
  /-- The core whose scratch it is; none for GDDR of the acting function. -/
  core : Option CoreId
  /-- The offset divided by 64. -/
  unit : Nat
  err : MemError
deriving DecidableEq, Repr

/-- A request that reaches a line's home Loft (R264 to R269): who makes it (a logical core, or 256 a drover, 257
a Muster engine, 258 the Ostler, 259 a shed or host transfer), the sectors, the bytes of a write, the hint it
carries (NEXT_USE from a core; core clocks from the others; none for NONE), whether the step makes it, and whether
it carries a stale epoch (R283). -/
structure LoftReq where
  who : Fin 260
  mask : Nat
  data : Option (List Byte)
  hint : Option Nat
  step : Bool
  stale : Bool
deriving DecidableEq, Repr

/-- A peer's transfer as it lands here (R253, R359): the tensor and offset it writes or the PIPE_RECV
node and micro-batch it serves, LAND_SEM, its bytes, whether poison in it has a cause other than a reset (R461),
and the core clocks it waited for its landing buffer before this. -/
structure Landing where
  tensor : Nat
  off : Nat
  pipe : Option (Nat × Nat)
  sem : Nat
  data : List Byte
  poison : Bool
  waited : Nat
deriving DecidableEq, Repr

end Sys2Proof
end

