-- ==== Sys2Proof/Syntax.lean ====
section
/-! DEFINITION. The commands of the block, one constructor for each row of spec/opcode_table.json.
The table gives no operands, so each carries what the row's rule turns on: who writes, where, what,
and the physical outcome the rule tells apart (log entry 4). -/

namespace Sys2Proof

/-- A command: an access from outside or an event inside the module, each one whole step. -/
inductive Instr where
  /-- A write to the _LO half of a 64-bit register pair is held as the writing function's pending low half (R6). -/
  | regLoWrite (fn : Fn) (off : Nat) (val : Word)
  /-- A write to the _HI half commits the upper half and the function's pending low half, if any, and empties that pending half (R6). -/
  | regHiWrite (fn : Fn) (off : Nat) (val : Word)
  /-- A read of a _LO register captures the whole 64-bit value, so the function's next read of the matching _HI returns the captured upper half (R6). -/
  | regLoRead (fn : Fn) (off : Nat)
  /-- A write to a select register is accepted if it is in the function's range; otherwise it is refused and SEL_ERR is set (R12). -/
  | selectWrite (fn : Fn) (off : Nat) (val : Word)
  /-- A write to any register that has no row of its own, handled per field access type (RW, RO, WO, W1C, RSVD) (R8). -/
  | registerWrite (fn : Fn) (sp : RegSpace) (off : Nat) (val : Word) (devSet : Word)
  /-- A virtual function's access to a register it may not reach reads 0 or is ignored, and is logged as violation 0x09 (R31). -/
  | vfForbiddenAccess (fn : Fn) (off : Nat) (isWrite : Bool)
  /-- A function-level reset disables the function's rings, discards unstarted descriptors, resets its registers, unloads its partition's plans, closes its streams and resets its Bell state (R28). -/
  | functionLevelReset (fn : Fn)
  /-- Writing ENABLE = 1 on a submission ring validates it and either enables it with indices at 0 or refuses it with a cause code (R35). -/
  | sqEnable (fn : Fn) (ring : Ring) (val : Word)
  /-- Writing ENABLE = 0 on a submission ring stops fetching at once; fetched descriptors run on (R36). -/
  | sqDisable (fn : Fn) (ring : Ring) (val : Word)
  /-- Writing ENABLE = 1 on a completion ring validates it and either enables it or refuses it with a cause code (R35). -/
  | cqEnable (fn : Fn) (ring : Ring) (val : Word)
  /-- Writing ENABLE = 0 on a completion ring disables it, unless an enabled submission ring names it (cause 0x5) (R35). -/
  | cqDisable (fn : Fn) (ring : Ring) (val : Word)
  /-- A submission-ring tail doorbell offers a new tail, which is accepted or ignored with a violation (R37). -/
  | tailDoorbell (fn : Fn) (page : Fn) (ring : Nat) (tail : Word) (stores : List HostStore)
  /-- A completion-ring head doorbell offers a new head, which returns record space or is ignored with violation 0x04 (R39). -/
  | headDoorbell (fn : Fn) (page : Fn) (ring : Nat) (head : Word)
  /-- A misaligned doorbell write, or one to an unused doorbell-page offset, is ignored and logged as violation 0x03 (R33). -/
  | doorbellBadWrite (fn : Fn) (page : Fn) (pageOff : Nat) (size : Nat)
  /-- The device fetches a descriptor covered by an accepted doorbell and advances HEAD when the fetch completes; a failed fetch halts the ring with a DATA_ERROR record (R38). -/
  | descriptorFetch (fn : Fn) (ring : Ring) (ok : Bool)
  /-- A NOP descriptor does nothing and completes OK (R43). -/
  | nop (fn : Fn) (ring : Ring) (idx : Word)
  /-- A PLAN_LOAD checks a plan image and its sections, places it and installs it under PLAN_ID, or completes REFUSED leaving the old plan intact (R45). -/
  | planLoad (fn : Fn) (ring : Ring) (idx : Word) (errs : List MemEvent)
  /-- A PLAN_RUN descriptor checks its plan, bindings, seed and start beat and schedules one step, or completes REFUSED (R47). -/
  | planRun (fn : Fn) (ring : Ring) (idx : Word) (errs : List MemEvent)
  /-- A BALE_COPY with RAW clear copies bales with header and partition-tag checks, stopping at the first failing bale (R48). -/
  | baleCopy (fn : Fn) (ring : Ring) (idx : Word) (errs : List MemEvent)
  /-- A BALE_COPY with RAW set copies COUNT 64-byte blocks unchanged with no header check (R48). -/
  | baleCopyRaw (fn : Fn) (ring : Ring) (idx : Word) (errs : List MemEvent)
  /-- A SHED_READ checks its pages and address and reads shed pages into memory (R299). -/
  | shedRead (fn : Fn) (ring : Ring) (idx : Word)
  /-- A SHED_WRITE checks its pages and address and writes memory into shed pages (R299). -/
  | shedWrite (fn : Fn) (ring : Ring) (idx : Word)
  /-- A FENCE with SCOPE 0 waits for every earlier descriptor of its ring, and for a beat if BEAT is nonzero (R51). -/
  | fenceRing (fn : Fn) (ring : Ring) (idx : Word)
  /-- A FENCE with SCOPE 1 waits for every descriptor of the function fetched before it, and for a beat if BEAT is nonzero (R51). -/
  | fenceFunction (fn : Fn) (ring : Ring) (idx : Word)
  /-- A FENCE whose waits are met completes and releases the later descriptors of its ring (R51). -/
  | fenceRelease (fn : Fn) (ring : Ring) (idx : Word)
  /-- A CANCEL withdraws a not-yet-started descriptor by tag, or completes TOO_LATE (R58). -/
  | cancel (fn : Fn) (ring : Ring) (idx : Word) (sameCc : Bool)
  /-- A TIME_SET with APPLY bit 0 sets the Yard Time counter from the next beat and raises the time epoch (R345). -/
  | timeSetCounter (fn : Fn) (ring : Ring) (idx : Word)
  /-- A TIME_SET with APPLY bit 1 sets the beat period, effective at the next beat that is a multiple of 4,096 (R53). -/
  | timeSetPeriod (fn : Fn) (ring : Ring) (idx : Word)
  /-- A TIME_SET with APPLY = 0 completes OK_EMPTY (R53). -/
  | timeSetEmpty (fn : Fn) (ring : Ring) (idx : Word)
  /-- A REPLAY_ARM checks the recorded steps and arms the next STEP_COUNT PLAN_RUNs of the plan as replays (R474). -/
  | replayArm (fn : Fn) (ring : Ring) (idx : Word)
  /-- A descriptor with a reserved opcode completes REFUSED and logs violation 0x05 (R43). -/
  | reservedOpcode (fn : Fn) (ring : Ring) (idx : Word)
  /-- KV_OP OPEN binds a free manger buffer to a stream and sets all marks to START (R216). -/
  | kvOpen (fn : Fn) (ring : Ring) (idx : Word)
  /-- KV_OP FLUSH writes the stream's committed manger tokens into pages (R212). -/
  | kvFlush (fn : Fn) (ring : Ring) (idx : Word)
  /-- KV_OP COMMIT advances COMMIT by a count and discards the rest of the drafts if DISCARD_REST is set (R216). -/
  | kvCommit (fn : Fn) (ring : Ring) (idx : Word)
  /-- KV_OP CLOSE drops manger tokens, releases every frame reference and frees the stream (R223). -/
  | kvClose (fn : Fn) (ring : Ring) (idx : Word)
  /-- KV_OP FORK opens a stream sharing the parent's frames below a position (R216). -/
  | kvFork (fn : Fn) (ring : Ring) (idx : Word)
  /-- KV_OP PED_INSERT inserts the stream's sealed blocks into the pedigree (R227). -/
  | pedInsert (fn : Fn) (ring : Ring) (idx : Word)
  /-- KV_OP PED_MATCH matches whole blocks of given token IDs against the pedigree and attaches their frames (R228). -/
  | pedMatch (fn : Fn) (ring : Ring) (idx : Word)
  /-- A KV_OP with an undefined SUBOP completes REFUSED (R50). -/
  | kvOpReserved (fn : Fn) (ring : Ring) (idx : Word)
  /-- The device writes a 32-byte completion record once its operation's data is written and ring space exists; a failed write halts the ring (R61). -/
  | completionRecordWrite (fn : Fn) (ring : Ring) (ok : Bool)
  /-- At the step's start beat the device clears flag slots and GNF, resets barriers and semaphores, loads the microstore and starts the programs (R358). -/
  | stepStart (p : Part)
  /-- A step whose work has ended completes with the highest applicable status and writes its day-book records (R16). -/
  | stepComplete (p : Part)
  /-- At a plan boundary the device applies boundary work: expert map, spares, held clock, time and window settings, and the power loop (R23). -/
  | planBoundary (p : Part) (watts : Nat) (fails : List DieId) (others : List (Fin 16 × List Nat))
  /-- A migration copies one 1 MiB chunk and switches the map entry when done, or stops and is abandoned when a PLAN_RUN arrives (R323). -/
  | migrationChunk (p : Part)
  /-- A sequencer starts a nest, performs its PRE synchronisation and reads its LIVE_SRC 1 live-length words (R163). -/
  | nestStart (core : CoreId) (errs : List MemEvent)
  /-- The sequencer issues one iteration of a nest to its node once its operands are ready, computing it on the engines (R83). -/
  | iterationIssue (core : CoreId) (hostFail : List Nat) (errs : List MemEvent)
  /-- Stalled streams are retried in stall order when a frame becomes free or cached or the pool is raised (R222). -/
  | stallRetry (p : Part)
  /-- When every GRAD collective of the step has completed, GNF becomes final and waiting OPT_STEP iterations proceed (R239). -/
  | gnfFinal (p : Part)
  /-- Once every write of a nest is visible, the sequencer performs POST and passes to NEXT_DESC (R163). -/
  | nestPost (core : CoreId) (hostFail : List Nat)
  /-- A bale in a send half is sent as flits while credits are held (R150). -/
  | chuteBaleSend (p : Part) (plan : Fin 16) (edge : Nat)
  /-- A bale whose last flit has landed becomes ready, with SECDED handling of its flits (R151). -/
  | chuteBaleLand (p : Part) (plan : Fin 16) (edge : Nat) (ce : Nat) (ue : Nat)
  /-- Credits of a bale return to the sender once the last iteration reading it has issued (R150). -/
  | chuteCreditReturn (p : Part) (plan : Fin 16) (edge : Nat)
  /-- A barrier ARRIVE adds 1 to the count and completes the barrier at its target (R160). -/
  | halterArrive (p : Part) (k : Nat) (cc : Nat)
  /-- A semaphore SIGNAL adds AMOUNT, saturating with SEM_OVF, and serves queued waiters (R161). -/
  | halterSignal (p : Part) (k : Nat) (cc : Nat)
  /-- A barrier or semaphore WAIT reaches its home and is queued or satisfied, after every SIGNAL and ARRIVE that
  arrives in the same cc (R161): `ks` lists all of them among the messages under way. -/
  | halterWait (p : Part) (ks : List Nat) (cc : Nat)
  /-- A satisfied wait releases its waiting sequencer (R157). -/
  | halterRelease (k : Nat) (cc : Nat)
  /-- The cluster watchdog fires after CLU_HLT_WDOG_LIMIT cc without progress and satisfies every pending receive and wait (R168). -/
  | watchdogFire (c : ClusterId)
  /-- The Yard Time counter advances by one beat (R345). -/
  | yardBeat
  /-- A beat becomes visible at every sequencer and releases nests waiting on that slot's beat (R165). -/
  | beatDelivery
  /-- A fetch whose last byte has landed completes and releases its readers (R279). -/
  | fetchComplete (p : Part) (slot : Nat) (fails : List (Nat × ShedChan)) (past : Bool)
  /-- At DL with the fetch incomplete, the device withdraws it for a recipe or lets readers wait and counts the miss (R280). -/
  | fetchDeadlineMiss (p : Part) (slot : Nat)
  /-- A request waiting on its path's in-flight limit is admitted when a request of that path completes (R263). -/
  | pathLimitAdmit (die : DieId)
  /-- A request reaches its line's home Loft and hits, allocates or misses, choosing a victim if needed (R264). -/
  | loftAccess (p : Part) (line : Nat) (reqs : List LoftReq) (errs : List MemEvent)
  /-- Sectors fetched from GDDR land in the Loft and are delivered, with ECC handling and stale-reply discard (R265). -/
  | loftFill (k : Nat) (ce : Nat) (ue : Nat) (retries : Nat) (crcFail : Bool)
  /-- A Loft way fails outright; its clean lines are dropped, dirty sectors lost, and executing steps complete DATA_ERROR (R270). -/
  | loftWayFail (c : ClusterId) (way : Fin 17) (readable : Bool)
  /-- A drover stream starts once per step, after START_SEM if set, reads its count, writes length words and signals READY_SEM (R272). -/
  | droverStreamStart (d : DroverId) (fails : List Nat) (errs : List MemEvent)
  /-- A drover builds and delivers one bale of rows or pages to its reading operand under credit flow (R274). -/
  | droverBaleDeliver (d : DroverId) (errs : List MemEvent)
  /-- A drover takes a landed bale and scatters its rows to memory by index (R275). -/
  | droverScatterBale (d : DroverId) (errs : List MemEvent)
  /-- RUNAHEAD beats before a slot, the Yardmaster starts prefetching a waiting nest's first GDDR bales (R325). -/
  | prefetchIssue (core : CoreId)
  /-- Tokens routed to a demoted expert make the Yardmaster fetch its weights back from the shed (R324). -/
  | demandFetch (p : Part) (plan : Fin 16) (expert : Nat) (beats : Nat)
  /-- A per-bank refresh falls due, doubled in rate above 85 °C (R294). -/
  | gddrRefresh (chan : ChanId)
  /-- The controller's patrol scrub reads each sector of a trained channel once every 24 hours (R294). -/
  | gddrPatrolScrub (chan : ChanId) (own : Option (Fn × Nat)) (sec : Fin 16) (err : Option MemError)
  /-- Every 32 ms the GDDR temperature is polled and throttling or self refresh applied (R287). -/
  | gddrTempPoll (chan : ChanId) (front : Nat) (back : Nat) (badMr : Bool)
  /-- Once a row copy finishes, the Farrier switches its remap entry on (R292). -/
  | rowRemapSwitch (chan : ChanId) (entry : Fin 128) (bad : List (Fn × Nat × Fin 16))
  /-- Writing START to GDR_MARGIN_CTRL starts a margining sweep, or sets REFUSED (R296). -/
  | marginStart (val : Word)
  /-- A margining sweep ends, restores the trained settings and sets DONE (R296). -/
  | marginSweepDone (chan : ChanId) (low : Nat) (high : Nat)
  /-- A shed page read finishes, decoded by LDPC with retries, or failed and written as zeros (R301). -/
  | shedPageReadDone (fn : Fn) (ring : Ring) (idx : Word) (page : Nat) (chan : ShedChan) (retries : Nat) (ok : Bool) (past : Bool)
  /-- A shed page program finishes and its journal record is committed (R302). -/
  | shedPageWriteDone (fn : Fn) (ring : Ring) (idx : Word) (page : Nat) (chan : ShedChan) (upto : Fin 7) (fails : Nat) (past : Bool) (errs : List MemEvent)
  /-- The shed relocates a page worn by read disturb or retention in the background (R301). -/
  | shedRelocate (chan : ShedChan) (fails : Nat) (erases : Nat)
  /-- Flash busy for more than 10 ms resets the shed channel (R305). -/
  | flashBusyTimeout (chan : ShedChan) (pages : List (Nat × Nat)) (fetches : List (Nat × Nat))
  /-- A link's training finishes with lane, FEC, identity and credit steps, or holds it down as MISWIRED (R337). -/
  | linkTrainDone (link : LinkId) (bad : List (Fin 9)) (rank : Nat) (dom : Nat) (far : Nat) (delay : Nat)
  /-- Training not finished within 50 ms is retried up to 3 times, then the link stays down (R337). -/
  | linkTrainTimeout (link : LinkId)
  /-- A link leaves UP, raises its epoch and ends transfers in flight with TARGET_RESET or LINK_ERROR (R339). -/
  | linkDown (link : LinkId) (reset : Bool) (lost : List (Part × Landing))
  /-- Writing RESET to HLK_CTRL resets the selected link (R339). -/
  | linkReset (val : Word)
  /-- Writing HLK_CTRL ENABLE holds the link down or lets it train (R363). -/
  | linkEnableWrite (val : Word)
  /-- A data lane fails outright and the link retrains onto the spare or on four lanes (R338). -/
  | laneFail (link : LinkId) (lane : Fin 9)
  /-- A packet is sent on a VC once credits are held, within the partition's window in isolation mode (R334). -/
  | linkPacketSend (link : LinkId) (src : Option LinkId) (origin : Nat) (dest : Nat) (part : Nat) (xfer : Nat) (seq : Nat) (epoch : Nat) (vc : Fin 4) (flits : Nat)
  /-- A packet is received, checked by CRC, epoch and protocol, and forwarded, delivered or discarded with a NAK (R335). -/
  | linkPacketReceive (link : LinkId) (origin : Nat) (dest : Nat) (part : Nat) (xfer : Nat) (seq : Nat) (epoch : Nat) (vc : Fin 4) (flits : Nat) (crcOk : Bool) (badHdr : Option Word) (corr : Nat) (uncorr : Nat)
  /-- An acknowledgement frees packets from the replay buffer (R335). -/
  | linkAckReceive (link : LinkId) (seq : Nat)
  /-- A NAK makes the sender resend from that packet, taking the link down after 8 resends (R335). -/
  | linkNakReceive (link : LinkId) (seq : Nat)
  /-- A credit return restores send credits for a VC (R334). -/
  | linkCreditReturn (link : LinkId) (vc : Fin 4) (n : Nat)
  /-- A drop notice at the origin makes its transfer complete LINK_ERROR (R362). -/
  | dropNoticeReceive (p : Part) (slot : Nat)
  /-- At least every 4,096 beats a link measures its one-way delay by a timestamped exchange (R348). -/
  | linkDelayMeasure (link : LinkId) (delay : Nat)
  /-- A TRANSFER slot sends its data after any SRC_SEM or source wait, late ones counted (R359). -/
  | transferSend (p : Part) (slot : Nat) (errs : List MemEvent)
  /-- A transfer's last byte becomes visible at the peer and LAND_SEM is signalled (R359). -/
  | transferLand (p : Part) (slot : Option Nat) (inc : Option Landing)
  /-- A follower takes a time frame from its uplink, adjusting for delay and adopting a new time epoch (R347). -/
  | timeFrameReceive (link : LinkId) (count : Nat) (period : Nat) (epoch : Nat) (synced : Bool) (crcOk : Bool) (phase : Int) (lost : Bool)
  /-- A pin-fed follower takes a marker frame from the YT_REF marker pair (R347). -/
  | markerFrameReceive (count : Nat) (period : Nat) (epoch : Nat) (synced : Bool) (crcOk : Bool) (phase : Int) (lost : Bool)
  /-- A PTP message arrives with a hardware timestamp and updates Yard Time alignment (R344). -/
  | ptpMessageReceive (port : Fin 2) (ns : Nat) (frac : Int) (sync : Bool) (broken : Bool) (lost : Bool)
  /-- A Yard Time reference missing for 4 expected intervals is lost; the module enters HOLDOVER (R350). -/
  | referenceLost
  /-- At the end of each 4,096-beat interval the reference rate is checked and rejected beyond 100 ppm (R350). -/
  | referenceRateCheck (rate : Int)
  /-- A reference returns to a module in HOLDOVER or UNSYNC, which enters ACQUIRE (R352). -/
  | referenceReturn
  /-- A reference held within 100 ppm for 256 ms qualifies and the module enters SLEW (R352). -/
  | referenceQualified (phase : Int) (rate : Int) (expired : Bool)
  /-- A holdover of 60 s clears SYNCED and enters UNSYNC, stopping strict plans (R351). -/
  | holdoverExpiry
  /-- A write to YTM_CTRL changes the Yard Time source, held to a plan boundary while a step executes (R346). -/
  | ytmCtrlWrite (val : Word)
  /-- An Ethernet frame arrives on a port and is handled for RoCE v2 or PTP (R342). -/
  | ethFrameReceive (port : Fin 2) (len : Nat) (fcsOk : Bool) (broken : Bool)
  /-- A RoCE v2 request is served as RDMA WRITE, READ or SEND, or answered with a NAK (R343). -/
  | roceRequest (port : Fin 2) (qp : Nat) (kind : Nat) (psn : Nat)
  /-- A member sends its collective contribution after any SRC_SEM wait, stamped at the first byte (R384). -/
  | contributionSend (p : Part) (coll : Nat) (errs : List MemEvent)
  /-- A child sum lands at a parent, is added in position order, or held or dropped if late (R372). -/
  | childSumReceive (p : Part) (plan : Nat) (step : Nat) (coll : Nat) (shard : Nat) (pos : Nat) (hdr : SumHdr) (data : List Word) (past : Bool)
  /-- At its close beat a parent waits (strict) or leaves missing children out (elastic) (R385). -/
  | parentClose (p : Part) (coll : Nat) (shard : Nat)
  /-- A member receives the broadcast result and header, writes it and signals DONE_SEM (R371). -/
  | collectiveResultReceive (p : Part) (coll : Nat) (shard : Nat) (hdr : SumHdr) (data : List Word)
  /-- All-to-all rows from a sender are written at the receiver in rank order (R378). -/
  | a2aRowsReceive (p : Part) (coll : Nat) (msg : RowMsg) (past : Bool)
  /-- A whistle vector arrives on VC2 and is combined in the member's current phase (R382). -/
  | whistleMessageReceive (p : Part) (coll : Nat) (sender : Nat) (phase : Fin 4) (hdr : SumHdr) (data : List Word)
  /-- A write to MUS_CANCEL withdraws this module's contribution to a collective (R391). -/
  | musCancel (fn : Fn) (val : Word) (sameCc : Bool)
  /-- A RESET mark makes a member write poisoned zeros, zero counts and signal DONE_SEM (R392). -/
  | resetMarkReceive (p : Part) (coll : Nat)
  /-- Writing ENABLE = 1 to OST_CTRL validates and enables the pool, or refuses with a cause (R200). -/
  | ostEnable (fn : Fn) (val : Word)
  /-- Writing ENABLE = 0 to OST_CTRL disables the pool, ignored while a stream is open (R200). -/
  | ostDisable (fn : Fn) (val : Word)
  /-- Raising OST_POOL_FRAMES or OST_HOST_FRAMES while enabled adds frames; lowering is ignored (R201). -/
  | poolFramesWrite (fn : Fn) (host : Bool) (val : Word)
  /-- The owner sets a partition's frame quota, ignored with QUOTA_ERR if out of bounds (R233). -/
  | ostPartFramesWrite (p : Part) (val : Word)
  /-- The owner sets a partition's node quota, ignored with QUOTA_ERR if out of bounds (R233). -/
  | pedPartNodesWrite (p : Part) (val : Word)
  /-- A PED_KEY write of word 3 commits a new pedigree key and removes the partition's nodes (R233). -/
  | pedKeyWrite (p : Part) (w : Fin 4) (val : Word)
  /-- Writing ENABLE = 1 in PRT_CTRL validates a partition and makes it ACTIVE, drawing its keys (R398). -/
  | prtEnable (p : Part) (val : Word)
  /-- Writing RELEASE = 1 starts releasing an ACTIVE partition with function-reset effects (R402). -/
  | prtRelease (p : Part) (val : Word)
  /-- Once the partition's work has ended, keys are destroyed and Lofts, scratch, GDDR and shed mappings scrubbed (R402). -/
  | releaseScrub (p : Part)
  /-- When scrubbing ends the partition becomes FREE, SCRUB_DONE is set and the owner's source raised (R402). -/
  | releaseDone (p : Part) (ms : Nat)
  /-- A write of WHISTLE in PRT_CTRL changes whistle-slot rotation at the next plan boundary (R398). -/
  | prtWhistleWrite (p : Part) (val : Word)
  /-- A write to a partition configuration register or PRT_OWNER_LINES is accepted only while allowed, else ignored with cause 0x7 (R398). -/
  | prtConfigWrite (off : Nat) (val : Word)
  /-- Writing ISOLATE = 1 turns isolation mode on if signed Nynik runs and every partition is FREE (R404). -/
  | isolateWrite (val : Word)
  /-- A window-map write takes effect, or is held to a plan boundary while a named partition runs a step (R408). -/
  | windowMapWrite (off : Nat) (val : Word)
  /-- A write to CLK_CTRL switches reference or loop, holds a FOSC switch to a boundary, or is refused (R416). -/
  | clkCtrlWrite (val : Word)
  /-- A SPREAD write takes effect at the next plan boundary (R422). -/
  | clkSscWrite (val : Word)
  /-- A CLK_FREQ_BOUNDS or CLK_PWR_CAP write is taken or ignored with BOUND_ERR (R430). -/
  | clkBoundsWrite (off : Nat) (val : Word)
  /-- A faulty clock reference makes the loop hold, fail over to XB or later re-reference to FOSC (R418). -/
  | clockRefFault (xb : Bool)
  /-- LOOP_A losing lock moves the root to LOOP_B; losing both falls back to FOSC and INTERNAL (R420). -/
  | loopLockLoss (b : Bool)
  /-- A unit idle for 16 core clocks has its clock gated (R421). -/
  | clockGate (unit : Fin 1152)
  /-- Every 100 µs each die reports its junction temperature and the thresholds are applied (R426). -/
  | thermalSample (temps : List Nat)
  /-- A die still above 105 °C 1 ms into an emergency issues only every other core clock (R427). -/
  | emergencyThrottle (die : Fin 5)
  /-- An emergency ends after 100 ms below 95 °C (R427). -/
  | emergencyEnd (die : Fin 5)
  /-- Every 1 µs the input monitor samples VIN, counting dips and starting the warning sequence (R429). -/
  | vinSample (v : Nat)
  /-- At 2 ms after the warning the regulators are turned off in order (R429). -/
  | vinHoldupEnd
  /-- VIN above 42 V for 100 ms starts a module reset (R429). -/
  | vinRecovery
  /-- The Bell chooses a deliverable source, samples its mask and takes its vector (R435). -/
  | bellDecision (fn : Fn)
  /-- Eight cc after decision the Bell checks masks and sends the MSI-X write, making the source ACTIVE (R435). -/
  | bellCommit (fn : Fn)
  /-- A write to BEL_COMPLETE completes an active source, or counts a stray (R434). -/
  | belComplete (fn : Fn) (val : Word)
  /-- Writing 1 to a BEL_PENDING bit removes a pending raise without delivery (R433). -/
  | belPendingWrite (fn : Fn) (val : Word) (raised : Word)
  /-- A Bell doorbell RAISE raises a software source (R438). -/
  | bellDoorbellRaise (fn : Fn) (page : Fn) (val : Word)
  /-- A Bell doorbell COMPLETE completes a source as a BEL_COMPLETE write does (R438). -/
  | bellDoorbellComplete (fn : Fn) (page : Fn) (val : Word)
  /-- Within 4 cc of the control clock restarting, each set always-on latch raises its source once (R440). -/
  | latchRaise
  /-- Power-on starts a module reset (R443). -/
  | powerOn
  /-- A PCIe fundamental reset starts a module reset (R443). -/
  | perstAssert
  /-- An owner write of MODULE_RESET with KEY 0xB007 starts a module reset (R460). -/
  | moduleReset (val : Word)
  /-- Nynik left unserviced for 2 s starts a module reset (R443). -/
  | nynikWatchdog
  /-- After reset the ROM chooses and checks an image, Nynik reads settings and brings up clocks, memory and links to READY (R444). -/
  | startup (unread : List (Fin 2)) (xa : Bool) (xb : Bool) (fails : List (Nat × Nat)) (translates : List (Nat × Nat × Nat × List Byte)) (chans : List ChanId) (sheds : List ShedChan)
  /-- Writing CONFIRM marks the tried slot GOOD and raises the fused minimum security version (R449). -/
  | confirm (val : Word)
  /-- Writing START installs a firmware image from host memory into the other slot, or refuses (R450). -/
  | fwInstallStart (val : Word) (sigOk : Bool) (prod : Bool)
  /-- An install finishes its flash steps and sets INSTALLED (R450). -/
  | fwInstallComplete (ok : Bool)
  /-- Writing BOOT_SAVE makes Nynik write the chosen classes as settings records (R453). -/
  | bootSave (val : Word) (bad : Bool)
  /-- With under 64 KiB free, or at an install, the settings log is compacted into the other bank (R454). -/
  | settingsCompaction
  /-- A GO in BOOT_UNIT_RESET, or a Farrier order, resets a die, cluster, GDDR or shed channel, raising its epoch (R458). -/
  | unitResetGo (val : Word) (far : Bool) (pages : List (Nat × Nat)) (fetches : List (Nat × Nat)) (lands : List (Part × Landing))
  /-- A reset unit leaves reset once reinitialised and every old-epoch request has ended (R458). -/
  | unitResetExit (kind : Nat) (index : Nat) (ok : Bool) (retained : Bool)
  /-- Every hour the Farrier updates each part's score and marks parts DUE (R464). -/
  | farrierHourly
  /-- Writing GO to FAR_APPLY schedules swaps of DUE parts when AUTO is 0 (R465). -/
  | farApply (val : Word)
  /-- A part fails outright and is replaced at once, or its cluster becomes unavailable (R466). -/
  | partFailure (kind : Nat) (n : Nat) (ps : List Part)
  /-- A fault in the device's own control logic makes operations complete INTERNAL (R463). -/
  | internalFault (code : Nat) (fn : Fn) (ring : Ring) (idx : Word) (core : Nat) (ps : List Part)
  /-- Writing ENABLE = 1 to DAY_CTRL validates and enables the day-book ring (R479). -/
  | dayEnable (fn : Fn) (val : Word)
  /-- Writing ENABLE = 1 validates and enables a video context (R484). -/
  | vcdEnable (fn : Fn) (val : Word)
  /-- Writing STOP finishes the frame on a pipe and returns the context to IDLE (R501). -/
  | vcdStop (fn : Fn) (val : Word)
  /-- The device reads IN_TAIL after each entry and at least every 8 µs while RUNNING (R485). -/
  | videoTailPoll (x : Fin 256) (stores : List HostStore)
  /-- An AU input entry feeds an access unit to the decoder (R485). -/
  | videoAu (x : Fin 256) (frames : List (Bool × Nat × Nat)) (resyncs : Nat) (errs : List MemEvent)
  /-- A RELEASE input entry clears HELD on a frame buffer (R488). -/
  | videoRelease (x : Fin 256)
  /-- A FLUSH input entry outputs every pending frame (R485). -/
  | videoFlush (x : Fin 256) (frames : List (Bool × Nat × Nat))
  /-- A FRAME input entry gives a source frame to the encoder (R496). -/
  | videoFrame (x : Fin 256)
  /-- A pipe finishes a frame and takes the next context that has waited longest (R490). -/
  | videoFrameDone (pipe : Fin 5) (planes : List Byte) (ref : Bool) (unref : List Nat)
  /-- The patcher writes a frame's token groups when room exists and advances TOK_WRITTEN (R495). -/
  | videoTokensWrite (x : Fin 256) (w : Nat) (h : Nat) (rgb : List Word)
  /-- An encoded slice becomes visible in the bitstream ring and its record is written (R499). -/
  | videoSliceDone (x : Fin 256) (bytes : List Byte) (last : Bool)
  /-- A video output record is written when the output ring has room, raising the video source if asked (R486). -/
  | videoRecordWrite (x : Fin 256)
  /-- The STATUS command returns module status and releases ALERT# (R505). -/
  | smbStatus (write : Bool) (extra : Nat) (change : Bool)
  /-- The TEMP_MAX command returns the highest die junction temperature (R505). -/
  | smbTempMax (write : Bool) (extra : Nat)
  /-- The POWER command returns the 1 ms input power (R505). -/
  | smbPower (write : Bool) (extra : Nat) (watts : Nat)
  /-- The VIN command returns the input voltage (R505). -/
  | smbVin (write : Bool) (extra : Nat)
  /-- The COOLANT command returns inlet and outlet temperatures (R505). -/
  | smbCoolant (write : Bool) (extra : Nat) (inlet : Byte) (outlet : Byte)
  /-- A Read Word of BOARD_CAP returns the board power cap (R505). -/
  | smbBoardCapRead (extra : Nat)
  /-- A Write Word of BOARD_CAP sets the board power cap or is refused as out of range (R506). -/
  | smbBoardCapWrite (v : Nat) (pec : Option Nat) (cut : Option (Fin 2)) (hang : Bool)
  /-- An IDENTITY command returns 32 bytes of the identity record (R505). -/
  | smbIdentity (k : Fin 8) (write : Bool) (extra : Nat)
  /-- A reserved command byte is NACKed and logged as violation 0x01 (R507). -/
  | smbReservedCommand (cmd : Nat)
  /-- SCL held low for 25–35 ms makes the target release SDA and reset its state machine (R508). -/
  | sclTimeout (cmd : Option Nat)
  /-- An on-module bus transaction whose address is NACKed is retried at 1 ms intervals up to 3 times (R509). -/
  | controllerNackRetry (ack : Bool)
  /-- The controller clocks SCL to free a stuck SDA, isolating the bus after three failed attempts (R510). -/
  | busRecovery (fails : Fin 4)
  /-- Writing BUS_RETRY runs one further set of three recovery attempts (R510). -/
  | busRetry (val : Word) (fails : Fin 4)
  /-- The IDCODE instruction selects the identification register (R511). -/
  | jtagIdcode
  /-- The SAMPLE/PRELOAD instruction samples or preloads the boundary cells (R511). -/
  | jtagSamplePreload (cells : Nat)
  /-- The EXTEST instruction drives boundary cells while PERST# is asserted, otherwise acts as BYPASS (R511). -/
  | jtagExtest
  /-- The CLAMP instruction holds outputs while PERST# is asserted, otherwise acts as BYPASS (R511). -/
  | jtagClamp
  /-- The HIGHZ instruction floats outputs while PERST# is asserted, otherwise acts as BYPASS (R511). -/
  | jtagHighz
  /-- The BYPASS instruction, or a private instruction without the debug fuse, selects the bypass register (R511). -/
  | jtagBypass (code : Nat)
  /-- A crystal or reference input XA or XB becomes ready once its edges have run without a gap for 10 ms at a rate within 12 % of 25 MHz, setting XA_READY or XB_READY (R414). -/
  | clockRefReady (xb : Bool)
  /-- An Ethernet port links up or loses its link, changing HLK_ETH_STATUS UP and RATE (R363). -/
  | ethPortLinkChange (port : Fin 2) (up : Bool) (rate : Bool)
deriving DecidableEq, Repr

end Sys2Proof
end

