-- ==== Sys2Proof/Config.lean ====
section
/-! DEFINITION. What an implementation fixes and the free values: constants without a body, of
which no proof can know anything but their type (refer to notes/assumptions). -/

namespace Sys2Proof.Config

/-- What a byte of a partition's GDDR reads as that nothing has written, for the draw of keys the
partition holds (R403: unpredictable; DESIGN CHOICE, log entry 2). Arguments: key epoch, partition offset. -/
opaque unwrittenByte : Nat → Nat → Byte

/-- A shed page byte written under other keys, or by the owner, and read by a partition (R399, R403:
unpredictable; DESIGN CHOICE, log entry 2). Arguments: key epoch of the reader, page, byte. -/
opaque foreignShedByte : Nat → Nat → Nat → Byte

/-- A value a unit draws at random, such as a pedigree key (R226), for each draw (DESIGN CHOICE, log entry 8). -/
opaque randomWord : Nat → Word

/-- A value the spec leaves undefined or unstated, read with the state's free-value counter
(DESIGN CHOICE, log entry 19). -/
opaque freeValue : Nat → Word

/-- Which of the FP32 values less than 1 ulp from the exact result the SFU gives (R135, R136: the same
on every module and stepping, but not stated; DEDUCED, log entry 65). Arguments: the function and its argument. -/
opaque sfuPick : Nat → Nat → Nat

/-- A ROM step of the microstore, entries 0–319, and a ROM word of its table, words 0–1,535 (R139: not listed;
PRESUMED, log entry 64). -/
opaque romStep : Nat → BitVec 64
opaque romWord : Nat → Word

/-- The entry, before it is brought into range, that TLU looks up for a NaN (R142 states none; DESIGN CHOICE,
log entry 79). Argument: the step's IMM. -/
opaque tluNan : Nat → Nat

/-- The blocks of the shed's raw capacity (R304: the share below which the shed is read-only; no rule states the
number; DESIGN CHOICE, log entry 44). -/
opaque shedBlocks : Nat

/-- What a counter of physical events the spec does not let follow reads: GDR_ROW_MISS (R306: row activations,
whose paging policy no rule states) and YMS_BOUNDARY_DELAY_BEATS (R323: a duration of a boundary). Arguments:
the register, its instance and the free-value counter (DESIGN CHOICE, log entries 44 and 60). -/
opaque physicalCount : Nat → Nat → Nat → Word

end Sys2Proof.Config
end

