-- ==== Sys2Proof/Machine/EngineData.lean ====
section
/-! DEFINITION. What the engines hold between iterations, as plain data: flag events and accumulator
lanes (spec/04 R103, R115; spec/05 R126, R128, R132). -/

namespace Sys2Proof.Machine

/-- The sticky flag events of R115, and the domain events of R134. -/
structure Flags where
  ovf : Bool
  nf : Bool
  sat : Bool
  /-- SFU inputs outside their domain (R134). -/
  dom : Nat
deriving DecidableEq, Repr

/-- What an accumulator or lane holds (R103, R126, R128, R132): whether anything was taken, up to two
FP32 words, and a count. -/
structure Lane where
  full : Bool
  a : Word
  b : Word
  n : Nat
deriving DecidableEq, Repr

end Sys2Proof.Machine
end

