-- ==== Sys2Proof/Machine/PlanData.lean ====
section
/-! DEFINITION. A loaded plan as plain data: the records of its sections (spec/03 R75 to R80, spec/06
R162, spec/09 R255, spec/12 R307 to R314, spec/13 R355 and R356, spec/14 R365 to R367) and the
placement the Yardmaster made of it (R315). -/

namespace Sys2Proof.Machine

/-- A level record of a loop descriptor (R79). -/
structure Level where
  bound : Nat
  tile : Nat
  liveSrc : Nat
  liveLevel : Nat
  liveTensor : Nat
  liveIndex : Nat
deriving DecidableEq, Repr

/-- An operand record (R80). -/
structure Operand where
  role : Nat
  port : Nat
  format : Nat
  shape : Nat
  rows : Nat
  cols : Nat
  rowLevel : Nat
  colLevel : Nat
  tensor : Nat
  pad : Nat
  strides : List Int
  offset : Nat
  hint : Nat
  rowBase : Nat
  colBase : Nat
deriving DecidableEq, Repr

/-- A loop descriptor (R77) with its SYNC field (R162); `order` lists the logical level of each depth. -/
structure Desc where
  order : List Nat
  node : Nat
  next : Nat
  preKind : Nat
  postKind : Nat
  iterKind : Nat
  preRef : Nat
  postRef : Nat
  iterSem : Nat
  amount : Nat
  levels : List Level
  ops : List Operand
deriving DecidableEq, Repr

/-- A tensor entry (R308). -/
structure TensorEnt where
  id : Nat
  arg : Bool
  words : Bool
  bytes : Nat
  binding : Nat
  expert : Nat
deriving DecidableEq, Repr

/-- A node entry (R309), with its record's bytes and the extension operands they hold. -/
structure NodeEnt where
  kind : Nat
  numerics : Nat
  vop : Nat
  program : Nat
  params : List Nat
  record : List Byte
  expert : Nat
deriving DecidableEq, Repr

/-- An edge entry (R311). -/
structure EdgeEnt where
  srcNode : Nat
  dstNode : Nat
  srcOp : Nat
  dstOp : Nat
  rxUnits : Nat
deriving DecidableEq, Repr

/-- A sync entry (R312): plan identifier, kind and target or initial value. -/
structure SyncEnt where
  id : Nat
  sem : Bool
  value : Nat
deriving DecidableEq, Repr

/-- A placement intent (R314); `value` is its 8 bytes as a number. -/
structure Intent where
  kind : Nat
  pin : Bool
  subject : Nat
  value : Nat
deriving DecidableEq, Repr

/-- A slot of the yard schedule (R356). -/
structure Slot where
  beat : Nat
  kind : Nat
  srcWait : Bool
  drop : Bool
  deadline : Nat
  subject : Nat
  srcOffset : Nat
  length : Nat
  peer : Nat
  dstTensor : Nat
  dstOffset : Nat
  landSem : Nat
  srcSem : Nat
deriving DecidableEq, Repr

/-- A recompute recipe (R255). -/
structure Recipe where
  tensor : Nat
  always : Bool
  program : Nat
  inputs : List Nat
deriving DecidableEq, Repr

/-- A collective entry (R367), its member list (plan ranks) and, for A2A_EXPERT, its expert table. -/
structure Coll where
  op : Nat
  grad : Bool
  srcWait : Bool
  ret : Bool
  carry : Nat
  round : Nat
  redop : Nat
  fanin : Nat
  colTiles : Nat
  src : Nat
  dst : Nat
  length : Nat
  countTensor : Nat
  recvTensor : Nat
  doneSem : Nat
  levelBeats : Nat
  srcSem : Nat
  argA : Nat
  members : List Nat
  experts : List Nat
deriving DecidableEq, Repr

/-- A chute as the Yardmaster binds it (R148, R311): a sending end and a receiving end. An end is a
core and port, or drover `core - 256` where the number is 256 or more. -/
structure BoundEdge where
  srcCore : Nat
  srcPort : Nat
  dstCore : Nat
  dstPort : Nat
  rxUnits : Nat
  srcNode : Nat
  dstNode : Nat
deriving DecidableEq, Repr

/-- A loaded plan (R45, R46) and its placement (R315). -/
structure Plan where
  crc : Nat
  programs : List Nat
  descs : List Desc
  tensors : List TensorEnt
  nodes : List NodeEnt
  edges : List EdgeEnt
  syncs : List SyncEnt
  ucode : List (BitVec 64)
  table : List Word
  intents : List Intent
  slots : List Slot
  period : Nat
  elastic : Bool
  alignLog2 : Nat
  stepBeats : Nat
  recipes : List Recipe
  ranks : List Nat
  colls : List Coll
  ownRank : Option Nat
  /-- Placed programs: program and core. -/
  cores : List (Nat × Nat)
  /-- Placed DROVE nodes: node and drover. -/
  drovers : List (Nat × Nat)
  /-- Tensors placed by the Yardmaster: identifier and device address. -/
  homes : List (Nat × Nat)
  bound : List BoundEdge
  /-- Semaphores: plan identifier and physical number (cluster × 4,096 + semaphore). -/
  sems : List (Nat × Nat)
  /-- Barriers: plan identifier and physical number (core × 64 + barrier). -/
  bars : List (Nat × Nat)
deriving DecidableEq, Repr

/-- What the Yardmaster keeps of one expert (R319 to R322). -/
structure Expert where
  replicas : Nat
  score : Nat
  /-- Boundaries in a row with a wish above R_e, below R_e, and with the demotion test. -/
  above : Nat
  below : Nat
  cold : Nat
  shed : Bool
  /-- Mask of the stable positions that hold replicas. -/
  mask : Nat
deriving DecidableEq, Repr

end Sys2Proof.Machine
end

