-- ==== Sys2Proof/Machine/RegMap.lean ====
section
/-! DEFINITION. The register map: every register of the spec's tables by its own name, with the
bits, access type (R8) and reset value of each field. Bits that no field covers are RSVD. A reset
the spec gives as "per part", "per image", "strap" or "kept" is 0 here (DESIGN CHOICE, log entry 3). -/

namespace Sys2Proof.Machine

/-- A field of a register: the register's BAR0 offset, its lowest bit and its width (R3). -/
structure Field where
  off : Nat
  lo : Nat
  w : Nat
deriving DecidableEq, Repr

/-- The access types of R8; RSVD is what no field covers. -/
inductive Access where
  | rw | ro | wo | w1c
deriving DecidableEq, Repr

/-- One row of a register table: bits, access type and reset value of a field. -/
structure FieldRow where
  lo : Nat
  w : Nat
  acc : Access
  reset : Nat
deriving DecidableEq, Repr

/-- A register: its offset (of the first of an array) and its fields. -/
structure RegRow where
  off : Nat
  fields : List FieldRow
deriving DecidableEq, Repr

/-! Registers of spec/02_host_rings.md (R30, R34). -/

abbrev CLUSTER_SEL : Nat := 0x1000000
abbrev CLUSTER_SEL_CLUSTER : Field := ⟨0x1000000, 0, 5⟩
abbrev CORE_SEL : Nat := 0x1000004
abbrev CORE_SEL_CORE : Field := ⟨0x1000004, 0, 3⟩
abbrev CLU_WIN_STATUS : Nat := 0x1000008
abbrev CLU_WIN_STATUS_SEL_ERR : Field := ⟨0x1000008, 0, 1⟩
abbrev HCI_ID : Nat := 0x0
abbrev HCI_ID_STEPPING : Field := ⟨0x0, 0, 8⟩
abbrev HCI_ID_MODULE_REV : Field := ⟨0x0, 8, 8⟩
abbrev HCI_ID_FUNCTION : Field := ⟨0x0, 16, 8⟩
abbrev HCI_ID_PARTITION : Field := ⟨0x0, 24, 6⟩
abbrev HCI_CAPS : Nat := 0x4
abbrev HCI_CAPS_MAX_SQ : Field := ⟨0x4, 0, 8⟩
abbrev HCI_CAPS_MAX_CQ : Field := ⟨0x4, 8, 8⟩
abbrev HCI_CAPS_MAX_PLANS : Field := ⟨0x4, 16, 8⟩
abbrev HCI_STATUS : Nat := 0x10
abbrev HCI_STATUS_SETUP_ERR : Field := ⟨0x10, 0, 1⟩
abbrev HCI_STATUS_VIOL : Field := ⟨0x10, 1, 1⟩
abbrev HCI_SETUP_ERR_CODE : Nat := 0x14
abbrev HCI_SETUP_ERR_CODE_CODE : Field := ⟨0x14, 0, 4⟩
abbrev HCI_SETUP_ERR_CODE_RING : Field := ⟨0x14, 4, 6⟩
abbrev HCI_SETUP_ERR_CODE_IS_CQ : Field := ⟨0x14, 10, 1⟩
abbrev HCI_VIOL_CODE : Nat := 0x20
abbrev HCI_VIOL_CODE_CODE : Field := ⟨0x20, 0, 8⟩
abbrev HCI_VIOL_VALUE : Nat := 0x24
abbrev HCI_VIOL_VALUE_VALUE : Field := ⟨0x24, 0, 32⟩
abbrev HCI_VIOL_COUNT : Nat := 0x28
abbrev HCI_VIOL_COUNT_COUNT : Field := ⟨0x28, 0, 32⟩
abbrev HCI_SQ_BASE_LO (n : Nat) : Nat := 0x1000 + 0x40 * n
abbrev HCI_SQ_BASE_LO_BASE (n : Nat) : Field := ⟨0x1000 + 0x40 * n, 12, 20⟩
abbrev HCI_SQ_BASE_HI (n : Nat) : Nat := 0x1004 + 0x40 * n
abbrev HCI_SQ_BASE_HI_BASE (n : Nat) : Field := ⟨0x1004 + 0x40 * n, 0, 32⟩
abbrev HCI_SQ_CTRL (n : Nat) : Nat := 0x1008 + 0x40 * n
abbrev HCI_SQ_CTRL_ENABLE (n : Nat) : Field := ⟨0x1008 + 0x40 * n, 0, 1⟩
abbrev HCI_SQ_CTRL_SIZE_LOG2 (n : Nat) : Field := ⟨0x1008 + 0x40 * n, 4, 5⟩
abbrev HCI_SQ_CTRL_CQ_ID (n : Nat) : Field := ⟨0x1008 + 0x40 * n, 16, 6⟩
abbrev HCI_SQ_CTRL_PRIO (n : Nat) : Field := ⟨0x1008 + 0x40 * n, 24, 2⟩
abbrev HCI_SQ_HEAD (n : Nat) : Nat := 0x100C + 0x40 * n
abbrev HCI_SQ_HEAD_HEAD (n : Nat) : Field := ⟨0x100C + 0x40 * n, 0, 32⟩
abbrev HCI_SQ_TAIL (n : Nat) : Nat := 0x1010 + 0x40 * n
abbrev HCI_SQ_TAIL_TAIL (n : Nat) : Field := ⟨0x1010 + 0x40 * n, 0, 32⟩
abbrev HCI_SQ_STATUS (n : Nat) : Nat := 0x1014 + 0x40 * n
abbrev HCI_SQ_STATUS_DRAINED (n : Nat) : Field := ⟨0x1014 + 0x40 * n, 0, 1⟩
abbrev HCI_SQ_STATUS_HALTED (n : Nat) : Field := ⟨0x1014 + 0x40 * n, 1, 1⟩
abbrev HCI_CQ_BASE_LO (n : Nat) : Nat := 0x2000 + 0x40 * n
abbrev HCI_CQ_BASE_LO_BASE (n : Nat) : Field := ⟨0x2000 + 0x40 * n, 12, 20⟩
abbrev HCI_CQ_BASE_HI (n : Nat) : Nat := 0x2004 + 0x40 * n
abbrev HCI_CQ_BASE_HI_BASE (n : Nat) : Field := ⟨0x2004 + 0x40 * n, 0, 32⟩
abbrev HCI_CQ_CTRL (n : Nat) : Nat := 0x2008 + 0x40 * n
abbrev HCI_CQ_CTRL_ENABLE (n : Nat) : Field := ⟨0x2008 + 0x40 * n, 0, 1⟩
abbrev HCI_CQ_CTRL_SIZE_LOG2 (n : Nat) : Field := ⟨0x2008 + 0x40 * n, 4, 5⟩
abbrev HCI_CQ_CTRL_IRQ_EN (n : Nat) : Field := ⟨0x2008 + 0x40 * n, 12, 1⟩
abbrev HCI_CQ_TAIL (n : Nat) : Nat := 0x200C + 0x40 * n
abbrev HCI_CQ_TAIL_TAIL (n : Nat) : Field := ⟨0x200C + 0x40 * n, 0, 32⟩
abbrev HCI_CQ_HEAD (n : Nat) : Nat := 0x2010 + 0x40 * n
abbrev HCI_CQ_HEAD_HEAD (n : Nat) : Field := ⟨0x2010 + 0x40 * n, 0, 32⟩
abbrev HCI_CQ_STATUS (n : Nat) : Nat := 0x2014 + 0x40 * n
abbrev HCI_CQ_STATUS_FULL (n : Nat) : Field := ⟨0x2014 + 0x40 * n, 0, 1⟩
abbrev HCI_CQ_STATUS_HALTED (n : Nat) : Field := ⟨0x2014 + 0x40 * n, 1, 1⟩
abbrev HCI_CQ_STATUS_FULL_STALLS (n : Nat) : Field := ⟨0x2014 + 0x40 * n, 2, 30⟩

/-- The rows of spec/02_host_rings.md, one per register (arrays once). -/
def regRows02 : List RegRow := [
  ⟨0x1000000, [⟨0, 5, .rw, 0x0⟩]⟩,
  ⟨0x1000004, [⟨0, 3, .rw, 0x0⟩]⟩,
  ⟨0x1000008, [⟨0, 1, .w1c, 0x0⟩]⟩,
  ⟨0x0, [⟨0, 8, .ro, 0x0⟩, ⟨8, 8, .ro, 0x2⟩, ⟨16, 8, .ro, 0x0⟩, ⟨24, 6, .ro, 0x0⟩]⟩,
  ⟨0x4, [⟨0, 8, .ro, 0x40⟩, ⟨8, 8, .ro, 0x40⟩, ⟨16, 8, .ro, 0x10⟩]⟩,
  ⟨0x10, [⟨0, 1, .w1c, 0x0⟩, ⟨1, 1, .w1c, 0x0⟩]⟩,
  ⟨0x14, [⟨0, 4, .ro, 0x0⟩, ⟨4, 6, .ro, 0x0⟩, ⟨10, 1, .ro, 0x0⟩]⟩,
  ⟨0x20, [⟨0, 8, .ro, 0x0⟩]⟩,
  ⟨0x24, [⟨0, 32, .ro, 0x0⟩]⟩,
  ⟨0x28, [⟨0, 32, .ro, 0x0⟩]⟩,
  ⟨0x1000, [⟨12, 20, .rw, 0x0⟩]⟩,
  ⟨0x1004, [⟨0, 32, .rw, 0x0⟩]⟩,
  ⟨0x1008, [⟨0, 1, .rw, 0x0⟩, ⟨4, 5, .rw, 0x0⟩, ⟨16, 6, .rw, 0x0⟩, ⟨24, 2, .rw, 0x0⟩]⟩,
  ⟨0x100C, [⟨0, 32, .ro, 0x0⟩]⟩,
  ⟨0x1010, [⟨0, 32, .ro, 0x0⟩]⟩,
  ⟨0x1014, [⟨0, 1, .ro, 0x1⟩, ⟨1, 1, .ro, 0x0⟩]⟩,
  ⟨0x2000, [⟨12, 20, .rw, 0x0⟩]⟩,
  ⟨0x2004, [⟨0, 32, .rw, 0x0⟩]⟩,
  ⟨0x2008, [⟨0, 1, .rw, 0x0⟩, ⟨4, 5, .rw, 0x0⟩, ⟨12, 1, .rw, 0x0⟩]⟩,
  ⟨0x200C, [⟨0, 32, .ro, 0x0⟩]⟩,
  ⟨0x2010, [⟨0, 32, .ro, 0x0⟩]⟩,
  ⟨0x2014, [⟨0, 1, .ro, 0x0⟩, ⟨1, 1, .ro, 0x0⟩, ⟨2, 30, .ro, 0x0⟩]⟩]

/-! Registers of spec/03_bales_loops.md (R92). -/

abbrev SEQ_STATUS : Nat := 0x1003000
abbrev SEQ_STATUS_RUNNING : Field := ⟨0x1003000, 0, 1⟩
abbrev SEQ_STATUS_FAULT : Field := ⟨0x1003000, 1, 1⟩
abbrev SEQ_STATUS_CUR_DESC : Field := ⟨0x1003000, 16, 16⟩
abbrev SEQ_FAULT : Nat := 0x1003004
abbrev SEQ_FAULT_CODE : Field := ⟨0x1003004, 0, 8⟩
abbrev SEQ_FAULT_DESC : Field := ⟨0x1003004, 8, 16⟩
abbrev SEQ_FAULT_OPERAND : Field := ⟨0x1003004, 24, 4⟩
abbrev SEQ_FAULT_LEVEL : Field := ⟨0x1003004, 28, 3⟩
abbrev SEQ_ISSUED_LO : Nat := 0x1003008
abbrev SEQ_ISSUED_LO_COUNT : Field := ⟨0x1003008, 0, 32⟩
abbrev SEQ_ISSUED_HI : Nat := 0x100300C
abbrev SEQ_ISSUED_HI_COUNT : Field := ⟨0x100300C, 0, 32⟩
abbrev SEQ_SKIPPED_LO : Nat := 0x1003010
abbrev SEQ_SKIPPED_LO_COUNT : Field := ⟨0x1003010, 0, 32⟩
abbrev SEQ_SKIPPED_HI : Nat := 0x1003014
abbrev SEQ_SKIPPED_HI_COUNT : Field := ⟨0x1003014, 0, 32⟩
abbrev SEQ_RAGGED : Nat := 0x1003018
abbrev SEQ_RAGGED_COUNT : Field := ⟨0x1003018, 0, 32⟩
abbrev SEQ_LIVE_CLAMP : Nat := 0x100301C
abbrev SEQ_LIVE_CLAMP_COUNT : Field := ⟨0x100301C, 0, 32⟩
abbrev SEQ_ZERO_NEST : Nat := 0x1003020
abbrev SEQ_ZERO_NEST_COUNT : Field := ⟨0x1003020, 0, 32⟩
abbrev SEQ_FAULT_COUNT : Nat := 0x1003024
abbrev SEQ_FAULT_COUNT_COUNT : Field := ⟨0x1003024, 0, 32⟩

/-- The rows of spec/03_bales_loops.md, one per register (arrays once). -/
def regRows03 : List RegRow := [
  ⟨0x1003000, [⟨0, 1, .ro, 0x0⟩, ⟨1, 1, .w1c, 0x0⟩, ⟨16, 16, .ro, 0xFFFF⟩]⟩,
  ⟨0x1003004, [⟨0, 8, .ro, 0x0⟩, ⟨8, 16, .ro, 0x0⟩, ⟨24, 4, .ro, 0x0⟩, ⟨28, 3, .ro, 0x0⟩]⟩,
  ⟨0x1003008, [⟨0, 32, .ro, 0x0⟩]⟩,
  ⟨0x100300C, [⟨0, 32, .ro, 0x0⟩]⟩,
  ⟨0x1003010, [⟨0, 32, .ro, 0x0⟩]⟩,
  ⟨0x1003014, [⟨0, 32, .ro, 0x0⟩]⟩,
  ⟨0x1003018, [⟨0, 32, .ro, 0x0⟩]⟩,
  ⟨0x100301C, [⟨0, 32, .ro, 0x0⟩]⟩,
  ⟨0x1003020, [⟨0, 32, .ro, 0x0⟩]⟩,
  ⟨0x1003024, [⟨0, 32, .ro, 0x0⟩]⟩]

/-! Registers of spec/04_tensor_formats.md (R118). -/

abbrev TEN_STATUS : Nat := 0x1004000
abbrev TEN_STATUS_BUSY : Field := ⟨0x1004000, 0, 4⟩
abbrev TEN_STICKY : Nat := 0x1004004
abbrev TEN_STICKY_OVF : Field := ⟨0x1004004, 0, 1⟩
abbrev TEN_STICKY_NONFINITE : Field := ⟨0x1004004, 1, 1⟩
abbrev TEN_STICKY_SAT : Field := ⟨0x1004004, 2, 1⟩
abbrev TEN_SLOT_OVF_LO : Nat := 0x1004008
abbrev TEN_SLOT_OVF_LO_SLOTS : Field := ⟨0x1004008, 0, 32⟩
abbrev TEN_SLOT_OVF_HI : Nat := 0x100400C
abbrev TEN_SLOT_OVF_HI_SLOTS : Field := ⟨0x100400C, 0, 32⟩
abbrev TEN_SLOT_NF_LO : Nat := 0x1004010
abbrev TEN_SLOT_NF_LO_SLOTS : Field := ⟨0x1004010, 0, 32⟩
abbrev TEN_SLOT_NF_HI : Nat := 0x1004014
abbrev TEN_SLOT_NF_HI_SLOTS : Field := ⟨0x1004014, 0, 32⟩
abbrev TEN_SLOT_SAT_LO : Nat := 0x1004018
abbrev TEN_SLOT_SAT_LO_SLOTS : Field := ⟨0x1004018, 0, 32⟩
abbrev TEN_SLOT_SAT_HI : Nat := 0x100401C
abbrev TEN_SLOT_SAT_HI_SLOTS : Field := ⟨0x100401C, 0, 32⟩
abbrev TEN_MACS_LO : Nat := 0x1004020
abbrev TEN_MACS_LO_COUNT : Field := ⟨0x1004020, 0, 32⟩
abbrev TEN_MACS_HI : Nat := 0x1004024
abbrev TEN_MACS_HI_COUNT : Field := ⟨0x1004024, 0, 32⟩
abbrev TEN_SAT_COUNT : Nat := 0x1004028
abbrev TEN_SAT_COUNT_COUNT : Field := ⟨0x1004028, 0, 32⟩
abbrev TEN_NAN_IN_COUNT : Nat := 0x100402C
abbrev TEN_NAN_IN_COUNT_COUNT : Field := ⟨0x100402C, 0, 32⟩

/-- The rows of spec/04_tensor_formats.md, one per register (arrays once). -/
def regRows04 : List RegRow := [
  ⟨0x1004000, [⟨0, 4, .ro, 0x0⟩]⟩,
  ⟨0x1004004, [⟨0, 1, .ro, 0x0⟩, ⟨1, 1, .ro, 0x0⟩, ⟨2, 1, .ro, 0x0⟩]⟩,
  ⟨0x1004008, [⟨0, 32, .ro, 0x0⟩]⟩,
  ⟨0x100400C, [⟨0, 32, .ro, 0x0⟩]⟩,
  ⟨0x1004010, [⟨0, 32, .ro, 0x0⟩]⟩,
  ⟨0x1004014, [⟨0, 32, .ro, 0x0⟩]⟩,
  ⟨0x1004018, [⟨0, 32, .ro, 0x0⟩]⟩,
  ⟨0x100401C, [⟨0, 32, .ro, 0x0⟩]⟩,
  ⟨0x1004020, [⟨0, 32, .ro, 0x0⟩]⟩,
  ⟨0x1004024, [⟨0, 32, .ro, 0x0⟩]⟩,
  ⟨0x1004028, [⟨0, 32, .ro, 0x0⟩]⟩,
  ⟨0x100402C, [⟨0, 32, .ro, 0x0⟩]⟩]

/-! Registers of spec/05_vector_sfu.md (R146). -/

abbrev SFU_STATUS : Nat := 0x1005000
abbrev SFU_STATUS_BUSY : Field := ⟨0x1005000, 0, 1⟩
abbrev SFU_STATUS_PLAN_UCODE : Field := ⟨0x1005000, 1, 1⟩
abbrev SFU_UCODE_ADDR : Nat := 0x1005004
abbrev SFU_UCODE_ADDR_ENTRY : Field := ⟨0x1005004, 0, 9⟩
abbrev SFU_UCODE_DATA_LO : Nat := 0x1005008
abbrev SFU_UCODE_DATA_LO_STEP : Field := ⟨0x1005008, 0, 32⟩
abbrev SFU_UCODE_DATA_HI : Nat := 0x100500C
abbrev SFU_UCODE_DATA_HI_STEP : Field := ⟨0x100500C, 0, 32⟩
abbrev SFU_TABLE_ADDR : Nat := 0x1005010
abbrev SFU_TABLE_ADDR_WORD : Field := ⟨0x1005010, 0, 11⟩
abbrev SFU_TABLE_DATA : Nat := 0x1005014
abbrev SFU_TABLE_DATA_VALUE : Field := ⟨0x1005014, 0, 32⟩
abbrev SFU_RESULTS_LO : Nat := 0x1005018
abbrev SFU_RESULTS_LO_COUNT : Field := ⟨0x1005018, 0, 32⟩
abbrev SFU_RESULTS_HI : Nat := 0x100501C
abbrev SFU_RESULTS_HI_COUNT : Field := ⟨0x100501C, 0, 32⟩
abbrev SFU_DOMAIN_COUNT : Nat := 0x1005020
abbrev SFU_DOMAIN_COUNT_COUNT : Field := ⟨0x1005020, 0, 32⟩
abbrev VEC_ELEMS_LO : Nat := 0x1005024
abbrev VEC_ELEMS_LO_COUNT : Field := ⟨0x1005024, 0, 32⟩
abbrev VEC_ELEMS_HI : Nat := 0x1005028
abbrev VEC_ELEMS_HI_COUNT : Field := ⟨0x1005028, 0, 32⟩

/-- The rows of spec/05_vector_sfu.md, one per register (arrays once). -/
def regRows05 : List RegRow := [
  ⟨0x1005000, [⟨0, 1, .ro, 0x0⟩, ⟨1, 1, .ro, 0x0⟩]⟩,
  ⟨0x1005004, [⟨0, 9, .rw, 0x0⟩]⟩,
  ⟨0x1005008, [⟨0, 32, .ro, 0x0⟩]⟩,
  ⟨0x100500C, [⟨0, 32, .ro, 0x0⟩]⟩,
  ⟨0x1005010, [⟨0, 11, .rw, 0x0⟩]⟩,
  ⟨0x1005014, [⟨0, 32, .ro, 0x0⟩]⟩,
  ⟨0x1005018, [⟨0, 32, .ro, 0x0⟩]⟩,
  ⟨0x100501C, [⟨0, 32, .ro, 0x0⟩]⟩,
  ⟨0x1005020, [⟨0, 32, .ro, 0x0⟩]⟩,
  ⟨0x1005024, [⟨0, 32, .ro, 0x0⟩]⟩,
  ⟨0x1005028, [⟨0, 32, .ro, 0x0⟩]⟩]

/-! Registers of spec/06_chutes_pipelines.md (R169). -/

abbrev CLU_HLT_STATUS : Nat := 0x1001000
abbrev CLU_HLT_STATUS_WDOG : Field := ⟨0x1001000, 0, 1⟩
abbrev CLU_HLT_STATUS_SEM_OVF : Field := ⟨0x1001000, 1, 1⟩
abbrev CLU_HLT_STATUS_BEAT_LATE : Field := ⟨0x1001000, 2, 1⟩
abbrev CLU_HLT_WDOG_LIMIT : Nat := 0x1001004
abbrev CLU_HLT_WDOG_LIMIT_LIMIT : Field := ⟨0x1001004, 0, 32⟩
abbrev CLU_SEM_ADDR : Nat := 0x1001008
abbrev CLU_SEM_ADDR_SEM : Field := ⟨0x1001008, 0, 12⟩
abbrev CLU_SEM_DATA : Nat := 0x100100C
abbrev CLU_SEM_DATA_VALUE : Field := ⟨0x100100C, 0, 16⟩
abbrev CLU_SEM_DATA_WAITERS : Field := ⟨0x100100C, 16, 8⟩
abbrev CLU_BAR_ADDR : Nat := 0x1001010
abbrev CLU_BAR_ADDR_CORE : Field := ⟨0x1001010, 0, 3⟩
abbrev CLU_BAR_ADDR_BARRIER : Field := ⟨0x1001010, 3, 6⟩
abbrev CLU_BAR_DATA : Nat := 0x1001014
abbrev CLU_BAR_DATA_COUNT : Field := ⟨0x1001014, 0, 12⟩
abbrev CLU_BAR_DATA_TARGET : Field := ⟨0x1001014, 12, 12⟩
abbrev CLU_BAR_DATA_DONE : Field := ⟨0x1001014, 24, 8⟩
abbrev CLU_SEM_OVF_COUNT : Nat := 0x1001018
abbrev CLU_SEM_OVF_COUNT_COUNT : Field := ⟨0x1001018, 0, 32⟩
abbrev CLU_BEAT_LATE_COUNT : Nat := 0x100101C
abbrev CLU_BEAT_LATE_COUNT_COUNT : Field := ⟨0x100101C, 0, 32⟩
abbrev CLU_WDOG_COUNT : Nat := 0x1001020
abbrev CLU_WDOG_COUNT_COUNT : Field := ⟨0x1001020, 0, 32⟩
abbrev CLU_HLT_LAT_MAX : Nat := 0x1001024
abbrev CLU_HLT_LAT_MAX_CC : Field := ⟨0x1001024, 0, 8⟩
abbrev COR_CHUTE_STATUS : Nat := 0x1002000
abbrev COR_CHUTE_STATUS_BOUND : Field := ⟨0x1002000, 0, 4⟩
abbrev COR_CHUTE_STATUS_SEND_WAIT : Field := ⟨0x1002000, 4, 4⟩
abbrev COR_CHUTE_STATUS_RECV_WAIT : Field := ⟨0x1002000, 8, 4⟩
abbrev COR_CHUTE_STATUS_BROKEN : Field := ⟨0x1002000, 12, 4⟩
abbrev COR_CHUTE_PEER (p : Nat) : Nat := 0x1002040 + 0x20 * p
abbrev COR_CHUTE_PEER_PEER_CORE (p : Nat) : Field := ⟨0x1002040 + 0x20 * p, 0, 8⟩
abbrev COR_CHUTE_PEER_PEER_PORT (p : Nat) : Field := ⟨0x1002040 + 0x20 * p, 8, 2⟩
abbrev COR_CHUTE_PEER_CROSS (p : Nat) : Field := ⟨0x1002040 + 0x20 * p, 10, 1⟩
abbrev COR_CHUTE_RING (p : Nat) : Nat := 0x1002044 + 0x20 * p
abbrev COR_CHUTE_RING_RX_UNITS (p : Nat) : Field := ⟨0x1002044 + 0x20 * p, 0, 15⟩
abbrev COR_CHUTE_CREDITS (p : Nat) : Nat := 0x1002048 + 0x20 * p
abbrev COR_CHUTE_CREDITS_TX_CREDITS (p : Nat) : Field := ⟨0x1002048 + 0x20 * p, 0, 15⟩
abbrev COR_CHUTE_TX_BALES (p : Nat) : Nat := 0x100204C + 0x20 * p
abbrev COR_CHUTE_TX_BALES_COUNT (p : Nat) : Field := ⟨0x100204C + 0x20 * p, 0, 32⟩
abbrev COR_CHUTE_RX_BALES (p : Nat) : Nat := 0x1002050 + 0x20 * p
abbrev COR_CHUTE_RX_BALES_COUNT (p : Nat) : Field := ⟨0x1002050 + 0x20 * p, 0, 32⟩
abbrev COR_CHUTE_CREDIT_STALL (p : Nat) : Nat := 0x1002054 + 0x20 * p
abbrev COR_CHUTE_CREDIT_STALL_COUNT (p : Nat) : Field := ⟨0x1002054 + 0x20 * p, 0, 32⟩
abbrev COR_CHUTE_ERR (p : Nat) : Nat := 0x1002058 + 0x20 * p
abbrev COR_CHUTE_ERR_CE (p : Nat) : Field := ⟨0x1002058 + 0x20 * p, 0, 16⟩
abbrev COR_CHUTE_ERR_UE (p : Nat) : Field := ⟨0x1002058 + 0x20 * p, 16, 16⟩

/-- The rows of spec/06_chutes_pipelines.md, one per register (arrays once). -/
def regRows06 : List RegRow := [
  ⟨0x1001000, [⟨0, 1, .w1c, 0x0⟩, ⟨1, 1, .w1c, 0x0⟩, ⟨2, 1, .w1c, 0x0⟩]⟩,
  ⟨0x1001004, [⟨0, 32, .rw, 0x400000⟩]⟩,
  ⟨0x1001008, [⟨0, 12, .rw, 0x0⟩]⟩,
  ⟨0x100100C, [⟨0, 16, .ro, 0x0⟩, ⟨16, 8, .ro, 0x0⟩]⟩,
  ⟨0x1001010, [⟨0, 3, .rw, 0x0⟩, ⟨3, 6, .rw, 0x0⟩]⟩,
  ⟨0x1001014, [⟨0, 12, .ro, 0x0⟩, ⟨12, 12, .ro, 0x0⟩, ⟨24, 8, .ro, 0x0⟩]⟩,
  ⟨0x1001018, [⟨0, 32, .ro, 0x0⟩]⟩,
  ⟨0x100101C, [⟨0, 32, .ro, 0x0⟩]⟩,
  ⟨0x1001020, [⟨0, 32, .ro, 0x0⟩]⟩,
  ⟨0x1001024, [⟨0, 8, .ro, 0x0⟩]⟩,
  ⟨0x1002000, [⟨0, 4, .ro, 0x0⟩, ⟨4, 4, .ro, 0x0⟩, ⟨8, 4, .ro, 0x0⟩, ⟨12, 4, .ro, 0x0⟩]⟩,
  ⟨0x1002040, [⟨0, 8, .ro, 0x0⟩, ⟨8, 2, .ro, 0x0⟩, ⟨10, 1, .ro, 0x0⟩]⟩,
  ⟨0x1002044, [⟨0, 15, .ro, 0x0⟩]⟩,
  ⟨0x1002048, [⟨0, 15, .ro, 0x0⟩]⟩,
  ⟨0x100204C, [⟨0, 32, .ro, 0x0⟩]⟩,
  ⟨0x1002050, [⟨0, 32, .ro, 0x0⟩]⟩,
  ⟨0x1002054, [⟨0, 32, .ro, 0x0⟩]⟩,
  ⟨0x1002058, [⟨0, 16, .ro, 0x0⟩, ⟨16, 16, .ro, 0x0⟩]⟩]

/-! Registers of spec/07_attention.md (R196). -/

abbrev COR_ATT_STATUS : Nat := 0x1002100
abbrev COR_ATT_STATUS_FAULT : Field := ⟨0x1002100, 0, 1⟩
abbrev COR_ATT_FAULT : Nat := 0x1002104
abbrev COR_ATT_FAULT_CODE : Field := ⟨0x1002104, 0, 8⟩
abbrev COR_ATT_FAULT_DESC : Field := ⟨0x1002104, 8, 16⟩
abbrev COR_ATT_PAIRS_LO : Nat := 0x1002108
abbrev COR_ATT_PAIRS_LO_COUNT : Field := ⟨0x1002108, 0, 32⟩
abbrev COR_ATT_PAIRS_HI : Nat := 0x100210C
abbrev COR_ATT_PAIRS_HI_COUNT : Field := ⟨0x100210C, 0, 32⟩
abbrev COR_ATT_SKIPPED_LO : Nat := 0x1002110
abbrev COR_ATT_SKIPPED_LO_COUNT : Field := ⟨0x1002110, 0, 32⟩
abbrev COR_ATT_SKIPPED_HI : Nat := 0x1002114
abbrev COR_ATT_SKIPPED_HI_COUNT : Field := ⟨0x1002114, 0, 32⟩
abbrev COR_ATT_EMPTY_ROWS : Nat := 0x1002118
abbrev COR_ATT_EMPTY_ROWS_COUNT : Field := ⟨0x1002118, 0, 32⟩
abbrev COR_ATT_IDX_RANGE : Nat := 0x100211C
abbrev COR_ATT_IDX_RANGE_COUNT : Field := ⟨0x100211C, 0, 32⟩
abbrev COR_ATT_FAULT_COUNT : Nat := 0x1002120
abbrev COR_ATT_FAULT_COUNT_COUNT : Field := ⟨0x1002120, 0, 32⟩

/-- The rows of spec/07_attention.md, one per register (arrays once). -/
def regRows07 : List RegRow := [
  ⟨0x1002100, [⟨0, 1, .w1c, 0x0⟩]⟩,
  ⟨0x1002104, [⟨0, 8, .ro, 0x0⟩, ⟨8, 16, .ro, 0x0⟩]⟩,
  ⟨0x1002108, [⟨0, 32, .ro, 0x0⟩]⟩,
  ⟨0x100210C, [⟨0, 32, .ro, 0x0⟩]⟩,
  ⟨0x1002110, [⟨0, 32, .ro, 0x0⟩]⟩,
  ⟨0x1002114, [⟨0, 32, .ro, 0x0⟩]⟩,
  ⟨0x1002118, [⟨0, 32, .ro, 0x0⟩]⟩,
  ⟨0x100211C, [⟨0, 32, .ro, 0x0⟩]⟩,
  ⟨0x1002120, [⟨0, 32, .ro, 0x0⟩]⟩]

/-! Registers of spec/08_kv_cache.md (R232, R233). -/

abbrev OST_STATUS : Nat := 0xB00000
abbrev OST_STATUS_ENABLED : Field := ⟨0xB00000, 0, 1⟩
abbrev OST_STATUS_STALLED : Field := ⟨0xB00000, 1, 1⟩
abbrev OST_STATUS_NO_PAGE : Field := ⟨0xB00000, 2, 1⟩
abbrev OST_STATUS_FAULT : Field := ⟨0xB00000, 3, 1⟩
abbrev OST_STATUS_SETUP_ERR : Field := ⟨0xB00000, 4, 1⟩
abbrev OST_STATUS_SEL_ERR : Field := ⟨0xB00000, 5, 1⟩
abbrev OST_CTRL : Nat := 0xB00004
abbrev OST_CTRL_ENABLE : Field := ⟨0xB00004, 0, 1⟩
abbrev OST_SETUP_ERR_CODE : Nat := 0xB00008
abbrev OST_SETUP_ERR_CODE_CODE : Field := ⟨0xB00008, 0, 4⟩
abbrev OST_FAULT : Nat := 0xB0000C
abbrev OST_FAULT_CODE : Field := ⟨0xB0000C, 0, 8⟩
abbrev OST_FAULT_STREAM : Field := ⟨0xB0000C, 8, 16⟩
abbrev OST_KV_CFG : Nat := 0xB00010
abbrev OST_KV_CFG_FORMAT : Field := ⟨0xB00010, 0, 8⟩
abbrev OST_KV_CFG_D : Field := ⟨0xB00010, 8, 8⟩
abbrev OST_KV_CFG_GROUPS : Field := ⟨0xB00010, 16, 7⟩
abbrev OST_KV_CFG_MAXPG_LOG2 : Field := ⟨0xB00010, 24, 5⟩
abbrev OST_STREAMS : Nat := 0xB00014
abbrev OST_STREAMS_COUNT : Field := ⟨0xB00014, 0, 17⟩
abbrev OST_MANGERS : Nat := 0xB00018
abbrev OST_MANGERS_COUNT : Field := ⟨0xB00018, 0, 17⟩
abbrev OST_PAGE_BYTES : Nat := 0xB0001C
abbrev OST_PAGE_BYTES_BYTES : Field := ⟨0xB0001C, 0, 32⟩
abbrev OST_MANGER_BYTES : Nat := 0xB00020
abbrev OST_MANGER_BYTES_BYTES : Field := ⟨0xB00020, 0, 32⟩
abbrev OST_POOL_BASE_LO : Nat := 0xB00024
abbrev OST_POOL_BASE_LO_BASE : Field := ⟨0xB00024, 12, 20⟩
abbrev OST_POOL_BASE_HI : Nat := 0xB00028
abbrev OST_POOL_BASE_HI_BASE : Field := ⟨0xB00028, 0, 32⟩
abbrev OST_POOL_FRAMES : Nat := 0xB0002C
abbrev OST_POOL_FRAMES_COUNT : Field := ⟨0xB0002C, 0, 23⟩
abbrev OST_HOST_BASE_LO : Nat := 0xB00030
abbrev OST_HOST_BASE_LO_BASE : Field := ⟨0xB00030, 12, 20⟩
abbrev OST_HOST_BASE_HI : Nat := 0xB00034
abbrev OST_HOST_BASE_HI_BASE : Field := ⟨0xB00034, 0, 32⟩
abbrev OST_HOST_FRAMES : Nat := 0xB00038
abbrev OST_HOST_FRAMES_COUNT : Field := ⟨0xB00038, 0, 23⟩
abbrev OST_TABLE_BASE_LO : Nat := 0xB0003C
abbrev OST_TABLE_BASE_LO_BASE : Field := ⟨0xB0003C, 12, 20⟩
abbrev OST_TABLE_BASE_HI : Nat := 0xB00040
abbrev OST_TABLE_BASE_HI_BASE : Field := ⟨0xB00040, 0, 32⟩
abbrev OST_MANGER_BASE_LO : Nat := 0xB00044
abbrev OST_MANGER_BASE_LO_BASE : Field := ⟨0xB00044, 12, 20⟩
abbrev OST_MANGER_BASE_HI : Nat := 0xB00048
abbrev OST_MANGER_BASE_HI_BASE : Field := ⟨0xB00048, 0, 32⟩
abbrev OST_STREAM_ADDR : Nat := 0xB0004C
abbrev OST_STREAM_ADDR_STREAM : Field := ⟨0xB0004C, 0, 16⟩
abbrev OST_STREAM_STATE : Nat := 0xB00050
abbrev OST_STREAM_STATE_STATE : Field := ⟨0xB00050, 0, 3⟩
abbrev OST_STREAM_STATE_WINDOW : Field := ⟨0xB00050, 3, 1⟩
abbrev OST_STREAM_STATE_FLUSH_ON_COMMIT : Field := ⟨0xB00050, 4, 1⟩
abbrev OST_STREAM_STATE_BUSY : Field := ⟨0xB00050, 5, 1⟩
abbrev OST_STREAM_FLUSHED : Nat := 0xB00054
abbrev OST_STREAM_FLUSHED_POS : Field := ⟨0xB00054, 0, 32⟩
abbrev OST_STREAM_COMMIT : Nat := 0xB00058
abbrev OST_STREAM_COMMIT_POS : Field := ⟨0xB00058, 0, 32⟩
abbrev OST_STREAM_FILL : Nat := 0xB0005C
abbrev OST_STREAM_FILL_POS : Field := ⟨0xB0005C, 0, 32⟩
abbrev OST_FREE_FRAMES : Nat := 0xB00060
abbrev OST_FREE_FRAMES_COUNT : Field := ⟨0xB00060, 0, 23⟩
abbrev OST_HOST_USED : Nat := 0xB00064
abbrev OST_HOST_USED_COUNT : Field := ⟨0xB00064, 0, 23⟩
abbrev OST_ALLOCS : Nat := 0xB00068
abbrev OST_ALLOCS_COUNT : Field := ⟨0xB00068, 0, 32⟩
abbrev OST_EVICTS : Nat := 0xB0006C
abbrev OST_EVICTS_COUNT : Field := ⟨0xB0006C, 0, 32⟩
abbrev OST_SPILLS : Nat := 0xB00070
abbrev OST_SPILLS_COUNT : Field := ⟨0xB00070, 0, 32⟩
abbrev OST_NO_PAGE : Nat := 0xB00074
abbrev OST_NO_PAGE_COUNT : Field := ⟨0xB00074, 0, 32⟩
abbrev OST_COW : Nat := 0xB00078
abbrev OST_COW_COUNT : Field := ⟨0xB00078, 0, 32⟩
abbrev OST_FAULT_COUNT : Nat := 0xB0007C
abbrev OST_FAULT_COUNT_COUNT : Field := ⟨0xB0007C, 0, 32⟩
abbrev PED_NODES : Nat := 0xB00080
abbrev PED_NODES_COUNT : Field := ⟨0xB00080, 0, 21⟩
abbrev PED_HITS : Nat := 0xB00084
abbrev PED_HITS_COUNT : Field := ⟨0xB00084, 0, 32⟩
abbrev PED_MISSES : Nat := 0xB00088
abbrev PED_MISSES_COUNT : Field := ⟨0xB00088, 0, 32⟩
abbrev PED_FALSE_HITS : Nat := 0xB0008C
abbrev PED_FALSE_HITS_COUNT : Field := ⟨0xB0008C, 0, 32⟩
abbrev PED_INSERTS : Nat := 0xB00090
abbrev PED_INSERTS_COUNT : Field := ⟨0xB00090, 0, 32⟩
abbrev PED_DUPS : Nat := 0xB00094
abbrev PED_DUPS_COUNT : Field := ⟨0xB00094, 0, 32⟩
abbrev PED_EVICTS : Nat := 0xB00098
abbrev PED_EVICTS_COUNT : Field := ⟨0xB00098, 0, 32⟩
abbrev PED_FULL : Nat := 0xB0009C
abbrev PED_FULL_COUNT : Field := ⟨0xB0009C, 0, 32⟩
abbrev OST_PART_FRAMES (p : Nat) : Nat := 0xB01000 + 0x10 * p
abbrev OST_PART_FRAMES_QUOTA (p : Nat) : Field := ⟨0xB01000 + 0x10 * p, 0, 23⟩
abbrev PED_PART_NODES (p : Nat) : Nat := 0xB01004 + 0x10 * p
abbrev PED_PART_NODES_QUOTA (p : Nat) : Field := ⟨0xB01004 + 0x10 * p, 0, 21⟩
abbrev OST_PART_STATUS (p : Nat) : Nat := 0xB01008 + 0x10 * p
abbrev OST_PART_STATUS_QUOTA_ERR (p : Nat) : Field := ⟨0xB01008 + 0x10 * p, 0, 1⟩
abbrev PED_KEY (p : Nat) (w : Nat) : Nat := 0xB01200 + 0x10 * p + 0x4 * w
abbrev PED_KEY_KEY (p : Nat) (w : Nat) : Field := ⟨0xB01200 + 0x10 * p + 0x4 * w, 0, 32⟩

/-- The rows of spec/08_kv_cache.md, one per register (arrays once). -/
def regRows08 : List RegRow := [
  ⟨0xB00000, [⟨0, 1, .ro, 0x0⟩, ⟨1, 1, .ro, 0x0⟩, ⟨2, 1, .w1c, 0x0⟩, ⟨3, 1, .w1c, 0x0⟩, ⟨4, 1, .w1c, 0x0⟩, ⟨5, 1, .w1c, 0x0⟩]⟩,
  ⟨0xB00004, [⟨0, 1, .rw, 0x0⟩]⟩,
  ⟨0xB00008, [⟨0, 4, .ro, 0x0⟩]⟩,
  ⟨0xB0000C, [⟨0, 8, .ro, 0x0⟩, ⟨8, 16, .ro, 0x0⟩]⟩,
  ⟨0xB00010, [⟨0, 8, .rw, 0x2⟩, ⟨8, 8, .rw, 0x80⟩, ⟨16, 7, .rw, 0x1⟩, ⟨24, 5, .rw, 0x10⟩]⟩,
  ⟨0xB00014, [⟨0, 17, .rw, 0x0⟩]⟩,
  ⟨0xB00018, [⟨0, 17, .rw, 0x0⟩]⟩,
  ⟨0xB0001C, [⟨0, 32, .ro, 0x0⟩]⟩,
  ⟨0xB00020, [⟨0, 32, .ro, 0x0⟩]⟩,
  ⟨0xB00024, [⟨12, 20, .rw, 0x0⟩]⟩,
  ⟨0xB00028, [⟨0, 32, .rw, 0x0⟩]⟩,
  ⟨0xB0002C, [⟨0, 23, .rw, 0x0⟩]⟩,
  ⟨0xB00030, [⟨12, 20, .rw, 0x0⟩]⟩,
  ⟨0xB00034, [⟨0, 32, .rw, 0x0⟩]⟩,
  ⟨0xB00038, [⟨0, 23, .rw, 0x0⟩]⟩,
  ⟨0xB0003C, [⟨12, 20, .rw, 0x0⟩]⟩,
  ⟨0xB00040, [⟨0, 32, .rw, 0x0⟩]⟩,
  ⟨0xB00044, [⟨12, 20, .rw, 0x0⟩]⟩,
  ⟨0xB00048, [⟨0, 32, .rw, 0x0⟩]⟩,
  ⟨0xB0004C, [⟨0, 16, .rw, 0x0⟩]⟩,
  ⟨0xB00050, [⟨0, 3, .ro, 0x0⟩, ⟨3, 1, .ro, 0x0⟩, ⟨4, 1, .ro, 0x0⟩, ⟨5, 1, .ro, 0x0⟩]⟩,
  ⟨0xB00054, [⟨0, 32, .ro, 0x0⟩]⟩,
  ⟨0xB00058, [⟨0, 32, .ro, 0x0⟩]⟩,
  ⟨0xB0005C, [⟨0, 32, .ro, 0x0⟩]⟩,
  ⟨0xB00060, [⟨0, 23, .ro, 0x0⟩]⟩,
  ⟨0xB00064, [⟨0, 23, .ro, 0x0⟩]⟩,
  ⟨0xB00068, [⟨0, 32, .ro, 0x0⟩]⟩,
  ⟨0xB0006C, [⟨0, 32, .ro, 0x0⟩]⟩,
  ⟨0xB00070, [⟨0, 32, .ro, 0x0⟩]⟩,
  ⟨0xB00074, [⟨0, 32, .ro, 0x0⟩]⟩,
  ⟨0xB00078, [⟨0, 32, .ro, 0x0⟩]⟩,
  ⟨0xB0007C, [⟨0, 32, .ro, 0x0⟩]⟩,
  ⟨0xB00080, [⟨0, 21, .ro, 0x0⟩]⟩,
  ⟨0xB00084, [⟨0, 32, .ro, 0x0⟩]⟩,
  ⟨0xB00088, [⟨0, 32, .ro, 0x0⟩]⟩,
  ⟨0xB0008C, [⟨0, 32, .ro, 0x0⟩]⟩,
  ⟨0xB00090, [⟨0, 32, .ro, 0x0⟩]⟩,
  ⟨0xB00094, [⟨0, 32, .ro, 0x0⟩]⟩,
  ⟨0xB00098, [⟨0, 32, .ro, 0x0⟩]⟩,
  ⟨0xB0009C, [⟨0, 32, .ro, 0x0⟩]⟩,
  ⟨0xB01000, [⟨0, 23, .rw, 0x0⟩]⟩,
  ⟨0xB01004, [⟨0, 21, .rw, 0x0⟩]⟩,
  ⟨0xB01008, [⟨0, 1, .w1c, 0x0⟩]⟩,
  ⟨0xB01200, [⟨0, 32, .wo, 0x0⟩]⟩]

/-! Registers of spec/09_training_numerics.md (R258). -/

abbrev TEN_OPT_STATUS : Nat := 0x1004040
abbrev TEN_OPT_STATUS_GNF : Field := ⟨0x1004040, 0, 1⟩
abbrev TEN_OPT_STATUS_GNF_FINAL : Field := ⟨0x1004040, 1, 1⟩
abbrev TEN_OPT_STATUS_LOCAL_NF : Field := ⟨0x1004040, 2, 1⟩
abbrev TEN_OPT_STATUS_FAULT : Field := ⟨0x1004040, 3, 1⟩
abbrev TEN_OPT_STATUS_GUARD_SRC : Field := ⟨0x1004040, 4, 3⟩
abbrev TEN_OPT_FAULT : Nat := 0x1004044
abbrev TEN_OPT_FAULT_CODE : Field := ⟨0x1004044, 0, 8⟩
abbrev TEN_OPT_FAULT_DESC : Field := ⟨0x1004044, 8, 16⟩
abbrev TEN_OPT_APPLIED_LO : Nat := 0x1004048
abbrev TEN_OPT_APPLIED_LO_COUNT : Field := ⟨0x1004048, 0, 32⟩
abbrev TEN_OPT_APPLIED_HI : Nat := 0x100404C
abbrev TEN_OPT_APPLIED_HI_COUNT : Field := ⟨0x100404C, 0, 32⟩
abbrev TEN_OPT_SKIPPED : Nat := 0x1004050
abbrev TEN_OPT_SKIPPED_COUNT : Field := ⟨0x1004050, 0, 32⟩
abbrev TEN_OPT_NF_OUT : Nat := 0x1004054
abbrev TEN_OPT_NF_OUT_COUNT : Field := ⟨0x1004054, 0, 32⟩
abbrev TEN_RECOMP_RUNS : Nat := 0x1004058
abbrev TEN_RECOMP_RUNS_COUNT : Field := ⟨0x1004058, 0, 32⟩
abbrev TEN_PIPE_WAIT : Nat := 0x100405C
abbrev TEN_PIPE_WAIT_COUNT : Field := ⟨0x100405C, 0, 32⟩

/-- The rows of spec/09_training_numerics.md, one per register (arrays once). -/
def regRows09 : List RegRow := [
  ⟨0x1004040, [⟨0, 1, .ro, 0x0⟩, ⟨1, 1, .ro, 0x0⟩, ⟨2, 1, .ro, 0x0⟩, ⟨3, 1, .w1c, 0x0⟩, ⟨4, 3, .ro, 0x0⟩]⟩,
  ⟨0x1004044, [⟨0, 8, .ro, 0x0⟩, ⟨8, 16, .ro, 0x0⟩]⟩,
  ⟨0x1004048, [⟨0, 32, .ro, 0x0⟩]⟩,
  ⟨0x100404C, [⟨0, 32, .ro, 0x0⟩]⟩,
  ⟨0x1004050, [⟨0, 32, .ro, 0x0⟩]⟩,
  ⟨0x1004054, [⟨0, 32, .ro, 0x0⟩]⟩,
  ⟨0x1004058, [⟨0, 32, .ro, 0x0⟩]⟩,
  ⟨0x100405C, [⟨0, 32, .ro, 0x0⟩]⟩]

/-! Registers of spec/10_memory_tiers.md (R285). -/

abbrev LFT_STATUS : Nat := 0x1006000
abbrev LFT_STATUS_SPARE_IN : Field := ⟨0x1006000, 0, 1⟩
abbrev LFT_STATUS_DEGRADED : Field := ⟨0x1006000, 1, 1⟩
abbrev LFT_STATUS_UE : Field := ⟨0x1006000, 2, 1⟩
abbrev LFT_CFG : Nat := 0x1006004
abbrev LFT_CFG_STALE_CC : Field := ⟨0x1006004, 0, 32⟩
abbrev LFT_WAYS : Nat := 0x1006008
abbrev LFT_WAYS_ACTIVE : Field := ⟨0x1006008, 0, 17⟩
abbrev LFT_HITS_LO : Nat := 0x100600C
abbrev LFT_HITS_LO_COUNT : Field := ⟨0x100600C, 0, 32⟩
abbrev LFT_HITS_HI : Nat := 0x1006010
abbrev LFT_HITS_HI_COUNT : Field := ⟨0x1006010, 0, 32⟩
abbrev LFT_MISSES_LO : Nat := 0x1006014
abbrev LFT_MISSES_LO_COUNT : Field := ⟨0x1006014, 0, 32⟩
abbrev LFT_MISSES_HI : Nat := 0x1006018
abbrev LFT_MISSES_HI_COUNT : Field := ⟨0x1006018, 0, 32⟩
abbrev LFT_EVICT_NONE : Nat := 0x100601C
abbrev LFT_EVICT_NONE_COUNT : Field := ⟨0x100601C, 0, 32⟩
abbrev LFT_EVICT_STALE : Nat := 0x1006020
abbrev LFT_EVICT_STALE_COUNT : Field := ⟨0x1006020, 0, 32⟩
abbrev LFT_EVICT_FAR : Nat := 0x1006024
abbrev LFT_EVICT_FAR_COUNT : Field := ⟨0x1006024, 0, 32⟩
abbrev LFT_WRITEBACKS : Nat := 0x1006028
abbrev LFT_WRITEBACKS_COUNT : Field := ⟨0x1006028, 0, 32⟩
abbrev LFT_WRITE_AROUND : Nat := 0x100602C
abbrev LFT_WRITE_AROUND_COUNT : Field := ⟨0x100602C, 0, 32⟩
abbrev LFT_SET_BUSY : Nat := 0x1006030
abbrev LFT_SET_BUSY_COUNT : Field := ⟨0x1006030, 0, 32⟩
abbrev LFT_ECC : Nat := 0x1006034
abbrev LFT_ECC_CE : Field := ⟨0x1006034, 0, 16⟩
abbrev LFT_ECC_UE : Field := ⟨0x1006034, 16, 16⟩
abbrev LFT_STALE_REPLIES : Nat := 0x1006038
abbrev LFT_STALE_REPLIES_COUNT : Field := ⟨0x1006038, 0, 32⟩
abbrev LFT_RESET_DROPS : Nat := 0x100603C
abbrev LFT_RESET_DROPS_COUNT : Field := ⟨0x100603C, 0, 32⟩
abbrev DRV_STATUS (d : Nat) : Nat := 0x1007000 + 0x40 * d
abbrev DRV_STATUS_BUSY (d : Nat) : Field := ⟨0x1007000 + 0x40 * d, 0, 1⟩
abbrev DRV_STATUS_FAULT (d : Nat) : Field := ⟨0x1007000 + 0x40 * d, 1, 1⟩
abbrev DRV_STATUS_MODE (d : Nat) : Field := ⟨0x1007000 + 0x40 * d, 2, 2⟩
abbrev DRV_FAULT (d : Nat) : Nat := 0x1007004 + 0x40 * d
abbrev DRV_FAULT_CODE (d : Nat) : Field := ⟨0x1007004 + 0x40 * d, 0, 8⟩
abbrev DRV_FAULT_NODE (d : Nat) : Field := ⟨0x1007004 + 0x40 * d, 8, 24⟩
abbrev DRV_ROWS_LO (d : Nat) : Nat := 0x1007008 + 0x40 * d
abbrev DRV_ROWS_LO_COUNT (d : Nat) : Field := ⟨0x1007008 + 0x40 * d, 0, 32⟩
abbrev DRV_ROWS_HI (d : Nat) : Nat := 0x100700C + 0x40 * d
abbrev DRV_ROWS_HI_COUNT (d : Nat) : Field := ⟨0x100700C + 0x40 * d, 0, 32⟩
abbrev DRV_BALES (d : Nat) : Nat := 0x1007010 + 0x40 * d
abbrev DRV_BALES_COUNT (d : Nat) : Field := ⟨0x1007010 + 0x40 * d, 0, 32⟩
abbrev DRV_PAD_ROWS (d : Nat) : Nat := 0x1007014 + 0x40 * d
abbrev DRV_PAD_ROWS_COUNT (d : Nat) : Field := ⟨0x1007014 + 0x40 * d, 0, 32⟩
abbrev DRV_BYTES_LO (d : Nat) : Nat := 0x1007018 + 0x40 * d
abbrev DRV_BYTES_LO_COUNT (d : Nat) : Field := ⟨0x1007018 + 0x40 * d, 0, 32⟩
abbrev DRV_BYTES_HI (d : Nat) : Nat := 0x100701C + 0x40 * d
abbrev DRV_BYTES_HI_COUNT (d : Nat) : Field := ⟨0x100701C + 0x40 * d, 0, 32⟩
abbrev DRV_FAULT_COUNT (d : Nat) : Nat := 0x1007020 + 0x40 * d
abbrev DRV_FAULT_COUNT_COUNT (d : Nat) : Field := ⟨0x1007020 + 0x40 * d, 0, 32⟩
abbrev CLU_STALL_GDDR_EVENTS : Nat := 0x1001040
abbrev CLU_STALL_GDDR_EVENTS_COUNT : Field := ⟨0x1001040, 0, 32⟩
abbrev CLU_STALL_GDDR_BEATS : Nat := 0x1001044
abbrev CLU_STALL_GDDR_BEATS_COUNT : Field := ⟨0x1001044, 0, 32⟩
abbrev CLU_STALL_LINK_EVENTS : Nat := 0x1001048
abbrev CLU_STALL_LINK_EVENTS_COUNT : Field := ⟨0x1001048, 0, 32⟩
abbrev CLU_STALL_LINK_BEATS : Nat := 0x100104C
abbrev CLU_STALL_LINK_BEATS_COUNT : Field := ⟨0x100104C, 0, 32⟩
abbrev CLU_STALL_SHED_EVENTS : Nat := 0x1001050
abbrev CLU_STALL_SHED_EVENTS_COUNT : Field := ⟨0x1001050, 0, 32⟩
abbrev CLU_STALL_SHED_BEATS : Nat := 0x1001054
abbrev CLU_STALL_SHED_BEATS_COUNT : Field := ⟨0x1001054, 0, 32⟩
abbrev CLU_STALL_RESET_EVENTS : Nat := 0x1001058
abbrev CLU_STALL_RESET_EVENTS_COUNT : Field := ⟨0x1001058, 0, 32⟩
abbrev CLU_RECOMP_MISSES : Nat := 0x100105C
abbrev CLU_RECOMP_MISSES_COUNT : Field := ⟨0x100105C, 0, 32⟩
abbrev CLU_FETCH_EARLY_CC : Nat := 0x1001060
abbrev CLU_FETCH_EARLY_CC_COUNT : Field := ⟨0x1001060, 0, 32⟩

/-- The rows of spec/10_memory_tiers.md, one per register (arrays once). -/
def regRows10 : List RegRow := [
  ⟨0x1006000, [⟨0, 1, .ro, 0x0⟩, ⟨1, 1, .ro, 0x0⟩, ⟨2, 1, .w1c, 0x0⟩]⟩,
  ⟨0x1006004, [⟨0, 32, .rw, 0x100000⟩]⟩,
  ⟨0x1006008, [⟨0, 17, .ro, 0xFFFF⟩]⟩,
  ⟨0x100600C, [⟨0, 32, .ro, 0x0⟩]⟩,
  ⟨0x1006010, [⟨0, 32, .ro, 0x0⟩]⟩,
  ⟨0x1006014, [⟨0, 32, .ro, 0x0⟩]⟩,
  ⟨0x1006018, [⟨0, 32, .ro, 0x0⟩]⟩,
  ⟨0x100601C, [⟨0, 32, .ro, 0x0⟩]⟩,
  ⟨0x1006020, [⟨0, 32, .ro, 0x0⟩]⟩,
  ⟨0x1006024, [⟨0, 32, .ro, 0x0⟩]⟩,
  ⟨0x1006028, [⟨0, 32, .ro, 0x0⟩]⟩,
  ⟨0x100602C, [⟨0, 32, .ro, 0x0⟩]⟩,
  ⟨0x1006030, [⟨0, 32, .ro, 0x0⟩]⟩,
  ⟨0x1006034, [⟨0, 16, .ro, 0x0⟩, ⟨16, 16, .ro, 0x0⟩]⟩,
  ⟨0x1006038, [⟨0, 32, .ro, 0x0⟩]⟩,
  ⟨0x100603C, [⟨0, 32, .ro, 0x0⟩]⟩,
  ⟨0x1007000, [⟨0, 1, .ro, 0x0⟩, ⟨1, 1, .w1c, 0x0⟩, ⟨2, 2, .ro, 0x0⟩]⟩,
  ⟨0x1007004, [⟨0, 8, .ro, 0x0⟩, ⟨8, 24, .ro, 0x0⟩]⟩,
  ⟨0x1007008, [⟨0, 32, .ro, 0x0⟩]⟩,
  ⟨0x100700C, [⟨0, 32, .ro, 0x0⟩]⟩,
  ⟨0x1007010, [⟨0, 32, .ro, 0x0⟩]⟩,
  ⟨0x1007014, [⟨0, 32, .ro, 0x0⟩]⟩,
  ⟨0x1007018, [⟨0, 32, .ro, 0x0⟩]⟩,
  ⟨0x100701C, [⟨0, 32, .ro, 0x0⟩]⟩,
  ⟨0x1007020, [⟨0, 32, .ro, 0x0⟩]⟩,
  ⟨0x1001040, [⟨0, 32, .ro, 0x0⟩]⟩,
  ⟨0x1001044, [⟨0, 32, .ro, 0x0⟩]⟩,
  ⟨0x1001048, [⟨0, 32, .ro, 0x0⟩]⟩,
  ⟨0x100104C, [⟨0, 32, .ro, 0x0⟩]⟩,
  ⟨0x1001050, [⟨0, 32, .ro, 0x0⟩]⟩,
  ⟨0x1001054, [⟨0, 32, .ro, 0x0⟩]⟩,
  ⟨0x1001058, [⟨0, 32, .ro, 0x0⟩]⟩,
  ⟨0x100105C, [⟨0, 32, .ro, 0x0⟩]⟩,
  ⟨0x1001060, [⟨0, 32, .ro, 0x0⟩]⟩]

/-! Registers of spec/11_external_memory.md (R306). -/

abbrev GDR_SEL : Nat := 0x800000
abbrev GDR_SEL_CHANNEL : Field := ⟨0x800000, 0, 5⟩
abbrev GDR_STATUS : Nat := 0x800004
abbrev GDR_STATUS_SEL_ERR : Field := ⟨0x800004, 0, 1⟩
abbrev GDR_STATUS_TRAINED : Field := ⟨0x800004, 1, 1⟩
abbrev GDR_STATUS_IN_RESET : Field := ⟨0x800004, 2, 1⟩
abbrev GDR_STATUS_RETAINED : Field := ⟨0x800004, 3, 1⟩
abbrev GDR_STATUS_FAILED : Field := ⟨0x800004, 4, 1⟩
abbrev GDR_STATUS_REMAP_FULL : Field := ⟨0x800004, 5, 1⟩
abbrev GDR_STATUS_UE : Field := ⟨0x800004, 6, 1⟩
abbrev GDR_ECC : Nat := 0x800008
abbrev GDR_ECC_CE : Field := ⟨0x800008, 0, 16⟩
abbrev GDR_ECC_UE : Field := ⟨0x800008, 16, 16⟩
abbrev GDR_CRC_RETRY : Nat := 0x80000C
abbrev GDR_CRC_RETRY_COUNT : Field := ⟨0x80000C, 0, 32⟩
abbrev GDR_REMAP : Nat := 0x800010
abbrev GDR_REMAP_USED : Field := ⟨0x800010, 0, 8⟩
abbrev GDR_TEMP : Nat := 0x800014
abbrev GDR_TEMP_FRONT : Field := ⟨0x800014, 0, 8⟩
abbrev GDR_TEMP_BACK : Field := ⟨0x800014, 8, 8⟩
abbrev GDR_RD_LO : Nat := 0x800018
abbrev GDR_RD_LO_COUNT : Field := ⟨0x800018, 0, 32⟩
abbrev GDR_RD_HI : Nat := 0x80001C
abbrev GDR_RD_HI_COUNT : Field := ⟨0x80001C, 0, 32⟩
abbrev GDR_WR_LO : Nat := 0x800020
abbrev GDR_WR_LO_COUNT : Field := ⟨0x800020, 0, 32⟩
abbrev GDR_WR_HI : Nat := 0x800024
abbrev GDR_WR_HI_COUNT : Field := ⟨0x800024, 0, 32⟩
abbrev GDR_ROW_MISS : Nat := 0x800028
abbrev GDR_ROW_MISS_COUNT : Field := ⟨0x800028, 0, 32⟩
abbrev GDR_MARGIN_CTRL : Nat := 0x80002C
abbrev GDR_MARGIN_CTRL_START : Field := ⟨0x80002C, 0, 1⟩
abbrev GDR_MARGIN_CTRL_AXIS : Field := ⟨0x80002C, 1, 1⟩
abbrev GDR_MARGIN_CTRL_PIN : Field := ⟨0x80002C, 2, 5⟩
abbrev GDR_MARGIN_RESULT : Nat := 0x800030
abbrev GDR_MARGIN_RESULT_LOW : Field := ⟨0x800030, 0, 8⟩
abbrev GDR_MARGIN_RESULT_HIGH : Field := ⟨0x800030, 8, 8⟩
abbrev GDR_MARGIN_RESULT_DONE : Field := ⟨0x800030, 16, 1⟩
abbrev GDR_MARGIN_RESULT_REFUSED : Field := ⟨0x800030, 17, 1⟩
abbrev SHD_SEL : Nat := 0x900000
abbrev SHD_SEL_CHANNEL : Field := ⟨0x900000, 0, 4⟩
abbrev SHD_STATUS : Nat := 0x900004
abbrev SHD_STATUS_SEL_ERR : Field := ⟨0x900004, 0, 1⟩
abbrev SHD_STATUS_READY : Field := ⟨0x900004, 1, 1⟩
abbrev SHD_STATUS_IN_RESET : Field := ⟨0x900004, 2, 1⟩
abbrev SHD_STATUS_UE : Field := ⟨0x900004, 3, 1⟩
abbrev SHD_UE_PAGES : Nat := 0x900008
abbrev SHD_UE_PAGES_COUNT : Field := ⟨0x900008, 0, 32⟩
abbrev SHD_RETRIES : Nat := 0x90000C
abbrev SHD_RETRIES_COUNT : Field := ⟨0x90000C, 0, 32⟩
abbrev SHD_RELOCATIONS : Nat := 0x900010
abbrev SHD_RELOCATIONS_COUNT : Field := ⟨0x900010, 0, 32⟩
abbrev SHD_MODULE : Nat := 0x900100
abbrev SHD_MODULE_READ_ONLY : Field := ⟨0x900100, 0, 1⟩
abbrev SHD_MODULE_OVER_BUDGET : Field := ⟨0x900100, 1, 1⟩
abbrev SHD_WEAR : Nat := 0x900104
abbrev SHD_WEAR_USED : Field := ⟨0x900104, 0, 16⟩
abbrev SHD_SPARE_BLOCKS : Nat := 0x900108
abbrev SHD_SPARE_BLOCKS_COUNT : Field := ⟨0x900108, 0, 32⟩
abbrev SHD_HOST_WRITES_LO : Nat := 0x90010C
abbrev SHD_HOST_WRITES_LO_COUNT : Field := ⟨0x90010C, 0, 32⟩
abbrev SHD_HOST_WRITES_HI : Nat := 0x900110
abbrev SHD_HOST_WRITES_HI_COUNT : Field := ⟨0x900110, 0, 32⟩
abbrev SHD_NAND_WRITES_LO : Nat := 0x900114
abbrev SHD_NAND_WRITES_LO_COUNT : Field := ⟨0x900114, 0, 32⟩
abbrev SHD_NAND_WRITES_HI : Nat := 0x900118
abbrev SHD_NAND_WRITES_HI_COUNT : Field := ⟨0x900118, 0, 32⟩
abbrev SHD_ORDER_WAITS : Nat := 0x90011C
abbrev SHD_ORDER_WAITS_COUNT : Field := ⟨0x90011C, 0, 32⟩

/-- The rows of spec/11_external_memory.md, one per register (arrays once). -/
def regRows11 : List RegRow := [
  ⟨0x800000, [⟨0, 5, .rw, 0x0⟩]⟩,
  ⟨0x800004, [⟨0, 1, .w1c, 0x0⟩, ⟨1, 1, .ro, 0x0⟩, ⟨2, 1, .ro, 0x1⟩, ⟨3, 1, .ro, 0x0⟩, ⟨4, 1, .ro, 0x0⟩, ⟨5, 1, .ro, 0x0⟩, ⟨6, 1, .w1c, 0x0⟩]⟩,
  ⟨0x800008, [⟨0, 16, .ro, 0x0⟩, ⟨16, 16, .ro, 0x0⟩]⟩,
  ⟨0x80000C, [⟨0, 32, .ro, 0x0⟩]⟩,
  ⟨0x800010, [⟨0, 8, .ro, 0x0⟩]⟩,
  ⟨0x800014, [⟨0, 8, .ro, 0x0⟩, ⟨8, 8, .ro, 0x0⟩]⟩,
  ⟨0x800018, [⟨0, 32, .ro, 0x0⟩]⟩,
  ⟨0x80001C, [⟨0, 32, .ro, 0x0⟩]⟩,
  ⟨0x800020, [⟨0, 32, .ro, 0x0⟩]⟩,
  ⟨0x800024, [⟨0, 32, .ro, 0x0⟩]⟩,
  ⟨0x800028, [⟨0, 32, .ro, 0x0⟩]⟩,
  ⟨0x80002C, [⟨0, 1, .wo, 0x0⟩, ⟨1, 1, .rw, 0x0⟩, ⟨2, 5, .rw, 0x0⟩]⟩,
  ⟨0x800030, [⟨0, 8, .ro, 0x0⟩, ⟨8, 8, .ro, 0x0⟩, ⟨16, 1, .ro, 0x0⟩, ⟨17, 1, .ro, 0x0⟩]⟩,
  ⟨0x900000, [⟨0, 4, .rw, 0x0⟩]⟩,
  ⟨0x900004, [⟨0, 1, .w1c, 0x0⟩, ⟨1, 1, .ro, 0x0⟩, ⟨2, 1, .ro, 0x1⟩, ⟨3, 1, .w1c, 0x0⟩]⟩,
  ⟨0x900008, [⟨0, 32, .ro, 0x0⟩]⟩,
  ⟨0x90000C, [⟨0, 32, .ro, 0x0⟩]⟩,
  ⟨0x900010, [⟨0, 32, .ro, 0x0⟩]⟩,
  ⟨0x900100, [⟨0, 1, .ro, 0x0⟩, ⟨1, 1, .ro, 0x0⟩]⟩,
  ⟨0x900104, [⟨0, 16, .ro, 0x0⟩]⟩,
  ⟨0x900108, [⟨0, 32, .ro, 0x0⟩]⟩,
  ⟨0x90010C, [⟨0, 32, .ro, 0x0⟩]⟩,
  ⟨0x900110, [⟨0, 32, .ro, 0x0⟩]⟩,
  ⟨0x900114, [⟨0, 32, .ro, 0x0⟩]⟩,
  ⟨0x900118, [⟨0, 32, .ro, 0x0⟩]⟩,
  ⟨0x90011C, [⟨0, 32, .ro, 0x0⟩]⟩]

/-! Registers of spec/12_yardmaster.md (R329). -/

abbrev YMS_STATUS : Nat := 0xA00000
abbrev YMS_STATUS_PLACED : Field := ⟨0xA00000, 0, 1⟩
abbrev YMS_STATUS_BOUNDARY_BUSY : Field := ⟨0xA00000, 1, 1⟩
abbrev YMS_STATUS_CLAMP : Field := ⟨0xA00000, 2, 1⟩
abbrev YMS_STATUS_HINT_MISSED : Field := ⟨0xA00000, 3, 1⟩
abbrev YMS_CFG : Nat := 0xA00004
abbrev YMS_CFG_RUNAHEAD : Field := ⟨0xA00004, 0, 16⟩
abbrev YMS_CFG_PF_EN : Field := ⟨0xA00004, 16, 1⟩
abbrev YMS_CFG_ADAPT_EN : Field := ⟨0xA00004, 17, 1⟩
abbrev YMS_WORK_BASE_LO : Nat := 0xA00008
abbrev YMS_WORK_BASE_LO_BASE : Field := ⟨0xA00008, 12, 20⟩
abbrev YMS_WORK_BASE_HI : Nat := 0xA0000C
abbrev YMS_WORK_BASE_HI_BASE : Field := ⟨0xA0000C, 0, 32⟩
abbrev YMS_WORK_MIB : Nat := 0xA00010
abbrev YMS_WORK_MIB_MIB : Field := ⟨0xA00010, 0, 18⟩
abbrev YMS_EXPERT_BUDGET : Nat := 0xA00014
abbrev YMS_EXPERT_BUDGET_MIB : Field := ⟨0xA00014, 0, 18⟩
abbrev YMS_MIG_LIMIT : Nat := 0xA00018
abbrev YMS_MIG_LIMIT_MIB : Field := ⟨0xA00018, 0, 16⟩
abbrev YMS_LOAD_CAUSE : Nat := 0xA0001C
abbrev YMS_LOAD_CAUSE_CAUSE : Field := ⟨0xA0001C, 0, 8⟩
abbrev YMS_LOAD_CAUSE_SUBJECT : Field := ⟨0xA0001C, 8, 24⟩
abbrev YMS_SHED_PAGE : Nat := 0xA00020
abbrev YMS_SHED_PAGE_PAGE : Field := ⟨0xA00020, 0, 32⟩
abbrev YMS_SHED_PAGES : Nat := 0xA00024
abbrev YMS_SHED_PAGES_COUNT : Field := ⟨0xA00024, 0, 32⟩
abbrev YMS_HINT_MISSED : Nat := 0xA00028
abbrev YMS_HINT_MISSED_COUNT : Field := ⟨0xA00028, 0, 32⟩
abbrev YMS_CLAMP_MIN : Nat := 0xA0002C
abbrev YMS_CLAMP_MIN_COUNT : Field := ⟨0xA0002C, 0, 32⟩
abbrev YMS_CLAMP_MAX : Nat := 0xA00030
abbrev YMS_CLAMP_MAX_COUNT : Field := ⟨0xA00030, 0, 32⟩
abbrev YMS_CLAMP_BUDGET : Nat := 0xA00034
abbrev YMS_CLAMP_BUDGET_COUNT : Field := ⟨0xA00034, 0, 32⟩
abbrev YMS_MIGRATIONS : Nat := 0xA00038
abbrev YMS_MIGRATIONS_COUNT : Field := ⟨0xA00038, 0, 32⟩
abbrev YMS_MIG_ABANDONED : Nat := 0xA0003C
abbrev YMS_MIG_ABANDONED_COUNT : Field := ⟨0xA0003C, 0, 32⟩
abbrev YMS_BOUNDARY_DELAY_BEATS : Nat := 0xA00040
abbrev YMS_BOUNDARY_DELAY_BEATS_COUNT : Field := ⟨0xA00040, 0, 32⟩
abbrev YMS_DEMAND_FETCHES : Nat := 0xA00044
abbrev YMS_DEMAND_FETCHES_COUNT : Field := ⟨0xA00044, 0, 32⟩
abbrev YMS_PF_ISSUED_LO : Nat := 0xA00048
abbrev YMS_PF_ISSUED_LO_COUNT : Field := ⟨0xA00048, 0, 32⟩
abbrev YMS_PF_ISSUED_HI : Nat := 0xA0004C
abbrev YMS_PF_ISSUED_HI_COUNT : Field := ⟨0xA0004C, 0, 32⟩
abbrev YMS_PF_CANCELLED : Nat := 0xA00050
abbrev YMS_PF_CANCELLED_COUNT : Field := ⟨0xA00050, 0, 32⟩
abbrev YMS_PF_LANDED_AFTER_CANCEL : Nat := 0xA00054
abbrev YMS_PF_LANDED_AFTER_CANCEL_COUNT : Field := ⟨0xA00054, 0, 32⟩
abbrev YMS_PF_STALE_DROPS : Nat := 0xA00058
abbrev YMS_PF_STALE_DROPS_COUNT : Field := ⟨0xA00058, 0, 32⟩

/-- The rows of spec/12_yardmaster.md, one per register (arrays once). -/
def regRows12 : List RegRow := [
  ⟨0xA00000, [⟨0, 1, .ro, 0x0⟩, ⟨1, 1, .ro, 0x0⟩, ⟨2, 1, .w1c, 0x0⟩, ⟨3, 1, .w1c, 0x0⟩]⟩,
  ⟨0xA00004, [⟨0, 16, .rw, 0x40⟩, ⟨16, 1, .rw, 0x1⟩, ⟨17, 1, .rw, 0x1⟩]⟩,
  ⟨0xA00008, [⟨12, 20, .rw, 0x0⟩]⟩,
  ⟨0xA0000C, [⟨0, 32, .rw, 0x0⟩]⟩,
  ⟨0xA00010, [⟨0, 18, .rw, 0x0⟩]⟩,
  ⟨0xA00014, [⟨0, 18, .rw, 0x0⟩]⟩,
  ⟨0xA00018, [⟨0, 16, .rw, 0x400⟩]⟩,
  ⟨0xA0001C, [⟨0, 8, .ro, 0x0⟩, ⟨8, 24, .ro, 0x0⟩]⟩,
  ⟨0xA00020, [⟨0, 32, .rw, 0x0⟩]⟩,
  ⟨0xA00024, [⟨0, 32, .rw, 0x0⟩]⟩,
  ⟨0xA00028, [⟨0, 32, .ro, 0x0⟩]⟩,
  ⟨0xA0002C, [⟨0, 32, .ro, 0x0⟩]⟩,
  ⟨0xA00030, [⟨0, 32, .ro, 0x0⟩]⟩,
  ⟨0xA00034, [⟨0, 32, .ro, 0x0⟩]⟩,
  ⟨0xA00038, [⟨0, 32, .ro, 0x0⟩]⟩,
  ⟨0xA0003C, [⟨0, 32, .ro, 0x0⟩]⟩,
  ⟨0xA00040, [⟨0, 32, .ro, 0x0⟩]⟩,
  ⟨0xA00044, [⟨0, 32, .ro, 0x0⟩]⟩,
  ⟨0xA00048, [⟨0, 32, .ro, 0x0⟩]⟩,
  ⟨0xA0004C, [⟨0, 32, .ro, 0x0⟩]⟩,
  ⟨0xA00050, [⟨0, 32, .ro, 0x0⟩]⟩,
  ⟨0xA00054, [⟨0, 32, .ro, 0x0⟩]⟩,
  ⟨0xA00058, [⟨0, 32, .ro, 0x0⟩]⟩]

/-! Registers of spec/13_holgor_yardtime.md (R363, R364). -/

abbrev LINK_SEL : Nat := 0x600000
abbrev LINK_SEL_LINK : Field := ⟨0x600000, 0, 4⟩
abbrev HLK_STATUS : Nat := 0x600004
abbrev HLK_STATUS_SEL_ERR : Field := ⟨0x600004, 0, 1⟩
abbrev HLK_STATUS_UP : Field := ⟨0x600004, 1, 1⟩
abbrev HLK_STATUS_TRAINING : Field := ⟨0x600004, 2, 1⟩
abbrev HLK_STATUS_DEGRADED : Field := ⟨0x600004, 3, 1⟩
abbrev HLK_STATUS_SPARE_IN : Field := ⟨0x600004, 4, 1⟩
abbrev HLK_STATUS_MISWIRED : Field := ⟨0x600004, 5, 1⟩
abbrev HLK_STATUS_DOWN_EVENT : Field := ⟨0x600004, 6, 1⟩
abbrev HLK_STATUS_VIOL : Field := ⟨0x600004, 7, 1⟩
abbrev HLK_STATUS_EPOCH : Field := ⟨0x600004, 8, 8⟩
abbrev HLK_CTRL : Nat := 0x600008
abbrev HLK_CTRL_RESET : Field := ⟨0x600008, 0, 1⟩
abbrev HLK_CTRL_ENABLE : Field := ⟨0x600008, 1, 1⟩
abbrev HLK_PEER : Nat := 0x60000C
abbrev HLK_PEER_RANK : Field := ⟨0x60000C, 0, 13⟩
abbrev HLK_PEER_DOMAIN : Field := ⟨0x60000C, 13, 4⟩
abbrev HLK_PEER_LINK : Field := ⟨0x60000C, 17, 4⟩
abbrev HLK_PEER_VALID : Field := ⟨0x60000C, 21, 1⟩
abbrev HLK_LANES : Nat := 0x600010
abbrev HLK_LANES_ACTIVE : Field := ⟨0x600010, 0, 9⟩
abbrev HLK_FEC_CORR_LO : Nat := 0x600014
abbrev HLK_FEC_CORR_LO_COUNT : Field := ⟨0x600014, 0, 32⟩
abbrev HLK_FEC_CORR_HI : Nat := 0x600018
abbrev HLK_FEC_CORR_HI_COUNT : Field := ⟨0x600018, 0, 32⟩
abbrev HLK_FEC_UNCORR : Nat := 0x60001C
abbrev HLK_FEC_UNCORR_COUNT : Field := ⟨0x60001C, 0, 32⟩
abbrev HLK_REPLAYS : Nat := 0x600020
abbrev HLK_REPLAYS_COUNT : Field := ⟨0x600020, 0, 32⟩
abbrev HLK_TX_FLITS_LO : Nat := 0x600024
abbrev HLK_TX_FLITS_LO_COUNT : Field := ⟨0x600024, 0, 32⟩
abbrev HLK_TX_FLITS_HI : Nat := 0x600028
abbrev HLK_TX_FLITS_HI_COUNT : Field := ⟨0x600028, 0, 32⟩
abbrev HLK_RX_FLITS_LO : Nat := 0x60002C
abbrev HLK_RX_FLITS_LO_COUNT : Field := ⟨0x60002C, 0, 32⟩
abbrev HLK_RX_FLITS_HI : Nat := 0x600030
abbrev HLK_RX_FLITS_HI_COUNT : Field := ⟨0x600030, 0, 32⟩
abbrev HLK_CREDIT_STALL : Nat := 0x600034
abbrev HLK_CREDIT_STALL_COUNT : Field := ⟨0x600034, 0, 32⟩
abbrev HLK_DELAY : Nat := 0x600038
abbrev HLK_DELAY_DELAY : Field := ⟨0x600038, 0, 32⟩
abbrev HLK_VIOL_CODE : Nat := 0x60003C
abbrev HLK_VIOL_CODE_CODE : Field := ⟨0x60003C, 0, 8⟩
abbrev HLK_VIOL_VALUE : Nat := 0x600040
abbrev HLK_VIOL_VALUE_VALUE : Field := ⟨0x600040, 0, 32⟩
abbrev HLK_VIOL_COUNT : Nat := 0x600044
abbrev HLK_VIOL_COUNT_COUNT : Field := ⟨0x600044, 0, 32⟩
abbrev HLK_DOWN_COUNT : Nat := 0x600048
abbrev HLK_DOWN_COUNT_COUNT : Field := ⟨0x600048, 0, 32⟩
abbrev HLK_STALE_DROPS : Nat := 0x60004C
abbrev HLK_STALE_DROPS_COUNT : Field := ⟨0x60004C, 0, 32⟩
abbrev HLK_ADDR : Nat := 0x600100
abbrev HLK_ADDR_RANK : Field := ⟨0x600100, 0, 13⟩
abbrev HLK_ADDR_DOMAIN : Field := ⟨0x600100, 13, 4⟩
abbrev HLK_DIMS : Nat := 0x600104
abbrev HLK_DIMS_DX : Field := ⟨0x600104, 0, 4⟩
abbrev HLK_DIMS_DY : Field := ⟨0x600104, 4, 5⟩
abbrev HLK_DIMS_DZ : Field := ⟨0x600104, 9, 5⟩
abbrev HLK_ETH_STATUS (e : Nat) : Nat := 0x600200 + 0x20 * e
abbrev HLK_ETH_STATUS_UP (e : Nat) : Field := ⟨0x600200 + 0x20 * e, 0, 1⟩
abbrev HLK_ETH_STATUS_RATE (e : Nat) : Field := ⟨0x600200 + 0x20 * e, 1, 1⟩
abbrev HLK_ETH_RX_FRAMES (e : Nat) : Nat := 0x600204 + 0x20 * e
abbrev HLK_ETH_RX_FRAMES_COUNT (e : Nat) : Field := ⟨0x600204 + 0x20 * e, 0, 32⟩
abbrev HLK_ETH_TX_FRAMES (e : Nat) : Nat := 0x600208 + 0x20 * e
abbrev HLK_ETH_TX_FRAMES_COUNT (e : Nat) : Field := ⟨0x600208 + 0x20 * e, 0, 32⟩
abbrev HLK_ETH_FCS_ERR (e : Nat) : Nat := 0x60020C + 0x20 * e
abbrev HLK_ETH_FCS_ERR_COUNT (e : Nat) : Field := ⟨0x60020C + 0x20 * e, 0, 32⟩
abbrev HLK_ETH_PROTO_ERR (e : Nat) : Nat := 0x600210 + 0x20 * e
abbrev HLK_ETH_PROTO_ERR_COUNT (e : Nat) : Field := ⟨0x600210 + 0x20 * e, 0, 32⟩
abbrev HLK_ETH_RETRANS (e : Nat) : Nat := 0x600214 + 0x20 * e
abbrev HLK_ETH_RETRANS_COUNT (e : Nat) : Field := ⟨0x600214 + 0x20 * e, 0, 32⟩
abbrev YTM_STATUS : Nat := 0x500000
abbrev YTM_STATUS_STATE : Field := ⟨0x500000, 0, 3⟩
abbrev YTM_STATUS_SYNCED : Field := ⟨0x500000, 3, 1⟩
abbrev YTM_STATUS_REF_LOST : Field := ⟨0x500000, 4, 1⟩
abbrev YTM_STATUS_RATE_REJECT : Field := ⟨0x500000, 5, 1⟩
abbrev YTM_STATUS_UNSYNC_EVENT : Field := ⟨0x500000, 6, 1⟩
abbrev YTM_STATUS_VIOL : Field := ⟨0x500000, 7, 1⟩
abbrev YTM_CTRL : Nat := 0x500004
abbrev YTM_CTRL_SOURCE : Field := ⟨0x500004, 0, 2⟩
abbrev YTM_CTRL_TIMEKEEPER : Field := ⟨0x500004, 2, 1⟩
abbrev YTM_CTRL_UPLINK : Field := ⟨0x500004, 3, 4⟩
abbrev YTM_CTRL_PTP_PORT : Field := ⟨0x500004, 7, 1⟩
abbrev YTM_BEAT_LO : Nat := 0x500008
abbrev YTM_BEAT_LO_BEAT : Field := ⟨0x500008, 0, 32⟩
abbrev YTM_BEAT_HI : Nat := 0x50000C
abbrev YTM_BEAT_HI_BEAT : Field := ⟨0x50000C, 0, 32⟩
abbrev YTM_PERIOD : Nat := 0x500010
abbrev YTM_PERIOD_PERIOD : Field := ⟨0x500010, 0, 7⟩
abbrev YTM_PERIOD_EPOCH : Field := ⟨0x500010, 8, 8⟩
abbrev YTM_PHASE_ERR : Nat := 0x500014
abbrev YTM_PHASE_ERR_NS : Field := ⟨0x500014, 0, 32⟩
abbrev YTM_FREQ_OFFSET : Nat := 0x500018
abbrev YTM_FREQ_OFFSET_OFFSET : Field := ⟨0x500018, 0, 32⟩
abbrev YTM_HOLDOVER_MS : Nat := 0x50001C
abbrev YTM_HOLDOVER_MS_MS : Field := ⟨0x50001C, 0, 32⟩
abbrev YTM_PIN_DELAY : Nat := 0x500020
abbrev YTM_PIN_DELAY_DELAY : Field := ⟨0x500020, 0, 16⟩
abbrev YTM_PTP_ORIGIN_LO : Nat := 0x500024
abbrev YTM_PTP_ORIGIN_LO_NS : Field := ⟨0x500024, 0, 32⟩
abbrev YTM_PTP_ORIGIN_HI : Nat := 0x500028
abbrev YTM_PTP_ORIGIN_HI_NS : Field := ⟨0x500028, 0, 32⟩
abbrev YTM_REF_LOSS_COUNT : Nat := 0x50002C
abbrev YTM_REF_LOSS_COUNT_COUNT : Field := ⟨0x50002C, 0, 32⟩
abbrev YTM_RATE_REJECT_COUNT : Nat := 0x500030
abbrev YTM_RATE_REJECT_COUNT_COUNT : Field := ⟨0x500030, 0, 32⟩
abbrev YTM_UNSYNC_COUNT : Nat := 0x500034
abbrev YTM_UNSYNC_COUNT_COUNT : Field := ⟨0x500034, 0, 32⟩
abbrev YTM_SLOT_LATE : Nat := 0x500038
abbrev YTM_SLOT_LATE_COUNT : Field := ⟨0x500038, 0, 32⟩
abbrev YTM_OVERRUN_BEATS : Nat := 0x50003C
abbrev YTM_OVERRUN_BEATS_COUNT : Field := ⟨0x50003C, 0, 32⟩
abbrev YTM_VIOL_CODE : Nat := 0x500040
abbrev YTM_VIOL_CODE_CODE : Field := ⟨0x500040, 0, 8⟩
abbrev YTM_VIOL_VALUE : Nat := 0x500044
abbrev YTM_VIOL_VALUE_VALUE : Field := ⟨0x500044, 0, 32⟩

/-- The rows of spec/13_holgor_yardtime.md, one per register (arrays once). -/
def regRows13 : List RegRow := [
  ⟨0x600000, [⟨0, 4, .rw, 0x0⟩]⟩,
  ⟨0x600004, [⟨0, 1, .w1c, 0x0⟩, ⟨1, 1, .ro, 0x0⟩, ⟨2, 1, .ro, 0x0⟩, ⟨3, 1, .ro, 0x0⟩, ⟨4, 1, .ro, 0x0⟩, ⟨5, 1, .ro, 0x0⟩, ⟨6, 1, .w1c, 0x0⟩, ⟨7, 1, .w1c, 0x0⟩, ⟨8, 8, .ro, 0x0⟩]⟩,
  ⟨0x600008, [⟨0, 1, .wo, 0x0⟩, ⟨1, 1, .rw, 0x1⟩]⟩,
  ⟨0x60000C, [⟨0, 13, .ro, 0x0⟩, ⟨13, 4, .ro, 0x0⟩, ⟨17, 4, .ro, 0x0⟩, ⟨21, 1, .ro, 0x0⟩]⟩,
  ⟨0x600010, [⟨0, 9, .ro, 0xFF⟩]⟩,
  ⟨0x600014, [⟨0, 32, .ro, 0x0⟩]⟩,
  ⟨0x600018, [⟨0, 32, .ro, 0x0⟩]⟩,
  ⟨0x60001C, [⟨0, 32, .ro, 0x0⟩]⟩,
  ⟨0x600020, [⟨0, 32, .ro, 0x0⟩]⟩,
  ⟨0x600024, [⟨0, 32, .ro, 0x0⟩]⟩,
  ⟨0x600028, [⟨0, 32, .ro, 0x0⟩]⟩,
  ⟨0x60002C, [⟨0, 32, .ro, 0x0⟩]⟩,
  ⟨0x600030, [⟨0, 32, .ro, 0x0⟩]⟩,
  ⟨0x600034, [⟨0, 32, .ro, 0x0⟩]⟩,
  ⟨0x600038, [⟨0, 32, .ro, 0x0⟩]⟩,
  ⟨0x60003C, [⟨0, 8, .ro, 0x0⟩]⟩,
  ⟨0x600040, [⟨0, 32, .ro, 0x0⟩]⟩,
  ⟨0x600044, [⟨0, 32, .ro, 0x0⟩]⟩,
  ⟨0x600048, [⟨0, 32, .ro, 0x0⟩]⟩,
  ⟨0x60004C, [⟨0, 32, .ro, 0x0⟩]⟩,
  ⟨0x600100, [⟨0, 13, .rw, 0x0⟩, ⟨13, 4, .rw, 0x0⟩]⟩,
  ⟨0x600104, [⟨0, 4, .rw, 0x1⟩, ⟨4, 5, .rw, 0x1⟩, ⟨9, 5, .rw, 0x1⟩]⟩,
  ⟨0x600200, [⟨0, 1, .ro, 0x0⟩, ⟨1, 1, .ro, 0x0⟩]⟩,
  ⟨0x600204, [⟨0, 32, .ro, 0x0⟩]⟩,
  ⟨0x600208, [⟨0, 32, .ro, 0x0⟩]⟩,
  ⟨0x60020C, [⟨0, 32, .ro, 0x0⟩]⟩,
  ⟨0x600210, [⟨0, 32, .ro, 0x0⟩]⟩,
  ⟨0x600214, [⟨0, 32, .ro, 0x0⟩]⟩,
  ⟨0x500000, [⟨0, 3, .ro, 0x0⟩, ⟨3, 1, .ro, 0x0⟩, ⟨4, 1, .w1c, 0x0⟩, ⟨5, 1, .w1c, 0x0⟩, ⟨6, 1, .w1c, 0x0⟩, ⟨7, 1, .w1c, 0x0⟩]⟩,
  ⟨0x500004, [⟨0, 2, .rw, 0x0⟩, ⟨2, 1, .rw, 0x0⟩, ⟨3, 4, .rw, 0x0⟩, ⟨7, 1, .rw, 0x0⟩]⟩,
  ⟨0x500008, [⟨0, 32, .ro, 0x0⟩]⟩,
  ⟨0x50000C, [⟨0, 32, .ro, 0x0⟩]⟩,
  ⟨0x500010, [⟨0, 7, .ro, 0x4⟩, ⟨8, 8, .ro, 0x0⟩]⟩,
  ⟨0x500014, [⟨0, 32, .ro, 0x0⟩]⟩,
  ⟨0x500018, [⟨0, 32, .ro, 0x0⟩]⟩,
  ⟨0x50001C, [⟨0, 32, .ro, 0x0⟩]⟩,
  ⟨0x500020, [⟨0, 16, .rw, 0x0⟩]⟩,
  ⟨0x500024, [⟨0, 32, .rw, 0x0⟩]⟩,
  ⟨0x500028, [⟨0, 32, .rw, 0x0⟩]⟩,
  ⟨0x50002C, [⟨0, 32, .ro, 0x0⟩]⟩,
  ⟨0x500030, [⟨0, 32, .ro, 0x0⟩]⟩,
  ⟨0x500034, [⟨0, 32, .ro, 0x0⟩]⟩,
  ⟨0x500038, [⟨0, 32, .ro, 0x0⟩]⟩,
  ⟨0x50003C, [⟨0, 32, .ro, 0x0⟩]⟩,
  ⟨0x500040, [⟨0, 8, .ro, 0x0⟩]⟩,
  ⟨0x500044, [⟨0, 32, .ro, 0x0⟩]⟩]

/-! Registers of spec/14_muster.md (R395, R396). -/

abbrev MUS_STATUS : Nat := 0x700000
abbrev MUS_STATUS_PARTIAL : Field := ⟨0x700000, 0, 1⟩
abbrev MUS_STATUS_DEFER_HELD : Field := ⟨0x700000, 1, 1⟩
abbrev MUS_STATUS_FAULT : Field := ⟨0x700000, 2, 1⟩
abbrev MUS_FAULT : Nat := 0x700004
abbrev MUS_FAULT_CODE : Field := ⟨0x700004, 0, 8⟩
abbrev MUS_FAULT_COLL : Field := ⟨0x700004, 8, 12⟩
abbrev MUS_COLL_ADDR : Nat := 0x700008
abbrev MUS_COLL_ADDR_COLL : Field := ⟨0x700008, 0, 12⟩
abbrev MUS_COLL_ADDR_PLAN : Field := ⟨0x700008, 12, 4⟩
abbrev MUS_COLL_SLOW : Nat := 0x70000C
abbrev MUS_COLL_SLOW_RANK : Field := ⟨0x70000C, 0, 17⟩
abbrev MUS_COLL_SLOW_LEFT_OUT : Field := ⟨0x70000C, 17, 1⟩
abbrev MUS_COLL_LATE : Nat := 0x700010
abbrev MUS_COLL_LATE_BEATS : Field := ⟨0x700010, 0, 32⟩
abbrev MUS_COLL_OWN : Nat := 0x700014
abbrev MUS_COLL_OWN_BEATS : Field := ⟨0x700014, 0, 32⟩
abbrev MUS_COLL_STATE : Nat := 0x700018
abbrev MUS_COLL_STATE_DONE : Field := ⟨0x700018, 0, 1⟩
abbrev MUS_COLL_STATE_PARTIAL : Field := ⟨0x700018, 1, 1⟩
abbrev MUS_COLL_STATE_NF : Field := ⟨0x700018, 2, 1⟩
abbrev MUS_COLL_STATE_LEFT : Field := ⟨0x700018, 16, 16⟩
abbrev MUS_CANCEL : Nat := 0x70001C
abbrev MUS_CANCEL_COLL : Field := ⟨0x70001C, 0, 12⟩
abbrev MUS_CANCEL_PLAN : Field := ⟨0x70001C, 12, 4⟩
abbrev MUS_CANCEL_STATUS : Nat := 0x700020
abbrev MUS_CANCEL_STATUS_CODE : Field := ⟨0x700020, 0, 8⟩
abbrev MUS_CANCEL_STATUS_BUSY : Field := ⟨0x700020, 8, 1⟩
abbrev MUS_WAIT_EVENTS : Nat := 0x700024
abbrev MUS_WAIT_EVENTS_COUNT : Field := ⟨0x700024, 0, 32⟩
abbrev MUS_WAIT_BEATS : Nat := 0x700028
abbrev MUS_WAIT_BEATS_COUNT : Field := ⟨0x700028, 0, 32⟩
abbrev MUS_LEFT_OUT : Nat := 0x70002C
abbrev MUS_LEFT_OUT_COUNT : Field := ⟨0x70002C, 0, 32⟩
abbrev MUS_DEFER_ADDED : Nat := 0x700030
abbrev MUS_DEFER_ADDED_COUNT : Field := ⟨0x700030, 0, 32⟩
abbrev MUS_DROPPED : Nat := 0x700034
abbrev MUS_DROPPED_COUNT : Field := ⟨0x700034, 0, 32⟩
abbrev MUS_TOO_LATE : Nat := 0x700038
abbrev MUS_TOO_LATE_COUNT : Field := ⟨0x700038, 0, 32⟩
abbrev MUS_WHISTLE_OPS : Nat := 0x70003C
abbrev MUS_WHISTLE_OPS_COUNT : Field := ⟨0x70003C, 0, 32⟩
abbrev MUS_BYTES_LO : Nat := 0x700040
abbrev MUS_BYTES_LO_COUNT : Field := ⟨0x700040, 0, 32⟩
abbrev MUS_BYTES_HI : Nat := 0x700044
abbrev MUS_BYTES_HI_COUNT : Field := ⟨0x700044, 0, 32⟩
abbrev MUS_FAULT_COUNT : Nat := 0x700048
abbrev MUS_FAULT_COUNT_COUNT : Field := ⟨0x700048, 0, 32⟩
abbrev MUS_XQP_LOCAL (i : Nat) : Nat := 0x701000 + 0x8 * i
abbrev MUS_XQP_LOCAL_QPN (i : Nat) : Field := ⟨0x701000 + 0x8 * i, 0, 24⟩
abbrev MUS_XQP_LOCAL_VALID (i : Nat) : Field := ⟨0x701000 + 0x8 * i, 31, 1⟩
abbrev MUS_XQP_REMOTE (i : Nat) : Nat := 0x701004 + 0x8 * i
abbrev MUS_XQP_REMOTE_QPN (i : Nat) : Field := ⟨0x701004 + 0x8 * i, 0, 24⟩

/-- The rows of spec/14_muster.md, one per register (arrays once). -/
def regRows14 : List RegRow := [
  ⟨0x700000, [⟨0, 1, .ro, 0x0⟩, ⟨1, 1, .ro, 0x0⟩, ⟨2, 1, .w1c, 0x0⟩]⟩,
  ⟨0x700004, [⟨0, 8, .ro, 0x0⟩, ⟨8, 12, .ro, 0x0⟩]⟩,
  ⟨0x700008, [⟨0, 12, .rw, 0x0⟩, ⟨12, 4, .rw, 0x0⟩]⟩,
  ⟨0x70000C, [⟨0, 17, .ro, 0x0⟩, ⟨17, 1, .ro, 0x0⟩]⟩,
  ⟨0x700010, [⟨0, 32, .ro, 0x0⟩]⟩,
  ⟨0x700014, [⟨0, 32, .ro, 0x0⟩]⟩,
  ⟨0x700018, [⟨0, 1, .ro, 0x0⟩, ⟨1, 1, .ro, 0x0⟩, ⟨2, 1, .ro, 0x0⟩, ⟨16, 16, .ro, 0x0⟩]⟩,
  ⟨0x70001C, [⟨0, 12, .wo, 0x0⟩, ⟨12, 4, .wo, 0x0⟩]⟩,
  ⟨0x700020, [⟨0, 8, .ro, 0x0⟩, ⟨8, 1, .ro, 0x0⟩]⟩,
  ⟨0x700024, [⟨0, 32, .ro, 0x0⟩]⟩,
  ⟨0x700028, [⟨0, 32, .ro, 0x0⟩]⟩,
  ⟨0x70002C, [⟨0, 32, .ro, 0x0⟩]⟩,
  ⟨0x700030, [⟨0, 32, .ro, 0x0⟩]⟩,
  ⟨0x700034, [⟨0, 32, .ro, 0x0⟩]⟩,
  ⟨0x700038, [⟨0, 32, .ro, 0x0⟩]⟩,
  ⟨0x70003C, [⟨0, 32, .ro, 0x0⟩]⟩,
  ⟨0x700040, [⟨0, 32, .ro, 0x0⟩]⟩,
  ⟨0x700044, [⟨0, 32, .ro, 0x0⟩]⟩,
  ⟨0x700048, [⟨0, 32, .ro, 0x0⟩]⟩,
  ⟨0x701000, [⟨0, 24, .rw, 0x0⟩, ⟨31, 1, .rw, 0x0⟩]⟩,
  ⟨0x701004, [⟨0, 24, .rw, 0x0⟩]⟩]

/-! Registers of spec/15_partitions.md (R413). -/

abbrev PRT_MODE : Nat := 0x400000
abbrev PRT_MODE_ISOLATE : Field := ⟨0x400000, 0, 1⟩
abbrev PRT_MODE_SIGNED : Field := ⟨0x400000, 1, 1⟩
abbrev PRT_STATUS : Nat := 0x400004
abbrev PRT_STATUS_SETUP_ERR : Field := ⟨0x400004, 0, 1⟩
abbrev PRT_SETUP_ERR_CODE : Nat := 0x400008
abbrev PRT_SETUP_ERR_CODE_CODE : Field := ⟨0x400008, 0, 4⟩
abbrev PRT_SETUP_ERR_CODE_PART : Field := ⟨0x400008, 4, 6⟩
abbrev PRT_OWNER_LINES : Nat := 0x40000C
abbrev PRT_OWNER_LINES_LINES : Field := ⟨0x40000C, 0, 23⟩
abbrev PRT_CTRL (p : Nat) : Nat := 0x400100 + 0x40 * p
abbrev PRT_CTRL_ENABLE (p : Nat) : Field := ⟨0x400100 + 0x40 * p, 0, 1⟩
abbrev PRT_CTRL_RELEASE (p : Nat) : Field := ⟨0x400100 + 0x40 * p, 1, 1⟩
abbrev PRT_CTRL_WHISTLE (p : Nat) : Field := ⟨0x400100 + 0x40 * p, 2, 1⟩
abbrev PRT_STATE (p : Nat) : Nat := 0x400104 + 0x40 * p
abbrev PRT_STATE_STATE (p : Nat) : Field := ⟨0x400104 + 0x40 * p, 0, 2⟩
abbrev PRT_STATE_SCRUB_DONE (p : Nat) : Field := ⟨0x400104 + 0x40 * p, 2, 1⟩
abbrev PRT_CLUSTERS (p : Nat) : Nat := 0x400108 + 0x40 * p
abbrev PRT_CLUSTERS_MASK (p : Nat) : Field := ⟨0x400108 + 0x40 * p, 0, 32⟩
abbrev PRT_CHANNELS (p : Nat) : Nat := 0x40010C + 0x40 * p
abbrev PRT_CHANNELS_MASK (p : Nat) : Field := ⟨0x40010C + 0x40 * p, 0, 24⟩
abbrev PRT_GDDR_BASE (p : Nat) : Nat := 0x400110 + 0x40 * p
abbrev PRT_GDDR_BASE_LINE (p : Nat) : Field := ⟨0x400110 + 0x40 * p, 0, 23⟩
abbrev PRT_GDDR_LINES (p : Nat) : Nat := 0x400114 + 0x40 * p
abbrev PRT_GDDR_LINES_LINES (p : Nat) : Field := ⟨0x400114 + 0x40 * p, 0, 23⟩
abbrev PRT_SHED_FIRST (p : Nat) : Nat := 0x400118 + 0x40 * p
abbrev PRT_SHED_FIRST_PAGE (p : Nat) : Field := ⟨0x400118 + 0x40 * p, 0, 32⟩
abbrev PRT_SHED_PAGES (p : Nat) : Nat := 0x40011C + 0x40 * p
abbrev PRT_SHED_PAGES_COUNT (p : Nat) : Field := ⟨0x40011C + 0x40 * p, 0, 32⟩
abbrev PRT_DOMAIN_PART (p : Nat) : Nat := 0x400120 + 0x40 * p
abbrev PRT_DOMAIN_PART_ID (p : Nat) : Field := ⟨0x400120 + 0x40 * p, 0, 11⟩
abbrev PRT_INFLIGHT (p : Nat) : Nat := 0x400124 + 0x40 * p
abbrev PRT_INFLIGHT_GDDR (p : Nat) : Field := ⟨0x400124 + 0x40 * p, 0, 15⟩
abbrev PRT_INFLIGHT_SHED (p : Nat) : Field := ⟨0x400124 + 0x40 * p, 16, 10⟩
abbrev PRT_VIOL_COUNT (p : Nat) : Nat := 0x400128 + 0x40 * p
abbrev PRT_VIOL_COUNT_COUNT (p : Nat) : Field := ⟨0x400128 + 0x40 * p, 0, 32⟩
abbrev PRT_SCRUB_MS (p : Nat) : Nat := 0x40012C + 0x40 * p
abbrev PRT_SCRUB_MS_MS (p : Nat) : Field := ⟨0x40012C + 0x40 * p, 0, 32⟩
abbrev PRT_WINDOW (i : Nat) (r : Nat) : Nat := 0x401000 + 0x20 * i + 0x4 * r
abbrev PRT_WINDOW_ENTRIES (i : Nat) (r : Nat) : Field := ⟨0x401000 + 0x20 * i + 0x4 * r, 0, 32⟩

/-- The rows of spec/15_partitions.md, one per register (arrays once). -/
def regRows15 : List RegRow := [
  ⟨0x400000, [⟨0, 1, .rw, 0x0⟩, ⟨1, 1, .ro, 0x0⟩]⟩,
  ⟨0x400004, [⟨0, 1, .w1c, 0x0⟩]⟩,
  ⟨0x400008, [⟨0, 4, .ro, 0x0⟩, ⟨4, 6, .ro, 0x0⟩]⟩,
  ⟨0x40000C, [⟨0, 23, .rw, 0x0⟩]⟩,
  ⟨0x400100, [⟨0, 1, .rw, 0x0⟩, ⟨1, 1, .wo, 0x0⟩, ⟨2, 1, .rw, 0x0⟩]⟩,
  ⟨0x400104, [⟨0, 2, .ro, 0x0⟩, ⟨2, 1, .w1c, 0x0⟩]⟩,
  ⟨0x400108, [⟨0, 32, .rw, 0x0⟩]⟩,
  ⟨0x40010C, [⟨0, 24, .rw, 0x0⟩]⟩,
  ⟨0x400110, [⟨0, 23, .rw, 0x0⟩]⟩,
  ⟨0x400114, [⟨0, 23, .rw, 0x0⟩]⟩,
  ⟨0x400118, [⟨0, 32, .rw, 0x0⟩]⟩,
  ⟨0x40011C, [⟨0, 32, .rw, 0x0⟩]⟩,
  ⟨0x400120, [⟨0, 11, .rw, 0x0⟩]⟩,
  ⟨0x400124, [⟨0, 15, .rw, 0x0⟩, ⟨16, 10, .rw, 0x0⟩]⟩,
  ⟨0x400128, [⟨0, 32, .ro, 0x0⟩]⟩,
  ⟨0x40012C, [⟨0, 32, .ro, 0x0⟩]⟩,
  ⟨0x401000, [⟨0, 32, .rw, 0x80008000⟩]⟩]

/-! Registers of spec/16_clocks_power.md (R430). -/

abbrev CLK_STATUS : Nat := 0x200000
abbrev CLK_STATUS_XA_READY : Field := ⟨0x200000, 0, 1⟩
abbrev CLK_STATUS_XB_READY : Field := ⟨0x200000, 1, 1⟩
abbrev CLK_STATUS_LOOPA_LOCK : Field := ⟨0x200000, 2, 1⟩
abbrev CLK_STATUS_LOOPB_LOCK : Field := ⟨0x200000, 3, 1⟩
abbrev CLK_STATUS_REF : Field := ⟨0x200000, 4, 2⟩
abbrev CLK_STATUS_LOOP : Field := ⟨0x200000, 6, 1⟩
abbrev CLK_STATUS_REF_FAULT : Field := ⟨0x200000, 7, 1⟩
abbrev CLK_STATUS_SWITCH_REFUSED : Field := ⟨0x200000, 8, 1⟩
abbrev CLK_STATUS_FOSC_CLAMP : Field := ⟨0x200000, 9, 1⟩
abbrev CLK_STATUS_EMERG : Field := ⟨0x200000, 10, 1⟩
abbrev CLK_STATUS_EMERG_EVENT : Field := ⟨0x200000, 11, 1⟩
abbrev CLK_STATUS_VIN_WARN : Field := ⟨0x200000, 12, 1⟩
abbrev CLK_STATUS_CLAMP : Field := ⟨0x200000, 13, 1⟩
abbrev CLK_STATUS_BOUND_ERR : Field := ⟨0x200000, 14, 1⟩
abbrev CLK_CTRL : Nat := 0x200004
abbrev CLK_CTRL_REF_SEL : Field := ⟨0x200004, 0, 2⟩
abbrev CLK_CTRL_LOOP_SEL : Field := ⟨0x200004, 2, 1⟩
abbrev CLK_CTRL_AUTO_FAILOVER : Field := ⟨0x200004, 3, 1⟩
abbrev CLK_SSC : Nat := 0x200008
abbrev CLK_SSC_SPREAD : Field := ⟨0x200008, 0, 4⟩
abbrev CLK_FREQ_BOUNDS : Nat := 0x20000C
abbrev CLK_FREQ_BOUNDS_PMIN : Field := ⟨0x20000C, 0, 5⟩
abbrev CLK_FREQ_BOUNDS_PMAX : Field := ⟨0x20000C, 8, 5⟩
abbrev CLK_PWR_CAP : Nat := 0x200010
abbrev CLK_PWR_CAP_WATTS : Field := ⟨0x200010, 0, 16⟩
abbrev CLK_DIE_POINT : Nat := 0x200014
abbrev CLK_DIE_POINT_POINTS : Field := ⟨0x200014, 0, 32⟩
abbrev CLK_PWR_NOW : Nat := 0x200018
abbrev CLK_PWR_NOW_WATTS : Field := ⟨0x200018, 0, 16⟩
abbrev CLK_TEMP : Nat := 0x20001C
abbrev CLK_TEMP_DEG_C : Field := ⟨0x20001C, 0, 32⟩
abbrev CLK_TEMP_IO : Nat := 0x200020
abbrev CLK_TEMP_IO_DEG_C : Field := ⟨0x200020, 0, 8⟩
abbrev CLK_VIN : Nat := 0x200024
abbrev CLK_VIN_VOLTS : Field := ⟨0x200024, 0, 16⟩
abbrev CLK_CLAMP_LOW : Nat := 0x200028
abbrev CLK_CLAMP_LOW_COUNT : Field := ⟨0x200028, 0, 32⟩
abbrev CLK_CLAMP_HIGH : Nat := 0x20002C
abbrev CLK_CLAMP_HIGH_COUNT : Field := ⟨0x20002C, 0, 32⟩
abbrev CLK_EMERG_COUNT : Nat := 0x200030
abbrev CLK_EMERG_COUNT_COUNT : Field := ⟨0x200030, 0, 32⟩
abbrev CLK_REF_FAULT_COUNT : Nat := 0x200034
abbrev CLK_REF_FAULT_COUNT_COUNT : Field := ⟨0x200034, 0, 32⟩
abbrev CLK_VIN_DIP_COUNT : Nat := 0x200038
abbrev CLK_VIN_DIP_COUNT_COUNT : Field := ⟨0x200038, 0, 32⟩
abbrev CLK_IO : Nat := 0x20003C
abbrev CLK_IO_SLEW : Field := ⟨0x20003C, 0, 1⟩

/-- The rows of spec/16_clocks_power.md, one per register (arrays once). -/
def regRows16 : List RegRow := [
  ⟨0x200000, [⟨0, 1, .ro, 0x0⟩, ⟨1, 1, .ro, 0x0⟩, ⟨2, 1, .ro, 0x0⟩, ⟨3, 1, .ro, 0x0⟩, ⟨4, 2, .ro, 0x2⟩, ⟨6, 1, .ro, 0x0⟩, ⟨7, 1, .w1c, 0x0⟩, ⟨8, 1, .w1c, 0x0⟩, ⟨9, 1, .ro, 0x0⟩, ⟨10, 1, .ro, 0x0⟩, ⟨11, 1, .w1c, 0x0⟩, ⟨12, 1, .ro, 0x0⟩, ⟨13, 1, .w1c, 0x0⟩, ⟨14, 1, .w1c, 0x0⟩]⟩,
  ⟨0x200004, [⟨0, 2, .rw, 0x2⟩, ⟨2, 1, .rw, 0x0⟩, ⟨3, 1, .rw, 0x1⟩]⟩,
  ⟨0x200008, [⟨0, 4, .rw, 0x0⟩]⟩,
  ⟨0x20000C, [⟨0, 5, .rw, 0x0⟩, ⟨8, 5, .rw, 0x10⟩]⟩,
  ⟨0x200010, [⟨0, 16, .rw, 0x960⟩]⟩,
  ⟨0x200014, [⟨0, 32, .ro, 0x10101010⟩]⟩,
  ⟨0x200018, [⟨0, 16, .ro, 0x0⟩]⟩,
  ⟨0x20001C, [⟨0, 32, .ro, 0x0⟩]⟩,
  ⟨0x200020, [⟨0, 8, .ro, 0x0⟩]⟩,
  ⟨0x200024, [⟨0, 16, .ro, 0x0⟩]⟩,
  ⟨0x200028, [⟨0, 32, .ro, 0x0⟩]⟩,
  ⟨0x20002C, [⟨0, 32, .ro, 0x0⟩]⟩,
  ⟨0x200030, [⟨0, 32, .ro, 0x0⟩]⟩,
  ⟨0x200034, [⟨0, 32, .ro, 0x0⟩]⟩,
  ⟨0x200038, [⟨0, 32, .ro, 0x0⟩]⟩,
  ⟨0x20003C, [⟨0, 1, .rw, 0x0⟩]⟩]

/-! Registers of spec/17_bell.md (R442). -/

abbrev BEL_SEL : Nat := 0x100000
abbrev BEL_SEL_GROUP : Field := ⟨0x100000, 0, 5⟩
abbrev BEL_STATUS : Nat := 0x100004
abbrev BEL_STATUS_SEL_ERR : Field := ⟨0x100004, 0, 1⟩
abbrev BEL_STATUS_VIOL : Field := ⟨0x100004, 1, 1⟩
abbrev BEL_CTRL : Nat := 0x100008
abbrev BEL_CTRL_VX2_COMPAT : Field := ⟨0x100008, 0, 1⟩
abbrev BEL_COMPLETE : Nat := 0x10000C
abbrev BEL_COMPLETE_SOURCE : Field := ⟨0x10000C, 0, 12⟩
abbrev BEL_PENDING : Nat := 0x100010
abbrev BEL_PENDING_P : Field := ⟨0x100010, 0, 32⟩
abbrev BEL_ACTIVE : Nat := 0x100014
abbrev BEL_ACTIVE_A : Field := ⟨0x100014, 0, 32⟩
abbrev BEL_ENABLE : Nat := 0x100018
abbrev BEL_ENABLE_EN : Field := ⟨0x100018, 0, 32⟩
abbrev BEL_MASK : Nat := 0x10001C
abbrev BEL_MASK_MASK : Field := ⟨0x10001C, 0, 32⟩
abbrev BEL_MASK_SET : Nat := 0x100020
abbrev BEL_MASK_SET_SET : Field := ⟨0x100020, 0, 32⟩
abbrev BEL_MASK_CLR : Nat := 0x100024
abbrev BEL_MASK_CLR_CLR : Field := ⟨0x100024, 0, 32⟩
abbrev BEL_ROUTE (k : Nat) : Nat := 0x100040 + 0x4 * k
abbrev BEL_ROUTE_VECTOR (k : Nat) : Field := ⟨0x100040 + 0x4 * k, 0, 6⟩
abbrev BEL_DELIVERED : Nat := 0x1000C0
abbrev BEL_DELIVERED_COUNT : Field := ⟨0x1000C0, 0, 32⟩
abbrev BEL_MERGED : Nat := 0x1000C4
abbrev BEL_MERGED_COUNT : Field := ⟨0x1000C4, 0, 32⟩
abbrev BEL_DROPPED : Nat := 0x1000C8
abbrev BEL_DROPPED_COUNT : Field := ⟨0x1000C8, 0, 32⟩
abbrev BEL_STRAY_COUNT : Nat := 0x1000CC
abbrev BEL_STRAY_COUNT_COUNT : Field := ⟨0x1000CC, 0, 32⟩
abbrev BEL_LATE_MASK : Nat := 0x1000D0
abbrev BEL_LATE_MASK_COUNT : Field := ⟨0x1000D0, 0, 32⟩
abbrev BEL_VIOL_CODE : Nat := 0x1000D4
abbrev BEL_VIOL_CODE_CODE : Field := ⟨0x1000D4, 0, 8⟩
abbrev BEL_VIOL_VALUE : Nat := 0x1000D8
abbrev BEL_VIOL_VALUE_VALUE : Field := ⟨0x1000D8, 0, 32⟩
abbrev BEL_VIOL_COUNT : Nat := 0x1000DC
abbrev BEL_VIOL_COUNT_COUNT : Field := ⟨0x1000DC, 0, 32⟩

/-- The rows of spec/17_bell.md, one per register (arrays once). -/
def regRows17 : List RegRow := [
  ⟨0x100000, [⟨0, 5, .rw, 0x0⟩]⟩,
  ⟨0x100004, [⟨0, 1, .w1c, 0x0⟩, ⟨1, 1, .w1c, 0x0⟩]⟩,
  ⟨0x100008, [⟨0, 1, .rw, 0x0⟩]⟩,
  ⟨0x10000C, [⟨0, 12, .wo, 0x0⟩]⟩,
  ⟨0x100010, [⟨0, 32, .w1c, 0x0⟩]⟩,
  ⟨0x100014, [⟨0, 32, .ro, 0x0⟩]⟩,
  ⟨0x100018, [⟨0, 32, .rw, 0x0⟩]⟩,
  ⟨0x10001C, [⟨0, 32, .rw, 0xFFFFFFFF⟩]⟩,
  ⟨0x100020, [⟨0, 32, .wo, 0x0⟩]⟩,
  ⟨0x100024, [⟨0, 32, .wo, 0x0⟩]⟩,
  ⟨0x100040, [⟨0, 6, .rw, 0x0⟩]⟩,
  ⟨0x1000C0, [⟨0, 32, .ro, 0x0⟩]⟩,
  ⟨0x1000C4, [⟨0, 32, .ro, 0x0⟩]⟩,
  ⟨0x1000C8, [⟨0, 32, .ro, 0x0⟩]⟩,
  ⟨0x1000CC, [⟨0, 32, .ro, 0x0⟩]⟩,
  ⟨0x1000D0, [⟨0, 32, .ro, 0x0⟩]⟩,
  ⟨0x1000D4, [⟨0, 8, .ro, 0x0⟩]⟩,
  ⟨0x1000D8, [⟨0, 32, .ro, 0x0⟩]⟩,
  ⟨0x1000DC, [⟨0, 32, .ro, 0x0⟩]⟩]

/-! Registers of spec/18_startup_firmware.md (R460). -/

abbrev BOOT_STATUS : Nat := 0x300000
abbrev BOOT_STATUS_STAGE : Field := ⟨0x300000, 0, 4⟩
abbrev BOOT_STATUS_SLOT : Field := ⟨0x300000, 4, 1⟩
abbrev BOOT_STATUS_CONFIRMED : Field := ⟨0x300000, 5, 1⟩
abbrev BOOT_STATUS_OTHER_ELIGIBLE : Field := ⟨0x300000, 6, 1⟩
abbrev BOOT_STATUS_SETTINGS_ERR : Field := ⟨0x300000, 7, 1⟩
abbrev BOOT_LAST : Nat := 0x300004
abbrev BOOT_LAST_CAUSE : Field := ⟨0x300004, 0, 4⟩
abbrev BOOT_LAST_ROLLED_BACK : Field := ⟨0x300004, 4, 1⟩
abbrev BOOT_LAST_TRIP_DIE : Field := ⟨0x300004, 5, 3⟩
abbrev BOOT_VERSION : Nat := 0x300008
abbrev BOOT_VERSION_VERSION : Field := ⟨0x300008, 0, 32⟩
abbrev BOOT_SECVER : Nat := 0x30000C
abbrev BOOT_SECVER_RUNNING : Field := ⟨0x30000C, 0, 16⟩
abbrev BOOT_SECVER_FUSED_MIN : Field := ⟨0x30000C, 16, 16⟩
abbrev BOOT_CTRL : Nat := 0x300010
abbrev BOOT_CTRL_CONFIRM : Field := ⟨0x300010, 0, 1⟩
abbrev BOOT_CTRL_MODULE_RESET : Field := ⟨0x300010, 1, 1⟩
abbrev BOOT_CTRL_KEY : Field := ⟨0x300010, 16, 16⟩
abbrev BOOT_FW_ADDR_LO : Nat := 0x300014
abbrev BOOT_FW_ADDR_LO_ADDR : Field := ⟨0x300014, 0, 32⟩
abbrev BOOT_FW_ADDR_HI : Nat := 0x300018
abbrev BOOT_FW_ADDR_HI_ADDR : Field := ⟨0x300018, 0, 32⟩
abbrev BOOT_FW_LEN : Nat := 0x30001C
abbrev BOOT_FW_LEN_BYTES : Field := ⟨0x30001C, 0, 26⟩
abbrev BOOT_FW_CMD : Nat := 0x300020
abbrev BOOT_FW_CMD_START : Field := ⟨0x300020, 0, 1⟩
abbrev BOOT_FW_CMD_FW_STATUS : Field := ⟨0x300020, 8, 4⟩
abbrev BOOT_SAVE : Nat := 0x300024
abbrev BOOT_SAVE_CLASSES : Field := ⟨0x300024, 0, 4⟩
abbrev BOOT_SETTINGS_ERR : Nat := 0x300028
abbrev BOOT_SETTINGS_ERR_CLASS : Field := ⟨0x300028, 0, 16⟩
abbrev BOOT_SETTINGS_ERR_VERSION : Field := ⟨0x300028, 16, 16⟩
abbrev BOOT_LOG_USED : Nat := 0x30002C
abbrev BOOT_LOG_USED_KIB : Field := ⟨0x30002C, 0, 14⟩
abbrev BOOT_COMPACTIONS : Nat := 0x300030
abbrev BOOT_COMPACTIONS_COUNT : Field := ⟨0x300030, 0, 32⟩
abbrev BOOT_LOG_BAD : Nat := 0x300034
abbrev BOOT_LOG_BAD_COUNT : Field := ⟨0x300034, 0, 32⟩
abbrev BOOT_UNIT_RESET : Nat := 0x300040
abbrev BOOT_UNIT_RESET_KIND : Field := ⟨0x300040, 0, 3⟩
abbrev BOOT_UNIT_RESET_INDEX : Field := ⟨0x300040, 8, 5⟩
abbrev BOOT_UNIT_RESET_GO : Field := ⟨0x300040, 16, 1⟩
abbrev BOOT_UNIT_RESET_RESULT : Field := ⟨0x300040, 24, 2⟩
abbrev BOOT_EPOCH_CLU (w : Nat) : Nat := 0x300100 + 0x4 * w
abbrev BOOT_EPOCH_CLU_EPOCHS (w : Nat) : Field := ⟨0x300100 + 0x4 * w, 0, 32⟩
abbrev BOOT_EPOCH_GDR (w : Nat) : Nat := 0x300120 + 0x4 * w
abbrev BOOT_EPOCH_GDR_EPOCHS (w : Nat) : Field := ⟨0x300120 + 0x4 * w, 0, 32⟩
abbrev BOOT_EPOCH_DIE : Nat := 0x300138
abbrev BOOT_EPOCH_DIE_EPOCHS : Field := ⟨0x300138, 0, 32⟩
abbrev BOOT_EPOCH_SHD (w : Nat) : Nat := 0x30013C + 0x4 * w
abbrev BOOT_EPOCH_SHD_EPOCHS (w : Nat) : Field := ⟨0x30013C + 0x4 * w, 0, 32⟩
abbrev BOOT_INRESET_CLU : Nat := 0x300150
abbrev BOOT_INRESET_CLU_MASK : Field := ⟨0x300150, 0, 32⟩
abbrev BOOT_INRESET_UNIT : Nat := 0x300154
abbrev BOOT_INRESET_UNIT_GDR : Field := ⟨0x300154, 0, 24⟩
abbrev BOOT_INRESET_UNIT_DIE : Field := ⟨0x300154, 24, 4⟩
abbrev BOOT_INRESET_SHD : Nat := 0x300158
abbrev BOOT_INRESET_SHD_MASK : Field := ⟨0x300158, 0, 16⟩

/-- The rows of spec/18_startup_firmware.md, one per register (arrays once). -/
def regRows18 : List RegRow := [
  ⟨0x300000, [⟨0, 4, .ro, 0x0⟩, ⟨4, 1, .ro, 0x0⟩, ⟨5, 1, .ro, 0x0⟩, ⟨6, 1, .ro, 0x0⟩, ⟨7, 1, .w1c, 0x0⟩]⟩,
  ⟨0x300004, [⟨0, 4, .ro, 0x0⟩, ⟨4, 1, .ro, 0x0⟩, ⟨5, 3, .ro, 0x0⟩]⟩,
  ⟨0x300008, [⟨0, 32, .ro, 0x0⟩]⟩,
  ⟨0x30000C, [⟨0, 16, .ro, 0x0⟩, ⟨16, 16, .ro, 0x0⟩]⟩,
  ⟨0x300010, [⟨0, 1, .wo, 0x0⟩, ⟨1, 1, .wo, 0x0⟩, ⟨16, 16, .wo, 0x0⟩]⟩,
  ⟨0x300014, [⟨0, 32, .rw, 0x0⟩]⟩,
  ⟨0x300018, [⟨0, 32, .rw, 0x0⟩]⟩,
  ⟨0x30001C, [⟨0, 26, .rw, 0x0⟩]⟩,
  ⟨0x300020, [⟨0, 1, .wo, 0x0⟩, ⟨8, 4, .ro, 0x0⟩]⟩,
  ⟨0x300024, [⟨0, 4, .wo, 0x0⟩]⟩,
  ⟨0x300028, [⟨0, 16, .ro, 0x0⟩, ⟨16, 16, .ro, 0x0⟩]⟩,
  ⟨0x30002C, [⟨0, 14, .ro, 0x0⟩]⟩,
  ⟨0x300030, [⟨0, 32, .ro, 0x0⟩]⟩,
  ⟨0x300034, [⟨0, 32, .ro, 0x0⟩]⟩,
  ⟨0x300040, [⟨0, 3, .rw, 0x0⟩, ⟨8, 5, .rw, 0x0⟩, ⟨16, 1, .wo, 0x0⟩, ⟨24, 2, .ro, 0x0⟩]⟩,
  ⟨0x300100, [⟨0, 32, .ro, 0x0⟩]⟩,
  ⟨0x300120, [⟨0, 32, .ro, 0x0⟩]⟩,
  ⟨0x300138, [⟨0, 32, .ro, 0x0⟩]⟩,
  ⟨0x30013C, [⟨0, 32, .ro, 0x0⟩]⟩,
  ⟨0x300150, [⟨0, 32, .ro, 0x0⟩]⟩,
  ⟨0x300154, [⟨0, 24, .ro, 0x0⟩, ⟨24, 4, .ro, 0x0⟩]⟩,
  ⟨0x300158, [⟨0, 16, .ro, 0x0⟩]⟩]

/-! Registers of spec/19_service_replay.md (R478, R479). -/

abbrev FAR_STATUS : Nat := 0xC00000
abbrev FAR_STATUS_REPORT : Field := ⟨0xC00000, 0, 1⟩
abbrev FAR_STATUS_DUE : Field := ⟨0xC00000, 1, 1⟩
abbrev FAR_STATUS_SPARES_OUT : Field := ⟨0xC00000, 2, 1⟩
abbrev FAR_STATUS_REPLACE : Field := ⟨0xC00000, 3, 1⟩
abbrev FAR_CFG : Nat := 0xC00004
abbrev FAR_CFG_AUTO : Field := ⟨0xC00004, 0, 1⟩
abbrev FAR_APPLY : Nat := 0xC00008
abbrev FAR_APPLY_GO : Field := ⟨0xC00008, 0, 1⟩
abbrev FAR_LIMIT (k : Nat) : Nat := 0xC00010 + 0x4 * k
abbrev FAR_LIMIT_LIMIT (k : Nat) : Field := ⟨0xC00010 + 0x4 * k, 0, 32⟩
abbrev FAR_SPARES : Nat := 0xC00030
abbrev FAR_SPARES_CORES : Field := ⟨0xC00030, 0, 6⟩
abbrev FAR_SPARES_WAYS : Field := ⟨0xC00030, 6, 6⟩
abbrev FAR_SPARES_LANES : Field := ⟨0xC00030, 12, 4⟩
abbrev FAR_SPARES_LOOP_B : Field := ⟨0xC00030, 16, 1⟩
abbrev FAR_SPARES_MGMT : Field := ⟨0xC00030, 17, 1⟩
abbrev FAR_REMAP_MIN : Nat := 0xC00034
abbrev FAR_REMAP_MIN_FREE : Field := ⟨0xC00034, 0, 8⟩
abbrev FAR_LOG_ADDR : Nat := 0xC00040
abbrev FAR_LOG_ADDR_ENTRY : Field := ⟨0xC00040, 0, 6⟩
abbrev FAR_LOG_BEAT_LO : Nat := 0xC00044
abbrev FAR_LOG_BEAT_LO_BEAT : Field := ⟨0xC00044, 0, 32⟩
abbrev FAR_LOG_BEAT_HI : Nat := 0xC00048
abbrev FAR_LOG_BEAT_HI_BEAT : Field := ⟨0xC00048, 0, 32⟩
abbrev FAR_LOG_EVENT : Nat := 0xC0004C
abbrev FAR_LOG_EVENT_EVENT : Field := ⟨0xC0004C, 0, 8⟩
abbrev FAR_LOG_EVENT_KIND : Field := ⟨0xC0004C, 8, 8⟩
abbrev FAR_LOG_EVENT_INDEX : Field := ⟨0xC0004C, 16, 16⟩
abbrev FAR_LOG_DETAIL : Nat := 0xC00050
abbrev FAR_LOG_DETAIL_DETAIL : Field := ⟨0xC00050, 0, 32⟩
abbrev FAR_LOG_COUNT : Nat := 0xC00054
abbrev FAR_LOG_COUNT_COUNT : Field := ⟨0xC00054, 0, 32⟩
abbrev FAR_ACTIONS : Nat := 0xC00058
abbrev FAR_ACTIONS_COUNT : Field := ⟨0xC00058, 0, 32⟩
abbrev FAR_HEALTH : Nat := 0xC00060
abbrev FAR_HEALTH_DEGRADED : Field := ⟨0xC00060, 0, 1⟩
abbrev FAR_HEALTH_REPLACE : Field := ⟨0xC00060, 1, 1⟩
abbrev DAY_STATUS : Nat := 0xD00000
abbrev DAY_STATUS_ENABLED : Field := ⟨0xD00000, 0, 1⟩
abbrev DAY_STATUS_WRAPPED : Field := ⟨0xD00000, 1, 1⟩
abbrev DAY_STATUS_LOST : Field := ⟨0xD00000, 2, 1⟩
abbrev DAY_STATUS_ARMED : Field := ⟨0xD00000, 3, 1⟩
abbrev DAY_STATUS_MISMATCH : Field := ⟨0xD00000, 4, 1⟩
abbrev DAY_STATUS_SETUP_ERR : Field := ⟨0xD00000, 5, 1⟩
abbrev DAY_CTRL : Nat := 0xD00004
abbrev DAY_CTRL_ENABLE : Field := ⟨0xD00004, 0, 1⟩
abbrev DAY_BASE_LO : Nat := 0xD00008
abbrev DAY_BASE_LO_BASE : Field := ⟨0xD00008, 12, 20⟩
abbrev DAY_BASE_HI : Nat := 0xD0000C
abbrev DAY_BASE_HI_BASE : Field := ⟨0xD0000C, 0, 32⟩
abbrev DAY_MIB : Nat := 0xD00010
abbrev DAY_MIB_MIB : Field := ⟨0xD00010, 0, 13⟩
abbrev DAY_NEXT_SEQ_LO : Nat := 0xD00014
abbrev DAY_NEXT_SEQ_LO_SEQ : Field := ⟨0xD00014, 0, 32⟩
abbrev DAY_NEXT_SEQ_HI : Nat := 0xD00018
abbrev DAY_NEXT_SEQ_HI_SEQ : Field := ⟨0xD00018, 0, 32⟩
abbrev DAY_OLDEST_SEQ_LO : Nat := 0xD0001C
abbrev DAY_OLDEST_SEQ_LO_SEQ : Field := ⟨0xD0001C, 0, 32⟩
abbrev DAY_OLDEST_SEQ_HI : Nat := 0xD00020
abbrev DAY_OLDEST_SEQ_HI_SEQ : Field := ⟨0xD00020, 0, 32⟩
abbrev DAY_IMPORT_BASE_LO : Nat := 0xD00024
abbrev DAY_IMPORT_BASE_LO_BASE : Field := ⟨0xD00024, 6, 26⟩
abbrev DAY_IMPORT_BASE_HI : Nat := 0xD00028
abbrev DAY_IMPORT_BASE_HI_BASE : Field := ⟨0xD00028, 0, 32⟩
abbrev DAY_IMPORT_BLOCKS : Nat := 0xD0002C
abbrev DAY_IMPORT_BLOCKS_COUNT : Field := ⟨0xD0002C, 0, 32⟩
abbrev DAY_REPLAY_PLAN : Nat := 0xD00030
abbrev DAY_REPLAY_PLAN_PLAN : Field := ⟨0xD00030, 0, 4⟩
abbrev DAY_REPLAY_LEFT : Nat := 0xD00034
abbrev DAY_REPLAY_LEFT_COUNT : Field := ⟨0xD00034, 0, 32⟩
abbrev DAY_REPLAY_MATCH : Nat := 0xD00038
abbrev DAY_REPLAY_MATCH_COUNT : Field := ⟨0xD00038, 0, 32⟩
abbrev DAY_REPLAY_MISMATCH : Nat := 0xD0003C
abbrev DAY_REPLAY_MISMATCH_COUNT : Field := ⟨0xD0003C, 0, 32⟩
abbrev DAY_RECORDS_LO : Nat := 0xD00040
abbrev DAY_RECORDS_LO_COUNT : Field := ⟨0xD00040, 0, 32⟩
abbrev DAY_RECORDS_HI : Nat := 0xD00044
abbrev DAY_RECORDS_HI_COUNT : Field := ⟨0xD00044, 0, 32⟩
abbrev DAY_LOST : Nat := 0xD00048
abbrev DAY_LOST_COUNT : Field := ⟨0xD00048, 0, 32⟩

/-- The rows of spec/19_service_replay.md, one per register (arrays once). -/
def regRows19 : List RegRow := [
  ⟨0xC00000, [⟨0, 1, .w1c, 0x0⟩, ⟨1, 1, .ro, 0x0⟩, ⟨2, 1, .ro, 0x0⟩, ⟨3, 1, .ro, 0x0⟩]⟩,
  ⟨0xC00004, [⟨0, 1, .rw, 0x1⟩]⟩,
  ⟨0xC00008, [⟨0, 1, .wo, 0x0⟩]⟩,
  ⟨0xC00010, [⟨0, 32, .rw, 0x0⟩]⟩,
  ⟨0xC00030, [⟨0, 6, .ro, 0x20⟩, ⟨6, 6, .ro, 0x20⟩, ⟨12, 4, .ro, 0xC⟩, ⟨16, 1, .ro, 0x1⟩, ⟨17, 1, .ro, 0x1⟩]⟩,
  ⟨0xC00034, [⟨0, 8, .ro, 0x80⟩]⟩,
  ⟨0xC00040, [⟨0, 6, .rw, 0x0⟩]⟩,
  ⟨0xC00044, [⟨0, 32, .ro, 0x0⟩]⟩,
  ⟨0xC00048, [⟨0, 32, .ro, 0x0⟩]⟩,
  ⟨0xC0004C, [⟨0, 8, .ro, 0x0⟩, ⟨8, 8, .ro, 0x0⟩, ⟨16, 16, .ro, 0x0⟩]⟩,
  ⟨0xC00050, [⟨0, 32, .ro, 0x0⟩]⟩,
  ⟨0xC00054, [⟨0, 32, .ro, 0x0⟩]⟩,
  ⟨0xC00058, [⟨0, 32, .ro, 0x0⟩]⟩,
  ⟨0xC00060, [⟨0, 1, .ro, 0x0⟩, ⟨1, 1, .ro, 0x0⟩]⟩,
  ⟨0xD00000, [⟨0, 1, .ro, 0x0⟩, ⟨1, 1, .w1c, 0x0⟩, ⟨2, 1, .w1c, 0x0⟩, ⟨3, 1, .ro, 0x0⟩, ⟨4, 1, .w1c, 0x0⟩, ⟨5, 1, .w1c, 0x0⟩]⟩,
  ⟨0xD00004, [⟨0, 1, .rw, 0x0⟩]⟩,
  ⟨0xD00008, [⟨12, 20, .rw, 0x0⟩]⟩,
  ⟨0xD0000C, [⟨0, 32, .rw, 0x0⟩]⟩,
  ⟨0xD00010, [⟨0, 13, .rw, 0x0⟩]⟩,
  ⟨0xD00014, [⟨0, 32, .ro, 0x0⟩]⟩,
  ⟨0xD00018, [⟨0, 32, .ro, 0x0⟩]⟩,
  ⟨0xD0001C, [⟨0, 32, .ro, 0x0⟩]⟩,
  ⟨0xD00020, [⟨0, 32, .ro, 0x0⟩]⟩,
  ⟨0xD00024, [⟨6, 26, .rw, 0x0⟩]⟩,
  ⟨0xD00028, [⟨0, 32, .rw, 0x0⟩]⟩,
  ⟨0xD0002C, [⟨0, 32, .rw, 0x0⟩]⟩,
  ⟨0xD00030, [⟨0, 4, .ro, 0x0⟩]⟩,
  ⟨0xD00034, [⟨0, 32, .ro, 0x0⟩]⟩,
  ⟨0xD00038, [⟨0, 32, .ro, 0x0⟩]⟩,
  ⟨0xD0003C, [⟨0, 32, .ro, 0x0⟩]⟩,
  ⟨0xD00040, [⟨0, 32, .ro, 0x0⟩]⟩,
  ⟨0xD00044, [⟨0, 32, .ro, 0x0⟩]⟩,
  ⟨0xD00048, [⟨0, 32, .ro, 0x0⟩]⟩]

/-! Registers of spec/20_video.md (R503). -/

abbrev VCD_CTX_SEL : Nat := 0xE00000
abbrev VCD_CTX_SEL_CONTEXT : Field := ⟨0xE00000, 0, 8⟩
abbrev VCD_STATUS : Nat := 0xE00004
abbrev VCD_STATUS_SEL_ERR : Field := ⟨0xE00004, 0, 1⟩
abbrev VCD_STATUS_SETUP_ERR : Field := ⟨0xE00004, 1, 1⟩
abbrev VCD_STATUS_VIOL : Field := ⟨0xE00004, 2, 1⟩
abbrev VCD_CTX_CTRL : Nat := 0xE00008
abbrev VCD_CTX_CTRL_ENABLE : Field := ⟨0xE00008, 0, 1⟩
abbrev VCD_CTX_CTRL_STOP : Field := ⟨0xE00008, 1, 1⟩
abbrev VCD_CTX_BLOCK_LO : Nat := 0xE0000C
abbrev VCD_CTX_BLOCK_LO_BASE : Field := ⟨0xE0000C, 12, 20⟩
abbrev VCD_CTX_BLOCK_HI : Nat := 0xE00010
abbrev VCD_CTX_BLOCK_HI_BASE : Field := ⟨0xE00010, 0, 32⟩
abbrev VCD_CTX_STATE : Nat := 0xE00014
abbrev VCD_CTX_STATE_STATE : Field := ⟨0xE00014, 0, 3⟩
abbrev VCD_CTX_STATE_PIPE : Field := ⟨0xE00014, 3, 3⟩
abbrev VCD_SETUP_ERR_CODE : Nat := 0xE00018
abbrev VCD_SETUP_ERR_CODE_CODE : Field := ⟨0xE00018, 0, 4⟩
abbrev VCD_FRAMES : Nat := 0xE0001C
abbrev VCD_FRAMES_COUNT : Field := ⟨0xE0001C, 0, 32⟩
abbrev VCD_CONCEALED : Nat := 0xE00020
abbrev VCD_CONCEALED_COUNT : Field := ⟨0xE00020, 0, 32⟩
abbrev VCD_RESYNCS : Nat := 0xE00024
abbrev VCD_RESYNCS_COUNT : Field := ⟨0xE00024, 0, 32⟩
abbrev VCD_POOL_WAITS : Nat := 0xE00028
abbrev VCD_POOL_WAITS_COUNT : Field := ⟨0xE00028, 0, 32⟩
abbrev VCD_DROPPED : Nat := 0xE0002C
abbrev VCD_DROPPED_COUNT : Field := ⟨0xE0002C, 0, 32⟩
abbrev VCD_VIOL_CODE : Nat := 0xE00030
abbrev VCD_VIOL_CODE_CODE : Field := ⟨0xE00030, 0, 8⟩
abbrev VCD_VIOL_VALUE : Nat := 0xE00034
abbrev VCD_VIOL_VALUE_VALUE : Field := ⟨0xE00034, 0, 32⟩
abbrev VCD_VIOL_COUNT : Nat := 0xE00038
abbrev VCD_VIOL_COUNT_COUNT : Field := ⟨0xE00038, 0, 32⟩
abbrev VCD_CTX_OWNER : Nat := 0xE00100
abbrev VCD_CTX_OWNER_PART : Field := ⟨0xE00100, 0, 6⟩
abbrev VCD_PIPE_OWNER : Nat := 0xE00104
abbrev VCD_PIPE_OWNER_PARTS : Field := ⟨0xE00104, 0, 30⟩

/-- The rows of spec/20_video.md, one per register (arrays once). -/
def regRows20 : List RegRow := [
  ⟨0xE00000, [⟨0, 8, .rw, 0x0⟩]⟩,
  ⟨0xE00004, [⟨0, 1, .w1c, 0x0⟩, ⟨1, 1, .w1c, 0x0⟩, ⟨2, 1, .w1c, 0x0⟩]⟩,
  ⟨0xE00008, [⟨0, 1, .rw, 0x0⟩, ⟨1, 1, .wo, 0x0⟩]⟩,
  ⟨0xE0000C, [⟨12, 20, .rw, 0x0⟩]⟩,
  ⟨0xE00010, [⟨0, 32, .rw, 0x0⟩]⟩,
  ⟨0xE00014, [⟨0, 3, .ro, 0x0⟩, ⟨3, 3, .ro, 0x7⟩]⟩,
  ⟨0xE00018, [⟨0, 4, .ro, 0x0⟩]⟩,
  ⟨0xE0001C, [⟨0, 32, .ro, 0x0⟩]⟩,
  ⟨0xE00020, [⟨0, 32, .ro, 0x0⟩]⟩,
  ⟨0xE00024, [⟨0, 32, .ro, 0x0⟩]⟩,
  ⟨0xE00028, [⟨0, 32, .ro, 0x0⟩]⟩,
  ⟨0xE0002C, [⟨0, 32, .ro, 0x0⟩]⟩,
  ⟨0xE00030, [⟨0, 8, .ro, 0x0⟩]⟩,
  ⟨0xE00034, [⟨0, 32, .ro, 0x0⟩]⟩,
  ⟨0xE00038, [⟨0, 32, .ro, 0x0⟩]⟩,
  ⟨0xE00100, [⟨0, 6, .rw, 0x3F⟩]⟩,
  ⟨0xE00104, [⟨0, 30, .rw, 0x3FFFFFFF⟩]⟩]

/-! Registers of spec/21_pins_ratings.md (R517). -/

abbrev MBS_STATUS : Nat := 0xF00000
abbrev MBS_STATUS_VIOL : Field := ⟨0xF00000, 0, 1⟩
abbrev MBS_STATUS_TGT_TIMEOUT : Field := ⟨0xF00000, 1, 1⟩
abbrev MBS_STATUS_STUCK : Field := ⟨0xF00000, 2, 1⟩
abbrev MBS_STATUS_ISOLATED : Field := ⟨0xF00000, 3, 1⟩
abbrev MBS_STATUS_ID_BAD : Field := ⟨0xF00000, 4, 1⟩
abbrev MBS_CTRL : Nat := 0xF00004
abbrev MBS_CTRL_BUS_RETRY : Field := ⟨0xF00004, 0, 1⟩
abbrev MBS_CTRL_CTL_RATE : Field := ⟨0xF00004, 1, 2⟩
abbrev MBS_TARGET : Nat := 0xF00008
abbrev MBS_TARGET_ADDR : Field := ⟨0xF00008, 0, 7⟩
abbrev MBS_BOARD_CAP : Nat := 0xF0000C
abbrev MBS_BOARD_CAP_WATTS : Field := ⟨0xF0000C, 0, 16⟩
abbrev MBS_VIOL_CODE : Nat := 0xF00010
abbrev MBS_VIOL_CODE_CODE : Field := ⟨0xF00010, 0, 8⟩
abbrev MBS_VIOL_VALUE : Nat := 0xF00014
abbrev MBS_VIOL_VALUE_VALUE : Field := ⟨0xF00014, 0, 32⟩
abbrev MBS_VIOL_COUNT : Nat := 0xF00018
abbrev MBS_VIOL_COUNT_COUNT : Field := ⟨0xF00018, 0, 32⟩
abbrev MBS_TGT_TIMEOUTS : Nat := 0xF0001C
abbrev MBS_TGT_TIMEOUTS_COUNT : Field := ⟨0xF0001C, 0, 32⟩
abbrev MBS_RECOVERIES : Nat := 0xF00020
abbrev MBS_RECOVERIES_COUNT : Field := ⟨0xF00020, 0, 32⟩
abbrev MBS_NACKS : Nat := 0xF00024
abbrev MBS_NACKS_COUNT : Field := ⟨0xF00024, 0, 32⟩
abbrev MBS_COOLANT : Nat := 0xF00028
abbrev MBS_COOLANT_INLET : Field := ⟨0xF00028, 0, 8⟩
abbrev MBS_COOLANT_OUTLET : Field := ⟨0xF00028, 8, 8⟩

/-- The rows of spec/21_pins_ratings.md, one per register (arrays once). -/
def regRows21 : List RegRow := [
  ⟨0xF00000, [⟨0, 1, .w1c, 0x0⟩, ⟨1, 1, .w1c, 0x0⟩, ⟨2, 1, .w1c, 0x0⟩, ⟨3, 1, .ro, 0x0⟩, ⟨4, 1, .ro, 0x0⟩]⟩,
  ⟨0xF00004, [⟨0, 1, .wo, 0x0⟩, ⟨1, 2, .rw, 0x1⟩]⟩,
  ⟨0xF00008, [⟨0, 7, .ro, 0x0⟩]⟩,
  ⟨0xF0000C, [⟨0, 16, .ro, 0x0⟩]⟩,
  ⟨0xF00010, [⟨0, 8, .ro, 0x0⟩]⟩,
  ⟨0xF00014, [⟨0, 32, .ro, 0x0⟩]⟩,
  ⟨0xF00018, [⟨0, 32, .ro, 0x0⟩]⟩,
  ⟨0xF0001C, [⟨0, 32, .ro, 0x0⟩]⟩,
  ⟨0xF00020, [⟨0, 32, .ro, 0x0⟩]⟩,
  ⟨0xF00024, [⟨0, 32, .ro, 0x0⟩]⟩,
  ⟨0xF00028, [⟨0, 8, .ro, 0x0⟩, ⟨8, 8, .ro, 0x0⟩]⟩]

/-- Every register of the spec. -/
def regRows : List RegRow :=
  regRows02 ++ (regRows03 ++ (regRows04 ++ (regRows05 ++ (regRows06 ++ (regRows07 ++ (regRows08 ++ (regRows09
    ++ (regRows10 ++ (regRows11 ++ (regRows12 ++ (regRows13 ++ (regRows14 ++ (regRows15 ++ (regRows16 ++
    (regRows17 ++ (regRows18 ++ (regRows19 ++ (regRows20 ++ (regRows21)))))))))))))))))))

/-- The offset of the array's first register for a register of an array (rings, drovers,
partitions, link pages and the rest); any other offset is its own. -/
def canonicalOff (off : Nat) : Nat :=
  if 0x1000 ≤ off ∧ off < 0x2000 then 0x1000 + off % 0x40 -- submission rings, R34
  else if 0x2000 ≤ off ∧ off < 0x3000 then 0x2000 + off % 0x40 -- completion rings, R34
  else if 0x1002040 ≤ off ∧ off < 0x10020C0 then 0x1002040 + (off - 0x1002040) % 0x20 -- chute ports, R169
  else if 0x0B01000 ≤ off ∧ off < 0x0B01200 then 0x0B01000 + off % 0x10 -- partition quotas, R233
  else if 0x0B01200 ≤ off ∧ off < 0x0B01400 then 0x0B01200 -- pedigree keys, R233
  else if 0x1007000 ≤ off ∧ off < 0x1007100 then 0x1007000 + off % 0x40 -- drovers, R285
  else if 0x0600200 ≤ off ∧ off < 0x0600240 then 0x0600200 + off % 0x20 -- Ethernet ports, R363
  else if 0x0701000 ≤ off ∧ off < 0x0701100 then 0x0701000 + off % 8 -- queue pairs, R396
  else if 0x0400100 ≤ off ∧ off < 0x0400900 then 0x0400100 + (off - 0x0400100) % 0x40 -- partitions, R413
  else if 0x0401000 ≤ off ∧ off < 0x0401700 then 0x0401000 -- window maps, R406
  else if 0x0100040 ≤ off ∧ off < 0x01000C0 then 0x0100040 -- routes, R442
  else if 0x0300100 ≤ off ∧ off < 0x0300120 then 0x0300100 -- cluster epochs, R460
  else if 0x0300120 ≤ off ∧ off < 0x0300138 then 0x0300120 -- GDDR epochs, R460
  else if 0x030013C ≤ off ∧ off < 0x030014C then 0x030013C -- shed epochs, R460
  else if 0x0C00010 ≤ off ∧ off < 0x0C00020 then 0x0C00010 -- Farrier limits, R478
  else off

end Sys2Proof.Machine
end

