-- ==== Sys2Proof/Machine/Tab.lean ====
section
/-! DEFINITION. Sparse tables: a list of key and value pairs, keys strictly rising, so that equal
tables are equal lists. Memories, register files and every numbered set of parts are held so. -/

namespace Sys2Proof.Machine

/-- A sparse table from keys to values, in canonical form (`tabWf`). -/
abbrev Tab (α : Type) := List (Nat × α)

/-- The value a table holds under a key. -/
def tabFind {α : Type} : Tab α → Nat → Option α
  | [], _ => none
  | (a, v) :: t, k => if a = k then some v else tabFind t k

/-- The value under a key, or a default where the table lists none. -/
def tabGet {α : Type} (d : α) (t : Tab α) (k : Nat) : α := (tabFind t k).getD d

/-- Write a value under a key, keeping the keys rising. -/
def tabPut {α : Type} : Tab α → Nat → α → Tab α
  | [], k, v => [(k, v)]
  | (a, w) :: t, k, v =>
    if k < a then (k, v) :: (a, w) :: t
    else if k = a then (k, v) :: t
    else (a, w) :: tabPut t k v

/-- Remove the entry under a key. -/
def tabDel {α : Type} (t : Tab α) (k : Nat) : Tab α := t.filter fun e => e.1 != k

/-- Write a value where an unlisted key reads as `d`: the value `d` is held by no entry. -/
def tabSet {α : Type} [DecidableEq α] (d : α) (t : Tab α) (k : Nat) (v : α) : Tab α :=
  if v = d then tabDel t k else tabPut t k v

/-- Update the value under a key, an absent one read as `d`. -/
def tabModify {α : Type} (d : α) (t : Tab α) (k : Nat) (f : α → α) : Tab α :=
  tabPut t k (f (tabGet d t k))

/-- Remove every entry whose key satisfies `p`. -/
def tabDrop {α : Type} (t : Tab α) (p : Nat → Bool) : Tab α := t.filter fun e => !p e.1

/-- The canonical form: keys strictly rising. -/
abbrev tabWf {α : Type} (t : Tab α) : Prop := t.Pairwise fun a b => a.1 < b.1

/-- The canonical form of a table whose unlisted keys read as `d`. -/
abbrev tabCanon {α : Type} [DecidableEq α] (d : α) (t : Tab α) : Prop :=
  tabWf t ∧ ∀ e ∈ t, e.2 ≠ d

end Sys2Proof.Machine
end

