-- ==== Sys2Proof/Machine/State.lean ====
section
/-! DEFINITION. The state of the module: every register, memory, table, queue and mode of the spec,
the queue of waiting commands, the reasons a step can stop, and the state right after reset. -/

namespace Sys2Proof.Machine

/-- Why the block stops with a fault. The spec answers every bad access by a status, a code or a
poisoned value, so no command of the table faults. -/
inductive Fault where
  /-- Raised by nothing: kept so that the outcome has a named reason. Safe: it stops nothing. -/
  | none
deriving DecidableEq, Repr

/-- Why the block refuses a command. -/
inductive Refusal where
  /-- The command has no meaning in the model yet; raised by `exec`'s refused arms. Safe: it stops. -/
  | notModelled (mnemonic : String)
deriving DecidableEq, Repr

/-- A descriptor the device has fetched and whose record is not yet written (R38, R58, R61). -/
structure Flight where
  /-- The issuing function, its submission ring and the descriptor's index. -/
  fn : Nat
  sq : Nat
  idx : Nat
  /-- The fetch's place in the order of all fetches, and the doorbell that covered it (R57). -/
  seq : Nat
  bell : Nat
  /-- The 64 bytes fetched (R41). -/
  bytes : List Byte
  /-- The device has taken the descriptor up: it waits for its beat or its turn, runs, or has ended. -/
  taken : Bool
  /-- The device has made its first access to data the descriptor names (R58). -/
  started : Bool
  /-- A PLAN_LOAD that has read its image, or a PLAN_RUN whose step has begun: until its record is written it
  is no plan boundary of its partition (R23). -/
  ran : Bool
  /-- The operation has ended and its record waits to be written. -/
  finished : Bool
  /-- A function-level reset forbids its record (R28). -/
  muted : Bool
deriving DecidableEq, Repr

/-- A completion record that waits to be written (R59, R61). -/
structure Rec where
  fn : Nat
  cq : Nat
  sq : Nat
  /-- The fetch number of its descriptor; none for the record of a failed fetch. -/
  seq : Option Nat
  tag : Nat
  status : Nat
  opcode : Nat
  detail : Nat
  endBeat : Nat
  aux : Nat
  irq : Bool
deriving DecidableEq, Repr

/-- One accepted tail doorbell of a ring: its acceptance number and the descriptors it covers that
have not been fetched (R57). -/
structure BellMark where
  fn : Nat
  sq : Nat
  bell : Nat
  left : Nat
deriving DecidableEq, Repr

/-- The host side of the module: host memory, rings, fetches and records (spec/02). -/
structure HostSide where
  /-- Host memory, one byte per PCIe address; an unlisted byte reads 0 (DESIGN CHOICE, log entry 1). -/
  mem : List Host.Cell
  /-- The ranges of host memory, address and length, whose PCIe reads fail (R84, R93, R278). -/
  dark : List (Nat × Nat)
  /-- R6: pending low halves, by function and pair. -/
  pendLo : Tab Word
  /-- R6: captured upper halves, by function and pair. -/
  capHi : Tab Word
  /-- What the last register or management-bus read returned, byte by byte or word by word. -/
  lastRead : List Nat
  flights : List Flight
  waiting : List Rec
  marks : List BellMark
  /-- Withdrawn descriptors not yet fetched (R58): function, ring, index. -/
  withdrawn : List (Nat × Nat × Nat)
  nextBell : Nat
  nextSeq : Nat
  /-- R40: the functions served in the present turn, and the fetches of each ring (function × 64 + ring) in
  the present round of its function. -/
  fnTurns : List Nat
  ringTurns : Tab Nat
  /-- The MSI-X writes put on PCIe, as address and data, in order (R435). -/
  msgs : List (Nat × Nat)
deriving DecidableEq, Repr

/-- The memories of the module (spec/02 R44, spec/10, spec/11). -/
structure MemSide where
  /-- GDDR, one byte per `gddrKey` (owner region or partition, and offset): what a read returns, a
  sector still dirty in a Loft included. -/
  gddr : List Host.Cell
  /-- Sectors that read as poisoned (R290, R270), by `gddrKey` / 64: true where MARK is 0b10110, false where the
  sector is uncorrectable. -/
  bad : Tab Bool
  /-- Core scratch, one byte per core × 2^22 + offset; unlisted bytes are 0 (R519). -/
  scratch : List Host.Cell
  /-- Scratch units with an uncorrectable error (R519), by key / 64. -/
  scratchBad : Tab Bool
deriving DecidableEq, Repr

/-- The sideband of a bale of a page gather (R276): KEY_BASE, LIVE_LO and LIVE_HI, over the rows of a V bale and
the columns of a K bale. -/
structure Sideband where
  keyBase : Nat
  lo : Nat
  hi : Nat
  v : Bool
deriving DecidableEq, Repr

/-- A bale on its way over a chute or from a drover: its bytes, the rows that are pad rows (R274), the
sideband of a page gather, whether any poison in it entered by
a cause other than a reset (R461), and the units of the landing ring it holds (R150). -/
structure Item where
  bytes : List Byte
  pads : List Nat
  side : Option Sideband
  dirty : Bool
  units : Nat
deriving DecidableEq, Repr

/-- One direction of a chute of a loaded plan (R148 to R156): the send half's waiting bales, those on
the way, those landed and not yet taken, the sender's credits, and credits on their way back. -/
structure Chute where
  half : List Item
  flying : List Item
  ring : List Item
  credits : Nat
  returns : List Nat
  broken : Bool
deriving DecidableEq, Repr

/-- Who waits at a Halter counter: a sequencer in PRE or before an iteration, a drover stream, a
TRANSFER slot or a collective of a partition (R161, R272, R359, R384). -/
inductive Waiter where
  | pre (core : Nat)
  | iter (core : Nat)
  | drover (node : Nat)
  | slot (k : Nat)
  | coll (k : Nat)
deriving DecidableEq, Repr

/-- A Halter operation on its way to its home (R157): the partition and the plan identifier. -/
inductive HalterOp where
  | arrive
  | signal (amount : Nat)
  | barWait (core n : Nat)
  | semWait (w : Waiter) (amount : Nat)
deriving DecidableEq, Repr

structure HalterMsg where
  part : Nat
  id : Nat
  op : HalterOp
deriving DecidableEq, Repr

/-- A semaphore (R161): its value and the waits queued, in order of arrival, with the partition. -/
structure Sem where
  value : Nat
  queue : List (Nat × Waiter × Nat)
deriving DecidableEq, Repr

/-- A barrier counter (R160): arrivals, target, completions, and waits with the completion awaited. -/
structure Bar where
  count : Nat
  target : Nat
  done : Nat
  waits : List (Nat × Nat)
deriving DecidableEq, Repr

/-- The Halter network (R157 to R161, R165). -/
structure HalterSide where
  sems : Tab Sem
  bars : Tab Bar
  flying : List HalterMsg
  /-- Satisfied waits whose release has not reached the waiter: partition and waiter. -/
  released : List (Nat × Waiter)
  /-- The last beat visible at every sequencer (R165). -/
  visible : Nat
deriving DecidableEq, Repr

/-- Where a sequencer stands (R163). -/
inductive Phase where
  /-- It is about to start the nest of its current descriptor. -/
  | ready
  /-- It waits in PRE on a barrier or semaphore, or on a slot's beat. -/
  | waitPre
  | waitBeat
  /-- It runs the nest. -/
  | run
  /-- It waits, before an iteration, on the ITER semaphore. -/
  | waitIter
  /-- Its program has ended. -/
  | done
deriving DecidableEq, Repr

/-- An output operand held in the accumulators (R88): its record, where its bale lies (`opSpot`), the address
it will be written to (none for a chute), what the engine holds, its flags, whether a poisoned bale contributed and whether
that poison entered by a cause other than a reset (R461), live extents, origins, and live key bounds. -/
structure Held where
  op : Nat
  spot : Nat
  addr : Option Nat
  acc : List Lane
  flags : Flags
  poison : Bool
  dirty : Bool
  liveR : Nat
  liveC : Nat
  rowOrg : Nat
  colOrg : Nat
deriving DecidableEq, Repr

/-- What a read operand took at the previous issued iteration (R88): its record, where it lay (an
address, or for a chute its tile coordinates), and the bale as delivered. -/
structure LastRead where
  op : Nat
  at_ : Nat
  item : Item
deriving DecidableEq, Repr

/-- The sequencer of a core in a step (R83 to R92). -/
structure Seq where
  program : Nat
  desc : Nat
  phase : Phase
  /-- Barrier WAITs performed in the step, by identifier (R160). -/
  barWaits : Tab Nat
  /-- LIVE_SRC 1 words of the nest, by level (R84). -/
  words : List Nat
  /-- The iteration vector last issued or, while `cand`, to be issued next; none at the nest's start. -/
  idx : Option (List Nat)
  cand : Bool
  /-- The live extents and bounds of the levels entered (R83). -/
  live : List Nat
  beff : List Nat
  /-- The ITER wait of the candidate has been satisfied. -/
  granted : Bool
  /-- The candidate, a KV iteration, caused a stall and is held until its flush completes (R221). -/
  kvHeld : Bool
  issued : Bool
  held : List Held
  last : List LastRead
  /-- Rows of reduction outputs that took a valid element in the nest: where the bale lies, and the row (R127). -/
  fed : List (Nat × Nat)
  /-- Core clocks of the previous issued iteration (R266). -/
  prevCc : Nat
  /-- Tensors rebuilt by their ALWAYS recipe for this nest (R255). -/
  rebuilt : List Nat
  /-- ITER SIGNALs that wait for scattered rows to be visible (R163, R275): bales still to be scattered. -/
  owed : List Nat
  /-- The beat at which a wait for a ring chunk or a pipeline transfer began (R192, R254, R281). -/
  waitFrom : Option Nat
deriving DecidableEq, Repr

/-- What an append put into a group of the manger (R210, R214): K (0) or V (1), its first position and count,
and the poison, STICKY and TENSOR_ID of the bale it came from. A token carries them until it is flushed or
discarded. -/
structure ManPut where
  group : Nat
  kv : Nat
  pos : Nat
  n : Nat
  poison : Bool
  sticky : Nat
  tensor : Nat
deriving DecidableEq, Repr

/-- A stream context (R207, R208): the marks, the manger buffer bound to it, its page table (word index to
frame, bit 22 the host reserve), the tokens each group has appended since the last advance (R210), what was
appended into the manger, the blocks inserted into the pedigree and the last node (R227), and the highest
block flushed. -/
structure Stream where
  state : Nat
  start : Nat
  domain : Nat
  window : Nat
  foc : Bool
  flushed : Nat
  commit : Nat
  fill : Nat
  manger : Nat
  table : Tab Nat
  appended : Tab Nat
  puts : List ManPut
  inserted : Nat
  lastNode : Option Nat
  top : Option Nat
deriving DecidableEq, Repr

/-- A pedigree node (R227, R229). -/
structure PedNode where
  hash : Nat
  parent : Option Nat
  frame : Nat
  domain : Nat
  firstPos : Nat
  depth : Nat
  stamp : Nat
deriving DecidableEq, Repr

/-- The Ostler and the pedigree (spec/08). -/
structure KvSide where
  /-- Streams that are not FREE, by partition × 65,536 + stream. -/
  streams : Tab Stream
  /-- Reference counts, by partition × 2^24 + frame. -/
  refs : Tab Nat
  /-- Nodes, by partition × 2^24 + identifier. -/
  nodes : Tab PedNode
  stamp : Nat
  /-- Stalled streams, in the order they stalled (R222). -/
  stalls : List (Nat × Nat)
  /-- Pedigree keys by partition, and key words written but not committed by partition × 4 + word. -/
  keys : Tab Nat
  keyWords : Tab Word
deriving DecidableEq, Repr

/-- A line held in a Loft way (R265, R266): which line (owner × 2^38 + line number), its valid and dirty
sectors, and its DUE time. -/
structure LoftLine where
  way : Nat
  line : Nat
  valid : Nat
  dirty : Nat
  due : Option Nat
deriving DecidableEq, Repr

/-- A fill on its way from GDDR (R265, R283, R326, R327). -/
structure Fill where
  line : Nat
  mask : Nat
  due : Option Nat
  prefetch : Bool
  stale : Bool
  cancelled : Bool
  /-- The step makes the request: a reply that is lost ends it with TARGET_RESET (R283). -/
  step : Bool
  /-- The epoch of the line's channel as the requester knew it. -/
  epoch : Nat
deriving DecidableEq, Repr

/-- A request held at its path's limit (R263): the path and the fill it makes. -/
structure Held263 where
  path : Nat
  part : Nat
  fill : Fill
deriving DecidableEq, Repr

/-- A request whose set holds no candidate (R267): partition, line, sectors, hint in core clocks, whether it writes,
and for a read whose sectors have still to be fetched whether the step makes it. -/
structure SetWait where
  part : Nat
  line : Nat
  mask : Nat
  hint : Option Nat
  write : Bool
  fetch : Option Bool
deriving DecidableEq, Repr

/-- The Lofts and the paths' requests in flight (spec/10). -/
structure LoftSide where
  /-- Sectors whose clean Loft copy the command under way found uncorrectable: its readers take poison (R270), by
  sector number. Empty between commands. -/
  hurt : Tab Bool
  /-- Lines held, by cluster × 1,024 + set. -/
  sets : Tab (List LoftLine)
  /-- What GDDR itself holds of a sector that is dirty in a Loft, by sector number (R270): its bytes, and a last
  byte that is 1 where its MARK is 0b10110 and 2 where it is uncorrectable. -/
  stale : Tab (List Byte)
  fills : List Fill
  /-- Requests in flight, by path (0–3 the GDDR of a die) × 64 + partition. -/
  inFlight : Tab Nat
  waiting : List Held263
  /-- Requests that wait for a candidate in their set, in order (R267). -/
  setWait : List SetWait
  /-- The core-clock counter NOW (R266). -/
  now : Nat
  /-- Spare ways retired so far, by cluster. -/
  retired : Tab Nat
deriving DecidableEq, Repr

/-- A drover stream (R271 to R276). -/
structure Drove where
  part : Nat
  plan : Nat
  node : Nat
  /-- START_SEM satisfied, and the stream started. -/
  semOk : Bool
  started : Bool
  n : Nat
  /-- Bales delivered or taken so far. -/
  pos : Nat
  /-- Page gathers: the bales to deliver, worked out from the marks when the stream starts: stream,
  block (none for the manger), half, KEY_BASE, LIVE_LO, LIVE_HI. -/
  pages : List (Nat × Option Nat × Nat × Nat × Nat × Nat)
  /-- The marks FLUSHED and FILL the stream read, by stream (R215). -/
  marks : List (Nat × Nat × Nat)
  /-- Scatter: the last index row taken. -/
  ended : Bool
deriving DecidableEq, Repr

/-- A SHED_READ or SHED_WRITE that has started (R299 to R302): the fetch number of its descriptor, its first page
and count, the place of its data, its pages by index within the descriptor that have not moved, how many
reads of them have gone out (R262), the step of R302 each page of a write has reached with the bytes staged at step 1,
the pages moved, the lowest index that failed, the earliest-deadline beat, and whether a reset ended some page
(R283). -/
structure ShedOp where
  seq : Nat
  fn : Nat
  write : Bool
  first : Nat
  count : Nat
  addr : Nat
  left : List Nat
  out : Nat
  staged : List (Nat × Nat × List Byte)
  moved : Nat
  failed : Option Nat
  deadline : Nat
  reset : Bool
deriving DecidableEq, Repr

/-- The shed (R298 to R305): page bytes by page × 16,384 + byte, the draw of keys each mapped page was
written under (0: the owner, unencrypted), and the operations under way. -/
structure ShedSide where
  bytes : List Host.Cell
  maps : Tab Nat
  ops : List ShedOp
  /-- Pages that the host has written over the life of the module (R304). -/
  written : Nat
  /-- Channels held in reset because their flash identity differs from the identity record (R305). -/
  held : Tab Bool
deriving DecidableEq, Repr

/-- A row-remap entry (R292): its channel, number (bank ⌊k/8⌋) and physical row; off while it copies. -/
structure Remap where
  chan : Nat
  entry : Nat
  row : Nat
  on : Bool
deriving DecidableEq, Repr

/-- The GDDR controllers' state that no GDR register holds. -/
structure GddrSide where
  /-- Channels in a margining sweep (R296). -/
  sweeps : Tab Bool
  remaps : List Remap
  /-- Channels at half bandwidth (1) or in self refresh (2) for heat (R428). -/
  throttle : Tab Nat
  /-- Channels whose refresh rate is doubled (R294). -/
  fast : Tab Bool
  /-- The ranges of local lines, first and end, of a channel that still hold the MARK of a channel reset (R297
  step 4) where no owner's space lay. -/
  marked : Tab (List (Nat × Nat))
  /-- Events of the table of R305, by its row. -/
  events : Tab Nat
  /-- Corrected and uncorrectable sectors of an owner, by channel × 64 + owner (R410). -/
  ecc : Tab (Nat × Nat)
deriving DecidableEq, Repr

/-- A fetch of an off-loaded tensor (R279, R280). -/
structure Fetch where
  slot : Nat
  tensor : Nat
  /-- From the shed (3) or GDDR (2). -/
  tier : Nat
  landed : Bool
  withdrawn : Bool
  /-- It missed its deadline with no recipe. -/
  late : Bool
  deadline : Nat
  /-- Some request of it was held on the GDDR limit (R263, R281). -/
  held : Bool
deriving DecidableEq, Repr

/-- A TRANSFER slot that has fired (R359, R360): it waits for its semaphore or source, is on its way, or
has landed. -/
structure Transfer where
  slot : Nat
  semOk : Bool
  sent : Bool
  late : Bool
  /-- The bale a PIPE_SEND handed over, if it serves one. -/
  bale : Option (List Byte)
deriving DecidableEq, Repr

/-- A child sum that has landed: shard, child position, header, elements (FP32 words) and landing beat. -/
structure ChildSum where
  shard : Nat
  pos : Nat
  hdr : SumHdr
  data : List Word
deriving DecidableEq, Repr

/-- A late sum held to the next step (R388): plan, collective, shard, child position, its header, data
and the step it came from. -/
structure Deferral where
  plan : Nat
  coll : Nat
  shard : Nat
  pos : Nat
  step : Nat
  hdr : SumHdr
  data : List Word
deriving DecidableEq, Repr

/-- A message of this module's Muster engines (R237, R372, R382, R392): plan and collective, shard, kind
(1 contribution, sum or whistle vector, 2 result broadcast, 3 all-to-all rows, 4 RESET mark), the
collective ranks it goes to, header and elements. -/
structure MusMsg where
  part : Nat
  plan : Nat
  coll : Nat
  shard : Nat
  kind : Nat
  dests : List Nat
  hdr : SumHdr
  data : List Word
  rows : Option RowMsg
deriving DecidableEq, Repr

/-- A collective of the executing step (R384 to R392). -/
structure CollRun where
  coll : Nat
  /-- Its slot has fired. -/
  opened : Bool
  semOk : Bool
  sent : Bool
  withdrawn : Bool
  /-- The first flit of the contribution has been granted (R391). -/
  granted : Bool
  stamp : Nat
  own : SumHdr
  /-- The poison of its source came from reset responses only (R461). -/
  ownSoft : Bool
  /-- The elements of the source, converted to CARRY (addition 0), or the whistle vector. -/
  vec : List Word
  /-- The headers of the source bales, in bale order, with the POISON and STICKY of addition 0 (R376). -/
  geom : List (List Byte)
  sums : List ChildSum
  /-- Shards at their close beat with children missing (R387), and shards whose sum has gone on. -/
  shut : List Nat
  closed : List Nat
  /-- Shards, gathered members or the broadcast whose result has been written here. -/
  results : List Nat
  /-- Results of shards that came before this member's own contribution gave their bales a shape: shard, header,
  elements, and whether poison in them has a cause other than a reset. -/
  early : List (Nat × SumHdr × List Word × Bool)
  /-- The send counts, once the member has read them (R378), and whether they could not be read. -/
  counts : Option (List Nat × Bool)
  /-- The header broadcast with shard 0, its PARTIAL and NF the OR of every shard's (R372); of a whistle, the
  header of the vector so far (R382). -/
  got : SumHdr
  phase : Nat
  /-- Whistle vectors received: phase, collective rank, header, vector. -/
  vecs : List (Nat × Nat × SumHdr × List Word)
  rows : List RowMsg
  /-- Source rows sent to each member, and destination rows received from each, in order (R379). -/
  sentRows : List (Nat × List Nat)
  recvRows : List (Nat × List Nat)
  done : Bool
deriving DecidableEq, Repr

/-- A landing buffer of a PIPE_RECV node (R253). -/
structure PipeBuf where
  node : Nat
  buf : Nat
  mb : Nat
  item : Item
deriving DecidableEq, Repr

/-- An executing step of a partition (R47, R358, R461). -/
structure Step where
  seq : Nat
  plan : Nat
  step : Nat
  seed : Nat
  startBeat : Nat
  args : List (Nat × Nat)
  running : Bool
  /-- The block number of the recorded STEP_BEGIN a replay follows (R475). -/
  replay : Option Nat
  /-- The first cause of DATA_ERROR and the poisoned bales written (R461). -/
  cause : Nat
  poisoned : Nat
  /-- The step is owed TARGET_RESET, LINK_ERROR with an AUX, INTERNAL with an AUX. -/
  reset : Bool
  link : Option Nat
  internal : Option Nat
  /-- OK_PARTIAL, OK_RECOMPUTED, OK_SKIPPED (R16). -/
  part : Bool
  left : Nat
  recomputed : Nat
  skipped : Bool
  digest : Nat
  gnf : Bool
  gnfFinal : Bool
  /-- Slots fired; no later slot fires once stopped (R351). -/
  fired : List Nat
  stopped : Bool
  fetches : List Fetch
  /-- Tensors to be recomputed, and the cores that have run their recipe (R280). -/
  recompute : List Nat
  recomputedAt : List (Nat × Nat)
  transfers : List Transfer
  colls : List CollRun
  pipes : List PipeBuf
  /-- Micro-batches landed so far, by PIPE_RECV node, and landings that wait for their buffer or for an earlier
  micro-batch (R253): the landing, whether a reset ended it, and NOW when it began to wait for its buffer. -/
  landed : List (Nat × Nat)
  landings : List (Landing × Bool × Option Nat)
  /-- Bales that PIPE_SEND iterations have handed over, by slot (R253). -/
  handed : List (Nat × List Byte)
  /-- OPT_STEP nodes skipped or faulted out (R247, R259), and attention nodes with a bad table (R178). -/
  optSkip : List Nat
  optDead : List Nat
  attnBad : List Nat
  /-- The tables of attention nodes, read at the node's first nest (R177): node, boundaries, ranges. -/
  tables : List (Nat × List Nat × List (Nat × Nat))
  /-- OPT_STEP nodes whose COUNT has been incremented (R248). -/
  optCounted : List Nat
  /-- Streams accessed by the step (R217). -/
  streams : List Nat
  /-- Ranges whose data a reset lost (R194, R283), by `softKey` and length: readers take poisoned zeros. -/
  lost : List (Nat × Nat)
  /-- Cores that wait for a fetch before its deadline (R279), with NOW when the wait began. -/
  early : List (Nat × Nat)
  /-- Where bales lie that the step wrote with poison from reset responses only (R461), by `softKey`. -/
  soft : List Nat
deriving DecidableEq, Repr

/-- A replay armed for a partition (R474, R475): the plan, the blocks of the recorded STEP_BEGINs still to
run, from the import area or the ring, and whether the import area holds them. -/
structure Armed where
  plan : Nat
  begins : List Nat
  imported : Bool
deriving DecidableEq, Repr

/-- A migration of a replica (R323): plan, expert, what it does (1 add, 2 remove, 3 demote, 4 promote)
and the 1 MiB chunks still to copy. -/
structure Migration where
  part : Nat
  plan : Nat
  expert : Nat
  kind : Nat
  chunks : Nat
deriving DecidableEq, Repr

/-- A prefetch the Yardmaster started (R325, R326): the partition, the nest's core and descriptor, the
line, and whether it has been cancelled. -/
structure Prefetch where
  part : Nat
  core : Nat
  desc : Nat
  line : Nat
  cancelled : Bool
deriving DecidableEq, Repr

/-- The Yardmaster: loaded plans, executing steps and the expert map (spec/12). -/
structure YardSide where
  /-- Loaded plans, by partition × 16 + plan identifier. -/
  plans : Tab Plan
  /-- Executing steps, by partition. -/
  steps : Tab Step
  armed : Tab Armed
  /-- Expert records and token counts, by (partition × 16 + plan) × 2^32 + expert. -/
  experts : Tab Expert
  counts : Tab Nat
  migrations : List Migration
  /-- Chunks of 1 MiB copied at the present boundary, by partition (R323). -/
  migDone : Tab Nat
  prefetches : List Prefetch
  deferrals : Tab (List Deferral)
  /-- The last collective results shown by MUS_COLL registers, by
  (partition × 16 + plan) × 4,096 + collective: header, own lateness, and for how many steps more DONE shows (the
  current or the last, R395). -/
  collShown : Tab (SumHdr × Nat × Nat)
  /-- The plan part of the microstore and its table, as the last PLAN_RUN that carried one wrote it into
  the cores of a cluster (R139). -/
  ucode : Tab (List (BitVec 64) × List Word)
deriving DecidableEq, Repr

/-- A packet on a Holgor link (R333): origin and destination ranks, domain partition, transfer and packet
sequence, epoch of the destination link as the origin knows it, virtual channel, and payload flits. -/
structure Packet where
  origin : Nat
  dest : Nat
  part : Nat
  xfer : Nat
  seq : Nat
  epoch : Nat
  vc : Nat
  flits : Nat
deriving DecidableEq, Repr

/-- A link (R332 to R338): packets kept for replay with their link sequence and resends (R335), the next
sequence to send and to receive, the credits held per VC, packets in a row under violation 0x01, tries of
training, the beat of the last delay measurement, and packets to forward. -/
structure LinkSt where
  unacked : List (Nat × Packet × Nat)
  txSeq : Nat
  rxSeq : Nat
  credits : List Nat
  badRun : Nat
  tries : Nat
  measured : Nat
  forward : List Packet
  /-- The data lanes that have failed outright. -/
  failed : List Nat
deriving DecidableEq, Repr

/-- Yard Time beside its registers (R345 to R354). -/
structure YtSide where
  /-- A YTM_CTRL write held to a plan boundary (R346). -/
  held : Option Word
  /-- A counter or period set by TIME_SET or a frame, not yet in force (R345, R353). -/
  nextCount : Option Nat
  nextPeriod : Option Nat
  /-- A reference is present on the source; it was rejected and has not yet returned (R350). -/
  present : Bool
  rejected : Bool
  /-- The phase error in half picoseconds, positive when the module is ahead (R352). -/
  phase : Int
  /-- The rate at which the module locked, in 0.001 ppm units against nominal (R350). -/
  lockRate : Int
  /-- A new time epoch was taken; SYNCED again from the next valid frame (R353). -/
  newEpoch : Bool
  /-- The holdover under way, in units of 250 ns (R349, R351). -/
  hold : Option Nat
  /-- Frames the module has sent: beat, period, epoch, SYNCED (R347). -/
  sent : Option (Nat × Nat × Nat × Bool)
deriving DecidableEq, Repr

/-- The Ethernet ports and RoCE v2 queue pairs (R342, R343): expected packet sequence by queue pair. -/
structure EthSide where
  psn : Tab Nat
  /-- Answers sent: queue pair, sequence, and the NAK syndrome (0 for an ACK). -/
  replies : List (Nat × Nat × Nat)
deriving DecidableEq, Repr

/-- The Muster engines beside the executing steps (spec/14): contributions to withdraw at their next
opening (R391), by partition, plan and collective; the messages sent, newest first. -/
structure MusSide where
  withdraw : List (Nat × Nat × Nat)
  outbox : List MusMsg
deriving DecidableEq, Repr

/-- What a partition has beyond its PRT registers (spec/15). -/
structure PartSide where
  /-- The draw of data keys each ACTIVE partition holds (R405); absent once destroyed (R402). -/
  keys : Tab Nat
  /-- Draws made so far, so that no two are the same. -/
  draws : Nat
  /-- Releases in progress: 1 waits for started work to end, 2 scrubs (R402). -/
  release : Tab Nat
  /-- Window-map writes held to a plan boundary: offset and value (R408). -/
  heldWindows : Tab Word
  /-- The WHISTLE bits the rotation uses now, by partition (R398, R407). -/
  whistleNow : Tab Bool
deriving DecidableEq, Repr

/-- What drives the root clock (R415, R418, R420). -/
inductive Root where
  /-- The logic runs from FOSC directly (module reset, or both loops lost). -/
  | fosc
  /-- A loop runs locked to a crystal. -/
  | crystal
  /-- The loop holds its control word after its reference failed. -/
  | held
  /-- The loop runs from FOSC ÷ 8, FOSC_CLAMP set. -/
  | clamped
deriving DecidableEq, Repr

/-- The clock, power and input state that no CLK register holds (spec/16). -/
structure ClkSide where
  /-- The control clock runs (R440). -/
  ccOn : Bool
  root : Root
  /-- A CLK_CTRL write held to a plan boundary (R416). -/
  heldSel : Option Word
  /-- The spread in effect, and one held to a plan boundary (R422). -/
  spread : Nat
  heldSpread : Option Nat
  /-- The point the power loop holds for each die (R425); an unlisted die holds 16. -/
  loopPoint : Tab Nat
  /-- Boundaries in a row below 95 % of the cap, by die (R425). -/
  below : Tab Nat
  /-- Dies whose last sample was at or above 95 °C (R426). -/
  hot : Tab Bool
  /-- Thermal emergencies by die: 1 at point 0, 2 also issuing on every other core clock (R427). -/
  emerg : Tab Nat
  /-- Dies whose emergency ended and whose point waits for a boundary (R427). -/
  restore : Tab Bool
  /-- The last junction temperatures of C0–C3 and the IO die, in °C. -/
  temps : Tab Nat
  /-- The trip record of the always-on domain: 0–3 Cn, 4 IO die (R426). -/
  trip : Option Nat
  /-- Every regulator is off (R426, R429). -/
  off : Bool
  /-- VIN samples in a row below 38 V and above 62 V, in µs (R429). -/
  vinLow : Nat
  vinHigh : Nat
  /-- The input switch has disconnected the module (R429). -/
  disconnected : Bool
  /-- Units whose clock is gated (R421), by unit number. -/
  gated : Tab Bool
  /-- Both loops lost lock: every operation completes INTERNAL until reset (R420). -/
  lostRoot : Bool
deriving DecidableEq, Repr

/-- An MSI-X vector (R437, R441). -/
structure MsixVec where
  addr : Nat
  data : Nat
  masked : Bool
deriving DecidableEq, Repr

/-- A delivery between decision and commit (R435). -/
structure Delivery where
  src : Nat
  vec : Nat
  /-- VX2_COMPAT as it stood at the decision (R442). -/
  compat : Bool
deriving DecidableEq, Repr

/-- The Bell's state that no BEL register holds (spec/17). -/
structure BellSide where
  /-- MSI-X tables, by 64 × function + vector; an unlisted vector is masked with zero words (R441). -/
  vecs : Tab MsixVec
  /-- Functions with MSI-X enabled, and functions masked. -/
  msixOn : Tab Bool
  fnMasked : Tab Bool
  /-- PBA bits set at a commit, by 64 × function + vector (R435). -/
  pba : Tab Bool
  /-- The delivery of a function between decision and commit. -/
  decided : Tab Delivery
  /-- R440: always-on latches of the owner's sources, with the further events merged into each. -/
  latches : Tab Nat
deriving DecidableEq, Repr

/-- A settings record (R452): class, version, instance, payload and sequence number. -/
structure SettingsRec where
  cls : Nat
  ver : Nat
  inst : Nat
  payload : List Byte
  seq : Nat
deriving DecidableEq, Repr

/-- A settings bank (R451): its BANK_SEQ, its COMPLETE mark, its committed records with a correct CRC in
order of writing, those with a wrong one (R453), and the bytes used. -/
structure Bank where
  seq : Nat
  complete : Bool
  recs : List SettingsRec
  torn : Nat
  used : Nat
deriving DecidableEq, Repr

/-- An image slot (R445 to R447): whether its header and body stand up to R446 but for the security
version and the key's kind, their fields, the marks, and the two settings banks. -/
structure FlashSlot where
  valid : Bool
  version : Nat
  secVer : Nat
  /-- Signed with a production key; otherwise with the debug key (R449). -/
  prod : Bool
  seq : Nat
  installed : Bool
  tried : Bool
  good : Bool
  bad : Bool
  incompat : Bool
  bank0 : Bank
  bank1 : Bank
deriving DecidableEq, Repr

/-- An install under way (R450): the target slot and the image's fields. -/
structure Install where
  slot : Nat
  version : Nat
  secVer : Nat
  prod : Bool
deriving DecidableEq, Repr

/-- Boot flash, fuses and the reset sequence (spec/18). -/
structure BootSide where
  slotA : FlashSlot
  slotB : FlashSlot
  /-- The module is in reset, before start-up has run (R443, R444). -/
  inReset : Bool
  /-- The fused minimum security version, and the debug fuse (R449). -/
  fusedMin : Nat
  debugFuse : Bool
  install : Option Install
deriving DecidableEq, Repr

/-- An entry of the Farrier log (R468, R478). -/
structure FarEntry where
  beat : Nat
  event : Nat
  kind : Nat
  index : Nat
  detail : Nat
deriving DecidableEq, Repr

/-- The Farrier (R464 to R468). Parts are numbered by kind × 2^40 + number: a core by its logical
number, a Loft way by cluster × 32 + way, a lane by link × 16 + lane, a GDDR row by
channel × 2^32 + bank × 2^24 + physical row. -/
structure FarSide where
  scores : Tab Nat
  /-- Corrected events of each part in the current hour. -/
  events : Tab Nat
  due : List Nat
  /-- The newest 64 events, newest first (R468). -/
  log : List FarEntry
  /-- GO was written with AUTO 0: the swaps are scheduled (R465). -/
  apply : Bool
  /-- Logical cores that run on their cluster's spare slot (R19, R465). -/
  spareCore : Tab Bool
  /-- Clusters made unavailable by a failed part (R467). -/
  unavailable : Tab Bool
  /-- Partitions served by a management core that failed with no spare (R463 code 0x02), and a security
  engine that failed its self-test (code 0x04). -/
  deadParts : Tab Bool
  secDead : Bool
deriving DecidableEq, Repr

/-- A frame of a video context (R488, R489): its entry's tag, user word and IRQ bit, its record's status
and flags, the concealed share, and the pool buffer it took. -/
structure VFrame where
  tag : Nat
  user : Nat
  irq : Bool
  status : Nat
  flags : Nat
  conceal : Nat
  buffer : Option Nat
  addr : Nat
deriving DecidableEq, Repr

/-- An output record that waits to be written (R486). -/
structure VRec where
  tag : Nat
  status : Nat
  kind : Nat
  flags : Nat
  buffer : Nat
  conceal : Nat
  count : Nat
  addr : Nat
  user : Nat
  irq : Bool
deriving DecidableEq, Repr

/-- A video context (R482 to R501): the control block as read at ENABLE, ring indices, tokens written,
the marks of each buffer (1 REF, 2 DECODING, 4 HELD), frames ready for a pipe and when it began to wait,
the frame on a pipe, frames for the patcher, records to write, and bitstream bytes in use by slice. -/
structure VCtx where
  block : List Byte
  inHead : Nat
  inTail : Nat
  outTail : Nat
  tokWritten : Nat
  bufs : List Nat
  ready : List VFrame
  since : Nat
  cur : Option VFrame
  patch : List VFrame
  recs : List VRec
  slices : List (Nat × Nat)
  bsAt : Nat
deriving DecidableEq, Repr

/-- The video block (spec/20): enabled contexts, and the order in which contexts began to wait. -/
structure VidSide where
  ctxs : Tab VCtx
  order : Nat
deriving DecidableEq, Repr

/-- The management buses and JTAG (spec/21). -/
structure MbsSide where
  /-- ALERT# is asserted, and STATUS bits 1, 2, 3, 4 and 6 as they last were (R505). -/
  alert : Bool
  watched : Nat
  /-- The 256 bytes of the identity EEPROM (R516). -/
  identity : List Byte
  /-- The target holds SDA or an incomplete write: the command and the bytes it has received (R508). -/
  inWrite : Option (Nat × Nat)
  /-- Failed tries of the controller's transaction under way (R509). -/
  tries : Nat
  /-- PERST# is asserted (R511). -/
  perst : Bool
  /-- SLOT[1:0], as strapped (R504). -/
  straps : Nat
  /-- The JTAG instruction in force, and the boundary cells as preloaded or sampled (R511). -/
  ir : Nat
  cells : Nat
deriving DecidableEq, Repr



/-- The module: every piece of state the spec gives it, and the commands that wait. -/
structure State where
  /-- The registers (R6), by `regKey`: an unlisted one holds the reset value of its row. -/
  regs : Tab Word
  /-- Host memory, rings and records. -/
  host : HostSide
  /-- GDDR and scratch. -/
  mem : MemSide
  /-- Chutes, by (partition × 16 + plan) × 65,536 + edge. -/
  chutes : Tab Chute
  /-- The Halter network. -/
  halter : HalterSide
  /-- Sequencers of the cores a step runs on, by logical core. -/
  seqs : Tab Seq
  /-- Sequencers whose core runs a recipe, as they stood when it started (R257). -/
  suspended : Tab Seq
  /-- The key-value cache. -/
  kv : KvSide
  /-- The Lofts. -/
  loft : LoftSide
  /-- Drover streams, by drover (cluster × 4 + number). -/
  drovers : Tab Drove
  /-- The shed. -/
  shed : ShedSide
  /-- The GDDR controllers. -/
  gddrs : GddrSide
  /-- The Yardmaster: plans, steps, experts. -/
  yard : YardSide
  /-- Holgor links, by number. -/
  links : Tab LinkSt
  /-- Yard Time. -/
  yt : YtSide
  /-- Ethernet. -/
  eth : EthSide
  /-- The Muster engines. -/
  mus : MusSide
  /-- Partitions. -/
  parts : PartSide
  /-- Clocks, heat and power. -/
  clk : ClkSide
  /-- The Bell. -/
  bell : BellSide
  /-- Boot flash and the reset sequence. -/
  boot : BootSide
  /-- The Farrier. -/
  far : FarSide
  /-- The video block. -/
  vid : VidSide
  /-- The management buses and JTAG. -/
  mbs : MbsSide
  /-- The model's own counter: free values (undefined or unstated values) are read with it (DESIGN CHOICE,
  log entry 19). -/
  freeCount : Nat
  /-- The commands that wait, first in first out (the model's own). -/
  pending : List Instr
deriving DecidableEq, Repr

/-- The module right after reset (R443): every register at the reset value of its row (nothing is
listed), the always-on domain as at the first power-on, no command waiting. The values the spec does
not give are named in the assumption log. -/
def State.reset : State where
  regs := []
  host := ⟨[], [], [], [], [], [], [], [], [], 0, 0, [], [], []⟩
  mem := ⟨[], [], [], []⟩
  chutes := []
  halter := ⟨[], [], [], [], 0⟩
  seqs := []
  suspended := []
  kv := ⟨[], [], [], 0, [], [], []⟩
  loft := ⟨[], [], [], [], [], [], [], 0, []⟩
  drovers := []
  shed := ⟨[], [], [], 0, []⟩
  gddrs := ⟨[], [], [], [], [], [], []⟩
  yard := ⟨[], [], [], [], [], [], [], [], [], [], []⟩
  links := []
  yt := ⟨none, none, none, false, false, 0, 0, false, none, none⟩
  eth := ⟨[], []⟩
  mus := ⟨[], []⟩
  parts := ⟨[], 0, [], [], []⟩
  clk := ⟨false, .fosc, none, 0, none, [], [], [], [], [], [], none, false, 0, 0, false, [], false⟩
  bell := ⟨[], [], [], [], [], []⟩
  boot := ⟨⟨true, 0, 0, true, 0, true, true, true, false, false, ⟨0, true, [], 0, 64⟩, ⟨0, false, [], 0, 0⟩⟩, ⟨false, 0, 0, false, 0, false, false, false, false, false, ⟨0, false, [], 0, 0⟩, ⟨0, false, [], 0, 0⟩⟩, true, 0, false, none⟩
  far := ⟨[], [], [], [], false, [], [], [], false⟩
  vid := ⟨[], 0⟩
  mbs := ⟨false, 0, [0x56, 0x58, 0x49, 0x44, 1, 0, 0x56, 0x58, 0x33, 0x2D, 0x4D, 0x32, 0, 0, 0, 0, 2] ++ List.replicate 235 0 ++ [236, 167, 30, 41], none, 0, false, 0, 1, 0⟩
  freeCount := 0
  pending := []

end Sys2Proof.Machine
end

