-- ==== Sys2Proof/Machine/Ops.lean ====
section
/-! DEFINITION. The operations every command is made of: registers and their fields, counters,
memories and their addresses, the Bell's raise, violations, and the end of a descriptor. -/

namespace Sys2Proof.Machine

/-- The outcome of a command. -/
abbrev Out := Host.Outcome State Fault Refusal

/-! ## Register words (R3, R6, R8) -/

/-- The key of a register in the register file: its BAR0 offset and its instance. -/
def regKey (off inst : Nat) : Nat := off * 1048576 + inst

/-- A bit range of a word (R3). -/
def getBits (v : Word) (lo w : Nat) : Nat := v.toNat / 2 ^ lo % 2 ^ w

/-- A word with a bit range replaced. -/
def setBits (v : Word) (lo w x : Nat) : Word :=
  BitVec.ofNat 32 (v.toNat % 2 ^ lo + (x % 2 ^ w) * 2 ^ lo + v.toNat / 2 ^ (lo + w) * 2 ^ (lo + w))

/-- A single bit of a word. -/
def bitOf (v : Word) (k : Nat) : Bool := v.toNat.testBit k

/-- The row of the register map for an offset. -/
def rowOf (off : Nat) : Option RegRow :=
  regRows.find? fun r => r.off == canonicalOff off

/-- The reset value that the fields of a row make. -/
def rowReset (r : RegRow) : Nat := r.fields.foldl (fun a f => a + f.reset * 2 ^ f.lo) 0

/-- The bits of a row that have an access type. -/
def accMask (r : RegRow) (a : Access) : Word :=
  BitVec.ofNat 32 (r.fields.foldl (fun m f => if f.acc = a then m + (2 ^ f.w - 1) * 2 ^ f.lo else m) 0)

/-- Whether a local source number is assigned in a function's fence (R432). -/
def bellAssigned (fn src : Nat) : Bool :=
  if fn = 0 then decide (src ≤ 73) || decide (80 ≤ src ∧ src ≤ 91) || decide (96 ≤ src ∧ src ≤ 111)
  else decide (src ≤ 67) || decide (80 ≤ src ∧ src ≤ 95)

/-- Whether a local source is a software source of the fence (R432, R438). -/
def bellSoftware (fn src : Nat) : Bool :=
  if fn = 0 then decide (96 ≤ src ∧ src ≤ 111) else decide (80 ≤ src ∧ src ≤ 95)

/-- The assigned sources of a group of 32; the other bits of its registers are RSVD (R442). -/
def bellGroupMask (fn group : Nat) : Nat :=
  (List.range 32).foldl (fun m k => if bellAssigned fn (32 * group + k) then m + 2 ^ k else m) 0

/-- The reset value of a register instance: the row's, but for the registers whose reset value
differs by instance (HCI_ID by function, BEL_MASK by the assigned sources, FAR_LIMIT by kind). -/
def regDefault (off inst : Nat) : Word :=
  if off = HCI_ID then
    BitVec.ofNat 32 (0x0200 + inst * 2 ^ 16 + (if inst = 0 then 0x3F else inst - 1) * 2 ^ 24)
  else if off = BEL_MASK then BitVec.ofNat 32 (bellGroupMask (inst / 32) (inst % 32))
  else if off = FAR_LIMIT 0 ∨ off = FAR_LIMIT 1 then 64
  else if off = FAR_LIMIT 2 then 0x00100000
  else if off = FAR_LIMIT 3 then 16
  else match rowOf off with
    | some r => BitVec.ofNat 32 (rowReset r)
    | none => 0

/-- The value a register instance holds. -/
def State.reg (s : State) (off : Nat) (inst : Nat := 0) : Word :=
  (tabFind s.regs (regKey off inst)).getD (regDefault off inst)

/-- Give a register instance a value. -/
def State.setReg (s : State) (off : Nat) (inst : Nat) (v : Word) : State :=
  { s with regs := tabSet (regDefault off inst) s.regs (regKey off inst) v }

/-- The value of a field. -/
def State.fld (s : State) (f : Field) (inst : Nat := 0) : Nat := getBits (s.reg f.off inst) f.lo f.w

/-- Whether a one-bit field is set. -/
def State.flag (s : State) (f : Field) (inst : Nat := 0) : Bool := s.fld f inst == 1

/-- Give a field a value, the register's other bits kept. -/
def State.setFld (s : State) (f : Field) (inst : Nat) (x : Nat) : State :=
  s.setReg f.off inst (setBits (s.reg f.off inst) f.lo f.w x)

/-- Add to a counter field, saturating at its width. -/
def State.bump (s : State) (f : Field) (inst : Nat := 0) (n : Nat := 1) : State :=
  s.setFld f inst (min (s.fld f inst + n) (2 ^ f.w - 1))

/-- A 64-bit quantity in a _LO and _HI pair; `lo` is the offset of the _LO register (R6). -/
def State.reg64 (s : State) (lo : Nat) (inst : Nat := 0) : Nat :=
  (s.reg lo inst).toNat + 2 ^ 32 * (s.reg (lo + 4) inst).toNat

/-- Give a register pair a 64-bit value. -/
def State.setReg64 (s : State) (lo : Nat) (inst : Nat) (v : Nat) : State :=
  (s.setReg lo inst (BitVec.ofNat 32 v)).setReg (lo + 4) inst (BitVec.ofNat 32 (v / 2 ^ 32))

/-- Add to a 64-bit counter, saturating. -/
def State.bump64 (s : State) (lo : Nat) (inst : Nat := 0) (n : Nat := 1) : State :=
  s.setReg64 lo inst (min (s.reg64 lo inst + n) (2 ^ 64 - 1))

/-- Return every register whose offset and instance satisfy `p` to its reset value. -/
def State.dropRegs (s : State) (p : Nat → Nat → Bool) : State :=
  { s with regs := tabDrop s.regs fun k => p (k / 1048576) (k % 1048576) }

/-- The next free value (a value the spec leaves undefined or unstated), and the state after it (DESIGN
CHOICE, log entry 19). -/
def State.free (s : State) : Word × State :=
  (Config.freeValue s.freeCount, { s with freeCount := s.freeCount + 1 })

/-! ## Little-endian bytes (R2) -/

/-- The number that bytes spell, lowest first (R2). -/
def leNat : List Byte → Nat
  | [] => 0
  | b :: bs => b.toNat + 256 * leNat bs

/-- A number as `n` bytes, lowest first (R2). -/
def leBytes : Nat → Nat → List Byte
  | 0, _ => []
  | n + 1, v => BitVec.ofNat 8 v :: leBytes n (v / 256)

/-- `n` bytes of a byte string from a position; positions beyond its end read 0. -/
def sliceBytes (bs : List Byte) (pos n : Nat) : List Byte :=
  let t := (bs.drop pos).take n
  t ++ List.replicate (n - t.length) 0

/-- A little-endian field of a byte string. -/
def fieldAt (bs : List Byte) (pos n : Nat) : Nat := leNat (sliceBytes bs pos n)

/-- A little-endian two's complement field of a byte string. -/
def sfieldAt (bs : List Byte) (pos n : Nat) : Int :=
  let v := fieldAt bs pos n
  if v < 2 ^ (8 * n - 1) then (v : Int) else (v : Int) - (2 ^ (8 * n) : Nat)

/-! ## Byte memories -/

/-- Read `n` bytes; `d` says what an unlisted address reads as. -/
def readBytes (d : Nat → Byte) (m : List Host.Cell) (a : Nat) : Nat → List Byte
  | 0 => []
  | n + 1 => (tabFind m a).getD (d a) :: readBytes d m (a + 1) n

/-- Write bytes where an unlisted address reads 0, keeping the canonical form. -/
def writeBytes (m : List Host.Cell) (a : Nat) : List Byte → List Host.Cell
  | [] => m
  | b :: bs => writeBytes (tabSet 0 m a b) (a + 1) bs

/-- Write GDDR bytes by `gddrKey`: an unlisted byte of the owner region (keys below 2^48) reads 0, and one
of a partition a free value, so that every byte written there is listed. -/
def writeListed (m : List Host.Cell) (a : Nat) : List Byte → List Host.Cell
  | [] => m
  | b :: bs => writeListed (if a < 2 ^ 48 then tabSet 0 m a b else tabPut m a b) (a + 1) bs

/-! ## Functions and partitions (R26, R398) -/

/-- STATE of a partition: 0 FREE, 1 ACTIVE, 2 SCRUBBING (R413). -/
def State.prtState (s : State) (p : Nat) : Nat := s.fld (PRT_STATE_STATE p)

/-- Isolation mode is on (R404). -/
def State.isolated (s : State) : Bool := s.flag PRT_MODE_ISOLATE

/-- The function answers BAR accesses: the owner always, a virtual function while its partition is
ACTIVE (R398, R402). -/
def State.fnLive (s : State) (fn : Nat) : Bool := fn == 0 || s.prtState (fn - 1) == 1

/-- Whether a cluster belongs to a partition's mask (R413). -/
def State.hasCluster (s : State) (p c : Nat) : Bool :=
  s.prtState p != 0 && (s.reg (PRT_CLUSTERS p)).toNat.testBit c

/-- Whether a channel belongs to a partition's set (R413). -/
def State.hasChannel (s : State) (p n : Nat) : Bool :=
  s.prtState p != 0 && (s.fld (PRT_CHANNELS_MASK p)).testBit n

/-- The partition that holds a cluster, if one does (R398). -/
def State.partOfCluster (s : State) (c : Nat) : Option Nat :=
  (List.range 32).find? fun p => s.hasCluster p c

/-- The partition that holds a core (R19). -/
def State.partOfCore (s : State) (core : Nat) : Option Nat := s.partOfCluster (core / 8)

/-- The clusters of a partition, in ascending number. -/
def State.clustersOf (s : State) (p : Nat) : List Nat :=
  (List.range 32).filter fun c => s.hasCluster p c

/-- The cores of a partition, in ascending number. -/
def State.coresOf (s : State) (p : Nat) : List Nat :=
  (List.range 256).filter fun c => s.hasCluster p (c / 8)

/-- The channels of a partition, in ascending number. -/
def State.channelsOf (s : State) (p : Nat) : List Nat :=
  (List.range 24).filter fun n => s.hasChannel p n

/-- The bytes of GDDR that a function's space 0x1 holds: the partition's lines on each of its
channels, or the owner region on all 24 (R288, R399). -/
def State.gddrSize (s : State) (fn : Nat) : Nat :=
  if fn = 0 then s.fld PRT_OWNER_LINES_LINES * 24 * 1024
  else s.fld (PRT_GDDR_LINES_LINES (fn - 1)) * (s.channelsOf (fn - 1)).length * 1024

/-- Yard Time is synchronised (R351, R364). -/
def State.synced (s : State) : Bool := s.flag YTM_STATUS_SYNCED

/-- The Yard Time counter (R345). -/
def State.beat (s : State) : Nat := s.reg64 YTM_BEAT_LO

/-! ## GDDR, scratch and host bytes (R44, R403, R519) -/

/-- The key of a GDDR byte: owner 0 for the owner region, p + 1 for partition p, and the offset. -/
def gddrKey (owner off : Nat) : Nat := owner * 2 ^ 48 + off

/-- What an unlisted GDDR byte reads as: 0 in the owner region (R295 step 7), an unpredictable value
of the partition's keys elsewhere (R403). -/
def State.gddrDefault (s : State) (owner : Nat) (k : Nat) : Byte :=
  if owner = 0 then 0
  else Config.unwrittenByte (tabGet 0 s.parts.keys (owner - 1)) (k - gddrKey owner 0)

/-- Read GDDR bytes of an owner. -/
def State.readGddr (s : State) (owner off n : Nat) : List Byte :=
  readBytes (s.gddrDefault owner) s.mem.gddr (gddrKey owner off) n

/-- The sectors (64-byte units) that a byte range touches. -/
def unitsOf (key n : Nat) : List Nat :=
  if n = 0 then [] else (List.range ((key + n - 1) / 64 - key / 64 + 1)).map (· + key / 64)

/-- Write GDDR bytes; a whole sector written loses its poison (R291). -/
def State.writeGddr (s : State) (owner off : Nat) (bs : List Byte) : State :=
  let k := gddrKey owner off
  let gddr' := writeListed s.mem.gddr k bs
  let bad' := s.mem.bad.filter fun e => !(decide (k ≤ 64 * e.1) && decide (64 * e.1 + 64 ≤ k + bs.length))
  { s with mem := { s.mem with gddr := gddr', bad := bad' } }

/-- Whether any sector of a GDDR range reads as poisoned or uncorrectable, in GDDR (R290) or in the Loft that
the command under way reads it from (R270). -/
def State.gddrBad (s : State) (owner off n : Nat) : Bool :=
  (unitsOf (gddrKey owner off) n).any fun u =>
    (tabFind s.mem.bad u).isSome || (tabFind s.loft.hurt u).isSome

/-- Mark the sectors of a GDDR range as poisoned (MARK 0b10110). -/
def State.poisonGddr (s : State) (owner off n : Nat) : State :=
  { s with mem := { s.mem with
      bad := (unitsOf (gddrKey owner off) n).foldl (fun t u => tabPut t u true) s.mem.bad } }

/-- The key of a scratch byte (R44). -/
def scratchKey (core off : Nat) : Nat := core * 2 ^ 22 + off

/-- Read scratch bytes of a core. -/
def State.readScratch (s : State) (core off n : Nat) : List Byte :=
  readBytes (fun _ => 0) s.mem.scratch (scratchKey core off) n

/-- Write scratch bytes; a whole unit written loses its error (R519). -/
def State.writeScratch (s : State) (core off : Nat) (bs : List Byte) : State :=
  let k := scratchKey core off
  let bad' := s.mem.scratchBad.filter fun e =>
    !(decide (k ≤ 64 * e.1) && decide (64 * e.1 + 64 ≤ k + bs.length))
  { s with mem := { s.mem with scratch := writeBytes s.mem.scratch k bs, scratchBad := bad' } }

/-- Core scratch to zeros with valid check bits (R519). -/
def State.zeroScratch (s : State) (core : Nat) : State :=
  { s with mem := { s.mem with
      scratch := tabDrop s.mem.scratch fun k => k / 2 ^ 22 == core
      scratchBad := tabDrop s.mem.scratchBad fun u => u * 64 / 2 ^ 22 == core } }

/-- Two ranges of at least one byte share one. -/
def overlaps (a n b m : Nat) : Bool := decide (0 < n) && decide (0 < m) && decide (a < b + m) && decide (b < a + n)

/-- Read host memory. -/
def State.readHost (s : State) (a n : Nat) : List Byte := readBytes (fun _ => 0) s.host.mem a n

/-- Write host memory. -/
def State.writeHost (s : State) (a : Nat) (bs : List Byte) : State :=
  { s with host := { s.host with mem := writeBytes s.host.mem a bs } }

/-- What software has put into host memory before it acts. -/
def State.hostStores (s : State) (st : List HostStore) : State :=
  st.foldl (fun s h =>
    let s := s.writeHost h.addr h.bytes
    let rest := s.host.dark.filter fun r => !overlaps r.1 r.2 h.addr h.bytes.length
    { s with host := { s.host with dark := if h.dark then (h.addr, h.bytes.length) :: rest else rest } }) s

/-- A PCIe read of some byte of a range of host memory fails. -/
def State.hostDark (s : State) (a n : Nat) : Bool := s.host.dark.any fun r => overlaps r.1 r.2 a n

/-! ## Device addresses (R44) -/

/-- A place in one of the three address spaces. -/
inductive Place where
  | host (a : Nat)
  | gddr (off : Nat)
  | scratch (core off : Nat)
deriving DecidableEq, Repr

/-- What keeps an address from being a place: the byte, within the field, of the first bit that must be 0
and is not (R42), a scratch offset out of range, and a range that leaves the partition; none of the three for
a reserved SPACE, or a range that leaves space 0x0. -/
structure AddrError where
  bits : Option Nat
  range : Bool
  outside : Bool
deriving DecidableEq, Repr

/-- The byte of the lowest bit set in a number of 64 bits. -/
def lowestByte (v : Nat) : Nat := ((List.range 8).find? fun k => v / 256 ^ k % 256 != 0).getD 8

/-- A function's space 0x2 reaches a core: its own cores for a virtual function; for the owner every
core, but none of a partition while isolation mode is on (R44, R404). -/
def State.reachesCore (s : State) (fn core : Nat) : Bool :=
  if fn = 0 then !(s.isolated && (s.partOfCore core).isSome) else s.hasCluster (fn - 1) (core / 8)

/-- The byte of the lowest bit set above bit `k` of an address's 60 bits, where these must be 0. -/
def highBits (addr k : Nat) : Option Nat :=
  let up := addr % 2 ^ 60 / 2 ^ k
  if up = 0 then none else some (lowestByte (up * 2 ^ k))

/-- A place, or what keeps the address from being one. -/
def placeOr (e : AddrError) (pl : Place) : Except AddrError Place :=
  if e = ⟨none, false, false⟩ then .ok pl else .error e

/-- Read a 64-bit device address naming a range of `n` bytes (R44). -/
def State.place (s : State) (fn addr n : Nat) : Except AddrError Place :=
  let sp := addr / 2 ^ 60
  let other : Except AddrError Place := .error ⟨none, false, false⟩
  if sp = 0 then
    if 2 ^ 60 < addr % 2 ^ 60 + n then other else .ok (.host (addr % 2 ^ 60))
  else if sp = 1 then
    placeOr ⟨highBits addr 48, false, decide (s.gddrSize fn < addr % 2 ^ 48 + n)⟩ (.gddr (addr % 2 ^ 48))
  else if sp = 2 then
    let core := addr / 2 ^ 22 % 256
    let off := addr % 2 ^ 22
    placeOr ⟨highBits addr 30, decide (0x300000 ≤ off ∨ 0x300000 < off + n), !s.reachesCore fn core⟩
      (.scratch core off)
  else other

/-- The place a number of bytes further on. -/
def placeAdd : Place → Nat → Place
  | .host a, n => .host (a + n)
  | .gddr o, n => .gddr (o + n)
  | .scratch c o, n => .scratch c (o + n)

/-- Read bytes at a place of a function. -/
def State.readAt (s : State) (fn : Nat) (p : Place) (n : Nat) : List Byte :=
  match p with
  | .host a => s.readHost a n
  | .gddr o => s.readGddr fn o n
  | .scratch c o => s.readScratch c o n

/-- Whether a range at a place holds poisoned or uncorrectable data (R290, R519). -/
def State.badAt (s : State) (fn : Nat) (p : Place) (n : Nat) : Bool :=
  match p with
  | .host _ => false
  | .gddr o => s.gddrBad fn o n
  | .scratch c o => (unitsOf (scratchKey c o) n).any fun u => (tabFind s.mem.scratchBad u).isSome

/-! ## The Bell's raise (R433, R440) -/

/-- The instance of a per-group Bell register: function and group of 32 sources (R442). -/
def bellInst (fn src : Nat) : Nat := fn * 32 + src / 32

/-- The pending bit of a source. -/
def State.bellP (s : State) (fn src : Nat) : Bool := bitOf (s.reg BEL_PENDING (bellInst fn src)) (src % 32)

/-- The active bit of a source. -/
def State.bellA (s : State) (fn src : Nat) : Bool := bitOf (s.reg BEL_ACTIVE (bellInst fn src)) (src % 32)

/-- Set the pending bit of a source. -/
def State.setBellP (s : State) (fn src : Nat) (b : Bool) : State :=
  s.setFld ⟨BEL_PENDING, src % 32, 1⟩ (bellInst fn src) b.toNat

/-- Set the active bit of a source. -/
def State.setBellA (s : State) (fn src : Nat) (b : Bool) : State :=
  s.setFld ⟨BEL_ACTIVE, src % 32, 1⟩ (bellInst fn src) b.toNat

/-- A raise reaches a source (R433): PENDING and REPEND merge it, ACTIVE becomes REPEND, IDLE becomes
PENDING if ENABLE is set and drops it otherwise; a reserved source never becomes pending (R432). -/
def State.bellRaise (s : State) (fn src : Nat) : State :=
  if !bellAssigned fn src then s
  else if s.bellP fn src then s.bump BEL_MERGED_COUNT fn
  else if s.bellA fn src then s.setBellP fn src true
  else if bitOf (s.reg BEL_ENABLE (bellInst fn src)) (src % 32) then s.setBellP fn src true
  else s.bump BEL_DROPPED_COUNT fn

/-- Whether a source is fed through a latch of the always-on domain (R440). -/
def bellLatched (fn src : Nat) : Bool :=
  fn == 0 && (decide (65 ≤ src ∧ src ≤ 68) || src == 70 || src == 72)

/-- A device event raises a source: while the control clock does not run, a latched source's event is
kept in its latch, later ones merged into it (R440). -/
def State.raise (s : State) (fn src : Nat) : State :=
  if bellLatched fn src && !s.clk.ccOn then
    let n := match tabFind s.bell.latches src with
      | some n => n + 1
      | none => 0
    { s with bell := { s.bell with latches := tabPut s.bell.latches src n } }
  else s.bellRaise fn src

/-! ## Violations and refusals (R35, R62, R398) -/

/-- A host protocol violation (R62): counted; the first since VIOL was cleared is kept with its value;
VIOL is set and the HCI violation source raised. -/
def State.hostViolation (s : State) (fn code value : Nat) : State :=
  let s := s.bump HCI_VIOL_COUNT_COUNT fn
  let s := if s.flag HCI_STATUS_VIOL fn then s
    else (s.setFld HCI_VIOL_CODE_CODE fn code).setFld HCI_VIOL_VALUE_VALUE fn value
  (s.setFld HCI_STATUS_VIOL fn 1).raise fn 64

/-- A refused ring write or enable (R35): the cause and ring of the first refusal since SETUP_ERR was
cleared are recorded, and SETUP_ERR is set. -/
def State.setupErr (s : State) (fn code ring : Nat) (isCq : Bool) : State :=
  let s := if s.flag HCI_STATUS_SETUP_ERR fn then s
    else ((s.setFld HCI_SETUP_ERR_CODE_CODE fn code).setFld HCI_SETUP_ERR_CODE_RING fn ring).setFld
      HCI_SETUP_ERR_CODE_IS_CQ fn isCq.toNat
  s.setFld HCI_STATUS_SETUP_ERR fn 1

/-- A refused partition write (R398): first cause and partition since SETUP_ERR was cleared. -/
def State.prtErr (s : State) (code p : Nat) : State :=
  let s := if s.flag PRT_STATUS_SETUP_ERR then s
    else (s.setFld PRT_SETUP_ERR_CODE_CODE 0 code).setFld PRT_SETUP_ERR_CODE_PART 0 p
  s.setFld PRT_STATUS_SETUP_ERR 0 1

/-! ## Status codes (R14) -/

abbrev stOK : Nat := 0x00
abbrev stOkEmpty : Nat := 0x01
abbrev stOkSkipped : Nat := 0x02
abbrev stOkPartial : Nat := 0x03
abbrev stOkRecomputed : Nat := 0x04
abbrev stTooLate : Nat := 0x10
abbrev stCancelled : Nat := 0x11
abbrev stTargetReset : Nat := 0x20
abbrev stRefused : Nat := 0x30
abbrev stNoPage : Nat := 0x31
abbrev stPartViolation : Nat := 0x32
abbrev stDataError : Nat := 0x40
abbrev stLinkError : Nat := 0x41
abbrev stInternal : Nat := 0x7F

/-- One failed check of a descriptor: its status, its AUX, and the violation it logs, if any. -/
structure Failed where
  status : Nat
  aux : Nat
  viol : Option (Nat × Nat)
deriving DecidableEq, Repr

/-- The check that decides the record: the highest status (R16). Among checks of one status the lowest
nonzero AUX is carried, and 0 where none gives one (DESIGN CHOICE, log entry 70: where no cause table of R521
orders them, the spec leaves open which AUX the record carries). -/
def worst : List Failed → Option Failed
  | [] => none
  | f :: fs => match worst fs with
    | none => some f
    | some g =>
      if g.status < f.status ∨ (g.status = f.status ∧ (g.aux = 0 ∨ (f.aux ≠ 0 ∧ f.aux ≤ g.aux))) then some f
      else some g

/-- The violation that is logged where several apply: the lowest code, then the lowest byte (R521). -/
def lowestViol (fs : List Failed) : Option (Nat × Nat) :=
  (fs.filterMap (·.viol)).foldl (fun a v => match a with
    | none => some v
    | some b => if v.1 < b.1 ∨ (v.1 = b.1 ∧ v.2 < b.2) then some v else some b) none

/-! ## Descriptors in flight (R38, R58, R61) -/

/-- The flights of a ring's descriptor index: at most one whose record may still be written, beside those
that a function-level reset muted (R28). -/
def State.flightsAt (s : State) (fn sq idx : Nat) : List Flight :=
  s.host.flights.filter fun f => f.fn == fn && f.sq == sq && f.idx == idx

/-- Change the flight with a fetch number. -/
def State.updFlight (s : State) (seq : Nat) (g : Flight → Flight) : State :=
  { s with host := { s.host with
      flights := s.host.flights.map fun f => if f.seq == seq then g f else f } }

/-- Remove the flight with a fetch number. -/
def State.dropFlight (s : State) (seq : Nat) : State :=
  { s with host := { s.host with flights := s.host.flights.filter fun f => f.seq != seq } }

/-- DRAINED of a ring: disabled, and none of its descriptors in flight (R34, R36). -/
def State.refreshDrained (s : State) (fn sq : Nat) : State :=
  let busy := s.host.flights.any fun f => f.fn == fn && f.sq == sq && !f.muted
  s.setFld (HCI_SQ_STATUS_DRAINED sq) fn (!(s.flag (HCI_SQ_CTRL_ENABLE sq) fn) && !busy).toNat

/-- The completion ring is full (R39). -/
def State.cqFull (s : State) (fn m : Nat) : Bool :=
  (s.reg (HCI_CQ_TAIL m) fn - s.reg (HCI_CQ_HEAD m) fn).toNat == 2 ^ s.fld (HCI_CQ_CTRL_SIZE_LOG2 m) fn

/-- FULL reads 1 while records wait because the ring is full (R34, R39). -/
def State.refreshFull (s : State) (fn m : Nat) : State :=
  let held := s.host.waiting.any fun r => r.fn == fn && r.cq == m
  s.setFld (HCI_CQ_STATUS_FULL m) fn (s.cqFull fn m && held).toNat

/-- The beat a record carries: 0 on an unsynchronised module (R59). -/
def State.endBeat (s : State) : Nat := if s.synced then s.beat else 0

/-- The internal code under which every operation of a function completes INTERNAL (R463): the root is
lost (0x01), a management core that serves the partition failed with no spare (0x02), or a security
engine failed its self-test (0x04). -/
def State.internalAux (s : State) (fn : Nat) : Option Nat :=
  if s.clk.lostRoot then some 0x01
  else if fn ≠ 0 ∧ tabGet false s.far.deadParts (fn - 1) then some 0x02
  else if fn ≠ 0 ∧ s.far.secDead then some 0x04
  else none

/-- The operation of a descriptor ends: its record joins those that wait (R59, R61); a muted one
leaves without a record (R28); on a module with an internal fault it is INTERNAL (R420, R463). -/
def State.finish (s : State) (f : Flight) (status aux detail : Nat) : State :=
  if f.muted then (s.dropFlight f.seq).refreshDrained f.fn f.sq
  else
    let (st, au) := match s.internalAux f.fn with
      | some c => (stInternal, c)
      | none => (status, aux)
    let r : Rec :=
      { fn := f.fn, cq := s.fld (HCI_SQ_CTRL_CQ_ID f.sq) f.fn, sq := f.sq, seq := some f.seq
        tag := fieldAt f.bytes 4 4, status := st, opcode := fieldAt f.bytes 0 1
        detail := detail, endBeat := s.endBeat, aux := au
        irq := (fieldAt f.bytes 1 1).testBit 1 }
    let s := s.updFlight f.seq fun g => { g with taken := true, started := true, finished := true }
    let s := { s with host := { s.host with waiting := s.host.waiting ++ [r] } }
    s.refreshFull r.fn r.cq

/-- What failed checks leave beside a record: the violation with the lowest code and, where
PARTITION_VIOLATION is among them, the partition's count (R401, R521). -/
def State.noteChecks (s : State) (fn : Nat) (fs : List Failed) : State :=
  let s := if (fs.any fun x => x.status == stPartViolation) && fn != 0
    then s.bump (PRT_VIOL_COUNT_COUNT (fn - 1)) else s
  match lowestViol fs with
  | some (c, v) => s.hostViolation fn c v
  | none => s

/-- The end of a descriptor that failed checks: nothing changed but the record, the violation and, for
PARTITION_VIOLATION, the partition's count (R16, R42, R401, R521). -/
def State.failDesc (s : State) (f : Flight) (fs : List Failed) : State :=
  match worst fs with
  | none => s.finish f stOK 0 0
  | some w => (s.noteChecks f.fn fs).finish f w.status w.aux 0

/-- An address check as failed checks of the descriptor field at byte `at_` (R42, R44, R62, R401). -/
def addrFailed (at_ : Nat) (e : AddrError) : List Failed :=
  (match e.bits with
    | some b => [⟨stRefused, 0, some (0x06, at_ + b)⟩]
    | none => []) ++
    (if e.range then [⟨stRefused, 0, some (0x06, at_)⟩] else []) ++
    (if e.outside then [⟨stPartViolation, at_, none⟩] else []) ++
    (if e.bits.isNone && !e.range && !e.outside then [⟨stRefused, 0, none⟩] else [])

end Sys2Proof.Machine
end

