-- ==== Sys2Proof/Machine/Alert.lean ====
section
/-! DEFINITION. The STATUS word of the management bus and its ALERT# line (spec/21 R505). -/

namespace Sys2Proof.Machine

/-- STATUS of the management bus (R505); bit 4 is the isolation of the on-module bus of R510 (DEDUCED, log
entry 56). -/
def State.smbStatus (s : State) : Nat :=
  (s.fld BOOT_STATUS_STAGE == 3).toNat + 2 * s.fld CLK_STATUS_VIN_WARN + 4 * s.fld CLK_STATUS_EMERG +
    8 * s.fld FAR_STATUS_REPLACE + 16 * s.fld MBS_STATUS_ISOLATED + 32 * s.fld MBS_STATUS_ID_BAD +
    64 * s.clk.trip.isSome.toNat

/-- The bits of STATUS whose change asserts ALERT#: 1, 2, 3, 4 and 6. -/
abbrev alertMask : Nat := 0x5E

/-- ALERT# is asserted where one of the watched bits has changed since it was last looked at. -/
def State.alertCheck (s : State) : State :=
  let now := s.smbStatus &&& alertMask
  if now = s.mbs.watched then s else { s with mbs := { s.mbs with alert := true, watched := now } }

end Sys2Proof.Machine
end

