-- ==== Sys2Proof/Machine/Shed.lean ====
section
/-! DEFINITION. The flash of the shed (spec/11 R298 to R304): the bytes of its pages and the keys they are under,
the wear its writes make, and what becomes of pages whose write a reset or the loss of power cuts off. -/

namespace Sys2Proof.Machine

/-- Bytes of a logical page. -/
abbrev pageSize : Nat := 16384

/-- The pages of the shed (R399). -/
abbrev shedPages : Nat := 976562500

/-- The absolute number of a function's page 0. -/
def State.shedBase (s : State) (fn : Nat) : Nat := if fn = 0 then 0 else s.fld (PRT_SHED_FIRST_PAGE (fn - 1))

/-- The draw of keys a function writes and reads shed pages under: 0 for the owner (R405). -/
def State.shedKey (s : State) (fn : Nat) : Nat := if fn = 0 then 0 else tabGet 0 s.parts.keys (fn - 1)

/-- The absolute number of a page of an operation. -/
def State.opPage (s : State) (o : ShedOp) (k : Nat) : Nat := s.shedBase o.fn + o.first + k

/-- What a page reads as to a function (R301, R399): zeros where no physical page is mapped, the bytes
written under its keys, unpredictable data otherwise. -/
def State.readShed (s : State) (fn pg : Nat) : List Byte :=
  match tabFind s.shed.maps pg with
  | none => List.replicate pageSize 0
  | some k =>
    if k = s.shedKey fn then readBytes (fun _ => 0) s.shed.bytes (pg * pageSize) pageSize
    else (List.range pageSize).map fun b => Config.foreignShedByte (s.shedKey fn) pg b

/-- The journal record of a page is committed (R302 step 6): the page reads new. -/
def State.commitPage (s : State) (o : ShedOp) (k : Nat) (bs : List Byte) : State :=
  let pg := s.opPage o k
  { s with shed := { s.shed with
    bytes := writeBytes s.shed.bytes (pg * pageSize) bs
    maps := tabPut s.shed.maps pg (s.shedKey o.fn)
    written := s.shed.written + 1 } }

/-- SHD_WEAR and OVER_BUDGET follow the pages that the host has written (R304). -/
def State.refreshWear (s : State) : State :=
  let bytes := s.shed.written * pageSize
  let budget := 8766 * 10 ^ 12
  let s := s.setFld SHD_WEAR_USED 0 (min (bytes * 10000 / budget) 0xFFFF)
  s.setFld SHD_MODULE_OVER_BUDGET 0 (decide (budget < bytes)).toNat

/-- The step of R302 that a page of a write has reached, and the bytes staged. -/
def ShedOp.staging (o : ShedOp) (k : Nat) : Nat × List Byte :=
  match o.staged.find? (·.1 == k) with
  | some x => x.2
  | none => (0, [])

/-- Every page past step 2 is carried through to step 6; those at step 1 are dropped (R303). -/
def State.commitStaged (s : State) : State :=
  s.shed.ops.foldl (fun (s : State) o =>
    o.staged.foldl (fun (s : State) x => if 2 ≤ x.2.1 then s.commitPage o x.1 x.2.2 else s) s) s

end Sys2Proof.Machine
end

