-- ==== Sys2Proof/Machine/ModuleReset.lean ====
section
/-! DEFINITION. What a module reset or the loss of every regulator clears and keeps (spec/18 R443,
spec/16 R426 and R429). -/

namespace Sys2Proof.Machine

/-- What outlives the loss of the volatile state `s`, put over a fresh state `r` (R443): the always-on
domain (the latches of R440, the trip record, BOOT_LAST), the boot flash and fuses, the flash of the shed with its
spare blocks and its wear (R304), the wear history (settings class 0x8001), the identity EEPROM and the straps; host memory and what has
left the module are outside it (DEDUCED, log entry 13). -/
def State.keepFrom (r s : State) : State :=
  let t : State := { r with
    host := { r.host with mem := s.host.mem, msgs := s.host.msgs, lastRead := s.host.lastRead }
    bell := { r.bell with latches := s.bell.latches }
    clk := { r.clk with trip := s.clk.trip }
    boot := { s.boot with inReset := true, install := none }
    far := { r.far with scores := s.far.scores }
    shed := { r.shed with bytes := s.shed.bytes, maps := s.shed.maps, written := s.shed.written }
    parts := { r.parts with draws := s.parts.draws }
    mbs := { r.mbs with
      alert := s.mbs.alert, watched := s.mbs.watched, identity := s.mbs.identity, perst := s.mbs.perst
      straps := s.mbs.straps }
    freeCount := s.freeCount
    pending := s.pending }
  let t := (t.setReg BOOT_LAST 0 (s.reg BOOT_LAST)).setReg SHD_SPARE_BLOCKS 0 (s.reg SHD_SPARE_BLOCKS)
  (t.setReg SHD_MODULE 0 (s.reg SHD_MODULE)).setReg SHD_WEAR 0 (s.reg SHD_WEAR)

/-- The module with its volatile state gone. -/
def State.blank (s : State) : State := State.reset.keepFrom s

/-- A module reset for a cause (R443): CAUSE, ROLLED_BACK for a rollback (R455), TRIP_DIE for a trip. The shed's
channels are reset with the rest, so that pages past step 2 of a write are carried through (R303). -/
def State.moduleReset (s : State) (cause : Nat) : State :=
  let die := if cause = 5 then s.clk.trip.getD 0 else 0
  let s := s.commitStaged.blank.setReg BOOT_LAST 0
    (BitVec.ofNat 32 (cause + (if cause = 6 then 16 else 0) + die * 32))
  (s.setFld MBS_TARGET_ADDR 0 (0x58 + s.mbs.straps)).alertCheck

/-- Every regulator goes off (R426, R429): nothing runs until the next start-up; the target of the
management bus does not answer. -/
def State.powerCut (s : State) : State :=
  let t := s.blank
  { t with clk := { t.clk with off := true } }

end Sys2Proof.Machine
end

