-- ==== Sys2Proof/Machine/Loft.lean ====
section
/-! DEFINITION. The Lofts (spec/10 R263 to R270) and the map of GDDR onto channels (spec/11 R288): the
home of a line, its ways, victims, write-backs and writes, and the limit of each path. Memory itself
holds what a read returns; a Loft keeps what GDDR holds of each dirty sector beside it. -/

namespace Sys2Proof.Machine

/-! ## Where a line lies (R264, R288) -/

/-- The channel and the local line, from BASE, of line `l` over a set of channels (R288). -/
def chanMap (cs : List Nat) (l : Nat) : Nat × Nat :=
  let q := l / cs.length
  let h := q ^^^ (q / 2 ^ 5) ^^^ (q / 2 ^ 13)
  (cs.getD ((l % cs.length + h) % cs.length) 0, q)

/-- The channels that an owner's space lies on: all 24 for the owner region (R399). -/
def State.ownerChans (s : State) (owner : Nat) : List Nat :=
  if owner = 0 then List.range 24 else s.channelsOf (owner - 1)

/-- The channel of a line of an owner's space. -/
def State.channelOf (s : State) (owner l : Nat) : Nat := (chanMap (s.ownerChans owner) l).1

/-- The home cluster and set of a line of a partition (R264). -/
def State.homeOf (s : State) (p l : Nat) : Nat × Nat :=
  let cs := s.clustersOf p
  (cs.getD ((l ^^^ (l / 2 ^ 11) ^^^ (l / 2 ^ 23)) % cs.length) 0, (l ^^^ (l / 2 ^ 10)) % 1024)

/-- The number of a line among all owners' lines. -/
def lineKey (owner l : Nat) : Nat := owner * 2 ^ 38 + l

/-- The number of a sector of a line among all owners' sectors. -/
def sectorKey (line k : Nat) : Nat := line * 16 + k

/-- The sectors of a mask. -/
def sectorsOf (mask : Nat) : List Nat := (List.range 16).filter fun k => mask.testBit k

/-- A channel is in reset (R295, R458). -/
def State.chanDown (s : State) (n : Nat) : Bool := s.flag GDR_STATUS_IN_RESET n

/-- A cluster is in reset (R458). -/
def State.clusterDown (s : State) (c : Nat) : Bool := (s.reg BOOT_INRESET_CLU).toNat.testBit c

/-- The lines that a byte range touches. -/
def linesOf (off n : Nat) : List Nat :=
  if n = 0 then [] else (List.range ((off + n - 1) / 1024 - off / 1024 + 1)).map (· + off / 1024)

/-- Requests to some line of a range complete TARGET_RESET: its channel or its home Loft is in reset
(R283, R284). -/
def State.gddrDown (s : State) (owner off n : Nat) : Bool :=
  (linesOf off n).any fun l =>
    s.chanDown (s.channelOf owner l) || (owner != 0 && s.clusterDown (s.homeOf (owner - 1) l).1)

/-- Whether requests to a range at a place complete TARGET_RESET. -/
def State.placeDown (s : State) (fn : Nat) (p : Place) (n : Nat) : Bool :=
  match p with
  | .host _ => false
  | .gddr o => s.gddrDown fn o n
  | .scratch c _ => s.clusterDown (c / 8)

/-! ## The ways of a set (R265 to R267) -/

/-- The lines of a set of a cluster's Loft. -/
def State.loftLines (s : State) (c set : Nat) : List LoftLine := tabGet [] s.loft.sets (c * 1024 + set)

/-- Give a set its lines. -/
def State.setLoftLines (s : State) (c set : Nat) (ls : List LoftLine) : State :=
  { s with loft := { s.loft with sets := tabSet [] s.loft.sets (c * 1024 + set) ls } }

/-- The ways in use, of 16 and the spare (R270, R285). -/
def State.activeWays (s : State) (c : Nat) : List Nat :=
  (List.range 17).filter fun w => (s.fld LFT_WAYS_ACTIVE c).testBit w

/-- The Loft hint of a NEXT_USE value: that many of the core's previous iterations (R266). -/
def useHint (nextUse prevCc : Nat) : Option Nat :=
  if 0xFFFFFFFF ≤ nextUse then none else some (nextUse * max 1 (min 65535 prevCc))

/-- A line's DUE after a touch with a hint in core clocks (R266). -/
def State.dueOf (s : State) (hint : Option Nat) : Option Nat :=
  match hint with
  | none => none
  | some d => if 2 ^ 63 < s.loft.now + d then none else some (s.loft.now + d)

/-- The first element of least key. -/
def leastBy {α : Type} (key : α → Nat) : List α → Option α
  | [] => none
  | x :: xs => match leastBy key xs with
    | none => some x
    | some y => if key y < key x then some y else some x

/-- The victim of a set: the way and the class of R267 it comes from. `busy` says which lines have a
fill or write-back in progress. -/
def victimOf (lines : List LoftLine) (ways : List Nat) (busy : Nat → Bool) (now stale : Nat) :
    Option (Nat × Nat) :=
  let free := ways.filter fun w => !lines.any fun l => l.way == w
  let cand := lines.filter fun l => ways.contains l.way && !busy l.line
  let none2 := cand.filter fun l => l.due.isNone
  let stale3 := cand.filter fun l => match l.due with
    | some d => decide (d + stale < now)
    | none => false
  match leastBy id free with
  | some w => some (w, 1)
  | none => match leastBy (fun l => (if l.dirty = 0 then 0 else 32) + l.way) none2 with
    | some l => some (l.way, 2)
    | none => match leastBy (fun l => l.due.getD 0 * 32 + l.way) stale3 with
      | some l => some (l.way, 3)
      | none => (leastBy (fun l => (2 ^ 64 - l.due.getD 0) * 32 + l.way) cand).map fun l => (l.way, 4)

/-- A fill of the line is on its way, or waits at its path's limit. -/
def State.lineBusy (s : State) (line : Nat) : Bool :=
  s.loft.fills.any (·.line == line) || s.loft.waiting.any (·.fill.line == line)

/-- Count sectors read from or written to a channel. -/
def State.countGddr (s : State) (chan n : Nat) (write : Bool) : State :=
  if n = 0 then s else s.bump64 (if write then GDR_WR_LO else GDR_RD_LO) chan n

/-- The sectors of each line that a byte range touches. -/
def lineMasks (off n : Nat) : List (Nat × Nat) :=
  (linesOf off n).map fun l => (l, ((List.range 16).filter fun k =>
    overlaps off n (l * 1024 + 64 * k) 64).foldl (fun m k => m + 2 ^ k) 0)

/-- Corrected and uncorrectable sectors of an owner on a channel are counted (R290, R410). -/
def State.countEcc (s : State) (chan owner ce ue : Nat) : State :=
  let s := if ce = 0 then s else s.bump GDR_ECC_CE chan ce
  let s := if ue = 0 then s else (s.bump GDR_ECC_UE chan ue).setFld GDR_STATUS_UE chan 1
  { s with gddrs := { s.gddrs with
    ecc := tabModify (0, 0) s.gddrs.ecc (chan * 64 + owner) fun x => (x.1 + ce, x.2 + ue) } }

/-- Sectors of a line of an owner's space are read from GDDR: counted, and every uncorrectable one among them is
counted again (R290). -/
def State.readSectors (s : State) (owner l mask : Nat) : State :=
  let chan := s.channelOf owner l
  let s := s.countGddr chan (sectorsOf mask).length false
  let ue := (sectorsOf mask).filter fun k => tabFind s.mem.bad (sectorKey (lineKey owner l) k) == some false
  if ue.isEmpty then s else s.countEcc chan owner 0 ue.length

/-- The channel of a line by its number. -/
def State.chanOfKey (s : State) (line : Nat) : Nat := s.channelOf (line / 2 ^ 38) (line % 2 ^ 38)

/-- The dirty sectors of a line are written back to GDDR (R267, R268); poison goes with them (R291). -/
def State.writeBack (s : State) (c : Nat) (l : LoftLine) : State :=
  let n := (sectorsOf l.dirty).length
  let s := if n = 0 then s else s.bump LFT_WRITEBACKS_COUNT c n
  let s := { s with loft := { s.loft with
    stale := (sectorsOf l.dirty).foldl (fun t k => tabDel t (sectorKey l.line k)) s.loft.stale } }
  s.countGddr (s.chanOfKey l.line) n true

/-- A sector's content becomes what GDDR holds of it. -/
def State.restoreStale (s : State) (k : Nat) : State :=
  match tabFind s.loft.stale k with
  | none => s
  | some bs =>
    let bad := match (bs.drop 64).head? with
      | some 1 => tabPut s.mem.bad k true
      | some 2 => tabPut s.mem.bad k false
      | _ => tabDel s.mem.bad k
    { s with
      mem := { s.mem with gddr := writeListed s.mem.gddr (k * 64) (bs.take 64), bad := bad }
      loft := { s.loft with stale := tabDel s.loft.stale k } }

/-- A way is emptied of its line, written back first, and counted under its class (R285). -/
def State.evict (s : State) (c set way cls : Nat) : State :=
  match (s.loftLines c set).find? (·.way == way) with
  | none => s
  | some l =>
    let s := s.writeBack c l
    let s := s.setLoftLines c set ((s.loftLines c set).filter (·.way != way))
    match cls with
    | 2 => s.bump LFT_EVICT_NONE_COUNT c
    | 3 => s.bump LFT_EVICT_STALE_COUNT c
    | 4 => s.bump LFT_EVICT_FAR_COUNT c
    | _ => s

/-- A line is allocated in its set, empty; none where the set holds no candidate (R267). -/
def State.allocate (s : State) (c set line : Nat) (due : Option Nat) : Option State :=
  match victimOf (s.loftLines c set) (s.activeWays c) s.lineBusy s.loft.now (s.fld LFT_CFG_STALE_CC c) with
  | none => none
  | some (w, cls) =>
    let s := s.evict c set w cls
    some (s.setLoftLines c set (⟨w, line, 0, 0, due⟩ :: s.loftLines c set))

/-- Change the line of a set that has a number. -/
def State.updLine (s : State) (c set line : Nat) (f : LoftLine → LoftLine) : State :=
  s.setLoftLines c set ((s.loftLines c set).map fun l => if l.line == line then f l else l)

/-- The line is held in its home set. -/
def State.holds (s : State) (c set line : Nat) : Bool := (s.loftLines c set).any (·.line == line)

/-! ## Writes (R268) -/

/-- Keep what GDDR holds of a sector that turns dirty. -/
def State.keepStale (s : State) (owner off : Nat) : State :=
  let k := gddrKey owner off / 64
  if (tabFind s.loft.stale k).isSome then s
  else
    let bad : Byte := match tabFind s.mem.bad k with
      | some true => 1
      | some false => 2
      | none => 0
    { s with loft := { s.loft with stale := tabPut s.loft.stale k (s.readGddr owner off 64 ++ [bad]) } }

/-- A write around the Loft makes the pending fills of its sector stale (R327). -/
def State.staleFills (s : State) (line sec : Nat) : State :=
  let mark := fun f : Fill => if f.line == line && f.mask.testBit sec then { f with stale := true } else f
  { s with loft := { s.loft with
      fills := s.loft.fills.map mark
      waiting := s.loft.waiting.map fun h => { h with fill := mark h.fill } } }

/-- A line's sectors become dirty, or only valid. -/
def State.fillLine (s : State) (c set line mask : Nat) (due : Option Nat) (dirty : Bool) : State :=
  s.updLine c set line fun x =>
    { x with valid := x.valid ||| mask, dirty := if dirty then x.dirty ||| mask else x.dirty, due := due }

/-- A request whose set holds no candidate waits (R267). -/
def State.waitSet (s : State) (c : Nat) (w : SetWait) : State :=
  let s := s.bump LFT_SET_BUSY_COUNT c
  { s with loft := { s.loft with setWait := s.loft.setWait ++ [w] } }

/-- What the Loft does when a 64-byte sector of a partition is written (R268): a held line is updated;
else a line is allocated without a fetch, unless the write carries DUE = NONE: then it goes straight to GDDR.
Where the set holds no candidate the write waits (R267); a read returns what it writes (log entry 85). The bytes
are written by the caller. -/
def State.loftWrite (s : State) (p off : Nat) (hint : Option Nat) : State :=
  let l := off / 1024
  let sec := off % 1024 / 64
  let line := lineKey (p + 1) l
  let (c, set) := s.homeOf p l
  let due := s.dueOf hint
  let dirty := fun s : State => (s.keepStale (p + 1) off).fillLine c set line (2 ^ sec) due true
  let around := fun s : State =>
    (((s.bump LFT_WRITE_AROUND_COUNT c).staleFills line sec).countGddr (s.channelOf (p + 1) l) 1 true)
  if s.holds c set line then dirty s
  else match due with
    | none => around s
    | some _ => match s.allocate c set line due with
      | some t => dirty t
      | none => (s.keepStale (p + 1) off).waitSet c ⟨p, l, 2 ^ sec, hint, true, none⟩

/-- Write whole sectors of an owner's GDDR (R264, R268, R291): a partition's through the home Loft of
each line, the owner's straight to its channel. `hint` is the DUE hint (R266). -/
def State.writeMem (s : State) (owner off : Nat) (bs : List Byte) (hint : Option Nat := none) : State :=
  let secs := (unitsOf off bs.length).map (· * 64)
  let s := secs.foldl (fun s o =>
    if owner = 0 then s.countGddr (s.channelOf 0 (o / 1024)) 1 true else s.loftWrite (owner - 1) o hint) s
  s.writeGddr owner off bs

/-- Write bytes at a place of a function. -/
def State.writeAt (s : State) (fn : Nat) (p : Place) (bs : List Byte) : State :=
  match p with
  | .host a => s.writeHost a bs
  | .gddr o => s.writeMem fn o bs
  | .scratch c o => s.writeScratch c o bs

/-! ## Reads (R264, R265, R267) -/

/-- The sectors of a line that a fill is already on its way for. -/
def State.pendingMask (s : State) (line : Nat) : Nat :=
  let a := (s.loft.fills.filter (·.line == line)).foldl (fun m f => m ||| f.mask) 0
  (s.loft.waiting.filter (·.fill.line == line)).foldl (fun m h => m ||| h.fill.mask) a

/-- A unit reads sectors of a line of a partition through its home Loft, within its command: hits and misses are
counted, the missing sectors fetched and kept, and DUE set (log entry 85: such a read takes no time, so it holds no
request of a path). -/
def State.readLine (s : State) (p l mask : Nat) (hint : Option Nat) : State :=
  let line := lineKey (p + 1) l
  let (c, set) := s.homeOf p l
  let due := s.dueOf hint
  let valid := (((s.loftLines c set).find? (·.line == line)).map (·.valid)).getD 0
  let hits := mask &&& valid
  let miss := mask - hits
  let s := if hits = 0 then s else s.bump64 LFT_HITS_LO c (sectorsOf hits).length
  if miss = 0 then s.fillLine c set line 0 due false
  else
    let s := s.bump64 LFT_MISSES_LO c (sectorsOf miss).length
    let s := s.readSectors (p + 1) l (miss - (miss &&& s.pendingMask line))
    if s.holds c set line then s.fillLine c set line miss due false
    else match s.allocate c set line due with
      | some t => t.fillLine c set line miss due false
      | none => s.waitSet c ⟨p, l, miss, hint, false, none⟩

/-- A unit reads a range at a place of a function: GDDR of a partition through the home Loft of each line, the
owner's straight from its channel (R264, R399). -/
def State.touch (s : State) (fn : Nat) (pl : Place) (n : Nat) (hint : Option Nat := none) : State :=
  match pl with
  | .gddr o => (lineMasks o n).foldl (fun (s : State) x =>
      if fn = 0 then s.readSectors 0 x.1 x.2 else s.readLine (fn - 1) x.1 x.2 hint) s
  | _ => s

/-! ## Dropping lines (R270, R284, R402) -/

/-- The sets of a cluster's Loft that hold a line. -/
def State.loftSets (s : State) (c : Nat) : List Nat :=
  (s.loft.sets.filter fun e => e.1 / 1024 == c).map fun e => e.1 % 1024

/-- Drop the lines of a Loft that satisfy `p` without writing them back; the sectors lost are counted
in LFT_RESET_DROPS if `count` (R270, R284). -/
def State.dropLines (s : State) (c : Nat) (count : Bool) (p : LoftLine → Bool) : State :=
  (s.loftSets c).foldl (fun s set =>
    let gone := (s.loftLines c set).filter p
    if gone.isEmpty then s
    else
      let s := s.setLoftLines c set ((s.loftLines c set).filter fun l => !p l)
      gone.foldl (fun s l =>
        let ks := sectorsOf l.dirty
        let s := if count && !ks.isEmpty then s.bump LFT_RESET_DROPS_COUNT c ks.length else s
        (sectorsOf l.valid).foldl (fun s k => s.restoreStale (sectorKey l.line k)) s) s) s

/-- The dirty sectors of a Loft's lines that satisfy `p`. -/
def State.dirtyCount (s : State) (c : Nat) (p : LoftLine → Bool) : Nat :=
  (s.loftSets c).foldl (fun n set =>
    ((s.loftLines c set).filter p).foldl (fun n l => n + (sectorsOf l.dirty).length) n) 0

/-! ## Requests in flight (R262, R263, R409) -/

/-- The requests of a partition in flight on a die's GDDR. -/
def State.inFlight (s : State) (die p : Nat) : Nat := tabGet 0 s.loft.inFlight (die * 64 + p)

/-- The epoch of a GDDR channel, of a cluster, of a shed channel, of a die (R457). -/
def State.chanEpoch (s : State) (n : Nat) : Nat := getBits (s.reg (BOOT_EPOCH_GDR (n / 4))) (8 * (n % 4)) 8
def State.cluEpoch (s : State) (c : Nat) : Nat := getBits (s.reg (BOOT_EPOCH_CLU (c / 4))) (8 * (c % 4)) 8

/-- How many more requests a partition may put in flight on a die's GDDR: within its quota (R409) and
the die's 16,384 (R262). -/
def State.pathRoom (s : State) (die p : Nat) : Nat :=
  let all := (List.range 32).foldl (fun n q => n + s.inFlight die q) 0
  min (s.fld (PRT_INFLIGHT_GDDR p) - s.inFlight die p) (16384 - all)

/-- The lowest `n` sectors of a mask, as a mask. -/
def lowSectors (mask n : Nat) : Nat := ((sectorsOf mask).take n).foldl (fun m k => m + 2 ^ k) 0

/-- Requests for sectors are issued: those the path's limit admits go out, the others wait in the order
of issue, behind those that wait already (R263). -/
def State.request (s : State) (p : Nat) (f : Fill) : State :=
  let die := s.chanOfKey f.line / 6
  let room := if s.loft.waiting.any fun h => h.path == die && h.part == p then 0 else s.pathRoom die p
  let now := lowSectors f.mask room
  let later := f.mask - now
  let n := (sectorsOf now).length
  let s := if now = 0 then s else { s with loft := { s.loft with
    fills := s.loft.fills ++ [{ f with mask := now }]
    inFlight := tabSet 0 s.loft.inFlight (die * 64 + p) (s.inFlight die p + n) } }
  if later = 0 then s
  else { s with loft := { s.loft with waiting := s.loft.waiting ++ [⟨die, p, { f with mask := later }⟩] } }

/-- Requests that waited for a candidate in their set are tried again, in order (R267, R269). -/
def State.retrySets (s : State) : State :=
  s.loft.setWait.foldl (fun (s : State) w =>
    let line := lineKey (w.part + 1) w.line
    let (c, set) := s.homeOf w.part w.line
    let due := s.dueOf w.hint
    let go := fun t : State =>
      let t := { t with loft := { t.loft with setWait := t.loft.setWait.erase w } }
      match w.fetch with
      | some step => t.request w.part
          ⟨line, w.mask - (w.mask &&& t.pendingMask line), due, false, false, false, step,
            t.chanEpoch (t.chanOfKey line)⟩
      | none => t.fillLine c set line w.mask due w.write
    if s.holds c set line then go s
    else match s.allocate c set line due with
      | some t => go t
      | none => s) s

end Sys2Proof.Machine
end

