-- ==== Sys2Proof/Machine/Fp.lean ====
section
/-! DEFINITION. Number formats, exact arithmetic and the one rounding of every unit that narrows a
value (spec/04 R97 to R102, R106, R108, R111 to R113), and binary32 arithmetic (spec/05 R120). -/

namespace Sys2Proof.Machine

/-- A decoded element: NaN, an infinity, or a finite value ±m × 2^e (signed zeros have m = 0). -/
inductive Fv where
  | nan
  | inf (neg : Bool)
  | fin (neg : Bool) (m : Nat) (e : Int)
deriving DecidableEq, Repr

/-- No event. -/
def noFlags : Flags := ⟨false, false, false, 0⟩

/-- The events of either. -/
def orFlags (a b : Flags) : Flags := ⟨a.ovf || b.ovf, a.nf || b.nf, a.sat || b.sat, a.dom + b.dom⟩

/-- Arithmetic that raises flag events. -/
abbrev FM := StateM Flags

/-- Count an SFU input outside its domain. -/
def raiseDom : FM Unit := modify fun f => { f with dom := f.dom + 1 }

/-- Raise the overflow event. -/
def raiseOvf : FM Unit := modify fun f => { f with ovf := true }

/-- An element format (R97, R98, R100): significand bits with the hidden one, the exponent of the
smallest subnormal, the magnitude code of the largest finite value, whether it has infinities and
overflows to them (R108), whether it has a sign bit, and its width. -/
structure Fmt where
  p : Nat
  emin : Int
  maxCode : Nat
  ieee : Bool
  signed : Bool
  bits : Nat
deriving DecidableEq, Repr

def fmtFP32 : Fmt := ⟨24, -149, 0x7F7FFFFF, true, true, 32⟩
def fmtBF16 : Fmt := ⟨8, -133, 0x7F7F, true, true, 16⟩
def fmtFP16 : Fmt := ⟨11, -24, 0x7BFF, true, true, 16⟩
def fmtE4M3 : Fmt := ⟨4, -9, 0x7E, false, true, 8⟩
def fmtE5M2 : Fmt := ⟨3, -16, 0x7B, true, true, 8⟩
def fmtE3M2 : Fmt := ⟨3, -4, 0x1F, false, true, 6⟩
def fmtE2M3 : Fmt := ⟨4, -3, 0x1F, false, true, 6⟩
def fmtE2M1 : Fmt := ⟨2, -1, 0x7, false, true, 4⟩
def fmtUE5M3 : Fmt := ⟨4, -17, 0xFE, false, false, 8⟩

/-- The element format of a FORMAT code (R65). -/
def fmtOf (code : Nat) : Option Fmt :=
  match code with
  | 1 => some fmtFP32 | 2 => some fmtBF16 | 3 => some fmtFP16 | 4 => some fmtE4M3
  | 5 => some fmtE5M2 | 6 => some fmtE3M2 | 7 => some fmtE2M3 | 8 => some fmtE2M1
  | 9 => some fmtUE5M3 | _ => none

/-- Bits per element of a FORMAT code (R65). -/
def bitsOfFormat (code : Nat) : Nat :=
  if code = 10 then 32 else match fmtOf code with
    | some f => f.bits
    | none => 0

/-- Formats 0x04–0x09 are block-scaled (R65). -/
def blockScaled (code : Nat) : Bool := decide (4 ≤ code ∧ code ≤ 9)

/-- The value of an element code (R97, R98, R100, R101). -/
def Fmt.decode (f : Fmt) (c : Nat) : Fv :=
  let neg := f.signed && c.testBit (f.bits - 1)
  let mag := if f.signed then c % 2 ^ (f.bits - 1) else c
  if f.maxCode < mag then (if f.ieee && mag == f.maxCode + 1 then .inf neg else .nan)
  else
    let field := mag / 2 ^ (f.p - 1)
    let frac := mag % 2 ^ (f.p - 1)
    if field = 0 then .fin neg frac f.emin
    else .fin neg (2 ^ (f.p - 1) + frac) (f.emin + (field : Int) - 1)

/-- The canonical NaN code (R102); 0 for the formats whose NaN is the block scale. -/
def nanCode (format : Nat) : Nat :=
  match format with
  | 1 => 0x7FC00000 | 2 => 0x7FC0 | 3 => 0x7E00 | 4 => 0x7F | 5 => 0x7E | 9 => 0xFF | _ => 0

/-! ## Exact values -/

/-- A fraction times a power of two, the exponent moved into numerator or denominator. -/
def shiftFrac (n d : Nat) (k : Int) : Nat × Nat :=
  if 0 ≤ k then (n * 2 ^ k.toNat, d) else (n, d * 2 ^ (-k).toNat)

/-- ⌊log₂ (n / d)⌋ for n, d > 0. -/
def floorLog2 (n d : Nat) : Int :=
  let k : Int := (Nat.log2 n : Int) - (Nat.log2 d : Int)
  let (a, b) := shiftFrac d 1 k
  if a ≤ n * b then k else k - 1

/-- Whether n₁/d₁ × 2^e₁ ≤ n₂/d₂ × 2^e₂. -/
def fracLe (n1 d1 : Nat) (e1 : Int) (n2 d2 : Nat) (e2 : Int) : Bool :=
  let (a, b) := shiftFrac n1 d1 (e1 - e2)
  decide (a * d2 ≤ n2 * b)

/-- A rounding mode (R107), stochastic rounding with its drawn word (R113). -/
inductive Rnd where
  | rne
  | rz
  | sr (word : Nat)
deriving DecidableEq, Repr

/-- The magnitude code that a positive n/d × 2^e rounds to with an unbounded exponent, and whether it
was rounded up: the spacing is u, the subnormal spacing below the smallest normal (R113). -/
def Fmt.roundCode (f : Fmt) (r : Rnd) (n d : Nat) (e : Int) : Nat × Bool :=
  let u := max (floorLog2 n d + e - ((f.p : Int) - 1)) f.emin
  let (a, b) := shiftFrac n d (e - u)
  let q := a / b
  let rem := a % b
  let up := match r with
    | .rne => decide (b < 2 * rem) || (decide (2 * rem = b) && q % 2 == 1)
    | .rz => false
    | .sr w => decide (2 ^ 24 ≤ rem * 2 ^ 24 / b + w % 2 ^ 24)
  ((u - f.emin).toNat * 2 ^ (f.p - 1) + q + up.toNat, up)

/-- Whether n/d × 2^e lies beyond the largest finite value. -/
def Fmt.beyond (f : Fmt) (n d : Nat) (e : Int) : Bool :=
  match f.decode f.maxCode with
  | .fin _ m x => !fracLe n d e m 1 x
  | _ => false

/-- Narrow a finite magnitude n/d × 2^e (R108, R113): its magnitude code and flag events. R113 gives no
spacing u at magnitudes of 2^(E_MAX + 1) or more: a stochastic draw there uses the spacing of an unbounded
exponent (DESIGN CHOICE, log entry 75). -/
def Fmt.narrowMag (f : Fmt) (r : Rnd) (n d : Nat) (e : Int) : Nat × Flags :=
  if n = 0 then (0, noFlags)
  else
    let (c, up) := f.roundCode r n d e
    if f.ieee then
      match r with
      | .rne => if f.maxCode < c then (f.maxCode + 1, ⟨true, true, false, 0⟩) else (c, noFlags)
      | .rz => if f.beyond n d e then (f.maxCode, ⟨true, false, false, 0⟩) else (c, noFlags)
      | .sr _ =>
        if f.beyond n d e then
          if up then (f.maxCode + 1, ⟨true, true, false, 0⟩) else (f.maxCode, ⟨true, false, false, 0⟩)
        else if f.maxCode < c then (f.maxCode + 1, ⟨true, true, false, 0⟩) else (c, noFlags)
    else if f.beyond n d e then (f.maxCode, ⟨false, false, true, 0⟩)
    else (c, noFlags)

/-- Put the sign on a magnitude code. -/
def Fmt.sign (f : Fmt) (neg : Bool) (mag : Nat) : Nat :=
  if f.signed && neg then mag + 2 ^ (f.bits - 1) else mag

/-- Narrow any value into a format without block scales (R102, R106, R108, R115). -/
def narrowPlain (format : Nat) (r : Rnd) (v : Fv) : Nat × Flags :=
  match fmtOf format with
  | none => (0, noFlags)
  | some f => match v with
    | .nan => (nanCode format, ⟨false, true, false, 0⟩)
    | .inf s => (f.sign s (f.maxCode + 1), ⟨false, true, false, 0⟩)
    | .fin s m e =>
      let (c, fl) := f.narrowMag r m 1 e
      (f.sign s c, fl)

/-! ## Binary32 arithmetic, rounded to nearest even (R120) -/

/-- The value of FP32 bits. -/
def dec32 (w : Word) : Fv := fmtFP32.decode w.toNat

/-- The canonical NaN of FP32 (R102). -/
def nan32 : Word := 0x7FC00000

/-- ±0 and ±∞ in FP32. -/
def zero32 (neg : Bool) : Word := if neg then 0x80000000 else 0
def inf32 (neg : Bool) : Word := if neg then 0xFF800000 else 0x7F800000

/-- Round an exact n/d × 2^e with a sign to FP32 RNE, raising overflow where a finite result becomes
infinite (R108, R115). -/
def round32 (neg : Bool) (n d : Nat) (e : Int) : FM Word := do
  let (c, fl) := fmtFP32.narrowMag .rne n d e
  if fl.ovf then raiseOvf
  return BitVec.ofNat 32 (fmtFP32.sign neg c)

/-- An exact sum of signed dyadics. -/
def dyAdd (a b : Int × Int) : Int × Int :=
  let e := min a.2 b.2
  (a.1 * 2 ^ (a.2 - e).toNat + b.1 * 2 ^ (b.2 - e).toNat, e)

/-- A signed dyadic of a finite value. -/
def dyOf (neg : Bool) (m : Nat) (e : Int) : Int × Int := (if neg then -(m : Int) else m, e)

/-- Round a signed dyadic to FP32; `z` is the sign of an exact zero. -/
def roundDy (a : Int × Int) (z : Bool) : FM Word :=
  if a.1 = 0 then return zero32 z else round32 (decide (a.1 < 0)) a.1.natAbs 1 a.2

/-- The exact sum of two values rounded once; an exact zero is +0 unless both addends are −0. -/
def sumV (x y : Fv) : FM Word :=
  match x, y with
  | .nan, _ => return nan32
  | _, .nan => return nan32
  | .inf s, .inf t => return if s == t then inf32 s else nan32
  | .inf s, _ => return inf32 s
  | _, .inf t => return inf32 t
  | .fin s m e, .fin t n f => roundDy (dyAdd (dyOf s m e) (dyOf t n f)) (m == 0 && n == 0 && s && t)

/-- The exact product of two values. -/
def mulV (x y : Fv) : Fv :=
  match x, y with
  | .nan, _ => .nan
  | _, .nan => .nan
  | .inf s, .inf t => .inf (s != t)
  | .inf s, .fin t n _ => if n = 0 then .nan else .inf (s != t)
  | .fin s m _, .inf t => if m = 0 then .nan else .inf (s != t)
  | .fin s m e, .fin t n f => .fin (s != t) (m * n) (e + f)

/-- Flip the sign of a value. -/
def negV : Fv → Fv
  | .nan => .nan
  | .inf s => .inf (!s)
  | .fin s m e => .fin (!s) m e

def add32 (a b : Word) : FM Word := sumV (dec32 a) (dec32 b)
def sub32 (a b : Word) : FM Word := sumV (dec32 a) (negV (dec32 b))

/-- Round any exact value to FP32. -/
def roundV (v : Fv) : FM Word :=
  match v with
  | .nan => return nan32
  | .inf s => return inf32 s
  | .fin s m e => if m = 0 then return zero32 s else round32 s m 1 e

def mul32 (a b : Word) : FM Word := roundV (mulV (dec32 a) (dec32 b))

/-- Fused multiply-add, rounded once. -/
def fma32 (a b c : Word) : FM Word := sumV (mulV (dec32 a) (dec32 b)) (dec32 c)

/-- The correctly rounded quotient. -/
def div32 (a b : Word) : FM Word :=
  match dec32 a, dec32 b with
  | .nan, _ => return nan32
  | _, .nan => return nan32
  | .inf _, .inf _ => return nan32
  | .inf s, .fin t _ _ => return inf32 (s != t)
  | .fin s _ _, .inf t => return zero32 (s != t)
  | .fin s m e, .fin t n f =>
    if n = 0 then return if m = 0 then nan32 else inf32 (s != t)
    else if m = 0 then return zero32 (s != t)
    else round32 (s != t) m n (e - f)

/-- Sign flipped, or cleared; NaN canonical (R124). -/
def neg32 (a : Word) : Word := if dec32 a = .nan then nan32 else a ^^^ 0x80000000
def abs32 (a : Word) : Word := if dec32 a = .nan then nan32 else a &&& 0x7FFFFFFF

/-- Whether FP32 bits are NaN, an infinity, a zero or negative. -/
def isNan32 (a : Word) : Bool := dec32 a == .nan
def isInf32 (a : Word) : Bool := (a &&& 0x7FFFFFFF) == 0x7F800000
def isZero32 (a : Word) : Bool := (a &&& 0x7FFFFFFF) == 0
def isNeg32 (a : Word) : Bool := bitOf a 31

/-- a < b for values that are not NaN, −0 below +0 (R125). -/
def less32 (a b : Word) : Bool :=
  if isNeg32 a then (!isNeg32 b || decide (b.toNat < a.toNat)) else (!isNeg32 b && decide (a.toNat < b.toNat))

/-- MIN and MAX (R125). -/
def max32 (a b : Word) : Word :=
  if isNan32 a || isNan32 b then nan32 else if less32 a b then b else a
def min32 (a b : Word) : Word :=
  if isNan32 a || isNan32 b then nan32 else if less32 b a then b else a

/-- A natural number converted RNE to FP32 (R128). -/
def nat32 (n : Nat) : FM Word := if n = 0 then return 0 else round32 false n 1 0

/-! ## Stochastic rounding draws (R111, R112) -/

/-- One round of Philox-4x32 (R112): counters and keys. -/
def philoxRound (c0 c1 c2 c3 k0 k1 : Nat) : Nat × Nat × Nat × Nat :=
  let p0 := 0xD2511F53 * c0
  let p1 := 0xCD9E8D57 * c2
  ((p1 / 2 ^ 32 % 2 ^ 32) ^^^ c1 ^^^ k0, p1 % 2 ^ 32, (p0 / 2 ^ 32 % 2 ^ 32) ^^^ c3 ^^^ k1, p0 % 2 ^ 32)

/-- Philox-4x32 with n rounds left. -/
def philoxN : Nat → Nat → Nat → Nat → Nat → Nat → Nat → Nat × Nat × Nat × Nat
  | 0, c0, c1, c2, c3, _, _ => (c0, c1, c2, c3)
  | n + 1, c0, c1, c2, c3, k0, k1 =>
    let (a, b, c, d) := philoxRound c0 c1 c2 c3 k0 k1
    philoxN n a b c d ((k0 + 0x9E3779B9) % 2 ^ 32) ((k1 + 0xBB67AE85) % 2 ^ 32)

/-- Philox-4x32-10 (R112). -/
def philox (c0 c1 c2 c3 k0 k1 : Nat) : Nat × Nat × Nat × Nat := philoxN 10 c0 c1 c2 c3 k0 k1

/-- The word an element draws (R111). -/
def srWord (seed step site tensor row col : Nat) : Nat :=
  let col := col % 2 ^ 32
  let (w0, w1, w2, w3) := philox ((site * 2 ^ 30) ||| (col / 4)) (row % 2 ^ 32) tensor (step % 2 ^ 32)
    (seed % 2 ^ 32) ((seed / 2 ^ 32) ^^^ (step / 2 ^ 32))
  match col % 4 with
  | 0 => w0 | 1 => w1 | 2 => w2 | _ => w3

/-- The rounding of a NUMERICS ROUND field for one element (R107, R111). -/
def rndOf (round : Nat) (word : Unit → Nat) : Rnd :=
  match round with
  | 0 => .rne
  | 1 => .rz
  | _ => .sr (word ())

end Sys2Proof.Machine
end

