-- ==== Sys2Proof/Machine/Bale.lean ====
section
/-! DEFINITION. The bale: header, payload layout, header checks, the reading of elements and the
writing of a whole bale under the narrowing rules (spec/03 R63 to R73, spec/04 R99, R109, R110). -/

namespace Sys2Proof.Machine

/-- A bale header (R64). `flags`, `sticky` and `shape` are the bytes as stored; `tail` is whether a
reserved byte from 29 on is nonzero. -/
structure BaleHdr where
  format : Nat
  flags : Nat
  rows : Nat
  cols : Nat
  shape : Nat
  part : Nat
  tensor : Nat
  payload : Nat
  rowOrg : Nat
  colOrg : Nat
  nextUse : Nat
  sticky : Nat
  tail : Bool
deriving DecidableEq, Repr

/-- Read a header from its 64 bytes. -/
def readHdr (b : List Byte) : BaleHdr :=
  { format := fieldAt b 0 1, flags := fieldAt b 1 1, rows := fieldAt b 2 2, cols := fieldAt b 4 2
    shape := fieldAt b 6 1, part := fieldAt b 7 1, tensor := fieldAt b 8 4, payload := fieldAt b 12 4
    rowOrg := fieldAt b 16 4, colOrg := fieldAt b 20 4, nextUse := fieldAt b 24 4
    sticky := fieldAt b 28 1, tail := (sliceBytes b 29 35).any (· != 0) }

/-- The 64 bytes of a header. -/
def hdrBytes (h : BaleHdr) : List Byte :=
  leBytes 1 h.format ++ leBytes 1 h.flags ++ leBytes 2 h.rows ++ leBytes 2 h.cols ++
    leBytes 1 h.shape ++ leBytes 1 h.part ++ leBytes 4 h.tensor ++ leBytes 4 h.payload ++
    leBytes 4 h.rowOrg ++ leBytes 4 h.colOrg ++ leBytes 4 h.nextUse ++ leBytes 1 h.sticky ++
    List.replicate 35 0

/-- A number rounded up to a multiple. -/
def roundUp (n k : Nat) : Nat := (n + k - 1) / k * k

/-- LAYOUT and SCALE_AXIS of a SHAPE byte (R64). -/
def layoutOf (shape : Nat) : Nat := shape % 2
def axisOf (shape : Nat) : Nat := shape / 2 % 2

/-- Major and minor extents (R66). -/
def majorMinor (shape rows cols : Nat) : Nat × Nat := if layoutOf shape = 0 then (rows, cols) else (cols, rows)

/-- Stored extents M′ and N′ (R66). -/
def storedExtents (format shape rows cols : Nat) : Nat × Nat :=
  let (m, n) := majorMinor shape rows cols
  if !blockScaled format then (m, n)
  else if axisOf shape = 0 then (m, roundUp n 32)
  else
    let n' := match bitsOfFormat format with
      | 6 => roundUp n 4
      | 4 => roundUp n 2
      | _ => n
    (roundUp m 32, n')

/-- Bytes of the data area, rounded up to 64 (R69). -/
def dataSize (format shape rows cols : Nat) : Nat :=
  let (m, n) := storedExtents format shape rows cols
  roundUp ((m * n * bitsOfFormat format + 7) / 8) 64

/-- Blocks of a block-scaled bale (R68). -/
def blockCount (format shape rows cols : Nat) : Nat :=
  if !blockScaled format then 0
  else
    let (m, n) := storedExtents format shape rows cols
    if axisOf shape = 0 then m * (n / 32) else m / 32 * n

/-- PAYLOAD_BYTES (R69). -/
def payloadSize (format shape rows cols : Nat) : Nat :=
  dataSize format shape rows cols + roundUp (blockCount format shape rows cols) 64

/-- The linear index of logical element (r, c) in the data area (R67). -/
def elemIndex (format shape rows cols r c : Nat) : Nat :=
  let (_, n) := storedExtents format shape rows cols
  if layoutOf shape = 0 then r * n + c else c * n + r

/-- The index of the scale byte of element (r, c) (R68). -/
def scaleIndex (format shape rows cols r c : Nat) : Nat :=
  let (_, n) := storedExtents format shape rows cols
  let (a, b) := if layoutOf shape = 0 then (r, c) else (c, r)
  if axisOf shape = 0 then a * (n / 32) + b / 32 else a / 32 * n + b

/-- The header byte of the first field that fails R71, if one does. -/
def hdrBadByte (h : BaleHdr) : Option Nat :=
  if h.format = 0 ∨ 10 < h.format then some 0
  else if 2 ≤ h.flags then some 1
  else if h.rows = 0 ∨ 128 < h.rows then some 2
  else if h.cols = 0 ∨ 128 < h.cols then some 4
  else if 4 ≤ h.shape ∨ (axisOf h.shape = 1 ∧ !blockScaled h.format) then some 6
  else if ¬(h.part ≤ 31 ∨ h.part = 0x3F) then some 7
  else if h.payload ≠ payloadSize h.format h.shape h.rows h.cols then some 12
  else if 8 ≤ h.sticky then some 28
  else if h.tail then some 29
  else none

/-- The raw code of the element with a linear index (R67). -/
def rawElem (format : Nat) (data : List Byte) (k : Nat) : Nat :=
  match bitsOfFormat format with
  | 4 => fieldAt data (k / 2) 1 / 16 ^ (k % 2) % 16
  | 6 => fieldAt data (k / 4 * 3) 3 / 64 ^ (k % 4) % 64
  | 8 => fieldAt data k 1
  | 16 => fieldAt data (2 * k) 2
  | _ => fieldAt data (4 * k) 4

/-- A bale: its header and payload. -/
structure Bale where
  hdr : BaleHdr
  payload : List Byte
deriving DecidableEq, Repr

/-- The element code at (r, c). -/
def Bale.code (b : Bale) (r c : Nat) : Nat :=
  rawElem b.hdr.format b.payload (elemIndex b.hdr.format b.hdr.shape b.hdr.rows b.hdr.cols r c)

/-- The scale byte of element (r, c) (R68). -/
def Bale.scale (b : Bale) (r c : Nat) : Nat :=
  let h := b.hdr
  fieldAt b.payload (dataSize h.format h.shape h.rows h.cols +
    scaleIndex h.format h.shape h.rows h.cols r c) 1

/-- The exact value of element (r, c), its block scale applied (R99, R103). -/
def Bale.value (b : Bale) (r c : Nat) : Fv :=
  match fmtOf b.hdr.format with
  | none => .nan
  | some f =>
    let v := f.decode (b.code r c)
    if blockScaled b.hdr.format then
      let s := b.scale r c
      if s = 255 then .nan
      else match v with
        | .fin n m e => .fin n m (e + (s : Int) - 127)
        | w => w
    else v

/-- An element decoded to FP32 for a unit other than the tensor engine (R110, R120). -/
def Bale.elem32 (b : Bale) (r c : Nat) : FM Word := roundV (b.value r c)

/-- Whether the bale carries POISON (R64). -/
def Bale.poison (b : Bale) : Bool := b.hdr.flags % 2 == 1

/-! ## Writing a payload (R70, R109) -/

/-- The magnitude of a finite value as a pair, or none for NaN, ±∞ and 0. -/
def magOf : Fv → Option (Nat × Int)
  | .fin _ m e => if m = 0 then none else some (m, e)
  | _ => none

/-- The larger of two magnitudes. -/
def maxMag (a b : Option (Nat × Int)) : Option (Nat × Int) :=
  match a, b with
  | none, y => y
  | x, none => x
  | some x, some y => if fracLe x.1 1 x.2 y.1 1 y.2 then some y else some x

/-- E_MAX of a block-scaled format (R98, R100). -/
def emaxOf (f : Fmt) : Int :=
  match f.decode f.maxCode with
  | .fin _ m e => (Nat.log2 m : Int) + e
  | _ => 0

/-- The scale exponent of a block with largest magnitude amax (R109 step 4). -/
def blockExp (f : Fmt) (amax : Nat × Int) : Int :=
  let x := (Nat.log2 amax.1 : Int) + amax.2 - emaxOf f
  let x := if f.beyond amax.1 1 (amax.2 - x) then x + 1 else x
  max (-127) (min 127 x)

/-- One element of a block, as it is to be written: its value, its drawn word, and whether it is a
row identity that counts in no amax and raises no flag (R127). -/
structure BlockElem where
  v : Fv
  word : Unit → Nat
  quiet : Bool

/-- Whether a value is non-finite. -/
def nonFinite : Fv → Bool
  | .fin .. => false
  | _ => true

/-- A negative value that UE5M3 cannot hold (R109 step 2); −0 is not negative. -/
def ueNegative (format : Nat) : Fv → Bool
  | .fin true m _ => format == 9 && m != 0
  | _ => false

/-- Write a block (R109): the scale byte, the element codes, the flag events and how many elements
saturated. -/
def writeBlock (format round : Nat) (es : List BlockElem) : Nat × List Nat × Flags × Nat :=
  match fmtOf format with
  | none => (0, es.map fun _ => 0, noFlags, 0)
  | some f =>
    if format ≠ 5 ∧ es.any fun x => nonFinite x.v then
      (255, es.map fun _ => nanCode format, ⟨false, true, false, 0⟩, 0)
    else
      let amax := es.foldl (fun a x =>
        if x.quiet || ueNegative format x.v then a else maxMag a (magOf x.v)) none
      let x := match amax with
        | some a => blockExp f a
        | none => -127
      let one := fun (y : BlockElem) => match y.v with
        | .nan => (nanCode format, (⟨false, !y.quiet, false, 0⟩ : Flags))
        | .inf s => (f.sign s (f.maxCode + 1), ⟨false, !y.quiet, false, 0⟩)
        | .fin s m e =>
          if ueNegative format y.v then (nanCode format, ⟨false, true, false, 0⟩)
          else if amax.isNone then (0, noFlags)
          else
            let (c, fl) := f.narrowMag (rndOf round y.word) m 1 (e - x)
            (f.sign s c, fl)
      let rs := es.map one
      ((x + 127).toNat, rs.map (·.1), rs.foldl (fun a r => orFlags a r.2) noFlags,
        rs.countP fun r => r.2.sat)

/-- Put an element code into the data area, as a number of little-endian bits. -/
def packCodes (bits : Nat) (codes : List (Nat × Nat)) : Nat :=
  codes.foldl (fun a k => a + k.2 * 2 ^ (bits * k.1)) 0

/-- The logical positions of an extent, row by row. -/
def positions (rows cols : Nat) : List (Nat × Nat) :=
  (List.range rows).flatMap fun r => (List.range cols).map fun c => (r, c)

/-- The payload of a bale whose elements are given (R66 to R70, R109), the flag events raised, and the
number of elements saturated (R118). Elements outside the logical extent are zero bits. -/
def writePayload (format shape round rows cols : Nat) (el : Nat → Nat → BlockElem) :
    List Byte × Flags × Nat :=
  let bits := bitsOfFormat format
  let dsz := dataSize format shape rows cols
  if !blockScaled format then
    let rs : List ((Nat × Nat) × Flags) := (positions rows cols).map fun p =>
      let x := el p.1 p.2
      let (c, fl) := narrowPlain format (rndOf round x.word) x.v
      ((elemIndex format shape rows cols p.1 p.2, c), if x.quiet then noFlags else fl)
    (leBytes dsz (packCodes bits (rs.map (·.1))), rs.foldl (fun a r => orFlags a r.2) noFlags, 0)
  else
    let blocks : List (Nat × List (Nat × Nat) × Flags × Nat) :=
        (List.range (blockCount format shape rows cols)).map fun k =>
      let ps : List (Nat × Nat) :=
        (positions rows cols).filter fun (p : Nat × Nat) => scaleIndex format shape rows cols p.1 p.2 == k
      let (s, cs, fl, n) := writeBlock format round (ps.map fun p => el p.1 p.2)
      (if ps.isEmpty then 0 else s,
        (ps.map fun (p : Nat × Nat) => elemIndex format shape rows cols p.1 p.2).zip cs, fl, n)
    let codes := blocks.flatMap fun b => b.2.1
    let fl := blocks.foldl (fun a b => orFlags a b.2.2.1) noFlags
    let sats := blocks.foldl (fun a b => a + b.2.2.2) 0
    let data := leBytes dsz (packCodes bits codes)
    let scales := blocks.map fun b => BitVec.ofNat 8 b.1
    let ssz := roundUp blocks.length 64
    (data ++ scales ++ List.replicate (ssz - scales.length) 0, fl, sats)

/-- A UINT32 payload. -/
def writeUint (shape rows cols : Nat) (el : Nat → Nat → Nat) : List Byte :=
  leBytes (dataSize 10 shape rows cols)
    (packCodes 32 ((positions rows cols).map fun p =>
      (elemIndex 10 shape rows cols p.1 p.2, el p.1 p.2 % 2 ^ 32)))

/-- A bale of zeros with POISON = 1, as a faulting operand is delivered (R93). -/
def zeroBale (format shape rows cols : Nat) : Bale :=
  let n := payloadSize format shape rows cols
  { hdr := { format := format, flags := 1, rows := rows, cols := cols, shape := shape, part := 0
             tensor := 0, payload := n, rowOrg := 0, colOrg := 0, nextUse := 0xFFFFFFFF, sticky := 0
             tail := false }
    payload := List.replicate n 0 }

/-- The bytes of a whole bale. -/
def Bale.bytes (b : Bale) : List Byte := hdrBytes b.hdr ++ b.payload

/-- The bytes a bale occupies: header and payload (R69), as its header states them. -/
def BaleHdr.size (h : BaleHdr) : Nat := 64 + h.payload

end Sys2Proof.Machine
end

