-- ==== Sys2Proof/Machine/PlanParse.lean ====
section
/-! DEFINITION. Reading a plan image (spec/02 R46) into a plan, and the length its sections imply:
the layouts of spec/03 R75 to R80, spec/06 R162, spec/09 R255, spec/12 R307 to R314, spec/13 R355 and
R356, spec/14 R365 to R367. The checks are in Machine/PlanCheck.lean. -/

namespace Sys2Proof.Machine

/-- CRC-32 of IEEE 802.3, reflected, initial value and final inversion all ones (R45): one bit. -/
def crcBit (c : Nat) : Nat := if c % 2 = 1 then c / 2 ^^^ 0xEDB88320 else c / 2

/-- One byte of the CRC. -/
def crcByte (c : Nat) (b : Byte) : Nat :=
  crcBit (crcBit (crcBit (crcBit (crcBit (crcBit (crcBit (crcBit (c ^^^ b.toNat))))))))

/-- CRC-32 of a byte string (R45). -/
def crc32 (bs : List Byte) : Nat := bs.foldl crcByte 0xFFFFFFFF ^^^ 0xFFFFFFFF

/-! ## Sections (R46) -/

/-- A section: its TYPE, offset, length and CRC from the section table. -/
structure Section where
  type : Nat
  off : Nat
  len : Nat
  crc : Nat
deriving DecidableEq, Repr

/-- The entries of the section table. -/
def sectionTable (img : List Byte) : List Section :=
  (List.range (min (fieldAt img 6 2) 64)).map fun k =>
    let o := 64 + 16 * k
    ⟨fieldAt img o 2, fieldAt img (o + 4) 4, fieldAt img (o + 8) 4, fieldAt img (o + 12) 4⟩

/-- The bytes of a section of a TYPE; none where the image has no such section. -/
def sectionOf (img : List Byte) (ty : Nat) : Option (List Byte) :=
  ((sectionTable img).find? (·.type == ty)).map fun x => sliceBytes img x.off x.len

/-- The failing bytes of an entry of the section table (R46), `before` the TYPEs of the entries before. -/
def entryBad (img : List Byte) (before : List Nat) (o : Nat) : List Nat :=
  let ty := fieldAt img o 2
  let off := fieldAt img (o + 4) 4
  let len := fieldAt img (o + 8) 4
  if !decide (1 ≤ ty ∧ ty ≤ 6) || before.contains ty then [o]
  else if fieldAt img (o + 2) 2 != 0 then [if fieldAt img (o + 2) 1 != 0 then o + 2 else o + 3]
  else if off % 64 != 0 then [o + 4]
  else if decide (img.length < off + len) then [o + 8]
  else if crc32 (sliceBytes img off len) != fieldAt img (o + 12) 4 then [o + 12]
  else []

/-- The first failing byte of the image header and section table: MAGIC, VERSION, count, reserved bytes,
TYPEs known and not repeated, sections aligned and inside the image with their CRC, the required ones
present (R46). DEDUCED (log entry 67): no rule names the AUX of such a refusal, and R76's byte offset is
taken over to the image; a missing section fails at SECTION_COUNT. -/
def imageBad (img : List Byte) : Option Nat :=
  let n := fieldAt img 6 2
  let types := (sectionTable img).map (·.type)
  if img.length < 64 then some img.length
  else if fieldAt img 0 4 != 0x4C505856 then some 0
  else if fieldAt img 4 2 != 1 then some 4
  else if !decide (1 ≤ n ∧ n ≤ 64) then some 6
  else match (List.range 56).find? fun k => fieldAt img (8 + k) 1 != 0 with
    | some k => some (8 + k)
    | none =>
      if decide (img.length < 64 + 16 * n) then some img.length
      else match (List.range n).flatMap fun k => entryBad img (types.take k) (64 + 16 * k) with
        | a :: _ => some a
        | [] => if [1, 2, 4].all types.contains then none else some 6

/-- The image header and section table are good. -/
def headerGood (img : List Byte) : Bool := (imageBad img).isNone

/-! ## Loop descriptors (R75 to R80, R162) -/

/-- Where the descriptors of section 0x0001 start. -/
def descBase (programs : Nat) : Nat := roundUp (64 + 8 * programs) 64

def parseLevel (b : List Byte) (o : Nat) : Level :=
  ⟨fieldAt b o 4, fieldAt b (o + 4) 1, fieldAt b (o + 5) 1, fieldAt b (o + 6) 1, fieldAt b (o + 8) 4,
    fieldAt b (o + 12) 4⟩

def parseOperand (b : List Byte) (o : Nat) : Operand :=
  { role := fieldAt b o 1, port := fieldAt b (o + 1) 1, format := fieldAt b (o + 2) 1
    shape := fieldAt b (o + 3) 1, rows := fieldAt b (o + 4) 1, cols := fieldAt b (o + 5) 1
    rowLevel := fieldAt b (o + 6) 1, colLevel := fieldAt b (o + 7) 1, tensor := fieldAt b (o + 8) 4
    pad := fieldAt b (o + 12) 4
    strides := (List.range 6).map fun l => sfieldAt b (o + 16 + 4 * l) 4
    offset := fieldAt b (o + 40) 8, hint := fieldAt b (o + 48) 4, rowBase := fieldAt b (o + 52) 4
    colBase := fieldAt b (o + 56) 4 }

/-- The logical level at each nesting depth (R78). -/
def orderOf (v : Nat) : List Nat := (List.range 6).map fun k => v / 8 ^ k % 8

def parseDesc (b : List Byte) (o : Nat) : Desc :=
  { order := orderOf (fieldAt b (o + 4) 3), node := fieldAt b (o + 8) 4, next := fieldAt b (o + 12) 2
    preKind := fieldAt b (o + 16) 1, postKind := fieldAt b (o + 17) 1, iterKind := fieldAt b (o + 18) 1
    preRef := fieldAt b (o + 20) 4 % 2 ^ 17, postRef := fieldAt b (o + 24) 4 % 2 ^ 17
    iterSem := fieldAt b (o + 28) 4 % 2 ^ 17, amount := fieldAt b (o + 31) 1
    levels := (List.range 6).map fun l => parseLevel b (o + 32 + 16 * l)
    ops := (List.range (min (fieldAt b (o + 2) 1) 4)).map fun k => parseOperand b (o + 128 + 64 * k) }

/-! ## The operation graph (R307 to R312) -/

/-- The offsets of the tables of section 0x0002, and the length they imply. -/
structure GraphLayout where
  tensors : Nat
  nodes : Nat
  edges : Nat
  syncs : Nat
  steps : Nat
  words : Nat
  records : Nat
  total : Nat
deriving DecidableEq, Repr

def graphLayout (b : List Byte) : GraphLayout :=
  let t := 64
  let n := roundUp (t + 32 * fieldAt b 12 4) 64
  let e := roundUp (n + 32 * fieldAt b 0 4) 64
  let y := roundUp (e + 16 * fieldAt b 4 4) 64
  let s := roundUp (y + 8 * fieldAt b 8 4) 64
  let w := roundUp (s + 8 * fieldAt b 16 2) 64
  let r := roundUp (w + 4 * fieldAt b 18 2) 64
  ⟨t, n, e, y, s, w, r, r + fieldAt b 20 4⟩

def parseTensor (b : List Byte) (o : Nat) : TensorEnt :=
  { id := fieldAt b o 4, arg := fieldAt b (o + 4) 1 % 2 == 1, words := fieldAt b (o + 4) 1 / 2 % 2 == 1
    bytes := fieldAt b (o + 8) 8, binding := fieldAt b (o + 16) 8, expert := fieldAt b (o + 24) 4 }

/-- The bytes of a kind's record (R310). -/
def recordBytes (kind : Nat) : Nat :=
  match kind with
  | 3 | 4 | 5 => 384
  | 6 | 7 | 9 | 10 | 11 => 64
  | 8 => 256
  | _ => 0

def parseNode (b : List Byte) (records o : Nat) : NodeEnt :=
  let kind := fieldAt b o 1
  { kind := kind, numerics := fieldAt b (o + 1) 1, vop := fieldAt b (o + 2) 1
    program := fieldAt b (o + 4) 4, params := (List.range 4).map fun k => fieldAt b (o + 8 + 4 * k) 4
    record := sliceBytes b (records + fieldAt b (o + 24) 4) (recordBytes kind)
    expert := fieldAt b (o + 28) 4 }

def parseEdge (b : List Byte) (o : Nat) : EdgeEnt :=
  ⟨fieldAt b o 4, fieldAt b (o + 4) 4, fieldAt b (o + 8) 1, fieldAt b (o + 9) 1, fieldAt b (o + 12) 2⟩

def parseSync (b : List Byte) (o : Nat) : SyncEnt :=
  ⟨fieldAt b o 4 % 2 ^ 17, fieldAt b (o + 3) 1 / 128 == 1, fieldAt b (o + 4) 4⟩

/-! ## The other sections (R314, R355, R356, R255, R365 to R367) -/

def parseIntent (b : List Byte) (o : Nat) : Intent :=
  ⟨fieldAt b o 1, fieldAt b (o + 1) 1 == 1, fieldAt b (o + 4) 4, fieldAt b (o + 8) 8⟩

def parseSlot (b : List Byte) (o : Nat) : Slot :=
  { beat := fieldAt b o 4, kind := fieldAt b (o + 4) 1, srcWait := fieldAt b (o + 5) 1 % 2 == 1
    drop := fieldAt b (o + 6) 1 == 1, deadline := fieldAt b (o + 8) 4, subject := fieldAt b (o + 12) 4
    srcOffset := fieldAt b (o + 16) 8, length := fieldAt b (o + 24) 8, peer := fieldAt b (o + 32) 4
    dstTensor := fieldAt b (o + 36) 4, dstOffset := fieldAt b (o + 40) 8, landSem := fieldAt b (o + 48) 4
    srcSem := fieldAt b (o + 52) 4 }

/-- Where the input words of section 0x0005 start, for its entry count. -/
def recipeInputs (entries : Nat) : Nat := roundUp (64 + 32 * entries) 64

def parseRecipe (b : List Byte) (inputs o : Nat) : Recipe :=
  { tensor := fieldAt b o 4, always := fieldAt b (o + 4) 1 == 2, program := fieldAt b (o + 8) 4
    inputs := (List.range (min (fieldAt b (o + 16) 4) 64)).map fun k =>
      fieldAt b (inputs + 4 * (fieldAt b (o + 12) 4 + k)) 4 }

/-- The offsets of the collective table and the member words of section 0x0006, and its length. -/
def memberLayout (b : List Byte) : Nat × Nat × Nat :=
  let c := roundUp (64 + 4 * fieldAt b 0 4) 64
  let m := roundUp (c + 64 * fieldAt b 4 4) 64
  (c, m, m + 4 * fieldAt b 8 4)

def parseColl (b : List Byte) (words o : Nat) : Coll :=
  let op := fieldAt b o 1
  let word := fun k => fieldAt b (words + 4 * k) 4
  { op := op, grad := fieldAt b (o + 1) 1 % 2 == 1, srcWait := fieldAt b (o + 1) 1 / 2 % 2 == 1
    ret := fieldAt b (o + 1) 1 / 4 % 2 == 1, carry := fieldAt b (o + 2) 1, round := fieldAt b (o + 3) 1
    redop := fieldAt b (o + 4) 1, fanin := fieldAt b (o + 5) 1, colTiles := fieldAt b (o + 6) 1
    src := fieldAt b (o + 16) 4, dst := fieldAt b (o + 20) 4, length := fieldAt b (o + 24) 8
    countTensor := fieldAt b (o + 32) 4, recvTensor := fieldAt b (o + 36) 4
    doneSem := fieldAt b (o + 40) 4 % 2 ^ 17, levelBeats := fieldAt b (o + 44) 4
    srcSem := fieldAt b (o + 48) 4, argA := fieldAt b (o + 52) 4
    members := (List.range (min (fieldAt b (o + 12) 4) 131072)).map fun k => word (fieldAt b (o + 8) 4 + k)
    experts := if op = 7 ∧ fieldAt b (o + 1) 1 / 4 % 2 = 0 then
        (List.range (fieldAt b (o + 52) 4)).map fun k => word (fieldAt b (o + 56) 4 + k)
      else [] }

/-! ## The plan (R46) -/

/-- The sections of an image, an absent one empty. -/
structure Sections where
  loops : List Byte
  graph : List Byte
  intents : List Byte
  yard : List Byte
  recipes : List Byte
  members : List Byte
deriving DecidableEq, Repr

def sectionsOf (img : List Byte) : Sections :=
  let g := fun t => (sectionOf img t).getD []
  ⟨g 1, g 2, g 3, g 4, g 5, g 6⟩

/-- The plan that the sections spell, before placement. `own` is the module's RANK and DOMAIN (R366). -/
def parsePlan (crc : Nat) (x : Sections) (own : Nat) : Plan :=
  let g := graphLayout x.graph
  let np := fieldAt x.loops 0 4
  let (c, m, _) := memberLayout x.members
  let ranks := (List.range (fieldAt x.members 0 4)).map fun k => fieldAt x.members (64 + 4 * k) 4
  { crc := crc
    programs := (List.range np).map fun p => fieldAt x.loops (64 + 8 * p) 4
    descs := (List.range (fieldAt x.loops 4 4)).map fun d => parseDesc x.loops (descBase np + 384 * d)
    tensors := (List.range (fieldAt x.graph 12 4)).map fun k => parseTensor x.graph (g.tensors + 32 * k)
    nodes := (List.range (fieldAt x.graph 0 4)).map fun k => parseNode x.graph g.records (g.nodes + 32 * k)
    edges := (List.range (fieldAt x.graph 4 4)).map fun k => parseEdge x.graph (g.edges + 16 * k)
    syncs := (List.range (fieldAt x.graph 8 4)).map fun k => parseSync x.graph (g.syncs + 8 * k)
    ucode := (List.range (fieldAt x.graph 16 2)).map fun k =>
      BitVec.ofNat 64 (fieldAt x.graph (g.steps + 8 * k) 8)
    table := (List.range (fieldAt x.graph 18 2)).map fun k =>
      BitVec.ofNat 32 (fieldAt x.graph (g.words + 4 * k) 4)
    intents := (List.range (fieldAt x.intents 0 4)).map fun k => parseIntent x.intents (64 + 16 * k)
    slots := (List.range (fieldAt x.yard 0 4)).map fun k => parseSlot x.yard (64 + 64 * k)
    period := fieldAt x.yard 4 2, elastic := fieldAt x.yard 6 1 == 1, alignLog2 := fieldAt x.yard 7 1
    stepBeats := fieldAt x.yard 8 4
    recipes := (List.range (fieldAt x.recipes 0 4)).map fun k =>
      parseRecipe x.recipes (recipeInputs (fieldAt x.recipes 0 4)) (64 + 32 * k)
    ranks := ranks
    colls := (List.range (fieldAt x.members 4 4)).map fun k => parseColl x.members m (c + 64 * k)
    ownRank := ranks.findIdx? (· == own)
    cores := [], drovers := [], homes := [], bound := [], sems := [], bars := [] }

/-! ## What the records say -/

/-- The tensor entry of an identifier. -/
def Plan.tensor (p : Plan) (id : Nat) : Option TensorEnt := p.tensors.find? (·.id == id)

/-- A node, a descriptor, a slot, a collective by index. -/
def Plan.node (p : Plan) (k : Nat) : Option NodeEnt := p.nodes[k]?
def Plan.desc (p : Plan) (k : Nat) : Option Desc := p.descs[k]?

/-- The chain of descriptors of a program, at most `fuel` of them (R76). -/
def chainFrom (ds : List Desc) : Nat → Nat → List Nat
  | 0, _ => []
  | n + 1, d => match ds[d]? with
    | none => []
    | some x => d :: (if x.next = 0xFFFF then [] else chainFrom ds n x.next)

/-- The descriptors of a program, in the order it runs them. -/
def Plan.chain (p : Plan) (prog : Nat) : List Nat :=
  match p.programs[prog]? with
  | some d => chainFrom p.descs p.descs.length d
  | none => []

/-- The descriptors that execute a node. -/
def Plan.descsOf (p : Plan) (node : Nat) : List Desc := p.descs.filter (·.node == node)

/-- The core that runs a node's program. -/
def Plan.coreOf (pl : Plan) (node : Nat) : Option Nat :=
  (pl.node node).bind fun nd => (pl.cores.find? fun c => c.1 == nd.program).map fun c => c.2

/-- The extension operands of a node's record: 4 to 8 of an attention record (R171), 4 to 6 of an OPT
record (R242). -/
def NodeEnt.ext (n : NodeEnt) : List Operand :=
  let cnt := if n.kind = 8 then min (fieldAt n.record 3 1) 3 else min (fieldAt n.record 3 1) 5
  if n.kind = 3 ∨ n.kind = 4 ∨ n.kind = 5 ∨ n.kind = 8 then
    (List.range cnt).map fun e => parseOperand n.record (64 + 64 * e)
  else []

/-- ROUND and FLAG_SLOT of a NUMERICS byte (R107). -/
def NodeEnt.round (n : NodeEnt) : Nat := n.numerics % 4
def NodeEnt.flagSlot (n : NodeEnt) : Nat := n.numerics / 4 % 64

/-- The operand records of a descriptor's node: its own, then the record's extensions at 4. -/
def Plan.operands (p : Plan) (d : Desc) : List (Nat × Operand) :=
  (List.range d.ops.length).zip d.ops ++
    match p.node d.node with
    | some n => (List.range n.ext.length).map (· + 4) |>.zip n.ext |>.filter fun x => x.2.role != 0
    | none => []

/-- A tensor's intent of a kind. -/
def Plan.intent (p : Plan) (kind subject : Nat) : Option Intent :=
  p.intents.find? fun i => i.kind == kind && i.subject == subject

/-- The number of experts of a plan: one more than the highest a node or tensor names. -/
def Plan.expertCount (p : Plan) : Nat :=
  ((p.nodes.map (·.expert) ++ p.tensors.map (·.expert)).filter (· != 0xFFFFFFFF)).foldl
    (fun m e => max m (e + 1)) 0

/-- MIN, MAX and COLDEST of an expert (R314). -/
def Plan.expertBounds (p : Plan) (e : Nat) : Nat × Nat × Nat :=
  match p.intent 4 e with
  | some i => (i.value % 2 ^ 16, i.value / 2 ^ 16 % 2 ^ 16, i.value / 2 ^ 32 % 256)
  | none => (1, 1, 2)

end Sys2Proof.Machine
end

