-- ==== Sys2Proof/Machine/DayBook.lean ====
section
/-! DEFINITION. The day book (spec/19 R469 to R472), the Farrier's log (R468), and what an executing
step remembers of its faults (R461). -/

namespace Sys2Proof.Machine

/-! ## The ring (R469, R470) -/

/-- The blocks of a function's ring. -/
def State.dayBlocks (s : State) (fn : Nat) : Nat := s.fld DAY_MIB_MIB fn * 16384

/-- The offset of block `n` of a function's ring. -/
def State.dayAddr (s : State) (fn n : Nat) : Nat := s.reg64 DAY_BASE_LO fn + 64 * (n % s.dayBlocks fn)

/-- The ring is enabled (R479). -/
def State.dayOn (s : State) (fn : Nat) : Bool := s.flag DAY_STATUS_ENABLED fn

/-- A block of a function's ring. -/
def State.dayBlock (s : State) (fn n : Nat) : List Byte := s.readGddr fn (s.dayAddr fn n) 64

/-- The oldest whole record once blocks up to `upto` are written: records that would be overwritten are
passed, each by its EXT (R470). -/
def State.dayOldest (s : State) (fn upto : Nat) : Nat → Nat → Nat
  | 0, o => o
  | k + 1, o =>
    if o + s.dayBlocks fn < upto then
      s.dayOldest fn upto k (o + 1 + fieldAt (s.dayBlock fn o) 18 2)
    else o

/-- The bytes of a record (R471): the header block with its CRC, then the continuation blocks. -/
def dayBytes (seq beat type plan step : Nat) (body ext : List Byte) : List Byte :=
  let ext' := ext ++ List.replicate (roundUp ext.length 64 - ext.length) 0
  let head := leBytes 8 seq ++ leBytes 8 beat ++ leBytes 1 type ++ leBytes 1 plan ++
    leBytes 2 (ext'.length / 64) ++ leBytes 4 0 ++ leBytes 8 step ++ sliceBytes body 0 28
  head ++ leBytes 4 (crc32 (head ++ ext')) ++ ext'

/-- Write the blocks of a record one by one, each at its place in the ring. -/
def State.dayWriteBlocks (s : State) (fn n : Nat) (bs : List Byte) : State :=
  (List.range (bs.length / 64)).foldl (fun s k =>
    s.writeMem fn (s.dayAddr fn (n + k)) (sliceBytes bs (64 * k) 64)) s

/-- A record is written into a function's ring (R469): block numbers advance, the oldest records give
way, WRAPPED is set where one did, and the record is counted. Nothing happens while the ring is not
enabled. -/
def State.dayRecord (s : State) (fn type plan step : Nat) (body : List Byte) (ext : List Byte := []) :
    State :=
  if !s.dayOn fn then s
  else
    let n := s.reg64 DAY_NEXT_SEQ_LO fn
    let bs := dayBytes n s.endBeat type plan step body ext
    let upto := n + bs.length / 64
    let old := s.reg64 DAY_OLDEST_SEQ_LO fn
    let old' := s.dayOldest fn upto (bs.length / 64) old
    let s := if old' = old then s else s.setFld DAY_STATUS_WRAPPED fn 1
    let s := (s.setReg64 DAY_OLDEST_SEQ_LO fn old').dayWriteBlocks fn n bs
    (s.setReg64 DAY_NEXT_SEQ_LO fn upto).bump64 DAY_RECORDS_LO fn

/-- An ERROR record (R472), in the ring of a function. -/
def State.dayError (s : State) (fn plan step code status detail addr : Nat) : State :=
  s.dayRecord fn 0x0C plan step
    (leBytes 1 code ++ leBytes 1 status ++ leBytes 2 0 ++ leBytes 4 detail ++ leBytes 8 addr)

/-- The ERROR record of an internal fault (R463, R472); its detail and address, which the spec does not
state, are free (DEDUCED, log entry 24). -/
def State.internalRecord (s : State) (fn code : Nat) : State :=
  let (d, s) := s.free
  let (a, s) := s.free
  s.dayError fn 0xFF 0 code stInternal d.toNat a.toNat

/-! ## The Farrier's log (R468, R478) -/

/-- Kinds of the Farrier's records (R472). -/
abbrev kCore : Nat := 1
abbrev kWay : Nat := 2
abbrev kLane : Nat := 3
abbrev kRow : Nat := 4
abbrev kBlock : Nat := 5
abbrev kLoop : Nat := 6
abbrev kMgmt : Nat := 7
abbrev kChan : Nat := 8
abbrev kShed : Nat := 9
abbrev kCluster : Nat := 10
abbrev kLink : Nat := 11

/-- A part by its kind and number (DEDUCED, log entry 62). -/
def partKey (kind n : Nat) : Nat := kind * 2 ^ 40 + n

/-- A GDDR row as a part. -/
def rowPart (chan bank row : Nat) : Nat := chan * 2 ^ 32 + bank * 2 ^ 24 + row

/-- The Farrier logs an event (R468): in its log of 64, in the module ring, REPORT set and the count
raised; an event that R464 or R467 reports raises the owner's Farrier source. -/
def State.farLog (s : State) (event kind index detail : Nat) : State :=
  let e : FarEntry := ⟨s.endBeat, event, kind, index, detail⟩
  let s := { s with far := { s.far with log := (e :: s.far.log).take 64 } }
  let s := (s.bump FAR_LOG_COUNT_COUNT 0).setFld FAR_STATUS_REPORT 0 1
  let s := s.dayRecord 0 0x0B 0xFF 0
    (leBytes 1 event ++ leBytes 1 kind ++ leBytes 2 index ++ leBytes 4 detail)
  s.raise 0 70

/-- Corrected events of a part in the current hour (R464). -/
def State.farEvent (s : State) (kind n : Nat) (count : Nat := 1) : State :=
  if count = 0 then s
  else { s with far := { s.far with events := tabModify 0 s.far.events (partKey kind n) (· + count) } }

/-! ## Executing steps (R47, R461) -/

/-- The executing step of a partition. -/
def State.stepOf (s : State) (p : Nat) : Option Step := tabFind s.yard.steps p

/-- Change the executing step of a partition. -/
def State.updStep (s : State) (p : Nat) (f : Step → Step) : State :=
  match s.stepOf p with
  | none => s
  | some st => { s with yard := { s.yard with steps := tabPut s.yard.steps p (f st) } }

/-- The plan that a partition loaded under an identifier. -/
def State.planOf (s : State) (p id : Nat) : Option Plan := tabFind s.yard.plans (p * 16 + id)

/-- The plan of the executing step. -/
def State.stepPlan (s : State) (p : Nat) : Option Plan :=
  match s.stepOf p with
  | some st => s.planOf p st.plan
  | none => none

/-- A cause of DATA_ERROR in a partition's executing step: the first is kept (R461). -/
def State.stepCause (s : State) (p code : Nat) : State :=
  s.updStep p fun st => if st.cause = 0 then { st with cause := code } else st

/-- A fault that makes the step DATA_ERROR: the cause, and the partition's step-fault source (R432). -/
def State.stepFault (s : State) (p code : Nat) : State := (s.stepCause p code).raise (p + 1) 66

/-- A reset response: the step is owed TARGET_RESET (R283, R461). -/
def State.stepReset (s : State) (p : Nat) : State := s.updStep p fun st => { st with reset := true }

/-- A link failure: the step is owed LINK_ERROR; the first AUX is kept. -/
def State.stepLink (s : State) (p aux : Nat) : State :=
  s.updStep p fun st => if st.link.isSome then st else { st with link := some aux }

/-- The partitions with a scheduled or running step. -/
def State.stepping (s : State) : List Nat := s.yard.steps.map (·.1)

/-- It is a plan boundary of a partition: no PLAN_LOAD or PLAN_RUN of it executes, from the start of the load
or the first slot of the step until its record is written (R23). -/
def State.atBoundary (s : State) (p : Nat) : Bool := s.host.flights.all fun f => f.fn != p + 1 || !f.ran

/-- A step is executing on the module (R23, R53, R346): from its first slot until its record is written. -/
def State.executing (s : State) : Bool := s.host.flights.any fun f => f.ran && fieldAt f.bytes 0 1 == 2

/-- It is a plan boundary of every partition (R23, R24). -/
def State.allBoundary (s : State) : Bool := (List.range 32).all s.atBoundary

/-! ## DAY_CTRL (R479) -/

/-- A range of a function's GDDR overlaps its day book ring (R470). -/
def State.hitsDay (s : State) (fn off n : Nat) : Bool :=
  s.dayOn fn && overlaps off n (s.reg64 DAY_BASE_LO fn) (64 * s.dayBlocks fn)

end Sys2Proof.Machine
end

