-- ==== Sys2Proof/Machine/Spares.lean ====
section
/-! DEFINITION. The Farrier's spares (spec/19 R464 to R468): what bringing one in, or having none left,
changes, for each kind of part (R19, R270, R292, R338, R519). -/

namespace Sys2Proof.Machine

/-- The part is no longer DUE, and what replaces it starts with no score (DEDUCED, log entry 9). -/
def State.clearPart (s : State) (kind n : Nat) : State :=
  let k := partKey kind n
  let far := { s.far with
    due := s.far.due.filter (· != k), scores := tabDel s.far.scores k, events := tabDel s.far.events k }
  ({ s with far := far }).setFld FAR_STATUS_DUE 0 (!far.due.isEmpty).toNat

/-- A spare has been brought in for a part, after a trend or an outright failure (R465, R468). -/
def State.spareIn (s : State) (kind n index : Nat) (outright : Bool) (detail : Nat) : State :=
  let s := (s.clearPart kind n).bump FAR_ACTIONS_COUNT 0
  let s := s.setFld FAR_HEALTH_DEGRADED 0 1
  s.farLog (if outright then 3 else 2) kind index detail

/-- A part failed, or is DUE, with no spare left (R467): SPARES_OUT and REPLACE. -/
def State.spareOut (s : State) (kind index detail : Nat) : State :=
  let s := (s.setFld FAR_STATUS_SPARES_OUT 0 1).setFld FAR_STATUS_REPLACE 0 1
  let s := (s.setFld FAR_HEALTH_REPLACE 0 1).setFld FAR_HEALTH_DEGRADED 0 1
  (s.farLog 4 kind index detail).alertCheck

/-- Take one from a count of spares. -/
def State.useSpare (s : State) (f : Field) : State := s.setFld f 0 (s.fld f - 1)

/-- A cluster is made unavailable by a failed core or way (R467): the steps of the partition that holds
it are TARGET_RESET. -/
def State.loseCluster (s : State) (c : Nat) : State :=
  let s := { s with far := { s.far with unavailable := tabPut s.far.unavailable c true } }
  match s.partOfCluster c with
  | some p => s.stepReset p
  | none => s

/-! ## Cores (R19, R465, R519) -/

/-- The cluster's spare core is in use. -/
def State.coreSpareUsed (s : State) (c : Nat) : Bool :=
  (List.range 8).any fun k => tabGet false s.far.spareCore (c * 8 + k)

/-- The spare core takes over a logical core; its scratch holds zeros (R519). -/
def State.swapCore (s : State) (core : Nat) (outright : Bool) : State :=
  let score := tabGet 0 s.far.scores (partKey kCore core)
  let s := { s with far := { s.far with spareCore := tabPut s.far.spareCore core true } }
  ((s.useSpare FAR_SPARES_CORES).zeroScratch core).spareIn kCore core core outright score

/-! ## Loft ways (R270) -/

/-- A Loft way as a part. -/
def wayPart (c w : Nat) : Nat := c * 32 + w

/-- The lines held in a way of a Loft. -/
def State.wayLines (s : State) (c w : Nat) : List (Nat × LoftLine) :=
  (s.loftSets c).flatMap fun set => ((s.loftLines c set).filter (·.way == w)).map fun l => (set, l)

/-- A way is retired: its lines leave, and the spare way comes in or the Loft runs on 15 (DEDUCED, log
entry 62). -/
def State.retireWay (s : State) (c w : Nat) (outright : Bool) : State :=
  let score := tabGet 0 s.far.scores (partKey kWay (wayPart c w))
  let active := s.fld LFT_WAYS_ACTIVE c
  let rest := active - 2 ^ w
  if s.flag LFT_STATUS_SPARE_IN c then
    let s := (s.setFld LFT_WAYS_ACTIVE c rest).setFld LFT_STATUS_DEGRADED c 1
    (s.clearPart kWay (wayPart c w)).spareOut kWay (wayPart c w) score
  else
    let s := (s.setFld LFT_WAYS_ACTIVE c (rest + 2 ^ 16)).setFld LFT_STATUS_SPARE_IN c 1
    let s := { s with loft := { s.loft with retired := tabModify 0 s.loft.retired c (· + 1) } }
    (s.useSpare FAR_SPARES_WAYS).spareIn kWay (wayPart c w) (wayPart c w) outright score

/-- Trend: the dirty sectors are written back first. -/
def State.swapWay (s : State) (c w : Nat) : State :=
  let s := (s.wayLines c w).foldl (fun s x =>
    (s.writeBack c x.2).setLoftLines c x.1 ((s.loftLines c x.1).filter fun l => l.way != w)) s
  s.retireWay c w false

/-! ## GDDR rows (R292) -/

/-- Remap entries of a bank in use or copying. -/
def State.bankEntries (s : State) (chan bank : Nat) : Nat :=
  (s.gddrs.remaps.filter fun r => r.chan == chan && r.entry / 8 == bank).length

/-- GDR_REMAP and FAR_REMAP_MIN follow the entries in use. -/
def State.refreshRemap (s : State) (chan : Nat) : State :=
  let used := (s.gddrs.remaps.filter (·.chan == chan)).length
  let s := s.setFld GDR_REMAP_USED chan used
  s.setFld FAR_REMAP_MIN_FREE 0 (min (s.fld FAR_REMAP_MIN_FREE) (128 - used))

/-- The Farrier starts to copy a row to the next spare row of its bank, unless the row is being copied already; a
full bank sets REMAP_FULL. -/
def State.swapRow (s : State) (chan bank row : Nat) (outright : Bool) : State :=
  let n := s.bankEntries chan bank
  let part := rowPart chan bank row
  if s.gddrs.remaps.any fun r => r.chan == chan && r.entry / 8 == bank && r.row == row then s
  else if 8 ≤ n then (s.setFld GDR_STATUS_REMAP_FULL chan 1).spareOut kRow chan (bank * 2 ^ 24 + row)
  else
    let s := { s with gddrs := { s.gddrs with remaps := s.gddrs.remaps ++ [(⟨chan, bank * 8 + n, row, false⟩ : Remap)] } }
    (s.refreshRemap chan).spareIn kRow part chan outright (bank * 2 ^ 24 + row)

/-! ## Link lanes (R338) -/

/-- A lane of a link as a part. -/
def lanePart (link lane : Nat) : Nat := link * 16 + lane

/-- The state of a link; one never trained holds nothing. -/
def noLink : LinkSt := ⟨[], 0, 0, [], 0, 0, 0, [], []⟩
def State.link (s : State) (l : Nat) : LinkSt := tabGet noLink s.links l

/-- Change the state of a link. -/
def State.updLink (s : State) (l : Nat) (f : LinkSt → LinkSt) : State :=
  { s with links := tabModify noLink s.links l f }

/-- The lanes that a link runs on, as a mask, with the data lanes (and lane 8) that have failed: eight
lanes of 0 to 7 and the spare, or else the lowest four working lanes (R331, R338); none where fewer
work. -/
def laneMask (failed : List Nat) : Option Nat :=
  let ok := (List.range 9).filter fun n => !failed.contains n
  let data := ok.filter (· < 8)
  let mask := fun ls : List Nat => ls.foldl (fun m n => m + 2 ^ n) 0
  if data.length = 8 then some 0xFF
  else if ok.length = 8 then some (mask ok)
  else if 4 ≤ ok.length then some (mask (ok.take 4))
  else none

/-- Give a link its lanes: HLK_LANES, SPARE_IN and DEGRADED. -/
def State.setLanes (s : State) (l mask : Nat) : State :=
  let s := (s.setFld HLK_LANES_ACTIVE l mask).setFld HLK_STATUS_SPARE_IN l (mask.testBit 8).toNat
  let eight := (List.range 9).countP (fun n => mask.testBit n) == 8
  s.setFld HLK_STATUS_DEGRADED l (!eight).toNat

/-- Lane 8 is brought in for a data lane (R338), at a boundary or after the lane failed. -/
def State.swapLane (s : State) (l lane : Nat) (outright : Bool) : State :=
  let score := tabGet 0 s.far.scores (partKey kLane (lanePart l lane))
  let failed := lane :: (s.link l).failed
  match laneMask failed with
  | none => s.spareOut kLane (lanePart l lane) score
  | some m =>
    let used := s.flag HLK_STATUS_SPARE_IN l
    let s := s.updLink l fun x => { x with failed := failed }
    let s := s.setLanes l m
    if used then s.spareOut kLane (lanePart l lane) score
    else (s.useSpare FAR_SPARES_LANES).spareIn kLane (lanePart l lane) (lanePart l lane) outright score

/-! ## Swaps at a boundary (R465) -/

/-- A DUE part has a spare left; DUE parts without one stay in service (R467). -/
def State.hasSpare (s : State) (kind n : Nat) : Bool :=
  match kind with
  | 1 => !s.coreSpareUsed (n / 8)
  | 2 => !s.flag LFT_STATUS_SPARE_IN (n / 32)
  | 3 => !s.flag HLK_STATUS_SPARE_IN (n / 16)
  | 4 => decide (s.bankEntries (n / 2 ^ 32) (n / 2 ^ 24 % 256) < 8)
  | _ => false

/-- The partitions that a part serves (R465): every partition that holds the cluster or channel; a
link serves every partition. -/
def State.servedBy (s : State) (kind n : Nat) : List Nat :=
  match kind with
  | 1 => (s.partOfCluster (n / 8)).toList
  | 2 => (s.partOfCluster (n / 32)).toList
  | 4 => (List.range 32).filter fun p => s.hasChannel p (n / 2 ^ 32)
  | _ => List.range 32

/-- A DUE part is replaced after its trend. -/
def State.swapDue (s : State) (k : Nat) : State :=
  let kind := k / 2 ^ 40
  let n := k % 2 ^ 40
  if !s.hasSpare kind n || !(s.servedBy kind n).all s.atBoundary then s
  else match kind with
    | 1 => s.swapCore n false
    | 2 => s.swapWay (n / 32) (n % 32)
    | 3 => s.swapLane (n / 16) (n % 16) false
    | 4 => s.swapRow (n / 2 ^ 32) (n / 2 ^ 24 % 256) (n % 2 ^ 24) false
    | _ => s

/-- The DUE parts whose boundary has come are replaced, while AUTO is 1 or GO has been written; the
order is that in which they became DUE. -/
def State.spareSwaps (s : State) : State :=
  if !s.flag FAR_CFG_AUTO && !s.far.apply then s
  else
    let s := s.far.due.foldl (fun s k => s.swapDue k) s
    if s.far.due.all fun k => !s.hasSpare (k / 2 ^ 40) (k % 2 ^ 40) then
      { s with far := { s.far with apply := false } }
    else s

end Sys2Proof.Machine
end

