-- ==== Sys2Proof/Machine/Sectors.lean ====
section
/-! DEFINITION. Sectors that err: in the Lofts (spec/10 R270), in GDDR (spec/11 R289 to R293, R305) and in core
scratch (R519), the reset of a GDDR channel (R284, R297), and the errors that the accesses of one command meet. -/

namespace Sys2Proof.Machine

/-! ## Errors in a Loft (R270) -/

/-- The corrected sectors of a Loft access: counted, and events of the line's way (R270, R465). -/
def State.loftCe (s : State) (c way n : Nat) : State :=
  if n = 0 then s else (s.bump LFT_ECC_CE c n).farEvent kWay (wayPart c way) n

/-- An uncorrectable sector of a held line (R270): a clean one is invalidated, and the readers of the command take
poison; a dirty one is kept, poisoned, with the zeros that its write-back will carry (R291). -/
def State.loftUe (s : State) (c set line k : Nat) : State :=
  let s := (s.bump LFT_ECC_UE c).setFld LFT_STATUS_UE c 1
  let key := sectorKey line k
  let dirty := (s.loftLines c set).any fun l => l.line == line && l.dirty.testBit k
  if dirty then { s with mem := { s.mem with
    gddr := writeListed s.mem.gddr (key * 64) (List.replicate 64 0), bad := tabPut s.mem.bad key true } }
  else
    let s := s.updLine c set line fun l => { l with valid := l.valid - 2 ^ k }
    { s with loft := { s.loft with hurt := tabPut s.loft.hurt key true } }

/-! ## Where a line lies in its channel (R289, R292) -/

/-- The DRAM location of a line: bank, physical row, slot in the row, and the row of its check bytes. -/
structure Spot where
  bank : Nat
  row : Nat
  slot : Nat
  check : Nat
deriving DecidableEq, Repr

/-- The DRAM location of local line `q` of a channel (R289). -/
def spotOf (q : Nat) : Spot :=
  let d := q / 64
  ⟨q % 16 ^^^ d % 16, 33 * (d / 32) + d % 32, q / 16 % 4, 33 * (d / 32) + 32⟩

/-- The byte of a sector's check word within the check row (R290). -/
def checkByte (q sec : Nat) : Nat := 2 * (64 * (q / 64 % 32) + 16 * (q / 16 % 4) + sec)

/-- The local line of a line of an owner's space (R288). -/
def State.localLine (s : State) (owner l : Nat) : Nat :=
  (if owner = 0 then 0 else s.fld (PRT_GDDR_BASE_LINE (owner - 1))) + (chanMap (s.ownerChans owner) l).2

/-- The row that serves a row of a bank: the spare row of a remap entry that is on, of that spare row's entry in
turn (R292). -/
def State.servedRow (s : State) (chan bank : Nat) : Nat → Nat → Nat
  | 0, row => row
  | fuel + 1, row =>
    match s.gddrs.remaps.find? fun r => r.on && r.chan == chan && r.entry / 8 == bank && r.row == row with
    | some r => s.servedRow chan bank fuel (130944 + r.entry % 8)
    | none => row

/-- The bank, and the physical row in service, of a line of an owner's space (R289, R292). -/
def State.rowOfLine (s : State) (owner l : Nat) : Nat × Nat :=
  let x := spotOf (s.localLine owner l)
  (x.bank, s.servedRow (s.channelOf owner l) x.bank 8 x.row)

/-! ## Errors in GDDR (R290, R292, R305) -/

/-- Corrected sectors of a row (R290, R465). -/
def State.gddrCe (s : State) (owner l n : Nat) : State :=
  if n = 0 then s
  else
    let chan := s.channelOf owner l
    let (bank, row) := s.rowOfLine owner l
    (s.countEcc chan owner n 0).farEvent kRow (rowPart chan bank row) n

/-- A sector is uncorrectable from now on (R290): each read of it counts; it is an outright failure of its row
(R465). -/
def State.gddrUe (s : State) (owner l k : Nat) : State :=
  let chan := s.channelOf owner l
  let (bank, row) := s.rowOfLine owner l
  let key := sectorKey (lineKey owner l) k
  if (tabFind s.mem.bad key).isSome then s
  else { s with mem := { s.mem with bad := tabPut s.mem.bad key false } }.swapRow chan bank row true

/-- An event of the table of R305 is counted, by its row. -/
def State.memEvent (s : State) (k : Nat) (n : Nat := 1) : State :=
  if n = 0 then s else { s with gddrs := { s.gddrs with events := tabModify 0 s.gddrs.events k (· + n) } }

/-! ## The reset of a channel (R284, R297, R326, R470) -/

/-- Prefetches whose fill has not landed are cancelled and counted (R326). -/
def State.cancelPf (s : State) (q : Prefetch → Bool) : State :=
  let gone := s.yard.prefetches.filter q
  if gone.isEmpty then s
  else
    let mark := fun f : Fill =>
      if f.prefetch && gone.any fun g => g.line == f.line then { f with cancelled := true } else f
    let s := { s with
      yard := { s.yard with prefetches := s.yard.prefetches.filter fun g => !q g }
      loft := { s.loft with
        fills := s.loft.fills.map mark
        waiting := s.loft.waiting.map fun h => { h with fill := mark h.fill } } }
    gone.foldl (fun (s : State) g => s.bump YMS_PF_CANCELLED_COUNT g.part) s

/-- The records of a ring, from block `n`, that hold a lost block. -/
def State.dayLostFrom (s : State) (fn : Nat) (lost : Nat → Bool) (upto : Nat) : Nat → Nat → Nat
  | 0, _ => 0
  | k + 1, n =>
    if upto ≤ n then 0
    else
      let ext := fieldAt (s.dayBlock fn n) 18 2
      let hit := (List.range (ext + 1)).any fun j => lost (n + j)
      hit.toNat + s.dayLostFrom fn lost upto k (n + 1 + ext)

/-- Blocks of a function's ring are lost (R470): LOST and the records lost; the owner's day-book source
for the module ring. -/
def State.dayLose (s : State) (fn : Nat) (lost : Nat → Bool) : State :=
  if !s.dayOn fn then s
  else
    let upto := s.reg64 DAY_NEXT_SEQ_LO fn
    let from_ := s.reg64 DAY_OLDEST_SEQ_LO fn
    let n := s.dayLostFrom fn lost upto (upto - from_) from_
    if n = 0 then s
    else
      let s := (s.setFld DAY_STATUS_LOST fn 1).bump DAY_LOST_COUNT fn n
      if fn = 0 then s.raise 0 71 else s

/-- Add 1 to an epoch byte of a register (R457). -/
def State.epochUp (s : State) (off k : Nat) : State :=
  s.setReg off 0 (setBits (s.reg off) (8 * k) 8 (getBits (s.reg off) (8 * k) 8 + 1))

/-- Set or clear a bit of a register. -/
def State.setBitOf (s : State) (off inst k : Nat) (b : Bool) : State :=
  s.setReg off inst (setBits (s.reg off inst) k 1 b.toNat)

/-- A GDDR channel enters reset, unless it is there already: its epoch rises, every Loft drops its lines
with their dirty sectors counted, and blocks of day-book rings still dirty there are lost. -/
def State.channelReset (s : State) (n : Nat) : State :=
  if s.chanDown n then s
  else
    let s := (List.range 33).foldl (fun (s : State) fn => s.dayLose fn fun b =>
      s.channelOf fn (s.dayAddr fn b / 1024) == n &&
        (tabFind s.loft.stale (gddrKey fn (s.dayAddr fn b) / 64)).isSome) s
    let s := s.epochUp (BOOT_EPOCH_GDR (n / 4)) (n % 4)
    let s := (s.setFld GDR_STATUS_IN_RESET n 1).setFld GDR_STATUS_TRAINED n 0
    let s := (s.setFld GDR_STATUS_RETAINED n 0).setBitOf BOOT_INRESET_UNIT 0 n true
    let s := { s with
      gddrs := { s.gddrs with
        sweeps := tabDel s.gddrs.sweeps n, throttle := tabDel s.gddrs.throttle n, fast := tabDel s.gddrs.fast n }
      loft := { s.loft with setWait := s.loft.setWait.filter fun w => s.channelOf (w.part + 1) w.line != n } }
    let s := (List.range 32).foldl (fun (s : State) c => s.dropLines c true fun l => s.chanOfKey l.line == n) s
    s.cancelPf fun g => s.chanOfKey g.line == n

/-- An access of a channel failed its EDC CRC (R293, R305): its retries are counted; where the third fails too the
channel is reset. -/
def State.crcRetry (s : State) (chan retries : Nat) (fail : Bool) : State :=
  let n := if fail then 3 else min retries 3
  let s := if n = 0 then s else s.bump GDR_CRC_RETRY_COUNT chan n
  if fail then (s.memEvent 1).channelReset chan else s

/-! ## The MARK that a channel reset leaves (R297 step 4) -/

/-- The local lines of a channel. -/
abbrev chanLines : Nat := 8126464

/-- The first local line and the lines of an owner's space on each of its channels (R399). -/
def State.ownerRange (s : State) (owner : Nat) : Nat × Nat :=
  if owner = 0 then (0, s.fld PRT_OWNER_LINES_LINES)
  else (s.fld (PRT_GDDR_BASE_LINE (owner - 1)), s.fld (PRT_GDDR_LINES_LINES (owner - 1)))

/-- The lines of an owner's space that lie on a channel. -/
def State.linesOn (s : State) (owner n : Nat) : List Nat :=
  (List.range (s.gddrSize owner / 1024)).filter fun l => s.channelOf owner l == n

/-- A range without the part of it that another range covers. -/
def cutRange (r : Nat × Nat) (a n : Nat) : List (Nat × Nat) :=
  (if r.1 < a then [(r.1, min (r.1 + r.2) a - r.1)] else []) ++
    (if a + n < r.1 + r.2 then [(max r.1 (a + n), r.1 + r.2 - max r.1 (a + n))] else [])

/-- Lines of an owner's space hold zeros with MARK 0b10110. -/
def State.markLines (s : State) (owner : Nat) (ls : List Nat) : State :=
  ls.foldl (fun (s : State) l =>
    (s.writeGddr owner (l * 1024) (List.replicate 1024 0)).poisonGddr owner (l * 1024) 1024) s

/-- Every sector of a channel is written with zeros and MARK 0b10110 (R297 step 4): those of the spaces that lie
there now, and the rest for the spaces to come. -/
def State.wipeChannel (s : State) (n : Nat) : State :=
  let owners := 0 :: ((List.range 32).filter fun p => s.hasChannel p n).map (· + 1)
  let s := owners.foldl (fun (s : State) o => s.markLines o (s.linesOn o n)) s
  let rest := owners.foldl (fun (rs : List (Nat × Nat)) o => rs.flatMap fun r =>
    cutRange r (s.ownerRange o).1 (s.ownerRange o).2) [(0, chanLines)]
  ({ s with gddrs := { s.gddrs with marked := tabSet [] s.gddrs.marked n rest } }).countGddr n (16 * chanLines) true

/-- An owner's space takes in lines that still hold the MARK of a channel reset. -/
def State.takeMarked (s : State) (owner : Nat) : State :=
  (s.ownerChans owner).foldl (fun (s : State) n =>
    let rs := tabGet [] s.gddrs.marked n
    if rs.isEmpty then s
    else
      let hit := (s.linesOn owner n).filter fun l => rs.any fun r =>
        decide (r.1 ≤ s.localLine owner l ∧ s.localLine owner l < r.1 + r.2)
      let left := rs.flatMap fun r => cutRange r (s.ownerRange owner).1 (s.ownerRange owner).2
      { s.markLines owner hit with gddrs := { s.gddrs with marked := tabSet [] s.gddrs.marked n left } }) s

/-! ## The errors that a command's accesses meet -/

/-- An error in a unit of core scratch (R519): corrected and counted for the core, or kept until a whole write
replaces the unit. -/
def State.scratchError (s : State) (core unit : Nat) (err : MemError) : State :=
  if 49152 ≤ unit then s
  else match err with
    | .corrected => s.farEvent kCore core 1
    | .uncorrectable => { s with mem := { s.mem with
        scratchBad := tabPut s.mem.scratchBad (scratchKey core (unit * 64) / 64) true } }
    | .crc .. => s

/-- An error in a sector of an owner's GDDR: of the Loft where the home Loft holds the sector, of the channel
otherwise. -/
def State.sectorError (s : State) (owner unit : Nat) (err : MemError) : State :=
  let l := unit / 16
  let k := unit % 16
  let line := lineKey owner l
  let (c, set) := s.homeOf (owner - 1) l
  let chan := s.channelOf owner l
  let held := if owner = 0 then none
    else (s.loftLines c set).find? fun x => x.line == line && x.valid.testBit k
  if decide (s.gddrSize owner ≤ l * 1024) || s.chanDown chan then s
  else match held, err with
    | some x, .corrected => s.loftCe c x.way 1
    | some _, .uncorrectable => s.loftUe c set line k
    | none, .corrected => s.gddrCe owner l 1
    | none, .uncorrectable => s.gddrUe owner l k
    | _, .crc n fail => s.crcRetry chan n fail

/-- The errors that the accesses of a function meet. -/
def State.meets (s : State) (fn : Nat) (errs : List MemEvent) : State :=
  errs.foldl (fun (s : State) e => match e.core with
    | some c => s.scratchError c e.unit e.err
    | none => s.sectorError fn e.unit e.err) s

/-- Run a command's body with the errors that the accesses of a function meet in it; what a Loft delivered from a
clean sector it found uncorrectable is poison for the body's readers only. -/
def State.meeting (s : State) (fn : Nat) (errs : List MemEvent) (body : State → State) : State :=
  if errs.isEmpty then body s
  else
    let t := body (s.meets fn errs)
    { t with loft := { t.loft with hurt := [] } }

/-- The unit code of an uncorrectable or poisoned read at a place (R461): core scratch, a Loft that held the
sector, or a GDDR sector. -/
def State.badCode (s : State) (fn : Nat) (pl : Place) (n : Nat) : Nat :=
  match pl with
  | .scratch .. => 0x0F
  | .gddr o => if (unitsOf (gddrKey fn o) n).any fun u => (tabFind s.loft.hurt u).isSome ||
      ((tabFind s.mem.bad u).isSome && (tabFind s.loft.stale u).isSome) then 0x07 else 0x08
  | .host _ => 0x08

end Sys2Proof.Machine
end

