-- ==== Sys2Proof/Machine/StepOps.lean ====
section
/-! DEFINITION. What every unit of an executing step uses: the addresses of tensors (R47, R308, R315),
protected regions (R203, R470), reading and writing bales with poison and digest (R461, R477), and
messages to the Halter network (R157). -/

namespace Sys2Proof.Machine

/-! ## The Ostler's regions (R199, R203) -/

/-- The SHAPE byte of a page half (R206): LAYOUT 0, SCALE_AXIS 1 for block-scaled formats. -/
def halfShape (format : Nat) : Nat := if blockScaled format then 2 else 0

/-- B of R199: a half bale of a format and head dimension, header included. -/
def halfBytes (format d : Nat) : Nat := 64 + payloadSize format (halfShape format) d 128

/-- PAGE_BYTES or MANGER_BYTES for a format (R199). -/
def frameBytes (format d groups : Nat) : Nat := roundUp (1088 + groups * 4 * halfBytes format d) 4096

/-- The manger format of a pool format (R199). -/
def mangerFormat (format : Nat) : Nat := if blockScaled format then 2 else format

def State.kvFormat (s : State) (p : Nat) : Nat := s.fld OST_KV_CFG_FORMAT p
def State.kvD (s : State) (p : Nat) : Nat := s.fld OST_KV_CFG_D p
def State.kvGroups (s : State) (p : Nat) : Nat := s.fld OST_KV_CFG_GROUPS p
def State.pageBytes (s : State) (p : Nat) : Nat := frameBytes (s.kvFormat p) (s.kvD p) (s.kvGroups p)
def State.mangerBytes (s : State) (p : Nat) : Nat :=
  frameBytes (mangerFormat (s.kvFormat p)) (s.kvD p) (s.kvGroups p)

/-- The pool of a partition is enabled (R200). -/
def State.kvOn (s : State) (p : Nat) : Bool := s.flag OST_STATUS_ENABLED p

/-- The bytes of one stream's area in the stream table (R202). -/
def State.streamArea (s : State) (p : Nat) : Nat := 64 + 2 ^ (s.fld OST_KV_CFG_MAXPG_LOG2 p + 2)

/-- The GDDR regions of a pool (R203): base and length of frames, stream table and mangers. -/
def State.kvRegions (s : State) (p : Nat) : List (Nat × Nat) :=
  [(s.reg64 OST_POOL_BASE_LO p, s.fld OST_POOL_FRAMES_COUNT p * s.pageBytes p),
   (s.reg64 OST_TABLE_BASE_LO p, s.fld OST_STREAMS_COUNT p * s.streamArea p),
   (s.reg64 OST_MANGER_BASE_LO p, s.fld OST_MANGERS_COUNT p * s.mangerBytes p)]

/-- A range of a function's memory overlaps a region of its enabled pool (R203). -/
def State.hitsOstler (s : State) (fn : Nat) (pl : Place) (n : Nat) : Bool :=
  fn != 0 && s.kvOn (fn - 1) && match pl with
    | .gddr o => (s.kvRegions (fn - 1)).any fun r => overlaps o n r.1 r.2
    | .host a => overlaps a n (s.reg64 OST_HOST_BASE_LO (fn - 1))
        (s.fld OST_HOST_FRAMES_COUNT (fn - 1) * s.pageBytes (fn - 1))
    | .scratch .. => false

/-- A range at a place overlaps the function's day book ring (R470). -/
def State.hitsDayAt (s : State) (fn : Nat) (pl : Place) (n : Nat) : Bool :=
  match pl with
  | .gddr o => s.hitsDay fn o n
  | _ => false

/-! ## Tensors (R47, R308, R315) -/

/-- The device address of a tensor in the executing step: the run's argument, the placement, or its
binding. -/
def State.tensorAddr (s : State) (p id : Nat) : Option Nat :=
  match s.stepOf p with
  | none => none
  | some st =>
    match st.args.find? (·.1 == id) with
    | some a => some a.2
    | none => match s.planOf p st.plan with
      | none => none
      | some pl => match pl.homes.find? (·.1 == id) with
        | some h => some h.2
        | none => (pl.tensor id).bind fun t => if t.binding = 0 then none else some t.binding

/-- A place in a tensor: none where it is unplaced or outside the partition (R401). -/
def State.tensorPlace (s : State) (p id off n : Nat) : Option Place :=
  match s.tensorAddr p id with
  | none => none
  | some a => match s.place (p + 1) (a + off) n with
    | .ok pl => some pl
    | .error _ => none

/-- A UINT32 word of a tensor, if it can be read. -/
def State.tensorWord (s : State) (p id k : Nat) : Option Nat :=
  match s.tensorPlace p id (4 * k) 4 with
  | none => none
  | some pl =>
    let dark := match pl with
      | .host a => s.hostDark a 4
      | _ => false
    if dark || s.badAt (p + 1) pl 4 || s.placeDown (p + 1) pl 4 then none
    else some (leNat (s.readAt (p + 1) pl 4))

/-- Write a UINT32 word of a tensor, its sector read and written whole. -/
def State.setTensorWord (s : State) (p id k v : Nat) : State :=
  match s.tensorPlace p id (4 * k) 4 with
  | none => s
  | some pl => s.writeAt (p + 1) pl (leBytes 4 v)

/-! ## Bales in memory -/

/-- A place as one number. -/
def softKey : Place → Nat
  | .host a => a
  | .gddr o => 2 ^ 60 + o
  | .scratch c o => 2 ^ 61 + scratchKey c o

/-- A bale as read from memory. -/
structure BaleRead where
  bale : Bale
  pl : Place
  /-- Sectors of it are poisoned or uncorrectable (R290, R270, R519), with the unit code of R461. -/
  bad : Bool
  code : Nat
  /-- A target of the read is in reset, or a reset lost what should lie there (R283). -/
  down : Bool
deriving DecidableEq, Repr

/-- Where a bale lay, by `softKey`. -/
def BaleRead.key (b : BaleRead) : Nat := softKey b.pl

/-! ## What a reset lost (R194, R283) -/

/-- A reset lost the data of some byte of a range. -/
def State.lostAt (s : State) (p : Nat) (pl : Place) (n : Nat) : Bool :=
  match s.stepOf p with
  | some st => st.lost.any fun r => overlaps r.1 r.2 (softKey pl) n
  | none => false

/-- A reset loses the data of a range, or data lands in it after all. -/
def State.lose (s : State) (p : Nat) (pl : Place) (n : Nat) : State :=
  s.updStep p fun st => { st with lost := (softKey pl, n) :: st.lost }
def State.regain (s : State) (p : Nat) (pl : Place) (n : Nat) : State :=
  s.updStep p fun st =>
    let cut := fun r => if overlaps r.1 r.2 (softKey pl) n then cutRange r (softKey pl) n else [r]
    { st with lost := st.lost.flatMap cut }

/-- A step's read of a range takes poisoned zeros for a reset. -/
def State.stepDown (s : State) (p : Nat) (pl : Place) (n : Nat) : Bool :=
  s.placeDown (p + 1) pl n || s.lostAt p pl n

/-- Read the bale at a place, its size taken from its own header. -/
def State.readBale (s : State) (fn : Nat) (pl : Place) : BaleRead :=
  let h := readHdr (s.readAt fn pl 64)
  let n := min h.payload 0x20000
  { bale := ⟨h, s.readAt fn (placeAdd pl 64) n⟩
    pl := pl, bad := s.badAt fn pl (64 + n), code := s.badCode fn pl (64 + n)
    down := s.placeDown fn pl (64 + n) }

/-- Read a bale of the executing step. -/
def State.stepBale (s : State) (p : Nat) (pl : Place) : BaleRead :=
  let b := s.readBale (p + 1) pl
  { b with down := b.down || s.lostAt p pl b.bale.hdr.size }

/-- A fetch into a tensor is under way (R279): its readers wait. -/
def State.fetching (s : State) (p tensor : Nat) : Bool :=
  match s.stepOf p with
  | some st => st.fetches.any fun f => f.tensor == tensor && !f.landed && !f.withdrawn
  | none => false

/-- Some fetch into a tensor that is under way has not reached its deadline (R279). -/
def State.fetchEarly (s : State) (p tensor : Nat) : Bool :=
  match s.stepOf p with
  | some st => st.fetches.any fun f =>
      f.tensor == tensor && !f.landed && !f.withdrawn && decide (s.beat < f.deadline)
  | none => false

/-- The cluster of a unit of a step: a core, or 256 more than a drover's number. -/
def unitCluster (u : Nat) : Nat := if u < 256 then u / 8 else (u - 256) / 4

/-- A unit's wait for a fetch before its deadline is over: its core clocks are counted (R279). -/
def State.earlyEnd (s : State) (p u : Nat) : State :=
  match (s.stepOf p).bind fun st => st.early.find? (·.1 == u) with
  | none => s
  | some e =>
    let s := s.updStep p fun st => { st with early := st.early.filter (·.1 != u) }
    if s.loft.now ≤ e.2 then s else s.bump CLU_FETCH_EARLY_CC_COUNT (unitCluster u) (s.loft.now - e.2)

/-- Every such wait of a step is over. -/
def State.earlyEnds (s : State) (p : Nat) : State :=
  (((s.stepOf p).map (·.early)).getD []).foldl (fun (s : State) e => s.earlyEnd p e.1) s

/-- A unit that needs some tensors waits for the fetches of them under way; the wait is an early one while one of
them has not reached its deadline (R279). -/
def State.fetchWait (s : State) (p u : Nat) (ts : List Nat) : State :=
  if ts.any (s.fetchEarly p) then
    s.updStep p fun st =>
      if st.early.any (·.1 == u) then st else { st with early := (u, s.loft.now) :: st.early }
  else s.earlyEnd p u

/-- What a step's bale adds to its digest (R477). -/
def digestOf (b : List Byte) : Nat :=
  crc32 (sliceBytes b 1 1 ++ sliceBytes b 8 4 ++ sliceBytes b 16 8 ++ sliceBytes b 28 1 ++ b.drop 64)

/-- A bale that a step has written at a place (R461): the count of poisoned bales and the step's cause; `dirty`
says whether poison in it entered by a cause other than a reset. -/
def State.markBale (s : State) (p : Nat) (pl : Place) (b : Bale) (dirty : Bool) : State :=
  let s := s.updStep p fun st => { st with
    poisoned := if b.poison then st.poisoned + 1 else st.poisoned
    soft := if b.poison && !dirty then softKey pl :: st.soft else st.soft.filter (· != softKey pl) }
  if b.poison && dirty then s.stepCause p 0x0B else s

/-- A bale that a step writes to memory or to host (R461, R477), with what it adds to the digest. -/
def State.writeBale (s : State) (p : Nat) (pl : Place) (b : Bale) (dirty : Bool) (hint : Option Nat) :
    State :=
  let bs := b.bytes
  let s := match pl with
    | .gddr o => s.writeMem (p + 1) o bs hint
    | _ => s.writeAt (p + 1) pl bs
  let s := (s.regain p pl bs.length).updStep p fun st => { st with digest := (st.digest + digestOf bs) % 2 ^ 64 }
  s.markBale p pl b dirty

/-- The bale at a place was written by the executing step with poison from reset responses only (R461). -/
def State.isSoft (s : State) (p key : Nat) : Bool :=
  match s.stepOf p with
  | some st => st.soft.contains key
  | none => false

/-- The sector or header poison of a bale just read, as a cause of the step (R461): the unit code of the
memory it lay in, or poison an earlier operation wrote. -/
def State.readCause (s : State) (p : Nat) (b : BaleRead) : State :=
  if b.bad then s.stepFault p b.code
  else if b.bale.poison && !s.isSoft p b.key then s.stepFault p 0x0B
  else s

/-- A unit of the step takes a bale: its sectors pass the home Loft, and its poison is a cause of the step. -/
def State.took (s : State) (p : Nat) (b : BaleRead) (hint : Option Nat := none) : State :=
  (s.touch (p + 1) b.pl b.bale.hdr.size hint).readCause p b

/-- A unit of the step takes a word of a tensor: its sector passes the home Loft. -/
def State.tookWord (s : State) (p id k : Nat) : State :=
  match s.tensorPlace p id (4 * k) 4 with
  | some pl => s.touch (p + 1) pl 4
  | none => s

/-- The STICKY bits of flag events (R115): OVF, non-finite, saturation. -/
def stickyOf (f : Flags) : Nat := f.ovf.toNat + 2 * f.nf.toNat + 4 * f.sat.toNat

/-! ## Messages to the Halter network (R157) -/

/-- Put a Halter message on its way to its home. -/
def State.halterSend (s : State) (p id : Nat) (op : HalterOp) : State :=
  { s with halter := { s.halter with flying := s.halter.flying ++ [⟨p, id, op⟩] } }

/-- SIGNAL a semaphore of a plan. -/
def State.signal (s : State) (p id : Nat) (amount : Nat := 1) : State := s.halterSend p id (.signal amount)

/-- WAIT on a semaphore of a plan. -/
def State.semWait (s : State) (p id : Nat) (w : Waiter) (amount : Nat := 1) : State :=
  s.halterSend p id (.semWait w amount)

/-! ## Replays (R474 to R476) -/

/-- A block of a partition's records: of its ring, or of the import area. -/
def State.recBlock (s : State) (p : Nat) (imported : Bool) (n : Nat) : List Byte :=
  if imported then s.readGddr (p + 1) (s.reg64 DAY_IMPORT_BASE_LO (p + 1) + 64 * n) 64
  else s.dayBlock (p + 1) n

/-- A record as read back: its block, TYPE, PLAN_ID, STEP, header block, and continuation bytes. -/
structure DayRec where
  block : Nat
  type : Nat
  plan : Nat
  step : Nat
  head : List Byte
  ext : List Byte
deriving DecidableEq, Repr

/-- The record whose header is block `n`. -/
def State.readRec (s : State) (p : Nat) (imported : Bool) (n : Nat) : DayRec :=
  let h := s.recBlock p imported n
  { block := n, type := fieldAt h 16 1, plan := fieldAt h 17 1, step := fieldAt h 24 8, head := h
    ext := (List.range (fieldAt h 18 2)).flatMap fun k => s.recBlock p imported (n + 1 + k) }

/-- The CRC of a record holds (R471). -/
def DayRec.good (r : DayRec) : Bool := crc32 (sliceBytes r.head 0 60 ++ r.ext) == fieldAt r.head 60 4

/-- The end of the records: the ring's next block, or the import area's length. -/
def State.recEnd (s : State) (p : Nat) (imported : Bool) : Nat :=
  if imported then s.fld DAY_IMPORT_BLOCKS_COUNT (p + 1) else s.reg64 DAY_NEXT_SEQ_LO (p + 1)

/-- The records from block `n`, at most `fuel` of them. -/
def State.recsFrom (s : State) (p : Nat) (imported : Bool) : Nat → Nat → List DayRec
  | 0, _ => []
  | k + 1, n =>
    if s.recEnd p imported ≤ n then []
    else
      let r := s.readRec p imported n
      r :: s.recsFrom p imported k (n + 1 + fieldAt r.head 18 2)

/-- The records of one recorded step: from its STEP_BEGIN to before its STEP_END. -/
def State.stepRecs (s : State) (p : Nat) (imported : Bool) (begin_ : Nat) : List DayRec :=
  (s.recsFrom p imported (s.recEnd p imported - begin_) begin_).takeWhile fun r => r.type != 2

/-- The records that the executing step replays; empty where it is no replay (R476). -/
def State.replayRecs (s : State) (p : Nat) : List DayRec :=
  match s.stepOf p with
  | some st => match st.replay with
    | some b => s.stepRecs p (((tabFind s.yard.armed p).map (·.imported)).getD false) b
    | none => []
  | none => []

end Sys2Proof.Machine
end

