-- ==== Sys2Proof/Machine/Partitions.lean ====
section
/-! DEFINITION. Partitions (spec/15): enabling, configuration, isolation mode, window maps and the end
of a release. Writing RELEASE itself is in Machine/Resets.lean, beside the function-level reset. -/

namespace Sys2Proof.Machine

/-- Every partition is FREE. -/
def State.allFree (s : State) : Bool := (List.range 32).all fun p => s.prtState p == 0

/-- The other partitions that are not FREE. -/
def State.others (s : State) (p : Nat) : List Nat :=
  (List.range 32).filter fun q => q != p && s.prtState q != 0

/-- A cluster made unavailable by a failed part (R467). -/
def State.cluGone (s : State) (c : Nat) : Bool := tabGet false s.far.unavailable c

/-- Cause 0x1 (R398): no cluster, or one of another partition that is not FREE; an unavailable one
counts as held by another (R467). -/
def State.prtBad1 (s : State) (p : Nat) : Bool :=
  let m := s.fld (PRT_CLUSTERS_MASK p)
  m == 0 || (List.range 32).any fun c =>
    m.testBit c && (s.cluGone c || (s.others p).any fun q => (s.fld (PRT_CLUSTERS_MASK q)).testBit c)

/-- Cause 0x2: no channel or no line. -/
def State.prtBad2 (s : State) (p : Nat) : Bool :=
  s.fld (PRT_CHANNELS_MASK p) == 0 || s.fld (PRT_GDDR_LINES_LINES p) == 0

/-- Cause 0x3: the range leaves the channel, starts in the owner region, or overlaps another's. -/
def State.prtBad3 (s : State) (p : Nat) : Bool :=
  let b := s.fld (PRT_GDDR_BASE_LINE p)
  let n := s.fld (PRT_GDDR_LINES_LINES p)
  decide (8126464 < b + n) || decide (b < s.fld PRT_OWNER_LINES_LINES) ||
    (s.others p).any fun q =>
      s.fld (PRT_CHANNELS_MASK p) &&& s.fld (PRT_CHANNELS_MASK q) != 0 &&
        overlaps b n (s.fld (PRT_GDDR_BASE_LINE q)) (s.fld (PRT_GDDR_LINES_LINES q))

/-- Cause 0x4: the shed range leaves the shed, or overlaps another's. -/
def State.prtBad4 (s : State) (p : Nat) : Bool :=
  let f := s.fld (PRT_SHED_FIRST_PAGE p)
  let n := s.fld (PRT_SHED_PAGES_COUNT p)
  n != 0 && (decide (976562500 < f + n) || (s.others p).any fun q =>
    overlaps f n (s.fld (PRT_SHED_FIRST_PAGE q)) (s.fld (PRT_SHED_PAGES_COUNT q)))

/-- Cause 0x5: another partition has the domain partition ID. -/
def State.prtBad5 (s : State) (p : Nat) : Bool :=
  (s.others p).any fun q => s.fld (PRT_DOMAIN_PART_ID q) == s.fld (PRT_DOMAIN_PART_ID p)

/-- The channel set includes a channel of a die. -/
def State.onDie (s : State) (p die : Nat) : Bool := s.fld (PRT_CHANNELS_MASK p) / 2 ^ (6 * die) % 64 != 0

/-- Cause 0x6: a quota of 0, or quotas above what a die or the shed has. -/
def State.prtBad6 (s : State) (p : Nat) : Bool :=
  let all := p :: s.others p
  s.fld (PRT_INFLIGHT_GDDR p) == 0 ||
    (s.fld (PRT_INFLIGHT_SHED p) == 0 && s.fld (PRT_SHED_PAGES_COUNT p) != 0) ||
    ((List.range 4).any fun d => decide (16384 < (all.filter fun q => s.onDie q d).foldl
      (fun n q => n + s.fld (PRT_INFLIGHT_GDDR q)) 0)) ||
    decide (512 < all.foldl (fun n q => n + s.fld (PRT_INFLIGHT_SHED q)) 0)

/-- The lowest cause that refuses the enable of a partition (R398, R521). -/
def State.prtCause (s : State) (p : Nat) : Option Nat :=
  if s.prtBad1 p then some 1 else if s.prtBad2 p then some 2 else if s.prtBad3 p then some 3
  else if s.prtBad4 p then some 4 else if s.prtBad5 p then some 5 else if s.prtBad6 p then some 6
  else none

/-- A random number of `n` words, drawn by a unit of the module (log entry 8). -/
def State.drawWords (s : State) : Nat → Nat × State
  | 0 => (0, s)
  | n + 1 =>
    let (r, t) := s.drawWords n
    (r * 2 ^ 32 + (Config.randomWord t.freeCount).toNat, { t with freeCount := t.freeCount + 1 })

/-- The partition becomes ACTIVE (R398): its counters return to 0, its data keys and pedigree key are
drawn (R405, R226), its function's CLUSTER_SEL names its lowest cluster (R30), and its GDDR holds the MARK where a
channel reset left it (R297). -/
def State.activate (s : State) (p : Nat) : State :=
  let s := (s.setFld (PRT_STATE_STATE p) 0 1).setFld (PRT_CTRL_ENABLE p) 0 1
  let s := (s.setReg (PRT_VIOL_COUNT p) 0 0).setReg (PRT_SCRUB_MS p) 0 0
  let (key, s) := s.drawWords 4
  let s := { s with
    parts := { s.parts with draws := s.parts.draws + 1, keys := tabPut s.parts.keys p (s.parts.draws + 1) }
    kv := { s.kv with keys := tabPut s.kv.keys p key } }
  (s.setFld CLUSTER_SEL_CLUSTER (p + 1) ((s.clustersOf p).head?.getD 0)).takeMarked (p + 1)

/-- ENABLE = 1 in PRT_CTRL (R398): nothing while the partition is not FREE; refused with its cause, or
made ACTIVE. -/
def prtEnable (s : State) (p : Nat) : State :=
  if s.prtState p ≠ 0 then s
  else match s.prtCause p with
    | some c => s.prtErr c p
    | none => s.activate p

/-- WHISTLE as a PRT_CTRL write leaves it; it acts at the next plan boundary of every partition. -/
def prtWhistle (s : State) (p : Nat) (val : Word) : State :=
  s.setFld (PRT_CTRL_WHISTLE p) 0 (getBits val 2 1)

/-! ## Configuration registers (R398, R413) -/

/-- Store the RW bits of a register (R8). -/
def State.writeRw (s : State) (off inst : Nat) (v : Word) : State :=
  match rowOf off with
  | none => s
  | some r =>
    let m := accMask r .rw
    s.setReg off inst ((s.reg off inst &&& ~~~m) ||| (v &&& m))

/-- The partition and register offset of a PRT configuration register. -/
def prtConfigOf (off : Nat) : Option (Nat × Nat) :=
  if 0x0400100 ≤ off ∧ off < 0x0400900 then
    let r := (off - 0x0400100) % 0x40
    if 0x08 ≤ r ∧ r ≤ 0x24 ∧ r % 4 = 0 then some ((off - 0x0400100) / 0x40, r) else none
  else none

/-- A write of a configuration register, PRT_CLUSTERS to PRT_INFLIGHT, or of PRT_OWNER_LINES: taken
while the partition (every partition) is FREE, else ignored with cause 0x7 (R398, R413). -/
def prtConfigWrite (s : State) (off : Nat) (val : Word) : State :=
  if off = PRT_OWNER_LINES then
    if s.allFree then (s.writeRw off 0 val).takeMarked 0 else s.prtErr 0x7 0x3F
  else match prtConfigOf off with
    | none => s
    | some (p, _) => if s.prtState p = 0 then s.writeRw off 0 val else s.prtErr 0x7 p

def execPrtConfigWrite (off : Nat) (val : Word) (s : State) : Out := .next (prtConfigWrite s off val)

/-! ## Isolation mode and window maps (R404, R406 to R408) -/

/-- A write of PRT_MODE (R404): only ISOLATE = 1 acts, while signed Nynik runs and every partition is
FREE; otherwise it is refused with cause 0x8. -/
def isolateWrite (s : State) (val : Word) : State :=
  if !bitOf val 0 then s
  else if s.flag PRT_MODE_SIGNED && s.allFree then s.setFld PRT_MODE_ISOLATE 0 1
  else s.prtErr 0x8 0x3F

def execIsolateWrite (val : Word) (s : State) : Out := .next (isolateWrite s val)

/-- Store a window-map word, its reserved bits 13:11 of each entry 0 (R406). -/
def State.storeWindow (s : State) (off : Nat) (val : Word) : State := s.setReg off 0 (val &&& 0xC7FFC7FF)

/-- A window-map write (R408): at once while no step executes, else held to the next plan
boundary of every partition. -/
def windowWrite (s : State) (off : Nat) (val : Word) : State :=
  if ¬(0x0401000 ≤ off ∧ off < 0x0401000 + 0x20 * 56 ∧ off % 4 = 0) then s
  else if !s.executing then s.storeWindow off val
  else { s with parts := { s.parts with heldWindows := tabPut s.parts.heldWindows off val } }

def execWindowMapWrite (off : Nat) (val : Word) (s : State) : Out := .next (windowWrite s off val)

/-- The entry that governs a beat in an instance's map (R406). -/
def State.windowEntry (s : State) (i beat : Nat) : Nat :=
  let e := beat % 16
  getBits (s.reg (PRT_WINDOW i (e / 2))) (16 * (e % 2)) 16

/-- An entry serves a domain partition: not IDLE, not OWNER, and its ID. -/
def windowServes (entry id : Nat) : Bool := entry / 2 ^ 14 == 0 && entry % 2 ^ 11 == id

/-- Some window of an instance serves a domain partition (R408). -/
def State.windowAny (s : State) (i id : Nat) : Bool :=
  (List.range 16).any fun b => windowServes (s.windowEntry i b) id

/-- An instance may serve a function now (R407): always without isolation, else in a window of its
partition, or for the owner in an OWNER window. -/
def State.windowOpen (s : State) (i fn : Nat) : Bool :=
  let e := s.windowEntry i s.beat
  !s.isolated ||
    (if fn = 0 then e / 2 ^ 14 == 1 else windowServes e (s.fld (PRT_DOMAIN_PART_ID (fn - 1))))

/-! ## The end of a release (R402) -/

/-- Every started descriptor of the function has finished, and every operation it issued has ended. -/
def State.workEnded (s : State) (p : Nat) : Bool :=
  s.host.flights.all (fun f => f.fn != p + 1) && (s.stepOf p).isNone &&
    s.shed.ops.all (fun o => o.fn != p + 1) && s.drovers.all (fun d => d.2.part != p)

/-- Steps 2 to 5 of a release (R402, R403): keys destroyed, Lofts dropped, scratch zeroed, the GDDR
range and the shed mappings scrubbed. -/
def State.scrub (s : State) (p : Nat) : State :=
  let cs := s.clustersOf p
  let mine := fun k => k / 2 ^ 48 == p + 1
  let sector := fun u => u / 2 ^ 42 == p + 1
  let first := s.fld (PRT_SHED_FIRST_PAGE p)
  let pages := s.fld (PRT_SHED_PAGES_COUNT p)
  let inShed := fun pg => decide (first ≤ pg ∧ pg < first + pages)
  let s := { s with
    parts := { s.parts with keys := tabDel s.parts.keys p, release := tabPut s.parts.release p 2 }
    kv := { s.kv with keys := tabDel s.kv.keys p }
    loft := { s.loft with
      sets := tabDrop s.loft.sets fun k => cs.contains (k / 1024)
      stale := tabDrop s.loft.stale sector
      fills := s.loft.fills.filter fun f => f.line / 2 ^ 38 != p + 1
      waiting := s.loft.waiting.filter fun h => h.part != p
      setWait := s.loft.setWait.filter fun w => w.part != p
      inFlight := tabDrop s.loft.inFlight fun k => k % 64 == p }
    mem := { s.mem with gddr := tabDrop s.mem.gddr mine, bad := tabDrop s.mem.bad sector }
    shed := { s.shed with
      maps := tabDrop s.shed.maps inShed
      bytes := tabDrop s.shed.bytes fun k => inShed (k / 16384) }
    gddrs := { s.gddrs with ecc := tabDrop s.gddrs.ecc fun k => k % 64 == p + 1 } }
  let s := (s.channelsOf p).foldl (fun (s : State) n =>
    s.countGddr n (16 * s.fld (PRT_GDDR_LINES_LINES p)) true) s
  (s.coresOf p).foldl (fun s c => s.zeroScratch c) s

def execReleaseScrub (p : Part) (s : State) : Out :=
  .next (if tabFind s.parts.release p = some 1 ∧ s.workEnded p then s.scrub p else s)

/-- Step 6 of a release (R402): FREE, SCRUB_DONE, PRT_SCRUB_MS, and the owner's partition source. -/
def releaseDone (s : State) (p ms : Nat) : State :=
  if tabFind s.parts.release p ≠ some 2 then s
  else
    let s := { s with parts := { s.parts with release := tabDel s.parts.release p } }
    let s := (s.setFld (PRT_STATE_STATE p) 0 0).setFld (PRT_CTRL_ENABLE p) 0 0
    let s := (s.setFld (PRT_STATE_SCRUB_DONE p) 0 1).setReg (PRT_SCRUB_MS p) 0 (BitVec.ofNat 32 ms)
    s.raise 0 69

def execReleaseDone (p : Part) (ms : Nat) (s : State) : Out := .next (releaseDone s p ms)

end Sys2Proof.Machine
end

