-- ==== Sys2Proof/Machine/Rings.lean ====
section
/-! DEFINITION. Submission and completion rings, doorbells, the fetch of descriptors and the writing
of completion records (spec/02 R34 to R40, R59 to R62). -/

namespace Sys2Proof.Machine

/-! ## Enabling and disabling (R35, R36) -/

/-- SIZE_LOG2, CQ_ID, PRIO and IRQ_EN of a written CTRL word. -/
def ctrlSize (v : Word) : Nat := getBits v 4 5
def ctrlCq (v : Word) : Nat := getBits v 16 6
def ctrlPrio (v : Word) : Nat := getBits v 24 2
def ctrlIrq (v : Word) : Nat := getBits v 12 1

/-- The cause of a ring size that R35 refuses. -/
def sizeCause (k : Nat) : Option Nat :=
  if k = 0 then some 0x1 else if k < 4 ∨ 16 < k then some 0x2 else none

/-- The ring may not be changed: it is enabled, or not yet drained (R35, R36). -/
def State.sqLocked (s : State) (fn n : Nat) : Bool :=
  s.flag (HCI_SQ_CTRL_ENABLE n) fn || !s.flag (HCI_SQ_STATUS_DRAINED n) fn

/-- The write would change SIZE_LOG2 or CQ_ID of the submission ring (cause 0x4). -/
def State.sqChanges (s : State) (fn n : Nat) (v : Word) : Bool :=
  ctrlSize v != s.fld (HCI_SQ_CTRL_SIZE_LOG2 n) fn || ctrlCq v != s.fld (HCI_SQ_CTRL_CQ_ID n) fn

/-- Store the RW fields of a submission ring's CTRL word, ENABLE as given. -/
def State.storeSqCtrl (s : State) (fn n : Nat) (v : Word) (en : Bool) : State :=
  s.setReg (HCI_SQ_CTRL n) fn
    (BitVec.ofNat 32 (en.toNat + ctrlSize v * 2 ^ 4 + ctrlCq v * 2 ^ 16 + ctrlPrio v * 2 ^ 24))

/-- Store the RW fields of a completion ring's CTRL word, ENABLE as given. -/
def State.storeCqCtrl (s : State) (fn m : Nat) (v : Word) (en : Bool) : State :=
  s.setReg (HCI_CQ_CTRL m) fn
    (BitVec.ofNat 32 (en.toNat + ctrlSize v * 2 ^ 4 + ctrlIrq v * 2 ^ 12))

/-- What a ring forgets when it is disabled or restarts: doorbells not yet fetched, and withdrawals. -/
def State.forgetRing (s : State) (fn n : Nat) : State :=
  { s with host := { s.host with
      marks := s.host.marks.filter fun m => !(m.fn == fn && m.sq == n)
      withdrawn := s.host.withdrawn.filter fun w => !(w.1 == fn && w.2.1 == n) } }

/-- The lowest cause that refuses the enable of a submission ring (R35, R521). -/
def State.sqCause (s : State) (fn : Nat) (v : Word) : Option Nat :=
  match sizeCause (ctrlSize v) with
  | some c => some c
  | none => if s.flag (HCI_CQ_CTRL_ENABLE (ctrlCq v)) fn then none else some 0x3

/-- A written CTRL word with SIZE_LOG2, and CQ_ID of a submission ring, as the register has them. -/
def keepFields (mask old v : Word) : Word := (v &&& ~~~mask) ||| (old &&& mask)

/-- A write of CTRL with ENABLE = 1 to a submission ring (R35) whose SIZE_LOG2 and CQ_ID may be written:
an enabled ring takes PRIO; otherwise the ring is validated and enabled, its indices at 0 and HALTED
clear, or refused with its cause, ENABLE staying 0. -/
def sqEnableOpen (s : State) (fn n : Nat) (v : Word) : State :=
  if s.flag (HCI_SQ_CTRL_ENABLE n) fn then s.setFld (HCI_SQ_CTRL_PRIO n) fn (ctrlPrio v)
  else match s.sqCause fn v with
    | some c => (s.storeSqCtrl fn n v false).setupErr fn c n false
    | none =>
      let s := (s.storeSqCtrl fn n v true).forgetRing fn n
      let s := (s.setReg (HCI_SQ_HEAD n) fn 0).setReg (HCI_SQ_TAIL n) fn 0
      (s.setFld (HCI_SQ_STATUS_HALTED n) fn 0).refreshDrained fn n

/-- A write of CTRL with ENABLE = 0 to a submission ring (R36) whose SIZE_LOG2 and CQ_ID may be written:
fetching stops at once, what was fetched runs on, and DRAINED reads 1 once nothing of the ring is in
flight. -/
def sqDisableOpen (s : State) (fn n : Nat) (v : Word) : State :=
  ((s.storeSqCtrl fn n v false).forgetRing fn n).refreshDrained fn n

/-- SIZE_LOG2 and CQ_ID of a submission ring's CTRL; SIZE_LOG2 of a completion ring's. -/
def sqFields : Word := 0x003F01F0
def cqFields : Word := 0x000001F0

/-- The CTRL write of a submission ring: a change of a locked SIZE_LOG2 or CQ_ID is cause 0x4 and leaves
the field as it is, while ENABLE and PRIO of the write act (R35, R36) (DEDUCED, log entry 68). Where the
enable of the same write is refused too, its lower cause is the one recorded (R521; DESIGN CHOICE, log entry
71: the two are taken as causes of one refusal). -/
def sqCtrl (act : State → Nat → Nat → Word → State) (s : State) (fn n : Nat) (v : Word) : State :=
  if s.sqLocked fn n && s.sqChanges fn n v then
    (act s fn n (keepFields sqFields (s.reg (HCI_SQ_CTRL n) fn) v)).setupErr fn 0x4 n false
  else act s fn n v

def sqEnable (s : State) (fn n : Nat) (v : Word) : State := sqCtrl sqEnableOpen s fn n v
def sqDisable (s : State) (fn n : Nat) (v : Word) : State := sqCtrl sqDisableOpen s fn n v

/-- A write of CTRL with ENABLE = 1 to a completion ring (R35) whose SIZE_LOG2 may be written. -/
def cqEnableOpen (s : State) (fn m : Nat) (v : Word) : State :=
  if s.flag (HCI_CQ_CTRL_ENABLE m) fn then s.setFld (HCI_CQ_CTRL_IRQ_EN m) fn (ctrlIrq v)
  else match sizeCause (ctrlSize v) with
    | some c => (s.storeCqCtrl fn m v false).setupErr fn c m true
    | none =>
      let s := s.storeCqCtrl fn m v true
      let s := (s.setReg (HCI_CQ_TAIL m) fn 0).setReg (HCI_CQ_HEAD m) fn 0
      (s.setFld (HCI_CQ_STATUS_FULL m) fn 0).setFld (HCI_CQ_STATUS_HALTED m) fn 0

/-- Some enabled submission ring of the function names the completion ring (R35 cause 0x5). -/
def State.cqNamed (s : State) (fn m : Nat) : Bool :=
  (List.range 64).any fun n => s.flag (HCI_SQ_CTRL_ENABLE n) fn && s.fld (HCI_SQ_CTRL_CQ_ID n) fn == m

/-- A write of CTRL with ENABLE = 0 to a completion ring whose SIZE_LOG2 may be written: ignored, with
cause 0x5, while an enabled submission ring names it (R35). -/
def cqDisableOpen (s : State) (fn m : Nat) (v : Word) : State :=
  if s.flag (HCI_CQ_CTRL_ENABLE m) fn && s.cqNamed fn m then s.setupErr fn 0x5 m true
  else s.storeCqCtrl fn m v false

/-- The CTRL write of a completion ring: a change of SIZE_LOG2 while it is enabled is cause 0x4 and
leaves the field as it is, while ENABLE and IRQ_EN of the write act (R35) (DEDUCED, log entry 68). -/
def cqCtrl (act : State → Nat → Nat → Word → State) (s : State) (fn m : Nat) (v : Word) : State :=
  if s.flag (HCI_CQ_CTRL_ENABLE m) fn && ctrlSize v != s.fld (HCI_CQ_CTRL_SIZE_LOG2 m) fn then
    act (s.setupErr fn 0x4 m true) fn m (keepFields cqFields (s.reg (HCI_CQ_CTRL m) fn) v)
  else act s fn m v

def cqEnable (s : State) (fn m : Nat) (v : Word) : State := cqCtrl cqEnableOpen s fn m v
def cqDisable (s : State) (fn m : Nat) (v : Word) : State := cqCtrl cqDisableOpen s fn m v

/-- Do nothing where the function does not answer BAR accesses (R402, R398). -/
def whenLive (s : State) (fn : Nat) (t : State) : State := if s.fnLive fn then t else s

def execSqEnable (fn : Fn) (ring : Ring) (val : Word) (s : State) : Out :=
  .next (whenLive s fn (sqEnable s fn ring val))

def execSqDisable (fn : Fn) (ring : Ring) (val : Word) (s : State) : Out :=
  .next (whenLive s fn (sqDisable s fn ring val))

def execCqEnable (fn : Fn) (ring : Ring) (val : Word) (s : State) : Out :=
  .next (whenLive s fn (cqEnable s fn ring val))

def execCqDisable (fn : Fn) (ring : Ring) (val : Word) (s : State) : Out :=
  .next (whenLive s fn (cqDisable s fn ring val))

/-! ## Doorbells (R32, R33, R37, R39) -/

/-- The function that a doorbell page belongs to: page p to partition p, page 32 to the owner (R32). -/
def pageFn (page : Nat) : Nat := if page = 32 then 0 else page + 1

/-- A doorbell write reaches the page: the function is live; a virtual function has only its own page;
the owner reaches pages 0 to 31 only while isolation mode is off (R32). There it is violation 0x0A otherwise,
or what else `viol` finds wrong with it, whose code is lower (R62, R521). -/
def throughPage (s : State) (fn page : Nat) (viol : Option (Nat × Nat)) (t : State) : State :=
  if !s.fnLive fn then s
  else if fn = pageFn page then t
  else if fn ≠ 0 then s
  else if s.isolated then
    match viol with
    | some (c, v) => s.hostViolation 0 c v
    | none => s.hostViolation 0 0x0A page
  else t

/-- The violation of a tail doorbell on a ring of function `t` (R37): its code and value. -/
def State.tailViolation (s : State) (t n : Nat) (tail : Word) : Option (Nat × Nat) :=
  let head := s.reg (HCI_SQ_HEAD n) t
  if 64 ≤ n || !s.flag (HCI_SQ_CTRL_ENABLE n) t then some (0x02, n)
  else if (tail - head).toNat ≤ 2 ^ s.fld (HCI_SQ_CTRL_SIZE_LOG2 n) t ∧
      (tail - s.reg (HCI_SQ_TAIL n) t).toNat ≤ (tail - head).toNat then none
  else some (0x01, tail.toNat)

/-- A tail doorbell (R37) on a ring of function `t`, rung by `fn`, who is charged with a violation
(DEDUCED, log entry 32). -/
def tailDoorbell (s : State) (fn t n : Nat) (tail : Word) : State :=
  match s.tailViolation t n tail with
  | some (c, v) => s.hostViolation fn c v
  | none =>
    let old := s.reg (HCI_SQ_TAIL n) t
    if tail = old then s
    else
      let s := s.setReg (HCI_SQ_TAIL n) t tail
      let mark : BellMark := { fn := t, sq := n, bell := s.host.nextBell, left := (tail - old).toNat }
      { s with host := { s.host with
          marks := s.host.marks ++ [mark], nextBell := s.host.nextBell + 1 } }

def execTailDoorbell (fn : Fn) (page : Fn) (ring : Nat) (tail : Word) (stores : List HostStore)
    (s : State) : Out :=
  let s := s.hostStores stores
  let t := pageFn page
  .next (throughPage s fn page (s.tailViolation t ring tail) (tailDoorbell s fn t ring tail))

/-- The violation of a head doorbell on a ring of function `t` (R39). -/
def State.headViolation (s : State) (t m : Nat) (head : Word) : Option (Nat × Nat) :=
  let old := s.reg (HCI_CQ_HEAD m) t
  if 64 ≤ m || !s.flag (HCI_CQ_CTRL_ENABLE m) t then some (0x02, m)
  else if (head - old).toNat ≤ (s.reg (HCI_CQ_TAIL m) t - old).toNat then none
  else some (0x04, head.toNat)

/-- A head doorbell (R39) (DEDUCED, log entry 32). -/
def headDoorbell (s : State) (fn t m : Nat) (head : Word) : State :=
  match s.headViolation t m head with
  | some (c, v) => s.hostViolation fn c v
  | none => (s.setReg (HCI_CQ_HEAD m) t head).refreshFull t m

def execHeadDoorbell (fn : Fn) (page : Fn) (ring : Nat) (head : Word) (s : State) : Out :=
  let t := pageFn page
  .next (throughPage s fn page (s.headViolation t ring head) (headDoorbell s fn t ring head))

/-- What a read of a doorbell returns (R33); it changes nothing. -/
def doorbellRead (_page : Fn) (_off : Nat) : Word := 0

/-- A bad doorbell-page write is one the spec logs as violation 0x03: not an aligned 4-byte write, or
at an offset of the doorbell area that holds no doorbell (R33); on the function's own page bytes
0x804–0x9FF and 0xA08–0xBFF, and for the owner anything from 0x804 of a partition's page (R437). -/
def badDoorbell (fn page off size : Nat) : Bool :=
  if off < 0x804 then size != 4 || off % 4 != 0 || (off < 0x800 && off % 0x10 != 0)
  else if fn = pageFn page then decide (off < 0xA00) || decide (0xA08 ≤ off ∧ off < 0xC00)
  else true

/-- Such a write is violation 0x03 also where 0x0A would apply (R521): of the owner on any page, of a
virtual function on its own. -/
def execDoorbellBadWrite (fn : Fn) (page : Fn) (pageOff : Nat) (size : Nat) (s : State) : Out :=
  .next (if badDoorbell fn page pageOff size && s.fnLive fn && ((fn : Nat) == 0 || (fn : Nat) == pageFn page)
    then s.hostViolation fn 0x03 pageOff else s)

/-! ## Fetching (R38, R40) -/

/-- The ring may fetch: enabled, not halted, a descriptor covered by an accepted doorbell, its completion
ring neither full nor halted (R38, R39, R62), and the input not failing (R429) (DEDUCED, log entry 34). -/
def State.mayFetch (s : State) (fn n : Nat) : Bool :=
  let cq := s.fld (HCI_SQ_CTRL_CQ_ID n) fn
  s.flag (HCI_SQ_CTRL_ENABLE n) fn && !s.flag (HCI_SQ_STATUS_HALTED n) fn &&
    s.reg (HCI_SQ_HEAD n) fn != s.reg (HCI_SQ_TAIL n) fn &&
    !s.cqFull fn cq && !s.flag (HCI_CQ_STATUS_HALTED cq) fn && !s.flag CLK_STATUS_VIN_WARN

/-- The fetch weight of a ring (R34). -/
def State.weight (s : State) (fn n : Nat) : Nat := 2 ^ s.fld (HCI_SQ_CTRL_PRIO n) fn

/-- The ring has fetches left in the present round of its function (R40). -/
def State.roundLeft (s : State) (fn n : Nat) : Bool :=
  decide (tabGet 0 s.host.ringTurns (fn * 64 + n) < s.weight fn n)

/-- A round of a function is over: no ring of it that may fetch has fetches left. -/
def State.roundOver (s : State) (fn : Nat) : Bool :=
  (List.range 64).all fun n => !(s.mayFetch fn n && s.roundLeft fn n)

/-- The turns of the functions start again: every function with a ring that may fetch has been served. -/
def State.turnsOver (s : State) : Bool :=
  (List.range 33).all fun g => s.host.fnTurns.contains g || (List.range 64).all fun n => !s.mayFetch g n

/-- R40 lets the ring fetch next: its function has its turn, and the ring has fetches left in the weighted
round of the function. The order within a round is free (DESIGN CHOICE, log entry 72). -/
def State.fetchTurn (s : State) (fn n : Nat) : Bool :=
  (!s.host.fnTurns.contains fn || s.turnsOver) && (s.roundLeft fn n || s.roundOver fn)

/-- A fetch of a ring is counted in its function's round and turn (R40). -/
def State.countTurn (s : State) (fn n : Nat) : State :=
  let fns := if s.turnsOver then [fn] else fn :: s.host.fnTurns
  let rings := if s.roundOver fn then tabDrop s.host.ringTurns fun k => k / 64 == fn else s.host.ringTurns
  { s with host := { s.host with fnTurns := fns, ringTurns := tabModify 0 rings (fn * 64 + n) (· + 1) } }

/-- The doorbell that covers the next descriptor of a ring (R57), and the marks once it is fetched. -/
def takeMark (fn n : Nat) : List BellMark → Nat × List BellMark
  | [] => (0, [])
  | m :: ms =>
    if m.fn == fn && m.sq == n then
      (m.bell, if m.left ≤ 1 then ms else { m with left := m.left - 1 } :: ms)
    else
      let (b, r) := takeMark fn n ms
      (b, m :: r)

/-- The host address of a ring slot: indices wrap, index i lies in slot i mod 2^SIZE_LOG2 (R37). -/
def State.slotAddr (s : State) (fn n : Nat) (idx : Word) : Nat :=
  s.reg64 (HCI_SQ_BASE_LO n) fn + 64 * (idx.toNat % 2 ^ s.fld (HCI_SQ_CTRL_SIZE_LOG2 n) fn)

/-- A fetch ends (R38). A good one advances HEAD and the descriptor is in flight, withdrawn if a
CANCEL named it before; a failed one halts the ring, logs violation 0x07 with the slot's index and
makes one record with TAG 0xFFFFFFFF, OPCODE 0xFF and STATUS DATA_ERROR (R62). A fetch out of the turns
of R40 is no event (log entry 5). -/
def descriptorFetch (s : State) (fn n : Nat) (ok : Bool) : State :=
  if !s.mayFetch fn n || !s.fetchTurn fn n then s
  else
    let s := s.countTurn fn n
    let head := s.reg (HCI_SQ_HEAD n) fn
    if ok then
      let bytes := s.readHost (s.slotAddr fn n head) 64
      let (bell, marks) := takeMark fn n s.host.marks
      let f : Flight :=
        { fn := fn, sq := n, idx := head.toNat, seq := s.host.nextSeq, bell := bell, bytes := bytes
          taken := false, started := false, ran := false, finished := false, muted := false }
      let gone := s.host.withdrawn.contains (fn, n, head.toNat)
      let s := { s with host := { s.host with
        flights := s.host.flights ++ [f], marks := marks, nextSeq := s.host.nextSeq + 1
        withdrawn := s.host.withdrawn.filter (· != (fn, n, head.toNat)) } }
      let s := (s.setReg (HCI_SQ_HEAD n) fn (head + 1)).refreshDrained fn n
      if gone then s.finish f stCancelled 0 0 else s
    else
      let s := (s.setFld (HCI_SQ_STATUS_HALTED n) fn 1).hostViolation fn 0x07 head.toNat
      let r : Rec :=
        { fn := fn, cq := s.fld (HCI_SQ_CTRL_CQ_ID n) fn, sq := n, seq := none, tag := 0xFFFFFFFF
          status := stDataError, opcode := 0xFF, detail := 0, endBeat := s.endBeat, aux := 0x0E
          irq := false }
      { s with host := { s.host with waiting := s.host.waiting ++ [r] } }

def execDescriptorFetch (fn : Fn) (ring : Ring) (ok : Bool) (s : State) : Out :=
  .next (descriptorFetch s fn ring ok)

/-! ## Completion records (R59, R60, R61) -/

/-- PHASE of the record at completion-ring index t (R60). -/
def phaseOf (t size : Nat) : Nat := 1 - t / 2 ^ size % 2

/-- The 32 bytes of a record (R59). -/
def recBytes (r : Rec) (head phase : Nat) : List Byte :=
  leBytes 4 r.tag ++ leBytes 4 head ++ leBytes 1 r.status ++ leBytes 1 r.opcode ++
    leBytes 1 (r.sq % 64) ++ leBytes 1 0 ++ leBytes 4 r.detail ++ leBytes 8 r.endBeat ++
    leBytes 4 r.aux ++ leBytes 3 0 ++ leBytes 1 phase

/-- The first record that waits for a completion ring (R61: records keep their order). -/
def State.nextRec (s : State) (fn m : Nat) : Option Rec :=
  s.host.waiting.find? fun r => r.fn == fn && r.cq == m

/-- Remove the first record that waits for a completion ring. -/
def dropRec (fn m : Nat) : List Rec → List Rec
  | [] => []
  | r :: rs => if r.fn == fn && r.cq == m then rs else r :: dropRec fn m rs

/-- The descriptor of a written or lost record leaves the flights (R36, R61). -/
def State.retire (s : State) (r : Rec) : State :=
  match r.seq with
  | some q => (s.dropFlight q).refreshDrained r.fn r.sq
  | none => s.refreshDrained r.fn r.sq

/-- A record is written (R61): 32 bytes at the ring's tail, SQ_HEAD and PHASE as at the writing; CQ
TAIL advances; the completion source is raised if the descriptor had IRQ set and the ring IRQ_EN.
A failed write halts the ring, logs violation 0x08 with CQ TAIL and loses the record; a halted ring
loses the records that wait for it (R62). A full ring holds its records and reads FULL (R39). Records for a
ring that has been disabled wait until it is enabled again (DESIGN CHOICE, log entry 73). -/
def writeRecord (s : State) (fn m : Nat) (ok : Bool) : State :=
  match s.nextRec fn m with
  | none => s
  | some r =>
    if !s.flag (HCI_CQ_CTRL_ENABLE m) fn || s.flag CLK_STATUS_VIN_WARN then s
    else if s.cqFull fn m then s.setFld (HCI_CQ_STATUS_FULL m) fn 1
    else
      let tail := s.reg (HCI_CQ_TAIL m) fn
      let size := s.fld (HCI_CQ_CTRL_SIZE_LOG2 m) fn
      let rest := dropRec fn m s.host.waiting
      if s.flag (HCI_CQ_STATUS_HALTED m) fn then
        ({ s with host := { s.host with waiting := rest } }).retire r
      else if ok then
        let head := (s.reg (HCI_SQ_HEAD r.sq) fn).toNat
        let at_ := s.reg64 (HCI_CQ_BASE_LO m) fn + 32 * (tail.toNat % 2 ^ size)
        let s := s.writeHost at_ (recBytes r head (phaseOf tail.toNat size))
        let s := { s with host := { s.host with waiting := rest } }
        let s := s.setReg (HCI_CQ_TAIL m) fn (tail + 1)
        let s := if s.cqFull fn m then s.bump (HCI_CQ_STATUS_FULL_STALLS m) fn else s
        let s := (s.retire r).refreshFull fn m
        if r.irq && s.flag (HCI_CQ_CTRL_IRQ_EN m) fn then s.raise fn m else s
      else
        let s := { s with host := { s.host with waiting := rest } }
        let s := (s.setFld (HCI_CQ_STATUS_HALTED m) fn 1).retire r
        s.hostViolation fn 0x08 tail.toNat

def execCompletionRecordWrite (fn : Fn) (ring : Ring) (ok : Bool) (s : State) : Out :=
  .next (writeRecord s fn ring ok)

/-! ## Which descriptor may start (R41, R51, R56, R57, R58) -/

/-- The opcode of a flight (R41). -/
def Flight.opcode (f : Flight) : Nat := fieldAt f.bytes 0 1

/-- Opcodes whose descriptors name data, so that they start in the sense of R58: 1 to 6, and REPLAY_ARM,
which reads the records it names. -/
def namesData (op : Nat) : Bool := decide (1 ≤ op ∧ op ≤ 6) || op == 0x0A

/-- Earlier flights of the same ring. -/
def State.earlier (s : State) (f : Flight) : List Flight :=
  s.host.flights.filter fun g => g.fn == f.fn && g.sq == f.sq && decide (g.seq < f.seq) && !g.muted

/-- A descriptor may begin: it waits; no earlier FENCE of its ring is unfinished (R51); with FENCE_BEFORE
every earlier one has written its record (R41); one that names data starts after every earlier one (R56);
and the input is not failing (R429) (DEDUCED, log entry 30). -/
def State.mayBegin (s : State) (f : Flight) : Bool :=
  let es := s.earlier f
  !f.taken && !f.finished && !s.flag CLK_STATUS_VIN_WARN &&
    es.all (fun g => g.opcode != 7 || g.finished) &&
    (!(fieldAt f.bytes 1 1).testBit 0 || es.isEmpty) &&
    (!namesData f.opcode || es.all fun g => g.started || g.finished)

/-- PLAN_LOAD and PLAN_RUN of one function execute one at a time, in the order of doorbell acceptance and
index order within one (R57): no other one executes, none of an earlier doorbell waits, and no descriptor
of an earlier doorbell is still to be fetched (DEDUCED, log entry 30). -/
def State.planTurn (s : State) (f : Flight) : Bool :=
  s.host.flights.all (fun g =>
    g.seq == f.seq || g.fn != f.fn || !(g.opcode == 1 || g.opcode == 2) ||
      (!g.taken && !(decide (g.bell < f.bell) || (g.bell == f.bell && decide (g.seq < f.seq))))) &&
  s.host.marks.all fun m => m.fn != f.fn || decide (f.bell ≤ m.bell)

/-- The flight that a descriptor command names, if it may begin and has the opcode. -/
def State.ready (s : State) (fn sq idx op : Nat) : Option Flight :=
  (s.flightsAt fn sq idx).find? fun f => s.mayBegin f && f.opcode == op

/-- Run a descriptor that may begin; a command that names none changes nothing (log entry 5). -/
def State.runDesc (s : State) (fn sq idx op : Nat) (k : State → Flight → State) : Out :=
  match s.ready fn sq idx op with
  | some f => .next (k s f)
  | none => .next s

/-- The first nonzero reserved byte of a descriptor (R42): the reserved bits of FLAGS, bytes 2–3, and
each body byte that no range of `used` covers; `bits` lists bytes with the mask of their reserved
bits. -/
def reservedByte (bs : List Byte) (used : List (Nat × Nat)) (bits : List (Nat × Nat)) : Option Nat :=
  (List.range 64).find? fun k =>
    let v := fieldAt bs k 1
    if k = 1 then 4 ≤ v
    else if k = 2 ∨ k = 3 then v != 0
    else if k < 8 then false
    else if used.any fun r => decide (r.1 ≤ k ∧ k < r.1 + r.2) then
      bits.any fun m => m.1 == k && v &&& m.2 != 0
    else v != 0

/-- The reserved-byte check as a failed check (R42). -/
def checkReserved (f : Flight) (used bits : List (Nat × Nat)) : List Failed :=
  match reservedByte f.bytes used bits with
  | some k => [⟨stRefused, 0, some (0x06, k)⟩]
  | none => []

/-- A failed check with no violation (DEDUCED, log entry 31). -/
def refusedIf (b : Bool) (aux : Nat := 0) : List Failed := if b then [⟨stRefused, aux, none⟩] else []

/-- A field out of range: REFUSED, and violation 0x06 with the field's byte (R62) (DEDUCED, log entry 31).
-/
def rangeIf (b : Bool) (at_ : Nat) : List Failed := if b then [⟨stRefused, 0, some (0x06, at_)⟩] else []

def execNop (fn : Fn) (ring : Ring) (idx : Word) (s : State) : Out :=
  s.runDesc fn ring idx.toNat 0 fun s f => s.failDesc f (checkReserved f [] [])

def execReservedOpcode (fn : Fn) (ring : Ring) (idx : Word) (s : State) : Out :=
  match (s.flightsAt fn ring idx.toNat).find? fun f => s.mayBegin f && decide (0x0B ≤ f.opcode) with
  | some f => .next (s.failDesc f [⟨stRefused, 0, some (0x05, f.opcode)⟩])
  | none => .next s

/-! ## FENCE and CANCEL (R51, R52, R58) -/

/-- The checks of a FENCE (R42, R51). -/
def fenceChecks (f : Flight) : List Failed :=
  checkReserved f [(8, 1), (16, 8)] [] ++ rangeIf (decide (2 ≤ fieldAt f.bytes 8 1)) 8

/-- A FENCE begins to wait, or is refused; naming no data, it has not started in the sense of R58. -/
def fenceStart (s : State) (f : Flight) : State :=
  match fenceChecks f with
  | [] => s.updFlight f.seq fun g => { g with taken := true }
  | fs => s.failDesc f fs

def execFenceRing (fn : Fn) (ring : Ring) (idx : Word) (s : State) : Out :=
  s.runDesc fn ring idx.toNat 7 fun s f =>
    if fieldAt f.bytes 8 1 = 1 then s else fenceStart s f

def execFenceFunction (fn : Fn) (ring : Ring) (idx : Word) (s : State) : Out :=
  s.runDesc fn ring idx.toNat 7 fun s f =>
    if fieldAt f.bytes 8 1 = 1 then fenceStart s f else s

/-- The waits of a FENCE are met (R51): every earlier descriptor of its ring (SCOPE 0) or every
descriptor of the function fetched before it (SCOPE 1) has ended with its record, and Yard Time has
reached a nonzero BEAT. -/
def State.fenceMet (s : State) (f : Flight) : Bool :=
  let earlier := if fieldAt f.bytes 8 1 = 0 then s.earlier f
    else s.host.flights.filter fun g => g.fn == f.fn && decide (g.seq < f.seq) && !g.muted
  let b := fieldAt f.bytes 16 8
  earlier.isEmpty && (b == 0 || decide (b ≤ s.beat))

def execFenceRelease (fn : Fn) (ring : Ring) (idx : Word) (s : State) : Out :=
  match (s.flightsAt fn ring idx.toNat).find? fun f =>
      f.opcode == 7 && f.taken && !f.finished && s.fenceMet f with
  | some f => .next (s.finish f stOK 0 0)
  | none => .next s

/-- The indices of a ring that an accepted doorbell covers and that are not yet fetched, lowest first. -/
def State.unfetched (s : State) (fn n : Nat) : List Word :=
  let head := s.reg (HCI_SQ_HEAD n) fn
  (List.range (s.reg (HCI_SQ_TAIL n) fn - head).toNat).map fun k => head + BitVec.ofNat 32 k

/-- A step that waits for its start beat goes with its descriptor. -/
def State.dropScheduled (s : State) (seq : Nat) : State :=
  { s with yard := { s.yard with steps := s.yard.steps.filter fun e => e.2.running || e.2.seq != seq } }

/-- A CANCEL acts on the descriptor of the target ring with the tag and the lowest index (R58): one not
started completes CANCELLED and the CANCEL OK; anything else, one withdrawn before among them, is TOO_LATE.
A descriptor not yet fetched is found by its tag in its slot. `sameCc`: the target starts in the same cc. -/
def cancelTarget (s : State) (f : Flight) (sameCc : Bool) : State :=
  let sq := fieldAt f.bytes 8 1
  let tag := fieldAt f.bytes 12 4
  match s.host.flights.find? fun g =>
      g.fn == f.fn && g.sq == sq && !g.muted && g.seq != f.seq && fieldAt g.bytes 4 4 == tag with
  | some g =>
    if g.started || g.finished || sameCc then s.finish f stTooLate 0 0
    else ((s.dropScheduled g.seq).finish g stCancelled 0 0).finish f stOK 0 0
  | none =>
    match (s.unfetched f.fn sq).find? fun i =>
        fieldAt (s.readHost (s.slotAddr f.fn sq i) 64) 4 4 == tag with
    | some i =>
      if s.host.withdrawn.contains (f.fn, sq, i.toNat) then s.finish f stTooLate 0 0
      else
        let s := { s with host := { s.host with withdrawn := (f.fn, sq, i.toNat) :: s.host.withdrawn } }
        s.finish f stOK 0 0
    | none => s.finish f stTooLate 0 0

/-- The checks of a CANCEL (R42, R52). -/
def cancelChecks (s : State) (f : Flight) : List Failed :=
  let sq := fieldAt f.bytes 8 1
  checkReserved f [(8, 1), (12, 4)] [] ++ rangeIf (decide (64 ≤ sq)) 8 ++
    refusedIf (decide (sq < 64) && !s.flag (HCI_SQ_CTRL_ENABLE sq) f.fn)

def execCancel (fn : Fn) (ring : Ring) (idx : Word) (sameCc : Bool) (s : State) : Out :=
  s.runDesc fn ring idx.toNat 8 fun s f =>
    match cancelChecks s f with
    | [] => cancelTarget s f sameCc
    | fs => s.failDesc f fs

end Sys2Proof.Machine
end

