-- ==== Sys2Proof/Machine/Copies.lean ====
section
/-! DEFINITION. BALE_COPY, and the shed: SHED_READ, SHED_WRITE and the pages they move (spec/02 R48 and
R49, spec/03 R71 and R72, spec/10 R282, spec/11 R298 to R305). -/

namespace Sys2Proof.Machine

/-! ## BALE_COPY (R48) -/

def copySrc (f : Flight) : Nat := fieldAt f.bytes 8 8
def copyDst (f : Flight) : Nat := fieldAt f.bytes 16 8
def copyCount (f : Flight) : Nat := fieldAt f.bytes 24 4
def copyStride (f : Flight) : Nat := fieldAt f.bytes 28 4
def copyRaw (f : Flight) : Bool := (fieldAt f.bytes 32 1).testBit 0

/-- The checks of a BALE_COPY that do not depend on data (R42, R48): alignment, and STRIDE 0 with RAW. -/
def copyChecks (f : Flight) : List Failed :=
  checkReserved f [(8, 25)] [(32, 0xFE)] ++
    refusedIf (copySrc f % 64 != 0 || copyDst f % 64 != 0 || copyStride f % 64 != 0) ++
    refusedIf (copyRaw f && copyStride f != 0)

/-- The protections of a destination (R203, R470). -/
def State.destFailed (s : State) (fn : Nat) (pl : Place) (n : Nat) : List Failed :=
  (if s.hitsOstler fn pl n then [⟨stRefused, 0x14, none⟩] else []) ++
    (if s.hitsDayAt fn pl n then [⟨stRefused, 0x18, none⟩] else [])

/-- How a copy under way stands: the state, bytes moved, poisoned bales written, the first cause of
R461, and why it stopped: a check (nothing is changed), a bad header (its index and byte), a reset. -/
structure CopyRun where
  st : State
  moved : Nat
  poisoned : Nat
  cause : Nat
  checks : List Failed
  badHdr : Option (Nat × Nat)
  down : Bool

/-- The first failing byte of a bale's header in a copy of a function: R71, and the tag of R72. -/
def copyHdrBad (fn : Nat) (h : BaleHdr) : Option Nat :=
  let tag := fn != 0 && h.part != fn - 1
  match hdrBadByte h with
  | none => if tag then some 7 else none
  | some b => if tag && decide (7 < b) then some 7 else some b

/-- One bale of a copy, between offsets of the source and the destination. -/
def copyOne (r : CopyRun) (fn src dst k : Nat) : CopyRun × Nat :=
  let s := r.st
  match s.place fn src 64 with
  | .error e => ({ r with checks := addrFailed 8 e }, 0)
  | .ok p0 =>
    if s.placeDown fn p0 64 then ({ r with down := true }, 0)
    else
      let h := readHdr (s.readAt fn p0 64)
      match copyHdrBad fn h with
      | some b => ({ r with badHdr := some (k, b) }, 0)
      | none =>
        let n := h.size
        match s.place fn src n, s.place fn dst n with
        | .error e, .error e' => ({ r with checks := addrFailed 8 e ++ addrFailed 16 e' }, 0)
        | .error e, .ok _ => ({ r with checks := addrFailed 8 e }, 0)
        | .ok _, .error e => ({ r with checks := addrFailed 16 e }, 0)
        | .ok pa, .ok pb =>
          match s.destFailed fn pb n with
          | f :: fs => ({ r with checks := f :: fs }, 0)
          | [] =>
            if s.placeDown fn pa n || s.placeDown fn pb n then ({ r with down := true }, 0)
            else
              let bad := s.badAt fn pa n
              let poison := bad || h.flags % 2 == 1
              let bs := s.readAt fn pa n
              let bs := if bad then hdrBytes { h with flags := 1 } ++ bs.drop 64 else bs
              let cause := if r.cause ≠ 0 then r.cause else if bad then s.badCode fn pa n else if poison then 0x0B else 0
              ({ r with
                st := (s.touch fn pa n).writeAt fn pb bs, moved := r.moved + n
                poisoned := if poison then r.poisoned + 1 else r.poisoned, cause := cause }, n)

/-- The bales of a copy, from bale `k` at the given offsets. -/
def copyBales (fn src dst stride count : Nat) : Nat → Nat → Nat → CopyRun → CopyRun
  | 0, _, _, r => r
  | fuel + 1, k, off, r =>
    if count ≤ k then r
    else
      let (r, n) := copyOne r fn (src + off) (dst + off) k
      if n = 0 then r
      else copyBales fn src dst stride count fuel (k + 1) (off + if stride = 0 then roundUp n 64 else stride) r

/-- The end of a copy (R461): DATA_ERROR with its cause and count of poisoned bales outranks a refusal, a
violation and a reset (R16). DETAIL holds the bytes moved, or the index of the refused bale. -/
def copyEnd (f : Flight) (r : CopyRun) : State :=
  if r.cause ≠ 0 then r.st.finish f stDataError (r.cause + min r.poisoned 0xFFFFFF * 256) r.moved
  else match r.badHdr with
    | some (k, b) => r.st.finish f stRefused b k
    | none => if r.down then r.st.finish f stTargetReset 0 r.moved else r.st.finish f stOK 0 r.moved

/-- A BALE_COPY with RAW clear. A check that fails at a later bale leaves nothing changed (R401); where
poisoned data had been read before it, DATA_ERROR is the higher status (R16) and the copy ends there with the
bales before it copied (DESIGN CHOICE, log entry 74). -/
def baleCopy (s : State) (f : Flight) : State :=
  let addr0 := fun a at_ => match s.place f.fn a 0 with
    | .error e => addrFailed at_ e
    | .ok _ => []
  match copyChecks f ++ addr0 (copySrc f) 8 ++ addr0 (copyDst f) 16 with
  | x :: xs => s.failDesc f (x :: xs)
  | [] =>
    if copyCount f = 0 then s.finish f stOkEmpty 0 0
    else
      let r := copyBales f.fn (copySrc f) (copyDst f) (copyStride f) (copyCount f) (copyCount f) 0 0
        ⟨s, 0, 0, 0, [], none, false⟩
      match r.checks with
      | x :: xs =>
        if r.cause = 0 then s.failDesc f (x :: xs)
        else copyEnd f { r with st := r.st.noteChecks f.fn (x :: xs) }
      | [] => copyEnd f r

def execBaleCopy (fn : Fn) (ring : Ring) (idx : Word) (errs : List MemEvent) (s : State) : Out :=
  s.runDesc fn ring idx.toNat 3 fun s f =>
    if copyRaw f then s else s.meeting fn errs fun s => baleCopy s f

/-- A poisoned or uncorrectable sector that a raw copy moves leaves its copy in GDDR poisoned (R462)
(DEDUCED, log entry 53). -/
def rawBlock (fn : Nat) (pa pb : Place) (r : CopyRun) (k : Nat) : CopyRun :=
  let s := r.st
  let a := placeAdd pa (64 * k)
  let b := placeAdd pb (64 * k)
  let bad := s.badAt fn a 64
  let s := (s.touch fn a 64).writeAt fn b (s.readAt fn a 64)
  let s := match b with
    | .gddr o => if bad then s.poisonGddr fn o 64 else s
    | _ => s
  { r with st := s, moved := r.moved + 64, cause := if r.cause = 0 ∧ bad then r.st.badCode fn a 64 else r.cause }

/-- A BALE_COPY with RAW set: COUNT blocks of 64 bytes, in address order. -/
def rawCopy (s : State) (f : Flight) : State :=
  let n := 64 * copyCount f
  match s.place f.fn (copySrc f) n, s.place f.fn (copyDst f) n with
  | .ok pa, .ok pb => match copyChecks f ++ s.destFailed f.fn pb n with
    | x :: xs => s.failDesc f (x :: xs)
    | [] =>
      if n = 0 then s.finish f stOkEmpty 0 0
      else if s.placeDown f.fn pa n || s.placeDown f.fn pb n then s.finish f stTargetReset 0 0
      else
        let r := (List.range (copyCount f)).foldl (rawBlock f.fn pa pb) ⟨s, 0, 0, 0, [], none, false⟩
        copyEnd f r
  | a, b =>
    let bad := fun (x : Except AddrError Place) at_ => match x with
      | .error e => addrFailed at_ e
      | .ok _ => []
    s.failDesc f (copyChecks f ++ bad a 8 ++ bad b 16)

def execBaleCopyRaw (fn : Fn) (ring : Ring) (idx : Word) (errs : List MemEvent) (s : State) : Out :=
  s.runDesc fn ring idx.toNat 3 fun s f =>
    if copyRaw f then s.meeting fn errs fun s => rawCopy s f else s

/-! ## SHED_READ and SHED_WRITE (R49, R299, R300) -/

def shedAddr (f : Flight) : Nat := fieldAt f.bytes 8 8
def shedPage (f : Flight) : Nat := fieldAt f.bytes 16 4
def shedCount (f : Flight) : Nat := fieldAt f.bytes 20 4
def shedDeadline (f : Flight) : Nat := fieldAt f.bytes 24 8

/-- Pages outside the function's own (R299, R399). -/
def State.shedOutside (s : State) (fn first n : Nat) : Bool :=
  if fn ≠ 0 then decide (s.fld (PRT_SHED_PAGES_COUNT (fn - 1)) < first + n)
  else decide (shedPages < first + n) || (List.range 32).any fun p => s.prtState p != 0 &&
    overlaps first n (s.fld (PRT_SHED_FIRST_PAGE p)) (s.fld (PRT_SHED_PAGES_COUNT p))

/-- The checks of a shed operation. -/
def State.shedChecks (s : State) (f : Flight) (write : Bool) : List Failed :=
  let a := shedAddr f
  let n := shedCount f
  let space := if a % 64 ≠ 0 ∨ 2 ≤ a / 2 ^ 60 then [(⟨stRefused, 0, none⟩ : Failed)] else []
  let addr := match s.place f.fn a (n * pageSize) with
    | .error e => addrFailed 8 e
    | .ok pl => if write then [] else s.destFailed f.fn pl (n * pageSize)
  checkReserved f [(8, 24)] [] ++ space ++ addr ++
    (if s.shedOutside f.fn (shedPage f) n then [⟨stPartViolation, 16, none⟩] else []) ++
    rangeIf (decide (65536 < n)) 20 ++
    refusedIf (write && s.flag SHD_MODULE_READ_ONLY) 0x20

/-- An unfinished SHED_WRITE that started before an operation covers an absolute page (R300). `seq` is the
operation's fetch number; one not yet started comes after all. -/
def State.writesPage (s : State) (pg seq : Nat) : Bool :=
  (s.shed.ops.takeWhile (·.seq != seq)).any fun o => o.write &&
    decide (s.opPage o 0 ≤ pg ∧ pg < s.opPage o o.count)

/-! ## The order of page reads (R262, R282, R409) -/

/-- Reads of pages that functions have out: those of one function, and all. -/
def State.readsOut (s : State) (q : ShedOp → Bool) : Nat := (s.shed.ops.filter q).foldl (fun n o => n + o.out) 0

/-- How many more reads a function may have out: within the module's 512 (R262) and the quota of its partition
(R409). -/
def State.shedRoom (s : State) (fn : Nat) : Nat :=
  let all := 512 - s.readsOut fun _ => true
  if fn = 0 then all else min all (s.fld (PRT_INFLIGHT_SHED (fn - 1)) - s.readsOut (·.fn == fn))

/-- A page of an operation that a flash read serves and no earlier write holds up. -/
def State.readable (s : State) (o : ShedOp) (k : Nat) : Bool :=
  (tabFind s.shed.maps (s.opPage o k)).isSome && !s.writesPage (s.opPage o k) o.seq

/-- Change a shed operation. -/
def State.updShed (s : State) (seq : Nat) (g : ShedOp → ShedOp) : State :=
  { s with shed := { s.shed with ops := s.shed.ops.map fun o => if o.seq = seq then g o else o } }

/-- The earlier of two operations in the order of R282: the earliest deadline first, those without one last. -/
def edf (a b : ShedOp) : Bool :=
  if a.deadline = 0 then b.deadline == 0 else b.deadline == 0 || decide (a.deadline ≤ b.deadline)

/-- Page reads go out as the limits admit, in the order of R282, and of their start among equals (R262, R263). -/
def State.issueReads (s : State) : State :=
  ((s.shed.ops.filter fun o => !o.write).insertionSort fun a b => edf a b).foldl (fun (s : State) o =>
    let n := min (s.shedRoom o.fn) ((o.left.countP (s.readable o)) - o.out)
    if n = 0 then s else s.updShed o.seq fun x => { x with out := x.out + n }) s

/-- A shed operation starts (R300): its pages are moved by the page events. -/
def shedStart (s : State) (f : Flight) (write : Bool) : State :=
  match s.shedChecks f write with
  | x :: xs => s.failDesc f (x :: xs)
  | [] =>
    if shedCount f = 0 then s.finish f stOkEmpty 0 0
    else
      let ks := List.range (shedCount f)
      let base := s.shedBase f.fn + shedPage f
      let waits := ks.countP fun k => s.writesPage (base + k) f.seq
      let s := if waits = 0 then s else s.bump SHD_ORDER_WAITS_COUNT 0 waits
      let op : ShedOp :=
        { seq := f.seq, fn := f.fn, write := write, first := shedPage f, count := shedCount f, addr := shedAddr f
          left := ks, out := 0, staged := [], moved := 0, failed := none, deadline := shedDeadline f, reset := false }
      let s := { s with shed := { s.shed with ops := s.shed.ops ++ [op] } }
      (s.updFlight f.seq fun g => { g with taken := true, started := true }).issueReads

def execShedRead (fn : Fn) (ring : Ring) (idx : Word) (s : State) : Out :=
  s.runDesc fn ring idx.toNat 4 fun s f => shedStart s f false

def execShedWrite (fn : Fn) (ring : Ring) (idx : Word) (s : State) : Out :=
  s.runDesc fn ring idx.toNat 5 fun s f => shedStart s f true

/-! ## Pages (R301, R302) -/

/-- A page of an operation has been dealt with; the last ends the descriptor (R301): DATA_ERROR where a
page failed, TARGET_RESET where a reset ended one, AUX and DETAIL as R301 says. `past` says whether the page ended
after the first cc of the present beat, so that a deadline at this beat is missed (R282). -/
def State.shedPageEnd (s : State) (o : ShedOp) (k : Nat) (past : Bool) (g : ShedOp → ShedOp) : State :=
  let flash := (tabFind s.shed.maps (s.opPage o k)).isSome
  let o := g { o with
    left := o.left.filter (· != k), out := o.out - flash.toNat, staged := o.staged.filter (·.1 != k) }
  if !o.left.isEmpty then (s.updShed o.seq fun _ => o).issueReads
  else
    let s := { s with shed := { s.shed with ops := s.shed.ops.filter (·.seq != o.seq) } }
    let late := o.deadline != 0 && decide (o.deadline < s.beat + past.toNat)
    let aux := late.toNat + (match o.failed with
      | some k => min (k + 1) 0xFFFFFF * 256
      | none => 0)
    match s.host.flights.find? (·.seq == o.seq) with
    | none => s.issueReads
    | some f => (s.finish f
        (if o.failed.isSome then stDataError else if o.reset then stTargetReset else stOK) aux o.moved).issueReads

/-- The lowest failed index. -/
def ShedOp.fail (o : ShedOp) (k : Nat) : ShedOp :=
  { o with failed := some (match o.failed with
      | some j => min j k
      | none => k) }

/-- A reset has ended a page. -/
def ShedOp.ended (o : ShedOp) : ShedOp := { o with reset := true }

/-- The operation that a page event names, if the page has still to move and no earlier write of it is
unfinished (R300); the flash read of a page must have gone out (R262). -/
def State.shedOpAt (s : State) (fn sq idx k : Nat) (write : Bool) : Option ShedOp :=
  (s.flightsAt fn sq idx).findSome? fun f => s.shed.ops.find? fun o =>
    o.seq == f.seq && o.write == write && o.left.contains k && !s.writesPage (s.opPage o k) o.seq &&
      (write || (tabFind s.shed.maps (s.opPage o k)).isNone || o.out != 0)

/-- The shed channel is in reset. -/
def State.shedDown (s : State) (c : Nat) : Bool := s.flag SHD_STATUS_IN_RESET c

/-- The `n` bytes of a page that cannot be decoded land as zeros, with a poison mark in GDDR (R301). -/
def State.failPage (s : State) (fn : Nat) (pl : Place) (n chan : Nat) : State :=
  let s := (s.bump SHD_UE_PAGES_COUNT chan).setFld SHD_STATUS_UE chan 1
  let s := s.writeAt fn pl (List.replicate n 0)
  match pl with
  | .gddr a => s.poisonGddr fn a n
  | _ => s

/-- A page read ends (R301): moved, or failed; a page with no mapping needs no flash. -/
def shedPageRead (s : State) (o : ShedOp) (k chan retries : Nat) (ok past : Bool) : State :=
  let flash := (tabFind s.shed.maps (s.opPage o k)).isSome
  if flash && s.shedDown chan then s.shedPageEnd o k past ShedOp.ended
  else match s.place o.fn (o.addr + k * pageSize) pageSize with
    | .error _ => s.shedPageEnd o k past ShedOp.ended
    | .ok pl =>
      if s.placeDown o.fn pl pageSize then s.shedPageEnd o k past ShedOp.ended
      else
        let s := if flash then s.bump SHD_RETRIES_COUNT chan (min retries 3) else s
        if ok || !flash then
          (s.writeAt o.fn pl (s.readShed o.fn (s.opPage o k))).shedPageEnd o k past fun o =>
            { o with moved := o.moved + 1 }
        else (s.failPage o.fn pl pageSize chan).shedPageEnd o k past fun o => o.fail k

def execShedPageReadDone (fn : Fn) (ring : Ring) (idx : Word) (page : Nat) (chan : ShedChan)
    (retries : Nat) (ok past : Bool) (s : State) : Out :=
  .next (match s.shedOpAt fn ring idx.toNat page false with
    | some o => if s.windowOpen (36 + chan) fn then shedPageRead s o page chan retries ok past else s
    | none => s)

/-- A flash block fails to program or erase (R305, R465): it is retired and a spare block takes its place. Where
the free spare blocks fall below 0.5 % of the raw capacity the shed turns read-only, and the Farrier reports it
(R304). -/
def State.retireBlock (s : State) (chan : Nat) : State :=
  let left := (s.reg SHD_SPARE_BLOCKS).toNat
  if left = 0 then s.spareOut kBlock chan 0
  else
    let s := (s.setFld SHD_SPARE_BLOCKS_COUNT 0 (left - 1)).spareIn kBlock chan chan true 0
    if s.flag SHD_MODULE_READ_ONLY || decide (Config.shedBlocks ≤ (left - 1) * 200) then s
    else (s.setFld SHD_MODULE_READ_ONLY 0 1).farLog 4 kShed 0 0

/-- Blocks of a channel are retired after FAIL statuses, each event counted by its row of R305. -/
def State.retireBlocks (s : State) (chan row n : Nat) : State :=
  (List.range n).foldl (fun (s : State) _ => s.retireBlock chan) (s.memEvent row n)

/-- Step 1 of R302: the source of a page is read into the staging buffer. Poisoned source data is not written:
the page stays as it was and counts as failed (DEDUCED, log entry 53). -/
def shedStage (s : State) (o : ShedOp) (k : Nat) (past : Bool) (next : State → ShedOp → List Byte → State) : State :=
  match s.place o.fn (o.addr + k * pageSize) pageSize with
  | .error _ => s.shedPageEnd o k past ShedOp.ended
  | .ok pl =>
    if s.placeDown o.fn pl pageSize then s.shedPageEnd o k past ShedOp.ended
    else if s.badAt o.fn pl pageSize then (s.touch o.fn pl pageSize).shedPageEnd o k past fun o => o.fail k
    else next (s.touch o.fn pl pageSize) o (s.readAt o.fn pl pageSize)

/-- Give a page of a write its step and bytes. -/
def ShedOp.stage (o : ShedOp) (k step : Nat) (bs : List Byte) : ShedOp :=
  { o with staged := (k, step, bs) :: o.staged.filter (·.1 != k) }

/-- Steps 2 to 6 of R302, from the step a page has reached to step `upto`. After the warning of R303 no step 2
begins, nor does the program that follows one which failed: such a page stays at step 1. `fails` programs fail
before the one that ends step 3 (R305). -/
def shedSteps (s : State) (o : ShedOp) (k chan fails upto : Nat) (past : Bool) (step : Nat) (bs : List Byte) : State :=
  let warn := s.flag CLK_STATUS_VIN_WARN
  let at_ := fun (s : State) (n : Nat) => s.updShed o.seq fun x => x.stage k n bs
  if upto < 2 ∨ (warn ∧ step < 2) then at_ s (max step 1)
  else
    let programs := decide (step < 3 ∧ 3 ≤ upto)
    let s := if programs then
        (s.bump64 SHD_NAND_WRITES_LO 0 (fails + if warn && fails != 0 then 0 else 1)).retireBlocks chan 4 fails
      else s
    if programs ∧ warn ∧ fails ≠ 0 then at_ s 1
    else if upto < 6 then at_ s upto
    else ((s.commitPage o k bs).bump64 SHD_HOST_WRITES_LO).refreshWear.shedPageEnd o k past fun o =>
      { o with moved := o.moved + 1 }

/-- A page of a SHED_WRITE goes on to a step of R302. -/
def shedPageWrite (s : State) (o : ShedOp) (k chan upto fails : Nat) (past : Bool) : State :=
  let (step, bs) := o.staging k
  if upto ≤ step then s
  else if s.shedDown chan then s.shedPageEnd o k past ShedOp.ended
  else if step = 0 then shedStage s o k past fun s o bs => shedSteps s o k chan fails upto past 0 bs
  else shedSteps s o k chan fails upto past step bs

def execShedPageWriteDone (fn : Fn) (ring : Ring) (idx : Word) (page : Nat) (chan : ShedChan)
    (upto : Fin 7) (fails : Nat) (past : Bool) (errs : List MemEvent) (s : State) : Out :=
  .next (match s.shedOpAt fn ring idx.toNat page true with
    | some o => if s.windowOpen (36 + chan) fn then
        s.meeting fn errs fun s => shedPageWrite s o page chan upto fails past
      else s
    | none => s)

/-- A worn page is relocated in the background (R301): `fails` programs and `erases` erases fail on the way, and
their blocks are retired (R305). -/
def shedRelocate (s : State) (chan fails erases : Nat) : State :=
  if !s.flag SHD_STATUS_READY chan || s.shedDown chan || s.flag CLK_STATUS_VIN_WARN then s
  else
    let s := (s.bump SHD_RELOCATIONS_COUNT chan).bump64 SHD_NAND_WRITES_LO 0 (fails + 1)
    (s.retireBlocks chan 4 fails).retireBlocks chan 5 erases

def execShedRelocate (chan : ShedChan) (fails : Nat) (erases : Nat) (s : State) : Out :=
  .next (shedRelocate s chan fails erases)

/-- A shed channel is reset (R283, R303): of the pages on it, which the command names by descriptor and page, those
of a write past step 2 are carried through to step 6, and the others end with TARGET_RESET. -/
def State.shedLose (s : State) (lost : List (Nat × Nat)) : State :=
  lost.foldl (fun (s : State) x =>
    match s.shed.ops.find? fun o => o.seq == x.1 && o.left.contains x.2 with
    | none => s
    | some o =>
      let (step, bs) := o.staging x.2
      if step < 2 then s.shedPageEnd o x.2 true ShedOp.ended
      else ((s.commitPage o x.2 bs).bump64 SHD_HOST_WRITES_LO).refreshWear.shedPageEnd o x.2 true fun o =>
        { o with moved := o.moved + 1 }) s

end Sys2Proof.Machine
end

