-- ==== Sys2Proof/Machine/Sfu.lean ====
section
/-! DEFINITION. The SFU functions (spec/05 R134 to R136): domains, special values and exact cases as
the spec states them, any other result one of the FP32 values less than 1 ulp from the exact value
(Config.sfuPick says which, and nothing says what it says). Exact values are computed in fixed
point with 700 fraction bits, far finer than any tie of the bound. -/

namespace Sys2Proof.Machine

/-- Fraction bits of the fixed point. -/
def fxBits : Nat := 700
def fxOne : Int := 2 ^ fxBits
def fxMul (a b : Int) : Int := a * b / fxOne
def fxDiv (a b : Int) : Int := a * fxOne / b

/-- A dyadic m × 2^e in fixed point. -/
def fxOf (m : Int) (e : Int) : Int :=
  let k := e + fxBits
  if 0 ≤ k then m * 2 ^ k.toNat else m / 2 ^ (-k).toNat

/-- Σ x^j / j!, by terms. -/
def expTerms (x : Int) : Nat → Nat → Int → Int → Int
  | 0, _, _, acc => acc
  | n + 1, j, term, acc =>
    let t := fxMul term x / (j : Int)
    expTerms x n (j + 1) t (acc + t)

/-- Squared n times. -/
def fxSquare : Nat → Int → Int
  | 0, x => x
  | n + 1, x => fxSquare n (fxMul x x)

/-- e^x for |x| up to about 2,000. -/
def fxExp (x : Int) : Int := fxSquare 20 (expTerms (x / 2 ^ 20) 80 1 fxOne fxOne)

/-- z + z³/3 + z⁵/5 + …, with n terms. -/
def atanhTerms (z2 : Int) : Nat → Nat → Int → Int → Int
  | 0, _, _, acc => acc
  | n + 1, j, term, acc =>
    atanhTerms z2 n (j + 2) (fxMul term z2) (acc + term / (j : Int))

/-- ln x for fixed 1 ≤ x < 2. -/
def fxLnNear (x : Int) : Int :=
  let z := fxDiv (x - fxOne) (x + fxOne)
  2 * atanhTerms (fxMul z z) 240 1 z 0

/-- ln 2. -/
def fxLn2 : Int :=
  let z := fxOne / 3
  2 * atanhTerms (fxMul z z) 240 1 z 0

/-- ln of m × 2^e for m > 0. -/
def fxLn (m : Nat) (e : Int) : Int :=
  let k := (Nat.log2 m : Int)
  fxLnNear (fxOf m (-k)) + (k + e) * fxLn2

/-- z − z³/3 + z⁵/5 − …, scaled by 2^bits, for z = 1 / q. -/
def atanInv (bits q : Nat) : Nat → Nat → Int → Int → Int
  | 0, _, _, acc => acc
  | n + 1, j, term, acc =>
    atanInv bits q n (j + 2) (-(term / ((q * q : Nat) : Int))) (acc + term / (j : Int))

/-- π with 1,000 fraction bits (Machin's formula). -/
def piFx : Int :=
  let one : Int := 2 ^ 1000
  4 * (4 * atanInv 1000 5 220 1 (one / 5) 0 - atanInv 1000 239 70 1 (one / 239) 0)

/-- π in fixed point. -/
def fxPi : Int := piFx / 2 ^ 300

/-- √ of a nonnegative fixed value. -/
def fxSqrt (x : Int) : Int := ((x.toNat * 2 ^ fxBits).sqrt : Int)

/-- Σ (−1)^n x^(2n+1) / (n! (2n + 1)), by terms. -/
def erfTerms (x2 : Int) : Nat → Nat → Int → Int → Int
  | 0, _, _, acc => acc
  | n + 1, j, pw, acc =>
    erfTerms x2 n (j + 1) (-(fxMul pw x2) / ((j : Int) + 1)) (acc + pw / (2 * (j : Int) + 1))

/-- erf x for |x| up to 16. -/
def fxErf (x : Int) : Int := fxMul (fxDiv (2 * fxOne) (fxSqrt fxPi)) (erfTerms (fxMul x x) 1100 0 x 0)

/-- tanh x for |x| up to 400. -/
def fxTanh (x : Int) : Int :=
  let e := fxExp (2 * x)
  fxDiv (e - fxOne) (e + fxOne)

/-- Sine (odd powers) or cosine (even powers) terms. -/
def trigTerms (x2 : Int) : Nat → Nat → Int → Int → Int
  | 0, _, _, acc => acc
  | n + 1, j, term, acc =>
    trigTerms x2 n (j + 2) (-(fxMul term x2) / (((j + 1) * (j + 2) : Nat) : Int)) (acc + term)

/-- sin and cos of an exact dyadic angle m × 2^e (R136, R145). -/
def fxSinCos (m : Int) (e : Int) : Int × Int :=
  let k := e + 1000
  let t : Int := if 0 ≤ k then m * 2 ^ k.toNat else m / 2 ^ (-k).toNat
  let half := piFx / 2
  let q := (2 * t + half) / (2 * half)
  let r := (t - q * half) / 2 ^ 300
  let s := trigTerms (fxMul r r) 120 1 r 0
  let c := trigTerms (fxMul r r) 120 0 fxOne 0
  match (q % 4).toNat with
  | 0 => (s, c)
  | 1 => (c, -s)
  | 2 => (-s, -c)
  | _ => (-c, s)

/-- The exact FP32 value of a fixed value, if it is one to within 2^−600. -/
def exact32 (v : Nat) : Option Nat :=
  let c := (fmtFP32.roundCode .rne v 1 (-(fxBits : Int))).1
  match fmtFP32.decode c with
  | .fin _ m x => if (fxOf m x - v).natAbs < 2 ^ 100 then some c else none
  | _ => none

/-- The FP32 magnitude codes that R135 allows for a nonnegative fixed value. An FP32 value may be given as
itself, or as its lower neighbour where that is less than 1 ulp away, below a power of two. Any other value
lies between two neighbours, both less than 1 ulp away; nothing below them is allowed, since a power of two
between it and the value would put a narrowing by RZ more than 1 ulp off. -/
def ulpCandidates (v : Nat) : List Nat :=
  if v = 0 then [0, 1]
  else match exact32 v with
    | some c => if 2 ^ 24 ≤ c ∧ c % 2 ^ 23 = 0 then [c, c - 1] else [c]
    | none =>
      let c := (fmtFP32.roundCode .rz v 1 (-(fxBits : Int))).1
      [c, c + 1]

/-- The FP32 result for an exact fixed value that no stated exact case covers. `neg`: its sign where the
fixed value is 0 (DEDUCED, log entry 65). -/
def pickUlp (fn key : Nat) (v : Int) (neg : Bool) : Word :=
  let cs := ulpCandidates v.natAbs
  let c := (cs[Config.sfuPick fn key % cs.length]?).getD 0
  BitVec.ofNat 32 (fmtFP32.sign (decide (v < 0) || (v == 0 && neg)) c)

/-- An SFU result: the value, the overflow event, and whether the input was outside the domain. -/
structure SfuOut where
  val : Word
  ovf : Bool
  domain : Bool
deriving DecidableEq, Repr

def sfuVal (w : Word) : SfuOut := ⟨w, false, false⟩
def sfuDomain : SfuOut := ⟨nan32, false, true⟩
def sfuInfOvf (neg : Bool) : SfuOut := ⟨inf32 neg, true, false⟩
def one32 : Word := 0x3F800000

/-- Clamp a fixed value to ±k. -/
def fxClamp (x : Int) (k : Nat) : Int := max (-(k * fxOne)) (min (k * fxOne) x)

/-- Exact value of the functions defined on every finite input, in fixed point; far inputs, where the
function differs from its limit by less than any ulp, keep one unit of that difference. -/
def sfuExact (fn : Nat) (neg : Bool) (m : Nat) (e : Int) : Int :=
  let x : Int := if neg then -(fxOf m e) else fxOf m e
  let sig := fun (y : Int) => fxDiv fxOne (fxOne + fxExp (-y))
  let far := decide (300 * fxOne < x.natAbs)
  match fn with
  | 0x40 => if far && neg then 0 else fxExp (fxClamp x 300)
  | 0x41 => if far && neg then 0 else fxExp (fxClamp (fxMul x fxLn2) 300)
  | 0x47 => if far then (if neg then 1 - fxOne else fxOne - 1) else fxTanh x
  | 0x48 => if far then (if neg then 0 else fxOne - 1) else sig x
  | 0x49 => if far then (if neg then -1 else x - 1) else fxMul x (sig x)
  | 0x4A =>
    if far then (if neg then -1 else x - 1)
    else
      let c := fxSqrt (fxDiv (2 * fxOne) fxPi)
      let k := fxDiv (44715 * fxOne) (1000000 * fxOne)
      let u := fxMul c (x + fxMul k (fxMul x (fxMul x x)))
      let th := if 300 * fxOne < u.natAbs then (if neg then 1 - fxOne else fxOne - 1) else fxTanh u
      fxMul (x / 2) (fxOne + th)
  | 0x4B =>
    if 22 * fxOne < x.natAbs then (if neg then -1 else x - 1)
    else fxMul (x / 2) (fxOne + fxErf (fxDiv x (fxSqrt (2 * fxOne))))
  | 0x4C => if 16 * fxOne < x.natAbs then (if neg then 1 - fxOne else fxOne - 1) else fxErf x
  | 0x4D =>
    if far then (if neg then 1 else x + 1)
    else
      let v := fxOne + fxExp x
      fxLn v.toNat (-(fxBits : Int))
  | 0x4E => (fxSinCos (if neg then -(m : Int) else m) e).1
  | _ => (fxSinCos (if neg then -(m : Int) else m) e).2

/-- The threshold of EXP's overflow, 88.7228391 (R134). -/
def expOverflows (m : Nat) (e : Int) : Bool := !fracLe m 1 e 887228391 10000000 0

/-- Whether a finite value is an integer, and which (for EXP2 of an integer, R135). -/
def intOf (neg : Bool) (m : Nat) (e : Int) : Option Int :=
  let s : Int := if neg then -1 else 1
  if 0 ≤ e then some (s * (m * 2 ^ e.toNat : Nat))
  else if m % 2 ^ (-e).toNat = 0 then some (s * (m / 2 ^ (-e).toNat : Nat)) else none

/-- A power of two as FP32, rounded under R135 where it is not one. -/
def pow2_32 (k : Int) : SfuOut :=
  if 128 ≤ k then sfuInfOvf false
  else if k < -149 then sfuVal (pickUlp 0x41 (k + 2 ^ 20).toNat 0 false)
  else sfuVal (BitVec.ofNat 32 (fmtFP32.narrowMag .rne 1 1 k).1)

/-- LOG and LOG2 of a positive finite value. -/
def sfuLog (fn key m : Nat) (e : Int) : SfuOut :=
  if fracLe m 1 e 1 1 0 && fracLe 1 1 0 m 1 e then sfuVal 0
  else
    let l := fxLn m e
    let v := if fn = 0x42 then l
      else if m = 2 ^ Nat.log2 m then ((Nat.log2 m : Int) + e) * fxOne
      else fxDiv l fxLn2
    sfuVal (pickUlp fn key v (decide (v < 0)))

/-- A result that is exact where it is an FP32 value, and within the bound elsewhere. -/
def exactOrPick (fn key : Nat) (neg : Bool) (v : Nat) : SfuOut :=
  match exact32 v with
  | some c => sfuVal (BitVec.ofNat 32 (fmtFP32.sign neg c))
  | none => sfuVal (pickUlp fn key (if neg then -(v : Int) else v) neg)

/-- 1/x: beyond the FP32 range it is ±∞ with overflow (R108). -/
def sfuRcp (key : Nat) (neg : Bool) (m : Nat) (e : Int) : SfuOut :=
  if !fracLe 1 m (-e) (2 ^ 24 - 1) 1 104 then sfuInfOvf neg
  else
    let (a, b) := shiftFrac 1 m (-e + fxBits)
    exactOrPick 0x44 key neg (a / b)

/-- √x and 1/√x of a positive finite value. -/
def sfuRoot (fn key m : Nat) (e : Int) : SfuOut :=
  let r := fxSqrt (fxOf m e)
  if fn = 0x46 then exactOrPick fn key false r.toNat
  else
    let (a, b) := shiftFrac 1 m (-e + 2 * fxBits)
    exactOrPick fn key false (a / b).sqrt

/-- An SFU function of an FP32 input (R134, R135). -/
def sfu (fn : Nat) (x : Word) : SfuOut :=
  let key := x.toNat
  match dec32 x with
  | .nan => sfuVal nan32
  | .inf neg =>
    match fn with
    | 0x40 | 0x41 | 0x4D => sfuVal (if neg then 0 else inf32 false)
    | 0x42 | 0x43 | 0x46 => if neg then sfuDomain else sfuVal (inf32 false)
    | 0x44 => sfuVal (zero32 neg)
    | 0x45 => if neg then sfuDomain else sfuVal 0
    | 0x47 | 0x4C => sfuVal (if neg then 0xBF800000 else one32)
    | 0x48 => sfuVal (if neg then 0 else one32)
    | 0x49 | 0x4A | 0x4B => sfuVal (if neg then zero32 true else inf32 false)
    | _ => sfuDomain
  | .fin neg m e =>
    if m = 0 then
      match fn with
      | 0x40 | 0x41 | 0x4F => sfuVal one32
      | 0x42 | 0x43 => sfuVal (inf32 true)
      | 0x44 | 0x45 => sfuVal (inf32 neg)
      | 0x46 => sfuVal (zero32 neg)
      | 0x48 => sfuVal 0x3F000000
      | 0x4D => sfuVal (pickUlp fn key fxLn2 false)
      | _ => sfuVal (zero32 neg)
    else
      match fn with
      | 0x40 => if !neg && expOverflows m e then sfuInfOvf false
                else sfuVal (pickUlp fn key (sfuExact fn neg m e) false)
      | 0x41 => match intOf neg m e with
        | some k => pow2_32 k
        | none => if !neg && fracLe 128 1 0 m 1 e then sfuInfOvf false
                  else sfuVal (pickUlp fn key (sfuExact fn neg m e) false)
      | 0x42 | 0x43 => if neg then sfuDomain else sfuLog fn key m e
      | 0x44 => sfuRcp key neg m e
      | 0x45 | 0x46 => if neg then sfuDomain else sfuRoot fn key m e
      | _ => sfuVal (pickUlp fn key (sfuExact fn neg m e) neg)

/-- y = m × 2^e is at most `k` FP32 spacings of the exact value v × u away (v in fixed point, u = um × 2^ue). -/
def withinUlps (k : Nat) (v : Nat) (um : Nat) (ue : Int) (m : Nat) (e : Int) : Bool :=
  let n := v * um
  let x := ue - (fxBits : Int)
  let sp := if n = 0 then (-149 : Int) else max (floorLog2 n 1 + x - 23) (-149)
  let low := min (min x e) sp
  let at_ := fun (m : Nat) (e : Int) => (m * 2 ^ (e - low).toNat : Nat)
  decide ((at_ m e : Int) - at_ n x ≤ at_ k sp ∧ (at_ n x : Int) - at_ m e ≤ at_ k sp)

/-- No value of a coarser precision, a narrowing's target, lies above y = m × 2^e and at or below the exact
value v × u, so that a narrowing of y by RZ stays within its 1 ulp (R138). -/
def crossesNone (v : Nat) (um : Nat) (ue : Int) (m : Nat) (e : Int) : Bool :=
  let n := v * um
  (List.range 11).all fun k =>
    let cut := n / 2 ^ (Nat.log2 n - k) * 2 ^ (Nat.log2 n - k)
    cut == n || fracLe cut 1 (ue - (fxBits : Int)) m 1 e

/-- The finite activations of R137 that no exact case covers, in fixed point. -/
def sfuFree (fn : Nat) (x : Word) : Option Int :=
  match dec32 x with
  | .fin neg m e => if m = 0 then none else some (sfuExact fn neg m e)
  | _ => none

/-- A gated activation times u (R137): the activation is one of the values that R135 allows and that keep y
within R138's bound, 2 ulp of an FP32 output, 1 ulp of a narrower one. -/
def gated (fn : Nat) (wide : Bool) (g u : Word) : FM Word :=
  match sfuFree fn g, dec32 u with
  | some v, .fin _ um ue => do
    let act := fun (c : Nat) => BitVec.ofNat 32 (fmtFP32.sign (decide (v < 0)) c)
    let ok := fun (c : Nat) => match dec32 ((mul32 (act c) u).run noFlags).1 with
      | .fin _ m e => if wide then withinUlps 2 v.natAbs um ue m e else crossesNone v.natAbs um ue m e
      | _ => true
    let cs := (ulpCandidates v.natAbs).filter ok
    let key := (g.toNat * 2 ^ 32 + u.toNat) * 2 + wide.toNat
    mul32 (act ((cs[Config.sfuPick (fn + 0x10) key % cs.length]?).getD 0)) u
  | _, _ => do
    let r := sfu fn g
    if r.ovf then raiseOvf
    mul32 r.val u

/-- An SFU function inside flag-raising arithmetic; `cnt`: a domain event is counted (R134). -/
def sfuM (cnt : Bool) (fn : Nat) (x : Word) : FM Word := do
  let r := sfu fn x
  if r.ovf then raiseOvf
  if r.domain && cnt then raiseDom
  return r.val

end Sys2Proof.Machine
end

