-- ==== Sys2Proof/Machine/Vector.lean ====
section
/-! DEFINITION. The vector engine: element-wise operations, row reductions and statistics,
normalisation, gated activations, micro-programs and rotary positions (spec/05). -/

namespace Sys2Proof.Machine

/-- An operand as it reaches an engine: its record's extents, its live extents, whether its bale was
poisoned, each element's exact value with its valid bit (R86, R123), and each raw UINT32. -/
structure Tile where
  rows : Nat
  cols : Nat
  liveR : Nat
  liveC : Nat
  poison : Bool
  el : Nat → Nat → Fv × Bool
  raw : Nat → Nat → Nat

/-- An absent operand. -/
def noTile : Tile := ⟨1, 1, 1, 1, false, fun _ _ => (.nan, false), fun _ _ => 0⟩

/-- A lane that took nothing, and a cell that holds a word. -/
def emptyLane : Lane := ⟨false, 0, 0, 0⟩
def cell (w : Word) : Lane := ⟨true, w, 0, 0⟩

/-- A lane of a list, empty beyond it. -/
def laneAt (ls : List Lane) (k : Nat) : Lane := (ls[k]?).getD emptyLane

/-- The index at which an operand broadcasts along an axis (R122). -/
def bcast (extent i : Nat) : Nat := if extent = 1 then 0 else i

/-- An element of an operand as FP32, broadcast (R120, R122). -/
def Tile.f32 (t : Tile) (r c : Nat) : FM Word := roundV (t.el (bcast t.rows r) (bcast t.cols c)).1

/-- The valid bit of an element, broadcast. -/
def Tile.valid (t : Tile) (r c : Nat) : Bool := (t.el (bcast t.rows r) (bcast t.cols c)).2

/-- The microstore as a program sees it: steps by entry and table words. -/
structure Ucode where
  step : Nat → BitVec 64
  word : Nat → Word

/-- A vector node (R124): operation, parameters, and the microstore. -/
structure VecOp where
  vop : Nat
  p0 : Word
  p1 : Word
  p2 : Word

/-! ## Micro-programs (R141, R142) -/

/-- A working register. -/
def wreg (ws : List Word) (k : Nat) : Word := (ws[k % 8]?).getD 0

/-- int(v): truncated toward zero, NaN taken as 0, clamped (R142). -/
def intOf32 (w : Word) (lo hi : Int) : Int :=
  match dec32 w with
  | .nan => max lo (min hi 0)
  | .inf s => if s then lo else hi
  | .fin s m e =>
    let k : Nat := if 0 ≤ e then m * 2 ^ e.toNat else m / 2 ^ (-e).toNat
    max lo (min hi (if s then -(k : Int) else k))

/-- ⌊w × 2^k⌋ clamped to 0 … hi (TLU of R142); R142 states no entry for NaN, which takes a free one (DESIGN
CHOICE, log entry 79). -/
def floorScaled (w : Word) (k hi imm : Nat) : Nat :=
  match dec32 w with
  | .nan => Config.tluNan imm % (hi + 1)
  | .inf s => if s then 0 else hi
  | .fin s m e =>
    let x := e + (k : Int)
    if s then 0 else min hi (if 0 ≤ x then m * 2 ^ x.toNat else m / 2 ^ (-x).toNat)

/-- The class word of CLS (R142). -/
def classWord (w : Word) : Word :=
  match dec32 w with
  | .nan => 1
  | .inf s => if s then 2 else 256
  | .fin s m _ =>
    if m = 0 then (if s then 16 else 32)
    else if m < 2 ^ 23 then (if s then 8 else 64)
    else (if s then 4 else 128)

/-- A signed integer as FP32, rounded RNE; 0 is +0. -/
def ofInt32 (k : Int) : FM Word := roundDy (k, 0) false

/-- HORN's polynomial (R142): p := fma(p, x, c_j) for j from d − 1 down to 0. -/
def horner (u : Ucode) (base : Nat) (x : Word) : Nat → Word → FM Word
  | 0, p => return p
  | d + 1, p => do
    let q ← fma32 p x (u.word (base + d))
    horner u base x d q

/-- RRED (R142): t = w × IMM exact, n = t to the nearest integer, ties to even; t − n rounded, and n. A zero
n keeps the sign of t (DEDUCED, log entry 79); a zero t − n is +0, as RNE gives it. -/
def rred (x imm : Word) : FM (Word × Word) := do
  match mulV (dec32 x) (dec32 imm) with
  | .fin s m e =>
    let (a, b) := shiftFrac m 1 e
    let q := a / b
    let r := a % b
    let q := if b < 2 * r ∨ (2 * r = b ∧ q % 2 = 1) then q + 1 else q
    let n : Int := if s then -(q : Int) else q
    let d ← roundDy (dyAdd (dyOf s m e) (-n, 0)) false
    let nw ← roundDy (n, 0) s
    return (d, nw)
  | .inf s => return (nan32, inf32 s)
  | .nan => return (nan32, nan32)

/-- SPLIT (R142): significand in [1, 2) with its sign, and unbiased exponent. -/
def split32 (x : Word) : FM (Word × Word) := do
  match dec32 x with
  | .fin s m _ =>
    if m = 0 then return (x, 0)
    else
      let k := Nat.log2 m
      let sig ← roundDy (dyOf s m (-(k : Int))) s
      let ew ← ofInt32 ((k : Int) + (match dec32 x with
        | .fin _ _ e => e
        | _ => 0))
      return (sig, ew)
  | .nan => return (nan32, 0)
  | .inf _ => return (x, 0)

/-- One step of a micro-program on the working registers (R141, R142). -/
def ustep (u : Ucode) (st : BitVec 64) (ws : List Word) : FM (List Word) := do
  let v := st.toNat
  let op := v % 64
  let dst := v / 64 % 8
  let a := wreg ws (v / 512 % 8)
  let b := wreg ws (v / 4096 % 8)
  let cI := v / 32768 % 8
  let c := wreg ws cI
  let imm := v / 2 ^ 32
  let immW : Word := BitVec.ofNat 32 imm
  let put := fun (w : Word) => (ws.set dst w : List Word)
  match op with
  | 0x01 => do
    let (d, n) ← rred a immW
    return (put d).set cI n
  | 0x02 =>
    let i := floorScaled a (imm / 2 ^ 11 % 16) (imm / 2 ^ 15 % 2048) imm
    return put (u.word (imm % 2048 + i))
  | 0x03 => do
    let d := imm % 16
    let seg := if imm.testBit 15 then (intOf32 b 0 (imm / 2 ^ 16)).toNat else 0
    let base := imm / 16 % 2048 + seg * (d + 1)
    let p ← horner u base a d (u.word (base + d))
    return put p
  | 0x04 => do
    if imm.testBit 0 then
      let bb ← mul32 b b
      let e ← fma32 (neg32 a) bb one32
      let h ← mul32 0x3F000000 b
      let y ← fma32 h e b
      return put y
    else
      let e ← fma32 (neg32 a) b one32
      let y ← fma32 b e b
      return put y
  | 0x05 => return put (if c.toNat &&& (imm % 512) != 0 then a else b)
  | 0x06 => return put (classWord a)
  | 0x07 => return put (← fma32 a b c)
  | 0x08 => return put (← mul32 a b)
  | 0x09 => return put (← add32 a b)
  | 0x0A => return put immW
  | 0x0B => do
    let k := intOf32 b (-300) 300
    match dec32 a with
    | .fin s m e => return put (← roundDy (dyOf s m (e + k)) s)
    | w => return put (← roundV w)
  | 0x0C => do
    let (d, x) ← split32 a
    return (put d).set cI x
  | _ => return ws

/-- A program from an entry, at most `fuel` steps; the result is w0 after the step with LAST (R141). -/
def uprog (u : Ucode) : Nat → Nat → List Word → FM Word
  | 0, _, ws => return wreg ws 0
  | n + 1, pc, ws => do
    let st := u.step pc
    let ws ← ustep u st ws
    if st.toNat.testBit 18 then return wreg ws 0 else uprog u n (pc + 1) ws

/-! ## Element-wise operations (R124, R137, R144, R145) -/

/-- The pair partner of ROPE: index of the pair, and whether the column is its first element (R144). -/
def ropePair (pairing d c : Nat) : Nat × Bool :=
  if pairing = 0 then (c / 2, c % 2 == 0) else (c % (d / 2), decide (c < d / 2))

/-- The angle P × ω counts as infinite: ω is, or the product lies beyond the FP32 range (R145; DEDUCED, log
entry 77). -/
def ropeInfinite (pos : Nat) (w : Word) : Bool :=
  match dec32 w with
  | .nan => false
  | .inf _ => true
  | .fin _ m e => decide (fmtFP32.maxCode < (fmtFP32.narrowMag .rne (pos * m) 1 e).1)

/-- sin and cos of an exact angle P × ω (R145): within the bound of R135, with its special cases. -/
def ropeSinCos (pos : Nat) (w : Word) : FM (Word × Word) := do
  match dec32 w with
  | .nan => return (nan32, nan32)
  | .inf _ => return (nan32, nan32)
  | .fin s m e =>
    if ropeInfinite pos w then return (nan32, nan32)
    else if m = 0 then return (zero32 s, one32)
    else if pos = 0 then return (zero32 s, one32)
    else
      let (sv, cv) := fxSinCos (if s then -((pos * m : Nat) : Int) else (pos * m : Nat)) e
      let key := pos * 2 ^ 32 + w.toNat
      return (pickUlp 0x4E key sv s, pickUlp 0x4F key cv false)

/-- An element-wise result (R124, R125, R137, R142, R145) at row r, column c; `rowOrg` is the output's
ROW_ORIGIN, `wide` says that it is FP32. -/
def elemOp (o : VecOp) (u : Ucode) (ins : List Tile) (wide : Bool) (rowOrg r c : Nat) : FM Word := do
  let ta := (ins[0]?).getD noTile
  let tb := (ins[1]?).getD noTile
  let tc := (ins[2]?).getD noTile
  let va := ta.valid r c
  match o.vop with
  | 0x0B =>
    let x := ta.raw (bcast ta.rows r) (bcast ta.cols c)
    let y := if ins.length = 1 then o.p0.toNat else tb.raw (bcast tb.rows r) (bcast tb.cols c)
    return BitVec.ofNat 32 (x + y)
  | 0x29 => do
    let d := ta.cols
    let (i, first) := ropePair o.p2.toNat d c
    let mate := if o.p2 = 0 then (if first then c + 1 else c - 1) else (if first then c + d / 2 else c - d / 2)
    let x0 ← ta.f32 r (if first then c else mate)
    let x1 ← ta.f32 r (if first then mate else c)
    let w ← tb.f32 0 i
    let pos := if o.p0 = 0 then tc.raw r 0 else (rowOrg + r + o.p1.toNat) % 2 ^ 32
    let (sn, cs) ← ropeSinCos pos w
    if first && ropeInfinite pos w && va && tb.valid 0 i then raiseDom
    if first then
      let t ← mul32 x1 sn
      fma32 x0 cs (neg32 t)
    else
      let t ← mul32 x1 cs
      fma32 x0 sn t
  | op => do
    let a ← ta.f32 r c
    match op with
    | 0x01 => add32 a (← tb.f32 r c)
    | 0x02 => sub32 a (← tb.f32 r c)
    | 0x03 => mul32 a (← tb.f32 r c)
    | 0x04 => do
      let b ← tb.f32 r c
      fma32 a b (← tc.f32 r c)
    | 0x05 => return min32 a (← tb.f32 r c)
    | 0x06 => return max32 a (← tb.f32 r c)
    | 0x07 => return abs32 a
    | 0x08 => return neg32 a
    | 0x0A => fma32 a o.p0 o.p1
    | 0x50 => gated 0x49 wide a (← tb.f32 r c)
    | 0x51 => gated 0x4A wide a (← tb.f32 r c)
    | 0x52 => gated 0x4B wide a (← tb.f32 r c)
    | 0x60 => do
      let b ← if ins.length = 2 then tb.f32 r c else pure 0
      uprog u 64 o.p0.toNat [a, b, 0, 0, 0, 0, 0, 0]
    | 0x25 => do
      let m ← tb.f32 r 0
      let m2 ← tb.f32 r 1
      let n ← tb.f32 r 2
      let v ← div32 m2 n
      let rs ← sfuM false 0x45 (← add32 v o.p0)
      let x ← mul32 (← sub32 a m) rs
      let g ← tc.f32 0 c
      let h ← if tc.rows = 2 then tc.f32 1 c else pure 0
      fma32 x g h
    | 0x26 => do
      let ss ← tb.f32 r 0
      let n ← tb.f32 r 1
      let rs ← sfuM false 0x45 (← add32 (← div32 ss n) o.p0)
      mul32 (← mul32 a rs) (← tc.f32 0 c)
    | op => if 0x40 ≤ op ∧ op ≤ 0x4F then sfuM va op a else return a

/-- The domain events that an operation evaluates once per row (R134): the RSQRT of LN_APPLY and
RMS_APPLY, for each row with a valid element. -/
def rowDomain (o : VecOp) (ins : List Tile) : FM Unit := do
  let ta := (ins[0]?).getD noTile
  let tb := (ins[1]?).getD noTile
  if o.vop = 0x25 ∨ o.vop = 0x26 then
    for r in List.range ta.liveR do
      if (List.range ta.liveC).any fun c => ta.valid r c then
        let q ← if o.vop = 0x25 then do div32 (← tb.f32 r 1) (← tb.f32 r 2)
          else do div32 (← tb.f32 r 0) (← tb.f32 r 1)
        let x ← add32 q o.p0
        if (sfu 0x45 x).domain then raiseDom

/-- Whether a VOP keeps partial results in lanes (R126 to R133). -/
def isReduction (vop : Nat) : Bool := decide (0x20 ≤ vop ∧ vop ≤ 0x24) || vop == 0x27

/-! ## Row reductions and statistics (R126 to R129, R132) -/

/-- The plain operation of a row reduction. -/
def redOp (vop : Nat) (x y : Word) : FM Word :=
  match vop with
  | 0x21 => return max32 x y
  | 0x22 => return min32 x y
  | _ => add32 x y

/-- A lane takes a valid element (R126, R128). A count is a UINT32, which wraps (DEDUCED, log entry 77). -/
def laneTake (vop : Nat) (l : Lane) (x : Word) : FM Lane := do
  if vop = 0x24 then
    let n := (l.n + 1) % 2 ^ 32
    let d ← sub32 x l.a
    let q ← div32 d (← nat32 n)
    let mean ← add32 l.a q
    let m2 ← fma32 d (← sub32 x mean) l.b
    return ⟨true, mean, m2, n⟩
  else
    let y ← if vop = 0x23 then mul32 x x else pure x
    let n := if vop = 0x23 then (l.n + 1) % 2 ^ 32 else l.n + 1
    if l.full then return ⟨true, ← redOp vop l.a y, 0, n⟩
    else return ⟨true, y, 0, n⟩

/-- Two lanes merge, the lower on the left (R126, R129). -/
def laneMerge (vop : Nat) (l h : Lane) : FM Lane := do
  if vop = 0x24 ∧ h.n = 0 ∨ !h.full then return l
  else if vop = 0x24 ∧ l.n = 0 ∨ !l.full then return h
  else if vop = 0x24 then
    let sum := (l.n + h.n) % 2 ^ 32
    let na ← nat32 l.n
    let nb ← nat32 h.n
    let n ← nat32 sum
    let d ← sub32 h.a l.a
    let mean ← fma32 d (← div32 nb n) l.a
    let p ← mul32 na nb
    let m2 ← add32 (← add32 l.b h.b) (← mul32 (← mul32 d d) (← div32 p n))
    return ⟨true, mean, m2, sum⟩
  else return ⟨true, ← redOp vop l.a h.a, 0, if vop = 0x23 then (l.n + h.n) % 2 ^ 32 else l.n + h.n⟩

/-- The fixed tree over eight lanes (R126). -/
def laneTree (vop : Nat) (ls : List Lane) : FM Lane := do
  let p := fun k => laneAt ls k
  let a ← laneMerge vop (p 0) (p 1)
  let b ← laneMerge vop (p 2) (p 3)
  let c ← laneMerge vop (p 4) (p 5)
  let d ← laneMerge vop (p 6) (p 7)
  laneMerge vop (← laneMerge vop a b) (← laneMerge vop c d)

/-- The eight lanes of a row take the valid elements of a bale's row, lane c mod 8 (R126). -/
def rowTake (vop : Nat) (t : Tile) (r : Nat) (ls : List Lane) : FM (List Lane) :=
  (List.range t.cols).foldlM (fun ls c =>
    if t.valid r c then do
      let x ← t.f32 r c
      let l ← laneTake vop (laneAt ls (c % 8)) x
      return ls.set (c % 8) l
    else return ls) ls

/-- SOFTMAX_STAT of one bale's row (R132): the row's state is one lane, a = m and b = s. -/
def softmaxRow (t : Tile) (r : Nat) (l : Lane) : FM Lane := do
  if !((List.range t.cols).any fun c => t.valid r c) then return l
  else
    let empty := List.replicate 8 emptyLane
    let bm ← laneTree 0x21 (← rowTake 0x21 t r empty)
    let m' := max32 l.a bm.a
    if m' = inf32 true then return ⟨true, m', 0, l.n + 1⟩
    else
      let ls ← (List.range t.cols).foldlM (fun ls c =>
        if t.valid r c then do
          let x ← sfuM false 0x40 (← sub32 (← t.f32 r c) m')
          let y ← laneTake 0x20 (laneAt ls (c % 8)) x
          return ls.set (c % 8) y
        else return ls) empty
      let b ← laneTree 0x20 ls
      let k ← mul32 l.b (← sfuM false 0x40 (← sub32 l.a m'))
      return ⟨true, m', ← add32 k b.a, l.n + 1⟩

/-- The count recovered from a stored FP32 column (R128). -/
def storedCount (w : Word) : Nat :=
  match dec32 w with
  | .nan => 0
  | .inf s => if s then 0 else 2 ^ 32 - 1
  | .fin s m e =>
    if s then 0 else min (2 ^ 32 - 1) (if 0 ≤ e then m * 2 ^ e.toNat else m / 2 ^ (-e).toNat)

/-- The first lane of a row before its first bale: empty, or the stored row of a read-modify-write
output (R127, R128, R132); `fed` says that the row took a valid element earlier in the nest. -/
def redFirst (vop r : Nat) (fed : Bool) (stored : Option Tile) : FM Lane := do
  match stored with
  | none => return if vop = 0x27 then ⟨true, inf32 true, 0, 0⟩ else emptyLane
  | some t =>
    let a ← t.f32 r 0
    if vop = 0x27 then return ⟨true, a, ← t.f32 r 1, 0⟩
    else if vop = 0x24 then
      let n := storedCount (← t.f32 r 2)
      if n = 0 then return emptyLane else return ⟨true, a, ← t.f32 r 1, n⟩
    else if vop = 0x23 ∧ t.cols = 2 then
      let n := storedCount (← t.f32 r 1)
      if n = 0 then return emptyLane else return ⟨true, a, 0, n⟩
    else return ⟨true, a, 0, fed.toNat⟩

/-- The lanes of a reduction before its first bale. -/
def redStart (vop : Nat) (rows : Nat) (fed : Nat → Bool) (stored : Option Tile) : FM (List Lane) :=
  (List.range rows).foldlM (fun acc r => do
    let first ← redFirst vop r (fed r) stored
    return acc ++ (first :: List.replicate (if vop = 0x27 then 0 else 7) emptyLane)) []

/-- A reduction takes one issued bale; rows beyond the live extent hold no valid element. -/
def redStep (vop : Nat) (t : Tile) (acc : List Lane) : FM (List Lane) :=
  (List.range t.rows).foldlM (fun out r => do
    if vop = 0x27 then return out ++ [← softmaxRow t r (laneAt acc r)]
    else return out ++ (← rowTake vop t r (((acc.drop (8 * r)).take 8)))) []

/-- A row of a reduction's lanes took a valid element in the nest (R127). -/
def redFed (acc : List Lane) (r : Nat) : Bool := ((acc.drop (8 * r)).take 8).any (·.n != 0)

/-- The identity of a plain reduction (R127). -/
def redIdentity (vop : Nat) : Word :=
  match vop with
  | 0x21 => inf32 true
  | 0x22 => inf32 false
  | _ => 0

/-- What a reduction writes for a row (R126 to R129, R132): its columns, and whether they raise no
flag (the identity of a row that took no valid element, R127; the start state of R132). -/
def redRow (vop cols : Nat) (acc : List Lane) (r : Nat) : FM (List Word × Bool) := do
  if vop = 0x27 then
    let l := laneAt acc r
    return ([l.a, l.b], l.a == inf32 true && l.b == 0)
  else
    let l ← laneTree vop ((acc.drop (8 * r)).take 8)
    if vop = 0x24 then
      if l.full then return ([l.a, l.b, ← nat32 l.n], false) else return ([0, 0, 0], true)
    else
      let v := if l.full then l.a else redIdentity vop
      let quiet := v == redIdentity vop && l.n == 0
      if cols = 2 then return ([v, ← nat32 l.n], quiet) else return ([v], quiet)

/-- ROW_LSE (R133): the value, whether it is the quiet −∞ of an empty row, and its domain event. -/
def rowLse (m s : Word) (cnt : Bool) : FM (Word × Bool) := do
  if s = 0 then return (inf32 true, true)
  else
    let l ← sfuM cnt 0x42 s
    return (← add32 m l, false)

/-- The result of a VOP that is not a reduction, as cells in row order over the output's extents; a
cell's n is 1 where the element raises no flag. Only live positions are computed (R115, R123); an input that
is broadcast over several of them is one input of each, and counts for each where it is outside its domain
(DESIGN CHOICE, log entry 77). -/
def vecCells (o : VecOp) (u : Ucode) (ins : List Tile) (wide : Bool) (rows cols liveR liveC rowOrg : Nat) :
    FM (List Lane) := do
  rowDomain o ins
  (positions rows cols).foldlM (fun out p => do
    if p.1 < liveR ∧ p.2 < liveC then
      if o.vop = 0x28 then
        let t := (ins[0]?).getD noTile
        let (w, q) ← rowLse (← t.f32 p.1 0) (← t.f32 p.1 1) (t.valid p.1 0)
        return out ++ [⟨true, w, 0, q.toNat⟩]
      else return out ++ [cell (← elemOp o u ins wide rowOrg p.1 p.2)]
    else return out ++ [emptyLane]) []

end Sys2Proof.Machine
end

