-- ==== Sys2Proof/Machine/Kv.lean ====
section
/-! DEFINITION. The key-value cache (spec/08): frames and references, the manger, flushes and stalls, the
pedigree, KV_OP and the pool's registers. -/

namespace Sys2Proof.Machine

/-! ## Frames and buffers (R198 to R206) -/

/-- The place of a frame: bit 22 of its number says that it lies in the host reserve (R202). -/
def State.framePlace (s : State) (p f : Nat) : Place :=
  if f.testBit 22 then .host (s.reg64 OST_HOST_BASE_LO p + f % 2 ^ 22 * s.pageBytes p)
  else .gddr (s.reg64 OST_POOL_BASE_LO p + f * s.pageBytes p)

/-- The place of a manger buffer. -/
def State.mangerPlace (s : State) (p m : Nat) : Place :=
  .gddr (s.reg64 OST_MANGER_BASE_LO p + m * s.mangerBytes p)

/-- The place of a half in a page or buffer: group, K (0) or V (1), and half (R204). -/
def halfOffset (b g kv h : Nat) : Nat := 1088 + g * 4 * b + (2 * kv + h) * b

/-- The key of a stream. -/
def streamKey (p sid : Nat) : Nat := p * 65536 + sid

/-- The context of a stream; none while it is FREE (R208). -/
def State.stream (s : State) (p sid : Nat) : Option Stream := tabFind s.kv.streams (streamKey p sid)

/-- Give a stream a context. -/
def State.setStream (s : State) (p sid : Nat) (x : Stream) : State :=
  { s with kv := { s.kv with streams := tabPut s.kv.streams (streamKey p sid) x } }

/-- The streams of a partition that are not FREE. -/
def State.openStreams (s : State) (p : Nat) : List (Nat × Stream) :=
  (s.kv.streams.filter fun e => e.1 / 65536 == p).map fun e => (e.1 % 65536, e.2)

/-- A frame's reference count (R219). -/
def State.refs (s : State) (p f : Nat) : Nat := tabGet 0 s.kv.refs (p * 2 ^ 24 + f)

def State.setRefs (s : State) (p f n : Nat) : State :=
  { s with kv := { s.kv with refs := tabSet 0 s.kv.refs (p * 2 ^ 24 + f) n } }

/-- The nodes of a partition, with their identifiers. -/
def State.nodesOf (s : State) (p : Nat) : List (Nat × PedNode) :=
  (s.kv.nodes.filter fun e => e.1 / 2 ^ 24 == p).map fun e => (e.1 % 2 ^ 24, e.2)

/-- The node that holds a frame. -/
def State.nodeOfFrame (s : State) (p f : Nat) : Option Nat :=
  ((s.nodesOf p).find? fun n => n.2.frame == f).map (·.1)

/-- A frame that is neither owned nor cached (R219). -/
def State.frameFree (s : State) (p f : Nat) : Bool := s.refs p f == 0 && (s.nodeOfFrame p f).isNone

/-- The frames of a partition in its GDDR, and in its host reserve. -/
def State.gddrFrames (s : State) (p : Nat) : List Nat := List.range (s.fld OST_POOL_FRAMES_COUNT p)
def State.hostFrames (s : State) (p : Nat) : List Nat :=
  (List.range (s.fld OST_HOST_FRAMES_COUNT p)).map (· + 2 ^ 22)

/-- OST_FREE_FRAMES, OST_HOST_USED, PED_NODES and STALLED follow the pool. -/
def State.refreshPool (s : State) (p : Nat) : State :=
  let s := s.setFld OST_FREE_FRAMES_COUNT p ((s.gddrFrames p).filter (s.frameFree p)).length
  let s := s.setFld OST_HOST_USED_COUNT p ((s.hostFrames p).filter fun f => !s.frameFree p f).length
  let s := s.setFld PED_NODES_COUNT p (s.nodesOf p).length
  s.setFld OST_STATUS_STALLED p ((s.openStreams p).any fun x => x.2.state == 3).toNat

/-! ## Page headers (R205) -/

/-- Fields of a page's header. -/
def State.pageField (s : State) (p : Nat) (pl : Place) (at_ n : Nat) : Nat :=
  fieldAt (s.readAt (p + 1) pl 64) at_ n
def State.pageTokens (s : State) (p : Nat) (pl : Place) : Nat := s.pageField p pl 8 2
def State.pageFlags (s : State) (p : Nat) (pl : Place) : Nat := s.pageField p pl 11 1

/-- Write one field of a page header, its sector read and written whole. -/
def State.setPageField (s : State) (p : Nat) (pl : Place) (at_ n v : Nat) : State :=
  let h := s.readAt (p + 1) pl 64
  s.writeAt (p + 1) pl (h.take at_ ++ leBytes n v ++ h.drop (at_ + n))

/-! ## Nodes (R226 to R230) -/

/-- The header of a page that no node holds any more: PED and HASH go (R205). -/
def State.unmarkPage (s : State) (p f : Nat) : State :=
  let pl := s.framePlace p f
  let s := s.setPageField p pl 11 1 (s.pageFlags p pl &&& 0xFB)
  s.setPageField p pl 16 8 0

/-- Remove a node; streams that were to insert below it start again from their first block. -/
def State.dropNode (s : State) (p id : Nat) : State :=
  let s := match tabFind s.kv.nodes (p * 2 ^ 24 + id) with
    | some n => s.unmarkPage p n.frame
    | none => s
  { s with kv := { s.kv with
      nodes := tabDel s.kv.nodes (p * 2 ^ 24 + id)
      streams := s.kv.streams.map fun e =>
        if e.1 / 65536 == p && e.2.lastNode == some id then (e.1, { e.2 with lastNode := none, inserted := 0 })
        else e } }

/-- Remove every node of a partition (R225, R226, R223). -/
def State.dropNodes (s : State) (p : Nat) : State :=
  ((s.nodesOf p).foldl (fun (s : State) n => s.dropNode p n.1) s).refreshPool p

/-- A node that may be evicted: cached, with no node below it (R229), and not `keep` (DEDUCED, log entry
52). -/
def State.evictable (s : State) (p : Nat) (keep : Option Nat) : List (Nat × PedNode) :=
  (s.nodesOf p).filter fun n => s.refs p n.2.frame == 0 && some n.1 != keep &&
    !(s.nodesOf p).any fun m => m.2.parent == some n.1

/-- Evict the cached node with the oldest stamp, among equals the deepest: its frame (R229). -/
def State.evictNode (s : State) (p : Nat) (keep : Option Nat) : Option (Nat × State) :=
  match leastBy (fun n : Nat × PedNode => n.2.stamp * 2 ^ 24 + (2 ^ 24 - n.2.depth)) (s.evictable p keep) with
  | none => none
  | some n => some (n.2.frame, (s.dropNode p n.1).bump PED_EVICTS_COUNT p)

/-- A frame is taken (R220): a free GDDR frame, the lowest; the frame of an evicted node; a free frame of
the host reserve; or none (DEDUCED, log entry 52). -/
def State.claimFrame (s : State) (p : Nat) : Option (Nat × State) :=
  match (s.gddrFrames p).find? (s.frameFree p) with
  | some f => some (f, s.bump OST_ALLOCS_COUNT p)
  | none => match s.evictNode p none with
    | some (f, t) => some (f, (t.bump OST_ALLOCS_COUNT p).bump OST_EVICTS_COUNT p)
    | none => match (s.hostFrames p).find? (s.frameFree p) with
      | some f => some (f, (s.bump OST_ALLOCS_COUNT p).bump OST_SPILLS_COUNT p)
      | none => none

/-! ## New pages and page tables (R202, R205) -/

/-- FLAGS of a page header: SEALED, POISON, PED. -/
def pageHdr (sid firstPos tokens part flags hash : Nat) : List Byte :=
  leBytes 4 sid ++ leBytes 4 firstPos ++ leBytes 2 tokens ++ leBytes 1 part ++ leBytes 1 flags ++
    leBytes 4 0 ++ leBytes 8 hash ++ List.replicate 40 0

/-- A new frame: its header with TOKENS 0, every position zero (R220). -/
def State.freshPage (s : State) (p sid f firstPos : Nat) : State :=
  s.writeAt (p + 1) (s.framePlace p f)
    (pageHdr sid firstPos 0 p 0 0 ++ List.replicate (s.pageBytes p - 64) 0)

/-- Write a page-table word, in the context and in the table region (R202). -/
def State.setPageWord (s : State) (p sid w : Nat) (f : Option Nat) : State :=
  let off := s.reg64 OST_TABLE_BASE_LO p + sid * s.streamArea p + 64 + 4 * w
  let word := match f with
    | some f => f + 2 ^ 31
    | none => 0
  let s := s.writeMem (p + 1) off (leBytes 4 word)
  match s.stream p sid with
  | none => s
  | some x => s.setStream p sid { x with table := match f with
      | some f => tabPut x.table w f
      | none => tabDel x.table w }

/-- A reference is dropped (R223). -/
def State.dropRef (s : State) (p f : Nat) : State := s.setRefs p f (s.refs p f - 1)

/-- Poison of the tokens of a group in a range of positions, the OR of their STICKY flags, and the TENSOR_ID of
the last of them. -/
def Stream.putMarks (x : Stream) (g kv lo hi : Nat) : Bool × Nat × Nat :=
  let ps := x.puts.filter fun u => u.group == g && u.kv == kv && decide (u.pos < hi ∧ lo < u.pos + u.n)
  (ps.any (·.poison), ps.foldl (fun a u => a ||| u.sticky) 0, (ps.getLast?.map (·.tensor)).getD 0)

/-- Something is put at a stream's FILL; what an earlier append put there is replaced (R213). -/
def Stream.put (x : Stream) (u : ManPut) : Stream :=
  { x with puts := x.puts.filter (fun v =>
      !(v.group == u.group && v.kv == u.kv && v.pos == u.pos && decide (v.n ≤ u.n)) && decide (x.fill < v.pos + v.n + 256)) ++ [u] }

/-- Discarded drafts leave nothing (R214): what was put at or beyond FILL goes. -/
def Stream.trim (x : Stream) : Stream :=
  { x with puts := (x.puts.filter fun u => decide (u.pos < x.fill)).map fun u => { u with n := min u.n (x.fill - u.pos) } }

/-- Keep the manger buffer's own header in step with the marks. -/
def State.mangerHdr (s : State) (p sid : Nat) : State :=
  match s.stream p sid with
  | none => s
  | some x =>
    let first := x.start + (x.flushed - x.start) / 256 * 256
    s.writeAt (p + 1) (s.mangerPlace p x.manger)
      (pageHdr sid first (min 256 (x.fill - x.flushed)) p
        (if x.puts.any fun u => u.poison && decide (x.flushed < u.pos + u.n) then 2 else 0) 0)

/-! ## Halves (R206) -/

/-- The header of a half: K is D × 128, V is 128 × D; `first` is its first position. -/
def halfHdr (format d part tensor kv first flags sticky : Nat) : BaleHdr :=
  let shape := halfShape format
  { format := format, flags := flags, rows := if kv = 0 then d else 128, cols := if kv = 0 then 128 else d
    shape := shape, part := part, tensor := tensor, payload := payloadSize format shape d 128
    rowOrg := if kv = 0 then 0 else first, colOrg := if kv = 0 then first else 0
    nextUse := 0xFFFFFFFF, sticky := sticky, tail := false }

/-- The half of a page or buffer. -/
def State.readHalf (s : State) (p : Nat) (pl : Place) (format d g kv h : Nat) : Bale :=
  let b := halfBytes format d
  let bs := s.readAt (p + 1) (placeAdd pl (halfOffset b g kv h)) b
  ⟨readHdr bs, bs.drop 64⟩

def State.writeHalf (s : State) (p : Nat) (pl : Place) (format d g kv h : Nat) (x : Bale) : State :=
  s.writeAt (p + 1) (placeAdd pl (halfOffset (halfBytes format d) g kv h)) x.bytes

/-- Replace elements of `n` bytes among the first `count`, keeping the rest. -/
def remapElems (n : Nat) (bs : List Byte) (count : Nat) (f : Nat → Option Nat) : List Byte :=
  ((List.range count).flatMap fun k => match f k with
    | some c => leBytes n c
    | none => sliceBytes bs (n * k) n) ++ bs.drop (n * count)

/-- The token of a half that element k of its data belongs to, and its channel. -/
def halfCoord (d kv k : Nat) : Nat × Nat := if kv = 0 then (k % 128, k / 128) else (k / d, k % d)

/-- Element (token, channel) of a half. -/
def Bale.halfValue (b : Bale) (kv t c : Nat) : Fv := if kv = 0 then b.value c t else b.value t c
def Bale.halfCode (b : Bale) (kv t c : Nat) : Nat := if kv = 0 then b.code c t else b.code t c

/-- The narrowed block that a token and channel of a half lie in, under RNE (R109, R212): 32 channels of one
token for K, 32 tokens of one channel for V, of which those that are not `live` count as 0 (R215). -/
def narrowHalf (format : Nat) (m : Bale) (kv t c : Nat) (live : Nat → Bool) : Nat × List Nat × Flags × Nat :=
  writeBlock format 0 ((List.range 32).map fun i =>
    let k := t / 32 * 32 + i
    { v := if kv = 0 then m.halfValue kv t (c / 32 * 32 + i) else if live k then m.halfValue kv k c else .fin false 0 0
      word := fun _ => 0, quiet := false })

/-- A half of a page after tokens t0 to t1 − 1 of it came from the manger's half `m`: codes copied for a
pool in the manger's format, narrowed for a block-scaled one; and the flags of the narrowing. -/
def flushHalf (format d kv t0 t1 : Nat) (old : List Byte) (m : Bale) : List Byte × Flags :=
  let inside := fun t => decide (t0 ≤ t ∧ t < t1)
  if !blockScaled format then
    (remapElems 2 old (d * 128) fun k =>
      let (t, c) := halfCoord d kv k
      if inside t then some (m.halfCode kv t c) else none, noFlags)
  else
    let dsz := dataSize format 2 d 128
    let codes := remapElems 1 (old.take dsz) (d * 128) fun k =>
      let (t, c) := halfCoord d kv k
      if inside t then some ((narrowHalf format m kv t c inside).2.1.getD (if kv = 0 then c % 32 else t % 32) 0)
      else none
    let scales := remapElems 1 (old.drop dsz) (d * 4) fun k =>
      let (t, c) := if kv = 0 then (k % 128, k / 128 * 32) else (k / d * 32, k % d)
      if inside t then some (narrowHalf format m kv t c inside).1 else none
    let fl := (positions 128 d).foldl (fun a x =>
      if inside x.1 && (if kv = 0 then x.2 % 32 == 0 else x.1 % 32 == 0) then
        orFlags a (narrowHalf format m kv x.1 x.2 inside).2.2.1 else a) noFlags
    (codes ++ scales, fl)

/-! ## Flushes (R212, R219 to R222, R224) -/

/-- The page-table word of a block (R207). -/
def Stream.word (x : Stream) (b : Nat) : Nat := if x.window = 0 then b else b % x.window

/-- The highest position a flush may reach (R212). -/
def State.flushTo (s : State) (p : Nat) (x : Stream) : Nat :=
  if blockScaled (s.kvFormat p) then x.start + (x.commit - x.start) / 32 * 32 else x.commit

/-- A page copied for a stream (R219): its tokens with a header of their own, no longer sealed and held by no
node. -/
def copyPage (old : List Byte) (sid firstPos tokens part : Nat) : List Byte :=
  pageHdr sid firstPos tokens part (fieldAt old 11 1 &&& 2) 0 ++ old.drop 64

/-- The frame that a flush may write for a block: the block's own where no one else holds it and it is not
sealed, a copy of one that is, the reused frame of a window stream, or a new one; none where none can be taken. -/
def State.blockFrame (s : State) (p sid b : Nat) (x : Stream) : Option (Nat × State) :=
  let w := x.word b
  let first := x.start + 256 * b
  let new := match x.top with
    | some t => decide (t < b)
    | none => true
  let take := fun (s : State) => (s.claimFrame p).map fun (f, t) =>
    (f, ((t.setRefs p f 1).setPageWord p sid w (some f)))
  match tabFind x.table w with
  | none => (take s).map fun (f, t) => (f, t.freshPage p sid f first)
  | some f =>
    let sealed_ := !new && (s.pageFlags p (s.framePlace p f)).testBit 0
    let own := s.refs p f == 1 && (s.nodeOfFrame p f).isNone && !sealed_
    if own then some (f, if new then s.freshPage p sid f first else s)
    else
      let copy := s.readAt (p + 1) (s.framePlace p f) (s.pageBytes p)
      (take (if new then s else s.touch (p + 1) (s.framePlace p f) (s.pageBytes p))).map fun (g, t) =>
        let t := (t.dropRef p f).bump OST_COW_COUNT p
        (g, if new then t.freshPage p sid g first
          else t.writeAt (p + 1) (t.framePlace p g) (copyPage copy sid first ((x.flushed - x.start) % 256) p))

/-- Write tokens t0 to t1 − 1 of a block into its frame: IDs and halves first, TOKENS last (R212). A half takes
poison and STICKY of the tokens written, and of no draft (R214). -/
def State.writeTokens (s : State) (p b f t0 t1 : Nat) (x : Stream) : State :=
  let fm := s.kvFormat p
  let mf := mangerFormat fm
  let d := s.kvD p
  let page := s.framePlace p f
  let man := s.mangerPlace p x.manger
  let ids := s.readAt (p + 1) (placeAdd man (64 + 4 * t0)) (4 * (t1 - t0))
  let s := s.touch (p + 1) (placeAdd man (64 + 4 * t0)) (4 * (t1 - t0))
  let s := s.writeAt (p + 1) (placeAdd page (64 + 4 * t0)) ids
  let parts := (List.range (s.kvGroups p)).flatMap fun g =>
    [(g, 0, 0), (g, 0, 1), (g, 1, 0), (g, 1, 1)]
  let s := parts.foldl (fun (s : State) (q : Nat × Nat × Nat) =>
    let (g, kv, h) := q
    let lo := max t0 (128 * h) - 128 * h
    let hi := min t1 (128 * h + 128) - 128 * h
    if hi ≤ lo then s
    else
      let m := s.readHalf p man mf d g kv h
      let old := s.readHalf p page fm d g kv h
      let (pay, fl) := flushHalf fm d kv lo hi old.payload m
      let first := x.start + 256 * b + 128 * h
      let (hurt, sticky, tensor) := x.putMarks g kv (first + lo) (first + hi)
      let half := placeAdd man (halfOffset (halfBytes mf d) g kv h)
      let lost := s.badAt (p + 1) half (halfBytes mf d)
      let s := s.touch (p + 1) half (halfBytes mf d)
      let was := old.hdr.format != 0 && old.hdr.flags % 2 == 1
      let hdr := halfHdr fm d p tensor kv first (was || hurt || lost).toNat (old.hdr.sticky ||| sticky ||| stickyOf fl)
      s.writeHalf p page fm d g kv h ⟨hdr, pay⟩) s
  let s := s.setPageField p page 8 2 t1
  if t1 = 256 then s.setPageField p page 11 1 (s.pageFlags p page ||| 1) else s

/-- The unit code of a poisoned or uncorrectable sector of the manger that a flush reads (R461). -/
def State.flushCode (s : State) (p sid : Nat) : Option Nat :=
  match s.stream p sid with
  | none => none
  | some x =>
    let b := halfBytes (mangerFormat (s.kvFormat p)) (s.kvD p)
    let man := s.mangerPlace p x.manger
    let n := s.flushTo p x - x.flushed
    let halves := (List.range (s.kvGroups p)).flatMap fun g =>
      [(g, 0, 0), (g, 0, 1), (g, 1, 0), (g, 1, 1)].filterMap fun (q : Nat × Nat × Nat) =>
        if (List.range n).any fun j => (x.flushed - x.start + j) % 256 / 128 == q.2.2 then
          some (placeAdd man (halfOffset b q.1 q.2.1 q.2.2))
        else none
    (halves.find? fun pl => s.badAt (p + 1) pl b).map fun pl => s.badCode (p + 1) pl b

/-- A flush up to a position, block by block: the pages written, whether it went through, and the state.
A block for which no frame can be taken stops it. -/
def State.flushBlocks (s : State) (p sid upto : Nat) : Nat → Nat → Nat × Bool × State
  | 0, pages => (pages, true, s)
  | fuel + 1, pages => match s.stream p sid with
    | none => (pages, true, s)
    | some x =>
      if upto ≤ x.flushed then (pages, true, s)
      else
        let b := (x.flushed - x.start) / 256
        let t0 := (x.flushed - x.start) % 256
        let t1 := min 256 (upto - x.start - 256 * b)
        match s.blockFrame p sid b x with
        | none => (pages, false, s)
        | some (f, t) =>
          let t := t.writeTokens p b f t0 t1 x
          let t := match t.stream p sid with
            | none => t
            | some y => t.setStream p sid { y with
                flushed := x.start + 256 * b + t1, top := some (max b (y.top.getD 0)) }
          t.flushBlocks p sid upto fuel (pages + 1)

/-- A stream stalls (R221): once, until its flush has gone through. -/
def State.stall (s : State) (p sid : Nat) (x : Stream) : State :=
  if x.state = 3 then s
  else
    let s := s.setStream p sid { x with state := 3 }
    let s := { s with kv := { s.kv with stalls := s.kv.stalls ++ [(p, sid)] } }
    ((s.setFld OST_STATUS_NO_PAGE p 1).bump OST_NO_PAGE_COUNT p).raise (p + 1) 65

/-- A flush of a stream (R212): the pages written, and whether it went through; else the stream stalls. -/
def State.flush (s : State) (p sid : Nat) : Nat × Bool × State :=
  match s.stream p sid with
  | none => (0, true, s)
  | some x =>
    let (n, ok, s) := s.flushBlocks p sid (s.flushTo p x) 3 0
    let s := match s.stream p sid with
      | none => s
      | some y =>
        if ok then { (s.setStream p sid { y with state := 1 }) with
          kv := { (s.setStream p sid { y with state := 1 }).kv with
            stalls := s.kv.stalls.filter (· != (p, sid)) } }
        else s.stall p sid y
    (n, ok, (s.mangerHdr p sid).refreshPool p)

/-- A flush for the executing step: a bad sector that it reads is a cause (R461). -/
def State.stepFlush (s : State) (p sid : Nat) : State :=
  (match s.flushCode p sid with
    | some c => s.stepFault p c
    | none => s).flush p sid |>.2.2

/-- Stalled streams of a partition are retried in the order in which they stalled (R222). -/
def State.retryStalls (s : State) (p : Nat) : State :=
  (s.kv.stalls.filter (·.1 == p)).foldl (fun (s : State) x => (s.flush p x.2).2.2) s

def execStallRetry (p : Part) (s : State) : Out := .next (s.retryStalls p)

/-! ## Appends and commits (R210, R211) -/

/-- A KV fault (R234): FAULT, the first one kept, and DATA_ERROR for the step. -/
def State.kvFault (s : State) (p sid code : Nat) : State :=
  let s := if s.flag OST_STATUS_FAULT p then s
    else (s.setFld OST_FAULT_CODE p code).setFld OST_FAULT_STREAM p sid
  ((s.setFld OST_STATUS_FAULT p 1).bump OST_FAULT_COUNT_COUNT p).stepFault p 0x03

/-- A step accesses a stream (R217). -/
def State.touchStream (s : State) (p sid : Nat) : State :=
  s.updStep p fun st => if st.streams.contains sid then st else { st with streams := sid :: st.streams }

/-- The lowest FLUSHED that a gather under way of the stream still reads (R215). -/
def State.gatherFloor (s : State) (p sid : Nat) : Option Nat :=
  ((s.drovers.filter fun d => d.2.part == p && d.2.started).flatMap fun d =>
    (d.2.marks.filter (·.1 == sid)).map fun m => m.2.1).min?

/-- The half of the manger that takes tokens at a stream's FILL: element codes of `src`, one token a
column of K or a row of V. -/
def appendHalf (d kv h n at_ : Nat) (old : List Byte) (src : Bale) : List Byte :=
  remapElems 2 old (d * 128) fun k =>
    let (t, c) := halfCoord d kv k
    let j := (128 * h + t + 256 - at_ % 256) % 256
    if j < n then some (src.halfCode kv j c) else none

/-- The last of the n tokens from FILL that lies in a half of the manger, counted from START. -/
def lastIn (at_ n h : Nat) : Option Nat :=
  (((List.range n).map (at_ + ·)).filter fun t => t % 256 / 128 == h).getLast?

/-- The halves of a group in the manger that take the n tokens from FILL: `pay` changes their payload, and the
header is that of the block of the last token, marked by what the stream's tokens there carry (R206). -/
def State.mangerHalves (s : State) (p : Nat) (x : Stream) (g n : Nat)
    (pay : Nat → Nat → List Byte → List Byte) : State :=
  let mf := mangerFormat (s.kvFormat p)
  let d := s.kvD p
  let man := s.mangerPlace p x.manger
  [(0, 0), (0, 1), (1, 0), (1, 1)].foldl (fun (s : State) (q : Nat × Nat) =>
    let (kv, h) := q
    match lastIn (x.fill - x.start) n h with
    | none => s
    | some t =>
      let old := s.readHalf p man mf d g kv h
      let first := x.start + t / 256 * 256 + 128 * h
      let m1 := x.putMarks g kv first (first + 128)
      let m0 := if x.start + 256 ≤ first then x.putMarks g kv (max x.flushed (first - 256)) (first - 128) else (false, 0, 0)
      let hdr := halfHdr mf d p m1.2.2 kv first (m0.1 || m1.1).toNat (m0.2.1 ||| m1.2.1)
      s.writeHalf p man mf d g kv h ⟨hdr, pay kv h old.payload⟩) s

/-- The tokens of one group are written into the manger, and what they carry. -/
def State.appendGroup (s : State) (p sid : Nat) (x : Stream) (g n : Nat) (k v : Bale) : State :=
  let put := fun (x : Stream) kv (b : Bale) => x.put ⟨g, kv, x.fill, n, b.poison, b.hdr.sticky, b.hdr.tensor⟩
  let x := put (put x 0 k) 1 v
  (s.mangerHalves p x g n fun kv h old =>
    appendHalf (s.kvD p) kv h n (x.fill - x.start) old (if kv = 0 then k else v)).setStream p sid x

/-- The halves of a group that did not match an advance carry POISON (R210): those of the n tokens. -/
def State.poisonGroup (s : State) (p sid n g : Nat) : State :=
  match s.stream p sid with
  | none => s
  | some x =>
    let t := fun kv => (x.putMarks g kv x.fill (x.fill + n)).2
    let put := fun (y : Stream) kv => { y with puts := y.puts ++ [⟨g, kv, x.fill, n, true, (t kv).1, (t kv).2⟩] }
    let x := put (put x 0) 1
    (s.mangerHalves p x g n fun _ _ old => old).setStream p sid x

/-- The token IDs are stored (R210), each at its slot. -/
def State.storeIds (s : State) (p : Nat) (x : Stream) (ids : List Nat) : State :=
  let man := s.mangerPlace p x.manger
  (List.range ids.length).foldl (fun (s : State) j =>
    s.writeAt (p + 1) (placeAdd man (64 + 4 * ((x.fill - x.start + j) % 256))) (leBytes 4 (ids.getD j 0))) s

/-- ADVANCE (R210): FILL moves on; groups that did not append exactly n tokens are poisoned, fault 0x04. -/
def State.advance (s : State) (p sid n : Nat) (x : Stream) : State :=
  let odd := (List.range (s.kvGroups p)).filter fun g => tabGet 0 x.appended g != n
  let s := odd.foldl (fun (s : State) g => s.poisonGroup p sid n g) s
  let y := (s.stream p sid).getD x
  let s := s.setStream p sid { y with fill := x.fill + n, appended := [] }
  let s := s.mangerHdr p sid
  if odd.isEmpty then s else s.kvFault p sid 0x04

/-- The fault of an append to an open stream (R207, R210): the lowest code that applies (R521). The room is what
the flush leaves when it completes. -/
def State.appendFault (s : State) (p n vn : Nat) (x : Stream) : Option Nat :=
  if max x.flushed (s.flushTo p x) + 256 < x.fill + n then some 0x01
  else if vn ≠ n then some 0x03
  else if 2 ^ 32 < x.fill + n ∨ 2 ^ s.fld OST_KV_CFG_MAXPG_LOG2 p * 256 < x.fill + n - x.start then some 0x06
  else none

/-- What became of a KV iteration: it is done, it is held for room or a gather, or it caused a stall and is held
until its flush completes (R215, R221). -/
inductive KvEnd where
  | done
  | held
  | stalled
deriving DecidableEq, Repr

/-- A KV_APPEND iteration (R210): the state after it, or the one in which it is held (R215, R221). -/
def State.kvAppend (s : State) (p sid g n vn : Nat) (k v : Bale) (ids : Option (List Nat)) :
    KvEnd × State :=
  let s := s.touchStream p sid
  match s.stream p sid with
  | none => (.done, s.kvFault p sid 0x02)
  | some x0 =>
    let flushes := x0.state ≠ 3 ∧ x0.flushed + 256 < x0.fill + n
    let s := if flushes then s.stepFlush p sid else s
    match s.stream p sid with
    | none => (.done, s)
    | some x => match s.appendFault p n vn x with
      | some c => (.done, s.kvFault p sid c)
      | none =>
        if flushes ∧ x.state = 3 then (.stalled, s)
        else if x.flushed + 256 < x.fill + n then (.held, s)
        else if (s.gatherFloor p sid).any fun fl => decide (fl + 256 < x.fill + n) then (.held, s)
        else
          let s := s.appendGroup p sid { x with appended := tabModify 0 x.appended g (· + n) } g n k v
          (.done, match ids, s.stream p sid with
            | some w, some y => (s.storeIds p y w).advance p sid n y
            | _, _ => s)

/-- A commit (R211, R216): COMMIT moves on, the drafts are discarded where `discard`, and a stream opened
with FLUSH_ON_COMMIT flushes. Whether the flush went through, and the code of a bad sector that it read. -/
def State.commitTokens (s : State) (p sid a : Nat) (discard : Bool) (x : Stream) : Bool × Option Nat × State :=
  let c := x.commit + a
  let s := s.setStream p sid { x with commit := c, fill := if discard then c else x.fill }.trim
  if x.foc then
    let (_, ok, t) := s.flush p sid
    (ok, s.flushCode p sid, t)
  else (true, none, s.mangerHdr p sid)

/-- A KV_COMMIT iteration (R211); it is held where its flush stalls, its marks moved. -/
def State.kvCommit (s : State) (p sid a : Nat) : KvEnd × State :=
  let s := s.touchStream p sid
  match s.stream p sid with
  | none => (.done, s.kvFault p sid 0x02)
  | some x =>
    if x.fill - x.commit < a then (.done, s.kvFault p sid 0x05)
    else
      let (ok, code, s) := s.commitTokens p sid a true x
      (if ok then .done else .stalled, match code with
        | some c => s.stepFault p c
        | none => s)

/-! ## The pedigree's hash (R226) -/

/-- A round of SipHash. -/
def sipRound (v : BitVec 64 × BitVec 64 × BitVec 64 × BitVec 64) :
    BitVec 64 × BitVec 64 × BitVec 64 × BitVec 64 :=
  let (v0, v1, v2, v3) := v
  let v0 := v0 + v1
  let v1 := v1.rotateLeft 13 ^^^ v0
  let v0 := v0.rotateLeft 32
  let v2 := v2 + v3
  let v3 := v3.rotateLeft 16 ^^^ v2
  let v0 := v0 + v3
  let v3 := v3.rotateLeft 21 ^^^ v0
  let v2 := v2 + v1
  let v1 := v1.rotateLeft 17 ^^^ v2
  let v2 := v2.rotateLeft 32
  (v0, v1, v2, v3)

/-- One message word: two rounds. -/
def sipWord (v : BitVec 64 × BitVec 64 × BitVec 64 × BitVec 64) (m : BitVec 64) :
    BitVec 64 × BitVec 64 × BitVec 64 × BitVec 64 :=
  let (v0, v1, v2, v3) := v
  let (v0, v1, v2, v3) := sipRound (sipRound (v0, v1, v2, v3 ^^^ m))
  (v0 ^^^ m, v1, v2, v3)

/-- SipHash-2-4 of a message of whole 8-byte words (its length a multiple of 8) under a 128-bit key. -/
def sipHash (key : Nat) (bs : List Byte) : Nat :=
  let k0 := BitVec.ofNat 64 key
  let k1 := BitVec.ofNat 64 (key / 2 ^ 64)
  let v := (k0 ^^^ 0x736f6d6570736575#64, k1 ^^^ 0x646f72616e646f6d#64, k0 ^^^ 0x6c7967656e657261#64,
    k1 ^^^ 0x7465646279746573#64)
  let v := (List.range (bs.length / 8)).foldl (fun v k => sipWord v (BitVec.ofNat 64 (fieldAt bs (8 * k) 8))) v
  let (v0, v1, v2, v3) := sipWord v (BitVec.ofNat 64 (bs.length % 256 * 2 ^ 56))
  let (v0, v1, v2, v3) := sipRound (sipRound (sipRound (sipRound (v0, v1, v2 ^^^ 0xFF#64, v3))))
  (v0 ^^^ v1 ^^^ v2 ^^^ v3).toNat

/-- The hash of a block of a stream below a parent node. -/
def State.blockHash (s : State) (p parentHash : Nat) (x : Stream) (b : Nat) (ids : List Byte) : Nat :=
  sipHash (tabGet 0 s.kv.keys p)
    (leBytes 8 parentHash ++ leBytes 4 x.domain ++ leBytes 4 (x.start + 256 * b) ++ ids)

/-- The hash of a node, 0 for none. -/
def State.nodeHash (s : State) (p : Nat) (id : Option Nat) : Nat :=
  match id with
  | none => 0
  | some i => ((tabFind s.kv.nodes (p * 2 ^ 24 + i)).map (·.hash)).getD 0

/-- A node stands for a block: hash, parent, DOMAIN, FIRST_POS, and the page's token IDs. -/
def State.nodeFits (s : State) (p : Nat) (n : PedNode) (parent : Option Nat) (x : Stream) (b : Nat)
    (ids : List Byte) : Bool :=
  n.parent == parent && n.domain == x.domain && n.firstPos == x.start + 256 * b &&
    s.readAt (p + 1) (placeAdd (s.framePlace p n.frame) 64) 1024 == ids

/-- A node and every ancestor of it get one new stamp (R229). -/
def State.stampNode (s : State) (p : Nat) : Nat → Option Nat → State
  | 0, _ => s
  | _, none => s
  | fuel + 1, some id => match tabFind s.kv.nodes (p * 2 ^ 24 + id) with
    | none => s
    | some n =>
      let t := { s with kv := { s.kv with
        nodes := tabPut s.kv.nodes (p * 2 ^ 24 + id) { n with stamp := s.kv.stamp } } }
      t.stampNode p fuel n.parent

def State.touchNode (s : State) (p : Nat) (id : Nat) : State :=
  let s := { s with kv := { s.kv with stamp := s.kv.stamp + 1 } }
  s.stampNode p 65537 (some id)

/-- Room for one more node of a partition (R230): its quota, or an eviction. -/
def State.nodeRoom (s : State) (p : Nat) (keep : Option Nat) : Option State :=
  if (s.nodesOf p).length < s.fld (PED_PART_NODES_QUOTA p) then some s
  else (s.evictNode p keep).map (·.2)

/-- An identifier that no node of a partition has. -/
def State.freeNode (s : State) (p : Nat) : Nat :=
  ((List.range ((s.nodesOf p).length + 1)).find? fun k => !(s.nodesOf p).any (·.1 == k)).getD 0

/-- A visit of PED_INSERT from a block on (R227): nodes created, and the state. -/
def State.insertFrom (s : State) (p sid : Nat) : Nat → Nat → Option Nat → Nat → Nat × State
  | 0, _, _, made => (made, s)
  | fuel + 1, b, parent, made => match s.stream p sid with
    | none => (made, s)
    | some x => match tabFind x.table (x.word b) with
      | none => (made, s)
      | some f =>
        let page := s.framePlace p f
        if s.pageTokens p page ≠ 256 then (made, s)
        else
          let done := fun (s : State) (id : Nat) => match s.stream p sid with
            | none => s
            | some y => s.setStream p sid { y with inserted := b + 1, lastNode := some id }
          match s.nodeOfFrame p f with
          | some id => (done (s.touchNode p id) id).insertFrom p sid fuel (b + 1) (some id) made
          | none =>
            let ids := s.readAt (p + 1) (placeAdd page 64) 1024
            let s := s.touch (p + 1) (placeAdd page 64) 1024
            let h := s.blockHash p (s.nodeHash p parent) x b ids
            match (s.nodesOf p).find? fun n => n.2.hash == h && s.nodeFits p n.2 parent x b ids with
            | some n =>
              let s := (s.bump PED_DUPS_COUNT p).touchNode p n.1
              (done s n.1).insertFrom p sid fuel (b + 1) (some n.1) made
            | none => match s.nodeRoom p parent with
              | none => (made, s.bump PED_FULL_COUNT p)
              | some s =>
                let id := s.freeNode p
                let n : PedNode := ⟨h, parent, f, x.domain, x.start + 256 * b, b + 1, 0⟩
                let s := { s with kv := { s.kv with
                  nodes := tabPut s.kv.nodes (p * 2 ^ 24 + id) n } }
                let s := (s.bump PED_INSERTS_COUNT p).touchNode p id
                let s := s.setPageField p page 11 1 (s.pageFlags p page ||| 4)
                let s := s.setPageField p page 16 8 h
                (done s id).insertFrom p sid fuel (b + 1) (some id) (made + 1)

/-- The walk of PED_MATCH from a block on (R228): hits, and the state. -/
def State.matchFrom (s : State) (p sid : Nat) (ids : List Byte) : Nat → Nat → Option Nat → Nat × State
  | 0, b, _ => (b, s)
  | fuel + 1, b, parent => match s.stream p sid with
    | none => (b, s)
    | some x =>
      let mine := sliceBytes ids (1024 * b) 1024
      let h := s.blockHash p (s.nodeHash p parent) x b mine
      let cands := (s.nodesOf p).filter fun n => n.2.hash == h
      match cands.find? fun n => s.nodeFits p n.2 parent x b mine with
      | none =>
        let s := if cands.isEmpty then s else s.bump PED_FALSE_HITS_COUNT p
        (b, s.bump PED_MISSES_COUNT p)
      | some n =>
        let s := (s.setPageWord p sid b (some n.2.frame)).setRefs p n.2.frame (s.refs p n.2.frame + 1)
        let s := (s.bump PED_HITS_COUNT p).touchNode p n.1
        s.matchFrom p sid ids fuel (b + 1) (some n.1)

/-! ## KV_OP (R50, R216 to R218) -/

/-- The fields of a KV_OP. -/
def kvSub (f : Flight) : Nat := fieldAt f.bytes 8 1
def kvSid (f : Flight) : Nat := fieldAt f.bytes 12 4
def kvArg0 (f : Flight) : Nat := fieldAt f.bytes 16 8
def kvArg1 (f : Flight) : Nat := fieldAt f.bytes 24 8

/-- A manger buffer bound to no stream, the lowest. -/
def State.freeManger (s : State) (p : Nat) : Option Nat :=
  (List.range (s.fld OST_MANGERS_COUNT p)).find? fun m => !(s.openStreams p).any fun x => x.2.manger == m

/-- Reserved argument bits, or WINDOW_PAGES above the page table (AUX 0x13). -/
def State.kvBadArgs (s : State) (p sub a0 a1 : Nat) : Bool :=
  match sub with
  | 1 => decide (2 ^ 17 ≤ a1) || decide (2 ^ s.fld OST_KV_CFG_MAXPG_LOG2 p < a1 % 2 ^ 16)
  | 3 => decide (2 ^ 32 ≤ a0) || decide (2 ≤ a1)
  | 5 => a1 != 0
  | 7 => decide (2 ^ 32 ≤ a1)
  | _ => a0 != 0 || a1 != 0

/-- FORK's cause 0x16. -/
def State.forkBad (s : State) (p a0 : Nat) : Bool :=
  decide (s.fld OST_STREAMS_COUNT p ≤ a0 % 2 ^ 32) || match s.stream p (a0 % 2 ^ 32) with
  | none => true
  | some x =>
    let at_ := a0 / 2 ^ 32
    let gran := if blockScaled (s.kvFormat p) then 32 else 1
    x.window != 0 || decide (at_ < x.start) || decide (x.flushed < at_) || (at_ - x.start) % gran != 0

/-- The causes of R217 that apply to a KV_OP, lowest first. -/
def State.kvCauses (s : State) (p : Nat) (f : Flight) : List Nat :=
  let sub := kvSub f
  let sid := kvSid f
  let a0 := kvArg0 f
  let x := s.stream p sid
  let exists_ := decide (sid < s.fld OST_STREAMS_COUNT p)
  let open_ := sub == 1 || sub == 5
  (if sub == 3 && x.any fun x => decide (x.fill - x.commit < a0 % 2 ^ 32) then [0x05] else []) ++
    (if sub != 2 && (s.stepOf p).any fun st => st.streams.contains sid then [0x10] else []) ++
    (if exists_ && open_ == x.isSome then [0x11] else []) ++
    (if !s.kvOn p || !exists_ then [0x12] else []) ++
    (if s.kvBadArgs p sub a0 (kvArg1 f) then [0x13] else []) ++
    (if open_ && (s.freeManger p).isNone then [0x15] else []) ++
    (if sub == 5 && s.forkBad p a0 then [0x16] else []) ++
    (if (sub == 6 || sub == 7) && x.any fun x => x.window != 0 || (sub == 7 && x.fill != x.start) then [0x17]
      else [])

/-- The argument bytes of a sub-operation with the masks of their reserved bits (R42, R216). -/
def kvReserved (sub : Nat) : List (Nat × Nat) :=
  let all := fun lo hi => (List.range (hi - lo)).map fun k => (lo + k, 0xFF)
  match sub with
  | 1 => (26, 0xFE) :: all 27 32
  | 3 => all 20 24 ++ (24, 0xFE) :: all 25 32
  | 5 => all 24 32
  | 7 => all 28 32
  | 2 | 4 | 6 => all 16 32
  | _ => []

/-- The checks of a KV_OP. PED_MATCH reads its tokens in space 0x0 or 0x1. -/
def State.kvChecks (s : State) (f : Flight) : List Failed :=
  let res := checkReserved f [(8, 1), (12, 4), (16, 16)] (kvReserved (kvSub f))
  if f.fn = 0 then res ++ [⟨stRefused, 0x12, none⟩]
  else
    let causes := s.kvCauses (f.fn - 1) f
    let addr := if kvSub f ≠ 7 then []
      else if kvArg0 f / 2 ^ 60 = 2 then [⟨stRefused, 0, none⟩]
      else match s.place f.fn (kvArg0 f) (4 * (kvArg1 f % 2 ^ 32)) with
        | .error e => addrFailed 16 e
        | .ok _ => []
    (causes.map fun c => ⟨stRefused, c, none⟩) ++ res ++ addr

/-- A KV_OP of a sub-operation executes `k` once its checks pass. -/
def State.kvOp (s : State) (fn ring idx sub : Nat) (k : State → Flight → Nat → Nat → State) : Out :=
  s.runDesc fn ring idx 6 fun s f =>
    if kvSub f ≠ sub then s
    else match s.kvChecks f with
      | [] => k (s.updFlight f.seq fun g => { g with taken := true, started := true }) f (f.fn - 1) (kvSid f)
      | fs => s.failDesc f fs

/-- Bind a manger buffer, its content zero, and give the stream its context and a page table with no valid word
(R202). -/
def State.bindStream (s : State) (p sid : Nat) (x : Stream) : State :=
  let s := s.writeAt (p + 1) (s.mangerPlace p x.manger) (List.replicate (s.mangerBytes p) 0)
  let s := s.writeMem (p + 1) (s.reg64 OST_TABLE_BASE_LO p + sid * s.streamArea p + 64)
    (List.replicate (2 ^ (s.fld OST_KV_CFG_MAXPG_LOG2 p + 2)) 0)
  (s.setStream p sid x).mangerHdr p sid

def kvOpen (s : State) (f : Flight) (p sid : Nat) : State :=
  let start := kvArg0 f % 2 ^ 32
  let x : Stream := ⟨1, start, kvArg0 f / 2 ^ 32, kvArg1 f % 2 ^ 16, (kvArg1 f).testBit 16, start, start, start,
    (s.freeManger p).getD 0, [], [], [], 0, none, none⟩
  (s.bindStream p sid x).finish f stOK 0 0

def execKvOpen (fn : Fn) (ring : Ring) (idx : Word) (s : State) : Out := s.kvOp fn ring idx.toNat 1 kvOpen

/-- A KV_OP that flushes ends: NO_PAGE where it stalled, and DATA_ERROR, the higher status, where it read a bad
sector (R16, R461). -/
def State.endFlush (s : State) (f : Flight) (ok : Bool) (code : Option Nat) (n : Nat) : State :=
  match code with
  | some c => s.finish f stDataError c n
  | none => s.finish f (if ok then stOK else stNoPage) 0 n

def kvFlushOp (s : State) (f : Flight) (p sid : Nat) : State :=
  let (n, ok, t) := s.flush p sid
  t.endFlush f ok (s.flushCode p sid) n

def execKvFlush (fn : Fn) (ring : Ring) (idx : Word) (s : State) : Out :=
  s.kvOp fn ring idx.toNat 2 kvFlushOp

def kvCommitOp (s : State) (f : Flight) (p sid : Nat) : State :=
  let discard := (kvArg1 f).testBit 0
  if kvArg0 f = 0 ∧ !discard then s.finish f stOkEmpty 0 0
  else match s.stream p sid with
    | none => s.finish f stOK 0 0
    | some x =>
      let (ok, code, s) := s.commitTokens p sid (kvArg0 f) discard x
      s.endFlush f ok code 0

def execKvCommit (fn : Fn) (ring : Ring) (idx : Word) (s : State) : Out :=
  s.kvOp fn ring idx.toNat 3 kvCommitOp

/-- A stream is closed (R216, R223): references dropped, the manger buffer released, state FREE. -/
def State.closeStream (s : State) (p sid : Nat) : State :=
  match s.stream p sid with
  | none => s
  | some x =>
    let s := x.table.foldl (fun (s : State) e => (s.dropRef p e.2).setPageWord p sid e.1 none) s
    let s := { s with kv := { s.kv with
      streams := tabDel s.kv.streams (streamKey p sid), stalls := s.kv.stalls.filter (· != (p, sid)) } }
    s.refreshPool p

def execKvClose (fn : Fn) (ring : Ring) (idx : Word) (s : State) : Out :=
  s.kvOp fn ring idx.toNat 4 fun s f p sid => (s.closeStream p sid).finish f stOK 0 0

/-- FORK: the child shares the parent's frames of the blocks below P. -/
def kvFork (s : State) (f : Flight) (p sid : Nat) : State :=
  match s.stream p (kvArg0 f % 2 ^ 32) with
  | none => s.finish f stOK 0 0
  | some par =>
    let at_ := kvArg0 f / 2 ^ 32
    let blocks := (at_ - par.start + 255) / 256
    let x : Stream := { par with
      state := 1, flushed := at_, commit := at_, fill := at_, manger := (s.freeManger p).getD 0, table := []
      appended := [], puts := [], inserted := 0, lastNode := none
      top := if blocks = 0 then none else some (blocks - 1) }
    let s := s.bindStream p sid x
    let s := (par.table.filter fun e => decide (e.1 < blocks)).foldl (fun (s : State) e =>
      (s.setPageWord p sid e.1 (some e.2)).setRefs p e.2 (s.refs p e.2 + 1)) s
    (s.refreshPool p).finish f stOK 0 0

def execKvFork (fn : Fn) (ring : Ring) (idx : Word) (s : State) : Out := s.kvOp fn ring idx.toNat 5 kvFork

def pedInsert (s : State) (f : Flight) (p sid : Nat) : State :=
  match s.stream p sid with
  | none => s.finish f stOK 0 0
  | some x =>
    let (n, s) := s.insertFrom p sid 65536 x.inserted x.lastNode 0
    (s.refreshPool p).finish f stOK 0 n

def execPedInsert (fn : Fn) (ring : Ring) (idx : Word) (s : State) : Out :=
  s.kvOp fn ring idx.toNat 6 pedInsert

/-- PED_MATCH (R228); poisoned token IDs are DATA_ERROR, a target in reset TARGET_RESET (R461, R283). -/
def pedMatch (s : State) (f : Flight) (p sid : Nat) : State :=
  let n := kvArg1 f % 2 ^ 32
  if n = 0 then s.finish f stOkEmpty 0 0
  else match s.place f.fn (kvArg0 f) (4 * n) with
    | .error _ => s.finish f stRefused 0 0
    | .ok pl =>
      if s.badAt f.fn pl (4 * n) then (s.touch f.fn pl (4 * n)).finish f stDataError (s.badCode f.fn pl (4 * n)) 0
      else if s.placeDown f.fn pl (4 * n) then s.finish f stTargetReset 0 0
      else
        let ids := s.readAt f.fn pl (4 * n)
        let s := s.touch f.fn pl (4 * n)
        let most := min (n / 256) (2 ^ s.fld OST_KV_CFG_MAXPG_LOG2 p)
        let (hits, s) := s.matchFrom p sid ids most 0 none
        let s := match s.stream p sid with
          | none => s
          | some x =>
            let at_ := x.start + 256 * hits
            (s.setStream p sid { x with
              flushed := at_, commit := at_, fill := at_
              top := if hits = 0 then none else some (hits - 1) }).mangerHdr p sid
        (s.refreshPool p).finish f stOK 0 hits

def execPedMatch (fn : Fn) (ring : Ring) (idx : Word) (s : State) : Out :=
  s.kvOp fn ring idx.toNat 7 pedMatch

/-- A SUBOP that no row of R216 defines (R50). -/
def execKvOpReserved (fn : Fn) (ring : Ring) (idx : Word) (s : State) : Out :=
  s.runDesc fn ring idx.toNat 6 fun s f =>
    if kvSub f = 0 ∨ 8 ≤ kvSub f then
      s.failDesc f (refusedIf (f.fn == 0) 0x12 ++ rangeIf true 8 ++ checkReserved f [(8, 1), (12, 4), (16, 16)] [])
    else s

/-! ## The pool's registers (R200, R201, R233) -/

/-- A refused enable or write (R200): the first cause kept. -/
def State.ostErr (s : State) (p code : Nat) : State :=
  let s := if s.flag OST_STATUS_SETUP_ERR p then s else s.setFld OST_SETUP_ERR_CODE_CODE p code
  s.setFld OST_STATUS_SETUP_ERR p 1

/-- Cause 0x7: a region unaligned, outside the partition's GDDR, or overlapping another. -/
def State.regionsBad (s : State) (p : Nat) : Bool :=
  let rs := s.kvRegions p
  let out := rs.any fun r => r.1 % 4096 != 0 || decide (s.gddrSize (p + 1) < r.1 + r.2)
  let hit := (List.range 3).any fun i => (List.range 3).any fun j => decide (i < j) &&
    match rs[i]?, rs[j]? with
    | some a, some b => overlaps a.1 a.2 b.1 b.2
    | _, _ => false
  out || hit

/-- The frames of both spaces exceed the partition's quota. -/
def State.overQuota (s : State) (p : Nat) : Bool :=
  decide (s.fld (OST_PART_FRAMES_QUOTA p) < s.fld OST_POOL_FRAMES_COUNT p + s.fld OST_HOST_FRAMES_COUNT p)

/-- The lowest cause that refuses the enable of a pool (R200, R521). -/
def State.ostCause (s : State) (p : Nat) : Option Nat :=
  let d := s.kvD p
  let mp := s.fld OST_KV_CFG_MAXPG_LOG2 p
  let streams := s.fld OST_STREAMS_COUNT p
  let mangers := s.fld OST_MANGERS_COUNT p
  if ¬(2 ≤ s.kvFormat p ∧ s.kvFormat p ≤ 5) then some 1
  else if ¬(d = 32 ∨ d = 64 ∨ d = 96 ∨ d = 128) then some 2
  else if s.kvGroups p = 0 ∨ 64 < s.kvGroups p then some 3
  else if mp < 4 ∨ 16 < mp then some 4
  else if streams = 0 ∨ 65536 < streams ∨ mangers = 0 ∨ streams < mangers then some 5
  else if s.fld OST_POOL_FRAMES_COUNT p = 0 ∨ s.overQuota p then some 6
  else if s.regionsBad p then some 7
  else none

/-- OST_PAGE_BYTES and OST_MANGER_BYTES follow OST_KV_CFG (R199); at reset they read 0 (R232). DESIGN CHOICE (log
entry 66): they are worked out at each write of the configuration that is taken. -/
def State.showSizes (s : State) (p : Nat) : State :=
  (s.setFld OST_PAGE_BYTES_BYTES p (s.pageBytes p)).setFld OST_MANGER_BYTES_BYTES p (s.mangerBytes p)

/-- ENABLE = 1 (R200). -/
def ostEnable (s : State) (p : Nat) : State :=
  if s.kvOn p then s
  else match s.ostCause p with
    | some c => s.ostErr p c
    | none =>
      let s := (s.setFld OST_STATUS_ENABLED p 1).setFld OST_CTRL_ENABLE p 1
      (s.showSizes p).refreshPool p

/-- The pool is disabled: its nodes go with it; the memory of its frames is kept (R223). -/
def State.poolOff (s : State) (p : Nat) : State :=
  let s := { s with kv := { s.kv with
    nodes := tabDrop s.kv.nodes fun k => k / 2 ^ 24 == p, refs := tabDrop s.kv.refs fun k => k / 2 ^ 24 == p } }
  (((s.refreshPool p).setFld OST_STATUS_ENABLED p 0).setFld OST_CTRL_ENABLE p 0)

/-- ENABLE = 0: ignored with cause 0x8 while a stream is open. -/
def ostDisable (s : State) (p : Nat) : State :=
  if !s.kvOn p then s
  else if (s.openStreams p).isEmpty then s.poolOff p
  else s.ostErr p 8

/-- A write to OST_CTRL by a function; the owner's are ignored (R232). -/
def ostCtrlWrite (s : State) (fn : Nat) (val : Word) : State :=
  if fn = 0 then s else if bitOf val 0 then ostEnable s (fn - 1) else ostDisable s (fn - 1)

def execOstEnable (fn : Fn) (val : Word) (s : State) : Out :=
  .next (if bitOf val 0 then whenLive s fn (ostCtrlWrite s fn val) else s)

def execOstDisable (fn : Fn) (val : Word) (s : State) : Out :=
  .next (if bitOf val 0 then s else whenLive s fn (ostCtrlWrite s fn val))

/-- A write of OST_POOL_FRAMES or OST_HOST_FRAMES (R201): stored while the pool is disabled; while it is
enabled a raise that fits is taken and retries the stalled streams, anything else is ignored with cause
0x8 (DESIGN CHOICE, log entry 66). -/
def poolFramesWrite (s : State) (fn : Nat) (host : Bool) (val : Word) : State :=
  if fn = 0 then s
  else
    let p := fn - 1
    let f := if host then OST_HOST_FRAMES_COUNT else OST_POOL_FRAMES_COUNT
    let t := s.setFld f p (getBits val 0 23)
    if !s.kvOn p then t
    else if getBits val 0 23 < s.fld f p ∨ t.overQuota p ∨ t.regionsBad p then s.ostErr p 8
    else (t.refreshPool p).retryStalls p

def execPoolFramesWrite (fn : Fn) (host : Bool) (val : Word) (s : State) : Out :=
  .next (whenLive s fn (poolFramesWrite s fn host val))

/-- A configuration field written while the pool is enabled is ignored with cause 0x8. -/
def ostConfigWrite (s : State) (fn : Nat) (store : State → State) : State :=
  if fn = 0 then s else if s.kvOn (fn - 1) then s.ostErr (fn - 1) 8 else store s

/-- The owner's frame quota of a partition (R233) (DESIGN CHOICE, log entry 66). -/
def partFramesWrite (s : State) (p : Nat) (val : Word) : State :=
  let q := getBits val 0 23
  let rest := ((List.range 32).filter (· != p)).foldl (fun n k => n + s.fld (OST_PART_FRAMES_QUOTA k)) 0
  let used := if s.kvOn p then s.fld OST_POOL_FRAMES_COUNT p + s.fld OST_HOST_FRAMES_COUNT p else 0
  if 4194304 < rest + q ∨ q < used then s.setFld (OST_PART_STATUS_QUOTA_ERR p) 0 1
  else s.setFld (OST_PART_FRAMES_QUOTA p) 0 q

def execOstPartFramesWrite (p : Part) (val : Word) (s : State) : Out := .next (partFramesWrite s p val)

/-- The owner's node quota of a partition (R233). -/
def partNodesWrite (s : State) (p : Nat) (val : Word) : State :=
  let q := getBits val 0 21
  let rest := ((List.range 32).filter (· != p)).foldl (fun n k => n + s.fld (PED_PART_NODES_QUOTA k)) 0
  if 1048576 < rest + q then s.setFld (OST_PART_STATUS_QUOTA_ERR p) 0 1
  else s.setFld (PED_PART_NODES_QUOTA p) 0 q

def execPedPartNodesWrite (p : Part) (val : Word) (s : State) : Out := .next (partNodesWrite s p val)

/-- A PED_KEY write (R233): ignored in isolation mode; word 3 commits all four, and the partition's nodes
go (R226). -/
def pedKeyWrite (s : State) (p w : Nat) (val : Word) : State :=
  if s.isolated then s
  else
    let s := { s with kv := { s.kv with keyWords := tabPut s.kv.keyWords (p * 4 + w) val } }
    if w ≠ 3 then s
    else
      let key := (List.range 4).foldl (fun n k =>
        n + (tabGet 0 s.kv.keyWords (p * 4 + k)).toNat * 2 ^ (32 * k)) 0
      ({ s with kv := { s.kv with keys := tabPut s.kv.keys p key } }).dropNodes p

def execPedKeyWrite (p : Part) (w : Fin 4) (val : Word) (s : State) : Out := .next (pedKeyWrite s p w val)

/-! ## Resets (R223, R225) -/

/-- A function-level reset closes every stream, removes the nodes and disables the pool (R223). -/
def State.kvReset (s : State) (p : Nat) : State :=
  let s := (s.openStreams p).foldl (fun (s : State) x => s.closeStream p x.1) s
  s.poolOff p

/-- After a reset of a channel that a pool lies on, every GDDR frame is POISON and the nodes go (R225). -/
def State.poisonPool (s : State) (p : Nat) : State :=
  if !s.kvOn p then s
  else
    let s := (s.gddrFrames p).foldl (fun (s : State) f =>
      let pl := s.framePlace p f
      s.setPageField p pl 11 1 (s.pageFlags p pl ||| 2)) s
    s.dropNodes p

end Sys2Proof.Machine
end

