-- ==== Sys2Proof/Machine/PlanCheck.lean ====
section
/-! DEFINITION. The checks PLAN_LOAD makes on each section of an image: spec/03 R75 to R81, spec/04 R95,
R96, R107, spec/05 R122, R124, R140 to R144, R522, spec/06 R148, R158, R162, R167, spec/07 R171 to R173,
spec/08 R209, spec/09 R242, R243, R252, R255, R256, spec/10 R271, R272, spec/12 R307 to R314, spec/13 R355
to R357, spec/14 R365 to R369, R374, R381. Each check answers the offsets of the bytes that fail it, and
the lowest is the AUX of the refusal (R76, R313). -/

namespace Sys2Proof.Machine

/-- A failing byte offset if the condition is bad. -/
def bad (c : Bool) (off : Nat) : List Nat := if c then [off] else []

/-- The first nonzero byte of a reserved range. -/
def resv (b : List Byte) (lo n : Nat) : List Nat :=
  (((List.range n).find? fun k => fieldAt b (lo + k) 1 != 0).map (· + lo)).toList

/-- The byte that holds the first nonzero bit of a mask over an n-byte field: its reserved bits. -/
def resvMask (b : List Byte) (o n mask : Nat) : List Nat :=
  (((List.range n).find? fun k => fieldAt b (o + k) 1 &&& (mask / 256 ^ k % 256) != 0).map (· + o)).toList

/-- The lowest failing offset. -/
def lowest : List Nat → Option Nat
  | [] => none
  | x :: xs => some (match lowest xs with | some y => min x y | none => x)

/-- The section's length against the length it implies (R313): the first missing or surplus byte. -/
def lengthBad (b : List Byte) (implied : Nat) : List Nat :=
  if b.length < implied then [b.length] else if implied < b.length then [implied] else []

/-- Checks over a table: entry k of `n`, each of `size` bytes from `base`. -/
def eachEntry (n base size : Nat) (f : Nat → Nat → List Nat) : List Nat :=
  (List.range n).flatMap fun k => f k (base + size * k)

/-! ## Element formats (R65, R95, R96) -/

/-- The formats of R65 that are not reserved. -/
def formatOk (f : Nat) : Bool := decide (1 ≤ f ∧ f ≤ 10)

/-- A SHAPE byte that R71 allows for the format. -/
def shapeOk (f sh : Nat) : Bool := decide (sh < 4) && (blockScaled f || axisOf sh == 0)

/-- The format pairs of a tensor iteration (R95). -/
def pairOk (a b : Nat) : Bool :=
  (decide (4 ≤ a ∧ a ≤ 8) && decide (4 ≤ b ∧ b ≤ 8)) || (a == b && decide (1 ≤ a ∧ a ≤ 3))

/-- Block scales along k for A: SCALE_AXIS 0, row-major (R96). -/
def alongA (o : Operand) : Bool := !blockScaled o.format || o.shape == 0

/-- Block scales along k for B: SCALE_AXIS 1, row-major (R96). -/
def alongB (o : Operand) : Bool := !blockScaled o.format || o.shape == 2

/-- Roles that read, receive included; roles that write. -/
def Operand.reads (o : Operand) : Bool := o.role == 1 || o.role == 4
def Operand.writes (o : Operand) : Bool := o.role == 2 || o.role == 3 || o.role == 5

/-! ## Loop descriptors (R77 to R81, R162) -/

/-- The checks of an operand record in use (R80, R81); `tile` gives TILE of a level. DEDUCED (log entry
67): an extent that differs from its level's TILE fails at the operand's ROWS or COLS. -/
def operandBad (b : List Byte) (o : Nat) (p : Plan) (tile : Nat → Option Nat) : List Nat :=
  let r := parseOperand b o
  let chute := r.role == 4 || r.role == 5
  let lvl := fun l => decide (l ≤ 5) || l == 7
  bad (!decide (1 ≤ r.role ∧ r.role ≤ 5)) o ++
  bad (decide (3 < r.port) || (!chute && r.port != 0)) (o + 1) ++
  bad (!formatOk r.format) (o + 2) ++ bad (!shapeOk r.format r.shape) (o + 3) ++
  bad (!decide (1 ≤ r.rows ∧ r.rows ≤ 128) ||
    (decide (r.rowLevel ≤ 5) && tile r.rowLevel != some r.rows)) (o + 4) ++
  bad (!decide (1 ≤ r.cols ∧ r.cols ≤ 128) ||
    (decide (r.colLevel ≤ 5) && tile r.colLevel != some r.cols)) (o + 5) ++
  bad (!lvl r.rowLevel) (o + 6) ++
  bad (!lvl r.colLevel || (r.colLevel != 7 && r.colLevel == r.rowLevel)) (o + 7) ++
  bad ((p.tensor r.tensor).isNone) (o + 8) ++
  ((List.range 6).zip r.strides).flatMap (fun x =>
    bad (x.2 % 64 != 0 || (chute && x.2 != 0)) (o + 16 + 4 * x.1)) ++
  bad (r.offset % 64 != 0 || (chute && r.offset != 0)) (o + 40) ++ resv b (o + 60) 4

/-- The checks of a level record (R79); `order` is the nesting order. -/
def levelBad (b : List Byte) (o l : Nat) (order : List Nat) : List Nat :=
  let v := parseLevel b o
  let depth := fun x => order.findIdx (· == x)
  bad (!decide (1 ≤ v.tile ∧ v.tile ≤ 128)) (o + 4) ++ bad (decide (2 < v.liveSrc)) (o + 5) ++
  bad (if v.liveSrc = 2 then !(decide (v.liveLevel ≤ 5) && decide (depth v.liveLevel < depth l))
    else v.liveLevel != 0) (o + 6) ++
  resv b (o + 7) 1 ++ bad (v.liveSrc == 0 && v.liveTensor != 0) (o + 8) ++
  bad (v.liveSrc == 0 && v.liveIndex != 0) (o + 12)

/-- A sync identifier of a kind exists in the plan (R158). -/
def Plan.hasSync (p : Plan) (sem : Bool) (id : Nat) : Bool := p.syncs.any fun x => x.sem == sem && x.id == id

/-- The checks of the SYNC field (R162). -/
def syncBad (b : List Byte) (o : Nat) (p : Plan) : List Nat :=
  let d := parseDesc b o
  let rawPre := fieldAt b (o + 20) 4
  let rawPost := fieldAt b (o + 24) 4
  let sems := d.preKind == 2 || d.postKind == 2 || d.iterKind != 0
  bad (decide (3 < d.preKind)) (o + 16) ++ bad (decide (2 < d.postKind)) (o + 17) ++
  bad (decide (3 < d.iterKind)) (o + 18) ++ resv b (o + 19) 1 ++
  bad (match d.preKind with
    | 0 => rawPre != 0
    | 1 => !p.hasSync false (rawPre % 2 ^ 17)
    | 2 => !p.hasSync true (rawPre % 2 ^ 17)
    | _ => decide (p.slots.length ≤ rawPre % 2 ^ 16)) (o + 20) ++
  (match d.preKind with
    | 0 => []
    | 1 | 2 => resvMask b (o + 20) 4 0xFFFE0000
    | _ => resvMask b (o + 20) 4 0xFFFF0000) ++
  bad (match d.postKind with
    | 0 => rawPost % 2 ^ 17 != 0
    | k => !p.hasSync (k == 2) (rawPost % 2 ^ 17)) (o + 24) ++ resvMask b (o + 24) 4 0xFFFE0000 ++
  bad (d.iterKind != 0 && !p.hasSync true d.iterSem) (o + 28) ++ resvMask b (o + 28) 4 0x00FE0000 ++
  bad (if sems then d.amount == 0 else d.amount != 0) (o + 31)

/-- The checks of a loop descriptor (R77 to R81). DESIGN CHOICE (log entry 82): a NEXT_DESC at or beyond
DESC_COUNT is refused in every descriptor, also in one that no program's chain reaches. -/
def descBad (b : List Byte) (p : Plan) (count d o : Nat) : List Nat :=
  let n := fieldAt b (o + 2) 1
  let order := orderOf (fieldAt b (o + 4) 3)
  let tile := fun l => if l ≤ 5 then some (fieldAt b (o + 32 + 16 * l + 4) 1) else none
  bad (fieldAt b o 2 != d) o ++ bad (!decide (1 ≤ n ∧ n ≤ 4)) (o + 2) ++ resv b (o + 3) 1 ++
  bad (!(List.range 6).all fun l => order.contains l) (o + 4) ++
  bad (decide (4 ≤ fieldAt b (o + 6) 1)) (o + 6) ++ resv b (o + 7) 1 ++
  bad (match p.node (fieldAt b (o + 8) 4) with
    | none => true
    | some x => (List.range p.programs.length).any fun q => x.program != q && (p.chain q).contains d) (o + 8) ++
  bad (fieldAt b (o + 12) 2 != 0xFFFF && decide (count ≤ fieldAt b (o + 12) 2)) (o + 12) ++
  resv b (o + 14) 2 ++ syncBad b o p ++
  (List.range 6).flatMap (fun l => levelBad b (o + 32 + 16 * l) l order) ++
  (List.range 4).flatMap (fun k =>
    if k < n then operandBad b (o + 128 + 64 * k) p tile else resv b (o + 128 + 64 * k) 64)

/-- The descriptor whose NEXT_DESC keeps a program's chain from reaching 0xFFFF within DESC_COUNT
descriptors (R76): the last one walked. -/
def Plan.chainStuck (p : Plan) (prog : Nat) : Option Nat :=
  match (p.chain prog).getLast? with
  | some d => match p.descs[d]? with
    | some x => if x.next = 0xFFFF then none else some d
    | none => none
  | none => none

/-- The header of section 0x0001 (R75). -/
def loopsHdrBad (b : List Byte) : List Nat :=
  if b.length < 64 then [b.length]
  else
    bad (!decide (1 ≤ fieldAt b 0 4 ∧ fieldAt b 0 4 ≤ 4096)) 0 ++
    bad (!decide (1 ≤ fieldAt b 4 4 ∧ fieldAt b 4 4 ≤ 65535)) 4 ++ resv b 8 56

/-- Section 0x0001 behind a good header (R75 to R81). DESIGN CHOICE (log entry 82): the bytes between the
program table and the first descriptor are not checked. -/
def loopsBad (b : List Byte) (p : Plan) : List Nat :=
  let np := fieldAt b 0 4
  let nd := fieldAt b 4 4
  lengthBad b (descBase np + 384 * nd) ++
  eachEntry np 64 8 (fun q o => bad (decide (nd ≤ fieldAt b o 4)) o ++ resv b (o + 4) 4 ++
    ((p.chainStuck q).map fun d => descBase np + 384 * d + 12).toList) ++
  eachEntry nd (descBase np) 384 (fun d o => descBad b p nd d o)

/-! ## Engine nodes (R95, R96, R122, R124, R140 to R144, R522) -/

/-- The reads and the writes of a descriptor. -/
def Desc.ins (d : Desc) : List Operand := d.ops.filter Operand.reads
def Desc.outs (d : Desc) : List Operand := d.ops.filter Operand.writes

/-- A tensor node's operands (R95, R96). -/
def tensorOk (d : Desc) : Bool :=
  match d.ins, d.outs with
  | [a, b], [c] =>
    pairOk a.format b.format && decide (1 ≤ c.format ∧ c.format ≤ 8) && alongA a && alongB b &&
      a.rows == c.rows && a.cols == b.rows && b.cols == c.cols
  | _, _ => false

/-- Parameter words that an operation uses, as a mask of P0 to P3 (R124). Whether IADD uses P0 depends on
its reads (`vectorBad`). DESIGN CHOICE (log entry 78): ROPE has P1 whatever POS_SRC is, so any P1 loads. -/
def paramMask (vop : Nat) : Nat :=
  if vop = 0x0A then 3
  else if vop = 0x0B ∨ vop = 0x25 ∨ vop = 0x26 ∨ vop = 0x60 then 1
  else if vop = 0x29 then 7
  else 0

/-- An extent that broadcasts to the output's (R122). -/
def bcastOk (a out : Nat) : Bool := a == out || a == 1

/-- Reads of an element-wise operation, none UINT32, broadcast to the output. -/
def elemReads (ins : List Operand) (c : Operand) (n : Nat) : Bool :=
  ins.length == n && ins.all fun a => a.format != 10 && bcastOk a.rows c.rows && bcastOk a.cols c.cols

/-- The operand counts, extents and formats of each VOP (R522). -/
def vopOk (vop : Nat) (params : List Nat) (ins : List Operand) (c : Operand) : Bool :=
  let f32 := c.format == 1
  let no32 := ins.all fun a => a.format != 10
  let plain := c.format != 9 && c.format != 10
  match vop with
  | 0x01 | 0x02 | 0x03 | 0x05 | 0x06 => plain && elemReads ins c 2
  | 0x04 => plain && elemReads ins c 3
  | 0x07 | 0x08 | 0x09 | 0x0A => plain && elemReads ins c 1
  | 0x0B => c.format == 10 && decide (1 ≤ ins.length ∧ ins.length ≤ 2) &&
      ins.all fun a => a.format == 10 && bcastOk a.rows c.rows && bcastOk a.cols c.cols
  | 0x20 | 0x21 | 0x22 => match ins with
    | [a] => no32 && plain && c.rows == a.rows && c.cols == 1
    | _ => false
  | 0x23 => match ins with
    | [a] => no32 && plain && c.rows == a.rows && (c.cols == 1 || (c.cols == 2 && f32))
    | _ => false
  | 0x24 => match ins with
    | [a] => no32 && f32 && c.rows == a.rows && c.cols == 3
    | _ => false
  | 0x25 => match ins with
    | [a, b, g] => no32 && plain && c.rows == a.rows && c.cols == a.cols && b.rows == a.rows && b.cols == 3 &&
        decide (1 ≤ g.rows ∧ g.rows ≤ 2) && g.cols == a.cols
    | _ => false
  | 0x26 => match ins with
    | [a, b, g] => no32 && plain && c.rows == a.rows && c.cols == a.cols && b.rows == a.rows && b.cols == 2 &&
        g.rows == 1 && g.cols == a.cols
    | _ => false
  | 0x27 => match ins with
    | [a] => no32 && f32 && c.rows == a.rows && c.cols == 2
    | _ => false
  | 0x28 => match ins with
    | [a] => a.format == 1 && f32 && a.cols == 2 && c.rows == a.rows && c.cols == 1
    | _ => false
  | 0x29 =>
    let src := (params[0]?).getD 0
    let shape := fun (a b : Operand) => plain && a.format != 10 && b.format == 1 && a.cols % 2 == 0 &&
      b.rows == 1 && b.cols == a.cols / 2 && c.rows == a.rows && c.cols == a.cols
    match ins with
    | [a, b] => src != 0 && shape a b
    | [a, b, q] => src != 1 && shape a b && q.format == 10 && q.rows == a.rows && q.cols == 1
    | _ => false
  | 0x50 | 0x51 | 0x52 => plain && elemReads ins c 2
  | 0x60 => plain && (elemReads ins c 1 || elemReads ins c 2)
  | v => decide (0x40 ≤ v ∧ v ≤ 0x4F) && plain && elemReads ins c 1

/-- The load checks of the microstore step at `o` (R141, R142). -/
def stepBad (b : List Byte) (o : Nat) : List Nat :=
  let op := fieldAt b o 1 % 64
  let imm := fieldAt b (o + 4) 4
  let hornD := imm % 16
  bad (!decide (1 ≤ op ∧ op ≤ 0x0C)) o ++ resvMask b o 4 0xFFF80000 ++
  match op with
  | 0x02 => resvMask b (o + 4) 4 0xFC000000 ++
      bad (decide (2048 < imm % 2 ^ 11 + (imm / 2 ^ 15 % 2 ^ 11 + 1))) (o + 4)
  | 0x03 => bad (!(decide (1 ≤ hornD ∧ hornD ≤ 8) &&
      decide (imm / 16 % 2 ^ 11 + (imm / 2 ^ 16 + 1) * (hornD + 1) ≤ 2048) &&
      (imm / 2 ^ 15 % 2 == 1 || imm / 2 ^ 16 == 0))) (o + 4)
  | 0x04 => resvMask b (o + 4) 4 0xFFFFFFFE
  | 0x05 => resvMask b (o + 4) 4 0xFFFFFE00
  | 0x01 | 0x0A => []
  | _ => resvMask b (o + 4) 4 0xFFFFFFFF

/-- A micro-program from an entry reaches LAST within 64 steps, within the carried steps and before entry
511 (R140); no program does in a plan that carries no steps. -/
def progEnds (ucode : List (BitVec 64)) (entry : Nat) : Bool :=
  decide (320 ≤ entry) && (((ucode.take 191).drop (entry - 320)).take 64).any fun st => st.toNat.testBit 18

/-- The VOP codes that R124 does not reserve. -/
def vopKnown (v : Nat) : Bool :=
  decide (1 ≤ v ∧ v ≤ 0x0B) || decide (0x20 ≤ v ∧ v ≤ 0x29) || decide (0x40 ≤ v ∧ v ≤ 0x4F) ||
    decide (0x50 ≤ v ∧ v ≤ 0x52) || v == 0x60

/-- A vector node's parameter words (R124, R140, R144): an unused word is 0, a used one has a value its
operation allows. -/
def paramBad (p : Plan) (n : NodeEnt) (j v : Nat) : Bool :=
  (!(paramMask n.vop).testBit j && v != 0) ||
    (n.vop == 0x60 && j == 0 && !progEnds p.ucode v) ||
    (n.vop == 0x29 && (j == 0 || j == 2) && decide (1 < v))

/-- A vector node's operation and operands in a descriptor; `o` is its entry. DEDUCED (log entry 67): a
wrong operand fails at VOP, P0 of an IADD that reads two operands at P0. -/
def vectorBad (n : NodeEnt) (o : Nat) (d : Desc) : List Nat :=
  match d.outs with
  | [c] =>
    bad (!vopOk n.vop n.params d.ins c) (o + 2) ++
      bad (n.vop == 0x0B && d.ins.length != 1 && (n.params[0]?).getD 0 != 0) (o + 8)
  | _ => [o]

/-! ## Attention nodes (R171 to R173) -/

/-- Extents, and a format test, of an operand. -/
def Operand.is (o : Operand) (rows cols : Nat) (f : Nat → Bool) : Bool :=
  o.rows == rows && o.cols == cols && f o.format

/-- The head dimensions of R173. -/
def headDim (d : Nat) : Bool := d == 32 || d == 64 || d == 96 || d == 128

/-- The formats an attention output may have: those of R65 except UE5M3 and UINT32. -/
def outFmt (f : Nat) : Bool := decide (1 ≤ f ∧ f ≤ 8)

/-- The operand tables of R173, and the pair of P_FMT with V (R171). -/
def attnOperandsOk (n : NodeEnt) (d : Desc) : Bool :=
  let mode := fieldAt n.record 1 1
  let pfmt := fieldAt n.record 2 1
  let half := fun f => f == 2 || f == 3
  let f32 := fun f => f == 1
  let wr := fun (o : Operand) => o.role == 2 || o.role == 5
  match n.kind with
  | 3 => match d.ops, n.ext with
    | [q, k, v, o], [x] =>
      headDim q.cols && q.reads && k.reads && v.reads && wr o && x.role == 2 &&
        q.is 128 q.cols (fun f => decide (2 ≤ f ∧ f ≤ 5)) && k.is q.cols 128 (pairOk q.format) &&
        v.is 128 q.cols (pairOk pfmt) && alongA q && alongB k && alongB v &&
        o.is 128 q.cols (if mode = 1 then f32 else outFmt) && x.is 128 (if mode = 1 then 2 else 1) f32
    | _, _ => false
  | 5 => match d.ops with
    | [a, m, o, l] =>
      headDim a.cols && a.reads && m.reads && wr o && l.role == 2 && a.is 128 a.cols f32 &&
        m.is 128 2 f32 && o.is 128 a.cols outFmt && l.is 128 1 f32
    | _ => false
  | _ => match d.ops, n.ext with
    | [q, k, v, g], [l, e, dq, dk, dv] =>
      headDim q.cols && q.reads && k.reads && v.reads && g.reads && l.role == 1 && e.role == 1 &&
        dq.role == 3 && dk.role == 3 && dv.role == 3 && half q.format && pairOk pfmt v.format &&
        q.is 128 q.cols (· == q.format) && k.is q.cols 128 (· == q.format) &&
        v.is 128 q.cols (· == q.format) && g.is 128 q.cols (· == q.format) && l.is 128 1 f32 && e.is 128 1 f32 &&
        dq.is 128 q.cols f32 && dk.is q.cols 128 f32 && dv.is 128 q.cols f32
    | _, _ => false

/-- The header of an attention record at offset `o` of the section (R171, R172). -/
def attnRecordBad (b : List Byte) (o kind : Nat) (p : Plan) : List Nat :=
  let mask := fieldAt b o 1
  let scale := fieldAt b (o + 4) 4
  let ext := match kind with | 3 => 1 | 4 => 5 | _ => 0
  bad (decide (32 ≤ mask) || (mask.testBit 2 && !mask.testBit 1) || (mask.testBit 4 && !mask.testBit 0) ||
    (kind == 5 && mask != 0)) o ++
  bad (decide (1 < fieldAt b (o + 1) 1) || (fieldAt b (o + 1) 1 == 1 && kind != 3)) (o + 1) ++
  bad (!decide (2 ≤ fieldAt b (o + 2) 1 ∧ fieldAt b (o + 2) 1 ≤ 4)) (o + 2) ++
  bad (fieldAt b (o + 3) 1 != ext) (o + 3) ++
  bad (if kind = 5 then scale != 0 else !decide (0 < scale ∧ scale < 0x7F800000)) (o + 4) ++
  bad ((fieldAt b (o + 8) 4 != 0) != mask.testBit 1) (o + 8) ++
  bad (if mask.testBit 3 then (p.tensor (fieldAt b (o + 20) 4)).isNone else fieldAt b (o + 20) 4 != 0) (o + 20) ++
  bad (if mask.testBit 4 then (p.tensor (fieldAt b (o + 24) 4)).isNone else fieldAt b (o + 24) 4 != 0) (o + 24) ++
  resv b (o + 28) 36

/-- Extension operand records from `o`, `cnt` of `most` in use (R80, R171, R242); a record within the
count whose ROLE is 0 is absent and zero where `gaps` allows it. -/
def extBad (b : List Byte) (o cnt most : Nat) (gaps : Bool) (p : Plan) (tile : Nat → Option Nat) : List Nat :=
  (List.range most).flatMap fun e =>
    let x := o + 64 * e
    if e < cnt then
      if gaps && fieldAt b x 1 == 0 then resv b x 64 else operandBad b x p tile
    else resv b x 64

/-! ## The other node kinds (R209, R242, R243, R252, R271) -/

def kvRecordBad (b : List Byte) (o kind : Nat) (p : Plan) : List Nat :=
  bad (decide (64 ≤ fieldAt b o 1) || (kind == 7 && fieldAt b o 1 != 0)) o ++
  bad (decide (2 ≤ fieldAt b (o + 1) 1) || (kind == 7 && fieldAt b (o + 1) 1 != 0)) (o + 1) ++
  bad (!(decide (fieldAt b (o + 2) 1 ≤ 5) || fieldAt b (o + 2) 1 == 7)) (o + 2) ++ resv b (o + 3) 1 ++
  bad ((p.tensor (fieldAt b (o + 4) 4)).isNone) (o + 4) ++ resv b (o + 12) 52

/-- The operands of KV_APPEND and KV_COMMIT (R209). -/
def kvOperandsOk (n : NodeEnt) (d : Desc) : Bool :=
  if n.kind = 7 then match d.ops with
    | [a] => a.reads && a.is 1 1 (· == 10)
    | _ => false
  else match d.ops with
    | [k, v] => fieldAt n.record 1 1 == 0 && k.reads && v.reads && k.rows == v.cols && k.cols == v.rows
    | [k, v, t] => k.reads && v.reads && t.reads && k.rows == v.cols && k.cols == v.rows &&
        t.is 1 k.cols (· == 10)
    | _ => false

def optRecordBad (b : List Byte) (o : Nat) : List Nat :=
  bad (!decide (1 ≤ fieldAt b o 1 ∧ fieldAt b o 1 ≤ 3)) o ++
  bad (!(fieldAt b (o + 1) 1 == 0 || fieldAt b (o + 1) 1 == 2)) (o + 1) ++
  bad (decide (2 ≤ fieldAt b (o + 2) 1)) (o + 2) ++ bad (decide (3 < fieldAt b (o + 3) 1)) (o + 3) ++
  resv b (o + 4) 60

/-- An extension operand of an OPT record, if present. -/
def NodeEnt.optExt (n : NodeEnt) (e : Nat) : Option Operand := (n.ext[e]?).filter fun x => x.role != 0

/-- Operands that share extents and levels, LAYOUT 0 (R243). -/
def sameTile (w x : Operand) : Bool :=
  x.rows == w.rows && x.cols == w.cols && x.rowLevel == w.rowLevel && x.colLevel == w.colLevel &&
    layoutOf x.shape == 0

/-- The operands of OPT_STEP (R243). -/
def optOperandsOk (n : NodeEnt) (d : Desc) : Bool :=
  let adamw := fieldAt n.record 0 1 == 1
  match d.ops with
  | [w, g, m, h] =>
    w.role == 3 && w.format == 1 && sameTile w w && g.reads && decide (1 ≤ g.format ∧ g.format ≤ 3) &&
      sameTile w g && m.role == 3 && m.format == 4 && m.shape == 0 && sameTile w m &&
      h.role == 1 && h.is 1 16 (· == 1) && h.rowLevel == 7 && h.colLevel == 7 &&
      (match n.optExt 0 with
        | some r => adamw && r.role == 3 && r.format == 9 && r.shape == 0 && sameTile w r
        | none => !adamw) &&
      (match n.optExt 1 with
        | some l => (l.role == 2 || l.role == 5) && decide (1 ≤ l.format ∧ l.format ≤ 8) && sameTile w l
        | none => true) &&
      (match n.optExt 2 with
        | some c => c.role == 3 && c.is 1 1 (· == 10) && c.rowLevel == 7 && c.colLevel == 7
        | none => true)
  | _ => false

/-- The PIPE record (R252); the slots are checked against the descriptors that use the node. -/
def pipeRecordBad (b : List Byte) (o : Nat) (p : Plan) (ds : List Desc) : List Nat :=
  let mb := fieldAt b o 1
  let base := fieldAt b (o + 8) 4
  let stride := fieldAt b (o + 12) 4
  let isTransfer := fun k => match p.slots[k]? with
    | some s => s.kind == 2
    | none => false
  let lastSlot := fun (d : Desc) => match d.levels[mb]? with
    | some l => base + (l.bound - 1) * stride
    | none => base
  bad (!(decide (mb ≤ 5) || mb == 7)) o ++
  bad (!decide (1 ≤ fieldAt b (o + 1) 1 ∧ fieldAt b (o + 1) 1 ≤ 16)) (o + 1) ++ resv b (o + 2) 2 ++
  bad (decide (p.ranks.length ≤ fieldAt b (o + 4) 4)) (o + 4) ++ bad (!isTransfer base) (o + 8) ++
  bad (ds.any fun d => decide (p.slots.length ≤ lastSlot d)) (o + 12) ++
  bad (!p.hasSync true (fieldAt b (o + 16) 4)) (o + 16) ++ resv b (o + 20) 44

/-- The operand of a PIPE node (R252). -/
def pipeOperandsOk (n : NodeEnt) (d : Desc) : Bool :=
  match d.ops with
  | [a] => a.role == (if n.kind = 9 then 1 else 2)
  | _ => false

/-- The DROVE record (R271). -/
def droveRecordBad (b : List Byte) (o : Nat) (p : Plan) : List Nat :=
  let mode := fieldAt b o 1
  let flags := fieldAt b (o + 1) 1
  let pages := mode == 3
  let named := fun k => (p.tensor (fieldAt b (o + k) 4)).isSome
  bad (!decide (1 ≤ mode ∧ mode ≤ 3)) o ++ bad (decide (4 ≤ flags) || (!pages && flags % 2 == 1)) (o + 1) ++
  bad (decide (64 ≤ fieldAt b (o + 2) 1) || (!pages && fieldAt b (o + 2) 1 != 0)) (o + 2) ++
  bad (if pages then fieldAt b (o + 3) 1 != 0 else !decide (1 ≤ fieldAt b (o + 3) 1 ∧ fieldAt b (o + 3) 1 ≤ 64))
    (o + 3) ++
  bad (if pages then fieldAt b (o + 4) 4 != 0 else !named 4) (o + 4) ++ bad (!named 8) (o + 8) ++
  bad (!named 16) (o + 16) ++ bad (pages != (fieldAt b (o + 24) 4 == 0)) (o + 24) ++
  bad (fieldAt b (o + 28) 4 % 64 != 0) (o + 28) ++ bad (fieldAt b (o + 32) 4 % 64 != 0) (o + 32) ++
  bad (!named 36) (o + 36) ++ bad (!p.hasSync true (fieldAt b (o + 44) 4)) (o + 44) ++
  bad (if flags.testBit 1 then !p.hasSync true (fieldAt b (o + 48) 4) else fieldAt b (o + 48) 4 != 0) (o + 48) ++
  resv b (o + 52) 12

/-! ## The operation graph (R307 to R312) -/

/-- TILE of a level in the first descriptor of a node. -/
def tileOfNode (ds : List Desc) (l : Nat) : Option Nat :=
  ds.head?.bind fun d => (d.levels[l]?).map (·.tile)

/-- A node entry at `o`, whether or not a descriptor names it (R309, R310; R124, R140, R144). -/
def nodeBad (b : List Byte) (p : Plan) (k o : Nat) : List Nat :=
  match p.node k with
  | none => []
  | some n =>
    let ro := fieldAt b (o + 24) 4
    bad (!decide (1 ≤ n.kind ∧ n.kind ≤ 11)) o ++ bad (n.round == 3) (o + 1) ++
    bad (if n.kind = 2 then !vopKnown n.vop else n.vop != 0) (o + 2) ++ resv b (o + 3) 1 ++
    bad (if n.kind = 11 then n.program != 0xFFFFFFFF else decide (p.programs.length ≤ n.program)) (o + 4) ++
    ((List.range 4).flatMap fun j =>
      let v := fieldAt b (o + 8 + 4 * j) 4
      bad (if n.kind = 2 then paramBad p n j v else v != 0) (o + 8 + 4 * j)) ++
    bad (if recordBytes n.kind = 0 then ro != 0
      else ro % 64 != 0 || decide (fieldAt b 20 4 < ro + recordBytes n.kind)) (o + 24)

/-- A node's record, and the operands of the descriptors that use the node. -/
def nodeUseBad (b : List Byte) (p : Plan) (g : GraphLayout) (k o : Nat) : List Nat :=
  match p.node k with
  | none => []
  | some n =>
    let ds := p.descsOf k
    let r := g.records + fieldAt b (o + 24) 4
    let tile := tileOfNode ds
    let opsBad := fun ok => bad (!ds.all ok) o
    match n.kind with
    | 1 => opsBad tensorOk
    | 2 => ds.flatMap (vectorBad n o)
    | 3 | 4 | 5 => attnRecordBad b r n.kind p ++ extBad b (r + 64) (fieldAt b (r + 3) 1) 5 false p tile ++
        opsBad (attnOperandsOk n)
    | 6 | 7 => kvRecordBad b r n.kind p ++ opsBad (kvOperandsOk n)
    | 8 => optRecordBad b r ++ extBad b (r + 64) (fieldAt b (r + 3) 1) 3 true p tile ++ opsBad (optOperandsOk n)
    | 9 | 10 => pipeRecordBad b r p ds ++ opsBad (pipeOperandsOk n)
    | 11 => droveRecordBad b r p
    | _ => []

/-- The operand records at one end of an edge: those of every descriptor of its node (R311). -/
def Plan.edgeOps (p : Plan) (node op : Nat) : List (Option Operand) :=
  (p.descsOf node).map fun d => ((p.operands d).find? fun x => x.1 == op).map (·.2)

/-- The bytes of the largest bale of an operand, header included. -/
def Operand.baleBytes (o : Operand) : Nat := 64 + payloadSize o.format o.shape o.rows o.cols

/-- An end of an edge names a record with the role it needs: record 0 to 3 of every descriptor of the node, of
which there is one, or an extension record; a DROVE end has operand byte 0xFF (R311). -/
def edgeEndOk (p : Plan) (node op role : Nat) : Bool :=
  match p.node node with
  | none => false
  | some n =>
    if n.kind = 11 then op == 0xFF
    else if op < 4 then
      !(p.descsOf node).isEmpty && (p.edgeOps node op).all fun x => (x.map (·.role)) == some role
    else decide (op ≤ 8) && ((n.ext[op - 4]?).map (·.role)) == some role

/-- An edge entry at `o` (R148, R311). -/
def edgeBad (b : List Byte) (p : Plan) (k o : Nat) : List Nat :=
  match p.edges[k]? with
  | none => []
  | some e =>
    let both := (p.edgeOps e.srcNode e.srcOp ++ p.edgeOps e.dstNode e.dstOp).filterMap id
    let most := both.foldl (fun m x => max m x.baleBytes) 0
    let prog := fun n => (p.node n).map (·.program)
    let scatter := match p.node e.dstNode with
      | some n => n.kind == 11
      | none => false
    bad (decide (p.nodes.length ≤ e.srcNode)) o ++
    bad (decide (p.nodes.length ≤ e.dstNode) || prog e.srcNode == prog e.dstNode) (o + 4) ++
    bad (!edgeEndOk p e.srcNode e.srcOp 5) (o + 8) ++ bad (!edgeEndOk p e.dstNode e.dstOp 4) (o + 9) ++
    resv b (o + 10) 2 ++
    bad (e.rxUnits == 0 || decide (16384 < e.rxUnits) || decide (e.rxUnits * 64 < 2 * most) ||
      (scatter && decide (4096 < e.rxUnits)) ||
      both.any fun x => both.any fun y => x.format != y.format || x.shape != y.shape) (o + 12) ++ resv b (o + 14) 2

/-- The first position in a program's chain of a descriptor that uses an operand of a node. -/
def Plan.firstUse (p : Plan) (prog node : Nat) : Option Nat :=
  (p.chain prog).findIdx? fun d => match p.descs[d]? with
    | some x => x.node == node
    | none => false

/-- A core is primed on a cycle (R167): it sends on the outgoing edge before it ever receives on the
incoming one. -/
def Plan.primed (p : Plan) (inc out : EdgeEnt) : Bool :=
  match p.node out.srcNode with
  | none => false
  | some n => match p.firstUse n.program out.srcNode, p.firstUse n.program inc.dstNode with
    | some s, some r => decide (s < r)
    | some _, none => true
    | none, _ => false

/-- The core that receives on one edge sends on the other, and is not primed. -/
def Plan.blocks (p : Plan) (x y : EdgeEnt) : Bool :=
  (match p.node x.dstNode, p.node y.srcNode with
    | some m, some n => m.kind != 11 && n.kind != 11 && m.program == n.program
    | _, _ => false) && !p.primed x y

/-- Remove the edges from which no edge follows, `fuel` times: what stays leads to an unprimed cycle. -/
def pruneEdges (p : Plan) : Nat → List (Nat × EdgeEnt) → List (Nat × EdgeEnt)
  | 0, es => es
  | n + 1, es => pruneEdges p n (es.filter fun e => es.any fun f => p.blocks e.2 f.2)

/-- The edges on an unprimed cycle (R167), at the edge table's offset. -/
def cyclesBad (p : Plan) (base : Nat) : List Nat :=
  (pruneEdges p p.edges.length ((List.range p.edges.length).zip p.edges)).map fun e => base + 16 * e.1

/-- A sync entry at `o` (R158, R312). -/
def syncEntBad (b : List Byte) (p : Plan) (k o : Nat) : List Nat :=
  match p.syncs[k]? with
  | none => []
  | some x =>
    bad ((!x.sem && decide (16383 < x.id)) ||
      (p.syncs.take k).any fun y => y.id == x.id && y.sem == x.sem) o ++ resvMask b o 4 0x7FFE0000 ++
    bad (if x.sem then decide (65535 < x.value) else !decide (1 ≤ x.value ∧ x.value ≤ 4095)) (o + 4)

/-- A tensor entry at `o` (R308). -/
def tensorEntBad (b : List Byte) (p : Plan) (k o : Nat) : List Nat :=
  let id := fieldAt b o 4
  bad (id == 0 || (p.tensors.take k).any fun t => t.id == id) o ++
  bad (decide (4 ≤ fieldAt b (o + 4) 1)) (o + 4) ++ resv b (o + 5) 3 ++ bad (fieldAt b (o + 8) 8 == 0) (o + 8) ++
  resv b (o + 28) 4

/-- The padding between an end and the next table (R313). -/
def padBad (b : List Byte) (ended next : Nat) : List Nat := resv b ended (next - ended)

/-- The header of section 0x0002 (R307). -/
def graphHdrBad (b : List Byte) : List Nat :=
  bad (!decide (1 ≤ fieldAt b 0 4 ∧ fieldAt b 0 4 ≤ 1048575)) 0 ++ bad (decide (65535 < fieldAt b 4 4)) 4 ++
  bad (decide (147456 < fieldAt b 8 4)) 8 ++
  bad (!decide (1 ≤ fieldAt b 12 4 ∧ fieldAt b 12 4 ≤ 1048576)) 12 ++ bad (decide (192 < fieldAt b 16 2)) 16 ++
  bad (decide (512 < fieldAt b 18 2)) 18 ++ bad (fieldAt b 20 4 % 64 != 0) 20 ++ resv b 24 40

/-- The tables of section 0x0002 (R307 to R310, R312, R313). -/
def graphBad (b : List Byte) (p : Plan) : List Nat :=
  let hdr := if b.length < 64 then [b.length] else graphHdrBad b
  if !hdr.isEmpty then hdr
  else
    let g := graphLayout b
    lengthBad b g.total ++
    padBad b (g.tensors + 32 * fieldAt b 12 4) g.nodes ++ padBad b (g.nodes + 32 * fieldAt b 0 4) g.edges ++
    padBad b (g.edges + 16 * fieldAt b 4 4) g.syncs ++ padBad b (g.syncs + 8 * fieldAt b 8 4) g.steps ++
    padBad b (g.steps + 8 * fieldAt b 16 2) g.words ++ padBad b (g.words + 4 * fieldAt b 18 2) g.records ++
    eachEntry p.tensors.length g.tensors 32 (tensorEntBad b p) ++
    eachEntry p.nodes.length g.nodes 32 (nodeBad b p) ++
    eachEntry p.syncs.length g.syncs 8 (syncEntBad b p) ++
    eachEntry p.ucode.length g.steps 8 (fun _ o => stepBad b o)

/-- What section 0x0002 says of the operands in section 0x0001: the records and operands of the nodes,
the ends of the edges and the cycles they form (R95, R96, R122, R148, R167, R311). -/
def graphUseBad (b : List Byte) (p : Plan) : List Nat :=
  let g := graphLayout b
  eachEntry p.nodes.length g.nodes 32 (nodeUseBad b p g) ++
    eachEntry p.edges.length g.edges 16 (edgeBad b p) ++ cyclesBad p g.edges

/-! ## Placement intents (R314) -/

/-- An intent entry at `o`. The slot of an OFFLOAD is the FETCH slot that brings its tensor back. -/
def intentBad (b : List Byte) (p : Plan) (k o : Nat) : List Nat :=
  match p.intents[k]? with
  | none => []
  | some i =>
    let v := i.value
    let byte := fun n => v / 256 ^ n % 256
    bad (!decide (1 ≤ i.kind ∧ i.kind ≤ 4)) o ++ bad (decide (1 < fieldAt b (o + 1) 1)) (o + 1) ++
    resv b (o + 2) 2 ++
    bad ((p.intents.take k).any (fun j => j.kind == i.kind && j.subject == i.subject) ||
      (match i.kind with
        | 1 | 2 => (p.tensor i.subject).isNone
        | 3 => decide (p.programs.length ≤ i.subject)
        | _ => false)) (o + 4) ++
    match i.kind with
    | 1 => bad (!(byte 0 == 1 || byte 0 == 2 || byte 0 == 4)) (o + 8) ++ resv b (o + 9) 7
    | 2 => bad (!(byte 0 == 2 || byte 0 == 3)) (o + 8) ++ resv b (o + 9) 3 ++
        bad (!((p.slots[v / 2 ^ 32]?).any fun x => x.kind == 3 && x.subject == i.subject)) (o + 12)
    | 3 => bad (decide (8 ≤ byte 4) && byte 4 != 0xFF) (o + 12) ++ resv b (o + 13) 3
    | 4 =>
      let mn := v % 2 ^ 16
      let mx := v / 2 ^ 16 % 2 ^ 16
      bad (mn == 0) (o + 8) ++ bad (decide (mx < mn) || decide (4 < mx)) (o + 10) ++
        bad (!(byte 4 == 2 || byte 4 == 3)) (o + 12) ++ resv b (o + 13) 3
    | _ => []

def intentsBad (b : List Byte) (p : Plan) : List Nat :=
  let n := fieldAt b 0 4
  let hdr := if b.length < 64 then [b.length] else bad (!decide (1 ≤ n ∧ n ≤ 1048576)) 0 ++ resv b 4 60
  if hdr.isEmpty then lengthBad b (64 + 16 * n) ++ eachEntry n 64 16 (intentBad b p) else hdr

/-! ## The yard schedule (R355 to R357) -/

/-- The OFFLOAD intent of a tensor names this slot. -/
def Plan.offloadsTo (p : Plan) (tensor slot : Nat) : Bool :=
  match p.intent 2 tensor with
  | some i => i.value / 2 ^ 32 == slot
  | none => false

def slotBad (b : List Byte) (p : Plan) (k o : Nat) : List Nat :=
  match p.slots[k]? with
  | none => []
  | some x =>
    let before := match p.slots[k - 1]? with
      | some y => y.beat
      | none => 0
    let known := fun t => t == 0 || (p.tensor t).isSome
    let transfer := x.kind == 2
    let timed := x.kind == 3 || x.kind == 4
    bad (decide (p.stepBeats ≤ x.beat) || decide (x.beat < before)) o ++
    bad (!decide (1 ≤ x.kind ∧ x.kind ≤ 4)) (o + 4) ++
    bad (decide (1 < fieldAt b (o + 5) 1) || (!transfer && fieldAt b (o + 5) 1 != 0)) (o + 5) ++
    bad (decide (1 < fieldAt b (o + 6) 1) || (x.kind != 4 && fieldAt b (o + 6) 1 != 0)) (o + 6) ++ resv b (o + 7) 1 ++
    bad (if timed then decide (x.deadline < x.beat) || decide (p.stepBeats ≤ x.deadline) else x.deadline != 0)
      (o + 8) ++
    bad (match x.kind with
      | 1 => x.subject != 0
      | 2 => !known x.subject
      | 3 => (p.tensor x.subject).isNone || !p.offloadsTo x.subject k
      | _ => match p.colls[x.subject]? with
        | some c => c.op == 9
        | none => true) (o + 12) ++
    bad (if transfer then x.srcOffset % 64 != 0 else x.srcOffset != 0) (o + 16) ++
    bad (if transfer || x.kind == 3 then x.length % 64 != 0 else x.length != 0) (o + 24) ++
    bad (if transfer then decide (p.ranks.length ≤ x.peer) else x.peer != 0) (o + 32) ++
    bad (if transfer then !known x.dstTensor else x.dstTensor != 0) (o + 36) ++
    bad (if transfer then x.dstOffset % 64 != 0 else x.dstOffset != 0) (o + 40) ++
    bad (if transfer then !p.hasSync true x.landSem else x.landSem != 0) (o + 48) ++
    bad (if transfer && x.srcWait then !p.hasSync true x.srcSem else x.srcSem != 0) (o + 52) ++ resv b (o + 56) 8

def yardBad (b : List Byte) (p : Plan) : List Nat :=
  let n := fieldAt b 0 4
  let hdr := (if b.length < 64 then [b.length] else []) ++
    bad (!decide (1 ≤ n ∧ n ≤ 65536)) 0 ++ bad (!decide (1 ≤ p.period ∧ p.period ≤ 64)) 4 ++
    bad (decide (1 < fieldAt b 6 1)) 6 ++ bad (decide (16 < p.alignLog2)) 7 ++ bad (p.stepBeats == 0) 8 ++
    resv b 12 52
  if decide (1 ≤ n ∧ n ≤ 65536) then hdr ++ lengthBad b (64 + 64 * n) ++ eachEntry n 64 64 (slotBad b p)
  else hdr

/-! ## Recompute recipes (R255, R256) -/

/-- Some descriptor of a program has an operand, or itself, such that the test holds. -/
def Plan.progAny (p : Plan) (prog : Nat) (t : Desc → Bool) : Bool :=
  (p.chain prog).any fun d => ((p.descs[d]?).map t).getD false

def recipeBad (b : List Byte) (p : Plan) (k o : Nat) : List Nat :=
  match p.recipes[k]? with
  | none => []
  | some r =>
    let pol := fieldAt b (o + 4) 1
    let writesIt := p.progAny r.program fun d => (p.operands d).any fun x => x.2.writes && x.2.tensor == r.tensor
    let waits := p.progAny r.program fun d =>
      d.preKind == 3 || (p.operands d).any fun x => x.2.role == 4 || x.2.role == 5
    bad ((p.tensor r.tensor).isNone || (p.recipes.take k).any fun q => q.tensor == r.tensor) o ++
    bad (!(pol == 1 || pol == 2) || (pol == 2 && (p.intent 2 r.tensor).isSome)) (o + 4) ++ resv b (o + 5) 3 ++
    bad (decide (p.programs.length ≤ r.program) || !writesIt || waits) (o + 8) ++
    bad (decide (fieldAt b 4 4 < fieldAt b (o + 12) 4 + fieldAt b (o + 16) 4)) (o + 12) ++
    bad (decide (64 < fieldAt b (o + 16) 4)) (o + 16) ++ resv b (o + 20) 12

def recipesBad (b : List Byte) (p : Plan) : List Nat :=
  let n := fieldAt b 0 4
  let w := fieldAt b 4 4
  let hdr := bad (!decide (1 ≤ n ∧ n ≤ 65535)) 0 ++ bad (decide (1048576 < w)) 4 ++ resv b 8 56
  let base := recipeInputs n
  if hdr.isEmpty then
    lengthBad b (base + 4 * w) ++ eachEntry n 64 32 (recipeBad b p) ++
    eachEntry w base 4 (fun _ o => bad (p.recipes.any fun r => r.tensor == fieldAt b o 4) o)
  else hdr

/-! ## Collective membership (R365 to R369, R374, R381, R385) -/

/-- The depth of the last node of a tree of N members (R370). -/
def treeDepth (fanin : Nat) : Nat → Nat → Nat
  | 0, _ => 0
  | n + 1, u => if u = 0 then 0 else 1 + treeDepth fanin n ((u - 1) / max fanin 1)

/-- Position and coordinates of a rank word (R340, R365). -/
def rankP (w : Nat) : Nat := w % 4
def rankX (w : Nat) : Nat := w / 4 % 8
def rankY (w : Nat) : Nat := w / 32 % 16
def rankZ (w : Nat) : Nat := w / 512 % 16
def rankDomain (w : Nat) : Nat := w / 8192 % 16

/-- A set of coordinates is a full ring of size D, or a run that does not wrap (R381). -/
def runOk (cs : List Nat) (d : Nat) : Bool :=
  let s := cs.dedup
  match s.min?, s.max? with
  | some lo, some hi => s.length == d || s.length == hi - lo + 1
  | _, _ => false

/-- The membership of a whistle collective (R381), with the torus sizes DX, DY, DZ. -/
def whistleOk (ws : List Nat) (dx dy dz : Nat) : Bool :=
  let n := fun (f : Nat → Nat) => (ws.map f).dedup.length
  n rankDomain == 1 && runOk (ws.map rankX) dx && runOk (ws.map rankY) dy && runOk (ws.map rankZ) dz &&
    ws.length == n rankP * n rankX * n rankY * n rankZ

/-- The live elements of a tensor at most, by an operand record that names it (R369). -/
def Plan.elements (p : Plan) (t : TensorEnt) : Nat :=
  ((p.descs.flatMap (·.ops)).filter (·.tensor == t.id)).foldl
    (fun m o => max m (t.bytes / o.baleBytes * (o.rows * o.cols))) 0

/-- A collective entry at `o` (R367 to R369). -/
def collBad (b : List Byte) (p : Plan) (dims : Nat × Nat × Nat) (k o : Nat) : List Nat :=
  match p.colls[k]? with
  | none => []
  | some c =>
    let n := c.members.length
    let red := c.op == 1 || c.op == 2
    let tree := decide (1 ≤ c.op ∧ c.op ≤ 4)
    let a2a := decide (5 ≤ c.op ∧ c.op ≤ 7)
    let counted := c.op == 6 || c.op == 7
    let whistle := c.op == 8
    let named := fun t => (p.tensor t).isSome
    let slots := ((List.range p.slots.length).zip p.slots).filter fun s => s.2.kind == 4 && s.2.subject == k
    let words := fieldAt b 8 4
    let depth := treeDepth c.fanin n (n - 1)
    let isWords := fun t => ((p.tensor t).map (·.words)).getD false
    bad (!decide (1 ≤ c.op ∧ c.op ≤ 9) || (c.op != 9 && slots.length != 1) || (tree && slots.any fun s =>
      decide (s.2.deadline < s.2.beat + depth * c.levelBeats))) o ++
    bad (decide (8 ≤ fieldAt b (o + 1) 1) || (c.ret && c.op != 7)) (o + 1) ++
    bad (if red then !decide (1 ≤ c.carry ∧ c.carry ≤ 3) else if whistle then !(c.carry == 1 || c.carry == 10)
      else c.carry != 0) (o + 2) ++
    bad (decide (2 < c.round)) (o + 3) ++
    bad (if red then decide (2 < c.redop) else if whistle then decide (4 < c.redop) ||
      (c.carry == 1 && decide (2 < c.redop)) else c.redop != 0) (o + 4) ++
    bad (if tree then !decide (2 ≤ c.fanin ∧ c.fanin ≤ 8) else c.fanin != 0) (o + 5) ++
    bad (if a2a then !decide (1 ≤ c.colTiles ∧ c.colTiles ≤ 64) else c.colTiles != 0) (o + 6) ++ resv b (o + 7) 1 ++
    bad (decide (words < fieldAt b (o + 8) 4 + fieldAt b (o + 12) 4) ||
      c.members.any (fun m => decide (p.ranks.length ≤ m)) || !c.members.Nodup ||
      (whistle && !whistleOk (c.members.map fun m => (p.ranks[m]?).getD 0) dims.1 dims.2.1 dims.2.2)) (o + 8) ++
    bad (!decide (1 ≤ fieldAt b (o + 12) 4 ∧ fieldAt b (o + 12) 4 ≤ 131072)) (o + 12) ++
    bad (if c.op = 9 then c.src != 0 else !named c.src || (whistle && !isWords c.src) ||
      (red && match p.tensor c.src with
        | some t => decide (2 ^ 32 < p.elements t)
        | none => true)) (o + 16) ++
    bad (if c.op = 9 then c.dst != 0 else !named c.dst || (whistle && !isWords c.dst)) (o + 20) ++
    bad (match c.op with
      | 3 | 4 => c.length % 64 != 0
      | 8 => decide (64 < c.length) || c.length % 4 != 0
      | 9 => c.length != 0
      | _ => false) (o + 24) ++
    bad (if counted then !named c.countTensor else c.countTensor != 0) (o + 32) ++
    bad (if counted then !named c.recvTensor else c.recvTensor != 0) (o + 36) ++
    bad (c.op != 9 && !p.hasSync true c.doneSem) (o + 40) ++ resvMask b (o + 40) 4 0xFFFE0000 ++
    bad (if c.srcWait then !p.hasSync true c.srcSem else c.srcSem != 0) (o + 48) ++
    bad (match c.op with
      | 4 => decide (n ≤ c.argA)
      | 7 => c.ret && match p.colls[c.argA]? with
        | some f => f.op != 7 || f.ret
        | none => true
      | _ => c.argA != 0) (o + 52) ++
    bad (if c.op = 7 ∧ !c.ret then decide (words < fieldAt b (o + 56) 4 + c.argA) ||
      c.experts.any fun e => decide (n ≤ e) else fieldAt b (o + 56) 4 != 0) (o + 56) ++ resv b (o + 60) 4

def membersBad (b : List Byte) (p : Plan) (dims : Nat × Nat × Nat) : List Nat :=
  let n := fieldAt b 0 4
  let hdr := bad (!decide (1 ≤ n ∧ n ≤ 131072)) 0 ++ bad (decide (4096 < fieldAt b 4 4)) 4 ++
    bad (decide (4194304 < fieldAt b 8 4)) 8 ++ resv b 12 52
  if !hdr.isEmpty then hdr
  else
    let (c, _, total) := memberLayout b
    lengthBad b total ++ bad p.ownRank.isNone 64 ++
    eachEntry n 64 4 (fun k o => bad ((p.ranks.take k).contains (fieldAt b o 4)) o ++
      resvMask b o 4 0xFFFE0000) ++
    eachEntry p.colls.length c 64 (collBad b p dims)

/-! ## The image (R45, R46) -/

/-- The AUX of the refusal of a plan: the first failing byte of the section reported (R76, R313); none where
every section passes. DEDUCED (log entry 67): no rule says which section is reported where several fail. It
is the first of: 0x0001 with a bad header, 0x0002 with a bad table, 0x0004, 0x0001, 0x0002 whose operands or
edges do not fit, 0x0003, 0x0005, 0x0006. -/
def planBad (x : Sections) (p : Plan) (has : Nat → Bool) (dims : Nat × Nat × Nat) : Option Nat :=
  let opt := fun (t : Nat) (l : Unit → List Nat) => if has t then lowest (l ()) else none
  let tables := graphBad x.graph p
  lowest (loopsHdrBad x.loops) <|>
    (if tables.isEmpty then none else lowest (tables ++ graphUseBad x.graph p)) <|>
    lowest (yardBad x.yard p) <|> lowest (loopsBad x.loops p) <|> lowest (graphUseBad x.graph p) <|>
    opt 3 (fun _ => intentsBad x.intents p) <|> opt 5 (fun _ => recipesBad x.recipes p) <|>
    opt 6 (fun _ => membersBad x.members p dims)

/-- An operand reads a tensor in memory: roles 1 and 3. -/
def Operand.readsTensor (o : Operand) (t : Nat) : Bool := (o.role == 1 || o.role == 3) && o.tensor == t

/-- The cores whose programs read a tensor. -/
def Plan.readerCores (pl : Plan) (t : Nat) : List Nat :=
  (pl.cores.filter fun c => (pl.chain c.1).any fun d => match pl.desc d with
    | some x => (pl.operands x).any fun o => o.2.readsTensor t
    | none => false).map fun c => c.2

/-- A DROVE node reads a tensor: its rows, its indices or its count (R271). -/
def NodeEnt.gathers (n : NodeEnt) (t : Nat) : Bool :=
  n.kind == 11 && [4, 8, 16].any fun k => fieldAt n.record k 4 == t && (k != 4 || fieldAt n.record 0 1 != 3)

/-- The drovers whose streams read a tensor. -/
def Plan.readerDrovers (pl : Plan) (t : Nat) : List Nat :=
  (pl.drovers.filter fun d => (pl.node d.1).any fun n => n.gathers t).map (·.2)

/-- The clusters of the cores and drovers that read a tensor. -/
def Plan.readerClusters (pl : Plan) (t : Nat) : List Nat :=
  ((pl.readerCores t).map (· / 8) ++ (pl.readerDrovers t).map (· / 4)).eraseDups

end Sys2Proof.Machine
end

