-- ==== Sys2Proof/Machine/Muster.lean ====
section
/-! DEFINITION. The Muster engines (spec/14): trees and the order of addition, deadlines and stragglers,
token exchange, the whistle channel, cancellation and RESET marks. Messages to other modules are kept
in the outbox; those from other modules arrive by commands. -/

namespace Sys2Proof.Machine

/-! ## Runs, plans and places -/

/-- The run of a collective in a partition's executing step. -/
def State.collRun (s : State) (p k : Nat) : Option CollRun :=
  (s.stepOf p).bind fun st => st.colls.find? (·.coll == k)

/-- Change the run of a collective. -/
def State.updColl (s : State) (p k : Nat) (f : CollRun → CollRun) : State :=
  s.updStep p fun st => { st with colls := st.colls.map fun r => if r.coll == k then f r else r }

/-- What a member needs to know of a collective: the plan identifier, the plan, the entry, its slot, the
member's own collective rank, and the step. -/
structure CollCtx where
  id : Nat
  plan : Plan
  coll : Coll
  slot : Option Slot
  rank : Nat
  step : Step
deriving DecidableEq, Repr

/-- The context of a collective of the executing step, if this module is a member. -/
def State.collCtx (s : State) (p k : Nat) : Option CollCtx := do
  let st ← s.stepOf p
  let pl ← s.planOf p st.plan
  let c ← pl.colls[k]?
  let own ← pl.ownRank
  let r ← c.members.findIdx? (· == own)
  return ⟨st.plan, pl, c, pl.slots.find? fun x => x.kind == 4 && x.subject == k, r, st⟩

/-- The number of members. -/
def CollCtx.n (x : CollCtx) : Nat := x.coll.members.length

/-- The beat at which the collective opens, its deadline beat, and the lateness of a beat against its opening
(R384, R385, R390). -/
def CollCtx.openBeat (x : CollCtx) : Nat := x.step.startBeat + ((x.slot.map (·.beat)).getD 0)
def CollCtx.deadBeat (x : CollCtx) : Nat := x.step.startBeat + ((x.slot.map (·.deadline)).getD 0)
def CollCtx.lateness (x : CollCtx) (b : Nat) : Nat := b - x.openBeat

/-- A collective that reduces, whose sums move up a tree; one that exchanges rows. -/
def Coll.reduces (c : Coll) : Bool := c.op == 1 || c.op == 2
def Coll.exchanges (c : Coll) : Bool := decide (5 ≤ c.op ∧ c.op ≤ 7)

/-- The executing step is a replay. -/
def CollCtx.replay (x : CollCtx) : Bool := x.step.replay.isSome

/-- A header with nothing in it. -/
def noHdr : SumHdr := ⟨false, false, false, 0, 0, [], none, false, false⟩

/-- Some core of the partition has LOCAL_NF set (R236). -/
def State.localNf (s : State) (p : Nat) : Bool :=
  (s.coresOf p).any fun c => s.flag TEN_OPT_STATUS_LOCAL_NF c

/-- GNF is set (R238), with its source: 1 a GRAD result, 2 LOCAL, 4 a deferred contribution (R258). -/
def State.raiseGnf (s : State) (p src : Nat) : State :=
  let s := s.updStep p fun st => { st with gnf := true }
  (s.coresOf p).foldl (fun (s : State) c => (s.setFld TEN_OPT_STATUS_GNF c 1).setFld TEN_OPT_STATUS_GUARD_SRC c
    (s.fld TEN_OPT_STATUS_GUARD_SRC c ||| src)) s

/-- A Muster fault (R397): the first kept in MUS_FAULT, counted, and a cause of DATA_ERROR. -/
def State.musFault (s : State) (p code k : Nat) : State :=
  let s := if s.flag MUS_STATUS_FAULT p then s
    else (s.setFld MUS_FAULT_CODE p code).setFld MUS_FAULT_COLL p k
  ((s.setFld MUS_STATUS_FAULT p 1).bump MUS_FAULT_COUNT_COUNT p).stepFault p 0x06

/-- Of the faults that one event has, the lowest code is recorded (R521). -/
def State.musFaults (s : State) (p k : Nat) (codes : List Nat) : State :=
  match codes with
  | [] => s
  | c :: cs => s.musFault p (cs.foldl min c) k

/-- A wait for a late message is counted (R380, R386): from a beat to now, rounded up. -/
def State.musWait (s : State) (p beat : Nat) (past : Bool) : State :=
  if decide (beat < s.beat) || (s.beat == beat && past) then
    (s.bump MUS_WAIT_EVENTS_COUNT p).bump MUS_WAIT_BEATS_COUNT p (s.beat - beat + past.toNat)
  else s

/-! ## Trees (R370) -/

/-- The label of rank `r` in the tree rooted at `j` of `n` members, and the rank of a label. -/
def labelOf (r j n : Nat) : Nat := (r + n - j % n) % n
def rankOfLabel (u j n : Nat) : Nat := (u + j) % n

/-- The children of a label: position and label, in increasing position. -/
def treeKids (u f n : Nat) : List (Nat × Nat) :=
  ((List.range f).map fun k => (k + 1, u * f + 1 + k)).filter fun x => decide (x.2 < n)

/-- The depth of a label. -/
def labelDepth (f : Nat) : Nat → Nat → Nat
  | 0, _ => 0
  | n + 1, u => if u = 0 then 0 else 1 + labelDepth f n ((u - 1) / f)

/-- This member's label, children and depth in the tree rooted at `j`. -/
def CollCtx.label (x : CollCtx) (j : Nat) : Nat := labelOf x.rank j x.n
def CollCtx.kids (x : CollCtx) (j : Nat) : List (Nat × Nat) := treeKids (x.label j) x.coll.fanin x.n
def CollCtx.kidRanks (x : CollCtx) (j : Nat) : List Nat :=
  (x.kids j).map fun k => rankOfLabel k.2 j x.n
def CollCtx.depth (x : CollCtx) (j : Nat) : Nat := labelDepth x.coll.fanin x.n (x.label j)

/-- The beat at which this member closes its inputs in the tree of a shard (R385). -/
def CollCtx.closeBeat (x : CollCtx) (j : Nat) : Nat := x.deadBeat - x.depth j * x.coll.levelBeats

/-- The bales of shard `j` of `b` bales among `n` members (R371). -/
def shardRange (b n j : Nat) : Nat × Nat := (j * b / n, (j + 1) * b / n)

/-! ## Source bales and elements (R371, R374, R375) -/

/-- How a read of source bales ended: whole, at a bale that cannot be read (R397 code 0x02), or at one whose
header a reset has lost (R283). -/
inductive SrcEnd where
  | whole | unread | reset
deriving DecidableEq, Repr

/-- The bales that lie one after the other in a tensor, over `left` bytes from `off`. One that a reset has lost, but
for its header, is zeros with POISON = 1 (R283). -/
def State.packedBales (s : State) (p id : Nat) : Nat → Nat → Nat → List BaleRead × SrcEnd
  | 0, _, left => ([], if left = 0 then .whole else .unread)
  | fuel + 1, off, left =>
    if left = 0 then ([], .whole)
    else match s.tensorPlace p id off 64 with
      | none => ([], .unread)
      | some pl =>
        let b := s.stepBale p pl
        let n := b.bale.hdr.size
        let dark := match pl with
          | .host a => s.hostDark a n
          | _ => false
        if s.stepDown p pl 64 then ([], .reset)
        else if dark || (hdrBadByte b.bale.hdr).isSome || decide (left < n) || (s.tensorPlace p id off n).isNone then
          ([], .unread)
        else
          let zero : Bale := ⟨{ b.bale.hdr with flags := 1 }, List.replicate b.bale.hdr.payload 0⟩
          let b := if b.down then { b with bale := zero, bad := false } else b
          let (bs, e) := s.packedBales p id fuel (off + n) (left - n)
          (b :: bs, e)

/-- The positions of a bale in storage order (R67, R375). -/
def storageOrder (h : BaleHdr) : List (Nat × Nat) :=
  if layoutOf h.shape = 0 then positions h.rows h.cols
  else (positions h.cols h.rows).map fun x => (x.2, x.1)

/-- A value as the FP32 word of what CARRY holds of it, and the flag events (R374). -/
def carryOf (carry round word : Nat) (v : Fv) : Word × Flags :=
  let (c, fl) := narrowPlain carry (rndOf round fun _ => word) v
  match fmtOf carry with
  | some f => (((roundV (f.decode c)).run noFlags).1, fl)
  | none => (0, fl)

/-- The exact sum of two values (R374). -/
def exactSum : Fv → Fv → Fv
  | .fin a m e, .fin b n f =>
    if m = 0 ∧ n = 0 then .fin (a && b) 0 0
    else
      let (k, x) := dyAdd (dyOf a m e) (dyOf b n f)
      .fin (decide (k < 0)) k.natAbs x
  | x, .fin .. => x
  | .fin .., y => y
  | x, y => if x = y then x else .nan

/-- Combine an accumulator with another operand (R372, R374). -/
def combineElem (c : Coll) (a b : Word) (word : Nat) : Word × Flags :=
  match c.redop with
  | 1 => (max32 a b, noFlags)
  | 2 => (min32 a b, noFlags)
  | _ => carryOf c.carry c.round word (exactSum (dec32 a) (dec32 b))

/-- The word that addition `i` at this member draws for the element with a flat index (R375). -/
def CollCtx.draw (x : CollCtx) (i flat : Nat) : Nat :=
  if x.coll.round = 2 then srWord x.step.seed x.step.step 1 x.coll.dst (32 * x.rank + i) flat else 0

/-- Addition 0 (R372): the live elements of each source bale converted to CARRY, with the flag events; `flat` is
the flat index of the first. -/
def CollCtx.sourceElems (x : CollCtx) : Nat → List BaleRead → List (List Word × Flags)
  | _, [] => []
  | flat, b :: bs =>
    let vs := (storageOrder b.bale.hdr).map fun q => b.bale.value q.1 q.2
    let rs := vs.zipIdx.map fun v => carryOf x.coll.carry x.coll.round (x.draw 0 (flat + v.2)) v.1
    (rs.map (·.1), rs.foldl (fun a r => orFlags a r.2) noFlags) :: x.sourceElems (flat + vs.length) bs

/-- The elements of a list of bale headers, and the flat index at which bale `k` starts. -/
def geomElems (g : List (List Byte)) : List Nat := g.map fun h => fieldAt h 2 2 * fieldAt h 4 2
def geomStart (g : List (List Byte)) (k : Nat) : Nat := ((geomElems g).take k).foldl (· + ·) 0

/-- The headers of a shard's bales, and the flat range of its elements. -/
def CollCtx.shardGeom (x : CollCtx) (g : List (List Byte)) (j : Nat) : List (List Byte) :=
  let (a, b) := shardRange g.length x.n j
  (g.drop a).take (b - a)
def CollCtx.shardElems (x : CollCtx) (g : List (List Byte)) (j : Nat) : Nat × Nat :=
  let (a, b) := shardRange g.length x.n j
  (geomStart g a, geomStart g b)

/-- Combine an accumulator list with an operand list as addition `i`, elements from a flat index on, with each
element's flag events; an empty list adds nothing. -/
def CollCtx.combine (x : CollCtx) (i flat : Nat) (acc op : List Word) : List Word × List Flags :=
  if op.isEmpty then (acc, [])
  else if acc.isEmpty then (op, [])
  else
    let rs := (acc.zip op).zipIdx.map fun e => combineElem x.coll e.1.1 e.1.2 (x.draw i (flat + e.2))
    (rs.map (·.1), rs.map (·.2))

/-- An element of an addition that is not finite (R237). -/
def anyNonFinite (ws : List Word) : Bool := ws.any fun w => isNan32 w || isInf32 w

/-- The layout word of source bales (R376). -/
def layoutWord (bs : List BaleRead) : Nat :=
  crc32 (bs.flatMap fun b =>
    let h := hdrBytes b.bale.hdr
    sliceBytes h 0 1 ++ sliceBytes h 2 5)

/-! ## Headers (R372, R376, R390) -/

/-- The greater lateness, the lower collective rank among equals (R390). -/
def slower (a b : Option (Nat × Nat × Bool)) : Option (Nat × Nat × Bool) :=
  match a, b with
  | none, y => y
  | x, none => x
  | some x, some y =>
    if x.2.1 < y.2.1 ∨ (x.2.1 = y.2.1 ∧ y.1 < x.1) then some y else some x

/-- The OR of two lists, element by element, the longer one's rest kept. -/
def orLists : List Nat → List Nat → List Nat
  | [], ys => ys
  | xs, [] => xs
  | x :: xs, y :: ys => (x ||| y) :: orLists xs ys

/-- STICKY of each bale from the flag events of a shard's elements, in flat order (R376). -/
def segSticky : List Nat → List Flags → List Nat
  | [], _ => []
  | n :: ns, fs => stickyOf ((fs.take n).foldl orFlags noFlags) :: segSticky ns (fs.drop n)

/-- Headers combined on the way up (R372, R376). -/
def joinHdr (a b : SumHdr) : SumHdr :=
  { a with
    nf := a.nf || b.nf, part := a.part || b.part, poison := a.poison || b.poison
    left := min 65535 (a.left + b.left), sticky := orLists a.sticky b.sticky, slow := slower a.slow b.slow }

/-- A member that adds nothing, left out or withdrawn: PARTIAL and LEFT, with its mark in the slowest-member record
if it was left out (R387, R390, R391). -/
def leftHdr (h : SumHdr) (slow : Option (Nat × Nat × Bool)) : SumHdr :=
  joinHdr h { noHdr with part := true, left := 1, slow := slow }

/-! ## Messages -/

/-- The payload bytes of a message (R395): elements, a whistle message's header of 16 bytes, and rows. -/
def msgBytes (whistle : Bool) (data : List Word) (rows : Option RowMsg) : Nat :=
  4 * data.length + 16 * whistle.toNat + match rows with
    | some m => ((m.rows.flatMap id).map fun (z : RowPiece) => z.bytes.length).foldl (· + ·) 0
    | none => 0

/-- Send a message: kept in the outbox, its bytes counted (R395). -/
def State.musSend (s : State) (p : Nat) (x : CollCtx) (k shard kind : Nat) (dests : List Nat)
    (hdr : SumHdr) (data : List Word) (rows : Option RowMsg := none) : State :=
  if dests.isEmpty then s
  else
    let bytes := msgBytes (x.coll.op == 8) data rows
    let m : MusMsg := ⟨p, x.id, k, shard, kind, dests, hdr, data, rows⟩
    let s := { s with mus := { s.mus with outbox := m :: s.mus.outbox } }
    s.bump64 MUS_BYTES_LO p (bytes * dests.length)

/-! ## Results (R371, R376) -/

/-- The payload of a result bale: elements in storage order, already values of CARRY. -/
def resultBale (part : Nat) (c : Coll) (h : BaleHdr) (ws : List Word) (sticky : Nat) (poison : Bool) : Bale :=
  let pos := storageOrder h
  let el := fun r k =>
    let i := pos.findIdx (· == (r, k))
    (⟨dec32 ((ws[i]?).getD 0), fun _ => 0, true⟩ : BlockElem)
  let sh := if blockScaled h.format then layoutOf h.shape else h.shape
  let (pay, _, _) := writePayload c.carry sh 0 h.rows h.cols el
  { hdr := { h with format := c.carry, flags := poison.toNat, shape := sh, part := part, tensor := c.dst
                    payload := pay.length, nextUse := 0xFFFFFFFF, sticky := sticky, tail := false }
    payload := pay }

/-- The bytes of the result bale that a source header leads to. -/
def resultSize (c : Coll) (h : BaleHdr) : Nat := 64 + payloadSize c.carry h.shape h.rows h.cols

/-- Write bales into a collective's destination, each at its offset; one outside the partition is a fault of the
collective (R397 code 0x02). -/
def State.writeBales (s : State) (p k : Nat) (x : CollCtx) (dirty : Bool) (bs : List (Nat × Bale)) : State :=
  let out := bs.filter fun b => (s.tensorPlace p x.coll.dst b.1 b.2.bytes.length).isNone
  let s := if out.isEmpty then s else s.musFault p 0x02 k
  bs.foldl (fun s b => match s.tensorPlace p x.coll.dst b.1 b.2.bytes.length with
    | none => s
    | some pl => s.writeBale p pl b.2 dirty none) s

/-- Write the result bales of a shard: each where the whole tensor places it (ALL_REDUCE), or from the
start of the destination (REDUCE_SCATTER, whose member keeps its own shard). -/
def State.writeShard (s : State) (p k : Nat) (x : CollCtx) (g : List (List Byte)) (j : Nat) (h : SumHdr)
    (data : List Word) (dirty : Bool) : State :=
  let (a, b) := shardRange g.length x.n j
  let base := if x.coll.op = 2 then a else 0
  s.writeBales p k x dirty ((List.range (b - a)).map fun i =>
    let hd := readHdr ((g[a + i]?).getD [])
    let off := ((List.range (a + i - base)).map fun q =>
      resultSize x.coll (readHdr ((g[base + q]?).getD []))).foldl (· + ·) 0
    let ws := (data.drop (geomStart g (a + i) - geomStart g a)).take (hd.rows * hd.cols)
    (off, resultBale p x.coll hd ws ((h.sticky[i]?).getD 0) h.poison))

/-- The words of bytes, and the bytes of words. -/
def wordsOf (bs : List Byte) : List Word :=
  (List.range (bs.length / 4)).map fun i => BitVec.ofNat 32 (fieldAt bs (4 * i) 4)
def bytesOf (ws : List Word) : List Byte := ws.flatMap fun w => leBytes 4 w.toNat

/-- The bales that lie in bytes, at multiples of 64, with their offsets. -/
def balesIn (bs : List Byte) : Nat → Nat → List (Nat × Bale)
  | 0, _ => []
  | fuel + 1, off =>
    let h := readHdr (sliceBytes bs off 64)
    if bs.length ≤ off then []
    else if (hdrBadByte h).isSome || decide (bs.length < off + h.size) then balesIn bs fuel (off + 64)
    else (off, ⟨h, sliceBytes bs (off + 64) h.payload⟩) :: balesIn bs fuel (off + h.size)

/-- A tensor carries WORDS. -/
def CollCtx.isWords (x : CollCtx) (id : Nat) : Bool := ((x.plan.tensor id).map (·.words)).getD false

/-- The bales of a gathered or broadcast payload, none where the tensor carries WORDS (log entry 84). -/
def CollCtx.gathered (x : CollCtx) (id : Nat) (bs : List Byte) : List (Nat × Bale) :=
  if x.isWords id then [] else balesIn bs (bs.length / 64) 0

/-- Write bytes into a collective's destination, from an offset (ALL_GATHER, BROADCAST, WHISTLE): the bales among
them as bales, with POISON = 1 if `poison`. -/
def State.writeRaw (s : State) (p k : Nat) (x : CollCtx) (off : Nat) (data : List Word) (poison : Bool) : State :=
  match s.tensorPlace p x.coll.dst off (4 * data.length) with
  | none => if data.isEmpty then s else s.musFault p 0x02 k
  | some pl =>
    let bs := bytesOf data
    let s := s.writeAt (p + 1) pl bs
    s.writeBales p k x true ((x.gathered x.coll.dst bs).map fun b =>
      (off + b.1, if poison then { b.2 with hdr := { b.2.hdr with flags := 1 } } else b.2))

/-- The members whose trees bring a result here (R371): every shard of a reduction, every member of a
gather, the root of a broadcast. -/
def CollCtx.due (x : CollCtx) : List Nat :=
  match x.coll.op with
  | 1 | 2 | 3 => List.range x.n
  | 4 => [x.coll.argA]
  | _ => []

/-- The destination holds its results: the day book's COLL record and the registers (R389, R390,
R395), the step's PARTIAL, LEFT and GNF (R238, R387), and DONE_SEM (R384). -/
def State.collEnd (s : State) (p k : Nat) (x : CollCtx) (r : CollRun) : State :=
  let own := x.lateness r.stamp
  let s := s.updColl p k fun q => { q with done := true }
  let s := { s with yard := { s.yard with
    collShown := tabPut s.yard.collShown ((p * 16 + x.id) * 4096 + k) (r.got, own, 2) } }
  let s := s.dayRecord (p + 1) 0x06 x.id x.step.step
    (leBytes 4 k ++ leBytes 4 own ++ leBytes 4 r.got.left ++
      leBytes 1 (r.got.part.toNat + 2 * r.got.nf.toNat + 4 * r.withdrawn.toNat))
  let s := s.updStep p fun st => { st with
    part := st.part || r.got.part, left := min 0xFFFFFFFF (st.left + r.got.left) }
  let s := if x.coll.grad && r.got.nf then s.raiseGnf p 1 else s
  let s := if x.coll.op = 8 then s.bump MUS_WHISTLE_OPS_COUNT p else s
  s.signal p x.coll.doneSem

/-- A member completes when its contribution has been sent and every result due to it is written. -/
def State.collDone (s : State) (p k : Nat) : State :=
  match s.collRun p k, s.collCtx p k with
  | some r, some x =>
    if !r.done && r.sent && x.coll.op ≤ 4 && x.due.all r.results.contains && r.early.isEmpty then s.collEnd p k x r
    else s
  | _, _ => s

/-- The header kept of the results so far: LEFT and the slowest member of shard 0's, of a gather the sum of every
tree's LEFT; the other bits the OR of every result's (R372, R390; log entry 84). -/
def CollCtx.gotWith (x : CollCtx) (got : SumHdr) (j : Nat) (h : SumHdr) : SumHdr :=
  let both := { got with nf := got.nf || h.nf, part := got.part || h.part, poison := got.poison || h.poison }
  if x.coll.op = 3 then { both with left := min 65535 (got.left + h.left) }
  else if j = 0 ∨ x.coll.op = 4 then { both with left := h.left, slow := h.slow, layout := h.layout }
  else both

/-- A result is written into this member's destination. -/
def State.collWrite (s : State) (p k j : Nat) (x : CollCtx) (r : CollRun) (h : SumHdr) (data : List Word)
    (dirty : Bool) : State :=
  match x.coll.op with
  | 1 => s.writeShard p k x r.geom j h data dirty
  | 2 => if j = x.rank then s.writeShard p k x r.geom j h data dirty else s
  | 3 => s.writeRaw p k x (j * x.coll.length) data h.poison
  | _ => s.writeRaw p k x 0 data h.poison

/-- A result reaches this member in the tree of shard (or member) `j`: written, forwarded to its children
in that tree, and its header kept. One that comes before this member's own contribution waits, forwarded, until the
source bales give its own bales their shape. -/
def State.collResult (s : State) (p k j : Nat) (h : SumHdr) (data : List Word) (dirty : Bool) : State :=
  match s.collRun p k, s.collCtx p k with
  | some r, some x =>
    if r.done || r.results.contains j || !x.due.contains j then s
    else
      let mism := !x.coll.reduces && h.replay != r.own.replay
      let h := if mism then { h with poison := true } else h
      let s := if mism then s.musFault p 0x01 k else s
      let wait := x.coll.reduces && !r.sent && (x.coll.op == 1 || j == x.rank)
      let s := if wait then s else s.collWrite p k j x r h data dirty
      let fwd := if x.coll.op = 2 then [] else data
      let s := s.musSend p x k j 2 (x.kidRanks j) h fwd
      let s := s.updColl p k fun q => { q with
        results := j :: q.results
        early := if wait then q.early ++ [(j, h, data, dirty)] else q.early
        got := x.gotWith q.got j h }
      s.collDone p k
  | _, _ => s

/-- The results that waited for this member's own contribution are written. -/
def State.writeEarly (s : State) (p k : Nat) : State :=
  match s.collRun p k, s.collCtx p k with
  | some r, some x =>
    if r.early.isEmpty then s
    else
      let s := r.early.foldl (fun (s : State) e => s.collWrite p k e.1 x r e.2.1 e.2.2.1 e.2.2.2) s
      (s.updColl p k fun q => { q with early := [] }).collDone p k
  | _, _ => s

/-! ## Closing a shard (R372, R387, R388) -/

/-- The children that a replay leaves out of a shard, by position (R476). -/
def State.replayLeft (s : State) (p k j : Nat) (x : CollCtx) : List Nat :=
  let rs := s.replayRecs p
  (x.kids j).filterMap fun c =>
    if rs.any fun r => r.type == 7 && fieldAt r.head 32 4 == k && fieldAt r.head 36 4 == j &&
        fieldAt r.head 40 4 == rankOfLabel c.2 j x.n
    then some c.1 else none

/-- The deferrals to add into a shard, in increasing position: those held from an earlier step, and in a
replay those the records name, with the recorded data where none is held (R388, R476). -/
def State.deferralsFor (s : State) (p k j : Nat) (x : CollCtx) : List Deferral :=
  let held := (tabGet [] s.yard.deferrals p).filter fun d =>
    d.plan == x.id && d.coll == k && d.shard == j && d.step != x.step.step
  let ds := if x.replay then
      (s.replayRecs p).filterMap fun r =>
        if r.type == 9 && fieldAt r.head 32 4 == k && fieldAt r.head 36 4 == j then
          let pos := (((x.kids j).find? fun c => rankOfLabel c.2 j x.n == fieldAt r.head 40 4).map (·.1)).getD 0
          match held.find? fun d => d.pos == pos with
          | some d => some d
          | none =>
            let imp := ((tabFind s.yard.armed p).map (·.imported)).getD false
            let start := if imp then 0 else s.reg64 DAY_OLDEST_SEQ_LO (p + 1)
            let late := (s.recsFrom p imp 65536 start).filter fun q =>
              q.type == 8 && fieldAt q.head 32 4 == k && fieldAt q.head 36 4 == j &&
                fieldAt q.head 40 4 == fieldAt r.head 40 4 && fieldAt q.head 44 1 == 1
            let bytes := late.flatMap (·.ext)
            some ⟨x.id, k, j, pos, fieldAt r.head 44 4, { noHdr with nf := fieldAt r.head 52 1 == 1 }, wordsOf bytes⟩
        else none
    else held
  (List.range 9).flatMap fun pos => ds.filter (·.pos == pos)

/-- The accumulator of a shard while children and deferrals are added. -/
structure ShardAcc where
  acc : List Word
  hdr : SumHdr
deriving DecidableEq, Repr

/-- Addition `i`: the elements, and the header with STICKY of the additions. -/
def ShardAcc.add (a : ShardAcc) (x : CollCtx) (lens : List Nat) (i lo : Nat) (data : List Word) (h : SumHdr) :
    ShardAcc :=
  let (acc, fl) := x.combine i lo a.acc data
  ⟨acc, joinHdr a.hdr { h with sticky := orLists h.sticky (segSticky lens fl) }⟩

/-- Every child is present, or the shard is closed without the missing ones. -/
def State.shardReady (s : State) (p k j : Nat) (x : CollCtx) (r : CollRun) : Bool :=
  let left := if x.replay then s.replayLeft p k j x else []
  r.opened && r.sent && !r.closed.contains j && (r.shut.contains j || (x.kids j).all fun c =>
    left.contains c.1 || r.sums.any fun u => u.shard == j && u.pos == c.1)

/-- This member's own part of a shard (R372, R376, R390, R391): its elements as addition 0 left them, zeros where the
source could not be read, nothing where it is withdrawn; and the header it starts with. -/
def CollCtx.ownShard (x : CollCtx) (r : CollRun) (j : Nat) : ShardAcc :=
  let (lo, hi) := x.shardElems r.geom j
  let g := (x.shardGeom r.geom j).map readHdr
  let sums := r.sums.filter (·.shard == j)
  let n := (sums.map fun (u : ChildSum) => u.data.length).foldl max (hi - lo)
  let slow := if j = 0 then some (x.rank, x.lateness r.stamp, false) else none
  if r.withdrawn then
    let layout := if r.geom.isEmpty then ((sums.head?).map fun (u : ChildSum) => u.hdr.layout).getD 0 else r.own.layout
    let leaf := (x.kids j).isEmpty && x.label j != 0
    ⟨[], { (if leaf then noHdr else leftHdr noHdr none) with
      layout := layout, slow := slow, replay := r.own.replay, withdrawn := leaf }⟩
  else
    ⟨if r.own.poison then List.replicate n 0 else (r.vec.drop lo).take (hi - lo),
      { r.own with poison := r.own.poison || g.any fun (h : BaleHdr) => h.flags % 2 == 1
                   sticky := g.map (·.sticky), slow := slow }⟩

/-- A shard's inputs are closed: own elements, each child's sum in position order, each held deferral;
then the sum goes to the parent, or at the root is broadcast and written (R372). -/
def State.closeShard (s : State) (p k j : Nat) : State :=
  match s.collRun p k, s.collCtx p k with
  | some r, some x =>
    if !s.shardReady p k j x r then s
    else
      let (lo, _) := x.shardElems r.geom j
      let lens := geomElems (x.shardGeom r.geom j)
      let kids := x.kids j
      let gone := if x.replay then s.replayLeft p k j x else []
      let sumOf := fun pos => if gone.contains pos then none
        else r.sums.find? fun u => u.shard == j && u.pos == pos
      let own := x.ownShard r j
      let mism := fun u : ChildSum => !u.hdr.withdrawn &&
        ((u.hdr.layout != own.hdr.layout && !(r.withdrawn && r.geom.isEmpty)) || u.hdr.replay != own.hdr.replay)
      let a := kids.foldl (fun (a : ShardAcc) c => match sumOf c.1 with
        | some u =>
          let b := a.add x lens c.1 lo u.data { u.hdr with poison := u.hdr.poison || mism u }
          if u.hdr.withdrawn then { b with hdr := leftHdr b.hdr none } else b
        | none =>
          { a with hdr := leftHdr a.hdr (if j = 0 then
            some (rankOfLabel c.2 j x.n, x.lateness (x.closeBeat j), true) else none) }) own
      let defs := s.deferralsFor p k j x
      let a := defs.foldl (fun (a : ShardAcc) d => a.add x lens (8 + d.pos) lo d.data
        { noHdr with nf := d.hdr.nf, poison := d.hdr.poison, sticky := d.hdr.sticky }) a
      let s := s.updColl p k fun q => { q with closed := j :: q.closed }
      let s := if kids.any fun c => (sumOf c.1).any mism then s.musFault p 0x01 k else s
      let s := kids.foldl (fun s c => if (sumOf c.1).isSome then s else
        (s.bump MUS_LEFT_OUT_COUNT p).dayRecord (p + 1) 0x07 x.id x.step.step
          (leBytes 4 k ++ leBytes 4 j ++ leBytes 4 (rankOfLabel c.2 j x.n) ++
            leBytes 4 (x.lateness (x.closeBeat j)))) s
      let s := defs.foldl (fun s d =>
        let s := (s.bump MUS_DEFER_ADDED_COUNT p).dayRecord (p + 1) 0x09 x.id x.step.step
          (leBytes 4 k ++ leBytes 4 j ++ leBytes 4 (match kids.find? (·.1 == d.pos) with
            | some c => rankOfLabel c.2 j x.n | none => 0) ++ leBytes 4 d.step ++ leBytes 4 0 ++
            leBytes 1 d.hdr.nf.toNat)
        let s := { s with yard := { s.yard with deferrals := tabModify [] s.yard.deferrals p (fun l =>
          l.filter fun e => !(e.plan == d.plan && e.coll == k && e.shard == j && e.pos == d.pos && e.step == d.step)) } }
        if x.coll.grad && d.hdr.nf then s.raiseGnf p 4 else s) s
      let s := s.setFld MUS_STATUS_DEFER_HELD p (!(tabGet [] s.yard.deferrals p).isEmpty).toNat
      let hard := (own.hdr.poison && !r.ownSoft) || (r.sums.any fun u => u.shard == j && (u.hdr.poison || mism u)) ||
        defs.any fun d => d.hdr.poison
      if x.label j = 0 then s.collResult p k j a.hdr a.acc hard
      else s.musSend p x k j 1 [rankOfLabel ((x.label j - 1) / x.coll.fanin) j x.n] a.hdr a.acc
  | _, _ => s

/-- Close every shard whose inputs are complete. -/
def State.closeAll (s : State) (p k : Nat) : State :=
  match s.collCtx p k with
  | some x => if x.coll.reduces then (List.range x.n).foldl (fun s j => s.closeShard p k j) s else s
  | none => s

/-! ## All-to-all rows (R377 to R379) -/

/-- The slot size S of a tensor's bales: a full 128-row bale of its FORMAT and COLS (R377). -/
def slotSize (h : BaleHdr) : Nat := 64 + payloadSize h.format h.shape 128 h.cols

/-- The data bytes and scale bytes of a row of a LAYOUT 0 bale. -/
def rowBytes (b : Bale) (r : Nat) : List Byte :=
  let h := b.hdr
  let (_, n) := storedExtents h.format h.shape h.rows h.cols
  let w := n * bitsOfFormat h.format / 8
  let k := if blockScaled h.format then n / 32 else 0
  sliceBytes b.payload (r * w) w ++
    sliceBytes b.payload (dataSize h.format h.shape h.rows h.cols + r * k) k

/-- A bale made of rows, with the header of a source bale (R377). -/
def baleOfRows (h : BaleHdr) (part tensor rowOrg : Nat) (rows : List (List Byte)) (sticky : Nat)
    (poison : Bool) : Bale :=
  let (_, n) := storedExtents h.format h.shape rows.length h.cols
  let w := n * bitsOfFormat h.format / 8
  let k := if blockScaled h.format then n / 32 else 0
  let dsz := dataSize h.format h.shape rows.length h.cols
  let pad := fun (m : Nat) (l : List Byte) => l.take m ++ List.replicate (m - l.length) 0
  let data := rows.flatMap fun r => pad w (r.take w)
  let scales := rows.flatMap fun r => pad k (r.drop w)
  let ssz := payloadSize h.format h.shape rows.length h.cols - dsz
  { hdr := { h with rows := rows.length, flags := poison.toNat, part := part, tensor := tensor
                    payload := dsz + ssz, rowOrg := rowOrg, nextUse := 0xFFFFFFFF, sticky := sticky }
    payload := data ++ List.replicate (dsz - data.length) 0 ++ scales ++ List.replicate (ssz - scales.length) 0 }

/-- The bale (g, t) of an all-to-all tensor. -/
def State.a2aBale (s : State) (p id colTiles size g t : Nat) : Option BaleRead :=
  (s.tensorPlace p id ((g * colTiles + t) * size) 64).map fun pl => s.stepBale p pl

/-- The rows of an all-to-all source, as the bales of their group and the row in them: of each group until one has
fewer than 128; and how the read ended. -/
def State.a2aRows (s : State) (p id colTiles size : Nat) : Nat → Nat → List (List BaleRead × Nat) × SrcEnd
  | 0, _ => ([], .whole)
  | fuel + 1, g =>
    let bs := (List.range colTiles).map fun t => s.a2aBale p id colTiles size g t
    let bales := bs.filterMap fun b => b
    if decide (bales.length < colTiles) || bales.any (fun b => !b.down && (hdrBadByte b.bale.hdr).isSome) then
      ([], .unread)
    else if bales.any (·.down) then ([], .reset)
    else
      let n := ((bales.head?).map fun b => b.bale.hdr.rows).getD 0
      let here := (List.range n).map fun r => (bales, r)
      if n < 128 then (here, .whole)
      else
        let (rest, e) := s.a2aRows p id colTiles size fuel (g + 1)
        (here ++ rest, e)

/-- A source row as its column pieces. -/
def rowPieces (x : List BaleRead × Nat) : List RowPiece :=
  x.1.map fun b => ⟨rowBytes b.bale x.2, b.bale.hdr.sticky, b.bad || b.bale.poison⟩

/-- An element of a row is not finite (R237). -/
def rowNonFinite (x : List BaleRead × Nat) : Bool :=
  x.1.any fun b => (List.range b.bale.hdr.cols).any fun c => nonFinite (b.bale.value x.2 c)

/-- The collective rank that serves a replica of an expert for source rank `src` (R319, R379): replicas
ordered by module rank within the stable of the primary. -/
def State.expertRank (s : State) (p : Nat) (x : CollCtx) (e src : Nat) : Nat :=
  let prim := (x.coll.experts[e]?).getD 0
  let word := fun r => (x.plan.ranks[(x.coll.members[r]?).getD 0]?).getD 0
  match tabFind s.yard.experts ((p * 16 + x.id) * 2 ^ 32 + e) with
  | none => prim
  | some ex =>
    let at_ := ((List.range 4).filter fun q => ex.mask.testBit q)
    match at_[src % (max at_.length 1)]? with
    | none => prim
    | some q => ((List.range x.n).find? fun r => word r / 4 == word prim / 4 && word r % 4 == q).getD prim

/-- What a member sends: for each destination rank the indices of its source rows, and the counts that
head the message. -/
def State.a2aPlan (s : State) (p : Nat) (x : CollCtx) (cs : List Nat) : List (List Nat × List Nat) :=
  match x.coll.op with
  | 5 => (List.range x.n).map fun j =>
      let n := (cs[j]?).getD 0
      ((List.range n).map (· + x.coll.length * j), [n])
  | 6 => (List.range x.n).map fun j =>
      ((List.range ((cs[j]?).getD 0)).map (· + (cs.take j).foldl (· + ·) 0), [(cs[j]?).getD 0])
  | _ => (List.range x.n).map fun j =>
      let es := List.range cs.length
      let mine := fun e => s.expertRank p x e x.rank == j
      (es.flatMap fun e => if mine e then
          (List.range ((cs[e]?).getD 0)).map (· + (cs.take e).foldl (· + ·) 0) else [],
        es.map fun e => if mine e then (cs[e]?).getD 0 else 0)

/-- The message to one member, from source rows by index; a row that could not be read is poisoned zeros. -/
def a2aMsgOf (rank : Nat) (rows : List (List BaleRead × Nat)) (idx counts : List Nat) (tiles : Nat)
    (nf withdrawn replay : Bool) : RowMsg :=
  { sender := rank, counts := counts
    rows := idx.map fun i => match rows[i]? with
      | some r => rowPieces r
      | none => List.replicate tiles ⟨[], 0, true⟩
    hdrs := ((rows.head?).map fun x => x.1.map fun b => hdrBytes b.bale.hdr).getD []
    nf := nf, withdrawn := withdrawn, replay := replay }

/-- Where each row lands at the receiver: position, message, row; in the order rows are written (R378,
R379). -/
def landings (x : CollCtx) (ms : List RowMsg) (fwd : List (Nat × List Nat)) :
    List (Nat × RowMsg × List RowPiece) :=
  let byRank := (List.range x.n).filterMap fun r => ms.find? (·.sender == r)
  if x.coll.ret then
    byRank.flatMap fun m =>
      let pos := ((fwd.find? (·.1 == m.sender)).map (·.2)).getD []
      (pos.zip m.rows).map fun z => (z.1, m, z.2)
  else match x.coll.op with
    | 5 => byRank.flatMap fun m =>
        ((List.range m.rows.length).zip m.rows).map fun z => (m.sender * x.coll.length + z.1, m, z.2)
    | 6 =>
      let all := byRank.flatMap fun m => m.rows.map fun r => (m, r)
      ((List.range all.length).zip all).map fun z => (z.1, z.2.1, z.2.2)
    | _ =>
      let all := (List.range x.coll.experts.length).flatMap fun e => byRank.flatMap fun m =>
        ((m.rows.drop ((m.counts.take e).foldl (· + ·) 0)).take ((m.counts[e]?).getD 0)).map fun r => (m, r)
      ((List.range all.length).zip all).map fun z => (z.1, z.2.1, z.2.2)

/-- The bales of the rows that landed: of 128-row groups, each column in its slot (R377), with STICKY and POISON of
the source bales whose rows are in them. -/
def CollCtx.a2aBales (x : CollCtx) (p : Nat) (ls : List (Nat × RowMsg × List RowPiece)) (poison : Bool) :
    List (Nat × Bale) :=
  let hdrs := ((ls.find? fun l => !l.2.1.hdrs.isEmpty).map fun l => l.2.1.hdrs).getD
    (List.replicate x.coll.colTiles (hdrBytes (zeroBale 1 0 1 1).hdr))
  let size := slotSize (readHdr ((hdrs.head?).getD []))
  let groups := ls.foldl (fun m l => max m (l.1 / 128 + 1)) 0
  (List.range groups).flatMap fun g =>
    let here := ls.filter fun l => l.1 / 128 == g
    let n := here.foldl (fun m l => max m (l.1 % 128 + 1)) 0
    if n = 0 then []
    else (List.range x.coll.colTiles).map fun t =>
      let h := readHdr ((hdrs[t]?).getD [])
      let pieces := here.filterMap fun l => l.2.2[t]?
      let row := fun i => ((here.find? fun l => l.1 % 128 == i).bind fun l => l.2.2[t]?).elim [] (·.bytes)
      ((g * x.coll.colTiles + t) * size, baleOfRows h p x.coll.dst (128 * g) ((List.range n).map row)
        (pieces.foldl (fun a z => a ||| z.sticky) 0) (poison || pieces.any (·.poison)))

/-- Receive counts (R378, R379): one word per sender, or per expert, and the total. -/
def State.a2aCounts (s : State) (p : Nat) (x : CollCtx) (cs : List Nat) : State :=
  let ws := cs ++ [cs.foldl (· + ·) 0]
  (List.range ws.length).foldl (fun s i => s.setTensorWord p x.coll.recvTensor i ((ws[i]?).getD 0)) s

/-- The receive counts of the first `cap` rows, from the messages here and the rows kept of them. -/
def CollCtx.recvCounts (x : CollCtx) (ms : List RowMsg) (cap : Nat) (fromRank : Nat → List Nat) : List Nat :=
  if x.coll.op = 6 then (List.range x.n).map fun m => (fromRank m).length
  else
    let cum := fun e => (ms.map fun m => (m.counts.take e).foldl (· + ·) 0).foldl (· + ·) 0
    (List.range x.coll.experts.length).map fun e => min (cum (e + 1)) cap - min (cum e) cap

/-- Source bales of two members differ in FORMAT, SHAPE or COLS (R377), or one replays and the other not (R473). -/
def rowsMismatch (ms : List RowMsg) : Bool :=
  ms.any fun a => ms.any fun b => a.replay != b.replay ||
    (!a.hdrs.isEmpty && !b.hdrs.isEmpty && ((a.hdrs.zip b.hdrs).any fun h =>
      fieldAt h.1 0 1 != fieldAt h.2 0 1 || fieldAt h.1 6 1 != fieldAt h.2 6 1 ||
        fieldAt h.1 4 2 != fieldAt h.2 4 2))

/-- Every sender's rows are here: they are written in order, up to the capacity, with their counts
(R378: rows beyond it are fault 0x03), and the member completes. -/
def State.a2aFinish (s : State) (p k : Nat) : State :=
  match s.collRun p k, s.collCtx p k with
  | some r, some x =>
    if r.done || !r.sent || !x.coll.exchanges || !((List.range x.n).all fun m => r.rows.any (·.sender == m)) then s
    else
      let fwd := ((s.collRun p x.coll.argA).map (·.sentRows)).getD []
      let ls := landings x r.rows (if x.coll.ret then fwd else [])
      let cap := if x.coll.op = 5 ∨ x.coll.ret then ls.length else x.coll.length
      let kept := ls.take cap
      let mism := rowsMismatch r.rows
      let bales := x.a2aBales p kept mism
      let inside := bales.filter fun b => (s.tensorPlace p x.coll.dst b.1 b.2.bytes.length).isSome
      let s := s.musFaults p k ((if mism then [0x01] else []) ++ (if inside.length < bales.length then [0x02] else []) ++
        if cap < ls.length then [0x03] else [])
      let hard := mism || r.rows.any fun m => (m.sender != x.rank || !r.ownSoft) && m.rows.any fun z => z.any (·.poison)
      let s := s.writeBales p k x hard inside
      let from_ := fun m => ((List.range kept.length).zip kept).filterMap fun z =>
        if z.2.2.1.sender = m then some z.1 else none
      let s := if x.coll.op = 5 ∨ x.coll.ret then s else s.a2aCounts p x (x.recvCounts r.rows cap from_)
      let gone := r.rows.countP (·.withdrawn)
      let s := s.updColl p k fun q => { q with
        recvRows := (List.range x.n).map fun m => (m, from_ m)
        got := { q.got with nf := q.got.nf || r.rows.any (·.nf), part := q.got.part || decide (0 < gone)
                            left := q.got.left + gone
                            poison := q.got.poison || r.rows.any fun m => m.rows.any fun z => z.any (·.poison) } }
      match s.collRun p k with
      | some r => s.collEnd p k x r
      | none => s
  | _, _ => s

/-- The send counts of an exchange (R378, R379): N words, or E; unreadable ones read as 0, and say so. Those of an
equal exchange are LENGTH for each member. -/
def State.a2aCountWords (s : State) (p : Nat) (x : CollCtx) : List Nat × Bool :=
  if x.coll.op = 5 then (List.replicate x.n x.coll.length, false)
  else
    let n := if x.coll.op = 6 then x.n else x.coll.experts.length
    let ws := (List.range n).map fun i => s.tensorWord p x.coll.countTensor i
    if ws.any (·.isNone) then (List.replicate n 0, true) else (ws.map (·.getD 0), false)

/-- The member may go on: its count words are read, once (R378, R384). -/
def State.collReady (s : State) (p k : Nat) : State :=
  match s.collRun p k, s.collCtx p k with
  | some r, some x =>
    let s := s.updColl p k fun q => { q with semOk := true }
    if !x.coll.exchanges || x.coll.ret || r.counts.isSome then s
    else
      let cs := s.a2aCountWords p x
      let s := if x.coll.op = 5 then s
        else (List.range cs.1.length).foldl (fun (s : State) i => s.tookWord p x.coll.countTensor i) s
      s.updColl p k fun q => { q with counts := some cs }
  | _, _ => s

/-- A member sends its rows: a header with its count to every peer, a count of 0 included; its own go to
itself (R378, R379). A withdrawn member sends no row (R391). -/
def State.a2aSend (s : State) (p k : Nat) (x : CollCtx) (r : CollRun) : State :=
  let hdr0 := match s.tensorPlace p x.coll.src 0 64 with
    | some pl => (s.stepBale p pl).bale.hdr
    | none => (zeroBale 1 0 1 1).hdr
  let bytes := ((x.plan.tensor x.coll.src).map (·.bytes)).getD 0
  let group := max 1 (x.coll.colTiles * slotSize hdr0)
  let (rows, srcEnd) := if r.withdrawn then ([], SrcEnd.whole)
    else s.a2aRows p x.coll.src x.coll.colTiles (slotSize hdr0) ((bytes + group - 1) / group) 0
  let (cs, unread) := r.counts.getD (s.a2aCountWords p x)
  let fwdRun := s.collRun p x.coll.argA
  let noFwd := x.coll.ret && !(fwdRun.any fun f => f.done)
  let back := (List.range x.n).map fun m =>
    (((fwdRun.bind fun f => f.recvRows.find? (·.1 == m)).map (·.2)).getD [])
  let total := if x.coll.ret then (back.map List.length).foldl (· + ·) 0 else cs.foldl (· + ·) 0
  let excess := !r.withdrawn && srcEnd == .whole && decide (rows.length < total)
  let none_ := r.withdrawn || excess || noFwd
  let plan := if x.coll.ret then back.map fun ids => if none_ then ([], [0]) else (ids, [ids.length])
    else s.a2aPlan p x (if none_ then cs.map fun _ => 0 else cs)
  let s := s.musFaults p k ((if unread || srcEnd == .unread then [0x02] else []) ++ (if excess then [0x04] else []) ++
    if noFwd then [0x05] else [])
  let s := if srcEnd == .reset then s.stepReset p else s
  let sent := plan.flatMap fun z => z.1.filterMap fun i => rows[i]?
  let s := ((sent.flatMap (·.1)).eraseDups).foldl (fun (s : State) b => s.took p b) s
  let soft := sent.all fun z => z.1.all fun b => !b.bad && (!b.bale.poison || s.isSoft p b.key)
  let nf := !r.withdrawn && (s.localNf p || sent.any rowNonFinite)
  let msg := fun j => let z := (plan[j]?).getD ([], [])
    a2aMsgOf x.rank rows z.1 z.2 x.coll.colTiles nf r.withdrawn x.replay
  let s := (List.range x.n).foldl (fun s j =>
    if j = x.rank then s.updColl p k fun q => { q with rows := msg j :: q.rows }
    else s.musSend p x k 0 3 [j] { noHdr with nf := nf, withdrawn := r.withdrawn, replay := x.replay } []
      (some (msg j))) s
  s.updColl p k fun q => { q with
    ownSoft := soft && srcEnd != .unread
    sentRows := (List.range x.n).map fun j => (j, ((plan[j]?).map (·.1)).getD []) }

/-! ## The whistle channel (R381 to R383) -/

/-- The module rank of a collective rank. -/
def CollCtx.word (x : CollCtx) (r : Nat) : Nat := (x.plan.ranks[(x.coll.members[r]?).getD 0]?).getD 0

/-- The coordinate of a phase: position, X, Y, Z. -/
def phaseCoord (ph w : Nat) : Nat :=
  match ph with
  | 0 => rankP w | 1 => rankX w | 2 => rankY w | _ => rankZ w

/-- The members of this member's line in a phase, in increasing collective rank. -/
def CollCtx.line (x : CollCtx) (ph : Nat) : List Nat :=
  (List.range x.n).filter fun r => (List.range 4).all fun d =>
    d == ph || phaseCoord d (x.word r) == phaseCoord d (x.word x.rank)

/-- Combine two words of a whistle vector (R381, R382). -/
def whistleOp (c : Coll) (a b : Word) : Word :=
  if c.carry = 1 then match c.redop with
    | 1 => max32 a b
    | 2 => min32 a b
    | _ => ((add32 a b).run noFlags).1
  else match c.redop with
    | 0 => a + b
    | 1 => if a.toNat < b.toNat then b else a
    | 2 => if a.toNat < b.toNat then a else b
    | 3 => a ||| b
    | _ => a &&& b

/-- The vectors of a line, in increasing rank, become one (R382): the headers are joined, a withdrawn vector is
absent; a line without a vector stays withdrawn. -/
def whistleLine (c : Coll) (own : SumHdr) (vs : List (SumHdr × List Word)) : SumHdr × List Word :=
  let hdr := (vs.map (·.1)).foldl joinHdr { noHdr with replay := own.replay }
  let here := (vs.filter fun v => !v.1.withdrawn).map (·.2)
  match here with
  | [] => ({ hdr with withdrawn := true }, [])
  | v :: rest => (hdr, rest.foldl (fun a b => (a.zip b).map fun z => whistleOp c z.1 z.2) v)

/-- Run the whistle phases that are complete, at most `fuel`: each member's vector of the line is here;
they are combined in increasing rank, a withdrawn member being absent. -/
def State.whistleRun (s : State) (p k : Nat) : Nat → State
  | 0 => s
  | fuel + 1 =>
    match s.collRun p k, s.collCtx p k with
    | some r, some x =>
      if r.done || !r.sent then s
      else if 4 ≤ r.phase then
        let vec := if r.got.withdrawn then List.replicate (x.coll.length / 4) 0 else r.vec
        (s.writeRaw p k x 0 vec r.got.poison).collEnd p k x r
      else
        let line := x.line r.phase
        if line.length ≤ 1 then
          (s.updColl p k fun q => { q with phase := q.phase + 1 }).whistleRun p k fuel
        else
          let mine := (r.phase, x.rank, r.got, r.vec)
          let sent := r.vecs.any fun v => v.1 == r.phase && v.2.1 == x.rank
          let s := if sent then s else
            (s.musSend p x k r.phase 1 (line.filter (· != x.rank)) r.got r.vec).updColl
              p k fun q => { q with vecs := mine :: q.vecs }
          let vecs := mine :: r.vecs
          let here := line.filterMap fun m => vecs.find? fun v => v.1 == r.phase && v.2.1 == m
          if here.length < line.length then s
          else
            let (hdr, acc) := whistleLine x.coll r.own (here.map (·.2.2))
            let s := if here.any fun v => v.2.2.1.replay != r.own.replay then s.musFault p 0x01 k else s
            (s.updColl p k fun q => { q with vec := acc, phase := q.phase + 1, got := hdr }).whistleRun p k fuel
    | _, _ => s

/-! ## Opening and sending (R384, R391) -/

/-- The collectives of a plan that this module takes part in, as they stand when a step starts. -/
def State.startColls (s : State) (p id : Nat) (pl : Plan) (replay : Bool) : List CollRun :=
  (List.range pl.colls.length).filterMap fun k => match pl.colls[k]?, pl.ownRank with
    | some c, some own =>
      if c.op = 9 ∨ !c.members.contains own then none
      else some
        { coll := k, opened := false, semOk := false, sent := false
          withdrawn := s.mus.withdraw.contains (p, id, k), granted := false, stamp := 0
          own := { noHdr with replay := replay }, ownSoft := false, vec := [], geom := [], sums := [], shut := []
          closed := [], results := [], early := [], counts := none, got := noHdr, phase := 0, vecs := [], rows := []
          sentRows := [], recvRows := [], done := false }
    | _, _ => none

/-- The bytes of a gathered, broadcast or whistle source, and how the read ended (R397, R283): poisoned sectors of a
bale poison it; those of WORDS cannot be read. With the bales among them, as read. -/
def State.rawSource (s : State) (p : Nat) (x : CollCtx) : List Byte × SrcEnd × List (Nat × Bale × Bool) :=
  let n := x.coll.length
  let zero := List.replicate n (0 : Byte)
  if n = 0 then ([], .whole, [])
  else match s.tensorPlace p x.coll.src 0 n with
    | none => (zero, .unread, [])
    | some pl =>
      let dark := match pl with
        | .host a => s.hostDark a n
        | _ => false
      let bs := s.readAt (p + 1) pl n
      let bales := (x.gathered x.coll.src bs).map fun b =>
        (b.1, b.2, s.badAt (p + 1) (placeAdd pl b.1) b.2.hdr.size)
      let loose := (List.range (n / 64)).any fun u => s.badAt (p + 1) (placeAdd pl (64 * u)) 64 &&
        !bales.any fun b => overlaps b.1 b.2.1.hdr.size (64 * u) 64
      if s.stepDown p pl n then (zero, .reset, [])
      else if dark || loose then (zero, .unread, [])
      else (bales.foldl (fun l b => if b.2.2 then l.take (b.1 + 1) ++ [(1 : Byte)] ++ l.drop (b.1 + 2) else l) bs,
        .whole, bales)

/-- The contribution of a reduction (R371, R376): the elements and headers of the source bales; of a withdrawn member
only their shape. -/
def State.contributeSums (s : State) (p k : Nat) (x : CollCtx) (r : CollRun) : State :=
  let (bs, e) := s.packedBales p x.coll.src 65536 0 x.coll.length
  let plain := bs.map fun b => hdrBytes { b.bale.hdr with flags := 0, sticky := 0 }
  if r.withdrawn then s.updColl p k fun q => { q with
    geom := plain, ownSoft := true, own := { q.own with layout := layoutWord bs } }
  else
    let s := s.musFaults p k (if e = .unread then [0x02] else [])
    let s := if e = .reset ∨ bs.any (·.down) then s.stepReset p else s
    let s := bs.foldl (fun (s : State) b => if b.down then s else s.took p b) s
    let els := x.sourceElems 0 bs
    let ws := els.flatMap (·.1)
    let soft := e != .unread && bs.all fun b => b.down || (!b.bad && (!b.bale.poison || s.isSoft p b.key))
    s.updColl p k fun q => { q with
      ownSoft := soft, vec := ws
      geom := (bs.zip els).map fun z => hdrBytes { z.1.bale.hdr with
        flags := (z.1.bad || z.1.bale.poison).toNat, sticky := z.1.bale.hdr.sticky ||| stickyOf z.2.2 }
      own := { q.own with
        nf := s.localNf p || anyNonFinite ws, poison := e != .whole, layout := layoutWord bs } }

/-- The contribution of a gather, broadcast or whistle: its bytes as words, and its header. -/
def State.rawContribution (s : State) (p k : Nat) (x : CollCtx) (r : CollRun) : SumHdr × List Word × State :=
  let hdr := { noHdr with replay := r.own.replay }
  if r.withdrawn then ({ hdr with withdrawn := true, part := true, left := 1 }, [], s)
  else
    let src := s.rawSource p x
    let (bs, e) := (src.1, src.2.1)
    let bales := src.2.2
    let s := s.musFaults p k (if e = SrcEnd.unread then [0x02] else [])
    let s := if e = SrcEnd.reset then s.stepReset p else s
    let s := match s.tensorPlace p x.coll.src 0 x.coll.length with
      | some pl => if e = SrcEnd.whole then s.touch (p + 1) pl x.coll.length else s
      | none => s
    let s := match s.tensorPlace p x.coll.src 0 64 with
      | some pl => bales.foldl (fun (s : State) b =>
          let at_ := placeAdd pl b.1
          if b.2.2 then s.stepFault p (s.badCode (p + 1) at_ b.2.1.hdr.size)
          else if b.2.1.poison && !s.isSoft p (softKey at_) then s.stepFault p 0x0B else s) s
      | none => s
    let ws := wordsOf bs
    let odd := if x.coll.op = 8 then x.coll.carry == 1 && anyNonFinite ws
      else bales.any fun b => (positions b.2.1.hdr.rows b.2.1.hdr.cols).any fun q => nonFinite (b.2.1.value q.1 q.2)
    ({ hdr with nf := s.localNf p || odd, poison := e != .whole }, ws, s)

/-- A member sends its contribution (R384): stamped at its first byte, NF sampled (R237); withdrawn ones
are a header alone (R391). Its source is waited for while a fetch of it is under way (R279). -/
def State.contribute (s : State) (p k : Nat) : State :=
  match s.collRun p k, s.collCtx p k with
  | some r, some x =>
    if !r.opened || !r.semOk || r.sent || s.flag CLK_STATUS_VIN_WARN || (!r.withdrawn && s.fetching p x.coll.src) then s
    else
      let mark := fun s : State => s.updColl p k fun q => { q with sent := true, granted := true, stamp := s.beat }
      if x.coll.reduces then (((mark s).contributeSums p k x r).closeAll p k).writeEarly p k
      else if x.coll.op = 3 ∨ x.coll.op = 4 then
        if x.coll.op = 4 ∧ x.coll.argA ≠ x.rank then (mark s).collDone p k
        else
          let (h, ws, s) := (mark s).rawContribution p k x r
          s.collResult p k x.rank h ws true
      else if x.coll.op = 8 then
        let (h, ws, s) := (mark s).rawContribution p k x r
        (s.updColl p k fun q => { q with vec := ws, got := h }).whistleRun p k 8
      else ((mark s).a2aSend p k x r).a2aFinish p k
  | _, _ => s

def execContributionSend (p : Part) (coll : Nat) (errs : List MemEvent) (s : State) : Out :=
  .next (s.meeting (p + 1) errs fun s => s.contribute p coll)

/-- A COLLECTIVE slot fires (R359, R384): the member waits for SRC_SEM if SRC_WAIT is set; a withdrawn one sends its
header at once (R391). -/
def State.collOpen (s : State) (p k : Nat) : State :=
  match s.collRun p k, s.collCtx p k with
  | some r, some x =>
    if r.opened then s
    else
      let s := s.updColl p k fun q => { q with opened := true }
      if r.withdrawn then (s.collReady p k).contribute p k
      else if x.coll.srcWait then s.semWait p x.coll.srcSem (.coll k)
      else s.collReady p k
  | _, _ => s

/-! ## Sums from children (R385 to R388) -/

/-- A beat has passed: reached, and not merely in the cc in which it is reached (R385). -/
def State.beatPast (s : State) (b : Nat) (past : Bool) : Bool := decide (b < s.beat) || (s.beat == b && past)

/-- A late sum (R388): dropped, or held for the next step; each with its record (R389). -/
def State.lateSum (s : State) (p id : Nat) (hold : Bool) (d : Deferral) (rank : Nat) : State :=
  let rec0 := fun (s : State) (fate chunk : Nat) (ext : List Byte) => s.dayRecord (p + 1) 0x08 id d.step
    (leBytes 4 d.coll ++ leBytes 4 d.shard ++ leBytes 4 rank ++ leBytes 1 fate ++
      leBytes 1 d.hdr.nf.toNat ++ leBytes 2 0 ++ leBytes 4 chunk) ext
  let held := tabGet [] s.yard.deferrals p
  if hold && !(held.any fun e => e.plan == id && e.coll == d.coll && e.shard == d.shard && e.pos == d.pos) then
    let bytes := bytesOf d.data
    let chunks := max 1 ((bytes.length + 4194303) / 4194304)
    let s := (List.range chunks).foldl (fun s c => rec0 s 1 c ((bytes.drop (c * 4194304)).take 4194304)) s
    let s := { s with yard := { s.yard with deferrals := tabPut s.yard.deferrals p (d :: held) } }
    s.setFld MUS_STATUS_DEFER_HELD p 1
  else rec0 (s.bump MUS_DROPPED_COUNT p) 2 0 []

/-- A parent reaches its close beat (R386, R387): an elastic one goes on without the missing children; a
strict one, and a replay, waits. -/
def State.parentClose (s : State) (p k j : Nat) : State :=
  match s.collRun p k, s.collCtx p k with
  | some r, some x =>
    if !x.coll.reduces || !r.opened || !x.plan.elastic || x.replay || s.beat < x.closeBeat j ||
        r.closed.contains j then s
    else (s.updColl p k fun q => { q with shut := if q.shut.contains j then q.shut else j :: q.shut }).closeShard p k j
  | _, _ => s

def execParentClose (p : Part) (coll : Nat) (shard : Nat) (s : State) : Out := .next (s.parentClose p coll shard)

/-- A child sum lands (R386, R388): added with the others of its shard, counted where a strict parent had
waited for it, held or dropped where the shard is closed or the sum is of an earlier step. -/
def State.childLands (s : State) (p id step k j pos : Nat) (h : SumHdr) (data : List Word) (past : Bool) :
    State :=
  match s.collRun p k, s.collCtx p k with
  | some r, some x =>
    let late := (x.slot.map (·.drop)).getD false
    let rank := match (x.kids j).find? (·.1 == pos) with
      | some c => rankOfLabel c.2 j x.n
      | none => 0
    let d : Deferral := ⟨id, k, j, pos, step, h, data⟩
    if x.id ≠ id ∨ !x.coll.reduces ∨ !((x.kids j).any (·.1 == pos)) then s
    else if step ≠ x.step.step then s.lateSum p id (!late && !r.closed.contains j) d rank
    else if x.replay && (s.replayLeft p k j x).contains pos then s
    else if r.closed.contains j || r.shut.contains j then s.lateSum p id (!late) d rank
    else if r.sums.any fun u => u.shard == j && u.pos == pos then s
    else
      let s := s.musWait p (x.closeBeat j) past
      (s.updColl p k fun q => { q with sums := ⟨j, pos, h, data⟩ :: q.sums }).closeShard p k j
  | _, _ =>
    match s.planOf p id with
    | none => s
    | some pl => match pl.colls[k]?, pl.ownRank with
      | some c, some own =>
        let drop := ((pl.slots.find? fun x => x.kind == 4 && x.subject == k).map (·.drop)).getD false
        if !c.reduces || !c.members.contains own || !pl.elastic then s
        else
          let r := (c.members.findIdx? (· == own)).getD 0
          let rank := match (treeKids (labelOf r j c.members.length) c.fanin c.members.length).find? (·.1 == pos) with
            | some z => rankOfLabel z.2 j c.members.length
            | none => 0
          s.lateSum p id (!drop) ⟨id, k, j, pos, step, h, data⟩ rank
      | _, _ => s

/-- A child sum lands; where an elastic parent's close beat has passed, it closed then, before the sum (R387). -/
def State.childSum (s : State) (p id step k j pos : Nat) (h : SumHdr) (data : List Word) (past : Bool) : State :=
  let due := match s.collCtx p k with
    | some x => x.plan.elastic && s.beatPast (x.closeBeat j) past
    | none => false
  (if due then s.parentClose p k j else s).childLands p id step k j pos h data past

def execChildSumReceive (p : Part) (plan : Nat) (step : Nat) (coll : Nat) (shard : Nat) (pos : Nat)
    (hdr : SumHdr) (data : List Word) (past : Bool) (s : State) : Out :=
  .next (s.childSum p plan step coll shard pos hdr data past)

/-- A result arrives from the parent in a tree; a late gather or broadcast has been waited for (R380). -/
def State.resultArrives (s : State) (p k j : Nat) (h : SumHdr) (data : List Word) : State :=
  match s.collRun p k, s.collCtx p k with
  | some r, some x =>
    let s := if x.coll.reduces || r.results.contains j || !x.due.contains j then s else s.musWait p x.deadBeat false
    let soft := r.ownSoft && (x.ownShard r j).hdr.poison
    s.collResult p k j h data (!soft)
  | _, _ => s

def execCollectiveResultReceive (p : Part) (coll : Nat) (shard : Nat) (hdr : SumHdr) (data : List Word)
    (s : State) : Out :=
  .next (s.resultArrives p coll shard hdr data)

/-- Rows from a sender (R377 to R379); waits after the deadline are counted in both modes (R380). -/
def State.a2aReceive (s : State) (p k : Nat) (m : RowMsg) (past : Bool) : State :=
  match s.collRun p k, s.collCtx p k with
  | some r, some x =>
    if r.done || x.n ≤ m.sender || r.rows.any (·.sender == m.sender) || !x.coll.exchanges then s
    else ((s.musWait p x.deadBeat past).updColl p k fun q => { q with rows := m :: q.rows }).a2aFinish p k
  | _, _ => s

def execA2aRowsReceive (p : Part) (coll : Nat) (msg : RowMsg) (past : Bool) (s : State) : Out :=
  .next (s.a2aReceive p coll msg past)

/-- A whistle vector from a member of this member's line (R382). -/
def State.whistleReceive (s : State) (p k sender phase : Nat) (hdr : SumHdr) (data : List Word) : State :=
  match s.collRun p k, s.collCtx p k with
  | some r, some x =>
    if r.done || x.coll.op != 8 || sender == x.rank || !(x.line phase).contains sender ||
        r.vecs.any fun v => v.1 == phase && v.2.1 == sender then s
    else (s.updColl p k fun q => { q with vecs := (phase, sender, hdr, data) :: q.vecs }).whistleRun p k 8
  | _, _ => s

def execWhistleMessageReceive (p : Part) (coll : Nat) (sender : Nat) (phase : Fin 4) (hdr : SumHdr)
    (data : List Word) (s : State) : Out :=
  .next (s.whistleReceive p coll sender phase hdr data)

/-! ## Cancellation (R391) -/

/-- A write to MUS_CANCEL: this module's own contribution to the current or next opening is withdrawn
unless its first flit has been granted, in the same cc (`sameCc`) or earlier; of an opening under way, at once. -/
def musCancel (s : State) (p id k : Nat) (sameCc : Bool) : State :=
  if s.flag MUS_CANCEL_STATUS_BUSY p then s
  else
    let answer := fun (s : State) code => s.setFld MUS_CANCEL_STATUS_CODE p code
    let tooLate := fun s : State => answer (s.bump MUS_TOO_LATE_COUNT p) stTooLate
    match s.planOf p id with
    | none => answer s stRefused
    | some pl => match pl.colls[k]?, pl.ownRank with
      | some c, some own =>
        if !c.members.contains own || c.op == 9 then answer s stRefused
        else match (s.stepOf p).bind fun st => if st.plan = id then st.colls.find? (·.coll == k) else none with
          | some r =>
            if r.granted || sameCc then tooLate s
            else
              let s := s.updColl p k fun q => { q with withdrawn := true }
              answer (if r.opened then (s.collReady p k).contribute p k else s) stCancelled
          | none =>
            let w := if s.mus.withdraw.contains (p, id, k) then s.mus.withdraw else (p, id, k) :: s.mus.withdraw
            answer { s with mus := { s.mus with withdraw := w } } stCancelled
      | _, _ => answer s stRefused

def execMusCancel (fn : Fn) (val : Word) (sameCc : Bool) (s : State) : Out :=
  .next (if (fn : Nat) = 0 ∨ !s.fnLive fn then s
    else musCancel s (fn - 1) (getBits val 12 4) (getBits val 0 12) sameCc)

/-! ## RESET marks (R392) -/

/-- Zeros with POISON = 1 in place of the gathered or broadcast bytes that a member has not received: bales of the
shape of this member's own source, zero bytes where it has none (log entry 84). -/
def State.resetRaw (s : State) (p k : Nat) (x : CollCtx) (off : Nat) : State :=
  let n := x.coll.length
  match s.tensorPlace p x.coll.src 0 n with
  | none => s.writeRaw p k x off (List.replicate (n / 4) 0) true
  | some pl =>
    let bales := x.gathered x.coll.dst (s.readAt (p + 1) pl n)
    if bales.isEmpty then s.writeRaw p k x off (List.replicate (n / 4) 0) true
    else s.writeBales p k x false (bales.map fun b =>
      (off + b.1, ⟨{ b.2.hdr with flags := 1 }, List.replicate b.2.hdr.payload 0⟩))

/-- Zeros with POISON = 1 in every destination bale of an exchange, of the shape of this member's own source, and
receive counts of 0 for the senders whose rows did not arrive. -/
def State.resetRows (s : State) (p k : Nat) (x : CollCtx) (r : CollRun) : State :=
  let hdrs := (List.range x.coll.colTiles).map fun t =>
    match (s.a2aBale p x.coll.src x.coll.colTiles (slotSize ((s.a2aBale p x.coll.src 1 0 0 0).elim
      (zeroBale 1 0 1 1).hdr (·.bale.hdr))) 0 t) with
    | some b => if (hdrBadByte b.bale.hdr).isSome then hdrBytes (zeroBale 1 0 1 1).hdr else hdrBytes b.bale.hdr
    | none => hdrBytes (zeroBale 1 0 1 1).hdr
  let rows := if x.coll.ret then (((s.collRun p x.coll.argA).map (·.sentRows)).getD []).foldl
      (fun m q => q.2.foldl (fun m i => max m (i + 1)) m) 0
    else if x.coll.op = 5 then x.coll.length * x.n else x.coll.length
  let lost : RowMsg := ⟨x.rank, [], [], hdrs, false, false, false⟩
  let s := s.writeBales p k x false (x.a2aBales p ((List.range rows).map fun i =>
    (i, lost, List.replicate x.coll.colTiles ⟨[], 0, true⟩)) true)
  if x.coll.op = 5 ∨ x.coll.ret then s
  else
    let ls := (landings x r.rows []).take x.coll.length
    let from_ := fun m => ((List.range ls.length).zip ls).filterMap fun z =>
      if z.2.2.1.sender = m then some z.1 else none
    s.a2aCounts p x (x.recvCounts r.rows x.coll.length from_)

/-- The collective cannot complete: unwritten destination bales are poisoned zeros, counts that did not
arrive 0, the mark goes on to the other members, DONE_SEM is signalled and the step is TARGET_RESET. -/
def State.collReset (s : State) (p k : Nat) : State :=
  match s.collRun p k, s.collCtx p k with
  | some r, some x =>
    if r.done then s
    else
      let geom := if r.geom.isEmpty then
          ((s.packedBales p x.coll.src 65536 0 x.coll.length).1).map fun b => hdrBytes b.bale.hdr
        else r.geom
      let h := { noHdr with poison := true }
      let unwritten := x.due.filter fun j => !r.results.contains j || r.early.any (·.1 == j)
      let s := if x.coll.reduces then
          (unwritten.filter fun j => x.coll.op == 1 || j == x.rank).foldl
            (fun s j => s.writeShard p k x geom j h [] false) s
        else if x.coll.op = 3 ∨ x.coll.op = 4 then
          unwritten.foldl (fun s j => s.resetRaw p k x (if x.coll.op = 3 then j * x.coll.length else 0)) s
        else if x.coll.op = 8 then s.writeRaw p k x 0 (List.replicate (x.coll.length / 4) 0) true
        else s.resetRows p k x r
      let others := (List.range x.n).filter (· != x.rank)
      let s := s.musSend p x k 0 4 others { noHdr with poison := true } []
      let s := s.updColl p k fun q => { q with done := true, sent := true, granted := true, early := [] }
      (s.signal p x.coll.doneSem).stepReset p
  | _, _ => s

def execResetMarkReceive (p : Part) (coll : Nat) (s : State) : Out := .next (s.collReset p coll)

/-! ## GNF (R238, R239) -/

/-- The LOCAL flag of an OPT_STEP node (R242). -/
def NodeEnt.optLocal (n : NodeEnt) : Bool := (fieldAt n.record 2 1).testBit 0

/-- The OPT_STEP nodes of a plan. -/
def Plan.optNodes (pl : Plan) : List (Nat × NodeEnt) :=
  ((List.range pl.nodes.length).zip pl.nodes).filter fun x => x.2.kind == 8

/-- GNF is final once every GRAD collective of the step has completed here: it shows in TEN_OPT_STATUS of
the partition's cores, and the OPT_STEP nodes that it skips are settled (R247): each counts on its core. -/
def gnfFinal (s : State) (p : Nat) : State :=
  match s.stepOf p, s.stepPlan p with
  | some st, some pl =>
    let open_ := st.colls.any fun r => !r.done && ((pl.colls[r.coll]?).map (·.grad)).getD false
    if st.gnfFinal || !st.running || open_ then s
    else
      let nf := s.localNf p
      let skip := pl.optNodes.filter fun x => st.gnf || (x.2.optLocal && nf)
      let s := s.updStep p fun st => { st with
        gnfFinal := true, optSkip := skip.map (·.1), skipped := st.skipped || !skip.isEmpty }
      let s := skip.foldl (fun (s : State) x => match pl.coreOf x.1 with
        | some c => s.bump TEN_OPT_SKIPPED_COUNT c
        | none => s) s
      let byLocal := nf && skip.any fun x => x.2.optLocal
      (s.coresOf p).foldl (fun (s : State) c =>
        let s := (s.setFld TEN_OPT_STATUS_GNF c st.gnf.toNat).setFld TEN_OPT_STATUS_GNF_FINAL c 1
        if byLocal then s.setFld TEN_OPT_STATUS_GUARD_SRC c (s.fld TEN_OPT_STATUS_GUARD_SRC c ||| 2) else s) s
  | _, _ => s

def execGnfFinal (p : Part) (s : State) : Out := .next (gnfFinal s p)

end Sys2Proof.Machine
end

