-- ==== Sys2Proof/Machine/Links.lean ====
section
/-! DEFINITION. Holgor links (spec/13 R330 to R341, R362, R363): routes, training, lanes, epochs,
packets, credits and replay, and the transfers and collectives that a link takes down with it. -/

namespace Sys2Proof.Machine

/-! ## Addresses and routes (R330, R340, R341) -/

/-- This module's address: RANK and DOMAIN as one number, the form of the rank table (R366). -/
def State.ownAddr (s : State) : Nat := (s.reg HLK_ADDR).toNat % 2 ^ 17

/-- The rank of a position, x, y and z in a domain. -/
def rankWord (p x y z : Nat) : Nat := p + 4 * (x + 8 * (y + 16 * z))

/-- The torus sizes. -/
def State.dims (s : State) : Nat × Nat × Nat :=
  (s.fld HLK_DIMS_DX, s.fld HLK_DIMS_DY, s.fld HLK_DIMS_DZ)

/-- The rank at the far end of a link of a module (R330). -/
def neighbourOf (dims : Nat × Nat × Nat) (r l : Nat) : Nat :=
  let (dx, dy, dz) := dims
  let p := rankP r
  let x := rankX r
  let y := rankY r
  let z := rankZ r
  match l with
  | 0 | 1 => rankWord (p ^^^ 1) x y z
  | 2 | 3 => rankWord (p ^^^ 2) x y z
  | 4 | 5 => rankWord (p ^^^ 3) x y z
  | 6 => rankWord p ((x + 1) % dx) y z
  | 7 => rankWord p ((x + dx - 1) % dx) y z
  | 8 => rankWord p x ((y + 1) % dy) z
  | 9 => rankWord p x ((y + dy - 1) % dy) z
  | 10 => rankWord p x y ((z + 1) % dz)
  | _ => rankWord p x y ((z + dz - 1) % dz)

/-- The far link of a link (R330). -/
def farLink (l : Nat) : Nat := if l < 6 then l else if l % 2 = 0 then l + 1 else l - 1

/-- The torus dimension of a link has size 1, so that the link stays down without fault (R340). -/
def State.noDimension (s : State) (l : Nat) : Bool :=
  let (dx, dy, dz) := s.dims
  (decide (l = 6 ∨ l = 7) && dx == 1) || (decide (l = 8 ∨ l = 9) && dy == 1) ||
    (decide (10 ≤ l) && dz == 1)

/-- The way round a torus of size `d` from `a` to `b`: + unless − is shorter (R341). -/
def goesPlus (d a b : Nat) : Bool := decide (2 * ((b + d - a) % d) ≤ d)

/-- The link by which a packet leaves a module on its way to another; none where it is there. `odd` is
the higher of two stable links, which a striped transfer's odd packets use (R341). -/
def nextLink (dims : Nat × Nat × Nat) (r dest : Nat) (odd : Bool) : Option Nat :=
  let (dx, dy, dz) := dims
  if rankP r ≠ rankP dest then
    some (2 * ((rankP r ^^^ rankP dest) - 1) + odd.toNat)
  else if rankX r ≠ rankX dest then some (if goesPlus dx (rankX r) (rankX dest) then 6 else 7)
  else if rankY r ≠ rankY dest then some (if goesPlus dy (rankY r) (rankY dest) then 8 else 9)
  else if rankZ r ≠ rankZ dest then some (if goesPlus dz (rankZ r) (rankZ dest) then 10 else 11)
  else none

/-- The hop over a link crosses the dateline of its dimension (R341). -/
def crossesDateline (dims : Nat × Nat × Nat) (r l : Nat) : Bool :=
  let (dx, dy, dz) := dims
  match l with
  | 6 => rankX r == dx - 1 | 7 => rankX r == 0
  | 8 => rankY r == dy - 1 | 9 => rankY r == 0
  | 10 => rankZ r == dz - 1 | 11 => rankZ r == 0
  | _ => false

/-- The hops of a route, each the module it leaves and the link it takes; the longest has 21 (R336). -/
def routeHops (dims : Nat × Nat × Nat) (dest : Nat) (odd : Bool) : Nat → Nat → List (Nat × Nat)
  | 0, _ => []
  | n + 1, r => match nextLink dims r dest odd with
    | none => []
    | some l => (r, l) :: routeHops dims dest odd n (neighbourOf dims r l)

/-- Some route from one module to another arrives at this one over a link (R341). -/
def State.arrivesBy (s : State) (origin dest l : Nat) : Bool :=
  let own := s.fld HLK_ADDR_RANK
  [false, true].any fun odd => (routeHops s.dims (dest % 8192) odd 32 (origin % 8192)).any fun h =>
    neighbourOf s.dims h.1 h.2 == own && farLink h.2 == l

/-- A route from this module to another leaves by a link. -/
def State.leavesBy (s : State) (dest l : Nat) : Bool :=
  [false, true].any fun odd => nextLink s.dims (s.fld HLK_ADDR_RANK) (dest % 8192) odd == some l

/-! ## Violations (R362) -/

/-- A partner's violation on a link: counted, the first kept, VIOL and the link's Bell source. -/
def State.linkViol (s : State) (l code value : Nat) : State :=
  let s := s.bump HLK_VIOL_COUNT_COUNT l
  let s := if s.flag HLK_STATUS_VIOL l then s
    else (s.setFld HLK_VIOL_CODE_CODE l code).setFld HLK_VIOL_VALUE_VALUE l value
  (s.setFld HLK_STATUS_VIOL l 1).raise 0 (80 + l)

/-! ## Transfers and collectives over a link (R339, R359, R392) -/

/-- The partition that holds a domain partition ID (R400). -/
def State.hostPart (s : State) (id : Nat) : Option Nat :=
  (List.range 32).find? fun p => s.prtState p == 1 && s.fld (PRT_DOMAIN_PART_ID p) == id

/-- A transfer slot of the executing step, as a slot of its plan. -/
def State.slotOf (s : State) (p k : Nat) : Option Slot := (s.stepPlan p).bind fun pl => pl.slots[k]?

/-- The module that a slot's PEER names. -/
def State.peerOf (s : State) (p k : Nat) : Option Nat :=
  (s.stepPlan p).bind fun pl => (pl.slots[k]?).bind fun sl => pl.ranks[sl.peer]?

/-- A transfer of the executing step ends without landing: TARGET_RESET after a reset, else LINK_ERROR. -/
def State.loseTransfer (s : State) (p k : Nat) (reset : Bool) : State :=
  match s.stepOf p with
  | none => s
  | some st =>
    if st.transfers.any (·.slot == k) then
      let s := s.updStep p fun st => { st with transfers := st.transfers.filter (·.slot != k) }
      if reset then s.stepReset p else s.stepLink p 0
    else s

/-- The members that a collective exchanges messages with, by collective rank (R370, R378, R382). -/
def CollCtx.peers (x : CollCtx) : List Nat :=
  if x.coll.op ≤ 4 then
    (List.range x.n).flatMap fun j =>
      let up := if x.label j = 0 then [] else [rankOfLabel ((x.label j - 1) / x.coll.fanin) j x.n]
      up ++ x.kidRanks j
  else if x.coll.op = 8 then (List.range 4).flatMap fun ph => x.line ph
  else List.range x.n

/-- A message between this module and another of its domain travels over a link. -/
def State.pairUses (s : State) (w l : Nat) : Bool :=
  w / 8192 == s.ownAddr / 8192 && (s.leavesBy w l || s.arrivesBy w s.ownAddr l)

/-- The collectives of a partition's step that exchange messages over a link. -/
def State.collsOver (s : State) (p l : Nat) : List Nat :=
  match s.stepOf p with
  | none => []
  | some st => (st.colls.filter fun r => !r.done && match s.collCtx p r.coll with
      | some x => x.peers.any fun m => m != x.rank && s.pairUses (x.word m) l
      | none => false).map (·.coll)

/-- Deferrals held on an edge over a link whose peer is reset are dropped and counted (R388, R392). -/
def State.dropEdgeDeferrals (s : State) (p l : Nat) : State :=
  let held := tabGet [] s.yard.deferrals p
  let lost := held.filter fun d => match s.planOf p d.plan with
    | none => false
    | some pl => match pl.colls[d.coll]?, pl.ownRank with
      | some c, some own =>
        let n := c.members.length
        let r := (c.members.findIdx? (· == own)).getD 0
        (treeKids (labelOf r d.shard n) c.fanin n).any fun k => k.1 == d.pos &&
          s.arrivesBy ((pl.ranks[(c.members[rankOfLabel k.2 d.shard n]?).getD 0]?).getD 0) s.ownAddr l
      | _, _ => false
  if lost.isEmpty then s
  else
    let rest := held.filter fun d => !lost.contains d
    let s := { s with yard := { s.yard with deferrals := tabSet [] s.yard.deferrals p rest } }
    (s.bump MUS_DROPPED_COUNT p lost.length).setFld MUS_STATUS_DEFER_HELD p (!rest.isEmpty).toNat

/-- What a link takes down with it in a partition: transfers in flight over it, collectives that cannot
complete, and after a reset the deferrals of its edges. -/
def State.loseLink (s : State) (p l : Nat) (reset : Bool) : State :=
  match s.stepOf p with
  | none => if reset then s.dropEdgeDeferrals p l else s
  | some st =>
    let gone := st.transfers.filter fun t => t.sent && match s.peerOf p t.slot with
      | some w => s.pairUses w l
      | none => false
    let s := gone.foldl (fun s t => s.loseTransfer p t.slot reset) s
    let s := (s.collsOver p l).foldl (fun s k => s.collReset p k) s
    if reset then s.dropEdgeDeferrals p l else s

/-! ## Landing (R253, R254, R359) -/

/-- A zero bale as the plan's operand states it, poisoned (R93, R194). -/
def zeroItem (o : Option Operand) : Item :=
  match o with
  | some o => ⟨(zeroBale o.format o.shape o.rows o.cols).bytes, [], none, false, 0⟩
  | none => ⟨[], [], none, false, 0⟩

/-- The PIPE record's BUFFERS. -/
def NodeEnt.buffers (n : NodeEnt) : Nat := max 1 (fieldAt n.record 1 1)

/-- How a landing stands before its landing buffer (R253): an earlier micro-batch of the node has still to land, the
buffer of its micro-batch is in use, or it is free. -/
inductive PipeTurn where
  | early
  | busy
  | free
deriving DecidableEq, Repr

/-- The landing buffers of a node of a plan. -/
def Plan.buffersOf (pl : Plan) (node : Nat) : Nat :=
  match pl.node node with
  | some nd => nd.buffers
  | none => 1

def Step.pipeTurn (st : Step) (pl : Plan) (node mb : Nat) : PipeTurn :=
  let next := ((st.landed.find? (·.1 == node)).map (·.2)).getD 0
  if next < mb then .early
  else if st.pipes.any fun b => b.node == node && b.buf == mb % pl.buffersOf node then .busy
  else .free

/-- A bale lands in its buffer, which is free (R253), and LAND_SEM of its node is signalled; its waits for the buffer
are counted. One that a reset has ended is poisoned zeros (R254). -/
def State.landPipe (s : State) (p : Nat) (pl : Plan) (node mb : Nat) (x : Landing) (lost : Bool)
    (began : Option Nat) : State :=
  let o : Option Operand := ((pl.descsOf node).head?).bind fun d => d.ops[0]?
  let item : Item := if lost then zeroItem o else ⟨x.data, [], none, x.poison, 0⟩
  let core := (pl.coreOf node).getD 0
  let b : PipeBuf := ⟨node, mb % pl.buffersOf node, mb, item⟩
  let s := s.updStep p fun st => { st with
    pipes := st.pipes ++ [b]
    landed := (node, max (mb + 1) (((st.landed.find? (·.1 == node)).map (·.2)).getD 0)) ::
      st.landed.filter (·.1 != node) }
  let waited := x.waited + (s.loft.now - began.getD s.loft.now)
  let s := if lost then (s.bump CLU_STALL_RESET_EVENTS_COUNT (core / 8)).stepReset p else s
  let s := if waited = 0 then s else s.bump TEN_PIPE_WAIT_COUNT core waited
  s.signal p (((pl.node node).map fun nd => fieldAt nd.record 16 4).getD x.sem)

/-- A landing is tried: it lands, or goes on waiting. -/
def State.landTry (s : State) (p : Nat) (e : Landing × Bool × Option Nat) : State :=
  let wait := fun e => s.updStep p fun st => { st with landings := st.landings ++ [e] }
  match s.stepOf p, s.stepPlan p, e.1.pipe with
  | some st, some pl, some (node, mb) => match st.pipeTurn pl node mb with
    | .early => wait e
    | .busy => wait (e.1, e.2.1, some (e.2.2.getD s.loft.now))
    | .free => s.landPipe p pl node mb e.1 e.2.1 e.2.2
  | _, _, _ => s

/-- The landings that wait are tried in order, until none can land; there are no more rounds than landings. -/
def State.landHeld (s : State) (p : Nat) : Nat → State
  | 0 => s
  | k + 1 =>
    let es := ((s.stepOf p).map (·.landings)).getD []
    let s := s.updStep p fun st => { st with landings := [] }
    (es.foldl (fun (s : State) e => s.landTry p e) s).landHeld p k

/-- Try the landings of a step that wait. -/
def State.landWaiting (s : State) (p : Nat) : State :=
  s.landHeld p (((s.stepOf p).map (·.landings.length)).getD 0)

/-- Bytes of a peer land in a tensor (R359); poison in its bales is the step's (R461). -/
def State.landTensor (s : State) (p : Nat) (pl : Plan) (x : Landing) : State :=
  match s.tensorPlace p x.tensor x.off x.data.length with
  | none => s
  | some at_ =>
    let s := (s.writeAt (p + 1) at_ x.data).regain p at_ x.data.length
    let words := ((pl.tensor x.tensor).map (·.words)).getD false
    (if words then [] else balesIn x.data (x.data.length / 64) 0).foldl (fun (s : State) b =>
      s.markBale p (placeAdd at_ b.1) b.2 x.poison) s

/-- A range of a tensor is lost to a reset (R194, R283): its readers take poisoned zeros, and each of their clusters
counts the loss. -/
def State.loseRange (s : State) (p : Nat) (pl : Plan) (tensor off n : Nat) : State :=
  let s := (pl.readerClusters tensor).foldl (fun (s : State) c => s.bump CLU_STALL_RESET_EVENTS_COUNT c) s
  let s := match s.tensorPlace p tensor off n with
    | some at_ => s.lose p at_ n
    | none => s
  s.stepReset p

/-- A peer's transfer lands (R253, R359): in its landing buffer or its tensor, and LAND_SEM is signalled.
One that a reset has ended delivers poisoned zeros to its readers (R194, R254): it loses the bytes it names, or where
it names none the rest of its tensor (log entry 86). -/
def State.land (s : State) (p : Nat) (x : Landing) (lost : Bool) : State :=
  match s.stepOf p, s.stepPlan p, x.pipe with
  | some _, some _, some _ => (s.landTry p (x, lost, none)).landWaiting p
  | some _, some pl, none =>
    let size := ((pl.tensor x.tensor).map (·.bytes)).getD 0
    let n := if x.data.isEmpty then size - x.off else x.data.length
    (if lost then s.loseRange p pl x.tensor x.off n else s.landTensor p pl x).signal p x.sem
  | _, _, _ => s

/-! ## Leaving UP, and training (R337 to R339) -/

/-- The fabric is out while the root runs from FOSC (R419) and before start-up. -/
def State.fabricUp (s : State) : Bool :=
  !s.boot.inReset && (s.clk.root == .crystal || s.clk.root == .held)

/-- Training begins, if the link is enabled and has a neighbour. -/
def State.startTrain (s : State) (l : Nat) : State :=
  if s.flag HLK_CTRL_ENABLE l && !s.noDimension l && s.fabricUp then
    let s := (s.setFld HLK_STATUS_TRAINING l 1).setFld HLK_STATUS_MISWIRED l 0
    s.updLink l fun x => { x with tries := 0 }
  else s.setFld HLK_STATUS_TRAINING l 0

/-- A link that is UP leaves UP (R339): DOWN_EVENT, its epoch rises, its packets are gone, and what
was in flight over it ends. -/
def State.linkDown (s : State) (l : Nat) (reset : Bool) : State :=
  if !s.flag HLK_STATUS_UP l then s
  else
    let s := (s.setFld HLK_STATUS_UP l 0).setFld HLK_STATUS_DOWN_EVENT l 1
    let s := s.setFld HLK_STATUS_EPOCH l ((s.fld HLK_STATUS_EPOCH l + 1) % 256)
    let s := s.bump HLK_DOWN_COUNT_COUNT l
    let s := s.updLink l fun x => { x with unacked := [], forward := [], credits := [], badRun := 0 }
    s.stepping.foldl (fun s p => s.loseLink p l reset)
      ((List.range 32).foldl (fun s p => if (s.stepOf p).isNone && reset then s.dropEdgeDeferrals p l else s) s)

/-- A link goes down and trains again. -/
def State.linkRetrain (s : State) (l : Nat) (reset : Bool) : State := (s.linkDown l reset).startTrain l

/-- The landings that a reset peer owes are delivered as poisoned zeros (R194, R254). -/
def execLinkDown (link : LinkId) (reset : Bool) (lost : List (Part × Landing)) (s : State) : Out :=
  .next (if !s.flag HLK_STATUS_UP link then s
    else
      let s := s.linkRetrain link reset
      if reset then lost.foldl (fun s x => s.land x.1 x.2 true) s else s)

/-- A write to HLK_CTRL of a link (R339, R363): ENABLE is stored, 0 holds the link down; RESET resets
it, or ENABLE turned on lets it train. -/
def hlkCtrlWrite (s : State) (l : Nat) (val : Word) : State :=
  let was := s.flag HLK_CTRL_ENABLE l
  let s := s.setFld HLK_CTRL_ENABLE l (getBits val 1 1)
  if !bitOf val 1 then (s.linkDown l true).setFld HLK_STATUS_TRAINING l 0
  else if bitOf val 0 then s.linkRetrain l true
  else if !was then s.startTrain l
  else s

/-- The link that the owner's LINK_SEL names. -/
def State.linkSel (s : State) : Nat := s.fld LINK_SEL_LINK

def execLinkReset (val : Word) (s : State) : Out :=
  .next (if bitOf val 0 then hlkCtrlWrite s s.linkSel val else s)

def execLinkEnableWrite (val : Word) (s : State) : Out :=
  .next (if bitOf val 0 then s else hlkCtrlWrite s s.linkSel val)

/-- The credits of the virtual channels after training (R332, R334). -/
def fullCredits : List Nat := [3072, 3072, 64, 64]

/-- Training finishes (R337): failed lanes give way, the identity is checked against the neighbour that
R330 requires (a mismatch holds the link down as MISWIRED, violation 0x06), credits are granted and the
delay is measured. With too few lanes it cannot finish. -/
def linkTrainDone (s : State) (l : Nat) (bad : List Nat) (rank dom far delay : Nat) : State :=
  let failed := (s.link l).failed ++ bad.filter fun n => !(s.link l).failed.contains n
  match laneMask failed with
  | none => s
  | some m =>
    if !s.flag HLK_STATUS_TRAINING l then s
    else
      let s := (bad.filter fun n => n < 8 && !(s.link l).failed.contains n).foldl (fun s n => s.swapLane l n true) s
      let s := s.updLink l fun x => { x with failed := failed }
      let s := (s.setLanes l m).setFld HLK_STATUS_TRAINING l 0
      let s := s.setReg HLK_PEER l (BitVec.ofNat 32
        (rank % 8192 + dom % 16 * 2 ^ 13 + far % 16 * 2 ^ 17 + 2 ^ 21))
      let want := neighbourOf s.dims (s.fld HLK_ADDR_RANK) l
      if rank ≠ want ∨ dom ≠ s.fld HLK_ADDR_DOMAIN ∨ far ≠ farLink l then
        (s.setFld HLK_STATUS_MISWIRED l 1).linkViol l 0x06 rank
      else
        let s := (s.setFld HLK_STATUS_UP l 1).setFld HLK_DELAY_DELAY l delay
        s.updLink l fun x => { x with
          unacked := [], txSeq := 0, rxSeq := 0, credits := fullCredits, badRun := 0, tries := 0
          measured := s.beat, forward := [] }

def execLinkTrainDone (link : LinkId) (bad : List (Fin 9)) (rank : Nat) (dom : Nat) (far : Nat)
    (delay : Nat) (s : State) : Out :=
  .next (linkTrainDone s link (bad.map (·.val)) rank dom far delay)

/-- Training has run 50 ms (R337): tried up to 3 times more, then the link stays down and the Farrier
reports it (DEDUCED, log entry 61). -/
def linkTrainTimeout (s : State) (l : Nat) : State :=
  if !s.flag HLK_STATUS_TRAINING l then s
  else if (s.link l).tries < 3 then s.updLink l fun x => { x with tries := x.tries + 1 }
  else (s.setFld HLK_STATUS_TRAINING l 0).farLog 4 kLink l 0

def execLinkTrainTimeout (link : LinkId) (s : State) : Out := .next (linkTrainTimeout s link)

/-- A lane fails outright (R338): one in use takes the link down to retrain on the spare or on four
lanes. -/
def laneFail (s : State) (l lane : Nat) : State :=
  if (s.link l).failed.contains lane then s
  else if !((s.fld HLK_LANES_ACTIVE l).testBit lane) then
    s.updLink l fun x => { x with failed := lane :: x.failed }
  else ((s.linkDown l true).swapLane l lane true).startTrain l

def execLaneFail (link : LinkId) (lane : Fin 9) (s : State) : Out := .next (laneFail s link lane)

/-- The one-way delay is measured (R348). -/
def execLinkDelayMeasure (link : LinkId) (delay : Nat) (s : State) : Out :=
  .next (if s.flag HLK_STATUS_UP link then
      (s.setFld HLK_DELAY_DELAY link delay).updLink link fun x => { x with measured := s.beat }
    else s)

/-! ## Packets (R332 to R335, R407, R408) -/

/-- The flits of a packet: its header and payload (R333). -/
def Packet.size (k : Packet) : Nat := k.flits + 1

/-- The window of a link that isolation mode opens to a partition's packet now (R407); 0 no window in
the map at all (R408), 1 not in this beat, 2 open. -/
def State.linkWindow (s : State) (l : Nat) (k : Packet) : Nat :=
  if !s.isolated ∨ k.vc = 3 then 2
  else if k.vc = 2 then
    match s.hostPart k.part with
    | some p => if tabGet false s.parts.whistleNow p then 2 else 1
    | none => 2
  else if !s.windowAny l k.part then 0
  else if windowServes (s.windowEntry l s.beat) k.part then 2
  else 1

/-- A packet is put on a link (R334, R335): a credit for each flit, kept for replay, counted. -/
def State.emit (s : State) (l : Nat) (k : Packet) : State :=
  let s := s.bump64 HLK_TX_FLITS_LO l k.size
  s.updLink l fun x => { x with
    unacked := x.unacked ++ [(x.txSeq, k, 0)], txSeq := x.txSeq + 1
    credits := x.credits.set k.vc (x.credits.getD k.vc 0 - k.size) }

/-- A packet dropped for want of a window: counted under code 0x05, its own transfer LINK_ERROR (R408). -/
def State.dropUnwindowed (s : State) (l : Nat) (k : Packet) : State :=
  let s := s.linkViol l 0x05 k.part
  if k.origin = s.ownAddr then match s.hostPart k.part with
    | some p => s.loseTransfer p k.xfer false
    | none => s
  else s

/-- The virtual channel on which a packet leaves by a link: past a dateline, VC1 (R341). -/
def State.outVc (s : State) (l : Nat) (k : Packet) : Nat :=
  if k.vc = 0 ∧ crossesDateline s.dims (s.fld HLK_ADDR_RANK) l then 1 else k.vc

/-- The flits kept for replay on a link (R335). -/
def State.replayHeld (s : State) (l : Nat) : Nat :=
  ((s.link l).unacked.map fun u => u.2.1.size).foldl (· + ·) 0

/-- A packet to forward, the first of its virtual channel on its link, could leave by a link on a higher virtual
channel: it goes first (R332). -/
def State.higherWaits (s : State) (l vc : Nat) : Bool :=
  (List.range 12).any fun f => [0, 1, 2, 3].any fun v =>
    match (s.link f).forward.find? (·.vc == v) with
    | some q =>
      let o := s.outVc l q
      decide (vc < o) && s.leavesBy q.dest l && s.linkWindow l { q with vc := o } == 2 &&
        decide (q.size ≤ (s.link l).credits.getD o 0) && decide (s.replayHeld l + q.size ≤ 12800)
    | none => false

/-- A packet is sent over a link: this module's own, or the next of its virtual channel to forward from another link.
It goes if the link is UP and its route's next, with credits for each flit (else it is held for credits)
and 800 KiB of replay buffer, in isolation mode in its partition's window, and with nothing to forward ahead of it
(R332); past a dateline it moves to VC1 (R341). -/
def linkPacketSend (s : State) (l : Nat) (src : Option Nat) (k : Packet) : State :=
  let drop := fun s : State => match src with
    | some f => s.updLink f fun x => { x with forward := x.forward.erase k }
    | none => s
  let known := match src with
    | some f => (s.link f).forward.find? (·.vc == k.vc) == some k
    | none => k.origin == s.ownAddr
  let vc := s.outVc l k
  let k' := { k with vc := vc }
  let held := s.replayHeld l
  if !s.flag HLK_STATUS_UP l || !known || !s.leavesBy k.dest l || s.flag CLK_STATUS_VIN_WARN ||
      decide (512 < k.flits) || s.higherWaits l vc then s
  else match s.linkWindow l k' with
    | 0 => drop (s.dropUnwindowed l k')
    | 1 => s
    | _ =>
      if (s.link l).credits.getD vc 0 < k.size then s.bump HLK_CREDIT_STALL_COUNT l
      else if 12800 < held + k.size then s
      else drop (s.emit l k')

def execLinkPacketSend (link : LinkId) (src : Option LinkId) (origin : Nat) (dest : Nat) (part : Nat)
    (xfer : Nat) (seq : Nat) (epoch : Nat) (vc : Fin 4) (flits : Nat) (s : State) : Out :=
  .next (linkPacketSend s link (src.map (·.val)) ⟨origin, dest, part, xfer, seq, epoch, vc, flits⟩)

/-- The receive buffer of a virtual channel that packets to forward still fill. -/
def State.rxHeld (s : State) (l vc : Nat) : Nat :=
  (((s.link l).forward.filter (·.vc == vc)).map Packet.size).foldl (· + ·) 0

/-- A packet arrives (R335, R339, R362): a bad CRC or header is discarded and answered with a NAK (16
bad headers in a row take the link down); flits beyond the credits take it down; a stale epoch is
dropped and counted; one that no route brings here, or of no partition here, is discarded with a
drop notice; any other is delivered here or kept to be forwarded. -/
def linkPacketReceive (s : State) (l : Nat) (k : Packet) (crcOk : Bool) (badHdr : Option Word)
    (corr uncorr : Nat) : State :=
  if !s.flag HLK_STATUS_UP l then s
  else
    let s := (s.bump64 HLK_FEC_CORR_LO l corr).bump HLK_FEC_UNCORR_COUNT l uncorr
    let s := s.bump64 HLK_RX_FLITS_LO l k.size
    let s := s.farEvent kLane (lanePart l 0) corr
    if !crcOk then s
    else match if 512 < k.flits then some (badHdr.getD 0) else badHdr with
      | some h =>
        let s := (s.linkViol l 0x01 h.toNat).updLink l fun x => { x with badRun := x.badRun + 1 }
        if 16 ≤ (s.link l).badRun then s.linkRetrain l false else s
      | none =>
        let here := k.dest == s.ownAddr
        if fullCredits.getD k.vc 0 < s.rxHeld l k.vc + k.size then
          (s.linkViol l 0x02 k.vc).linkRetrain l false
        else
          let s := s.updLink l fun x => { x with badRun := 0, rxSeq := x.rxSeq + 1 }
          if here && k.epoch != s.fld HLK_STATUS_EPOCH l then s.bump HLK_STALE_DROPS_COUNT l
          else if !s.arrivesBy k.origin k.dest l then s.linkViol l 0x04 (k.dest % 8192)
          else if here && (s.hostPart k.part).isNone then s.linkViol l 0x05 k.part
          else if here then s
          else s.updLink l fun x => { x with forward := x.forward ++ [k] }

def execLinkPacketReceive (link : LinkId) (origin : Nat) (dest : Nat) (part : Nat) (xfer : Nat)
    (seq : Nat) (epoch : Nat) (vc : Fin 4) (flits : Nat) (crcOk : Bool) (badHdr : Option Word)
    (corr : Nat) (uncorr : Nat) (s : State) : Out :=
  .next (linkPacketReceive s link ⟨origin, dest, part, xfer, seq, epoch, vc, flits⟩ crcOk badHdr corr uncorr)

/-- An acknowledgement frees the packets up to its sequence; one never sent is violation 0x03. -/
def linkAck (s : State) (l seq : Nat) : State :=
  if !s.flag HLK_STATUS_UP l then s
  else if (s.link l).txSeq ≤ seq then s.linkViol l 0x03 seq
  else s.updLink l fun x => { x with unacked := x.unacked.filter fun u => decide (seq < u.1) }

def execLinkAckReceive (link : LinkId) (seq : Nat) (s : State) : Out := .next (linkAck s link seq)

/-- A NAK resends from its packet onward, in order; a packet already resent 8 times without
acknowledgement takes the link down (R335) (DEDUCED, log entry 61). -/
def linkNak (s : State) (l seq : Nat) : State :=
  if !s.flag HLK_STATUS_UP l then s
  else if (s.link l).txSeq ≤ seq then s.linkViol l 0x03 seq
  else
    let again := (s.link l).unacked.filter fun u => decide (seq ≤ u.1)
    if again.any fun u => decide (8 ≤ u.2.2) then s.linkRetrain l false
    else
      let s := s.bump HLK_REPLAYS_COUNT l again.length
      let s := s.bump64 HLK_TX_FLITS_LO l ((again.map fun u => u.2.1.size).foldl (· + ·) 0)
      s.updLink l fun x => { x with
        unacked := x.unacked.map fun u => if seq ≤ u.1 then (u.1, u.2.1, u.2.2 + 1) else u }

def execLinkNakReceive (link : LinkId) (seq : Nat) (s : State) : Out := .next (linkNak s link seq)

/-- Credits come back, never beyond the receiver's buffer (R334). -/
def execLinkCreditReturn (link : LinkId) (vc : Fin 4) (n : Nat) (s : State) : Out :=
  .next (if !s.flag HLK_STATUS_UP link then s
    else s.updLink link fun x => { x with
      credits := x.credits.set vc (min (fullCredits.getD vc 0) (x.credits.getD vc 0 + n)) })

/-- A drop notice reaches the origin: its transfer completes LINK_ERROR (R362). -/
def execDropNoticeReceive (p : Part) (slot : Nat) (s : State) : Out := .next (s.loseTransfer p slot false)

/-! ## Transfers (R253, R359 to R361) -/

/-- The bytes that a transfer slot moves: the bale of a PIPE_SEND, or its LENGTH from the source; none
where a tensor cannot be read. -/
def State.transferBytes (s : State) (p : Nat) (t : Transfer) (sl : Slot) : Option (List Byte) :=
  if sl.length = 0 && sl.subject = 0 then some (t.bale.getD [])
  else if sl.length = 0 then some []
  else match t.bale with
    | some b => some b
    | none => match s.tensorPlace p sl.subject sl.srcOffset sl.length with
      | none => none
      | some pl =>
        if s.placeDown (p + 1) pl sl.length then none
        else if s.lostAt p pl sl.length then some (List.replicate sl.length 0)
        else some (s.readAt (p + 1) pl sl.length)

/-- Bytes with POISON = 1 in the header of every bale among them. -/
def poisonBales (bs : List Byte) : List Byte :=
  (balesIn bs (bs.length / 64) 0).foldl (fun bs b =>
    bs.take b.1 ++ hdrBytes { b.2.hdr with flags := 1 } ++ bs.drop (b.1 + 64)) bs

/-- The PIPE_SEND node and micro-batch that a slot serves. -/
def Plan.pipeOf (pl : Plan) (kind k : Nat) : Option (Nat × Nat) :=
  ((List.range pl.nodes.length).filterMap fun n => match pl.node n with
    | some nd =>
      let base := fieldAt nd.record 8 4
      let stride := fieldAt nd.record 12 4
      if nd.kind ≠ kind then none
      else if stride = 0 then (if k = base then some (n, 0) else none)
      else if base ≤ k ∧ (k - base) % stride = 0 then some (n, (k - base) / stride) else none
    | none => none).head?

/-- The kind of a PIPE_SEND node (R309). -/
abbrev kindPipeSend : Nat := 9

/-- The kind of a PIPE_RECV node (R309). -/
abbrev kindPipeRecv : Nat := 10

/-- The links by which a transfer's packets leave this module first: both stable links where more than 64 KiB are
striped (R341). -/
def State.firstLinks (s : State) (pl : Plan) (sl : Slot) : List Nat :=
  let w := (pl.ranks[sl.peer]?).getD 0
  if w / 8192 ≠ s.ownAddr / 8192 then []
  else ([false, true].filter fun odd => !odd || decide (65536 < sl.length)).filterMap fun odd =>
    nextLink s.dims (s.fld HLK_ADDR_RANK) (w % 8192) odd

/-- An earlier slot of the step has fired and not been sent, and its transfer shares a first link (R359). -/
def State.behind (s : State) (pl : Plan) (st : Step) (k : Nat) (sl : Slot) : Bool :=
  st.transfers.any fun t => decide (t.slot < k) && !t.sent && match pl.slots[t.slot]? with
    | some o => (s.firstLinks pl o).any fun l => (s.firstLinks pl sl).contains l
    | none => false

/-- A transfer sends its first packet (R359, R360): after its SRC_SEM wait and with its source ready;
counted as late where that is after its beat. A source in reset ends it (R283). LENGTH 0 moves nothing
(R361). With its first link down it completes LINK_ERROR (R339, DEDUCED, log entry 10). -/
def transferSend (s : State) (p k : Nat) : State :=
  match s.stepOf p, s.stepPlan p, s.slotOf p k with
  | some st, some pl, some sl =>
    match st.transfers.find? (·.slot == k) with
    | none => s
    | some t =>
      let piped := (pl.pipeOf kindPipeSend k).isSome
      let source := t.bale.isNone && sl.length != 0
      if t.sent || !t.semOk || (piped && t.bale.isNone) || s.flag CLK_STATUS_VIN_WARN ||
          (source && s.fetching p sl.subject) || s.behind pl st k sl then s
      else
        let late := t.late || decide (st.startBeat + sl.beat < s.beat)
        let s := if late then s.bump YTM_SLOT_LATE_COUNT 0 else s
        match s.transferBytes p t sl with
        | none => s.loseTransfer p k true
        | some bs =>
          let words := ((pl.tensor sl.subject).map (·.words)).getD false
          let (s, bs) := match s.tensorPlace p sl.subject sl.srcOffset sl.length with
            | some at_ =>
              if !source then (s, bs)
              else
                let bad := s.badAt (p + 1) at_ sl.length
                let code := s.badCode (p + 1) at_ sl.length
                let s := s.touch (p + 1) at_ sl.length
                (if bad then s.stepFault p code else s, if bad && !words then poisonBales bs else bs)
            | none => (s, bs)
          let w := (pl.ranks[sl.peer]?).getD 0
          let out := nextLink s.dims (s.fld HLK_ADDR_RANK) (w % 8192) false
          let dead := w / 8192 == s.ownAddr / 8192 && match out with
            | some l => !s.flag HLK_STATUS_UP l
            | none => false
          if dead then s.loseTransfer p k false
          else s.updStep p fun st => { st with
            transfers := st.transfers.map fun x =>
              if x.slot = k then { x with sent := true, late := late, bale := some bs } else x }
  | _, _, _ => s

def execTransferSend (p : Part) (slot : Nat) (errs : List MemEvent) (s : State) : Out :=
  .next (s.meeting (p + 1) errs fun s => transferSend s p slot)

/-- A transfer's last byte is visible at its peer (R359): this module's own slot is done (at its own
module it lands there at once), and a peer's transfer lands here. -/
def transferLand (s : State) (p : Nat) (slot : Option Nat) (x : Option Landing) : State :=
  let s := match slot with
    | none => s
    | some k => match s.stepOf p, s.slotOf p k with
      | some st, some sl =>
        match st.transfers.find? fun t => t.slot == k && t.sent with
        | none => s
        | some t =>
          let s := s.updStep p fun st => { st with transfers := st.transfers.filter (·.slot != k) }
          if s.peerOf p k = some s.ownAddr then
            let pipe := (s.stepPlan p).bind fun pl => pl.pipeOf kindPipeRecv k
            s.land p ⟨sl.dstTensor, sl.dstOffset, pipe, sl.landSem, t.bale.getD [], true, 0⟩ false
          else s
      | _, _ => s
  match x with
  | some x => s.land p x false
  | none => s

def execTransferLand (p : Part) (slot : Option Nat) (inc : Option Landing) (s : State) : Out :=
  .next (transferLand s p slot inc)

end Sys2Proof.Machine
end

