-- ==== Sys2Proof/Machine/YardTime.lean ====
section
/-! DEFINITION. Yard Time (spec/13 R345 to R354), the firing of the yard schedule's slots (R351, R359,
R279, R384), TIME_SET (R53), and the Ethernet ports with RoCE v2 and PTP (R342 to R344). -/

namespace Sys2Proof.Machine

/-! ## States (R349 to R352) -/

abbrev ytFree : Nat := 0
abbrev ytAcquire : Nat := 1
abbrev ytLocked : Nat := 2
abbrev ytHoldover : Nat := 3
abbrev ytUnsync : Nat := 4
abbrev ytSlew : Nat := 5

/-- STATE and SYNCED. -/
def State.ytState (s : State) : Nat := s.fld YTM_STATUS_STATE
def State.setYt (s : State) (st : Nat) (synced : Bool) : State :=
  (s.setFld YTM_STATUS_STATE 0 st).setFld YTM_STATUS_SYNCED 0 synced.toNat

/-- The period in units of 250 ns (R345). -/
def State.period (s : State) : Nat := s.fld YTM_PERIOD_PERIOD

/-- A signed number in a 32-bit register. -/
def wordOfInt (x : Int) : Word := BitVec.ofInt 32 x

/-- The phase error, in half picoseconds, and YTM_PHASE_ERR in whole nanoseconds. -/
def State.setPhase (s : State) (x : Int) : State :=
  ({ s with yt := { s.yt with phase := x } }).setReg YTM_PHASE_ERR 0 (wordOfInt (Int.tdiv x 2000))

/-- YTM_HOLDOVER_MS follows the holdover under way. -/
def State.setHold (s : State) (h : Option Nat) : State :=
  let s := { s with yt := { s.yt with hold := h } }
  match h with
  | some n => s.setReg YTM_HOLDOVER_MS 0 (BitVec.ofNat 32 (min (n / 4000) (2 ^ 32 - 1)))
  | none => s

/-- SYNCED is cleared by R351: UNSYNC_EVENT, the count and the Yard Time source; HOLDOVER becomes
UNSYNC, ACQUIRE stays. -/
def State.unsync (s : State) : State :=
  let st := if s.ytState = ytHoldover then ytUnsync else s.ytState
  let s := ((s.setYt st false).setFld YTM_STATUS_UNSYNC_EVENT 0 1).bump YTM_UNSYNC_COUNT_COUNT 0
  ({ s with yt := { s.yt with hold := none } }).raise 0 65

/-- While the root holds or runs from FOSC there is no holdover clock, and HOLDOVER is UNSYNC at once
(R419). -/
def State.noHoldover (s : State) : State :=
  if s.ytState = ytHoldover && s.clk.root != .crystal then s.unsync else s

/-- The reference is gone in the current state (R350, R352): LOCKED and a synchronised SLEW begin a
holdover, ACQUIRE goes back to the one it left, and without SYNCED the state is UNSYNC. -/
def State.ytDrop (s : State) : State :=
  match s.ytState with
  | 2 => ((s.setYt ytHoldover true).setHold (some 0)).noHoldover
  | 5 => if s.synced then ((s.setYt ytHoldover true).setHold (some 0)).noHoldover else s.setYt ytUnsync false
  | 1 => if s.synced then (s.setYt ytHoldover true).noHoldover else s.setYt ytUnsync false
  | _ => s

/-- A reference is present: HOLDOVER and UNSYNC enter ACQUIRE, unless it was rejected (R350, R352). -/
def State.ytReturn (s : State) : State :=
  let s := { s with yt := { s.yt with present := true } }
  if s.yt.rejected then s
  else if s.ytState = ytHoldover ∨ s.ytState = ytUnsync then s.setYt ytAcquire s.synced
  else s

/-- The module follows some source. -/
def State.ytSource (s : State) : Nat := s.fld YTM_CTRL_SOURCE

/-- The reference is lost (R350). -/
def referenceLost (s : State) : State :=
  if s.ytSource = 0 then s
  else
    let s := { s with yt := { s.yt with present := false, rejected := false } }
    if s.ytState = ytLocked ∨ s.ytState = ytSlew ∨ s.ytState = ytAcquire then
      let s := (s.setFld YTM_STATUS_REF_LOST 0 1).bump YTM_REF_LOSS_COUNT_COUNT 0
      s.ytDrop.raise 0 65
    else s

def execReferenceLost (s : State) : Out := .next (referenceLost s)

/-- The end of a 4,096-beat interval over which the reference had an average rate (R350): one more than
100 ppm from the locked rate is rejected; a rejected one within 100 ppm returns. -/
def rateCheck (s : State) (rate : Int) : State :=
  if s.ytSource = 0 || !s.yt.present || s.beat % 4096 != 0 then s
  else
    let s := s.setReg YTM_FREQ_OFFSET 0 (wordOfInt rate)
    let near := decide ((rate - s.yt.lockRate).natAbs ≤ 100000)
    if s.yt.rejected then
      if near then ({ s with yt := { s.yt with rejected := false } }).ytReturn else s
    else if !near && (s.ytState == ytLocked || s.ytState == ytSlew) then
      let s := { s with yt := { s.yt with rejected := true } }
      let s := (s.setFld YTM_STATUS_RATE_REJECT 0 1).bump YTM_RATE_REJECT_COUNT_COUNT 0
      s.ytDrop.raise 0 65
    else s

def execReferenceRateCheck (rate : Int) (s : State) : Out := .next (rateCheck s rate)

def execReferenceReturn (s : State) : Out := .next (if s.ytSource = 0 then s else s.ytReturn)

/-- The reference has qualified (R352): SLEW, with the phase error measured, at the rate it has; a
holdover that reaches 60 s in the same cc ends first (R354). -/
def referenceQualified (s : State) (phase rate : Int) (expired : Bool) : State :=
  if s.ytState ≠ ytAcquire then s
  else
    let s := if expired && s.yt.hold.isSome then s.unsync else s
    let s := { s with yt := { s.yt with hold := none, lockRate := rate } }
    ((s.setYt ytSlew s.synced).setPhase phase).setReg YTM_FREQ_OFFSET 0 (wordOfInt rate)

def execReferenceQualified (phase : Int) (rate : Int) (expired : Bool) (s : State) : Out :=
  .next (referenceQualified s phase rate expired)

/-- A holdover has run 60 s (R351). -/
def holdoverExpiry (s : State) : State :=
  if s.yt.hold.isSome && s.synced && (s.ytState == ytHoldover || s.ytState == ytAcquire) then
    (s.setHold (some 240000000)).unsync
  else s

def execHoldoverExpiry (s : State) : Out := .next (holdoverExpiry s)

/-! ## YTM_CTRL (R346) -/

/-- A YTM_CTRL write takes effect: what a change of source does. -/
def State.applyYtCtrl (s : State) (v : Word) : State :=
  let old := s.reg YTM_CTRL
  let s := s.setReg YTM_CTRL 0 v
  let a := getBits old 0 2
  let b := getBits v 0 2
  let same := a = b ∧ ¬(b = 2 ∧ getBits old 3 4 ≠ getBits v 3 4) ∧ ¬(b = 3 ∧ getBits old 7 1 ≠ getBits v 7 1)
  if same then s
  else
    let s := { s with yt := { s.yt with present := false, rejected := false, newEpoch := false } }
    if a ≠ 0 ∧ b ≠ 0 then s.ytDrop
    else ({ s with yt := { s.yt with hold := none } }).setYt (if b = 0 then ytFree else ytUnsync) false

/-- A write to YTM_CTRL: UPLINK 12–15 is ignored; held while any step executes. -/
def ytmCtrlWrite (s : State) (val : Word) : State :=
  let base := (s.yt.held).getD (s.reg YTM_CTRL)
  let v := val &&& 0xFF
  let v := if 12 ≤ getBits v 3 4 then setBits v 3 4 (getBits base 3 4) else v
  if !s.executing then s.applyYtCtrl v
  else { s with yt := { s.yt with held := some v } }

def execYtmCtrlWrite (val : Word) (s : State) : Out := .next (ytmCtrlWrite s val)

/-- A held write takes effect at a plan boundary of every partition. -/
def State.releaseYtCtrl (s : State) : State :=
  match s.yt.held with
  | some v => ({ s with yt := { s.yt with held := none } }).applyYtCtrl v
  | none => s

/-! ## Frames (R347, R348, R353, R362) -/

/-- A violation logged in YTM: the first kept, VIOL and the uplink's Bell source. -/
def State.ytViol (s : State) (code value : Nat) : State :=
  let s := if s.flag YTM_STATUS_VIOL then s
    else (s.setFld YTM_VIOL_CODE_CODE 0 code).setFld YTM_VIOL_VALUE_VALUE 0 value
  (s.setFld YTM_STATUS_VIOL 0 1).raise 0 (80 + s.fld YTM_CTRL_UPLINK)

/-- A frame of the module's source (R347, R353): with a good CRC and SYNCED set it is used, unless the
reference is lost in the same cc (R354); a period outside 1–64 or a count more than 1 beat off
without a new time epoch is a violation. A new epoch brings the frame's count at once. `phase` is
the phase error measured from it, the link's delay allowed for. -/
def State.takeFrame (s : State) (count period epoch : Nat) (phase : Int) : State :=
  let new := epoch != s.fld YTM_PERIOD_EPOCH
  if !new && (decide (s.beat + 1 < count) || decide (count + 1 < s.beat)) then
    s.ytViol 0x07 (count % 2 ^ 32)
  else if period = 0 ∨ 64 < period then s.ytViol 0x08 period
  else
    let s := s.setFld YTM_PERIOD_PERIOD 0 period
    let s := if s.ytState = ytLocked then s.setPhase phase else s
    if new then
      let s := (s.setReg64 YTM_BEAT_LO 0 count).setFld YTM_PERIOD_EPOCH 0 epoch
      let s := (s.setFld YTM_STATUS_SYNCED 0 0).ytReturn
      { s with yt := { s.yt with newEpoch := true } }
    else
      let back := s.yt.newEpoch && s.ytState == ytLocked
      let s := { s with yt := { s.yt with newEpoch := false } }
      (if back then s.setFld YTM_STATUS_SYNCED 0 1 else s).ytReturn

def execTimeFrameReceive (link : LinkId) (count : Nat) (period : Nat) (epoch : Nat) (synced : Bool)
    (crcOk : Bool) (phase : Int) (lost : Bool) (s : State) : Out :=
  .next (if !s.flag HLK_STATUS_UP link then s
    else
      let s := s.bump64 HLK_RX_FLITS_LO link
      if s.ytSource = 2 && s.fld YTM_CTRL_UPLINK == link && synced && crcOk && !lost then
        s.takeFrame count period epoch phase
      else s)

def execMarkerFrameReceive (count : Nat) (period : Nat) (epoch : Nat) (synced : Bool) (crcOk : Bool)
    (phase : Int) (lost : Bool) (s : State) : Out :=
  .next (if s.ytSource = 1 && synced && crcOk && !lost then s.takeFrame count period epoch phase else s)

/-- A PTP sync on the source port (R344): beat b corresponds to PTP time ORIGIN + b × period; `ns` is the
PTP time and `frac` how far into the current beat the module stands then, in half picoseconds. A
message that breaks PTP is counted. -/
def ptpMessage (s : State) (port ns : Nat) (frac : Int) (sync broken lost : Bool) : State :=
  if !s.flag (HLK_ETH_STATUS_UP port) then s
  else if broken then s.bump (HLK_ETH_PROTO_ERR_COUNT port) 0
  else if s.ytSource = 3 && s.fld YTM_CTRL_PTP_PORT == port && sync && !lost then
    let local_ : Int := (s.reg64 YTM_PTP_ORIGIN_LO + s.beat * (s.period * 250) : Nat)
    let phase := (local_ - (ns : Int)) * 2000 + frac
    (if s.ytState = ytLocked then s.setPhase phase else s).ytReturn
  else s

def execPtpMessageReceive (port : Fin 2) (ns : Nat) (frac : Int) (sync : Bool) (broken : Bool)
    (lost : Bool) (s : State) : Out :=
  .next (ptpMessage s port ns frac sync broken lost)

/-! ## Slots (R279, R351, R359) -/

/-- A FETCH record (R280, R472). -/
def State.fetchRecord (s : State) (p : Nat) (f : Fetch) (course cause beats : Nat) : State :=
  match s.stepOf p with
  | none => s
  | some st => s.dayRecord (p + 1) 0x05 st.plan st.step
      (leBytes 4 f.tensor ++ leBytes 4 f.slot ++ leBytes 1 course ++ leBytes 1 cause ++ leBytes 2 0 ++
        leBytes 4 beats)

/-- The cause of R281 of a fetch that is late: 1 GDDR busy, for one from GDDR or held on the GDDR limit; 2 shed
late. -/
def fetchCause (f : Fetch) : Nat := if f.tier = 3 ∧ !f.held then 2 else 1

/-- A fetch misses and its tensor has a FALLBACK recipe (R280): the rest is withdrawn, the readers
recompute, the miss is counted and recorded. -/
def State.recomputeFetch (s : State) (p : Nat) (f : Fetch) : State :=
  let s := s.updStep p fun st => { st with
    fetches := st.fetches.map fun g =>
      if g.slot = f.slot then { g with withdrawn := true, late := false } else g
    recompute := if st.recompute.contains f.tensor then st.recompute else f.tensor :: st.recompute
    recomputed := min 0xFFFFFFFF (st.recomputed + 1) }
  let s := match s.stepPlan p with
    | some pl => (Plan.readerClusters pl f.tensor).foldl (fun (s : State) c => s.bump CLU_RECOMP_MISSES_COUNT c) s
    | none => s
  s.fetchRecord p f 1 (fetchCause f) 0

/-- A FALLBACK recipe exists for a tensor (R255). -/
def Plan.fallback (pl : Plan) (t : Nat) : Bool := pl.recipes.any fun r => r.tensor == t && !r.always

/-- A FETCH slot starts its fetch (R279); a replay withdraws one recorded as recomputed (R476) (DEDUCED,
log entry 46). -/
def State.fetchStart (s : State) (p k : Nat) (sl : Slot) : State :=
  match s.stepOf p, s.stepPlan p with
  | some st, some pl =>
    let tier := ((pl.intent 2 sl.subject).map (·.value % 256)).getD 2
    let f : Fetch := ⟨k, sl.subject, tier, false, false, false, st.startBeat + sl.deadline,
      s.loft.waiting.any (·.part == p)⟩
    let gone := (s.replayRecs p).any fun r =>
      r.type == 5 && fieldAt r.head 36 4 == k && fieldAt r.head 40 1 == 1
    let s := s.updStep p fun st => { st with fetches := st.fetches ++ [f] }
    if gone && pl.fallback sl.subject then s.recomputeFetch p f else s
  | _, _ => s

/-- A TRANSFER slot fires (R253, R359): it waits for SRC_SEM, and for its bale if it serves a PIPE_SEND; a source
that is not ready now makes it late (R360). -/
def State.transferStart (s : State) (p k : Nat) (sl : Slot) : State :=
  match s.stepOf p with
  | none => s
  | some st =>
    let bale := (st.handed.find? fun h => h.1 == k).map fun h => h.2
    let piped := (s.stepPlan p).any fun pl => (pl.pipeOf kindPipeSend k).isSome
    let unready := bale.isNone && (piped || (sl.length != 0 && s.fetching p sl.subject))
    let t : Transfer := ⟨k, !sl.srcWait, false, unready, bale⟩
    let s := s.updStep p fun st => { st with transfers := st.transfers ++ [t] }
    if sl.srcWait then s.semWait p sl.srcSem (.slot k) else s

/-- A slot fires (R359). A STAGE slot's nests are released when the beat is delivered (R165). -/
def State.fireSlot (s : State) (p k : Nat) (sl : Slot) : State :=
  let s := s.updStep p fun st => { st with fired := k :: st.fired }
  match sl.kind with
  | 2 => s.transferStart p k sl
  | 3 => s.fetchStart p k sl
  | 4 => s.collOpen p sl.subject
  | _ => s

/-- The slots of a running step whose beat has come act in table order; a strict plan's stop once one is
reached while SYNCED is 0, and the step is owed LINK_ERROR with AUX 0x100 (R351). -/
def State.fireSlots (s : State) (p : Nat) : State :=
  match s.stepOf p, s.stepPlan p with
  | some st, some pl =>
    let due := ((List.range pl.slots.length).zip pl.slots).filter fun x =>
      !st.fired.contains x.1 && decide (st.startBeat + x.2.beat ≤ s.beat)
    if !st.running || st.stopped || due.isEmpty then s
    else if !s.synced && !pl.elastic then
      (s.updStep p fun st => { st with stopped := true }).stepLink p 0x100
    else due.foldl (fun s x => s.fireSlot p x.1 x.2) s
  | _, _ => s

/-! ## A beat (R345, R347, R352) -/

/-- The core clocks of a beat at the nominal 1.6 GHz (log entry 11). -/
def State.beatClocks (s : State) : Nat := 400 * s.period

/-- A beat of SLEW (R352): lengthened or shortened by 50 ppm, the last by only as much as brings the
error within ±20 ns; LOCKED and SYNCED at the edge at which it is. -/
def State.slew (s : State) : State :=
  if s.ytState ≠ ytSlew then s
  else
    let e := s.yt.phase
    let lock : Int := 40000
    let move : Int := 25 * s.period
    let e' := if e > lock then max lock (e - move) else if e < -lock then min (-lock) (e + move) else e
    let s := s.setPhase e'
    if -lock ≤ e' ∧ e' ≤ lock then s.setYt ytLocked true else s

/-- The frames of a beat that is a multiple of 4,096: the timekeeper's time frames leave on every link
that is UP (R346, R347). -/
def State.sendFrames (s : State) : State :=
  if s.beat % 4096 ≠ 0 ∨ !s.flag YTM_CTRL_TIMEKEEPER then s
  else
    let s := { s with yt := { s.yt with
      sent := some (s.beat, s.period, s.fld YTM_PERIOD_EPOCH, s.synced) } }
    (List.range 12).foldl (fun s l =>
      if s.flag HLK_STATUS_UP l then s.bump64 HLK_TX_FLITS_LO l else s) s

/-- The counter reaches its next beat (R345): the count a TIME_SET gave, or one more; a period waiting
for a multiple of 4,096 takes effect; the frames leave and slots fire. -/
def yardBeat (s : State) : State :=
  let s := { s with loft := { s.loft with now := (s.loft.now + s.beatClocks) % 2 ^ 64 } }
  let s := match s.yt.hold with
    | some n => s.setHold (some (n + s.period))
    | none => s
  let set := s.yt.nextCount
  let s := s.setReg64 YTM_BEAT_LO 0 (set.getD ((s.beat + 1) % 2 ^ 64))
  let s := { s with yt := { s.yt with nextCount := none } }
  let s := match s.yt.nextPeriod with
    | some q => if s.beat % 4096 = 0 && set.isNone then
        ({ s with yt := { s.yt with nextPeriod := none } }).setFld YTM_PERIOD_PERIOD 0 q
      else s
    | none => s
  let s := s.slew.sendFrames
  s.stepping.foldl (fun s p => s.fireSlots p) s

def execYardBeat (s : State) : Out := .next (yardBeat s)

/-! ## TIME_SET (R53, R345, R353) -/

/-- The checks of a TIME_SET. -/
def timeSetChecks (s : State) (f : Flight) : List Failed :=
  let apply := fieldAt f.bytes 8 1
  let per := fieldAt f.bytes 10 2
  checkReserved f [(8, 1), (10, 2), (16, 8)] [(8, 0xFC)] ++
    rangeIf (apply.testBit 1 && (per == 0 || decide (64 < per))) 10 ++
    refusedIf (f.fn != 0 || s.executing) ++
    refusedIf (apply % 4 != 0 && s.ytSource != 0 && !s.flag YTM_CTRL_TIMEKEEPER) 0x40

/-- A TIME_SET executes: the counter's new count and time epoch, and the period. -/
def timeSet (s : State) (f : Flight) : State :=
  match timeSetChecks s f with
  | [] =>
    let apply := fieldAt f.bytes 8 1
    let s := if apply.testBit 0 then
        ({ s with yt := { s.yt with nextCount := some (fieldAt f.bytes 16 8) } }).setFld YTM_PERIOD_EPOCH 0
          ((s.fld YTM_PERIOD_EPOCH + 1) % 256)
      else s
    let s := if apply.testBit 1 then { s with yt := { s.yt with nextPeriod := some (fieldAt f.bytes 10 2) } }
      else s
    s.finish f (if apply = 0 then stOkEmpty else stOK) 0 0
  | fs => s.failDesc f fs

def execTimeSetCounter (fn : Fn) (ring : Ring) (idx : Word) (s : State) : Out :=
  s.runDesc fn ring idx.toNat 9 fun s f => if (fieldAt f.bytes 8 1).testBit 0 then timeSet s f else s

def execTimeSetPeriod (fn : Fn) (ring : Ring) (idx : Word) (s : State) : Out :=
  s.runDesc fn ring idx.toNat 9 fun s f => if fieldAt f.bytes 8 1 % 4 = 2 then timeSet s f else s

def execTimeSetEmpty (fn : Fn) (ring : Ring) (idx : Word) (s : State) : Out :=
  s.runDesc fn ring idx.toNat 9 fun s f => if fieldAt f.bytes 8 1 % 4 = 0 then timeSet s f else s

/-! ## Ethernet (R342, R343, R362, R394) -/

/-- A frame arrives on a port (R342): counted; a bad FCS is discarded; one longer than 9,216 bytes is
outside the supported subset; a break of RoCE v2 or PTP is counted. -/
def ethFrame (s : State) (port len : Nat) (fcsOk broken : Bool) : State :=
  if !s.flag (HLK_ETH_STATUS_UP port) then s
  else
    let s := s.bump (HLK_ETH_RX_FRAMES_COUNT port)
    if !fcsOk then s.bump (HLK_ETH_FCS_ERR_COUNT port)
    else if broken || decide (9216 < len) then s.bump (HLK_ETH_PROTO_ERR_COUNT port)
    else s

def execEthFrameReceive (port : Fin 2) (len : Nat) (fcsOk : Bool) (broken : Bool) (s : State) : Out :=
  .next (ethFrame s port len fcsOk broken)

/-- The queue pairs in use, on their port (R394): entry 2d + (d mod 2) on port d mod 2. -/
def State.knownQp (s : State) (port qp : Nat) : Bool :=
  (List.range 32).any fun i => i % 2 == port && s.flag (MUS_XQP_LOCAL_VALID i) && s.fld (MUS_XQP_LOCAL_QPN i) == qp

/-- NAK syndromes of RoCE v2 (PRESUMED, log entry 12): sequence error and invalid request. -/
abbrev nakSequence : Nat := 0x60
abbrev nakInvalid : Nat := 0x61

/-- A RoCE v2 request on a reliable connected queue pair (R343): WRITE, READ and SEND (1, 2, 3) in
sequence are served and acknowledged, a repeat acknowledged again, one out of sequence or of another
kind answered with a NAK; a queue pair that is not in use breaks the protocol. -/
def roceRequest (s : State) (port qp kind psn : Nat) : State :=
  if !s.flag (HLK_ETH_STATUS_UP port) then s
  else if !s.knownQp port qp then s.bump (HLK_ETH_PROTO_ERR_COUNT port)
  else
    let want := tabGet 0 s.eth.psn qp
    let reply := fun (s : State) syn =>
      ({ s with eth := { s.eth with replies := (qp, psn, syn) :: s.eth.replies } }).bump (HLK_ETH_TX_FRAMES_COUNT port)
    if kind = 0 ∨ 3 < kind then (reply s nakInvalid).bump (HLK_ETH_PROTO_ERR_COUNT port)
    else if psn = want then
      reply { s with eth := { s.eth with psn := tabSet 0 s.eth.psn qp ((want + 1) % 2 ^ 24) } } 0
    else if (want + 2 ^ 24 - psn) % 2 ^ 24 < 2 ^ 23 then reply s 0
    else reply s nakSequence

def execRoceRequest (port : Fin 2) (qp : Nat) (kind : Nat) (psn : Nat) (s : State) : Out :=
  .next (roceRequest s port qp kind psn)

/-- An Ethernet port links at a rate, or loses its link (R363). -/
def execEthPortLinkChange (port : Fin 2) (up : Bool) (rate : Bool) (s : State) : Out :=
  .next (let s := s.setFld (HLK_ETH_STATUS_UP port) 0 up.toNat
    if up then s.setFld (HLK_ETH_STATUS_RATE port) 0 rate.toNat else s)

end Sys2Proof.Machine
end

