-- ==== Sys2Proof/Machine/Units.lean ====
section
/-! DEFINITION. The reset of one unit (spec/18 R456 to R459): a GDDR channel (spec/11 R297), a cluster
(R284, R156), a shed channel (R303), a die; and its end. -/

namespace Sys2Proof.Machine

/-! ## What a reset takes with it -/

/-- A fetch of the executing step is ended by a reset (R283, R281): its readers take poisoned zeros. -/
def State.loseFetch (s : State) (p slot : Nat) : State :=
  match s.stepOf p, s.stepPlan p with
  | some st, some pl =>
    match st.fetches.find? fun f => f.slot == slot && !f.landed && !f.withdrawn with
    | none => s
    | some f =>
      let s := (s.fetchRecord p f 2 4 0).updStep p fun st => { st with
        fetches := st.fetches.map fun g => if g.slot = slot then { g with landed := true } else g }
      s.loseRange p pl f.tensor 0 (((pl.tensor f.tensor).map (·.bytes)).getD 0)
  | _, _ => s

/-! ## GDDR channels (R297) -/

/-- A channel leaves reset (R297, R225): TRAINED, with its content kept or poisoned; the pools of its
partitions are poisoned either way. -/
def State.channelExit (s : State) (n : Nat) (retained : Bool) : State :=
  let s := if retained then s
    else ((List.range 33).foldl (fun (s : State) fn => s.dayLose fn fun b =>
      s.channelOf fn (s.dayAddr fn b / 1024) == n) s).wipeChannel n
  let s := ((s.setFld GDR_STATUS_IN_RESET n 0).setFld GDR_STATUS_TRAINED n 1).setBitOf BOOT_INRESET_UNIT 0 n false
  let s := s.setFld GDR_STATUS_RETAINED n retained.toNat
  ((List.range 32).filter fun p => s.hasChannel p n).foldl (fun (s : State) p => s.poisonPool p) s

/-! ## Clusters (R156, R284, R458, R519) -/

/-- The cluster of an end of a chute: a core, or drover `e - 256`. -/
def endCluster (e : Nat) : Nat := if e < 256 then e / 8 else (e - 256) / 4

/-- The key of a chute. -/
def chuteKey (p plan k : Nat) : Nat := (p * 16 + plan) * 65536 + k

/-- A chute as it stands before anything was sent. -/
def newChute (rx : Nat) : Chute := ⟨[], [], [], rx, [], false⟩

/-- The chute of a bound edge. -/
def State.chute (s : State) (p plan k rx : Nat) : Chute := tabGet (newChute rx) s.chutes (chuteKey p plan k)

/-- Set BROKEN for a port of a core; drovers have no such register. -/
def State.setBroken (s : State) (core port : Nat) : State :=
  if core < 256 then
    s.setFld COR_CHUTE_STATUS_BROKEN core (s.fld COR_CHUTE_STATUS_BROKEN core ||| 2 ^ port)
  else s

/-- Clear a port's bit of a status field of a core. -/
def State.clearPort (s : State) (f : Field) (core port : Nat) : State :=
  let m := s.fld f core
  if m.testBit port then s.setFld f core (m - 2 ^ port) else s

/-- The cluster at one end of a bound chute is reset (R156): what is on its way is discarded, a surviving
sender's waiting bales count as sent, and a surviving receiver keeps what has landed. -/
def State.breakChute (s : State) (p plan k : Nat) (e : BoundEdge) (c : Nat) : State :=
  let src := endCluster e.srcCore == c
  let dst := endCluster e.dstCore == c
  if !src && !dst then s
  else
    let ch := s.chute p plan k e.rxUnits
    let s := if dst && !src && decide (e.srcCore < 256) then
        s.bump (COR_CHUTE_TX_BALES_COUNT e.srcPort) e.srcCore ch.half.length
      else s
    let new : Chute := { ch with
      half := [], flying := [], returns := [], ring := if dst then [] else ch.ring, broken := true }
    let s := { s with chutes := tabPut s.chutes (chuteKey p plan k) new }
    let s := if e.srcCore < 256 then s.clearPort COR_CHUTE_STATUS_SEND_WAIT e.srcCore e.srcPort else s
    let s := if e.dstCore < 256 ∧ (dst ∨ new.ring.isEmpty) then
      s.clearPort COR_CHUTE_STATUS_RECV_WAIT e.dstCore e.dstPort else s
    let s := if src then s else s.setBroken e.srcCore e.srcPort
    if dst then s else s.setBroken e.dstCore e.dstPort

/-- The bound chutes of every loaded plan that end in a cluster. -/
def State.breakChutes (s : State) (c : Nat) : State :=
  s.yard.plans.foldl (fun (s : State) e =>
    ((List.range e.2.bound.length).zip e.2.bound).foldl (fun (s : State) x =>
      s.breakChute (e.1 / 16) (e.1 % 16) x.1 x.2 c) s) s

/-- The Halter counters whose home is in a cluster go with it, and the waits on them end (R283). -/
def State.dropHalter (s : State) (c : Nat) : State :=
  let sems := s.halter.sems.filter fun e => e.1 / 4096 == c
  let bars := s.halter.bars.filter fun e => e.1 / 512 == c
  let free := (sems.flatMap fun e => e.2.queue.map fun q => (q.1, q.2.1)) ++
    bars.flatMap fun e => e.2.waits.map fun w => ((s.partOfCore w.1).getD 0, Waiter.pre w.1)
  { s with halter := { s.halter with
      sems := tabDrop s.halter.sems fun k => k / 4096 == c
      bars := tabDrop s.halter.bars fun k => k / 512 == c
      released := s.halter.released ++ free } }

/-- A cluster enters reset (R284, R458): its Loft drops every line, its scratch is zeroed, its
sequencers and drover streams end, its chutes break; the partition's step is TARGET_RESET. -/
def State.clusterReset (s : State) (c : Nat) : State :=
  if s.clusterDown c then s
  else
    let s := (s.epochUp (BOOT_EPOCH_CLU (c / 4)) (c % 4)).setBitOf BOOT_INRESET_CLU 0 c true
    let s := s.dropLines c true fun _ => true
    let s := (List.range 8).foldl (fun (s : State) k =>
      ((s.zeroScratch (c * 8 + k)).setFld SEQ_STATUS_RUNNING (c * 8 + k) 0).setFld SEQ_STATUS_CUR_DESC (c * 8 + k)
        0xFFFF) s
    let s := { s with
      seqs := tabDrop s.seqs fun k => k / 8 == c
      suspended := tabDrop s.suspended fun k => k / 8 == c
      yard := { s.yard with ucode := tabDel s.yard.ucode c }
      drovers := tabDrop s.drovers fun k => k / 4 == c }
    let s := (List.range 4).foldl (fun (s : State) d => s.setFld (DRV_STATUS_BUSY d) c 0) s
    let s := (s.breakChutes c).dropHalter c
    let s := s.cancelPf fun g => (s.homeOf g.part (g.line % 2 ^ 38)).1 == c
    match s.partOfCluster c with
    | some p => s.stepReset p
    | none => s

/-- A cluster leaves reset. -/
def State.clusterExit (s : State) (c : Nat) : State := s.setBitOf BOOT_INRESET_CLU 0 c false

/-! ## Shed channels and dies (R303, R456, R459) -/

/-- A shed channel enters reset: the pages and fetches on it (operands of the command) end. -/
def State.shedReset (s : State) (n : Nat) (pages fetches : List (Nat × Nat)) : State :=
  if s.shedDown n then s
  else
    let s := (s.epochUp (BOOT_EPOCH_SHD (n / 4)) (n % 4)).setBitOf BOOT_INRESET_SHD 0 n true
    let s := (s.setFld SHD_STATUS_IN_RESET n 1).setFld SHD_STATUS_READY n 0
    fetches.foldl (fun (s : State) x => s.loseFetch x.1 x.2) (s.shedLose pages)

/-- The links that a die carries (R330). -/
def dieLinks (d : Nat) : List Nat :=
  match d with
  | 0 => [0, 2, 6]
  | 1 => [1, 4, 7]
  | 2 => [3, 8, 9]
  | _ => [5, 10, 11]

/-- A die is in reset. -/
def State.dieDown (s : State) (d : Nat) : Bool := (s.fld BOOT_INRESET_UNIT_DIE).testBit d

/-- The collectives under way of the partitions with a cluster on a die cannot complete (R392). -/
def State.dieColls (s : State) (d : Nat) : State :=
  s.stepping.foldl (fun (s : State) p =>
    if (s.clustersOf p).any fun c => c / 8 == d then match s.stepOf p with
      | some st => st.colls.foldl (fun (s : State) r => s.collReset p r.coll) s
      | none => s
    else s) s

/-- A die enters reset: its clusters, channels, links and Muster engine with it (R456), those already in
reset without a further epoch step (R459). -/
def State.dieReset (s : State) (d : Nat) : State :=
  if s.dieDown d then s
  else
    let s := (s.epochUp BOOT_EPOCH_DIE d).setBitOf BOOT_INRESET_UNIT 0 (24 + d) true
    let s := s.dieColls d
    let s := (List.range 8).foldl (fun (s : State) k => s.clusterReset (8 * d + k)) s
    let s := (List.range 6).foldl (fun (s : State) k => s.channelReset (6 * d + k)) s
    (dieLinks d).foldl (fun (s : State) l => s.linkRetrain l true) s

/-! ## GO (R456, R458, R459) -/

/-- The units of a KIND; 0 for a reserved one. -/
def unitCount (kind : Nat) : Nat :=
  match kind with
  | 1 => 4 | 2 => 32 | 3 => 24 | 4 => 16 | _ => 0

/-- A unit is in reset. -/
def State.unitDown (s : State) (kind i : Nat) : Bool :=
  match kind with
  | 1 => s.dieDown i | 2 => s.clusterDown i | 3 => s.chanDown i | 4 => s.shedDown i | _ => false

/-- A unit enters reset; the landings that a reset peer owes are delivered as poisoned zeros (R194). -/
def State.unitReset (s : State) (kind i : Nat) (pages fetches : List (Nat × Nat))
    (lands : List (Nat × Landing)) : State :=
  let lose := fun (s : State) => fetches.foldl (fun (s : State) x => s.loseFetch x.1 x.2) s
  match kind with
  | 1 => lands.foldl (fun (s : State) x => s.land x.1 x.2 true) (lose (s.dieReset i))
  | 2 => lose (s.clusterReset i)
  | 3 => lose (s.channelReset i)
  | 4 => s.shedReset i pages fetches
  | _ => s

/-- GO, by the owner's write or by order of the Farrier (R468 event 5) (DEDUCED, log entry 55). -/
def unitResetGo (s : State) (val : Word) (far : Bool) (pages fetches : List (Nat × Nat))
    (lands : List (Nat × Landing)) : State :=
  let kind := getBits val 0 3
  let i := getBits val 8 5
  let bad := decide (unitCount kind ≤ i) || s.unitDown kind i || s.clk.off
  if far then
    if bad then s
    else
      let fk := match kind with | 2 => kCluster | 3 => kChan | 4 => kShed | _ => 0
      (s.unitReset kind i pages fetches lands).farLog 5 fk i 0
  else
    let s := (s.setFld BOOT_UNIT_RESET_KIND 0 kind).setFld BOOT_UNIT_RESET_INDEX 0 i
    if !bitOf val 16 then s
    else if bad then s.setFld BOOT_UNIT_RESET_RESULT 0 3
    else (s.setFld BOOT_UNIT_RESET_RESULT 0 1).unitReset kind i pages fetches lands

def execUnitResetGo (val : Word) (far : Bool) (pages : List (Nat × Nat)) (fetches : List (Nat × Nat))
    (lands : List (Part × Landing)) (s : State) : Out :=
  .next (unitResetGo s val far pages fetches (lands.map fun x => (x.1.val, x.2)))

/-! ## The end of a reset (R458 steps 3 and 4) -/

/-- Requests of an earlier epoch of a unit are still under way. -/
def State.oldRequests (s : State) (kind i : Nat) : Bool :=
  match kind with
  | 2 => s.loft.fills.any fun f => f.line / 2 ^ 38 != 0 &&
      (s.homeOf (f.line / 2 ^ 38 - 1) (f.line % 2 ^ 38)).1 == i
  | 3 => s.loft.fills.any fun f => s.chanOfKey f.line == i && f.epoch != s.chanEpoch i
  | _ => false

/-- The parts of a die that are still in reset, those that failed their training apart. -/
def State.dieBusy (s : State) (d : Nat) : Bool :=
  ((List.range 8).any fun k => s.clusterDown (8 * d + k)) ||
    (List.range 6).any fun k => s.chanDown (6 * d + k) && !s.flag GDR_STATUS_FAILED (6 * d + k)

/-- A unit leaves reset, or fails to: a failed one stays there and the Farrier reports it (R295, R444)
(DEDUCED, log entry 55). -/
def unitResetExit (s : State) (kind i : Nat) (ok retained : Bool) : State :=
  if unitCount kind ≤ i ∨ !s.unitDown kind i ∨ s.oldRequests kind i ∨ s.clk.off ∨ s.fld BOOT_STATUS_STAGE ≠ 3 then s
  else
    let done := fun s : State =>
      if s.fld BOOT_UNIT_RESET_RESULT = 1 ∧ s.fld BOOT_UNIT_RESET_KIND = kind ∧ s.fld BOOT_UNIT_RESET_INDEX = i
      then s.setFld BOOT_UNIT_RESET_RESULT 0 2 else s
    match kind with
    | 1 => if s.dieBusy i then s else done (s.setBitOf BOOT_INRESET_UNIT 0 (24 + i) false)
    | 2 => if ok then done (s.clusterExit i) else s.spareOut kCluster i 0
    | 3 => if s.flag GDR_STATUS_FAILED i then s
      else if ok then done (s.channelExit i retained)
      else (s.setFld GDR_STATUS_FAILED i 1).spareOut kChan i 0
    | _ => if tabGet false s.shed.held i then s
      else if ok then done (((s.setFld SHD_STATUS_IN_RESET i 0).setFld SHD_STATUS_READY i 1).setBitOf
        BOOT_INRESET_SHD 0 i false)
      else s.spareOut kShed i 0

def execUnitResetExit (kind : Nat) (index : Nat) (ok : Bool) (retained : Bool) (s : State) : Out :=
  .next (unitResetExit s kind index ok retained)

end Sys2Proof.Machine
end

