-- ==== Sys2Proof/Machine/Clock.lean ====
section
/-! DEFINITION. Clocks, heat, power and the 48 V input (spec/16). -/

namespace Sys2Proof.Machine

/-! ## The root clock (R415 to R420) -/

/-- The root runs from FOSC, directly or through the loop. -/
def State.onFosc (s : State) : Bool := s.clk.root == .fosc || s.clk.root == .clamped

/-- Give the root its source and show the reference in use. -/
def State.setRoot (s : State) (r : Root) (ref : Nat) : State :=
  ({ s with clk := { s.clk with root := r } }).setFld CLK_STATUS_REF 0 ref

/-- The root has gone over to FOSC (R419): every link goes down, every GDDR channel retrains, and there is
no holdover. -/
def State.fabricOut (s : State) : State :=
  let s := (List.range 12).foldl (fun (s : State) l => s.linkRetrain l false) s
  ((List.range 24).foldl (fun (s : State) n => s.channelReset n) s).noHoldover

/-- The root is back on a crystal: the links train again. -/
def State.fabricIn (s : State) : State := (List.range 12).foldl (fun (s : State) l => s.startTrain l) s

/-- The source or loop that a CLK_CTRL word selects is not ready, or isolation mode forbids it (R416)
(DEDUCED, log entry 54). -/
def State.clkRefused (s : State) (val : Word) : Bool :=
  let r := getBits val 0 2
  r == 3 || (r == 0 && !s.flag CLK_STATUS_XA_READY) || (r == 1 && !s.flag CLK_STATUS_XB_READY) ||
    !(if bitOf val 2 then s.flag CLK_STATUS_LOOPB_LOCK else s.flag CLK_STATUS_LOOPA_LOCK) ||
    (s.isolated && (r == 2 || s.onFosc))

/-- A CLK_CTRL word takes effect. -/
def State.applyClk (s : State) (val : Word) : State :=
  let r := getBits val 0 2
  let was := s.onFosc
  let s := (s.setReg CLK_CTRL 0 (val &&& 0xF)).setFld CLK_STATUS_LOOP 0 (getBits val 2 1)
  let s := { s with clk := { s.clk with heldSel := none } }
  if r = 2 then (if was then s else (s.setRoot .fosc 2).fabricOut)
  else
    let s := (s.setRoot .crystal r).setFld CLK_STATUS_FOSC_CLAMP 0 0
    if was then s.fabricIn else s

/-- A write to CLK_CTRL (R416): refused, taken at once, or held to the next plan boundary of every
partition where it leads into or out of FOSC (DEDUCED, log entry 54). -/
def clkCtrlWrite (s : State) (val : Word) : State :=
  if s.clkRefused val then s.setFld CLK_STATUS_SWITCH_REFUSED 0 1
  else if (getBits val 0 2 == 2) == s.onFosc || s.allBoundary then s.applyClk val
  else { s with clk := { s.clk with heldSel := some val } }

def execClkCtrlWrite (val : Word) (s : State) : Out := .next (clkCtrlWrite s val)

/-- A write to CLK_SSC (R422): 11 to 15 ignored, in effect from the next plan boundary. -/
def clkSscWrite (s : State) (val : Word) : State :=
  let n := getBits val 0 4
  if 10 < n then s
  else
    let s := s.setFld CLK_SSC_SPREAD 0 n
    if s.allBoundary then { s with clk := { s.clk with spread := n, heldSpread := none } }
    else { s with clk := { s.clk with heldSpread := some n } }

def execClkSscWrite (val : Word) (s : State) : Out := .next (clkSscWrite s val)

/-- A write to CLK_FREQ_BOUNDS or CLK_PWR_CAP (R425, R430): one out of range is ignored, BOUND_ERR set. -/
def clkBoundsWrite (s : State) (off : Nat) (val : Word) : State :=
  let err := s.setFld CLK_STATUS_BOUND_ERR 0 1
  if off = CLK_FREQ_BOUNDS then
    let lo := getBits val 0 5
    let hi := getBits val 8 5
    if hi < lo ∨ 16 < hi then err
    else (s.setFld CLK_FREQ_BOUNDS_PMIN 0 lo).setFld CLK_FREQ_BOUNDS_PMAX 0 hi
  else if off = CLK_PWR_CAP then
    let w := getBits val 0 16
    if w < 800 ∨ 2400 < w then err else s.setFld CLK_PWR_CAP_WATTS 0 w
  else s

def execClkBoundsWrite (off : Nat) (val : Word) (s : State) : Out := .next (clkBoundsWrite s off val)

/-- A crystal input is ready (R414). -/
def refReady (s : State) (xb : Bool) : State :=
  if s.clk.off then s
  else if xb then s.setFld CLK_STATUS_XB_READY 0 1 else s.setFld CLK_STATUS_XA_READY 0 1

def execClockRefReady (xb : Bool) (s : State) : Out := .next (refReady s xb)

/-- A reference becomes faulty (R417, R418): it is not ready; the selected one raises the clock source,
and the loop takes XB, or holds. Ignored during the sequence of R429. -/
def refFault (s : State) (xb : Bool) : State :=
  if s.flag CLK_STATUS_VIN_WARN || s.clk.off then s
  else
    let inUse := s.clk.root == .crystal && s.fld CLK_STATUS_REF == xb.toNat
    let s := if xb then s.setFld CLK_STATUS_XB_READY 0 0 else s.setFld CLK_STATUS_XA_READY 0 0
    if !inUse then s
    else
      let s := ((s.setFld CLK_STATUS_REF_FAULT 0 1).bump CLK_REF_FAULT_COUNT_COUNT 0).raise 0 66
      if !xb && s.flag CLK_STATUS_XB_READY && s.flag CLK_CTRL_AUTO_FAILOVER then s.setFld CLK_STATUS_REF 0 1
      else (s.setRoot .held 3).noHoldover

def execClockRefFault (xb : Bool) (s : State) : Out := .next (refFault s xb)

/-- At a plan boundary of every partition a held loop goes over to FOSC ÷ 8, but for isolation mode
(R418), and a held CLK_CTRL write takes effect, unless it is refused by now. -/
def State.clockBoundary (s : State) : State :=
  let s := match s.clk.heldSel with
    | some v =>
      let s := { s with clk := { s.clk with heldSel := none } }
      if s.clkRefused v then s.setFld CLK_STATUS_SWITCH_REFUSED 0 1 else s.applyClk v
    | none => s
  let s := if s.clk.root == .held && !s.isolated then
      ((s.setRoot .clamped 2).setFld CLK_STATUS_FOSC_CLAMP 0 1).fabricOut
    else s
  match s.clk.heldSpread with
  | some n => { s with clk := { s.clk with spread := n, heldSpread := none } }
  | none => s

/-- A root loop loses lock (R420), also during the sequence of R429: the root moves to the other loop where that is locked; with neither
the logic runs from FOSC and every operation is INTERNAL until module reset. -/
def lockLoss (s : State) (b : Bool) : State :=
  let mine := if b then CLK_STATUS_LOOPB_LOCK else CLK_STATUS_LOOPA_LOCK
  let other := if b then CLK_STATUS_LOOPA_LOCK else CLK_STATUS_LOOPB_LOCK
  if s.clk.off || !s.flag mine then s
  else
    let s := (s.setFld mine 0 0).setFld FAR_SPARES_LOOP_B 0 0
    if s.flag other then
      if s.fld CLK_STATUS_LOOP = b.toNat then
        (s.setFld CLK_STATUS_LOOP 0 (!b).toNat).spareIn kLoop b.toNat b.toNat true 0
      else s
    else
      let s := { s with clk := { s.clk with lostRoot := true } }
      let s := (s.setRoot .fosc 2).farLog 6 kLoop b.toNat 1
      (s.internalRecord 0 1).fabricOut

def execLoopLockLoss (b : Bool) (s : State) : Out := .next (lockLoss s b)

/-- A unit's clock is gated (R421): units 4 × core + 0 to 3 are its tensor, vector and SFU engines and its
sequencer, 1,024 + d drover d. It changes nothing a command can see (DESIGN CHOICE, log entry 60). -/
def execClockGate (unit : Fin 1152) (s : State) : Out :=
  .next { s with clk := { s.clk with gated := tabPut s.clk.gated unit true } }

/-- The units of a core are woken before its sequencer issues (R421). -/
def State.wake (s : State) (units : List Nat) : State :=
  if s.clk.gated.isEmpty then s
  else { s with clk := { s.clk with gated := tabDrop s.clk.gated units.contains } }

/-! ## Operating points (R424, R425, R506) -/

/-- The point of a die (R424). -/
def State.diePoint (s : State) (d : Nat) : Nat := getBits (s.reg CLK_DIE_POINT) (8 * d) 5

/-- Put a die at a point. -/
def State.setPoint (s : State) (d x : Nat) : State :=
  s.setReg CLK_DIE_POINT 0 (setBits (s.reg CLK_DIE_POINT) (8 * d) 5 x)

/-- The point the power loop holds for a die. -/
def State.heldPoint (s : State) (d : Nat) : Nat := tabGet 16 s.clk.loopPoint d

/-- The cap in force (R506). -/
def State.powerCap (s : State) : Nat :=
  let b := s.fld MBS_BOARD_CAP_WATTS
  let c := s.fld CLK_PWR_CAP_WATTS
  if b = 0 then c else min b c

/-- A clamp: counted, CLAMP set. -/
def State.clamp (s : State) (low : Bool) : State :=
  (s.bump (if low then CLK_CLAMP_LOW_COUNT else CLK_CLAMP_HIGH_COUNT) 0).setFld CLK_STATUS_CLAMP 0 1

/-- One decision of the power loop for a die (R425): a step of at most one point within PMIN and PMAX.
`fail`: the regulator's write failed, or its bus is isolated, and the point stays (R509, R510). -/
def State.powerLoop (s : State) (d watts : Nat) (fail : Bool) : State :=
  let cap := s.powerCap
  let hot := tabGet false s.clk.hot d
  let above := hot || decide (cap < watts)
  let low := !hot && decide (watts * 100 < cap * 95)
  let n := if low then min (tabGet 0 s.clk.below d + 1) 8 else 0
  let s := { s with clk := { s.clk with below := tabSet 0 s.clk.below d n } }
  let x := s.heldPoint d
  let stuck := s.isolated || s.flag CLK_STATUS_FOSC_CLAMP
  let move := fun (s : State) y =>
    if fail || s.flag MBS_STATUS_ISOLATED then s
    else
      let s := { s with clk := { s.clk with loopPoint := tabSet 16 s.clk.loopPoint d y } }
      if (tabFind s.clk.emerg d).isSome || tabGet false s.clk.restore d then s else s.setPoint d y
  if above then
    if stuck then s.clamp true
    else if x ≤ s.fld CLK_FREQ_BOUNDS_PMIN then (s.clamp true) else move s (x - 1)
  else if n = 8 then
    if stuck then s.clamp false
    else if s.fld CLK_FREQ_BOUNDS_PMAX ≤ x then (s.clamp false) else move s (x + 1)
  else s

/-- The partitions with clusters on a die. -/
def State.partsOnDie (s : State) (d : Nat) : List Nat :=
  (List.range 32).filter fun p => (s.clustersOf p).any fun c => c / 8 == d

/-- A die whose emergency has ended returns to the point the power loop holds, at a plan boundary of every
partition on it (R427). -/
def State.restorePoint (s : State) (d : Nat) : State :=
  if tabGet false s.clk.restore d && (s.partsOnDie d).all s.atBoundary then
    ({ s with clk := { s.clk with restore := tabDel s.clk.restore d } }).setPoint d (s.heldPoint d)
  else s

/-! ## Heat (R426, R427) -/

/-- A die in thermal emergency: at once at point 0, with the event and the thermal source. -/
def State.emergency (s : State) (d : Nat) : State :=
  if (tabFind s.clk.emerg d).isSome then s
  else
    let s := { s with clk := { s.clk with
      emerg := tabPut s.clk.emerg d 1, restore := tabDel s.clk.restore d } }
    let s := if d < 4 then s.setPoint d 0 else s
    let s := (s.setFld CLK_STATUS_EMERG 0 1).setFld CLK_STATUS_EMERG_EVENT 0 1
    ((s.bump CLK_EMERG_COUNT_COUNT 0).raise 0 67).alertCheck

/-- The junction samples of C0 to C3 and the IO die (R426): from 95 °C the power loop takes the die as
above its cap, from 105 °C emergency, from 115 °C the trip. -/
def thermalSample (s : State) (temps : List Nat) : State :=
  if s.clk.off then s
  else
    let at_ := fun d => min (temps.getD d 0) 255
    let ds := List.range 5
    let s := { s with clk := { s.clk with
      temps := ds.foldl (fun t d => tabPut t d (at_ d)) s.clk.temps
      hot := ds.foldl (fun t d => tabSet false t d (decide (95 ≤ at_ d))) s.clk.hot } }
    let s := s.setReg CLK_TEMP 0 (BitVec.ofNat 32 (at_ 0 + 256 * at_ 1 + 65536 * at_ 2 + 16777216 * at_ 3))
    let s := s.setFld CLK_TEMP_IO_DEG_C 0 (at_ 4)
    match ds.find? fun d => decide (115 ≤ at_ d) with
    | some d => ({ s with clk := { s.clk with trip := some d } }).powerCut
    | none =>
      if s.flag CLK_STATUS_VIN_WARN then s
      else (ds.filter fun d => decide (105 ≤ at_ d)).foldl (fun (s : State) d => s.emergency d) s

def execThermalSample (temps : List Nat) (s : State) : Out := .next (thermalSample s temps)

/-- Still above 105 °C after 1 ms: the die's sequencers issue on every other core clock (R427). -/
def execEmergencyThrottle (die : Fin 5) (s : State) : Out :=
  .next (if tabGet 0 s.clk.emerg die = 1 ∧ 105 < tabGet 0 s.clk.temps die then
      { s with clk := { s.clk with emerg := tabPut s.clk.emerg die 2 } }
    else s)

/-- 100 ms below 95 °C: the emergency ends, and the die's point waits for a boundary (R427). -/
def emergencyEnd (s : State) (d : Nat) : State :=
  if (tabFind s.clk.emerg d).isNone ∨ 95 ≤ tabGet 0 s.clk.temps d then s
  else
    let s := { s with clk := { s.clk with emerg := tabDel s.clk.emerg d } }
    let s := if s.clk.emerg.isEmpty then (s.setFld CLK_STATUS_EMERG 0 0).alertCheck else s
    if d < 4 then
      ({ s with clk := { s.clk with restore := tabPut s.clk.restore d true } }).restorePoint d
    else s

def execEmergencyEnd (die : Fin 5) (s : State) : Out := .next (emergencyEnd s die)

/-! ## The 48 V input (R429) -/

/-- The sequence of R429 begins: nothing starts any more, the power source is raised, and the shed and
Nynik finish what is past step 2. -/
def State.vinWarn (s : State) : State := ((s.setFld CLK_STATUS_VIN_WARN 0 1).raise 0 68).alertCheck

/-- A sample of VIN, every 1 µs, in 10 mV. -/
def vinSample (s : State) (v : Nat) : State :=
  if s.clk.off then s
  else
    let s := s.setFld CLK_VIN_VOLTS 0 v
    if s.flag CLK_STATUS_VIN_WARN then s
    else
      let low := if v < 3800 then s.clk.vinLow + 1 else 0
      let high := if 6200 < v then s.clk.vinHigh + 1 else 0
      let s := if low = 0 ∧ s.clk.vinLow ≠ 0 then s.bump CLK_VIN_DIP_COUNT_COUNT else s
      let s := { s with clk := { s.clk with vinLow := low, vinHigh := high } }
      if 10 ≤ high then ({ s with clk := { s.clk with disconnected := true } }).vinWarn
      else if 20 ≤ low then s.vinWarn
      else s

def execVinSample (v : Nat) (s : State) : Out := .next (vinSample s v)

/-- The hold-up has ended (step 4): the regulators are off, and VIN_WARN stays shown. The writes of shed pages past
step 2 were carried through to step 6 in time; those at step 1 are dropped with everything volatile (R303). -/
def vinHoldupEnd (s : State) : State :=
  if !s.flag CLK_STATUS_VIN_WARN || s.clk.off then s
  else s.commitStaged.powerCut.setFld CLK_STATUS_VIN_WARN 0 1

def execVinHoldupEnd (s : State) : Out := .next (vinHoldupEnd s)

/-- VIN has been above 42 V for 100 ms (step 5): module reset. -/
def execVinRecovery (s : State) : Out :=
  .next (if s.clk.off && s.flag CLK_STATUS_VIN_WARN then s.moduleReset 2 else s)

end Sys2Proof.Machine
end

