-- ==== Sys2Proof/Machine/Boot.lean ====
section
/-! DEFINITION. Start-up, firmware images and the settings log (spec/18 R443 to R455). -/

namespace Sys2Proof.Machine

/-! ## The causes of a module reset (R443, R460) -/

/-- Power comes on: cause 0, or 5 where the regulators had gone off at a thermal trip (R426). -/
def powerOn (s : State) : State :=
  if s.clk.off && s.clk.trip.isSome then s.moduleReset 5 else s.moduleReset 0

def execPowerOn (s : State) : Out := .next (powerOn s)

/-- PERST# is asserted; without regulators nothing notices. -/
def execPerstAssert (s : State) : Out :=
  .next (if s.clk.off then s
    else ({ s with mbs := { s.mbs with perst := true } }).moduleReset 1)

/-- Nynik has not been served for 2 s. -/
def execNynikWatchdog (s : State) : Out :=
  .next (if s.clk.off || s.boot.inReset then s else s.moduleReset 4)

/-! ## Image slots (R446 to R449) -/

/-- A slot: 0 A, 1 B. -/
def State.slot (s : State) (x : Nat) : FlashSlot := if x = 0 then s.boot.slotA else s.boot.slotB

/-- Give a slot its contents. -/
def State.setSlot (s : State) (x : Nat) (f : FlashSlot) : State :=
  if x = 0 then { s with boot := { s.boot with slotA := f } }
  else { s with boot := { s.boot with slotB := f } }

/-- The header of a slot is valid (R446), with the security version and the key (R449). -/
def State.imageValid (s : State) (f : FlashSlot) : Bool :=
  f.valid && decide (s.boot.fusedMin ≤ f.secVer) && (f.prod || s.boot.debugFuse)

/-- Eligible in R448. -/
def State.eligible (s : State) (x : Nat) : Bool :=
  let f := s.slot x
  f.installed && !f.bad && !f.incompat && s.imageValid f

/-- The slot of two with the highest INSTALL_SEQ that satisfies `q`. -/
def State.newest (s : State) (q : Nat → Bool) : Option Nat :=
  match [0, 1].filter q with
  | [] => none
  | x :: ys => some (ys.foldl (fun a b => if (s.slot a).seq < (s.slot b).seq then b else a) x)

/-- The ROM's choice (R448): slots tried and not good turn BAD; an untried eligible slot is tried, else a
good one boots. `unread` lists slots whose header or body fails a check as it is read to boot: such a
slot is marked BAD and the choice made again. -/
def State.romChoice (s : State) (unread : List Nat) : Nat → Option Nat × State
  | 0 => (none, s)
  | n + 1 =>
    let pick := match s.newest fun x => s.eligible x && !(s.slot x).tried with
      | some x => some x
      | none => s.newest fun x => s.eligible x && (s.slot x).good
    match pick with
    | none => (none, s)
    | some x =>
      let s := s.setSlot x { s.slot x with tried := true }
      if unread.contains x then (s.setSlot x { s.slot x with bad := true }).romChoice unread n
      else (some x, s)

/-- The first line of R448. -/
def State.romBad (s : State) : State :=
  [0, 1].foldl (fun (s : State) x =>
    let f := s.slot x
    if f.tried && !f.good && !f.bad then s.setSlot x { f with bad := true } else s) s

/-- The running slot. -/
def State.running (s : State) : Nat := s.fld BOOT_STATUS_SLOT

/-- OTHER_ELIGIBLE follows the flash. -/
def State.refreshOther (s : State) : State :=
  s.setFld BOOT_STATUS_OTHER_ELIGIBLE 0 (s.eligible (1 - s.running)).toNat

/-! ## The settings log (R451 to R454) -/

/-- The active bank of a slot: complete, with the higher BANK_SEQ. -/
def FlashSlot.activeOne (f : FlashSlot) : Bool :=
  f.bank1.complete && (!f.bank0.complete || decide (f.bank0.seq < f.bank1.seq))
def FlashSlot.active (f : FlashSlot) : Bank := if f.activeOne then f.bank1 else f.bank0

/-- Change the active bank. -/
def FlashSlot.updActive (f : FlashSlot) (g : Bank → Bank) : FlashSlot :=
  if f.activeOne then { f with bank1 := g f.bank1 } else { f with bank0 := g f.bank0 }

/-- The bytes a record takes (R452). -/
def recordSize (len : Nat) : Nat := roundUp (16 + roundUp len 16 + 5) 16

/-- The bytes of a bank. -/
abbrev bankBytes : Nat := 8 * 2 ^ 20

/-- Append a record to a bank; one with a wrong CRC is counted at the next start-up (R453). -/
def Bank.append (b : Bank) (cls ver inst : Nat) (payload : List Byte) (bad : Bool) : Bank :=
  let seq := (b.recs.foldl (fun m r => max m r.seq) 0) + 1
  let used := b.used + recordSize payload.length
  if bankBytes < used then b
  else if bad then { b with torn := b.torn + 1, used := used }
  else { b with recs := b.recs ++ [⟨cls, ver, inst, payload, seq⟩], used := used }

/-- The live record of a class and instance: the last one, unless it deletes (R452). -/
def Bank.live (b : Bank) (cls inst : Nat) : Option SettingsRec :=
  match (b.recs.filter fun r => r.cls == cls && r.inst == inst).getLast? with
  | some r => if r.payload.isEmpty then none else some r
  | none => none

/-- The live records in their old order (R454 step 3). -/
def Bank.liveRecs (b : Bank) : List SettingsRec := b.recs.filter fun r => b.live r.cls r.inst == some r

/-- A compacted bank: live records renumbered from 1. -/
def Bank.compact (b : Bank) : Bank :=
  let rs := b.liveRecs
  { seq := b.seq + 1, complete := true
    recs := ((List.range rs.length).zip rs).map fun x => { x.2 with seq := x.1 + 1 }
    torn := 0
    used := rs.foldl (fun n r => n + recordSize r.payload.length) 64 }

/-- An erased bank. -/
def Bank.blank : Bank := ⟨0, false, [], 0, 0⟩

/-- BOOT_LOG_USED follows the active bank. -/
def State.refreshLog (s : State) : State :=
  s.setFld BOOT_LOG_USED_KIB 0 ((s.slot s.running).active.used / 1024)

/-- The registers of a settings class, in the order of its payload (R453; DESIGN CHOICE, log entry 14). -/
def classRegs (cls : Nat) : List Nat :=
  match cls with
  | 1 => [CLK_CTRL, CLK_SSC, CLK_FREQ_BOUNDS, CLK_PWR_CAP, CLK_IO]
  | 2 => [HLK_ADDR, HLK_DIMS, YTM_CTRL, YTM_PIN_DELAY, YTM_PTP_ORIGIN_LO, YTM_PTP_ORIGIN_HI]
  | 3 => (List.range 32).flatMap fun i => [MUS_XQP_LOCAL i, MUS_XQP_REMOTE i]
  | 4 => [PRT_OWNER_LINES]
  | _ => []

/-- The payload of a class: its registers as they are. -/
def State.classBytes (s : State) (cls : Nat) : List Byte :=
  (classRegs cls).flatMap fun r => leBytes 4 (s.reg r).toNat

/-- Nynik writes a class (R453). -/
def State.saveClass (s : State) (cls : Nat) (bad : Bool) : State :=
  let x := s.running
  s.setSlot x ((s.slot x).updActive fun b => b.append cls 1 0 (s.classBytes cls) bad)

/-- A write to BOOT_SAVE (R453): the classes of its bits, lowest first; no record is begun before READY or
after a warning of input loss. -/
def bootSave (s : State) (val : Word) (bad : Bool) : State :=
  if s.fld BOOT_STATUS_STAGE ≠ 3 ∨ s.flag CLK_STATUS_VIN_WARN then s
  else ((List.range 4).foldl (fun (s : State) k =>
    if bitOf val k then s.saveClass (k + 1) bad else s) s).refreshLog

def execBootSave (val : Word) (bad : Bool) (s : State) : Out := .next (bootSave s val bad)

/-- Compaction (R454), once less than 64 KiB of the active bank is free. -/
def compaction (s : State) : State :=
  let x := s.running
  let f := s.slot x
  if s.fld BOOT_STATUS_STAGE ≠ 3 ∨ s.flag CLK_STATUS_VIN_WARN ∨ f.active.used + 65536 ≤ bankBytes then s
  else
    let b := f.active.compact
    let f' := if f.activeOne then { f with bank0 := b, bank1 := Bank.blank }
      else { f with bank1 := b, bank0 := Bank.blank }
    ((s.setSlot x f').bump BOOT_COMPACTIONS_COUNT 0).refreshLog

def execSettingsCompaction (s : State) : Out := .next (compaction s)

/-! ## Settings at start-up (R444 step 7, R455) -/

/-- Write a saved word into its register, as the register takes it: the clock settings under R416 and
R422, YTM_CTRL under R346. -/
def State.applySaved (s : State) (off : Nat) (v : Word) : State :=
  if off = CLK_CTRL then clkCtrlWrite s v
  else if off = CLK_SSC then clkSscWrite s v
  else if off = CLK_FREQ_BOUNDS ∨ off = CLK_PWR_CAP then clkBoundsWrite s off v
  else if off = YTM_CTRL then ytmCtrlWrite s v
  else s.writeRw off 0 v

/-- The live value of a class goes into its registers. -/
def State.applyClass (s : State) (cls : Nat) : State :=
  match ((s.slot s.running).active).live cls 0 with
  | none => s
  | some r =>
    let regs := classRegs cls
    ((List.range regs.length).zip regs).foldl (fun (s : State) x =>
      s.applySaved x.2 (BitVec.ofNat 32 (fieldAt r.payload (4 * x.1) 4))) s

/-- How the running firmware reads records of a class and version (R455): it cannot, or it translates an
instance into a payload at a version of its own. -/
structure Parsing where
  fails : List (Nat × Nat)
  translates : List (Nat × Nat × Nat × List Byte)
deriving DecidableEq, Repr

/-- The first record that cannot be parsed; unknown classes with OPTIONAL set are kept unused (DEDUCED,
log entry 57). -/
def Bank.firstFail (b : Bank) (q : Parsing) : Option SettingsRec :=
  b.recs.find? fun r => decide (r.cls < 2 ^ 15) && q.fails.contains (r.cls, r.ver)

/-- Records at Nynik's own version for each translated class and instance (DEDUCED, log entry 57). -/
def State.translate (s : State) (q : Parsing) : State :=
  let x := s.running
  q.translates.foldl (fun (s : State) t =>
    match ((s.slot x).active).live t.1 t.2.1 with
    | none => s
    | some _ => s.setSlot x ((s.slot x).updActive fun b => b.append t.1 t.2.2.1 t.2.1 t.2.2.2 false)) s

/-! ## Start-up (R444) -/

/-- The identity record is good (R516). -/
def identityGood (bs : List Byte) : Bool :=
  fieldAt bs 0 4 == 0x44495856 && crc32 (sliceBytes bs 0 252) == fieldAt bs 252 4

/-- Step 6: a crystal and the loops, or FOSC with FOSC_CLAMP. -/
def State.startClocks (s : State) (xa xb : Bool) : State :=
  let s := (s.setFld CLK_STATUS_XA_READY 0 xa.toNat).setFld CLK_STATUS_XB_READY 0 xb.toNat
  let s := (s.setFld CLK_STATUS_LOOPA_LOCK 0 1).setFld CLK_STATUS_LOOPB_LOCK 0 1
  if xa || xb then
    (s.setRoot .crystal (!xa).toNat).setFld CLK_CTRL_REF_SEL 0 (!xa).toNat
  else (s.setRoot .clamped 2).setFld CLK_STATUS_FOSC_CLAMP 0 1

/-- Step 8: channels and shed come up, but those that fail stay in reset and are reported; links train. -/
def State.startMemory (s : State) (chans sheds : List Nat) : State :=
  let s := (List.range 24).foldl (fun (s : State) n =>
    if chans.contains n then
      ((s.setFld GDR_STATUS_FAILED n 1).setBitOf BOOT_INRESET_UNIT 0 n true).spareOut kChan n 0
    else (s.setFld GDR_STATUS_IN_RESET n 0).setFld GDR_STATUS_TRAINED n 1) s
  let bad := s.flag MBS_STATUS_ID_BAD
  let s := (List.range 16).foldl (fun (s : State) n =>
    if bad || sheds.contains n then
      let s := { s.memEvent 6 with shed := { s.shed with held := tabPut s.shed.held n true } }
      (s.setBitOf BOOT_INRESET_SHD 0 n true).spareOut kShed n 0
    else (s.setFld SHD_STATUS_IN_RESET n 0).setFld SHD_STATUS_READY n 1) s
  (List.range 12).foldl (fun (s : State) l => s.startTrain l) s

/-- Nynik runs from a slot (steps 5 to 9). Settings it cannot read reset the module with cause 6. -/
def State.boot1 (s : State) (x : Nat) (xa xb : Bool) (q : Parsing) (chans sheds : List Nat) : State :=
  let f := s.slot x
  let s := (s.setFld BOOT_STATUS_SLOT 0 x).setFld BOOT_STATUS_CONFIRMED 0 f.good.toNat
  let s := (s.setReg BOOT_VERSION 0 (BitVec.ofNat 32 f.version)).setFld BOOT_SECVER_RUNNING 0 f.secVer
  let s := (s.setFld PRT_MODE_SIGNED 0 f.prod.toNat).refreshOther
  let s := s.startClocks xa xb
  let torn := f.active.torn
  let s := if torn = 0 then s else (s.bump BOOT_LOG_BAD_COUNT 0 torn).setFld BOOT_STATUS_SETTINGS_ERR 0 1
  match f.active.firstFail q with
  | some r =>
    let s := s.setSlot x { f with incompat := true }
    let s := (s.setFld BOOT_SETTINGS_ERR_CLASS 0 r.cls).setFld BOOT_SETTINGS_ERR_VERSION 0 r.ver
    (s.setFld BOOT_STATUS_SETTINGS_ERR 0 1).moduleReset 6
  | none =>
    let s := (s.translate q).refreshLog
    let s := [1, 2, 3, 4].foldl (fun (s : State) c => s.applyClass c) s
    let s := s.setFld MBS_STATUS_ID_BAD 0 (!identityGood s.mbs.identity).toNat
    let s := (s.startMemory chans sheds).setFld BOOT_STATUS_STAGE 0 3
    let s := if s.fld BOOT_LAST_CAUSE = 5 then s.raise 0 67 else s
    s.alertCheck

/-- Start-up from the release of reset to READY, or to RECOVERY where no slot can be booted. -/
def startup (s : State) (unread : List Nat) (xa xb : Bool) (q : Parsing) (chans sheds : List Nat) : State :=
  if !s.boot.inReset || s.clk.off then s
  else
    let s := { s with
      boot := { s.boot with inReset := false }, clk := { s.clk with ccOn := true }
      mbs := { s.mbs with perst := false } }
    let s := (s.setFld MBS_TARGET_ADDR 0 (0x58 + s.mbs.straps)).setFld BOOT_SECVER_FUSED_MIN 0 s.boot.fusedMin
    match s.romBad.romChoice unread 3 with
    | (some x, s) => s.boot1 x xa xb q chans sheds
    | (none, s) => s.setFld BOOT_STATUS_STAGE 0 4

def execStartup (unread : List (Fin 2)) (xa : Bool) (xb : Bool) (fails : List (Nat × Nat))
    (translates : List (Nat × Nat × Nat × List Byte)) (chans : List ChanId) (sheds : List ShedChan)
    (s : State) : Out :=
  .next (startup s (unread.map (·.val)) xa xb ⟨fails, translates⟩ (chans.map (·.val)) (sheds.map (·.val)))

/-! ## BOOT_CTRL (R449, R460) -/

/-- CONFIRM: the running slot is GOOD, and the fused minimum rises to its security version. -/
def State.confirm (s : State) : State :=
  if s.fld BOOT_STATUS_STAGE ≠ 3 then s
  else
    let x := s.running
    let f := s.slot x
    let s := (s.setSlot x { f with good := true }).setFld BOOT_STATUS_CONFIRMED 0 1
    let m := max s.boot.fusedMin f.secVer
    let s := { s with boot := { s.boot with fusedMin := m } }
    (s.setFld BOOT_SECVER_FUSED_MIN 0 m).refreshOther

/-- A write to BOOT_CTRL: CONFIRM, and MODULE_RESET with its key. -/
def bootCtrlWrite (s : State) (val : Word) : State :=
  let s := if bitOf val 0 then s.confirm else s
  if bitOf val 1 && getBits val 16 16 == 0xB007 then s.moduleReset 3 else s

def execConfirm (val : Word) (s : State) : Out := .next (bootCtrlWrite s (setBits val 0 1 1))

def execModuleReset (val : Word) (s : State) : Out := .next (bootCtrlWrite s (setBits val 1 1 1))

/-! ## Installing an image (R450) -/

/-- The fields and reserved bytes of an image header are as R446 shows; hashes and signature apart. -/
def headerShape (h : List Byte) : Bool :=
  let zero := fun a b => (sliceBytes h a (b - a)).all (· == 0)
  fieldAt h 0 4 == 0x4D495856 && fieldAt h 4 2 == 1 && decide (fieldAt h 6 1 ≤ 3) && zero 7 8 &&
    zero 14 16 && zero 68 256 && zero 353 416 &&
    decide (4096 ≤ fieldAt h 16 4 ∧ fieldAt h 16 4 ≤ 32 * 2 ^ 20) && fieldAt h 16 4 % 4096 == 0 &&
    (sliceBytes h 512 3584).all (· == 0xFF)

/-- The slot that an install goes into. -/
def State.installTarget (s : State) : Nat :=
  if s.fld BOOT_STATUS_STAGE = 4 then (if s.boot.slotA.good then 1 else 0) else 1 - s.running

/-- START (R450): refused with a reason, or the state sector of the target is erased and the install goes
on; a BOOT_FW_LEN of 0 leaves no header to check (log entry 57). `sigOk`: the key is fused and not revoked and the signature and body hash verify; `prod`: a
production key. -/
def installStart (s : State) (val : Word) (sigOk prod : Bool) : State :=
  let stage := s.fld BOOT_STATUS_STAGE
  let status := fun (s : State) n => s.setFld BOOT_FW_CMD_FW_STATUS 0 n
  if !bitOf val 0 ∨ (stage ≠ 3 ∧ stage ≠ 4) then s
  else if s.boot.install.isSome then status s 7
  else
    let h := s.readHost (s.reg64 BOOT_FW_ADDR_LO) 4096
    let len := s.fld BOOT_FW_LEN_BYTES
    if len = 0 then status s 5
    else if !headerShape h || !sigOk || !(prod || s.boot.debugFuse) then status s 3
    else if fieldAt h 12 2 < s.boot.fusedMin then status s 4
    else if len ≠ 4096 + fieldAt h 16 4 then status s 5
    else
      let x := s.installTarget
      let f := s.slot x
      let s := s.setSlot x { f with
        seq := 0, installed := false, tried := false, good := false, bad := false, incompat := false }
      let s := { s with boot := { s.boot with
        install := some ⟨x, fieldAt h 8 4, fieldAt h 12 2, prod⟩ } }
      (status s 1).refreshOther

def execFwInstallStart (val : Word) (sigOk : Bool) (prod : Bool) (s : State) : Out :=
  .next (installStart s val sigOk prod)

/-- The install ends (R450 steps 3 to 6): the image, the running slot's live settings in bank 0,
INSTALL_SEQ and INSTALLED; or a program or erase failed and the slot is left ineligible. -/
def installComplete (s : State) (ok : Bool) : State :=
  match s.boot.install with
  | none => s
  | some i =>
    let s := { s with boot := { s.boot with install := none } }
    if !ok then s.setFld BOOT_FW_CMD_FW_STATUS 0 6
    else
      let recovery := s.fld BOOT_STATUS_STAGE = 4
      let run := s.slot (1 - i.slot)
      let b := if recovery then ({ Bank.blank with complete := true, used := 64 } : Bank)
        else { run.active.compact with seq := 0 }
      let f : FlashSlot :=
        { valid := true, version := i.version, secVer := i.secVer, prod := i.prod, seq := run.seq + 1
          installed := true, tried := false, good := false, bad := false, incompat := false
          bank0 := b, bank1 := Bank.blank }
      ((s.setSlot i.slot f).setFld BOOT_FW_CMD_FW_STATUS 0 2).refreshOther

def execFwInstallComplete (ok : Bool) (s : State) : Out := .next (installComplete s ok)

end Sys2Proof.Machine
end

