-- ==== Sys2Proof/Machine/Mbs.lean ====
section
/-! DEFINITION. The management buses and JTAG (spec/21 R504 to R511). A command is a whole transaction;
the bytes it returned stand in `host.lastRead` (none where the target did not answer). -/

namespace Sys2Proof.Machine

/-- What a management-bus or JTAG transaction returned. -/
def State.answer (s : State) (bs : List Nat) : State := { s with host := { s.host with lastRead := bs } }

/-- A board controller's violation (R507). -/
def State.mbsViol (s : State) (code value : Nat) : State :=
  let s := s.bump MBS_VIOL_COUNT_COUNT 0
  let s := if s.flag MBS_STATUS_VIOL then s
    else (s.setFld MBS_VIOL_CODE_CODE 0 code).setFld MBS_VIOL_VALUE_VALUE 0 value
  (s.setFld MBS_STATUS_VIOL 0 1).raise 0 72

/-- The target answers a command: not from the end of the hold-up to the next start-up (R508), and before READY only
STATUS and IDENTITY (R505). -/
def State.smbAnswers (s : State) (cmd : Nat) : Bool :=
  !s.clk.off && !(s.boot.inReset && s.fld BOOT_LAST_CAUSE == 2) && (s.fld BOOT_STATUS_STAGE == 3 || cmd == 0 || decide (0x10 ≤ cmd ∧ cmd ≤ 0x17))

/-- Read `data` from a command, or write to it where it is read-only; `extra` bytes more than it returns
are read as 0xFF (R507). -/
def State.smbRead (s : State) (cmd : Nat) (data : List Nat) (write : Bool) (extra : Nat) : State :=
  if !s.smbAnswers cmd then s.answer []
  else if write then (s.answer []).mbsViol 0x04 cmd
  else
    let s := s.answer (data ++ List.replicate extra 0xFF)
    if extra = 0 then s else s.mbsViol 0x07 (data.length + extra)

/-- A number as two bytes. -/
def word2 (n : Nat) : List Nat := [n % 256, n / 256 % 256]

/-- STATUS: the read releases ALERT#, unless a change falls in the same cc. -/
def smbStatusRead (s : State) (write : Bool) (extra : Nat) (change : Bool) : State :=
  let t := s.smbRead 0 (word2 s.smbStatus) write extra
  if write || !s.smbAnswers 0 then t
  else { t with mbs := { t.mbs with alert := change, watched := s.smbStatus &&& alertMask } }

def execSmbStatus (write : Bool) (extra : Nat) (change : Bool) (s : State) : Out :=
  .next (smbStatusRead s write extra change)

/-- TEMP_MAX: the highest junction of the five dies. -/
def execSmbTempMax (write : Bool) (extra : Nat) (s : State) : Out :=
  .next (s.smbRead 1 [s.clk.temps.foldl (fun m t => max m t.2) 0] write extra)

/-- POWER: the 1 ms input power, as the monitor measures it now. -/
def execSmbPower (write : Bool) (extra : Nat) (watts : Nat) (s : State) : Out :=
  .next (if s.clk.off then s.answer []
    else
      let s := s.setFld CLK_PWR_NOW_WATTS 0 watts
      s.smbRead 2 (word2 (s.fld CLK_PWR_NOW_WATTS)) write extra)

def execSmbVin (write : Bool) (extra : Nat) (s : State) : Out :=
  .next (s.smbRead 3 (word2 (s.fld CLK_VIN_VOLTS)) write extra)

/-- COOLANT: what the sensors of the on-module bus read; 0 while that bus is isolated (R510). -/
def execSmbCoolant (write : Bool) (extra : Nat) (inlet : Byte) (outlet : Byte) (s : State) : Out :=
  .next (if s.clk.off then s.answer []
    else
      let live := !s.flag MBS_STATUS_ISOLATED
      let s := (s.setFld MBS_COOLANT_INLET 0 (if live then inlet.toNat else 0)).setFld MBS_COOLANT_OUTLET 0
        (if live then outlet.toNat else 0)
      s.smbRead 4 [s.fld MBS_COOLANT_INLET, s.fld MBS_COOLANT_OUTLET] write extra)

def execSmbBoardCapRead (extra : Nat) (s : State) : Out :=
  .next (s.smbRead 8 (word2 (s.fld MBS_BOARD_CAP_WATTS)) false extra)

/-- One bit of the packet error code: CRC-8 with polynomial x⁸ + x² + x + 1 (SMBus; PRESUMED, log entry
15). -/
def pecBit (c : Nat) : Nat := if 128 ≤ c then (2 * c) % 256 ^^^ 7 else 2 * c

/-- The packet error code of a transaction's bytes. -/
def pecOf (bs : List Nat) : Nat :=
  bs.foldl (fun c b => pecBit (pecBit (pecBit (pecBit (pecBit (pecBit (pecBit (pecBit (c ^^^ b % 256))))))))) 0

/-- BOARD_CAP written (R506, R507). `cut`: only so many data bytes arrive; then the transaction ends (or,
with `hang`, SCL stays low). Of two violations the lower code is logged (R521). -/
def boardCapWrite (s : State) (v : Nat) (pec : Option Nat) (cut : Option Nat) (hang : Bool) : State :=
  let v := v % 65536
  if !s.smbAnswers 8 then s.answer []
  else match cut with
    | some n =>
      if hang then { s with mbs := { s.mbs with inWrite := some (8, n) } } else s.mbsViol 0x06 n
    | none =>
      let wrong := match pec with
        | some c => c % 256 != pecOf [2 * s.fld MBS_TARGET_ADDR, 8, v % 256, v / 256]
        | none => false
      if wrong then s.mbsViol 0x02 (pec.getD 0 % 256)
      else if v ≠ 0 ∧ (v < 800 ∨ 2400 < v) then s.mbsViol 0x03 v
      else s.setFld MBS_BOARD_CAP_WATTS 0 v

def execSmbBoardCapWrite (v : Nat) (pec : Option Nat) (cut : Option (Fin 2)) (hang : Bool) (s : State) : Out :=
  .next (boardCapWrite s v pec (cut.map (·.val)) hang)

/-- IDENTITY (R505, R516): 32 bytes of the identity record. -/
def execSmbIdentity (k : Fin 8) (write : Bool) (extra : Nat) (s : State) : Out :=
  .next (s.smbRead (0x10 + k) ((sliceBytes (s.mbs.identity) (32 * k) 32).map (·.toNat)) write extra)

/-- The commands of R505. -/
def smbKnown (cmd : Nat) : Bool := decide (cmd ≤ 4) || cmd == 8 || decide (0x10 ≤ cmd ∧ cmd ≤ 0x17)

/-- A reserved command is NACKed: violation 0x01, but not before READY. -/
def execSmbReservedCommand (cmd : Nat) (s : State) : Out :=
  .next (if smbKnown (cmd % 256) then s
    else
      let s := s.answer []
      if s.smbAnswers cmd then s.mbsViol 0x01 (cmd % 256) else s)

/-- SCL has been low for 25 ms to 35 ms (R508): the target lets go and forgets an incomplete write. `cmd`
is the command of a transaction under way, if it had got that far. -/
def sclTimeout (s : State) (cmd : Option Nat) : State :=
  if s.clk.off then s
  else
    let c := match s.mbs.inWrite with
      | some w => w.1
      | none => cmd.getD 0xFF
    let s := { s with mbs := { s.mbs with inWrite := none } }
    ((s.setFld MBS_STATUS_TGT_TIMEOUT 0 1).bump MBS_TGT_TIMEOUTS_COUNT 0).mbsViol 0x05 c

def execSclTimeout (cmd : Option Nat) (s : State) : Out := .next (sclTimeout s cmd)

/-! ## The on-module bus (R509, R510) -/

/-- A transaction of the controller is NACKed, or a retry is answered (R509): up to 3 retries, then the
transaction has failed and is counted (DEDUCED, log entry 56). -/
def nackRetry (s : State) (ack : Bool) : State :=
  if s.clk.off || s.flag MBS_STATUS_ISOLATED then s
  else if ack then { s with mbs := { s.mbs with tries := 0 } }
  else if s.mbs.tries < 3 then { s with mbs := { s.mbs with tries := s.mbs.tries + 1 } }
  else ({ s with mbs := { s.mbs with tries := 0 } }).bump MBS_NACKS_COUNT 0

def execControllerNackRetry (ack : Bool) (s : State) : Out := .next (nackRetry s ack)

/-- A set of at most three attempts, the first `fails` of them failing (R510): each counted, STUCK set;
after the third failure the bus is isolated, else it is free. -/
def State.recoverySet (s : State) (fails : Nat) : State :=
  let n := min (fails + 1) 3
  let s := (s.bump MBS_RECOVERIES_COUNT 0 n).setFld MBS_STATUS_STUCK 0 1
  if 3 ≤ fails then
    let s := (s.setFld MBS_COOLANT_INLET 0 0).setFld MBS_COOLANT_OUTLET 0 0
    ((s.setFld MBS_STATUS_ISOLATED 0 1).raise 0 72).alertCheck
  else (s.setFld MBS_STATUS_ISOLATED 0 0).alertCheck

/-- The controller finds SDA low, or was itself reset during a transaction. -/
def execBusRecovery (fails : Fin 4) (s : State) : Out :=
  .next (if s.clk.off || s.flag MBS_STATUS_ISOLATED then s else s.recoverySet fails)

/-- A write to MBS_CTRL: CTL_RATE (3 ignored), and BUS_RETRY, which runs a further set on an isolated
bus. -/
def mbsCtrlWrite (s : State) (val : Word) (fails : Nat) : State :=
  let r := getBits val 1 2
  let s := if r = 3 then s else s.setFld MBS_CTRL_CTL_RATE 0 r
  if bitOf val 0 && s.flag MBS_STATUS_ISOLATED then s.recoverySet fails else s

def execBusRetry (val : Word) (fails : Fin 4) (s : State) : Out :=
  .next (mbsCtrlWrite s (setBits val 0 1 1) fails)

/-! ## JTAG (R511) -/

/-- Put an instruction in force (PRESUMED, log entry 59). -/
def State.setIr (s : State) (code : Nat) : State := { s with mbs := { s.mbs with ir := code } }

/-- IDCODE of the stepping in HCI_ID. -/
def State.idcode (s : State) : Nat :=
  if s.fld HCI_ID_STEPPING = 0 then 0x0B3C604F else 0x1B3C604F

def execJtagIdcode (s : State) : Out :=
  .next ((s.setIr 1).answer ((leBytes 4 s.idcode).map (·.toNat)))

/-- SAMPLE/PRELOAD: the cells take what is sampled or shifted in. -/
def execJtagSamplePreload (cells : Nat) (s : State) : Out :=
  .next (let s := s.setIr 2
    { s with mbs := { s.mbs with cells := cells } })

/-- EXTEST, CLAMP and HIGHZ act only while PERST# is asserted; otherwise as BYPASS. -/
def State.perstOnly (s : State) (code : Nat) : State := s.setIr (if s.mbs.perst then code else 0xFF)

def execJtagExtest (s : State) : Out := .next (s.perstOnly 3)
def execJtagClamp (s : State) : Out := .next (s.perstOnly 4)
def execJtagHighz (s : State) : Out := .next (s.perstOnly 5)

/-- BYPASS, and the private or reserved codes, which act as BYPASS while ISOLATE is set or without the
debug fuse (PRESUMED, log entry 59). -/
def jtagBypass (s : State) (code : Nat) : State :=
  if 1 ≤ code ∧ code ≤ 5 then s
  else if code = 0xFF ∨ 256 ≤ code ∨ s.isolated ∨ !s.boot.debugFuse then s.setIr 0xFF
  else s.setIr code

def execJtagBypass (code : Nat) (s : State) : Out := .next (jtagBypass s code)

end Sys2Proof.Machine
end

