-- ==== Sys2Proof/Machine/Memory.lean ====
section
/-! DEFINITION. What the memory controllers and the Lofts do by themselves: accesses and fills, the
limits of the paths, retired ways, refresh, scrub, temperature, margining and row remaps (spec/10 R262
to R270, spec/11 R289 to R297, R305, spec/16 R428). -/

namespace Sys2Proof.Machine

/-! ## Requests at a Loft (R264 to R270) -/

/-- The hint of a request in core clocks (R266): of a core, NEXT_USE times the clocks of its previous iteration. -/
def State.reqHint (s : State) (r : LoftReq) : Option Nat :=
  if r.who.val < 256 then r.hint.bind fun n => useHint n (((tabFind s.seqs r.who.val).map (·.prevCc)).getD 1)
  else r.hint

/-- A read at the home Loft: hits are served, with the poison they carry; misses allocate the line and fetch the
sectors requested, or wait where the set holds no candidate (R265 to R267). A sector that this access found
uncorrectable was served with poison and is not fetched (R270). -/
def loftRead (s : State) (p l mask : Nat) (hint : Option Nat) (step : Bool) : State :=
  let line := lineKey (p + 1) l
  let (c, set) := s.homeOf p l
  let held := (s.loftLines c set).find? (·.line == line)
  let hurt := ((List.range 16).filter fun k => (tabFind s.loft.hurt (sectorKey line k)).isSome).foldl
    (fun m k => m + 2 ^ k) 0
  let hits := mask &&& ((held.map (·.valid)).getD 0 ||| hurt)
  let miss := mask - hits
  let s := s.bump64 LFT_HITS_LO c (sectorsOf hits).length
  let s := match (sectorsOf hits).find? fun k => s.gddrBad (p + 1) (l * 1024 + 64 * k) 64 with
    | some k => if step then s.stepFault p (s.badCode (p + 1) (.gddr (l * 1024 + 64 * k)) 64) else s
    | none => s
  let s := s.updLine c set line fun x => { x with due := s.dueOf hint }
  if miss = 0 then s
  else
    let s := s.bump64 LFT_MISSES_LO c (sectorsOf miss).length
    let want := miss - (miss &&& s.pendingMask line)
    let f : Fill := ⟨line, want, s.dueOf hint, false, false, false, step, s.chanEpoch (s.chanOfKey line)⟩
    if held.isSome then (if want = 0 then s else s.request p f)
    else match s.allocate c set line (s.dueOf hint) with
      | none => s.waitSet c ⟨p, l, miss, hint, false, some step⟩
      | some t => if want = 0 then t else t.request p f

/-- A request is served (R264). One that carries a stale epoch of its cluster, or finds it or the line's channel in
reset, is answered with TARGET_RESET (R283, R457). -/
def loftServe (s : State) (p l : Nat) (r : LoftReq) : State :=
  let mask := r.mask % 2 ^ 16
  if mask = 0 then s
  else if r.stale || s.gddrDown (p + 1) (l * 1024) 1 then (if r.step then s.stepReset p else s)
  else match r.data with
    | none => loftRead s p l mask (s.reqHint r) r.step
    | some bs =>
      ((List.range 16).zip (sectorsOf mask)).foldl (fun (s : State) x =>
        s.writeMem (p + 1) (l * 1024 + 64 * x.2) (sliceBytes bs (64 * x.1) 64) (s.reqHint r)) s

/-- Requests for a line reach its home Loft in the same core clock: they are served in the order of R269. -/
def loftAccess (s : State) (p l : Nat) (reqs : List LoftReq) (errs : List MemEvent) : State :=
  if s.prtState p != 1 || decide (s.gddrSize (p + 1) ≤ l * 1024) then s
  else s.meeting (p + 1) errs fun s =>
    (reqs.insertionSort fun a b => a.who ≤ b.who).foldl (fun (s : State) r => loftServe s p l r) s

def execLoftAccess (p : Part) (line : Nat) (reqs : List LoftReq) (errs : List MemEvent) (s : State) : Out :=
  .next (loftAccess s p line reqs errs)

/-! ## Fills (R265, R283, R290, R293, R326, R327) -/

/-- A fill installs its sectors, where the line holds no newer ones; a prefetch allocates its line, or waits where
its set holds no candidate. -/
def State.install (s : State) (p : Nat) (f : Fill) : State :=
  let l := f.line % 2 ^ 38
  let (c, set) := s.homeOf p l
  let due := if f.cancelled then none else f.due
  let s := if f.prefetch && f.cancelled then s.bump YMS_PF_LANDED_AFTER_CANCEL_COUNT p else s
  let s := if s.holds c set f.line || !f.prefetch then s
    else match s.allocate c set f.line due with
      | some t => t
      | none => s.waitSet c ⟨p, l, f.mask, due.map fun d => d - s.loft.now, false, none⟩
  s.updLine c set f.line fun x => { x with valid := x.valid ||| f.mask }

/-- A prefetch has landed. -/
def State.pfLanded (s : State) (line : Nat) : State :=
  if (s.loft.fills.any fun f => f.prefetch && f.line == line) ||
      s.loft.waiting.any fun h => h.fill.prefetch && h.fill.line == line then s
  else { s with yard := { s.yard with prefetches := s.yard.prefetches.filter (·.line != line) } }

/-- What a fill delivers: its sectors are read from GDDR, with the errors found (R290), and installed. -/
def State.fillLands (s : State) (p : Nat) (f : Fill) (ce ue : Nat) : State :=
  let l := f.line % 2 ^ 38
  let s := s.gddrCe (p + 1) l (sectorsOf (f.mask &&& ce)).length
  let s := (sectorsOf (f.mask &&& ue)).foldl (fun (s : State) j => s.gddrUe (p + 1) l j) s
  let s := s.readSectors (p + 1) l f.mask
  let bad := (sectorsOf f.mask).any fun j => (tabFind s.mem.bad (sectorKey f.line j)).isSome
  let s := if bad && f.step then s.stepFault p 0x08 else s
  if f.stale then (if f.prefetch then s.bump YMS_PF_STALE_DROPS_COUNT p else s) else s.install p f

/-- A fill lands. It waits while its channel is in self refresh for heat (R428) or no window serves its
partition (R407). A failed EDC CRC is retried, the third retry's failure resets the channel (R293); a
reply with a stale epoch is discarded and its request is TARGET_RESET. Requests that waited for their set are then
tried again (R267). -/
def loftFill (s : State) (k ce ue retries : Nat) (crcFail : Bool) : State :=
  match s.loft.fills[k]? with
  | none => s
  | some f =>
    let p := f.line / 2 ^ 38 - 1
    let l := f.line % 2 ^ 38
    let chan := s.channelOf (p + 1) l
    let n := (sectorsOf f.mask).length
    if tabGet 0 s.gddrs.throttle chan = 2 ∨ !s.windowOpen (12 + chan) (p + 1) then s
    else
      let die := chan / 6
      let s := { s with loft := { s.loft with
        fills := s.loft.fills.eraseIdx k
        inFlight := tabSet 0 s.loft.inFlight (die * 64 + p) (s.inFlight die p - n) } }
      let lose := fun s : State => if f.prefetch then s.pfLanded f.line else if f.step then s.stepReset p else s
      let stale := f.epoch != s.chanEpoch chan || s.clusterDown (s.homeOf p l).1
      let s :=
        if stale then lose (s.bump LFT_STALE_REPLIES_COUNT (s.homeOf p l).1)
        else if s.chanDown chan then lose s
        else
          let s := s.crcRetry chan retries crcFail
          if crcFail then lose s
          else
            let s := s.fillLands p f ce ue
            if f.prefetch then s.pfLanded f.line else s
      s.retrySets

def execLoftFill (k : Nat) (ce : Nat) (ue : Nat) (retries : Nat) (crcFail : Bool) (s : State) : Out :=
  .next (loftFill s k ce ue retries crcFail)

/-! ## The limits of the paths (R262, R263, R409) -/

/-- The oldest request that waits for a die's GDDR and whose partition has room again is issued, as far
as the room goes. -/
def pathAdmit (s : State) (die : Nat) : State :=
  match s.loft.waiting.find? fun h => h.path == die && decide (0 < s.pathRoom die h.part) with
  | none => s
  | some h =>
    let now := lowSectors h.fill.mask (s.pathRoom die h.part)
    let later := h.fill.mask - now
    let f := { h.fill with mask := now, epoch := s.chanEpoch (s.chanOfKey h.fill.line) }
    let rest := if later = 0 then s.loft.waiting.erase h
      else s.loft.waiting.map fun x => if x = h then { h with fill := { h.fill with mask := later } } else x
    { s with loft := { s.loft with
      waiting := rest, fills := s.loft.fills ++ [f]
      inFlight := tabSet 0 s.loft.inFlight (die * 64 + h.part)
        (s.inFlight die h.part + (sectorsOf now).length) } }

def execPathLimitAdmit (die : DieId) (s : State) : Out := .next (pathAdmit s die)

/-! ## A way that fails outright (R270, R467) -/

/-- The way is retired at once: clean lines are dropped, dirty sectors lost (counted where the dirty bits
can be read), the loss is in the day book, and the partition's step is DATA_ERROR. A second failure
leaves the Loft with 15 ways and its cluster unavailable. -/
def wayFail (s : State) (c w : Nat) (readable : Bool) : State :=
  if !(s.activeWays c).contains w then s
  else
    let none_ := s.flag LFT_STATUS_SPARE_IN c
    let lost := s.dirtyCount c fun l => l.way == w
    let s := (s.dropLines c readable fun l => l.way == w).retireWay c w true
    let s := if none_ then s.loseCluster c else s
    match s.partOfCluster c with
    | none => s
    | some p =>
      let s := s.stepFault p 0x07
      match s.stepOf p with
      | some st => s.dayError (p + 1) st.plan st.step 0x07 stDataError lost 0
      | none => s.dayError (p + 1) 0xFF 0 0x07 stDataError lost 0

def execLoftWayFail (c : ClusterId) (way : Fin 17) (readable : Bool) (s : State) : Out :=
  .next (wayFail s c way readable)

/-! ## What the controllers do on their own (R287, R294, R428) -/

/-- A per-bank refresh (R294): it changes nothing a command can see (DESIGN CHOICE, log entry 60). -/
def execGddrRefresh (_chan : ChanId) (s : State) : Out := .next s

/-- The patrol scrub reads a sector of an owner's space from GDDR, where an older content may lie beneath a sector
that is dirty in a Loft. -/
def State.scrubSector (s : State) (chan o l sec : Nat) (err : Option MemError) : State :=
  let key := sectorKey (lineKey o l) sec
  match tabFind s.loft.stale key with
  | some bs =>
    let was := (bs.drop 64).head?
    let s := s.countGddr chan 1 false
    if err = some .uncorrectable ∧ was = some 0 then
      let (bank, row) := s.rowOfLine o l
      (({ s with loft := { s.loft with stale := tabPut s.loft.stale key (bs.take 64 ++ [2]) } }).countEcc chan o 0
        1).swapRow chan bank row true
    else if was = some 2 then s.countEcc chan o 0 1
    else if err = some .corrected ∧ was = some 0 then s.gddrCe o l 1
    else s
  | none =>
    let known := (tabFind s.mem.bad key).isSome
    let s := match err with
      | some .uncorrectable => s.gddrUe o l sec
      | some .corrected => if known then s else s.gddrCe o l 1
      | _ => s
    s.readSectors o l (2 ^ sec)

/-- The patrol scrub reads a sector (R294, R290, R293); what lies outside every owner's space only counts. -/
def patrolScrub (s : State) (chan : Nat) (own : Option (Nat × Nat)) (sec : Nat) (err : Option MemError) : State :=
  if !s.flag GDR_STATUS_TRAINED chan || s.chanDown chan then s
  else
    let (s, failed) := match err with
      | some (.crc n fail) => (s.crcRetry chan n fail, fail)
      | _ => (s, false)
    if failed then s
    else match own with
      | none =>
        let s := s.countGddr chan 1 false
        match err with
        | some .corrected => s.bump GDR_ECC_CE chan
        | some .uncorrectable => (s.bump GDR_ECC_UE chan).setFld GDR_STATUS_UE chan 1
        | _ => s
      | some (o, l) =>
        if s.channelOf o l ≠ chan ∨ s.gddrSize o ≤ l * 1024 then s else s.scrubSector chan o l sec err

def execGddrPatrolScrub (chan : ChanId) (own : Option (Fn × Nat)) (sec : Fin 16) (err : Option MemError)
    (s : State) : Out :=
  .next (patrolScrub s chan (own.map fun o => (o.1.val, o.2)) sec err)

/-- Both devices of a channel report their temperature (R287, R294, R428); a mode register outside the
standard resets the channel (R305). -/
def tempPoll (s : State) (chan front back : Nat) (badMr : Bool) : State :=
  if s.chanDown chan then s
  else if badMr then (s.memEvent 2).channelReset chan
  else
    let s := (s.setFld GDR_TEMP_FRONT chan front).setFld GDR_TEMP_BACK chan back
    let t := max front back
    let old := tabGet 0 s.gddrs.throttle chan
    let new := if 105 < t ∨ (old = 2 ∧ 100 < t) then 2 else if 100 < t then 1 else 0
    { s with gddrs := { s.gddrs with
      throttle := tabSet 0 s.gddrs.throttle chan new
      fast := tabSet false s.gddrs.fast chan (decide (85 < t)) } }

def execGddrTempPoll (chan : ChanId) (front : Nat) (back : Nat) (badMr : Bool) (s : State) : Out :=
  .next (tempPoll s chan front back badMr)

/-! ## Margining (R296) -/

/-- A write of GDR_MARGIN_CTRL of the channel that the owner's GDR_SEL names: AXIS and PIN are stored;
START begins a sweep, or is refused on a channel of a partition or one that is not TRAINED. -/
def marginStart (s : State) (val : Word) : State :=
  let n := s.fld GDR_SEL_CHANNEL
  let s := (s.setFld GDR_MARGIN_CTRL_AXIS n (getBits val 1 1)).setFld GDR_MARGIN_CTRL_PIN n (getBits val 2 5)
  if !bitOf val 0 then s
  else if ((List.range 32).any fun p => s.hasChannel p n) || !s.flag GDR_STATUS_TRAINED n then
    s.setFld GDR_MARGIN_RESULT_REFUSED n 1
  else
    let s := (s.setFld GDR_MARGIN_RESULT_REFUSED n 0).setFld GDR_MARGIN_RESULT_DONE n 0
    { s with gddrs := { s.gddrs with sweeps := tabPut s.gddrs.sweeps n true } }

def execMarginStart (val : Word) (s : State) : Out := .next (marginStart s val)

/-- A sweep ends with its passing steps. -/
def marginDone (s : State) (n low high : Nat) : State :=
  if (tabFind s.gddrs.sweeps n).isNone then s
  else
    let s := { s with gddrs := { s.gddrs with sweeps := tabDel s.gddrs.sweeps n } }
    let s := (s.setFld GDR_MARGIN_RESULT_LOW n low).setFld GDR_MARGIN_RESULT_HIGH n high
    s.setFld GDR_MARGIN_RESULT_DONE n 1

def execMarginSweepDone (chan : ChanId) (low : Nat) (high : Nat) (s : State) : Out :=
  .next (marginDone s chan low high)

/-- The copy of a row is done and its remap entry is switched on (R292 step 2); the sectors of the row that could
not be corrected on the way are poisoned. -/
def remapSwitch (s : State) (chan entry : Nat) (bad : List (Nat × Nat × Nat)) : State :=
  match s.gddrs.remaps.find? fun r => r.chan == chan && r.entry == entry && !r.on with
  | none => s
  | some r =>
    let s := bad.foldl (fun (s : State) b =>
      if s.channelOf b.1 b.2.1 = chan ∧ s.rowOfLine b.1 b.2.1 = (entry / 8, r.row) then
        s.poisonGddr b.1 (b.2.1 * 1024 + 64 * b.2.2) 64
      else s) s
    { s with gddrs := { s.gddrs with remaps := s.gddrs.remaps.map fun r =>
      if r.chan == chan && r.entry == entry then { r with on := true } else r } }

def execRowRemapSwitch (chan : ChanId) (entry : Fin 128) (bad : List (Fn × Nat × Fin 16)) (s : State) : Out :=
  .next (remapSwitch s chan entry (bad.map fun b => (b.1.val, b.2.1, b.2.2.val)))

/-- Flash busy for more than 10 ms: the shed channel is reset (R305). -/
def execFlashBusyTimeout (chan : ShedChan) (pages : List (Nat × Nat)) (fetches : List (Nat × Nat))
    (s : State) : Out :=
  .next (if s.shedDown chan then s else (s.memEvent 3).shedReset chan pages fetches)

end Sys2Proof.Machine
end

