-- ==== Sys2Proof/Machine/Bell.lean ====
section
/-! DEFINITION. The Bell: delivery of sources as MSI-X writes, completions, the Bell doorbell and the
latches of the always-on domain (spec/17). The raise itself is in Machine/Ops.lean. -/

namespace Sys2Proof.Machine

/-- The MSI-X vector of a function; one never written is masked with zero words (R441). -/
def State.msixVec (s : State) (fn v : Nat) : MsixVec := tabGet ⟨0, 0, true⟩ s.bell.vecs (fn * 64 + v)

/-- MSI-X is enabled for the function, and the function is not masked (R435). -/
def State.msixOpen (s : State) (fn : Nat) : Bool :=
  tabGet false s.bell.msixOn fn && !tabGet false s.bell.fnMasked fn

/-- The MASK bit of a source (R436). -/
def State.bellMasked (s : State) (fn src : Nat) : Bool := bitOf (s.reg BEL_MASK (bellInst fn src)) (src % 32)

/-- The vector in a source's route (R437). -/
def State.bellRoute (s : State) (fn src : Nat) : Nat :=
  s.fld (BEL_ROUTE_VECTOR (src % 32)) (bellInst fn src)

/-- A source that is PENDING and deliverable (R435). -/
def State.deliverable (s : State) (fn src : Nat) : Bool :=
  s.bellP fn src && !s.bellA fn src && !s.bellMasked fn src && s.msixOpen fn &&
    !(s.msixVec fn (s.bellRoute fn src)).masked

/-- The number of sources a function's fence spans (R431). -/
def fenceSize (fn : Nat) : Nat := if fn = 0 then 112 else 96

/-- Decision (R435): with no delivery of the function between decision and commit, the lowest
deliverable source is chosen and the vector of its route taken. -/
def bellDecide (s : State) (fn : Nat) : State :=
  if (tabFind s.bell.decided fn).isSome then s
  else match (List.range (fenceSize fn)).find? fun src => s.deliverable fn src with
    | none => s
    | some src =>
      let d : Delivery :=
        { src := src, vec := s.bellRoute fn src, compat := s.flag BEL_CTRL_VX2_COMPAT fn }
      { s with bell := { s.bell with decided := tabPut s.bell.decided fn d } }

def execBellDecision (fn : Fn) (s : State) : Out := .next (bellDecide s fn)

/-- Commit (R435, R436): the MSI-X checks are made again in both modes and MASK in native mode; if all
are open the message enters PCIe, the source becomes ACTIVE and is counted, a late mask too in VX2
compatibility mode; otherwise it stays PENDING, the PBA bit of a masked vector set. A source whose
pending bit was removed meanwhile has no delivery (R433). -/
def bellCommit (s : State) (fn : Nat) : State :=
  match tabFind s.bell.decided fn with
  | none => s
  | some d =>
    let s := { s with bell := { s.bell with decided := tabDel s.bell.decided fn } }
    let v := s.msixVec fn d.vec
    let masked := s.bellMasked fn d.src
    if !(s.bellP fn d.src) then s
    else if s.msixOpen fn && !v.masked && (d.compat || !masked) then
      let s := { s with host := { s.host with msgs := s.host.msgs ++ [(v.addr, v.data)] } }
      let s := (s.setBellP fn d.src false).setBellA fn d.src true
      let s := s.bump BEL_DELIVERED_COUNT fn
      if masked then s.bump BEL_LATE_MASK_COUNT fn else s
    else if v.masked then
      { s with bell := { s.bell with pba := tabPut s.bell.pba (fn * 64 + d.vec) true } }
    else s

def execBellCommit (fn : Fn) (s : State) : Out := .next (bellCommit s fn)

/-- What a PBA bit reads: set at a commit that a masked vector stopped, or while a source routed to a
masked vector is PENDING (R435). -/
def State.pbaBit (s : State) (fn v : Nat) : Bool :=
  tabGet false s.bell.pba (fn * 64 + v) ||
    ((s.msixVec fn v).masked && (List.range (fenceSize fn)).any fun src =>
      s.bellP fn src && !s.bellA fn src && s.bellRoute fn src == v)

/-- A Bell violation (R439): counted, the first since VIOL was cleared kept; it raises no source. -/
def State.bellViolation (s : State) (fn code value : Nat) : State :=
  let s := s.bump BEL_VIOL_COUNT_COUNT fn
  let s := if s.flag BEL_STATUS_VIOL fn then s
    else (s.setFld BEL_VIOL_CODE_CODE fn code).setFld BEL_VIOL_VALUE_VALUE fn value
  s.setFld BEL_STATUS_VIOL fn 1

/-- A completion (R433, R434): ACTIVE becomes IDLE, REPEND becomes PENDING, any other is a stray. -/
def bellComplete (s : State) (fn src : Nat) : State :=
  if s.bellA fn src then s.setBellA fn src false else s.bump BEL_STRAY_COUNT_COUNT fn

/-- The completion of a word's source field, its reserved bits already checked (R439). -/
def bellCompleteWord (s : State) (fn : Nat) (val : Word) : State :=
  let src := getBits val 0 12
  if bellAssigned fn src then bellComplete s fn src else s.bellViolation fn 0x03 src

/-- A write to BEL_COMPLETE (R434, R439, R442). -/
def belCompleteWrite (s : State) (fn : Nat) (val : Word) : State :=
  if getBits val 12 20 ≠ 0 then s.bellViolation fn 0x01 val.toNat else bellCompleteWord s fn val

def execBelComplete (fn : Fn) (val : Word) (s : State) : Out :=
  .next (whenLive s fn (belCompleteWrite s fn val))

/-- One bit of a BEL_PENDING write (R433): PENDING becomes IDLE, REPEND becomes ACTIVE; a raise in the
same cc wins (R434, R9), and acts as a raise on the state before. -/
def pendingBit (s : State) (fn src : Nat) (wrote raised : Bool) : State :=
  if raised then s.bellRaise fn src
  else if wrote && s.bellP fn src then s.setBellP fn src false
  else s

/-- A write of BEL_PENDING for the group that BEL_SEL picks (R442). -/
def belPendingWrite (s : State) (fn : Nat) (val raised : Word) : State :=
  let g := s.fld BEL_SEL_GROUP fn
  (List.range 32).foldl (fun s k => pendingBit s fn (32 * g + k) (bitOf val k) (bitOf raised k)) s

def execBelPendingWrite (fn : Fn) (val : Word) (raised : Word) (s : State) : Out :=
  .next (whenLive s fn (belPendingWrite s fn val raised))

/-- A Bell doorbell word (R438, R439): the lowest code that applies decides (R521) (DEDUCED, log entry
33). -/
def bellDoorbell (s : State) (fn : Nat) (val : Word) : State :=
  let src := getBits val 0 12
  if getBits val 12 19 ≠ 0 then s.bellViolation fn 0x01 val.toNat
  else if getBits val 31 1 = 1 then bellCompleteWord s fn val
  else if bellSoftware fn src then s.raise fn src
  else s.bellViolation fn 0x02 src

/-- The Bell doorbell on a page: it names sources of the page's function (R33, R437, R438). -/
def bellDoorbellWrite (s : State) (fn page : Nat) (val : Word) : State :=
  throughPage s fn page none (bellDoorbell s (pageFn page) val)

def execBellDoorbellRaise (fn : Fn) (page : Fn) (val : Word) (s : State) : Out :=
  .next (bellDoorbellWrite s fn page (setBits val 31 1 0))

def execBellDoorbellComplete (fn : Fn) (page : Fn) (val : Word) (s : State) : Out :=
  .next (bellDoorbellWrite s fn page (setBits val 31 1 1))

/-- The control clock runs again: each set latch raises its source once, the events merged into it are
counted in BEL_MERGED, and the latch empties (R440) (DEDUCED, log entry 33). -/
def latchRaise (s : State) : State :=
  if !s.clk.ccOn then s
  else
    let ls := s.bell.latches
    let s := { s with bell := { s.bell with latches := [] } }
    ls.foldl (fun s l => (s.bump BEL_MERGED_COUNT 0 l.2).bellRaise 0 l.1) s

def execLatchRaise (s : State) : Out := .next (latchRaise s)

/-! ## MSI-X as host software sets it (R437, R441) -/

/-- A word of a function's MSI-X table: 16 bytes for each vector, address low and high, data, and the
mask in bit 0 of the last word. Unmasking clears the vector's stored PBA bit. -/
def msixTableWrite (s : State) (fn off : Nat) (val : Word) : State :=
  let v := off / 16
  if 64 ≤ v then s
  else
    let e := s.msixVec fn v
    let e' : MsixVec := match off % 16 / 4 with
      | 0 => { e with addr := e.addr / 2 ^ 32 * 2 ^ 32 + val.toNat }
      | 1 => { e with addr := e.addr % 2 ^ 32 + val.toNat * 2 ^ 32 }
      | 2 => { e with data := val.toNat }
      | _ => { e with masked := bitOf val 0 }
    let pba := if e'.masked then s.bell.pba else tabDel s.bell.pba (fn * 64 + v)
    { s with bell := { s.bell with vecs := tabSet ⟨0, 0, true⟩ s.bell.vecs (fn * 64 + v) e', pba := pba } }

/-- The MSI-X control word: bit 15 enables MSI-X, bit 14 masks the function. -/
def msixControlWrite (s : State) (fn : Nat) (val : Word) : State :=
  { s with bell := { s.bell with
      msixOn := tabSet false s.bell.msixOn fn (bitOf val 15)
      fnMasked := tabSet false s.bell.fnMasked fn (bitOf val 14) } }

/-- The Bell state of a virtual function after a function-level reset (R441). -/
def State.bellReset (s : State) (fn : Nat) : State :=
  let mine := fun k => k / 64 == fn
  let s := s.dropRegs fun off i => decide (0x100000 ≤ off ∧ off < 0x200000) &&
    (if 0x100010 ≤ off ∧ off < 0x1000C0 then i / 32 else i) == fn
  { s with bell := { s.bell with
      vecs := tabDrop s.bell.vecs mine, pba := tabDrop s.bell.pba mine
      msixOn := tabDel s.bell.msixOn fn, fnMasked := tabDel s.bell.fnMasked fn
      decided := tabDel s.bell.decided fn } }

end Sys2Proof.Machine
end

