-- ==== Sys2Proof/Machine/Nest.lean ====
section
/-! DEFINITION. The walk of a nest (spec/03 R82 to R92): live lengths, the iterations that are issued and
those that are skipped, extents and origins, next-use hints, and the sequencer's fault record. -/

namespace Sys2Proof.Machine

/-! ## The sequencer of a core -/

/-- The sequencer of a core in the executing step. -/
def State.seq (s : State) (core : Nat) : Option Seq := tabFind s.seqs core

/-- Change the sequencer of a core. -/
def State.updSeq (s : State) (core : Nat) (f : Seq → Seq) : State :=
  match tabFind s.seqs core with
  | none => s
  | some q => { s with seqs := tabPut s.seqs core (f q) }

/-- What a sequencer at work knows: its partition, step, plan, state, current descriptor and node. -/
structure Nest where
  p : Nat
  core : Nat
  st : Step
  pl : Plan
  q : Seq
  d : Desc
  n : NodeEnt
deriving DecidableEq, Repr

/-- The nest of a core; none where no step runs on it, or while VIN_WARN keeps every iteration from
starting (R429). -/
def State.nest (s : State) (core : Nat) : Option Nest :=
  match s.partOfCore core, tabFind s.seqs core with
  | some p, some q => match s.stepOf p with
    | none => none
    | some st => match s.planOf p st.plan with
      | none => none
      | some pl => match pl.desc q.desc with
        | none => none
        | some d => match pl.node d.node with
          | none => none
          | some n =>
            if st.running && !s.flag CLK_STATUS_VIN_WARN then some ⟨p, core, st, pl, q, d, n⟩ else none
  | _, _ => none

/-- The operand records in use, extension records from 4 on, absent ones left out. -/
def Nest.ops (x : Nest) : List (Nat × Operand) := x.pl.operands x.d

/-- An operand by its record number. -/
def Nest.op (x : Nest) (k : Nat) : Option Operand := (x.ops.find? (·.1 == k)).map (·.2)

/-- A sequencer fault (R93): FAULT, the first one kept, counted, and a cause of DATA_ERROR. -/
def State.seqFault (s : State) (p core desc code operand level : Nat) : State :=
  let s := if s.flag SEQ_STATUS_FAULT core then s
    else (((s.setFld SEQ_FAULT_CODE core code).setFld SEQ_FAULT_DESC core desc).setFld
      SEQ_FAULT_OPERAND core operand).setFld SEQ_FAULT_LEVEL core level
  ((s.setFld SEQ_STATUS_FAULT core 1).bump SEQ_FAULT_COUNT_COUNT core).stepFault p 0x01

/-- A fault of the current nest. -/
def State.nestFault (s : State) (x : Nest) (code operand level : Nat) : State :=
  s.seqFault x.p x.core x.q.desc code operand level

/-! ## Live lengths (R84) -/

/-- An entry of a list of numbers, by logical level. -/
def lvl (l : List Nat) (k : Nat) : Nat := (l[k]?).getD 0

/-- A level record. -/
def Desc.level (d : Desc) (l : Nat) : Level := (d.levels[l]?).getD ⟨0, 1, 0, 0, 0, 0⟩

/-- The most that a level covers. -/
def Level.cap (v : Level) : Nat := v.bound * v.tile

/-- A live-length word as read: clamped to the level's cap, whether it was clamped, and whether it could
not be read (L = 0, fault 0x05) (DEDUCED, log entry 50). -/
def State.liveWord (s : State) (p : Nat) (v : Level) (i : Nat) : Nat × Bool × Bool :=
  match s.tensorWord p v.liveTensor (v.liveIndex + i) with
  | none => (0, false, true)
  | some w => (min w v.cap, decide (v.cap < w), false)

/-- The LIVE_SRC 1 words of a nest, by level, with the clamps and faults of reading them in ascending
level (R83, R84). -/
def State.nestWords (s : State) (x : Nest) : List Nat × State :=
  (List.range 6).foldl (fun (a : List Nat × State) l =>
    let v := x.d.level l
    if v.liveSrc ≠ 1 then (a.1 ++ [0], a.2)
    else
      let (w, clamped, bad) := a.2.liveWord x.p v 0
      let s := a.2.tookWord x.p v.liveTensor v.liveIndex
      let s := if clamped then s.bump SEQ_LIVE_CLAMP_COUNT x.core else s
      (a.1 ++ [w], if bad then s.nestFault x 0x05 0 l else s)) ([], s)

/-! ## The walk (R83) -/

/-- A walk under way: the iteration vector, live extents and bounds by logical level; the iterations
skipped, lengths clamped, levels whose word could not be read, and the words read so far, by tensor and index. -/
structure Walk where
  idx : List Nat
  live : List Nat
  beff : List Nat
  skipped : Nat
  clamps : Nat
  faults : List Nat
  words : List (Nat × Nat)
deriving DecidableEq, Repr

/-- The logical level at a depth. -/
def Desc.at_ (d : Desc) (depth : Nat) : Nat := (d.order[depth]?).getD 0

/-- The product of some function of the levels deeper than a depth. -/
def Desc.below (d : Desc) (depth : Nat) (f : Nat → Nat) : Nat :=
  (List.range 6).foldl (fun a e => if depth < e then a * f (d.at_ e) else a) 1

/-- A level is entered: its live extent and bound (R83). -/
def State.enterLevel (s : State) (x : Nest) (words : List Nat) (depth : Nat) (w : Walk) : Walk :=
  let l := x.d.at_ depth
  let v := x.d.level l
  let (len, clamped, bad) := match v.liveSrc with
    | 0 => (v.cap, false, false)
    | 1 => (lvl words l, false, false)
    | _ => s.liveWord x.p v (lvl w.idx v.liveLevel)
  let beff := (len + v.tile - 1) / v.tile
  { idx := w.idx.set l 0, live := w.live.set l len, beff := w.beff.set l beff
    skipped := w.skipped + (v.bound - beff) * x.d.below depth fun e => (x.d.level e).bound
    clamps := w.clamps + clamped.toNat, faults := if bad then w.faults ++ [l] else w.faults
    words := if v.liveSrc < 2 then w.words else (v.liveTensor, v.liveIndex + lvl w.idx v.liveLevel) :: w.words }

/-- The key level of an ATTN_FWD nest; 6 where there is none. -/
def Nest.keyLevel (x : Nest) : Nat :=
  if x.n.kind = 3 then min 6 (((x.op 1).map (·.colLevel)).getD 6) else 6

/-- A level below `depth` is inside an entry of the key level whose live length is 0. -/
def Nest.inVoid (x : Nest) (depth : Nat) (w : Walk) : Bool :=
  (List.range depth).any fun e => x.d.at_ e == x.keyLevel && lvl w.beff x.keyLevel == 0

/-- The next iteration that is issued, found by entering the level at `depth` (or, with `enter` false, by
moving on from it); none where the nest has no more. The rows of an ATTN_FWD nest whose live key length is 0
are finalised too (R181): the walk then goes on below the key level as if it had one iteration, which counts
nothing and is not issued (DEDUCED, log entry 80). -/
def State.walk (s : State) (x : Nest) (words : List Nat) : Nat → Nat → Bool → Walk → Bool × Walk
  | 0, _, _, w => (false, w)
  | fuel + 1, depth, true, w =>
    if 6 ≤ depth then (true, w)
    else
      let w' := s.enterLevel x words depth w
      let w := if x.inVoid depth w then
          { w' with skipped := w.skipped, clamps := w.clamps, faults := w.faults }
        else w'
      if lvl w.beff (x.d.at_ depth) = 0 ∧ x.d.at_ depth ≠ x.keyLevel then s.walk x words fuel depth false w
      else s.walk x words fuel (depth + 1) true w
  | fuel + 1, depth, false, w =>
    if depth = 0 then (false, w)
    else
      let l := x.d.at_ (depth - 1)
      if lvl w.idx l + 1 < lvl w.beff l then
        s.walk x words fuel depth true { w with idx := w.idx.set l (lvl w.idx l + 1) }
      else s.walk x words fuel (depth - 1) false w

/-- Six zeros. -/
def zeros6 : List Nat := [0, 0, 0, 0, 0, 0]

/-- More moves than any walk of the descriptor takes. -/
def Desc.moves (d : Desc) : Nat := 14 * d.levels.foldl (fun a v => a * (v.bound + 1)) 1 + 14

/-- The iteration after the last one of a nest, or its first (R83). -/
def State.advanceWalk (s : State) (x : Nest) : Bool × Walk :=
  match x.q.idx with
  | none => s.walk x x.q.words x.d.moves 0 true ⟨zeros6, zeros6, zeros6, 0, 0, [], []⟩
  | some i => s.walk x x.q.words x.d.moves 6 false ⟨i, x.q.live, x.q.beff, 0, 0, [], []⟩

/-- The counts and faults of a walk take effect; its words passed the home Lofts. -/
def State.commitWalk (s : State) (x : Nest) (w : Walk) : State :=
  let s := w.words.foldr (fun t (s : State) => s.tookWord x.p t.1 t.2) s
  let s := if w.skipped = 0 then s else s.bump64 SEQ_SKIPPED_LO x.core w.skipped
  let s := if w.clamps = 0 then s else s.bump SEQ_LIVE_CLAMP_COUNT x.core w.clamps
  w.faults.foldl (fun (s : State) l => s.nestFault x 0x05 0 l) s

/-! ## An iteration (R82, R85 to R89, R91) -/

/-- An iteration of a nest: the vector, live extents and effective bounds by logical level. -/
structure Iter where
  idx : List Nat
  live : List Nat
  beff : List Nat
deriving DecidableEq, Repr

/-- The live extent of an axis of `full` elements stepped by a level, 7 for none (R85, R87). -/
def Nest.extent (x : Nest) (i : Iter) (l full : Nat) : Nat :=
  if 6 ≤ l then full else min full (lvl i.live l - lvl i.idx l * (x.d.level l).tile)

/-- The live rows and columns of an operand. -/
def Nest.liveR (x : Nest) (i : Iter) (o : Operand) : Nat := x.extent i o.rowLevel o.rows
def Nest.liveC (x : Nest) (i : Iter) (o : Operand) : Nat := x.extent i o.colLevel o.cols

/-- The tile of an operand is ragged (R85). -/
def Nest.ragged (x : Nest) (i : Iter) (o : Operand) : Bool :=
  let short := fun l => decide (l < 6) &&
    decide (lvl i.live l - lvl i.idx l * (x.d.level l).tile < (x.d.level l).tile)
  short o.rowLevel || short o.colLevel

/-- The first index of an axis: its base plus the tiles before it (R89, R174), without wrap. -/
def Nest.firstIndex (x : Nest) (i : Iter) (base l : Nat) : Nat :=
  base + (if 6 ≤ l then 0 else lvl i.idx l * (x.d.level l).tile)

/-- ROW_ORIGIN and COL_ORIGIN of a written bale (R89). -/
def Nest.rowOrg (x : Nest) (i : Iter) (o : Operand) : Nat := x.firstIndex i o.rowBase o.rowLevel % 2 ^ 32
def Nest.colOrg (x : Nest) (i : Iter) (o : Operand) : Nat := x.firstIndex i o.colBase o.colLevel % 2 ^ 32

/-- An operand of a chute (roles 4 and 5). -/
def Operand.chute (o : Operand) : Bool := o.role == 4 || o.role == 5

/-- A level moves an operand to another bale: by its stride, or for a chute operand, whose strides are 0 and
which has no address, where it is the row or column level (DEDUCED, log entry 20). -/
def Operand.steps (o : Operand) (l : Nat) : Bool :=
  if o.chute then o.rowLevel == l || o.colLevel == l else (o.strides[l]?).getD 0 != 0

/-- NEXT_USE of an operand at an iteration (R91). -/
def Nest.nextUse (x : Nest) (i : Iter) (o : Operand) : Nat :=
  let reuse := fun depth =>
    let l := x.d.at_ depth
    (o.strides[l]?).getD 0 == 0 && decide (1 < lvl i.beff l) && decide (lvl i.idx l + 1 < lvl i.beff l)
  match [5, 4, 3, 2, 1, 0].find? reuse with
  | some depth => min (x.d.below depth fun e => lvl i.beff e) 0xFFFFFFFE
  | none => o.hint

/-- The sum that places a memory operand (R82), exact: the binding below its SPACE plus OFFSET plus the
strides. -/
def Operand.sum (o : Operand) (binding : Nat) (i : Iter) : Int :=
  ((binding % 2 ^ 60 + o.offset : Nat) : Int) +
    (List.range 6).foldl (fun (t : Int) l => t + (o.strides[l]?).getD 0 * (lvl i.idx l : Nat)) 0

/-- The device address of a memory operand (R82); none where the sum is negative or does not fit, or the
tensor has no address. -/
def State.opAddr (s : State) (x : Nest) (i : Iter) (o : Operand) : Option Nat :=
  match s.tensorAddr x.p o.tensor with
  | none => none
  | some a =>
    if o.sum a i < 0 ∨ (2 ^ 60 : Nat) ≤ o.sum a i then none else some (a / 2 ^ 60 * 2 ^ 60 + (o.sum a i).toNat)

/-- The place of `n` bytes of a memory operand: none where it is outside the partition, or in the scratch
of another core (R93 code 0x06, R261). -/
def State.opPlace (s : State) (x : Nest) (addr : Option Nat) (n : Nat) : Option Place :=
  match addr with
  | none => none
  | some a => match s.place (x.p + 1) a n with
    | .error _ => none
    | .ok (.scratch c o) => if c = x.core then some (.scratch c o) else none
    | .ok pl => some pl

/-- Where an operand's bale of an iteration is, as a number: its SPACE and sum, which need be no address (R82,
R88), or for a chute operand the tile that its row and column levels select. -/
def State.opSpot (s : State) (x : Nest) (i : Iter) (o : Operand) : Nat :=
  if o.chute then x.firstIndex i 0 o.rowLevel * 2 ^ 64 + x.firstIndex i 0 o.colLevel
  else
    let a := (s.tensorAddr x.p o.tensor).getD 0
    ((o.sum a i).natAbs * 2 + (decide (o.sum a i < 0)).toNat) * 16 + a / 2 ^ 60

/-! ## The chutes of a core (R147 to R152) -/

/-- The bound chute of a core's port: its number in the plan, and the edge. -/
def Plan.boundAt (pl : Plan) (core port : Nat) (send : Bool) : Option (Nat × BoundEdge) :=
  ((List.range pl.bound.length).zip pl.bound).find? fun e =>
    if send then e.2.srcCore == core && e.2.srcPort == port
    else e.2.dstCore == core && e.2.dstPort == port

/-- The chute of an operand: the edge that names the node and operand (R311). -/
def Nest.edgeOf (x : Nest) (k : Nat) : Option (Nat × BoundEdge) :=
  let want := ((List.range x.pl.edges.length).zip x.pl.edges).find? fun e =>
    (e.2.srcNode == x.d.node && e.2.srcOp == k) || (e.2.dstNode == x.d.node && e.2.dstOp == k)
  want.bind fun e => (x.pl.bound[e.1]?).map fun b => (e.1, b)

/-- The chute of an edge of the executing plan. -/
def State.chuteOf (s : State) (p plan : Nat) (e : Nat × BoundEdge) : Chute := s.chute p plan e.1 e.2.rxUnits

/-- Give a chute its state, with the credits register of a sending core. -/
def State.setChute (s : State) (p plan : Nat) (e : Nat × BoundEdge) (c : Chute) : State :=
  let s := { s with chutes := tabPut s.chutes (chuteKey p plan e.1) c }
  if e.2.srcCore < 256 then
    (s.setFld (COR_CHUTE_CREDITS_TX_CREDITS e.2.srcPort) e.2.srcCore c.credits).setFld COR_CHUTE_STATUS_SEND_WAIT
      e.2.srcCore (let m := s.fld COR_CHUTE_STATUS_SEND_WAIT e.2.srcCore
        let b := 2 ^ e.2.srcPort
        let off := m - (if m.testBit e.2.srcPort then b else 0)
        if c.half.head?.any fun (h : Item) => decide (c.credits < h.units) then off + b else off)
  else s

/-- Set or clear RECV_WAIT of a port (R169). -/
def State.setRecvWait (s : State) (core port : Nat) (b : Bool) : State :=
  let m := s.fld COR_CHUTE_STATUS_RECV_WAIT core
  let off := m - (if m.testBit port then 2 ^ port else 0)
  s.setFld COR_CHUTE_STATUS_RECV_WAIT core (if b then off + 2 ^ port else off)

end Sys2Proof.Machine
end

