-- ==== Sys2Proof/Machine/Flags.lean ====
section
/-! DEFINITION. The sticky flags as a core keeps them (spec/04 R115 to R118) and LOCAL_NF (spec/09 R236). -/

namespace Sys2Proof.Machine

/-- OR a bit into a 64-bit slot register pair. -/
def State.orSlot (s : State) (lo core slot : Nat) (b : Bool) : State :=
  if b then s.setReg64 lo core (s.reg64 lo core ||| 2 ^ slot) else s

/-- The flags of an output bale reach the slot registers and TEN_STICKY of the producing core (R117, R118);
a non-finite flag in a guarded slot is the partition's LOCAL_NF (R236). -/
def State.raiseFlags (s : State) (p core slot : Nat) (f : Flags) : State :=
  let s := ((s.orSlot TEN_SLOT_OVF_LO core slot f.ovf).orSlot TEN_SLOT_NF_LO core slot f.nf).orSlot
    TEN_SLOT_SAT_LO core slot f.sat
  let s := if f.ovf then s.setFld TEN_STICKY_OVF core 1 else s
  let s := if f.nf then s.setFld TEN_STICKY_NONFINITE core 1 else s
  let s := if f.sat then s.setFld TEN_STICKY_SAT core 1 else s
  if f.nf && slot != 63 then
    (s.coresOf p).foldl (fun (s : State) c => s.setFld TEN_OPT_STATUS_LOCAL_NF c 1) s
  else s

/-- The slot registers, sticky flags and GNF of a partition's cores as a step starts (R117, R236, R238). -/
def State.clearFlags (s : State) (p : Nat) : State :=
  (s.coresOf p).foldl (fun (s : State) c =>
    let s := ((s.setReg64 TEN_SLOT_OVF_LO c 0).setReg64 TEN_SLOT_NF_LO c 0).setReg64 TEN_SLOT_SAT_LO c 0
    let s := ((s.setFld TEN_STICKY_OVF c 0).setFld TEN_STICKY_NONFINITE c 0).setFld TEN_STICKY_SAT c 0
    (((s.setFld TEN_OPT_STATUS_GNF c 0).setFld TEN_OPT_STATUS_GNF_FINAL c 0).setFld
      TEN_OPT_STATUS_LOCAL_NF c 0).setFld TEN_OPT_STATUS_GUARD_SRC c 0) s

end Sys2Proof.Machine
end

