-- ==== Sys2Proof/Machine/Tensor.lean ====
section
/-! DEFINITION. The tensor engine: groups of exact products rounded once into FP32 accumulators, and
its special values (spec/04 R94, R95, R103 to R105). -/

namespace Sys2Proof.Machine

/-- Group size of a format pair (R95). -/
def groupSize (format : Nat) : Nat := if format = 1 then 1 else 32

/-- The finite value of an exact product, or none for NaN and ±∞. -/
def finDy : Fv → Option (Nat × Int × Bool)
  | .fin s m e => some (m, e, s)
  | _ => none

/-- The sum of a group's finite products (R103): each truncated toward zero to a multiple of
2^(Emax − 60), then summed exactly; a sum of products that are all −0 is −0. -/
def groupSum (ps : List (Nat × Int × Bool)) : Fv :=
  match ps.filter fun p => p.1 != 0 with
  | [] => .fin (!ps.isEmpty && ps.all fun p => p.2.2) 0 0
  | q :: qs =>
    let top := fun (p : Nat × Int × Bool) => (Nat.log2 p.1 : Int) + p.2.1
    let u := qs.foldl (fun a p => max a (top p)) (top q) - 60
    let t := fun (p : Nat × Int × Bool) =>
      let (a, b) := shiftFrac p.1 1 (p.2.1 - u)
      let k : Int := (a / b : Nat)
      if p.2.2 then -k else k
    let s := (q :: qs).foldl (fun a p => a + t p) (0 : Int)
    .fin (decide (s < 0)) s.natAbs u

/-- One group into an accumulator (R103, R105): the products are exact, their sum is rounded once. -/
def groupStep (g : Nat) (va vb : List Fv) (c : Word) : FM Word := do
  if isNan32 c ∨ va.any (· == .nan) ∨ vb.any (· == .nan) then return nan32
  let ps := va.zipWith mulV vb
  if ps.any (· == .nan) then return nan32
  let pos := ps.any (· == .inf false) || c == inf32 false
  let neg := ps.any (· == .inf true) || c == inf32 true
  if pos && neg then return nan32
  else if pos then return inf32 false
  else if neg then return inf32 true
  else
    let s := if g = 1 then (ps[0]?).getD (.fin false 0 0) else groupSum (ps.filterMap finDy)
    sumV (dec32 c) s

/-- The groups of one output element, in increasing k (R104). Where the k tile is no multiple of G, the last
group has only the positions of the operand's extent: R103 sums G positions, but an operand has none beyond
its COLS, and R86 delivers none there (DEDUCED, log entry 76). -/
def elemGroups (g : Nat) (ta tb : Tile) (r c : Nat) (acc : Word) : FM Word :=
  (List.range ((ta.cols + g - 1) / g)).foldlM (fun acc j => do
    let ks := (List.range g).filterMap fun k =>
      if j * g + k < ta.cols then some (j * g + k) else none
    groupStep g (ks.map fun k => (ta.el r k).1) (ks.map fun k => (tb.el k c).1) acc) acc

/-- One tensor iteration on the accumulators, in row order over C's extents (R94, R103, R104); only the
live part of C is computed. -/
def tensorStep (format rows cols liveR liveC : Nat) (ta tb : Tile) (acc : List Lane) : FM (List Lane) :=
  (positions rows cols).foldlM (fun out p => do
    let old := laneAt acc (p.1 * cols + p.2)
    if p.1 < liveR ∧ p.2 < liveC then
      return out ++ [cell (← elemGroups (groupSize format) ta tb p.1 p.2 old.a)]
    else return out ++ [old]) []

/-- The accumulators before the first iteration: +0, or the stored values of a read-modify-write
operand decoded under R110 (R104). -/
def tensorStart (rows cols : Nat) (stored : Option Tile) : FM (List Lane) :=
  (positions rows cols).foldlM (fun out p => do
    match stored with
    | none => return out ++ [cell 0]
    | some t => return out ++ [cell (← t.f32 p.1 p.2)]) []

end Sys2Proof.Machine
end

