-- ==== Sys2Proof/Machine/Operands.lean ====
section
/-! DEFINITION. The operand forms of a loop descriptor (spec/03 R80, R82, R86 to R93; spec/06 R150 to R152):
reads from memory and from a landing ring, the tile as the engine takes it, and the writing of a bale. -/

namespace Sys2Proof.Machine

/-! ## Reading (R71, R72, R86, R93) -/

/-- An item as a bale. -/
def Item.bale (i : Item) : Bale := ⟨readHdr i.bytes, i.bytes.drop 64⟩
def Item.poison (i : Item) : Bool := (readHdr i.bytes).flags % 2 == 1

/-- Poisoned zeros in place of an operand's bale; `dirty` where the cause is no reset response. -/
def Operand.zeros (o : Operand) (dirty : Bool) : Item := { zeroItem (some o) with dirty := dirty }

/-- The lowest code of R93 that a header raises for an operand of a partition (R521). -/
def headerFault (p : Nat) (o : Operand) (h : BaleHdr) : Option Nat :=
  if (hdrBadByte h).isSome then some 0x01
  else if o.rows < h.rows ∨ o.cols < h.cols then some 0x02
  else if h.part ≠ p then some 0x03
  else if h.format ≠ o.format ∨ h.shape ≠ o.shape then some 0x04
  else none

/-- The reply to a GDDR access is one that R283 discards. -/
def Place.staleReply (pl : Place) (fail : Bool) : Bool :=
  match pl with
  | .gddr _ => fail
  | _ => false

/-- A discarded reply is counted in the home Loft of its line (R283). -/
def State.dropReply (s : State) (p : Nat) (pl : Place) : State :=
  match pl with
  | .gddr o => s.bump LFT_STALE_REPLIES_COUNT (s.homeOf p (o / 1024)).1
  | _ => s

/-- The bale of a memory operand as it is delivered, with its faults (R82, R93), poison (R290, R519), and
targets in reset (R283). `hostFail` lists the accesses that fail, `k` for the read of operand k and `16 + k` for its
write: one that PCIe fails in host memory, and in GDDR one whose reply carries another epoch than the requester
knows, which is discarded and counted (R283). -/
def State.readMemOp (s : State) (x : Nest) (i : Iter) (k : Nat) (o : Operand) (hostFail : List Nat) :
    Item × State :=
  let addr := s.opAddr x i o
  let reset := (o.zeros false, s.stepReset x.p)
  match s.opPlace x addr 64 with
  | none => (o.zeros true, s.nestFault x 0x06 k 0)
  | some pl =>
    let failed := fun n => match pl with
      | .host a => hostFail.contains k || s.hostDark a n
      | _ => false
    if failed 64 then (o.zeros true, s.nestFault x 0x07 k 0)
    else if s.stepDown x.p pl 64 then reset
    else if pl.staleReply (hostFail.contains k) then (o.zeros false, (s.dropReply x.p pl).stepReset x.p)
    else
      let r := s.stepBale x.p pl
      let n := 64 + r.bale.payload.length
      match headerFault x.p o r.bale.hdr with
      | some c =>
        let s := s.touch (x.p + 1) pl 64
        let s := if r.bad then s.readCause x.p r else s
        (o.zeros true, s.nestFault x c k 0)
      | none =>
        if (s.opPlace x addr n).isNone then (o.zeros true, s.nestFault x 0x06 k 0)
        else if failed n then (o.zeros true, s.nestFault x 0x07 k 0)
        else if r.down then reset
        else
          let dirty := r.bad || (r.bale.poison && !s.isSoft x.p r.key)
          let s := s.took x.p r (useHint (x.nextUse i o) x.q.prevCc)
          let b := if r.bad then { r.bale with hdr := { r.bale.hdr with flags := 1 } } else r.bale
          (⟨b.bytes, [], none, dirty, 0⟩, s)

/-- The bale at the head of a receive operand's ring, checked as it is taken (R151); poisoned zeros from a
broken chute with nothing landed (R156). None while no bale is ready. -/
def State.takeRing (s : State) (x : Nest) (k : Nat) (o : Operand) : Option (Item × State) :=
  match x.edgeOf k with
  | none => none
  | some e =>
    let c := s.chuteOf x.p x.st.plan e
    match c.ring with
    | [] => if c.broken then some (o.zeros false, s.stepReset x.p) else none
    | it :: rest =>
      let s := s.setChute x.p x.st.plan e { c with ring := rest }
      match headerFault x.p o (readHdr it.bytes) with
      | some f => some ({ o.zeros true with units := it.units }, s.nestFault x f k 0)
      | none => some (it, s)

/-- What a read operand took at the previous issued iteration, if the spot is the same (R88). -/
def Nest.reuse (x : Nest) (k spot : Nat) : Option Item :=
  (x.q.last.find? fun l => l.op == k && l.at_ == spot).map (·.item)

/-- An operand is fetched for an iteration, unless it is the bale of the previous one (R88) (DEDUCED, log
entry 50). -/
def State.fetchOp (s : State) (x : Nest) (i : Iter) (k : Nat) (o : Operand) (hostFail : List Nat) :
    Item × State :=
  match x.reuse k (s.opSpot x i o) with
  | some it => (it, s)
  | none =>
    if o.role = 4 then (s.takeRing x k o).getD (o.zeros true, s)
    else s.readMemOp x i k o hostFail

/-- The tile of an operand as the engine takes it (R86, R123): PAD beyond the live extents, beyond the
header's, on pad rows (R274), and outside the live positions of a gather's sideband (R276). -/
def Nest.tile (x : Nest) (i : Iter) (o : Operand) (it : Item) : Tile :=
  let b := it.bale
  let lr := x.liveR i o
  let lc := x.liveC i o
  let key := fun r c => match it.side with
    | none => true
    | some d => decide (d.lo ≤ (if d.v then r else c) ∧ (if d.v then r else c) < d.hi)
  let ok := fun r c => decide (r < lr ∧ c < lc ∧ r < b.hdr.rows ∧ c < b.hdr.cols) && !it.pads.contains r && key r c
  { rows := o.rows, cols := o.cols, liveR := lr, liveC := lc, poison := it.poison
    el := fun r c => if ok r c then (b.value r c, true) else (dec32 (BitVec.ofNat 32 o.pad), false)
    raw := fun r c => if ok r c then b.code r c else o.pad }

/-- NaN or ±∞ elements and 0xFF scales that a tensor or attention operand brings within its live extents
(R118) (DEDUCED, log entry 38). -/
def nanInputs (b : Bale) (lr lc : Nat) : Nat :=
  match fmtOf b.hdr.format with
  | none => 0
  | some f =>
    let ps := positions (min lr b.hdr.rows) (min lc b.hdr.cols)
    let els := ps.countP fun q => nonFinite (f.decode (b.code q.1 q.2))
    let h := b.hdr
    let scales := if blockScaled h.format then
        ((ps.filter fun q => b.scale q.1 q.2 == 255).map fun q =>
          scaleIndex h.format h.shape h.rows h.cols q.1 q.2).eraseDups.length
      else 0
    els + scales

/-! ## Writing (R87 to R89, R93, R150, R152) -/

/-- `n` free bytes: what a failed host write leaves (R93 code 0x07). -/
def State.freeBytes (s : State) : Nat → List Byte × State
  | 0 => ([], s)
  | n + 1 =>
    let (w, s) := s.free
    let (bs, s) := s.freeBytes n
    (BitVec.ofNat 8 w.toNat :: bs, s)

/-- The header of a written bale (R87, R89). -/
def Nest.outHdr (x : Nest) (o : Operand) (h : Held) (nextUse : Nat) (fl : Flags) : BaleHdr :=
  { format := o.format, flags := h.poison.toNat, rows := h.liveR, cols := h.liveC, shape := o.shape
    part := x.p, tensor := o.tensor, payload := payloadSize o.format o.shape h.liveR h.liveC
    rowOrg := h.rowOrg, colOrg := h.colOrg, nextUse := nextUse, sticky := stickyOf fl, tail := false }

/-- A bale enters the send half of an operand's chute (R152); on a broken chute it is discarded and
counted as sent (R156). -/
def State.sendBale (s : State) (x : Nest) (k : Nat) (bs : List Byte) (dirty : Bool) : State :=
  match x.edgeOf k with
  | none => s
  | some e =>
    let c := s.chuteOf x.p x.st.plan e
    if c.broken then
      if e.2.srcCore < 256 then s.bump (COR_CHUTE_TX_BALES_COUNT e.2.srcPort) e.2.srcCore else s
    else s.setChute x.p x.st.plan e { c with half := c.half ++ [⟨bs, [], none, dirty, bs.length / 64⟩] }

/-- An output operand's bale is written (R88): into its chute, or to memory. A write outside the partition,
into the scratch of another core, into the Ostler's regions (R203) or the day book (R470) is suppressed
with fault 0x06; one that PCIe fails leaves free bytes; one to a target in reset is lost (R283). -/
def State.putBale (s : State) (x : Nest) (o : Operand) (h : Held) (b : Bale) (hostFail : List Nat) : State :=
  if o.role = 5 then s.sendBale x h.op b.bytes h.dirty
  else
    let n := b.bytes.length
    match s.opPlace x h.addr n with
    | none => s.nestFault x 0x06 h.op 0
    | some pl =>
      if s.hitsOstler (x.p + 1) pl n || s.hitsDayAt (x.p + 1) pl n then s.nestFault x 0x06 h.op 0
      else if s.placeDown (x.p + 1) pl n then s.stepReset x.p
      else
        let failed := match pl with
          | .host _ => hostFail.contains (16 + h.op)
          | _ => false
        if pl.staleReply (hostFail.contains (16 + h.op)) then (s.dropReply x.p pl).stepReset x.p
        else if failed then
          let (bs, s) := s.freeBytes n
          (s.writeAt (x.p + 1) pl bs).nestFault x 0x07 h.op 0
        else s.writeBale x.p pl b h.dirty (useHint b.hdr.nextUse x.q.prevCc)

/-- The credits of a received bale go back once the last iteration that reads it has issued (R150). -/
def State.returnCredits (s : State) (x : Nest) (k : Nat) (it : Item) : State :=
  match x.edgeOf k with
  | none => s
  | some e =>
    let c := s.chuteOf x.p x.st.plan e
    if it.units = 0 || c.broken then s
    else s.setChute x.p x.st.plan e { c with returns := c.returns ++ [it.units] }

end Sys2Proof.Machine
end

