-- ==== Sys2Proof/Machine/Attention.lean ====
section
/-! DEFINITION. Attention (spec/07): the record, the tables and masks, the skip test, and the arithmetic of a
block pair forward and backward, of a merge, and of the finalised rows. -/

namespace Sys2Proof.Machine

/-! ## The record and its tables (R171, R177, R178) -/

/-- The fields of an attention record (R171). -/
structure AttnRec where
  causal : Bool
  window : Bool
  blocks : Bool
  doc : Bool
  bidi : Bool
  mode : Nat
  pFmt : Nat
  scale : Word
  win : Nat
  qOff : Nat
  kOff : Nat
  docT : Nat
  bidiT : Nat

def NodeEnt.attn (n : NodeEnt) : AttnRec :=
  let m := fieldAt n.record 0 1
  { causal := m.testBit 0, window := m.testBit 1, blocks := m.testBit 2, doc := m.testBit 3, bidi := m.testBit 4
    mode := fieldAt n.record 1 1, pFmt := fieldAt n.record 2 1
    scale := BitVec.ofNat 32 (fieldAt n.record 4 4), win := fieldAt n.record 8 4
    qOff := fieldAt n.record 12 4, kOff := fieldAt n.record 16 4, docT := fieldAt n.record 20 4
    bidiT := fieldAt n.record 24 4 }

/-- Words of a table tensor, each none where it cannot be read. -/
def State.tableWords (s : State) (p t : Nat) : Nat → Nat → List (Option Nat)
  | 0, _ => []
  | n + 1, k => s.tensorWord p t k :: s.tableWords p t n (k + 1)

/-- Two words next to each other break an order. -/
def breaksOrder (bad : Nat → Nat → Nat → Bool) : Nat → List (Option Nat) → Bool
  | k, some a :: some b :: r => bad k a b || breaksOrder bad (k + 1) (some b :: r)
  | k, _ :: r => breaksOrder bad (k + 1) r
  | _, [] => false

/-- The words of a table of COUNT entries of `per` words, or the lowest fault code that applies (R177, R197,
R521): `code` where COUNT is above its limit or words that can be read break their order, 0x03 where a word
cannot be read. -/
def State.readTable (s : State) (p t limit per code : Nat) (bad : Nat → Nat → Nat → Bool) : Except Nat (List Nat) :=
  match s.tensorWord p t 0 with
  | none => .error 0x03
  | some n =>
    if limit < n then .error code
    else
      let ws := s.tableWords p t (per * n) 1
      if breaksOrder bad 0 ws then .error code
      else if ws.any (·.isNone) then .error 0x03
      else .ok (ws.map fun w => w.getD 0)

/-- Words taken two by two. -/
def pairUp : List Nat → List (Nat × Nat)
  | a :: b :: r => (a, b) :: pairUp r
  | _ => []

/-- The boundaries of a document table, strictly increasing, or its fault code. -/
def State.docTable (s : State) (p t : Nat) : Except Nat (List Nat) :=
  s.readTable p t 16383 1 0x01 fun _ a b => decide (b ≤ a)

/-- The ranges of a bidirectional table, START < END in each and each START at or after the END before it,
or its fault code. -/
def State.bidiTable (s : State) (p t : Nat) : Except Nat (List (Nat × Nat)) :=
  (s.readTable p t 4096 2 0x02 fun k a b => if k % 2 = 0 then decide (b ≤ a) else decide (b < a)).map pairUp

/-- The tables of a node, or the lowest fault code (R178, R197, R521). -/
def State.attnTables (s : State) (p : Nat) (a : AttnRec) : Except Nat (List Nat × List (Nat × Nat)) :=
  let d := if a.doc then s.docTable p a.docT else .ok []
  let b := if a.bidi then s.bidiTable p a.bidiT else .ok []
  match d, b with
  | .ok x, .ok y => .ok (x, y)
  | .error c, .ok _ => .error c
  | .ok _, .error e => .error e
  | .error c, .error e => .error (min c e)

/-- An attention fault (R197): the first kept, counted, and a cause of DATA_ERROR. -/
def State.attnFault (s : State) (p core desc code : Nat) : State :=
  let s := if s.flag COR_ATT_STATUS_FAULT core then s
    else (s.setFld COR_ATT_FAULT_CODE core code).setFld COR_ATT_FAULT_DESC core desc
  ((s.setFld COR_ATT_STATUS_FAULT core 1).bump COR_ATT_FAULT_COUNT_COUNT core).stepFault p 0x02

/-- A node that has tables (its kind is 3 or 4). -/
def NodeEnt.masked (n : NodeEnt) : Bool := n.kind == 3 || n.kind == 4

/-- The table tensors that a nest still has to read (R177). -/
def Nest.tablesDue (x : Nest) : List Nat :=
  if !x.n.masked || x.st.tables.any (·.1 == x.d.node) || x.st.attnBad.contains x.d.node then []
  else (if x.n.attn.doc then [x.n.attn.docT] else []) ++ if x.n.attn.bidi then [x.n.attn.bidiT] else []

/-- The tables of the node are read before the first iteration of its first nest in the step (R177), whole, through
the home Lofts. -/
def State.readTables (s : State) (x : Nest) : State :=
  let s := x.tablesDue.foldl (fun (s : State) t =>
    match s.tensorPlace x.p t 0 (((x.pl.tensor t).map (·.bytes)).getD 0) with
    | some pl => s.touch (x.p + 1) pl (((x.pl.tensor t).map (·.bytes)).getD 0)
    | none => s) s
  if !x.n.masked || x.st.tables.any (·.1 == x.d.node) || x.st.attnBad.contains x.d.node then s
  else match s.attnTables x.p x.n.attn with
    | .ok t => s.updStep x.p fun st => { st with tables := (x.d.node, t.1, t.2) :: st.tables }
    | .error c =>
      (s.attnFault x.p x.core x.q.desc c).updStep x.p fun st => { st with attnBad := x.d.node :: st.attnBad }

/-- The tables as read. -/
def Nest.tables (x : Nest) : List Nat × List (Nat × Nat) :=
  match x.st.tables.find? (·.1 == x.d.node) with
  | some t => t.2
  | none => ([], [])

/-! ## Masks (R174 to R176, R183) -/

/-- doc() and bidi() of R177. -/
def docOf (bounds : List Nat) (k : Nat) : Nat := bounds.countP fun b => decide (b ≤ k)
def bidiOf (ranges : List (Nat × Nat)) (k : Nat) : Option (Nat × Nat) :=
  ranges.find? fun r => decide (r.1 ≤ k ∧ k < r.2)

/-- The window's distance of two indices, in its unit. -/
def AttnRec.dist (a : AttnRec) (q k : Nat) : Int :=
  if a.blocks then ((q / 128 : Nat) : Int) - (k / 128 : Nat) else (q : Int) - k

/-- visible(q, k) (R176); an index that reaches 2^32 is masked (R175). -/
def AttnRec.visible (a : AttnRec) (t : List Nat × List (Nat × Nat)) (q k : Nat) : Bool :=
  let late := a.causal && decide (q < k) &&
    !(a.bidi && (bidiOf t.2 q).isSome && bidiOf t.2 q == bidiOf t.2 k)
  let out := a.window && (decide ((a.win : Int) ≤ a.dist q k) ||
    (!a.causal && decide ((a.win : Int) ≤ -a.dist q k)))
  decide (q < 2 ^ 32 ∧ k < 2 ^ 32) && !late && !out && !(a.doc && docOf t.1 q != docOf t.1 k)

/-- The skip test (R183) over live indices q0 to q1 and k0 to k1. -/
def AttnRec.skips (a : AttnRec) (t : List Nat × List (Nat × Nat)) (q0 q1 k0 k1 : Nat) : Bool :=
  (a.causal && decide (q1 < k0) && !(a.bidi && t.2.any fun r => decide (r.1 ≤ q1 ∧ k0 < r.2))) ||
    (a.window && decide ((a.win : Int) ≤ a.dist q0 k1)) ||
    (a.window && !a.causal && decide ((a.win : Int) ≤ -a.dist q1 k0)) ||
    (a.doc && (decide (docOf t.1 k1 < docOf t.1 q0) || decide (docOf t.1 q1 < docOf t.1 k0)))

/-- The index of query row 0 (R174). -/
def Nest.firstQuery (x : Nest) (i : Iter) : Nat :=
  match x.op 0 with
  | some o => x.firstIndex i o.rowBase o.rowLevel + x.n.attn.qOff
  | none => 0

/-- The index of key column 0: the descriptor's, or KEY_BASE of a page gather (R174, R276). -/
def Nest.firstKey (x : Nest) (i : Iter) (side : Option Sideband) : Nat :=
  match side with
  | some d => d.keyBase
  | none => match x.op 1 with
    | some o => x.firstIndex i o.colBase o.colLevel + x.n.attn.kOff
    | none => 0

/-- The live query rows and the live key columns, from and up to. -/
def Nest.liveQ (x : Nest) (i : Iter) : Nat := ((x.op 0).map fun o => x.liveR i o).getD 0
def Nest.liveK (x : Nest) (i : Iter) (side : Option Sideband) : Nat × Nat :=
  let n := ((x.op 1).map fun o => x.liveC i o).getD 0
  match side with
  | some d => (d.lo, min d.hi n)
  | none => (0, n)

/-- The pair is skipped (R183); `side` is the sideband of the key bale. -/
def Nest.skipped (x : Nest) (i : Iter) (side : Option Sideband) : Bool :=
  let lq := x.liveQ i
  let (lo, hi) := x.liveK i side
  let q := x.firstQuery i
  let k := x.firstKey i side
  x.n.masked && !x.st.attnBad.contains x.d.node && decide (0 < lq ∧ lo < hi) &&
    x.n.attn.skips x.tables q (q + lq - 1) (k + lo) (k + hi - 1)

/-- Whether query row r and key column c of a pair see each other. -/
def Nest.sees (x : Nest) (i : Iter) (tq tk : Tile) (side : Option Sideband) (r c : Nat) : Bool :=
  decide (r < tq.liveR) && (List.range tq.cols).any (fun j => (tq.el r j).2) &&
    (List.range tk.rows).any (fun j => (tk.el j c).2) &&
    x.n.attn.visible x.tables (x.firstQuery i + r) (x.firstKey i side + c)

/-- Live elements whose index reaches 2^32 (R175). -/
def Nest.outOfRange (x : Nest) (i : Iter) (side : Option Sideband) : Nat :=
  let q := x.firstQuery i
  let k := x.firstKey i side
  let (lo, hi) := x.liveK i side
  (List.range (x.liveQ i)).countP (fun r => decide (2 ^ 32 ≤ q + r)) +
    (List.range hi).countP fun c => decide (lo ≤ c ∧ 2 ^ 32 ≤ k + c)

/-! ## Arithmetic (R179 to R181, R186 to R188) -/

/-- Positive zero. -/
def fvZero : Fv := .fin false 0 0

/-- Products over n positions in groups of g, added into an accumulator (R103); a position that takes no
part contributes +0 (R176). -/
def dotAcc (g n : Nat) (fa fb : Nat → Fv) (live : Nat → Bool) (c : Word) : FM Word :=
  (List.range ((n + g - 1) / g)).foldlM (fun acc j =>
    let ks := (List.range g).filterMap fun k => if j * g + k < n then some (j * g + k) else none
    groupStep g (ks.map fun k => if live k then fa k else fvZero)
      (ks.map fun k => if live k then fb k else fvZero) acc) c

/-- A word of a list. -/
def wordAt (ws : List Word) (k : Nat) : Word := (ws[k]?).getD 0

/-- FP32 values narrowed with RNE and read back (R179, R187): block by block of 32 for a block-scaled
format; their flags are raised. -/
def narrowRow (format : Nat) (ws : List Word) : FM (List Fv) := do
  match fmtOf format with
  | none => return ws.map fun _ => .nan
  | some f =>
    if !blockScaled format then
      ws.foldlM (fun out w => do
        let (c, fl) := narrowPlain format .rne (dec32 w)
        modify fun g => orFlags g fl
        return out ++ [f.decode c]) []
    else
      (List.range ((ws.length + 31) / 32)).foldlM (fun out b => do
        let es := (ws.drop (32 * b)).take 32
        let (sc, cs, fl, _) := writeBlock format 0 (es.map fun w => ⟨dec32 w, fun _ => 0, false⟩)
        modify fun g => orFlags g fl
        return out ++ cs.map fun c => if sc = 255 then .nan else match f.decode c with
          | .fin n m e => .fin n m (e + (sc : Int) - 127)
          | v => v) []

/-- The scaled scores of a query row against the key columns it sees (R179). -/
def scoreRow (g : Nat) (scale : Word) (tq tk : Tile) (see : Nat → Bool) (r : Nat) : FM (List Word) :=
  (List.range tk.cols).foldlM (fun out c => do
    if !see c then return out ++ [0]
    let sv ← dotAcc g tq.cols (fun k => (tq.el r k).1) (fun k => (tk.el k c).1) (fun _ => true) 0
    return out ++ [← mul32 sv scale]) []

/-- A row of scores as a bale of one row, its visible elements valid. -/
def scoreTile (xs : List Word) (see : Nat → Bool) : Tile :=
  ⟨1, xs.length, 1, xs.length, false, fun _ c => (dec32 (wordAt xs c), see c), fun _ _ => 0⟩

/-- The accumulators of an attention output: 128 × d elements, then a state (m, s) for each row. -/
def attnStart (rows d : Nat) : List Lane :=
  List.replicate (rows * d) (cell 0) ++ List.replicate rows ⟨true, inf32 true, 0, 0⟩

/-- The scores of a query row against a pair, and the state they leave (R132, R179); a row that sees nothing
keeps its state (R180). -/
def fwdScores (a : AttnRec) (g : Nat) (tq tk : Tile) (see : Nat → Bool) (r : Nat) (st : Lane) :
    FM (List Word × Lane) := do
  if !(List.range tk.cols).any see then return ([], st)
  else
    let xs ← scoreRow g a.scale tq tk see r
    return (xs, ← softmaxRow (scoreTile xs see) 0 st)

/-- One row of a forward pair (R179, R180): new elements and state (DEDUCED, log entry 49). -/
def fwdRow (a : AttnRec) (g : Nat) (tq tk tv : Tile) (see : Nat → Bool) (r : Nat) (o : List Lane) (st : Lane) :
    FM (List Lane × Lane) := do
  if !(List.range tk.cols).any see then return (o, st)
  else
    let (xs, st') ← fwdScores a g tq tk see r st
    if st'.a = inf32 true then return (o, st')
    else
      let f ← sfuM false 0x40 (← sub32 st.a st'.a)
      let ps ← (List.range tk.cols).foldlM (fun (out : List Word) c => do
        if see c then return out ++ [← sfuM false 0x40 (← sub32 (wordAt xs c) st'.a)]
        else return out ++ [0]) []
      let pn ← narrowRow a.pFmt ps
      let o' ← (List.range o.length).foldlM (fun (out : List Lane) j => do
        let c ← mul32 (laneAt o j).a f
        let v ← dotAcc (groupSize a.pFmt) tk.cols (fun k => (pn[k]?).getD fvZero) (fun k => (tv.el k j).1) see c
        return out ++ [cell v]) []
      return (o', st')

/-- Row r of an accumulator of elements and states (DEDUCED, log entry 49). -/
def attnRow (acc : List Lane) (d r : Nat) : List Lane := (acc.drop (r * d)).take d
def attnState (acc : List Lane) (rows d r : Nat) : Lane := laneAt acc (rows * d + r)

/-- Every live row goes through a function; the others stay. -/
def mapRows (rows d live : Nat) (acc : List Lane) (f : Nat → List Lane → Lane → FM (List Lane × Lane)) :
    FM (List Lane) := do
  let out ← (List.range rows).foldlM (fun (out : List Lane × List Lane) r => do
    let o := attnRow acc d r
    let st := attnState acc rows d r
    if r < live then
      let (o, st) ← f r o st
      return (out.1 ++ o, out.2 ++ [st])
    else return (out.1 ++ o, out.2 ++ [st])) ([], [])
  return out.1 ++ out.2

/-- The state of every live row goes through a function; the others stay. -/
def mapStates (live : Nat) (sts : List Lane) (f : Nat → Lane → FM Lane) : FM (List Lane) :=
  (List.range sts.length).foldlM (fun out r => do
    if r < live then return out ++ [← f r (laneAt sts r)] else return out ++ [laneAt sts r]) []

/-- One part of a merge into a row's state (R186). -/
def mergeState (ts : Tile) (r : Nat) (st : Lane) : FM Lane := do
  let mp ← ts.f32 r 0
  let sp ← ts.f32 r 1
  let m := max32 st.a mp
  if m = inf32 true then return st
  else
    let a ← sfuM false 0x40 (← sub32 st.a m)
    let b ← sfuM false 0x40 (← sub32 mp m)
    return ⟨true, m, ← add32 (← mul32 st.b a) (← mul32 sp b), 0⟩

/-- One part of a merge into a row (R186). -/
def mergeRow (tp ts : Tile) (r : Nat) (o : List Lane) (st : Lane) : FM (List Lane × Lane) := do
  let mp ← ts.f32 r 0
  let m := max32 st.a mp
  if m = inf32 true then return (o, st)
  else
    let a ← sfuM false 0x40 (← sub32 st.a m)
    let b ← sfuM false 0x40 (← sub32 mp m)
    let st' ← mergeState ts r st
    let o' ← (List.range o.length).foldlM (fun (out : List Lane) j => do
      let v ← add32 (← mul32 (laneAt o j).a a) (← mul32 (← tp.f32 r j) b)
      return out ++ [cell v]) []
    return (o', st')

/-- A block pair of the backward pass (R187): the record, the format of Q, d, rows, keys, live rows and keys,
the tiles of Q, K, V, dO, L and D, and which rows and columns see each other. -/
structure BwdPair where
  a : AttnRec
  fmt : Nat
  d : Nat
  rows : Nat
  keys : Nat
  liveQ : Nat
  liveK : Nat
  tq : Tile
  tk : Tile
  tv : Tile
  tg : Tile
  tl : Tile
  td : Tile
  see : Nat → Nat → Bool

/-- The rows whose P and dS are not forced to +0 (R187, R188). -/
def BwdPair.live (b : BwdPair) (r c : Nat) : Bool :=
  b.see r c && ((b.tl.f32 r 0).run noFlags).1 != inf32 true

/-- P of a query row, by key. -/
def BwdPair.p (b : BwdPair) (r : Nat) : FM (List Word) := do
  if !(List.range b.keys).any (b.live r) then return List.replicate b.keys 0
  else
    let l ← b.tl.f32 r 0
    let xs ← scoreRow (groupSize b.fmt) b.a.scale b.tq b.tk (b.live r) r
    (List.range b.keys).foldlM (fun out c => do
      if b.live r c then return out ++ [← sfuM false 0x40 (← sub32 (wordAt xs c) l)] else return out ++ [0]) []

/-- dS of a query row, by key. -/
def BwdPair.ds (b : BwdPair) (r : Nat) : FM (List Word) := do
  let ps ← b.p r
  let dd ← b.td.f32 r 0
  (List.range b.keys).foldlM (fun out c => do
    if b.live r c then
      let dp ← dotAcc (groupSize b.fmt) b.tg.cols (fun k => (b.tg.el r k).1) (fun k => (b.tv.el c k).1)
        (fun _ => true) 0
      return out ++ [← mul32 (← mul32 (wordAt ps c) (← sub32 dp dd)) b.a.scale]
    else return out ++ [0]) []

/-- The words of every live query row, narrowed to the format of Q. -/
def BwdPair.narrowed (b : BwdPair) (f : Nat → FM (List Word)) : FM (List (List Fv)) :=
  (List.range b.liveQ).foldlM (fun out r => do return out ++ [← narrowRow b.fmt (← f r)]) []

/-- An element of narrowed rows. -/
def fvAt (rs : List (List Fv)) (r c : Nat) : Fv := (((rs[r]?).getD [])[c]?).getD fvZero

/-- dV after the pair: Pnᵀ · dO added (R187). -/
def BwdPair.dv (b : BwdPair) (acc : List Lane) : FM (List Lane) := do
  let pn ← b.narrowed b.p
  (positions b.keys b.d).foldlM (fun (out : List Lane) q => do
    let old := laneAt acc (q.1 * b.d + q.2)
    if q.1 < b.liveK then
      return out ++ [cell (← dotAcc (groupSize b.fmt) b.liveQ (fun r => fvAt pn r q.1) (fun r => (b.tg.el r q.2).1)
        (fun r => b.live r q.1) old.a)]
    else return out ++ [old]) []

/-- dK after the pair: dSnᵀ · Q added (R187). -/
def BwdPair.dk (b : BwdPair) (acc : List Lane) : FM (List Lane) := do
  let dsn ← b.narrowed b.ds
  (positions b.d b.keys).foldlM (fun (out : List Lane) q => do
    let old := laneAt acc (q.1 * b.keys + q.2)
    if q.2 < b.liveK then
      return out ++ [cell (← dotAcc (groupSize b.fmt) b.liveQ (fun r => fvAt dsn r q.2) (fun r => (b.tq.el r q.1).1)
        (fun r => b.live r q.2) old.a)]
    else return out ++ [old]) []

/-- dQ after the pair: dSn · Kᵀ added (R187). -/
def BwdPair.dq (b : BwdPair) (acc : List Lane) : FM (List Lane) := do
  let dsn ← b.narrowed b.ds
  (positions b.rows b.d).foldlM (fun (out : List Lane) q => do
    let old := laneAt acc (q.1 * b.d + q.2)
    if q.1 < b.liveQ then
      return out ++ [cell (← dotAcc (groupSize b.fmt) b.keys (fun c => fvAt dsn q.1 c) (fun c => (b.tk.el q.2 c).1)
        (fun c => b.live q.1 c) old.a)]
    else return out ++ [old]) []

/-- An element of a finalised row (R181); an empty row is +0. -/
def finalElem (o st : Lane) : FM Word := if isZero32 st.b && !isNeg32 st.b then return 0 else div32 o.a st.b

end Sys2Proof.Machine
end

