-- ==== Sys2Proof/Machine/Optimizer.lean ====
section
/-! DEFINITION. OPT_STEP (spec/09 R242 to R249): the update of one element, and the faults of R259. -/

namespace Sys2Proof.Machine

/-- The correctly rounded IEEE square root (R245). -/
def sqrt32 (w : Word) : FM Word :=
  match dec32 w with
  | .nan => return nan32
  | .inf neg => return if neg then nan32 else w
  | .fin neg m e =>
    if m = 0 then return w
    else if neg then return nan32
    else
      let k : Nat := if e % 2 = 0 then 100 else 101
      let n := m * 2 ^ k
      let q := n.sqrt
      let (q2, x) : Nat × Int := (2 * q + (if q * q = n then 0 else 1), (e - k) / 2 - 1)
      round32 false q2 1 x

/-- The words of a HYPER bale (R244). -/
structure Hyper where
  lr : Word
  b1 : Word
  c1 : Word
  b2 : Word
  c2 : Word
  eps : Word
  wd : Word
  gs : Word
  bc1 : Word
  bc2s : Word

/-- HYPER from its tile. -/
def hyperOf (t : Tile) : FM Hyper := do
  return ⟨← t.f32 0 0, ← t.f32 0 1, ← t.f32 0 2, ← t.f32 0 3, ← t.f32 0 4, ← t.f32 0 5, ← t.f32 0 6,
    ← t.f32 0 7, ← t.f32 0 8, ← t.f32 0 9⟩

/-- The sum of two rounded products. -/
def mix32 (a x b y : Word) : FM Word := do add32 (← mul32 a x) (← mul32 b y)

/-- One element's m′ (R245), from g = G × GSCALE and m. -/
def optM (variant : Nat) (h : Hyper) (gin m : Word) : FM Word := do
  let g ← mul32 gin h.gs
  if variant = 2 then mix32 h.b2 m h.c2 g else mix32 h.b1 m h.c1 g

/-- One element's r′ (R245). -/
def optR (variant : Nat) (h : Hyper) (gin r : Word) : FM Word := do
  if variant = 1 then
    let g ← mul32 gin h.gs
    sqrt32 (← mix32 h.b2 (← mul32 r r) h.c2 (← mul32 g g))
  else return 0

/-- One element's w′ (R245). -/
def optW (variant : Nat) (h : Hyper) (w gin m r : Word) : FM Word := do
  let u ← (match variant with
    | 1 => do div32 (← mul32 (← optM 1 h gin m) h.bc1) (← add32 (← mul32 (← optR 1 h gin r) h.bc2s) h.eps)
    | 2 => do
      let c ← mix32 h.b1 m h.c1 (← mul32 gin h.gs)
      return if isNan32 c || isZero32 c then c else if isNeg32 c then 0xBF800000 else one32
    | v => optM v h gin m : FM Word)
  sub32 w (← mul32 h.lr (← add32 u (← mul32 h.wd w)))

/-- The words of an output of an update, element by element in row order; positions beyond the live extents
hold nothing that is written. -/
def optTile (rows cols liveR liveC : Nat) (f : Nat → Nat → FM Word) : FM (List Lane) :=
  (positions rows cols).foldlM (fun out q => do
    if q.1 < liveR ∧ q.2 < liveC then return out ++ [cell (← f q.1 q.2)]
    else return out ++ [cell 0]) []

/-- VARIANT and MROUND of an OPT record (R242). -/
def NodeEnt.variant (n : NodeEnt) : Nat := fieldAt n.record 0 1
def NodeEnt.mround (n : NodeEnt) : Nat := fieldAt n.record 1 1

/-- An OPT or PIPE fault (R259): the first kept, and a cause of DATA_ERROR (DEDUCED, log entry 39). -/
def State.optFault (s : State) (p core desc code : Nat) : State :=
  let s := if s.flag TEN_OPT_STATUS_FAULT core then s
    else (s.setFld TEN_OPT_FAULT_CODE core code).setFld TEN_OPT_FAULT_DESC core desc
  (s.setFld TEN_OPT_STATUS_FAULT core 1).stepFault p 0x04

end Sys2Proof.Machine
end

