-- ==== Sys2Proof/Machine/Engines.lean ====
section
/-! DEFINITION. What one issued iteration computes, by the kind of its node (spec/04 R94 to R105, spec/05,
spec/07, spec/09), and the bale that an output holds when it is written (R109 to R117, R181, R246). -/

namespace Sys2Proof.Machine

/-! ## The inputs of an iteration -/

/-- An iteration with the items its operands took, and what its outputs held before. -/
structure Calc where
  x : Nest
  i : Iter
  items : List (Nat × Item)
  held : List Held
  ucode : Ucode
  /-- Rows of the output's bale that took a valid element earlier in the nest (R127). -/
  fed : Nat → Bool

/-- The item of an operand. -/
def Calc.item (c : Calc) (k : Nat) : Option Item := (c.items.find? (·.1 == k)).map (·.2)

/-- The tile of an operand; an absent one has no valid element. -/
def Calc.tile (c : Calc) (k : Nat) : Tile :=
  match c.x.op k, c.item k with
  | some o, some it => c.x.tile c.i o it
  | _, _ => noTile

/-- The operands that are read (roles 1 and 4), and the outputs (2, 3 and 5), in record order. -/
def Nest.reads (x : Nest) : List (Nat × Operand) := x.ops.filter fun o => o.2.role == 1 || o.2.role == 4
def Nest.outs (x : Nest) : List (Nat × Operand) :=
  x.ops.filter fun o => o.2.role == 2 || o.2.role == 3 || o.2.role == 5

/-- The stored tile of a read-modify-write output that starts afresh. -/
def Calc.stored (c : Calc) (k : Nat) : Option Tile :=
  match c.x.op k, c.item k with
  | some o, some it => if o.role = 3 then some (c.x.tile c.i o it) else none
  | _, _ => none

/-- What an output held for this bale before the iteration. -/
def Calc.old (c : Calc) (k : Nat) : Option Held := c.held.find? (·.op == k)

/-- A result for an output: its lanes, and the events of computing them. -/
abbrev OutLanes := Nat × List Lane × Flags

/-- Run a computation on an output's lanes. -/
def runLanes (k : Nat) (m : FM (List Lane)) : OutLanes :=
  let (ls, fl) := m.run noFlags
  (k, ls, fl)

/-- The extents of an output record. -/
def Calc.dims (c : Calc) (k : Nat) : Nat × Nat := ((c.x.op k).map fun o => (o.rows, o.cols)).getD (1, 1)
def Calc.lives (c : Calc) (k : Nat) : Nat × Nat :=
  ((c.x.op k).map fun o => (c.x.liveR c.i o, c.x.liveC c.i o)).getD (0, 0)

/-! ## The kinds -/

/-- TENSOR (R94, R103, R104). -/
def Calc.tensor (c : Calc) : List OutLanes :=
  match c.x.reads, c.x.outs with
  | a :: b :: _, (k, o) :: _ =>
    let (lr, lc) := c.lives k
    [runLanes k (do
      let acc ← match c.old k with
        | some h => pure h.acc
        | none => tensorStart o.rows o.cols (c.stored k)
      tensorStep a.2.format o.rows o.cols lr lc (c.tile a.1) (c.tile b.1) acc)]
  | _, _ => []

/-- The vector operation of a node (R124). -/
def NodeEnt.vec (n : NodeEnt) : VecOp :=
  let p := fun k => BitVec.ofNat 32 ((n.params[k]?).getD 0)
  ⟨n.vop, p 0, p 1, p 2⟩

/-- VECTOR (R124, R126 to R137, R144). -/
def Calc.vector (c : Calc) : List OutLanes :=
  match c.x.outs with
  | (k, o) :: _ =>
    let ins := c.x.reads.map fun r => c.tile r.1
    let v := c.x.n.vec
    let (lr, lc) := c.lives k
    [runLanes k (do
      if isReduction v.vop then
        let acc ← match c.old k with
          | some h => pure h.acc
          | none => redStart v.vop o.rows c.fed (c.stored k)
        redStep v.vop ((ins[0]?).getD noTile) acc
      else vecCells v c.ucode ins (o.format == 1) o.rows o.cols lr lc (c.x.rowOrg c.i o))]
  | [] => []

/-- The sideband of the key bale. -/
def Calc.side (c : Calc) : Option Sideband := (c.item 1).bind (·.side)

/-- Whether a query row and a key column of the pair see each other. -/
def Calc.sees (c : Calc) : Nat → Nat → Bool := c.x.sees c.i (c.tile 0) (c.tile 1) c.side

/-- ATTN_FWD (R179, R180): the output with its states, and the states alone, each with the events of its own
making (R116). -/
def Calc.attnFwd (c : Calc) : List OutLanes :=
  let a := c.x.n.attn
  let (rows, d) := c.dims 3
  let g := groupSize (((c.x.op 0).map (·.format)).getD 0)
  let start := match c.old 3 with
    | some h => h.acc
    | none => attnStart rows d
  let out := runLanes 3 (mapRows rows d (c.x.liveQ c.i) start fun r o st =>
    fwdRow a g (c.tile 0) (c.tile 1) (c.tile 2) (c.sees r) r o st)
  let sts := mapStates (c.x.liveQ c.i) (start.drop (rows * d)) fun r st =>
    return (← fwdScores a g (c.tile 0) (c.tile 1) (c.sees r) r st).2
  [out, (4, out.2.1.drop (rows * d), (sts.run noFlags).2)]

/-- ATTN_MERGE (R186). -/
def Calc.attnMerge (c : Calc) : List OutLanes :=
  let (rows, d) := c.dims 2
  let start := match c.old 2 with
    | some h => h.acc
    | none => attnStart rows d
  let out := runLanes 2 (mapRows rows d (c.tile 0).liveR start fun r o st => mergeRow (c.tile 0) (c.tile 1) r o st)
  let sts := mapStates (c.tile 0).liveR (start.drop (rows * d)) fun r st => mergeState (c.tile 1) r st
  [out, (3, out.2.1.drop (rows * d), (sts.run noFlags).2)]

/-- The words an FP32 read-modify-write output starts from. -/
def Calc.rmw (c : Calc) (k : Nat) : FM (List Lane) :=
  match c.old k with
  | some h => pure h.acc
  | none => tensorStart (c.dims k).1 (c.dims k).2 (c.stored k)

/-- ATTN_BWD (R187, R188): each gradient with the events of its own making (R116). -/
def Calc.attnBwd (c : Calc) : List OutLanes :=
  let a := c.x.n.attn
  let b : BwdPair := ⟨a, ((c.x.op 0).map (·.format)).getD 0, (c.dims 6).2, (c.dims 6).1, (c.dims 8).1,
    c.x.liveQ c.i, (c.x.liveK c.i c.side).2, c.tile 0, c.tile 1, c.tile 2, c.tile 3, c.tile 4, c.tile 5, c.sees⟩
  [runLanes 6 (do b.dq (← c.rmw 6)), runLanes 7 (do b.dk (← c.rmw 7)), runLanes 8 (do b.dv (← c.rmw 8))]

/-- OPT_STEP (R245, R246, R248); `count` says whether COUNT rises in this iteration. -/
def Calc.opt (c : Calc) (count : Bool) : List OutLanes :=
  let (rows, cols) := c.dims 0
  let (lr, lc) := c.lives 0
  let word := fun k => fun (r q : Nat) => match c.old k with
    | some h => (pure (laneAt h.acc (r * cols + q)).a : FM Word)
    | none => (c.tile k).f32 r q
  let g := fun r q => (c.tile 1).f32 r q
  let v := c.x.n.variant
  let run := fun k (f : Hyper → Nat → Nat → FM Word) => runLanes k (do
    let h ← hyperOf (c.tile 3)
    optTile rows cols lr lc (f h))
  let w := run 0 fun h r q => do optW v h (← word 0 r q) (← g r q) (← word 2 r q) (← word 4 r q)
  let cnt := match c.old 6 with
    | some h => (laneAt h.acc 0).a
    | none => BitVec.ofNat 32 ((c.tile 6).raw 0 0)
  [w, run 2 fun h r q => do optM v h (← g r q) (← word 2 r q), run 4 fun h r q => do optR v h (← g r q) (← word 4 r q),
    (5, w.2), (6, [cell (if count then cnt + 1 else cnt)], noFlags)].filter
    fun o => (c.x.op o.1).isSome

/-- Some live query row and key column of the pair take part in its products (R176, R180, R188). -/
def Calc.touches (c : Calc) : Bool :=
  (List.range (c.x.liveQ c.i)).any fun r =>
    (c.x.n.kind == 3 || (((c.tile 4).f32 r 0).run noFlags).1 != inf32 true) &&
      (List.range (c.tile 1).cols).any fun k => c.sees r k

/-- What the iteration leaves in its outputs. -/
def Calc.run (c : Calc) (count : Bool) : List OutLanes :=
  match c.x.n.kind with
  | 1 => c.tensor
  | 2 => c.vector
  | 3 => c.attnFwd
  | 4 => c.attnBwd
  | 5 => c.attnMerge
  | 8 => c.opt count
  | _ => []

/-! ## The bale that an output is written as -/

/-- The values of an output's live elements, row by row, with whether each raises no flag. -/
def Nest.cells (x : Nest) (o : Operand) (h : Held) : FM (List (Word × Bool)) :=
  let live := positions h.liveR h.liveC
  let plain := live.map fun q => let l := laneAt h.acc (q.1 * o.cols + q.2)
                                 (l.a, l.n == 1 && x.n.kind == 2)
  let state := fun r => laneAt h.acc r
  let lse : FM (List (Word × Bool)) := live.foldlM (fun out q => do
    let l := state q.1
    let (w, quiet) ← rowLse l.a l.b true
    return out ++ [(w, quiet)]) []
  let final : FM (List (Word × Bool)) := live.foldlM (fun out q => do
    let w ← finalElem (laneAt h.acc (q.1 * o.cols + q.2)) (attnState h.acc o.rows o.cols q.1)
    return out ++ [(w, false)]) []
  match x.n.kind with
  | 2 =>
    if isReduction x.n.vop then (List.range h.liveR).foldlM (fun out r => do
      let (ws, quiet) ← redRow x.n.vop o.cols h.acc r
      return out ++ (ws.take h.liveC).map fun w => (w, quiet)) []
    else pure plain
  | 3 =>
    if h.op = 3 then (if x.n.attn.mode = 0 then final else pure plain)
    else if x.n.attn.mode = 0 then lse
    else pure (live.map fun q => let l := state q.1
                                 (if q.2 = 0 then l.a else l.b, l.a == inf32 true))
  | 5 => if h.op = 2 then final else lse
  | _ => pure plain

/-- ROUND, SITE, the TENSOR_ID and the origins that an output's stochastic draws take (R111, R246). -/
def Nest.draws (x : Nest) (o : Operand) (h : Held) : Nat × Nat × Nat × Nat :=
  if x.n.kind = 8 then
    let (br, bc) := ((x.op 0).map fun w => (w.rowBase, w.colBase)).getD (0, 0)
    let r := h.rowOrg + 2 ^ 32 - o.rowBase + br
    let c := h.colOrg + 2 ^ 32 - o.colBase + bc
    if h.op = 2 ∨ h.op = 4 then (x.n.mround, 3, r, c) else (x.n.round, 2, r, c)
  else (x.n.round, 0, h.rowOrg, h.colOrg)

/-- The payload of an output, the events of its elements, and how many saturated. -/
def Nest.outPayload (x : Nest) (o : Operand) (h : Held) : List Byte × Flags × Nat :=
  if x.st.attnBad.contains x.d.node && x.n.masked then
    (List.replicate (payloadSize o.format o.shape h.liveR h.liveC) 0, noFlags, 0)
  else
    let (ws, fl) := (x.cells o h).run noFlags
    let at_ := fun r c => (ws[r * h.liveC + c]?).getD (0, false)
    if o.format = 10 then (writeUint o.shape h.liveR h.liveC fun r c => (at_ r c).1.toNat, noFlags, 0)
    else
      let (round, site, ro, co) := x.draws o h
      let (pay, f2, sats) := writePayload o.format o.shape round h.liveR h.liveC fun r c =>
        { v := dec32 (at_ r c).1, quiet := (at_ r c).2
          word := fun _ => srWord x.st.seed x.st.step site o.tensor ((ro + r) % 2 ^ 32) ((co + c) % 2 ^ 32) }
      (pay, orFlags fl f2, sats)

/-- Live rows that an attention output finalises with nothing to attend to (R181). -/
def Nest.emptyRows (x : Nest) (o : Operand) (h : Held) : Nat :=
  let final := (x.n.kind == 3 && h.op == 3 && x.n.attn.mode == 0) || (x.n.kind == 5 && h.op == 2)
  if final && !x.st.attnBad.contains x.d.node then
    (List.range h.liveR).countP fun r => (attnState h.acc o.rows o.cols r).b == 0
  else 0

/-- The bale that a held output is written as, its flag events, those of writing it alone, and how many of
its elements saturated. -/
def Nest.heldBale (x : Nest) (o : Operand) (h : Held) (nextUse : Nat) : Bale × Flags × Flags × Nat :=
  let (pay, f2, sats) := x.outPayload o h
  let fl := orFlags h.flags f2
  (⟨x.outHdr o h nextUse fl, pay⟩, fl, f2, sats)

/-- A held output is written (R88): its bale, flags and counters. -/
def State.flushHeld (s : State) (x : Nest) (h : Held) (nextUse : Nat) (hostFail : List Nat) : State :=
  match x.op h.op with
  | none => s
  | some o =>
    let (b, fl, f2, sats) := x.heldBale o h nextUse
    let s := s.raiseFlags x.p x.core x.n.flagSlot fl
    let s := if sats = 0 then s else s.bump TEN_SAT_COUNT_COUNT x.core sats
    let s := if f2.dom = 0 then s else s.bump SFU_DOMAIN_COUNT_COUNT x.core f2.dom
    let s := match x.emptyRows o h with
      | 0 => s
      | n => s.bump COR_ATT_EMPTY_ROWS_COUNT x.core n
    let s := s.updSeq x.core fun q => { q with
      fed := q.fed ++ ((List.range h.liveR).filter (redFed h.acc)).map fun r => (h.spot, r) }
    s.putBale x o h b hostFail

/-! ## Core clocks of an iteration (R119, R124, R195, R250) -/

/-- The steps S of a micro-program: from its entry to LAST (R140, R143). -/
def progSteps (ucode : List (BitVec 64)) (entry : Nat) : Nat :=
  ((ucode.drop (entry - 320)).findIdx fun st => st.toNat.testBit 18) + 1

/-- The core clocks an iteration takes; kinds the spec gives none for count 1 (log entry 21). -/
def Nest.clocks (x : Nest) : Nat :=
  let o := fun k => (x.op k).getD ⟨0, 0, 0, 0, 1, 1, 7, 7, 0, 0, [], 0, 0, 0, 0⟩
  let size := x.ops.foldl (fun m o => max m (o.2.rows * o.2.cols)) 0
  match x.n.kind with
  | 1 =>
    let a := o 0
    let b := o 1
    let full := if a.format = 1 then 1024 else if a.format ≤ 3 then 256
      else if a.format = 8 ∧ b.format = 8 then 64 else 128
    full * roundUp a.cols 32 / 128
  | 2 =>
    let v := x.n.vop
    let rate := if v = 0x24 then 128 else if v = 0x27 ∨ v = 0x28 ∨ v = 0x29 ∨ 0x40 ≤ v then 64 else 256
    let passes := if v = 0x60 then (progSteps x.pl.ucode ((x.n.params[0]?).getD 0) + 15) / 16 else 1
    (size * passes + rate - 1) / rate
  | 3 => if (o 0).format ≤ 3 then 1024 else 768
  | 4 => 1728
  | 5 => 192
  | 8 => (size + 63) / (if x.n.variant = 1 then 64 else 128)
  | _ => 1

end Sys2Proof.Machine
end

