-- ==== Sys2Proof/Machine/PlanLoad.lean ====
section
/-! DEFINITION. PLAN_LOAD (spec/02 R45, R46) and the placement the Yardmaster makes (spec/12 R315, R316,
R328), with the bindings of chutes (spec/06 R147 to R154) and Halter counters (R158). -/

namespace Sys2Proof.Machine

/-! ## What is placed (R315) -/

/-- Programs that a node names and no recipe names: recipes run where their reader runs (R257). -/
def Plan.placedPrograms (pl : Plan) : List Nat :=
  (List.range pl.programs.length).filter fun q =>
    pl.nodes.any (fun n => n.kind != 11 && n.program == q) && !pl.recipes.any (·.program == q)

/-- The first node of a program, the subject of a failure. -/
def Plan.firstNode (pl : Plan) (q : Nat) : Nat := (pl.nodes.findIdx? (·.program == q)).getD 0

/-- The tensors that a node's record names for the core that runs it. -/
def NodeEnt.recTensors (n : NodeEnt) : List Nat :=
  match n.kind with
  | 3 | 4 | 5 => [fieldAt n.record 20 4, fieldAt n.record 24 4]
  | 6 | 7 => [fieldAt n.record 4 4]
  | _ => []

/-- The tensors that a program reads or writes: operands, live-length words and records. -/
def Plan.progTensors (pl : Plan) (q : Nat) : List Nat :=
  (pl.chain q).flatMap fun d => match pl.desc d with
    | none => []
    | some x => (pl.operands x).map (·.2.tensor) ++ x.levels.map (·.liveTensor) ++
        ((pl.node x.node).map (·.recTensors)).getD []

/-- The cores whose programs use a tensor; a recipe uses its tensors on the cores that read its own. -/
def Plan.userCores (pl : Plan) (t : Nat) : List Nat :=
  let own := (pl.cores.filter fun c => (pl.progTensors c.1).contains t).map fun c => c.2
  let rec_ := (pl.recipes.filter fun r => (pl.progTensors r.program).contains t).flatMap
    fun r => pl.readerCores r.tensor
  (own ++ rec_).eraseDups

/-- Pairs of programs that an edge joins. -/
def Plan.programEdges (pl : Plan) : List (Nat × Nat) :=
  pl.edges.filterMap fun e => match pl.node e.srcNode, pl.node e.dstNode with
    | some a, some b => if a.kind = 11 ∨ b.kind = 11 then none else some (a.program, b.program)
    | _, _ => none

/-- Add, `fuel` times, the programs that an edge joins to those already in a chain. -/
def growChain (es : List (Nat × Nat)) : Nat → List Nat → List Nat
  | 0, ps => ps
  | n + 1, ps =>
    let more := es.filterMap fun e =>
      if ps.contains e.1 && !ps.contains e.2 then some e.2
      else if ps.contains e.2 && !ps.contains e.1 then some e.1
      else none
    if more.isEmpty then ps else growChain es n (ps ++ more.eraseDups)

/-- The chain of programs joined by edges that a program belongs to, in increasing index. -/
def Plan.chainOf (pl : Plan) (q : Nat) : List Nat :=
  let c := growChain pl.programEdges pl.programs.length [q]
  (List.range pl.programs.length).filter c.contains

/-! ## Programs on cores (R315 step 1) -/

/-- A CORES intent allows a core (R314). -/
def coresOk (i : Intent) (core : Nat) : Bool :=
  (i.value % 2 ^ 32).testBit (core / 8) &&
    (i.value / 2 ^ 32 % 256 == 0xFF || i.value / 2 ^ 32 % 256 == core % 8)

/-- The core whose scratch a BINDING names, if it names one (R308: it pins the tensor). -/
def TensorEnt.boundCore (t : TensorEnt) : Option Nat :=
  if t.binding / 2 ^ 60 = 2 then some (t.binding / 2 ^ 22 % 256) else none

/-- The cores to which bound tensors tie a program. -/
def Plan.tiedCores (pl : Plan) (q : Nat) : List Nat :=
  ((pl.progTensors q).filterMap fun t => (pl.tensor t).bind (·.boundCore)).eraseDups

/-- A program is pinned: by a CORES pin or by a tensor bound in scratch. -/
def Plan.pinned (pl : Plan) (q : Nat) : Bool :=
  ((pl.intent 3 q).map (·.pin)).getD false || !(pl.tiedCores q).isEmpty

/-- A program's pins allow a core. -/
def Plan.allows (pl : Plan) (q core : Nat) : Bool :=
  (match pl.intent 3 q with
    | some i => !i.pin || coresOk i core
    | none => true) && (pl.tiedCores q).all (· == core)

/-- Place pinned programs on distinct cores, the programs of a chain on one die (R147). -/
def Plan.assignPins (pl : Plan) (cores : List Nat) : List Nat → List (Nat × Nat) → Option (List (Nat × Nat))
  | [], done => some done
  | q :: qs, done =>
    let chain := pl.chainOf q
    cores.findSome? fun c =>
      if pl.allows q c && !done.any (fun d => d.2 == c || (chain.contains d.1 && d.2 / 64 != c / 64)) then
        pl.assignPins cores qs (done ++ [(q, c)])
      else none

/-- The sublists of a length, in lexicographic order. -/
def choose {α : Type} : Nat → List α → List (List α)
  | 0, _ => [[]]
  | _ + 1, [] => []
  | n + 1, a :: t => (choose n t).map (a :: ·) ++ choose (n + 1) t

/-- Place programs, in order, on free cores: each on one its hint allows if there is one. -/
def Plan.fillCores (pl : Plan) : List Nat → List Nat → List (Nat × Nat)
  | [], _ => []
  | q :: qs, free =>
    let hinted := match pl.intent 3 q with
      | some i => free.find? (coresOk i)
      | none => none
    match hinted.orElse fun _ => free.head? with
    | some c => (q, c) :: pl.fillCores qs (free.filter (· != c))
    | none => []

/-- The CORES hints that a placement meets. -/
def Plan.hintsMet (pl : Plan) (cs : List (Nat × Nat)) : Nat :=
  (cs.filter fun c => match pl.intent 3 c.1 with
    | some i => coresOk i c.2
    | none => false).length

/-- The best of several placements: the most hints met, the first among equals. -/
def Plan.bestOf (pl : Plan) : List (List (Nat × Nat)) → Option (List (Nat × Nat))
  | [] => none
  | c :: cs => match pl.bestOf cs with
    | none => some c
    | some d => if pl.hintsMet d ≤ pl.hintsMet c then some c else some d

/-- Place the rest of a chain on `k` clusters of one die: the lowest-numbered cluster, or for more than
one the clusters that meet the most hints, then the lowest-numbered ones. -/
def Plan.chainOn (pl : Plan) (clusters cores : List Nat) (done : List (Nat × Nat)) (chain : List Nat)
    (k : Nat) : Option (List (Nat × Nat)) :=
  let fixed := ((done.filter fun d => chain.contains d.1).map fun d => d.2 / 8).eraseDups
  let rest := chain.filter fun q => !done.any (·.1 == q)
  let free := cores.filter fun c => !done.any (·.2 == c)
  let sets := ([0, 1, 2, 3].flatMap fun die => choose k (clusters.filter (· / 8 == die))).filter fun set =>
    fixed.all set.contains && decide (rest.length ≤ (free.filter fun c => set.contains (c / 8)).length)
  let cand := sets.map fun set => pl.fillCores rest (free.filter fun c => set.contains (c / 8))
  if k = 1 then cand.head? else pl.bestOf cand

/-- Place one chain beside what is placed. -/
def Plan.placeChain (pl : Plan) (clusters cores : List Nat) (done : List (Nat × Nat)) (chain : List Nat) :
    Option (List (Nat × Nat)) :=
  if chain.all fun q => done.any (·.1 == q) then some done
  else ([1, 2, 3, 4, 5, 6, 7, 8].findSome? (pl.chainOn clusters cores done chain)).map (done ++ ·)

/-- A cause of R316 and its subject. -/
abbrev PlaceFail := Nat × Nat

/-- What a part of the placement makes, and the causes it meets; it goes on past a failure, since the lowest
cause that applies is recorded (R316, R521). -/
abbrev Placed (α : Type) := α × List PlaceFail

/-- Place every chain, in order of lowest program index (DESIGN CHOICE, log entry 51). -/
def Plan.placeChains (pl : Plan) (clusters cores : List Nat) :
    List Nat → List (Nat × Nat) → Placed (List (Nat × Nat))
  | [], done => (done, [])
  | q :: qs, done => match pl.placeChain clusters cores done (pl.chainOf q) with
    | some d => pl.placeChains clusters cores qs d
    | none => (done, [(0x02, pl.firstNode q)])

/-- Programs on cores. Without pins that can be met, or with too many programs, none is placed. -/
def Plan.placePrograms (pl : Plan) (clusters cores : List Nat) : Placed (List (Nat × Nat)) :=
  let ps := pl.placedPrograms
  let pins := ps.filter pl.pinned
  let none_ := pins.find? fun q => !cores.any (pl.allows q)
  let many := if cores.length < ps.length then [(0x05, pl.firstNode ((ps[cores.length]?).getD 0))] else []
  match pl.assignPins cores pins [], many with
  | none, _ => ([], (0x03, pl.firstNode ((none_.orElse fun _ => pins.head?).getD 0)) :: many)
  | some _, _ :: _ => ([], many)
  | some done, [] => pl.placeChains clusters cores ps done

/-! ## Drovers and ports (R148, R154, R271, R311) -/

/-- Place each DROVE node, in order, on the lowest free drover of the cluster at the other end of its
edge. -/
def Plan.placeDrovers (pl : Plan) : List Nat → List (Nat × Nat) → Placed (List (Nat × Nat))
  | [], done => (done, [])
  | k :: ks, done =>
    match pl.edges.find? fun e => e.srcNode == k || e.dstNode == k with
    | none => pl.placeDrovers ks done
    | some e => match pl.coreOf (if e.srcNode = k then e.dstNode else e.srcNode) with
      | none => pl.placeDrovers ks done
      | some c =>
        match (List.range 4).find? fun d => !done.any (·.2 == c / 8 * 4 + d) with
        | some d => pl.placeDrovers ks (done ++ [(k, c / 8 * 4 + d)])
        | none => let r := pl.placeDrovers ks done
          (r.1, (0x02, k) :: r.2)

/-- The end of an edge at a node: a core, or 256 and more for a drover. -/
def Plan.endOf (pl : Plan) (k : Nat) : Option Nat :=
  match pl.drovers.find? (·.1 == k) with
  | some d => some (256 + d.2)
  | none => pl.coreOf k

/-- The PORT that an operand of a node names. -/
def Plan.portNamed (pl : Plan) (node op : Nat) : Nat :=
  (((pl.edgeOps node op).filterMap id).head?.map (·.port)).getD 0

/-- A port for a chute on a core: the one its operand names if free, else the lowest free one. Drovers
have no ports. -/
def pickPort (used : List (Nat × Nat)) (core want : Nat) : Option Nat :=
  if 256 ≤ core then some 0
  else (want :: [0, 1, 2, 3]).find? fun q => decide (q < 4) && !used.contains (core, q)

/-- Bind edges, in order, to ports: an edge shares the chute of an earlier one in the other direction
between the same cores, or takes one of its own (R311). An edge that finds no port keeps its landing ring. -/
def Plan.bindEdges (pl : Plan) : List EdgeEnt → List BoundEdge → List (Nat × Nat) → List Nat →
    Placed (List BoundEdge)
  | [], done, _, _ => (done, [])
  | e :: es, done, used, shared =>
    match pl.endOf e.srcNode, pl.endOf e.dstNode with
    | some a, some b =>
      let k := done.length
      let new := fun pa pb => (⟨a, pa, b, pb, e.rxUnits, e.srcNode, e.dstNode⟩ : BoundEdge)
      match done.findIdx? fun d => d.srcCore == b && d.dstCore == a &&
          !shared.contains ((done.findIdx? (· == d)).getD 0) with
      | some j =>
        let d := (done[j]?).getD (new 0 0)
        pl.bindEdges es (done ++ [new d.dstPort d.srcPort]) used (j :: k :: shared)
      | none =>
        match pickPort used a (pl.portNamed e.srcNode e.srcOp), pickPort used b (pl.portNamed e.dstNode e.dstOp) with
        | some pa, some pb => pl.bindEdges es (done ++ [new pa pb]) ((a, pa) :: (b, pb) :: used) shared
        | _, _ => let r := pl.bindEdges es (done ++ [new 0 0]) used (k :: shared)
          (r.1, (0x02, e.srcNode) :: r.2)
    | _, _ => pl.bindEdges es done used shared

/-- The cluster of an end. -/
def endClu (e : Nat) : Nat := if e < 256 then e / 8 else (e - 256) / 4

/-- More than 8 directions of cross-cluster chutes leave or enter a cluster (R154); the first node of one
that is too many. -/
def crossBad (bs : List BoundEdge) : Option Nat :=
  let cross := bs.filter fun b => endClu b.srcCore != endClu b.dstCore
  (List.range 32).findSome? fun c =>
    let out := cross.filter fun b => endClu b.srcCore == c
    let in_ := cross.filter fun b => endClu b.dstCore == c
    match (out.drop 8).head?, (in_.drop 8).head? with
    | some b, _ => some b.srcNode
    | none, some b => some b.srcNode
    | none, none => none

/-! ## Tensors (R149, R315 step 3) -/

/-- Ranges of core scratch in use: core, start and end. -/
abbrev Taken := List (Nat × Nat × Nat)

/-- The lowest free range of a core's scratch for `n` bytes. -/
def fitScratch (taken : Taken) (core n : Nat) : Option Nat :=
  let mine := taken.filter (·.1 == core)
  let starts := (0 :: mine.map fun t => roundUp t.2.2 64).filter fun a =>
    decide (a + n ≤ 0x300000) && mine.all fun t => decide (a + n ≤ t.2.1) || decide (t.2.2 ≤ a)
  starts.min?

/-- Landing rings take their place in the receiving cores (R149). -/
def placeRings : List BoundEdge → Taken → Placed Taken
  | [], taken => (taken, [])
  | b :: bs, taken =>
    if 256 ≤ b.dstCore then placeRings bs taken
    else match fitScratch taken b.dstCore (b.rxUnits * 64) with
      | some a => placeRings bs ((b.dstCore, a, a + b.rxUnits * 64) :: taken)
      | none => let r := placeRings bs taken
        (r.1, (0x01, b.dstNode) :: r.2)

/-- A TIER intent of a tensor: its tier, and whether it is a pin. -/
def Plan.tier (pl : Plan) (t : Nat) : Option (Nat × Bool) := (pl.intent 1 t).map fun i => (i.value % 256, i.pin)

/-- The tier a device address lies in: 1 scratch, 2 GDDR, 4 host (R314). -/
def tierOf (addr : Nat) : Nat :=
  match addr / 2 ^ 60 with
  | 0 => 4
  | 1 => 2
  | _ => 1

/-- The working area and its checks (R316, cause 0x06), and how much of it is in use. -/
structure WorkArea where
  base : Nat
  size : Nat
  bad : Bool
  used : Nat
deriving DecidableEq, Repr

/-- What is taken so far while tensors are placed: scratch, working area, homes (the last first). -/
structure Homes where
  taken : Taken
  work : WorkArea
  at_ : List (Nat × Nat)
deriving DecidableEq, Repr

/-- A home in the scratch of a core, if there is room. -/
def Homes.scratch (h : Homes) (t : TensorEnt) (core : Nat) : Option Homes :=
  let size := roundUp t.bytes 64
  (fitScratch h.taken core size).map fun a =>
    { h with taken := (core, a, a + size) :: h.taken, at_ := (t.id, 2 * 2 ^ 60 + core * 2 ^ 22 + a) :: h.at_ }

/-- A home in the working area, if it is good and has room. -/
def Homes.gddr (h : Homes) (t : TensorEnt) : Option Homes :=
  let size := roundUp t.bytes 64
  if h.work.bad || decide (h.work.size < h.work.used + size) then none
  else some { h with
    work := { h.work with used := h.work.used + size }
    at_ := (t.id, 2 ^ 60 + h.work.base + h.work.used) :: h.at_ }

/-- A tensor's home, or the cause that it has none: the scratch of the one core that uses it if it fits there,
else the working area. A TIER pin holds; a hint of GDDR is tried first and set aside if it cannot be met
(DESIGN CHOICE, log entry 51). -/
def Plan.placeTensor (pl : Plan) (h : Homes) (t : TensorEnt) : Except Nat Homes :=
  let tier := pl.tier t.id
  let or_ := fun (o : Option Homes) (cause : Nat) => match o with
    | some h => Except.ok h
    | none => Except.error cause
  match pl.userCores t.id with
  | [c] =>
    if tier = some (4, true) then .error 0x03
    else if tier = some (1, true) then or_ (h.scratch t c) 0x01
    else if tier = some (2, true) then or_ (h.gddr t) 0x06
    else if tier = some (2, false) then or_ ((h.gddr t).orElse fun _ => h.scratch t c) 0x06
    else or_ ((h.scratch t c).orElse fun _ => h.gddr t) 0x06
  | _ => if tier = some (1, true) ∨ tier = some (4, true) then .error 0x03 else or_ (h.gddr t) 0x06

/-- Place tensors, in order. -/
def Plan.placeTensors (pl : Plan) : List TensorEnt → Homes → Placed Homes
  | [], h => (h, [])
  | t :: ts, h => match pl.placeTensor h t with
    | .ok h => pl.placeTensors ts h
    | .error c => let r := pl.placeTensors ts h
      (r.1, (c, t.id) :: r.2)

/-- The tensors the Yardmaster places: those without a BINDING that no PLAN_RUN must bind; tensors pinned
to scratch come first. -/
def Plan.toPlace (pl : Plan) : List TensorEnt :=
  let ts := pl.tensors.filter fun t => t.binding == 0 && !t.arg
  let pinned := fun t : TensorEnt => pl.tier t.id == some (1, true)
  ts.filter pinned ++ ts.filter fun t => !pinned t

/-- Causes of tensors with a BINDING: a TIER pin that names another tier (0x03), an end beyond a core's
3 MiB of scratch (0x01). -/
def Plan.bindingBad (pl : Plan) : List PlaceFail :=
  pl.tensors.filterMap (fun t => match pl.tier t.id with
    | some (k, true) => if t.binding ≠ 0 ∧ tierOf t.binding ≠ k then some (0x03, t.id) else none
    | _ => none) ++
  pl.tensors.filterMap fun t =>
    if t.boundCore.isSome ∧ 0x300000 < t.binding % 2 ^ 22 + t.bytes then some (0x01, t.id) else none

/-- The programs that use a tensor and are placed; each runs on a core of its own. -/
def Plan.userPrograms (pl : Plan) (t : Nat) : List Nat :=
  pl.placedPrograms.filter fun q => (pl.progTensors q).contains t

/-- A tensor that several programs use is pinned to scratch, or any placed tensor to the host: no placement
meets that pin (cause 0x03). -/
def Plan.pinBad (pl : Plan) : List PlaceFail :=
  pl.toPlace.filterMap fun t =>
    if pl.tier t.id = some (4, true) ∨
        (pl.tier t.id = some (1, true) ∧ 1 < (pl.userPrograms t.id).length) then some (0x03, t.id) else none

/-! ## Counters (R158, R315 step 4) -/

/-- The identifiers of a kind in increasing order. -/
def Plan.syncIds (pl : Plan) (sem : Bool) : List Nat :=
  ((pl.syncs.filter (·.sem == sem)).map (·.id)).insertionSort (· ≤ ·)

/-- Bind identifiers, in increasing order, to the physical counters of a list of homes, each with `per`
of them. -/
def bindIds (ids homes : List Nat) (per : Nat) : List (Nat × Nat) :=
  (List.range ids.length).filterMap fun k => match ids[k]?, homes[k / per]? with
    | some i, some h => some (i, h * per + k % per)
    | _, _ => none

/-- Counters the partition does not have (cause 0x04). -/
def Plan.syncBad (pl : Plan) (clusters cores : List Nat) : List PlaceFail :=
  (((pl.syncIds false)[cores.length * 64]?).toList ++ ((pl.syncIds true)[clusters.length * 4096]?).toList).map
    fun i => (0x04, i)

/-! ## Experts (R316, R318, R320) -/

/-- The bytes of an expert: of the tensors that belong to it. -/
def Plan.expertBytes (pl : Plan) (e : Nat) : Nat :=
  ((pl.tensors.filter (·.expert == e)).map (·.bytes)).foldl (· + ·) 0

/-- The experts that have an EXPERT intent. -/
def Plan.boundedExperts (pl : Plan) : List Nat := (pl.intents.filter (·.kind == 4)).map (·.subject)

/-- The replicas beyond the primaries that the MINs ask for exceed the budget (cause 0x07): the first
expert past it. -/
def expertsBad (pl : Plan) (budget : Nat) : List Nat → Nat → List PlaceFail
  | [], _ => []
  | e :: es, used =>
    let used := used + ((pl.expertBounds e).1 - 1) * pl.expertBytes e
    if budget < used then [(0x07, e)] else expertsBad pl budget es used

/-- A node of an expert with MAX above 1 rounds stochastically (cause 0x08). -/
def Plan.roundBad (pl : Plan) : List PlaceFail :=
  ((List.range pl.nodes.length).zip pl.nodes).filterMap fun x =>
    if x.2.expert ≠ 0xFFFFFFFF ∧ x.2.round = 2 ∧ 1 < (pl.expertBounds x.2.expert).2.1 then some (0x08, x.1) else none

/-- The stable position of an expert's primary copy: that of the rank its all-to-all names (R379). -/
def Plan.primaryAt (pl : Plan) (e : Nat) : Nat :=
  match (pl.colls.filter fun c => c.op == 7 && !c.ret).findSome? fun c =>
      (c.experts[e]?).bind fun r => (c.members[r]?).bind fun m => pl.ranks[m]? with
  | some w => w % 4
  | none => e % 4

/-- The stable positions that hold `n` replicas: the primary's and those after it (log entry 18). -/
def Plan.positions (pl : Plan) (e n : Nat) : Nat :=
  (List.range 4).foldl (fun m k => if k < n then m + 2 ^ ((pl.primaryAt e + k) % 4) else m) 0

/-- What the Yardmaster keeps of an expert before any boundary. -/
def Plan.freshExpert (pl : Plan) (e : Nat) : Expert :=
  let n := (pl.expertBounds e).1
  ⟨n, 0, 0, 0, 0, false, pl.positions e n⟩

/-- The key of an expert of a plan. -/
def expertKey (p plan e : Nat) : Nat := (p * 16 + plan) * 2 ^ 32 + e

/-! ## The placement (R315, R316) -/

/-- The working area of a partition, and whether it lies outside the partition or meets an Ostler region
(R203, R316). -/
def State.workArea (s : State) (p : Nat) : WorkArea :=
  let base := s.reg64 YMS_WORK_BASE_LO p
  let size := s.fld YMS_WORK_MIB_MIB p * 2 ^ 20
  ⟨base, size, decide (s.gddrSize (p + 1) < base + size) ||
    (s.kvOn p && (s.kvRegions p).any fun r => overlaps base size r.1 r.2), 0⟩

/-- The placement behind that of the programs: drovers, edges, landing rings, tensors, counters. -/
def State.placeRest (s : State) (p : Nat) (pl : Plan) : Placed Plan :=
  let ds := pl.placeDrovers ((List.range pl.nodes.length).filter fun k =>
    ((pl.node k).map (·.kind)) == some 11) []
  let pl := { pl with drovers := ds.1 }
  let bound := pl.bindEdges pl.edges [] [] []
  let pl := { pl with bound := bound.1 }
  let rings := placeRings bound.1 (pl.tensors.filterMap fun t => t.boundCore.map fun c =>
    (c, t.binding % 2 ^ 22, t.binding % 2 ^ 22 + t.bytes))
  let homes := pl.placeTensors pl.toPlace ⟨rings.1, s.workArea p, []⟩
  ({ pl with
      homes := homes.1.at_.reverse
      sems := bindIds (pl.syncIds true) (s.clustersOf p) 4096
      bars := bindIds (pl.syncIds false) (s.coresOf p) 64 },
    ds.2 ++ bound.2 ++ ((crossBad bound.1).map fun n => (0x02, n)).toList ++ rings.2 ++ homes.2)

/-- The placement, in the order of R315, or the causes it meets (DESIGN CHOICE, log entry 51). Where the
programs find no cores there is nothing for the rest to be placed beside. -/
def State.placeStages (s : State) (p : Nat) (pl : Plan) : Except (List PlaceFail) Plan :=
  match pl.placePrograms (s.clustersOf p) (s.coresOf p) with
  | (cs, []) => match s.placeRest p { pl with cores := cs } with
    | (pl, []) => .ok pl
    | (_, fs) => .error fs
  | (_, fs) => .error fs

/-- Every cause that applies, in the order found. -/
def State.placeFails (s : State) (p : Nat) (pl : Plan) : List PlaceFail :=
  (match s.placeStages p pl with
    | .error fs => fs
    | .ok _ => []) ++ pl.bindingBad ++ pl.pinBad ++ pl.syncBad (s.clustersOf p) (s.coresOf p) ++
  expertsBad pl (s.fld YMS_EXPERT_BUDGET_MIB p * 2 ^ 20) pl.boundedExperts 0 ++ pl.roundBad

/-- The lowest cause, with its first subject (R521). -/
def lowestFail : List PlaceFail → Option PlaceFail
  | [] => none
  | f :: fs => match lowestFail fs with
    | none => some f
    | some g => if f.1 ≤ g.1 then some f else some g

/-- Hints that the placement sets aside: of placed programs' CORES and of tensors' TIER. The slot of an OFFLOAD
hint brings its tensor back or the load is refused (R314), so it is met. -/
def Plan.hintsMissed (pl : Plan) : Nat :=
  (pl.intents.filter fun i => !i.pin && match i.kind with
    | 1 => match pl.tensor i.subject with
      | some t =>
        let a := if t.binding ≠ 0 then some t.binding else (pl.homes.find? (·.1 == t.id)).map fun h => h.2
        match a with
        | some a => tierOf a != i.value % 256
        | none => false
      | none => false
    | 3 => match pl.cores.find? (·.1 == i.subject) with
      | some c => !coresOk i c.2
      | none => false
    | _ => false).length

/-- The entries of a PLACEMENT record (R472): KIND, subject and location; for an edge the sending core and
port in the low half, the receiving ones in the high half. -/
def Plan.placementBytes (pl : Plan) : List Byte :=
  let entry := fun kind subject loc => leBytes 4 kind ++ leBytes 4 subject ++ leBytes 8 loc
  let end_ := fun core port => core + 65536 * port
  pl.cores.flatMap (fun c => entry 1 c.1 c.2) ++ pl.homes.flatMap (fun h => entry 2 h.1 h.2) ++
    ((List.range pl.bound.length).zip pl.bound).flatMap (fun b =>
      entry 3 b.1 (end_ b.2.srcCore b.2.srcPort + 2 ^ 32 * end_ b.2.dstCore b.2.dstPort)) ++
    pl.bars.flatMap (fun b => entry 4 b.1 b.2) ++ pl.sems.flatMap (fun b => entry 4 (2 ^ 31 + b.1) b.2)

/-- PLACEMENT records (R328): each holds at most 65,535 blocks of entries. -/
def State.placementRecord (s : State) (p id : Nat) (pl : Plan) : State :=
  let bs := pl.placementBytes
  let most := 65535 * 64
  (List.range (max 1 ((bs.length + most - 1) / most))).foldl (fun (s : State) k =>
    let part := (bs.drop (k * most)).take most
    s.dayRecord (p + 1) 0x03 id 0 (leBytes 4 (part.length / 16)) part) s

/-! ## PLAN_LOAD (R45, R46) -/

/-- Disarm a partition's replay (R475). -/
def State.disarm (s : State) (p : Nat) : State :=
  let s := { s with yard := { s.yard with armed := tabDel s.yard.armed p } }
  (s.setFld DAY_STATUS_ARMED (p + 1) 0).setFld DAY_REPLAY_LEFT_COUNT (p + 1) 0

/-- What goes with a plan that is replaced or unloaded: its chutes, experts and the late sums it holds,
which are counted as dropped (R388). -/
def State.forgetPlan (s : State) (p id : Nat) : State :=
  let k := p * 16 + id
  let held := tabGet [] s.yard.deferrals p
  let rest := held.filter fun d => d.plan != id
  let s := s.bump MUS_DROPPED_COUNT p (held.length - rest.length)
  let s := s.setFld MUS_STATUS_DEFER_HELD p (!rest.isEmpty).toNat
  { s with
    chutes := tabDrop s.chutes fun c => c / 65536 == k
    yard := { s.yard with
      plans := tabDel s.yard.plans k
      experts := tabDrop s.yard.experts fun e => e / 2 ^ 32 == k
      counts := tabDrop s.yard.counts fun e => e / 2 ^ 32 == k
      migrations := s.yard.migrations.filter fun m => !(m.part == p && m.plan == id)
      deferrals := tabSet [] s.yard.deferrals p rest
      collShown := tabDrop s.yard.collShown fun c => c / 4096 == k } }

/-- No port of a partition's cores belongs to a chute: BOUND and the binding registers read 0 (R169). -/
def State.hideChutes (s : State) (p : Nat) : State :=
  (s.coresOf p).foldl (fun (s : State) c =>
    let s := (s.setFld COR_CHUTE_STATUS_BOUND c 0).setFld COR_CHUTE_STATUS_SEND_WAIT c 0
    (List.range 4).foldl (fun (s : State) q =>
      ((((s.setFld (COR_CHUTE_PEER_PEER_CORE q) c 0).setFld (COR_CHUTE_PEER_PEER_PORT q) c 0).setFld
        (COR_CHUTE_PEER_CROSS q) c 0).setFld (COR_CHUTE_RING_RX_UNITS q) c 0).setFld
        (COR_CHUTE_CREDITS_TX_CREDITS q) c 0) s) s

/-- A plan is unloaded (R28, R463), its chutes with it. -/
def State.unloadPlan (s : State) (p id : Nat) : State :=
  let s := (s.forgetPlan p id).hideChutes p
  s.setFld YMS_STATUS_PLACED p (s.yard.plans.any fun e => e.1 / 16 == p).toNat

/-- The chute registers of a core (R169) as the loaded plan binds them. -/
def State.showChutes (s : State) (p id : Nat) (pl : Plan) : State :=
  let s := s.hideChutes p
  let side := fun (s : State) (core port peer peerPort : Nat) =>
    if 256 ≤ core then s
    else
      let s := s.setFld COR_CHUTE_STATUS_BOUND core (s.fld COR_CHUTE_STATUS_BOUND core ||| 2 ^ port)
      let s := s.setFld (COR_CHUTE_PEER_PEER_CORE port) core (if peer < 256 then peer else 0)
      let s := s.setFld (COR_CHUTE_PEER_PEER_PORT port) core peerPort
      s.setFld (COR_CHUTE_PEER_CROSS port) core (endClu core != endClu peer).toNat
  ((List.range pl.bound.length).zip pl.bound).foldl (fun (s : State) x =>
    let e := x.2
    let s := side s e.srcCore e.srcPort e.dstCore e.dstPort
    let s := side s e.dstCore e.dstPort e.srcCore e.srcPort
    let s := if e.srcCore < 256 then
        s.setFld (COR_CHUTE_CREDITS_TX_CREDITS e.srcPort) e.srcCore (s.chute p id x.1 e.rxUnits).credits
      else s
    if e.dstCore < 256 then s.setFld (COR_CHUTE_RING_RX_UNITS e.dstPort) e.dstCore e.rxUnits else s) s

/-- A placed plan takes the place of the one its PLAN_ID held. -/
def State.installPlan (s : State) (p id : Nat) (pl : Plan) : State :=
  let s := s.forgetPlan p id
  let s := match tabFind s.yard.armed p with
    | some a => if a.plan = id then s.disarm p else s
    | none => s
  let more := pl.boundedExperts.filter fun e => (pl.expertBounds e).1 != 1
  let s := { s with yard := { s.yard with
    plans := tabPut s.yard.plans (p * 16 + id) pl
    experts := more.foldl (fun t e => tabPut t (expertKey p id e) (pl.freshExpert e)) s.yard.experts } }
  let s := (s.setFld YMS_STATUS_PLACED p 1).setReg YMS_LOAD_CAUSE p 0
  let s := if pl.hintsMissed = 0 then s
    else (s.bump YMS_HINT_MISSED_COUNT p pl.hintsMissed).setFld YMS_STATUS_HINT_MISSED p 1
  (s.showChutes p id pl).placementRecord p id pl

/-- The fields of a PLAN_LOAD. -/
def loadSrc (f : Flight) : Nat := fieldAt f.bytes 8 8
def loadLen (f : Flight) : Nat := fieldAt f.bytes 16 8
def loadId (f : Flight) : Nat := fieldAt f.bytes 24 1
def loadCrc (f : Flight) : Nat := fieldAt f.bytes 28 4

/-- The partition holds a cluster that a failed part made unavailable (R467). -/
def State.missesCluster (s : State) (fn : Nat) : Bool := fn != 0 && (s.clustersOf (fn - 1)).any s.cluGone

/-- The checks of a PLAN_LOAD's fields (R42, R45, R57, R467). -/
def loadChecks (s : State) (f : Flight) : List Failed :=
  checkReserved f [(8, 17), (28, 4)] [] ++ rangeIf (decide (16 ≤ loadId f)) 24 ++
    rangeIf (decide (2 ^ 28 < loadLen f)) 16 ++ refusedIf (loadLen f % 64 != 0) ++
    (match s.place f.fn (loadSrc f) (loadLen f) with
      | .error e => addrFailed 8 e
      | .ok (.scratch ..) => refusedIf true
      | .ok _ => []) ++
    refusedIf (f.fn == 0) 0x2000 ++ refusedIf (s.missesCluster f.fn) 0x400

/-- Check, parse and place an image. A refused one leaves the old plan; its AUX is the byte offset of the
first failing byte in the first refused section, or the placement's cause (R313, R316). -/
def loadImage (s : State) (f : Flight) (img : List Byte) : State :=
  let p := f.fn - 1
  if crc32 img ≠ loadCrc f then s.failDesc f [⟨stRefused, 0, none⟩]
  else match imageBad img with
  | some a => s.failDesc f [⟨stRefused, a, none⟩]
  | none =>
    let x := sectionsOf img
    let pl := parsePlan (loadCrc f) x s.ownAddr
    match planBad x pl (fun t => (sectionOf img t).isSome) s.dims with
    | some aux => s.failDesc f [⟨stRefused, aux, none⟩]
    | none =>
      match lowestFail (s.placeFails p pl), s.placeStages p pl with
      | none, .ok pl => (s.installPlan p (loadId f) pl).finish f stOK 0 0
      | some (c, subj), _ =>
        let s := (s.setFld YMS_LOAD_CAUSE_CAUSE p c).setFld YMS_LOAD_CAUSE_SUBJECT p (subj % 2 ^ 24)
        s.failDesc f [⟨stRefused, 0x80000000 + c, none⟩]
      | none, .error _ => s.failDesc f [⟨stRefused, 0x80000000, none⟩]

/-- A PLAN_LOAD: its fields are checked, then its image is read; poisoned data is DATA_ERROR, a channel in
reset TARGET_RESET (R461, R283). -/
def planLoad (s : State) (f : Flight) : State :=
  match loadChecks s f with
  | x :: xs => s.failDesc f (x :: xs)
  | [] =>
    if loadLen f = 0 then s.finish f stOkEmpty 0 0
    else match s.place f.fn (loadSrc f) (loadLen f) with
      | .error _ => s
      | .ok pl =>
        if s.placeDown f.fn pl (loadLen f) then s.finish f stTargetReset 0 0
        else
          let s := s.updFlight f.seq fun g => { g with taken := true, started := true, ran := true }
          let bad := s.badAt f.fn pl (loadLen f)
          let img := s.readAt f.fn pl (loadLen f)
          let code := s.badCode f.fn pl (loadLen f)
          let s := s.touch f.fn pl (loadLen f)
          if bad then s.finish f stDataError code 0 else loadImage s f img

/-- A PLAN_LOAD runs when its turn among the partition's plan operations has come (R57). -/
def execPlanLoad (fn : Fn) (ring : Ring) (idx : Word) (errs : List MemEvent) (s : State) : Out :=
  s.runDesc fn ring idx.toNat 1 fun s f =>
    if s.planTurn f then s.meeting fn errs fun s => planLoad s f else s

end Sys2Proof.Machine
end

