-- ==== Sys2Proof/Machine/Sequencer.lean ====
section
/-! DEFINITION. The sequencer's steps (spec/03 R83 to R93, spec/06 R162 to R166): a nest starts, its iterations
are issued to their node or skipped (R184), and it ends with its POST. -/

namespace Sys2Proof.Machine

/-! ## Starting a nest (R83, R84, R163, R177, R326) -/

/-- The tensors of live words and tables that a nest reads. -/
def Nest.wordTensors (x : Nest) : List Nat :=
  x.tablesDue ++ (List.range 6).filterMap fun l =>
    let v := x.d.level l
    if v.liveSrc = 0 then none else some v.liveTensor

/-- The words and tables that a nest reads as it starts; it waits for fetches of them (R279). -/
def State.readStart (s : State) (core : Nat) : State :=
  match s.nest core with
  | none => s
  | some x =>
    if x.wordTensors.any (s.fetching x.p) then s.fetchWait x.p core x.wordTensors
    else
      let (ws, s) := (s.earlyEnd x.p core).nestWords x
      (s.updSeq core fun q => { q with words := ws }).readTables x

/-- PRE is done: the nest runs. Its prefetches are cancelled (R326). An OPT_STEP nest reads nothing until
it is known to run (R247) (DEDUCED, log entry 35). -/
def State.beginNest (s : State) (core : Nat) : State :=
  match s.nest core with
  | none => s
  | some x =>
    let s := s.cancelPf fun g => g.part == x.p && g.core == core && g.desc == x.q.desc
    let s := s.updSeq core fun q => { q with
      phase := .run, words := [], idx := none, cand := false, live := zeros6, beff := zeros6, granted := false
      issued := false, held := [], last := [], fed := [], rebuilt := [], owed := [], waitFrom := none }
    if x.n.kind = 8 then s else s.readStart core

/-- The beat of a step's slot. -/
def Nest.slotBeat (x : Nest) (k : Nat) : Nat := x.st.startBeat + ((x.pl.slots[k]?).map (·.beat)).getD 0

/-- A sequencer reaches the nest of its current descriptor and performs PRE (R160 to R166). -/
def nestStart (s : State) (core : Nat) : State :=
  match s.nest core with
  | none => s
  | some x =>
    if x.q.phase ≠ .ready then s
    else
      let s := (s.setFld SEQ_STATUS_CUR_DESC core x.q.desc).setFld SEQ_STATUS_RUNNING core 1
      match x.d.preKind with
      | 1 =>
        let n := tabGet 0 x.q.barWaits x.d.preRef + 1
        let s := s.updSeq core fun q => { q with phase := .waitPre, barWaits := tabPut q.barWaits x.d.preRef n }
        s.halterSend x.p x.d.preRef (.barWait core n)
      | 2 => (s.updSeq core fun q => { q with phase := .waitPre }).semWait x.p x.d.preRef (.pre core) x.d.amount
      | 3 =>
        if x.slotBeat x.d.preRef ≤ s.halter.visible then
          ((s.bump CLU_BEAT_LATE_COUNT_COUNT (core / 8)).setFld CLU_HLT_STATUS_BEAT_LATE (core / 8) 1).beginNest core
        else s.updSeq core fun q => { q with phase := .waitBeat }
      | _ => s.beginNest core

/-- The partition whose function a core's accesses are made for. -/
def State.coreFn (s : State) (core : Nat) : Nat := ((s.partOfCore core).map (· + 1)).getD 0

def execNestStart (core : CoreId) (errs : List MemEvent) (s : State) : Out :=
  .next (if (s.nest core).isNone then s else s.meeting (s.coreFn core) errs fun s => nestStart s core)

/-- The current beat becomes visible at every sequencer (R165): nests that wait for it are released. -/
def beatDelivery (s : State) : State :=
  let s := { s with halter := { s.halter with visible := s.beat } }
  s.seqs.foldl (fun (s : State) (e : Nat × Seq) =>
    match s.nest e.1 with
    | none => s
    | some x =>
      if x.q.phase = .waitBeat ∧ !x.st.stopped ∧ x.slotBeat x.d.preRef ≤ s.halter.visible then s.beginNest e.1
      else s) s

def execBeatDelivery (s : State) : Out := .next (beatDelivery s)

/-! ## Recompute recipes (R255, R257, R280) -/

/-- The recipe that must run on the core before the nest's first read of a tensor (DEDUCED, log entry 36).
-/
def State.recipeDue (s : State) (x : Nest) : Option Recipe :=
  if (tabFind s.suspended x.core).isSome then none
  else
    let reads := (x.ops.filter fun o => o.2.role == 1 || o.2.role == 3).map (·.2.tensor)
    x.pl.recipes.find? fun r => reads.contains r.tensor &&
      if r.always then !x.q.issued && !x.q.rebuilt.contains r.tensor
      else x.st.recompute.contains r.tensor && !x.st.recomputedAt.contains (x.core, r.tensor)

/-- A sequencer that is about to start a program (DEDUCED, log entry 38). -/
def newSeq (program desc : Nat) (barWaits : Tab Nat) : Seq :=
  { program := program, desc := desc, phase := .ready, barWaits := barWaits, words := [], idx := none, cand := false
    live := zeros6, beff := zeros6, granted := false, kvHeld := false, issued := false, held := [], last := [], fed := [], prevCc := 1
    rebuilt := [], owed := [], waitFrom := none }

/-- The recipe runs on the reading core (R257); the nest goes on after it (DEDUCED, log entry 36). -/
def State.runRecipe (s : State) (x : Nest) (r : Recipe) : State :=
  let s := s.bump TEN_RECOMP_RUNS_COUNT x.core
  let s := if r.always then s
    else s.updStep x.p fun st => { st with recomputedAt := (x.core, r.tensor) :: st.recomputedAt }
  { s with
    suspended := tabPut s.suspended x.core { x.q with rebuilt := r.tensor :: x.q.rebuilt }
    seqs := tabPut s.seqs x.core (newSeq r.program ((x.pl.programs[r.program]?).getD 0) x.q.barWaits) }

/-! ## What holds an iteration (R151, R152, R253, R279, R324) -/

/-- The next iteration reads the same bale of an operand again, `steps` telling which levels move it: the
level that goes on is the deepest with iterations left, and those below it start again from 0. -/
def Nest.againBy (x : Nest) (i : Iter) (steps : Nat → Bool) : Bool :=
  match [5, 4, 3, 2, 1, 0].find? fun depth =>
      decide (lvl i.idx (x.d.at_ depth) + 1 < lvl i.beff (x.d.at_ depth)) with
  | some depth => !steps (x.d.at_ depth) &&
      (List.range 6).all fun e => decide (e ≤ depth) || !steps (x.d.at_ e) || lvl i.beff (x.d.at_ e) == 1
  | none => false

def Nest.again (x : Nest) (i : Iter) (o : Operand) : Bool := x.againBy i o.steps

/-- A held output belongs to another bale than the iteration's. -/
def State.staleHeld (s : State) (x : Nest) (i : Iter) (h : Held) : Bool :=
  match x.op h.op with
  | none => true
  | some o => h.spot != s.opSpot x i o

/-- The receive operands that must take a bale for an iteration. -/
def State.takes (s : State) (x : Nest) (i : Iter) : List (Nat × Operand) :=
  x.ops.filter fun o => o.2.role == 4 && (x.reuse o.1 (s.opSpot x i o.2)).isNone

/-- A receive operand has a ready bale, or its chute is broken (R151, R156). -/
def State.ringReady (s : State) (x : Nest) (k : Nat) : Bool :=
  match x.edgeOf k with
  | none => true
  | some e => let c := s.chuteOf x.p x.st.plan e
              !c.ring.isEmpty || c.broken

/-- RECV_WAIT follows which receive operands have no ready bale; whether all have one. -/
def State.receive (s : State) (x : Nest) (i : Iter) : Bool × State :=
  let t := s.takes x i
  (t.all fun o => s.ringReady x o.1,
    t.foldl (fun (s : State) o => match x.edgeOf o.1 with
      | some e => s.setRecvWait x.core e.2.dstPort (!s.ringReady x o.1)
      | none => s) s)

/-- The send operands that an iteration, with the held outputs it flushes, writes; with none given, those
that the nest's end writes. -/
def State.sends (s : State) (x : Nest) (i : Option Iter) : List Nat :=
  let role5 := fun k => match x.op k with
    | some o => o.role == 5
    | none => false
  match i with
  | none => (x.q.held.map (·.op)).filter role5
  | some i =>
    ((x.q.held.filter fun h => s.staleHeld x i h).map (·.op)).filter role5 ++
      (x.ops.filter fun o => o.2.role == 5 && x.nextUse i o.2 != 1).map (·.1)

/-- The bound ports whose send half has no room for what is written (R152). -/
def State.fullPorts (s : State) (x : Nest) (i : Option Iter) : List Nat :=
  let ks := s.sends x i
  (ks.filterMap fun k => match x.edgeOf k with
    | none => none
    | some e =>
      if 2 < (s.chuteOf x.p x.st.plan e).half.length + ks.count k then some e.2.srcPort else none).eraseDups

/-- A fetch of a tensor that has started and not landed (R279, R280). -/
def Step.incomplete (st : Step) (t : Nat) : Option Fetch :=
  st.fetches.find? fun f => f.tensor == t && !f.landed && !f.withdrawn

/-- A tensor belongs to an expert whose weights are in the shed (R324). -/
def State.shedTensor (s : State) (x : Nest) (t : Nat) : Bool :=
  match x.pl.tensor t with
  | none => false
  | some e => e.expert != 0xFFFFFFFF &&
      ((tabFind s.yard.experts (expertKey x.p x.st.plan e.expert)).map (·.shed)).getD false

/-- MB_LEVEL, the micro-batch and the slot of a PIPE node's iteration (R252, R253). -/
def Nest.mbLevel (x : Nest) : Nat := fieldAt x.n.record 0 1
def Nest.mb (x : Nest) (i : Iter) : Nat := if x.mbLevel = 7 then 0 else lvl i.idx x.mbLevel
def Nest.pipeSlot (x : Nest) (i : Iter) : Nat := fieldAt x.n.record 8 4 + x.mb i * fieldAt x.n.record 12 4

/-- The landing buffer of a PIPE_RECV iteration (R253). -/
def Nest.pipeBuf (x : Nest) (i : Iter) : Option PipeBuf :=
  x.st.pipes.find? fun b => b.node == x.d.node && b.mb == x.mb i

/-- The stream tensor of a KV node (R209). -/
def Nest.streamTensor (x : Nest) : Nat := fieldAt x.n.record 4 4

/-- The tensors that an iteration reads from memory. -/
def Nest.readTensors (x : Nest) : List Nat :=
  (if x.n.kind = 6 ∨ x.n.kind = 7 then [x.streamTensor] else []) ++
    (x.ops.filter fun o => o.2.role == 1 || o.2.role == 3).map (·.2.tensor)

/-- What holds a granted iteration, counted: send halves, receives, fetches, experts, landings (DESIGN
CHOICE, log entry 37). -/
def State.holdIssue (s : State) (x : Nest) (i : Iter) : Bool × State :=
  let (ok, s) := s.receive x i
  let full := s.fullPorts x (some i)
  let s := full.foldl (fun (s : State) p => s.bump (COR_CHUTE_CREDIT_STALL_COUNT p) x.core) s
  let waits := x.readTensors.any (s.fetching x.p)
  let s := s.fetchWait x.p x.core x.readTensors
  let pipe := x.n.kind == 10 && (x.pipeBuf i).isNone
  let s := if pipe && x.q.waitFrom.isNone then s.updSeq x.core fun q => { q with waitFrom := some s.beat } else s
  (!ok || !full.isEmpty || waits || x.readTensors.any (s.shedTensor x) || pipe, s)

/-- A wait on a ring chunk or a pipeline transfer has ended: link late (R281), in beats rounded up (DESIGN
CHOICE, log entry 37). -/
def State.linkLate (s : State) (core : Nat) : State :=
  match (s.seq core).bind (·.waitFrom) with
  | none => s
  | some b =>
    let s := s.bump CLU_STALL_LINK_EVENTS_COUNT (core / 8)
    let s := s.bump CLU_STALL_LINK_BEATS_COUNT (core / 8) (max 1 (s.beat - b))
    s.updSeq core fun q => { q with waitFrom := none }

/-! ## Outputs (R88) -/

/-- The bale of an input record contributes to an output record (R73): the log-sum-exp takes no V, dV neither V
nor DELTA, a stored gradient only its own sum, and an output of OPT_STEP the operands of its own formula
(R245). -/
def Nest.feeds (x : Nest) (out k : Nat) : Bool :=
  match x.n.kind with
  | 3 => decide (k ≤ 1) || (k == 2 && out == 3)
  | 4 => k == out || (decide (k ≤ 5) && !(out == 8 && (k == 2 || k == 5)))
  | 5 => k == 1 || (k == 0 && out == 2)
  | 8 => match out with
    | 2 => [1, 2, 3].contains k
    | 4 => [1, 3, 4].contains k
    | 6 => k == 6
    | _ => decide (k ≤ 4)
  | _ => true

/-- What the outputs hold after a computation: flags and poison join what was held. -/
def State.heldAfter (s : State) (x : Nest) (i : Iter) (items : List (Nat × Item)) (old : List Held)
    (outs : List OutLanes) : List Held :=
  let bad := x.n.masked && x.st.attnBad.contains x.d.node
  outs.filterMap fun r => (x.op r.1).map fun o =>
    let was := old.find? (·.op == r.1)
    let fl := match was with
      | some h => orFlags h.flags r.2.2
      | none => r.2.2
    let from_ := items.filter fun t => x.feeds r.1 t.1
    { op := r.1, spot := s.opSpot x i o, addr := if o.chute then none else s.opAddr x i o, acc := r.2.1
      flags := if bad then noFlags else { fl with dom := 0 }
      poison := bad || (was.map (·.poison)).getD false || from_.any (·.2.poison)
      dirty := bad || (was.map (·.dirty)).getD false || from_.any fun t => t.2.poison && t.2.dirty
      liveR := x.liveR i o, liveC := x.liveC i o, rowOrg := x.rowOrg i o, colOrg := x.colOrg i o }

/-- The outputs that stop being held are written, and remembered as the bale last read or written. -/
def State.settle (s : State) (x : Nest) (i : Iter) (hs : List Held) (hostFail : List Nat) :
    State × List LastRead × List Held :=
  hs.foldl (fun (a : State × List LastRead × List Held) h => match x.op h.op with
    | none => a
    | some o =>
      let nu := x.nextUse i o
      if nu = 1 then (a.1, a.2.1, a.2.2 ++ [h])
      else
        let it : Item := ⟨(x.heldBale o h nu).1.bytes, [], none, h.dirty, 0⟩
        (a.1.flushHeld x h nu hostFail,
          if o.role = 3 then a.2.1 ++ [⟨h.op, a.1.opSpot x i o, it⟩] else a.2.1, a.2.2)) (s, [], [])

/-- Held outputs of other bales are written first: R91's value is exact only where deeper live lengths stay the
same, so a bale held with NEXT_USE 1 may turn out not to be used next. Its header keeps that 1 (DESIGN CHOICE,
log entry 81). -/
def State.flushStale (s : State) (x : Nest) (i : Iter) (hostFail : List Nat) : State :=
  let old := x.q.held.filter fun h => s.staleHeld x i h
  let s := old.foldl (fun (s : State) h => s.flushHeld x h 1 hostFail) s
  s.updSeq x.core fun q => { q with held := q.held.filter fun h => !old.contains h }

/-! ## Receive operands and their credits (R150, R184) -/

/-- Credits of a received bale go back now, unless the next iteration reads it again. -/
def State.settleRead (s : State) (x : Nest) (i : Iter) (l : LastRead) : LastRead × State :=
  match x.op l.op with
  | some o =>
    if o.role = 4 ∧ l.item.units ≠ 0 ∧ !x.again i o then
      ({ l with item := { l.item with units := 0 } }, s.returnCredits x l.op l.item)
    else (l, s)
  | none => (l, s)

/-- Credits of received bales that are no longer read. -/
def State.dropReads (s : State) (x : Nest) (ls : List LastRead) : State :=
  ls.foldl (fun (s : State) l => match x.op l.op with
    | some o => if o.role = 4 ∧ l.item.units ≠ 0 then s.returnCredits x l.op l.item else s
    | none => s) s

/-- `last` after an iteration: new entries settled, those they replace dropped. -/
def State.setLast (s : State) (x : Nest) (i : Iter) (new : List LastRead) : State :=
  let gone := x.q.last.filter fun l => !new.any fun n => n.op == l.op && n.at_ == l.at_
  let s := s.dropReads x gone
  let (ls, s) := new.foldl (fun (a : List LastRead × State) l =>
    let (l, s) := a.2.settleRead x i l
    (a.1 ++ [l], s)) ([], s)
  s.updSeq x.core fun q => { q with last := ls }

/-! ## Skipped block pairs (R183, R184) -/

/-- The sideband of the key bale that an iteration would take; none while a gather has not landed it. -/
def State.peekSide (s : State) (x : Nest) (i : Iter) : Option (Option Sideband) :=
  match x.op 1, x.edgeOf 1 with
  | some o, some e =>
    if o.role ≠ 4 ∨ e.2.srcCore < 256 then some none
    else match x.reuse 1 (s.opSpot x i o) with
      | some it => some it.side
      | none =>
        let c := s.chuteOf x.p x.st.plan e
        match c.ring with
        | it :: _ => some it.side
        | [] => if c.broken then some none else none
  | _, _ => some none

/-- What an attention output holds before a pair, where the pair changes nothing. -/
def Calc.idle (c : Calc) : List OutLanes :=
  if c.x.n.kind = 3 then
    let (rows, d) := c.dims 3
    let st := match c.old 3 with
      | some h => h.acc
      | none => attnStart rows d
    [(3, st, noFlags), (4, st.drop (rows * d), noFlags)]
  else [6, 7, 8].map fun k => runLanes k (c.rmw k)

/-- The stored bales of read-modify-write outputs that are not held. -/
def State.stored (s : State) (x : Nest) (i : Iter) (held : List Held) (hostFail : List Nat) :
    List (Nat × Item) × State :=
  (x.ops.filter fun o => o.2.role == 3 && !held.any (·.op == o.1)).foldl
    (fun (a : List (Nat × Item) × State) o =>
      let (it, s) := a.2.fetchOp x i o.1 o.2 hostFail
      (a.1 ++ [(o.1, it)], s)) ([], s)

/-- The received bales of an iteration, each new one taken from its ring. -/
def State.received (s : State) (x : Nest) (i : Iter) : List (Nat × Item) × State :=
  (x.ops.filter fun o => o.2.role == 4).foldl (fun (a : List (Nat × Item) × State) o =>
    let (it, s) := a.2.fetchOp x i o.1 o.2 []
    (a.1 ++ [(o.1, it)], s)) ([], s)

/-- The micro-code of a core's cluster (R139). -/
def State.ucodeOf (s : State) (core : Nat) : Ucode :=
  let plan := tabGet ([], []) s.yard.ucode (core / 8)
  { step := fun k => if k < 320 then Config.romStep k else (plan.1[k - 320]?).getD 0
    word := fun k => if k < 1536 then Config.romWord k else (plan.2[k - 1536]?).getD 0 }

/-- A block pair is skipped: received bales are dropped, held outputs written where they would be. -/
def State.skipPair (s : State) (x : Nest) (i : Iter) (hostFail : List Nat) : State :=
  let (ok, s) := s.receive x i
  let full := s.fullPorts x (some i)
  let s := full.foldl (fun (s : State) p => s.bump (COR_CHUTE_CREDIT_STALL_COUNT p) x.core) s
  if !ok || !full.isEmpty then s
  else
    let s := s.flushStale x i hostFail
    let held := x.q.held.filter fun h => !s.staleHeld x i h
    let (items, s) := s.received x i
    let (old, s) := s.stored x i held hostFail
    let c : Calc := ⟨x, i, items ++ old, held, s.ucodeOf x.core, fun _ => false⟩
    let hs := s.heldAfter x i old held c.idle
    let (s, _, kept) := s.settle x i hs hostFail
    let took := items.filterMap fun t => (x.op t.1).map fun o => (⟨t.1, s.opSpot x i o, t.2⟩ : LastRead)
    let mem := x.q.last.filter fun l => !items.any (·.1 == l.op)
    let s := (s.setLast x i (mem ++ took)).bump64 COR_ATT_SKIPPED_LO x.core
    s.updSeq x.core fun q => { q with held := kept, cand := false }

/-- The outputs of an ATTN_FWD entry whose live key length is 0 (R181): they hold what they held, or start, and
are written where they would be; nothing is fetched, issued or counted (DEDUCED, log entry 80). -/
def State.voidPair (s : State) (x : Nest) (i : Iter) (hostFail : List Nat) : State :=
  let full := s.fullPorts x (some i)
  if !full.isEmpty then full.foldl (fun (s : State) p => s.bump (COR_CHUTE_CREDIT_STALL_COUNT p) x.core) s
  else
    let s := s.flushStale x i hostFail
    let held := x.q.held.filter fun h => !s.staleHeld x i h
    let hs := s.heldAfter x i [] held (⟨x, i, [], held, s.ucodeOf x.core, fun _ => false⟩ : Calc).idle
    let (s, _, kept) := s.settle x i hs hostFail
    s.updSeq x.core fun q => { q with held := kept, cand := false }

/-! ## Counters of an issued iteration (R83, R85, R118, R145, R196) -/

/-- Multiply-accumulates within live extents. -/
def Nest.macs (x : Nest) (i : Iter) (side : Option Sideband) : Nat :=
  let (lo, hi) := x.liveK i side
  let pair := x.liveQ i * (hi - lo) * ((x.op 0).map fun o => x.liveC i o).getD 0
  match x.n.kind with
  | 1 => match x.reads, x.outs with
    | a :: b :: _, o :: _ => min (x.liveR i a.2) (x.liveR i o.2) * min (x.liveC i b.2) (x.liveC i o.2) *
        min (x.liveC i a.2) (x.liveR i b.2)
    | _, _ => 0
  | 3 => 2 * pair
  | 4 => 5 * pair
  | _ => 0

/-- The live elements of an operand. -/
def Nest.size (x : Nest) (i : Iter) (o : Option Operand) : Nat :=
  (o.map fun o => x.liveR i o * x.liveC i o).getD 0

/-- A row statistic or reduction: its elements are those of the input; those of any other VOP are those
of the output (DEDUCED, log entry 38). -/
def rowVop (v : Nat) : Bool := decide (0x20 ≤ v ∧ v ≤ 0x24) || v == 0x27 || v == 0x28

/-- The vector engine's elements of an iteration within live extents; the VOPs from 0x40 on are the
SFU's (DEDUCED, log entry 38). -/
def Nest.elems (x : Nest) (i : Iter) (side : Option Sideband) : Nat :=
  let (lo, hi) := x.liveK i side
  match x.n.kind with
  | 2 => if 0x40 ≤ x.n.vop then 0
    else x.size i (if rowVop x.n.vop then x.op 0 else x.outs.head?.map (·.2))
  | 5 | 8 => x.size i (x.op 0)
  | 3 | 4 => x.liveQ i * (hi - lo)
  | _ => 0

/-- The SFU's results of an iteration within live extents (DEDUCED, log entry 38). -/
def Nest.sfuResults (x : Nest) (i : Iter) (side : Option Sideband) : Nat :=
  if x.n.kind = 2 ∧ 0x40 ≤ x.n.vop then x.size i (x.outs.head?.map (·.2))
  else if x.n.masked then x.elems i side else 0

/-- The counters rise. -/
def State.countIssue (s : State) (x : Nest) (i : Iter) (items fresh : List (Nat × Item)) : State :=
  let side := ((items.find? (·.1 == 1)).map (·.2)).bind (·.side)
  let c := x.core
  let s := s.bump64 SEQ_ISSUED_LO c
  let s := if x.ops.any fun o => x.ragged i o.2 then s.bump SEQ_RAGGED_COUNT c else s
  let s := match x.macs i side with
    | 0 => s
    | n => s.bump64 TEN_MACS_LO c n
  let nan := if x.n.kind = 1 ∨ x.n.masked then
      (fresh.map fun t => match x.op t.1 with
        | some o => nanInputs t.2.bale (x.liveR i o) (x.liveC i o)
        | none => 0).foldl (· + ·) 0
    else 0
  let s := if nan = 0 then s else s.bump TEN_NAN_IN_COUNT_COUNT c nan
  let n := x.elems i side
  let s := if n = 0 then s else s.bump64 VEC_ELEMS_LO c n
  let s := match x.sfuResults i side with
    | 0 => s
    | m => s.bump64 SFU_RESULTS_LO c m
  let s := if x.n.masked then s.bump64 COR_ATT_PAIRS_LO c else s
  match if x.n.masked then x.outOfRange i side else 0 with
  | 0 => s
  | n => s.bump COR_ATT_IDX_RANGE_COUNT c n

/-! ## ITER SIGNAL and scatter edges (R163, R275) -/

/-- The scatter edges of a nest: send operands whose receiver is a drover. -/
def Nest.scatters (x : Nest) : List (Nat × BoundEdge) :=
  (x.outs.filterMap fun o => if o.2.role = 5 then x.edgeOf o.1 else none).filter fun e => decide (256 ≤ e.2.dstCore)

/-- Bales sent on each scatter edge and not yet scattered, one digit of base 2^32 for each edge. -/
def State.unscattered (s : State) (x : Nest) : Nat :=
  (((List.range x.scatters.length).zip x.scatters).map fun e =>
    let c := s.chuteOf x.p x.st.plan e.2
    (c.half.length + c.flying.length + c.ring.length) * 2 ^ (32 * e.1)).foldl (· + ·) 0

/-- The ITER SIGNAL of an issued iteration, at once or when its rows have been scattered. -/
def State.iterSignal (s : State) (x : Nest) : State :=
  if x.d.iterKind ≠ 2 ∧ x.d.iterKind ≠ 3 then s
  else
    let n := s.unscattered x
    if n = 0 then s.signal x.p x.d.iterSem x.d.amount
    else s.updSeq x.core fun q => { q with owed := q.owed ++ [n] }

/-! ## Issue by kind -/

/-- The iteration is done. -/
def State.issued (s : State) (x : Nest) (i : Iter) (items fresh : List (Nat × Item)) : State :=
  let s := (s.countIssue x i items fresh).linkLate x.core
  let s := s.iterSignal x
  s.updSeq x.core fun q => { q with
    cand := false, granted := false, kvHeld := false, issued := true, prevCc := x.clocks }

/-- The read operands of an iteration: all of them, and those that were not taken before. -/
def State.fetchReads (s : State) (x : Nest) (i : Iter) (hostFail : List Nat) :
    List (Nat × Item) × List (Nat × Item) × State :=
  x.reads.foldl (fun (a : List (Nat × Item) × List (Nat × Item) × State) o =>
    let s := a.2.2
    let new := (x.reuse o.1 (s.opSpot x i o.2)).isNone
    let (it, s) := s.fetchOp x i o.1 o.2 hostFail
    (a.1 ++ [(o.1, it)], if new then a.2.1 ++ [(o.1, it)] else a.2.1, s)) ([], [], s)

/-- Items as the bales last read. -/
def State.asLast (s : State) (x : Nest) (i : Iter) (items : List (Nat × Item)) : List LastRead :=
  items.filterMap fun t => (x.op t.1).map fun o => (⟨t.1, s.opSpot x i o, t.2⟩ : LastRead)

/-- Non-finite w′, m′ or r′ of live elements (R249). -/
def optNonFinite (x : Nest) (i : Iter) (outs : List OutLanes) : Nat :=
  match x.op 0 with
  | none => 0
  | some o =>
    (positions (x.liveR i o) (x.liveC i o)).countP fun q =>
      outs.any fun r => (r.1 == 0 || r.1 == 2 || r.1 == 4) &&
        nonFinite (dec32 (laneAt r.2.1 (q.1 * o.cols + q.2)).a)

/-- The fault of an OPT_STEP iteration's inputs (R249, R259): the lowest code that applies (DEDUCED, log
entry 39). The extents of W_LP, an output, are those that its bale will take (DEDUCED, log entry 38). -/
def optInputFault (x : Nest) (i : Iter) (items : List (Nat × Item)) : Option Nat :=
  let some_ := fun ks => items.filter fun t => ks.contains t.1
  let lp := match x.op 5 with
    | some o => [(x.liveR i o, x.liveC i o)]
    | none => []
  let ext := (some_ [0, 1, 2, 4]).map (fun t => (t.2.bale.hdr.rows, t.2.bale.hdr.cols)) ++ lp
  if ext.any fun e => ext.any fun f => f != e then some 0x01
  else if (some_ [0, 1, 2, 4]).any (·.2.poison) then some 0x02
  else if (some_ [3, 6]).any (·.2.poison) then some 0x03
  else none

/-- OPT_STEP: what its outputs hold, or a fault that keeps every output of the iteration from being written
(R245 to R249, R259). -/
def State.optIssue (s : State) (c : Calc) : List OutLanes × State :=
  let x := c.x
  if x.st.optDead.contains x.d.node then ([], s)
  else match optInputFault x c.i c.items with
    | some f =>
      let s := s.optFault x.p x.core x.q.desc f
      ([], if f = 3 then s.updStep x.p fun st => { st with optDead := x.d.node :: st.optDead } else s)
    | none =>
      let outs := c.run (!x.st.optCounted.contains x.d.node)
      let s := s.updStep x.p fun st => { st with optCounted := (x.d.node :: st.optCounted).eraseDups }
      let n := ((x.op 0).map fun o => x.liveR c.i o * x.liveC c.i o).getD 0
      let s := if n = 0 then s else s.bump64 TEN_OPT_APPLIED_LO x.core n
      (outs, match optNonFinite x c.i outs with
        | 0 => s
        | k => s.bump TEN_OPT_NF_OUT_COUNT x.core k)

/-- An iteration of a node that computes (kinds 1 to 5 and 8). A pair in which every element is masked
contributes nothing to its outputs, so that skipping changes no bit (R73, R180, R184) (DEDUCED, log entry 80). -/
def State.computeIssue (s : State) (x : Nest) (i : Iter) (hostFail : List Nat) : State :=
  let s := s.flushStale x i hostFail
  let held := x.q.held.filter fun h => !s.staleHeld x i h
  let (items, fresh, s) := s.fetchReads x i hostFail
  let (old, s) := s.stored x i held hostFail
  let fed := fun r => match x.outs with
    | (_, o) :: _ => x.q.fed.contains (s.opSpot x i o, r)
    | [] => false
  let c : Calc := ⟨x, i, items ++ old, held, s.ucodeOf x.core, fed⟩
  let (outs, s) := if x.n.kind = 8 then s.optIssue c else (c.run false, s)
  let dom := (outs.map fun r => r.2.2.dom).foldl (· + ·) 0
  let s := if dom = 0 then s else s.bump SFU_DOMAIN_COUNT_COUNT x.core dom
  let hs := s.heldAfter x i (if x.n.masked && !c.touches then old else items ++ old) held outs
  let rest := held.filter fun h => !hs.any (·.op == h.op)
  let (s, wrote, kept) := s.settle x i hs hostFail
  let s := s.setLast x i (s.asLast x i items ++ wrote)
  (s.updSeq x.core fun q => { q with held := rest ++ kept }).issued x i (items ++ old) (fresh ++ old)

/-- The index of the stream word of a KV iteration in its tensor (R209). -/
def Nest.streamIndex (x : Nest) (i : Iter) : Nat :=
  let l := fieldAt x.n.record 2 1
  fieldAt x.n.record 8 4 + (if l = 7 then 0 else lvl i.idx l)

/-- The stream word of a KV iteration (R209); none where it is unreadable. -/
def State.streamWord (s : State) (x : Nest) (i : Iter) : Option Nat :=
  s.tensorWord x.p x.streamTensor (x.streamIndex i)

/-- The stream word passes the home Loft. -/
def State.tookStreamWord (s : State) (x : Nest) (i : Iter) : State := s.tookWord x.p x.streamTensor (x.streamIndex i)

/-- A tile as a bale of its operand's full extents, PAD narrowed with RNE (R86). -/
def tileBale (o : Operand) (it : Item) (t : Tile) : Bale :=
  let b := it.bale
  let pad := (narrowPlain o.format .rne (dec32 (BitVec.ofNat 32 o.pad))).1
  let code := fun r c => if (t.el r c).2 then b.code r c else pad
  let h := { b.hdr with rows := o.rows, cols := o.cols, tensor := o.tensor
                        payload := payloadSize o.format o.shape o.rows o.cols }
  ⟨h, leBytes (dataSize o.format o.shape o.rows o.cols) (packCodes (bitsOfFormat o.format)
    ((positions o.rows o.cols).map fun p => (elemIndex o.format o.shape o.rows o.cols p.1 p.2, code p.1 p.2)))⟩

/-- A KV node acts on its stream (R210, R211). A stream word that cannot be read, or names no stream, is fault
0x07 (R234); the stream recorded for one that cannot be read is open (DESIGN CHOICE, log entry 83). -/
def State.kvAct (s : State) (x : Nest) (i : Iter) (items : List (Nat × Item)) : KvEnd × State :=
  match s.streamWord x i with
  | none =>
    let (v, s) := s.free
    (.done, s.kvFault x.p (v.toNat % 2 ^ 16) 0x07)
  | some sid =>
    let s := s.tookStreamWord x i
    if s.fld OST_STREAMS_COUNT x.p ≤ sid then (.done, s.kvFault x.p (sid % 2 ^ 16) 0x07)
    else
    let tile := fun k => match x.op k, items.find? (·.1 == k) with
      | some o, some it => (x.tile i o it.2, tileBale o it.2 (x.tile i o it.2))
      | _, _ => (noTile, zeroBale 1 0 1 1)
    if x.n.kind = 7 then s.kvCommit x.p sid ((tile 0).1.raw 0 0)
    else
      let n := (tile 0).1.liveC
      let adv := (fieldAt x.n.record 1 1).testBit 0
      let ids := if adv then some ((List.range n).map fun j => (tile 2).1.raw 0 j) else none
      let s := if items.any fun t => t.1 != 2 && t.2.poison && t.2.dirty then s.stepCause x.p 0x0B else s
      s.kvAppend x.p sid (fieldAt x.n.record 0 1) n (tile 1).1.liveR (tile 0).2 (tile 1).2 ids

/-- The stream that a KV iteration acts on is STALLED. -/
def State.streamStalled (s : State) (x : Nest) (i : Iter) : Bool :=
  (s.streamWord x i).any fun sid => (s.stream x.p sid).any fun t => t.state == 3

/-- An iteration of a KV node; one that is held leaves only what the Ostler did. One that caused a stall goes on
when its flush has completed: a commit, whose marks have moved, is then done (R221). -/
def State.kvIssue (s : State) (x : Nest) (i : Iter) (hostFail : List Nat) : State :=
  if x.q.kvHeld && s.streamStalled x i then s
  else
    let (items, fresh, s1) := s.fetchReads x i hostFail
    let (end_, s2) := if x.q.kvHeld && x.n.kind == 7 then (.done, s1) else s1.kvAct x i items
    match end_ with
    | .done => (s2.setLast x i (s2.asLast x i items)).issued x i items fresh
    | .held => (s.kvAct x i items).2
    | .stalled => (s.kvAct x i items).2.updSeq x.core fun q => { q with kvHeld := true }

/-- A PIPE_SEND iteration hands its bale to the transfer of its slot (R253). -/
def State.pipeSend (s : State) (x : Nest) (i : Iter) (hostFail : List Nat) : State :=
  let (items, fresh, s) := s.fetchReads x i hostFail
  let s := match items with
    | (_, it) :: _ =>
      let k := x.pipeSlot i
      let bs := it.bytes
      let s := if it.poison && it.dirty then s.stepCause x.p 0x0B else s
      s.updStep x.p fun st => { st with
        handed := st.handed ++ [(k, bs)]
        transfers := st.transfers.map fun (t : Transfer) =>
          if t.slot = k ∧ t.bale.isNone then { t with bale := some bs } else t }
    | [] => s
  (s.setLast x i (s.asLast x i items)).issued x i items fresh

/-- A PIPE_RECV iteration delivers its landing buffer into operand 0 (R253, R259); the buffer becomes free
once its last iteration has issued. -/
def State.pipeRecv (s : State) (x : Nest) (i : Iter) (b : PipeBuf) (hostFail : List Nat) : State :=
  match x.op 0 with
  | none => s
  | some o =>
    let h := (readHdr b.item.bytes)
    let good := (hdrBadByte h).isNone && h.format == o.format && h.shape == o.shape && decide (h.rows ≤ o.rows) &&
      decide (h.cols ≤ o.cols)
    let s := if good then s else s.optFault x.p x.core x.q.desc 0x04
    let it := if good then b.item else o.zeros true
    let s := if x.again i o then s
      else
        let src := it.bale
        let hd := { src.hdr with part := x.p, tensor := o.tensor, nextUse := x.nextUse i o
                                 rowOrg := x.rowOrg i o, colOrg := x.colOrg i o }
        let held : Held := ⟨0, s.opSpot x i o, if o.chute then none else s.opAddr x i o, [], noFlags, it.poison, it.dirty, h.rows, h.cols,
          hd.rowOrg, hd.colOrg⟩
        s.putBale x o held ⟨hd, src.payload⟩ hostFail
    let s := if x.againBy i fun l => l == x.mbLevel then s
      else (s.updStep x.p fun st => { st with pipes := st.pipes.filter (· != b) }).landWaiting x.p
    s.issued x i [] []

/-- The candidate iteration is issued to its node. -/
def State.issue (s : State) (x : Nest) (i : Iter) (hostFail : List Nat) : State :=
  match x.n.kind with
  | 6 | 7 => s.kvIssue x i hostFail
  | 9 => s.pipeSend x i hostFail
  | 10 => match x.pipeBuf i with
    | some b => s.pipeRecv x i b hostFail
    | none => s
  | _ => s.computeIssue x i hostFail

/-! ## ITERATION_ISSUE -/

/-- The next iteration becomes the candidate, if there is one (R83). -/
def State.candidate (s : State) (x : Nest) : State :=
  if x.q.cand then s
  else
    let (more, w) := s.advanceWalk x
    if more then
      (s.commitWalk x w).updSeq x.core fun q => { q with
        idx := some w.idx, live := w.live, beff := w.beff, cand := true, granted := false }
    else s

/-- The candidate: a recipe runs first, a pair may be skipped, the ITER WAIT is performed, and then the
iteration is issued unless something holds it. -/
def State.tryIssue (s : State) (x : Nest) (hostFail : List Nat) : State :=
  let i : Iter := ⟨x.q.idx.getD zeros6, x.q.live, x.q.beff⟩
  match if x.inVoid 6 ⟨i.idx, i.live, i.beff, 0, 0, [], []⟩ then none else s.recipeDue x with
  | some r => s.runRecipe x r
  | none =>
    let void := x.inVoid 6 ⟨i.idx, i.live, i.beff, 0, 0, [], []⟩
    let side := if x.n.masked && !void then s.peekSide x i else some none
    match side with
    | none => (s.receive x i).2
    | some sd =>
      if void then
        s.voidPair x { i with beff := i.beff.set x.keyLevel 1 } hostFail
      else if x.skipped i sd then s.skipPair x i hostFail
      else if (x.d.iterKind = 1 ∨ x.d.iterKind = 3) ∧ !x.q.granted then
        (s.updSeq x.core fun q => { q with phase := .waitIter }).semWait x.p x.d.iterSem (.iter x.core) x.d.amount
      else
        let (hold, s) := s.holdIssue x i
        if hold then s else s.issue x i hostFail

/-- A drover stream of the partition that waits for nothing has not started: no iteration of the step is issued
before it (R272). -/
def State.droverFirst (s : State) (x : Nest) : Bool :=
  s.drovers.any fun d => d.2.part == x.p && !d.2.started && match x.pl.node d.2.node with
    | some n => !(fieldAt n.record 1 1).testBit 1
    | none => false

/-- A sequencer that runs a nest goes on with it, once the words it needs have come. An OPT_STEP nest waits until
GNF is final, and issues nothing if its node is skipped (R239, R247). -/
def iterationIssue (s : State) (core : Nat) (hostFail : List Nat) : State :=
  match s.nest core with
  | none => s
  | some x =>
    if x.q.phase ≠ .run ∨ (x.n.kind = 8 ∧ (!x.st.gnfFinal ∨ x.st.optSkip.contains x.d.node)) ∨ s.droverFirst x then s
    else
      let s := if x.q.words.isEmpty then s.readStart core else s
      match s.nest core with
      | none => s
      | some x =>
        if x.q.words.isEmpty then s
        else if !x.q.cand && x.wordTensors.any (s.fetching x.p) then s.fetchWait x.p core x.wordTensors
        else
          let s := s.candidate x
          match s.nest core with
          | none => s
          | some x => if x.q.cand then s.tryIssue x hostFail else s

def execIterationIssue (core : CoreId) (hostFail : List Nat) (errs : List MemEvent) (s : State) : Out :=
  .next (if (s.nest core).isNone then s
    else s.meeting (s.coreFn core) errs fun s => iterationIssue s core hostFail)

/-! ## NEST_POST (R76, R83, R88, R163) -/

/-- The sequencer goes on to the next descriptor, or its program ends: after a recipe the nest that needed
it goes on (R257). -/
def State.nextDesc (s : State) (x : Nest) : State :=
  if x.d.next ≠ 0xFFFF then
    ((s.updSeq x.core fun q => { q with phase := .ready, desc := x.d.next }).setFld SEQ_STATUS_RUNNING x.core
      0).setFld SEQ_STATUS_CUR_DESC x.core 0xFFFF
  else match tabFind s.suspended x.core, s.seq x.core with
    | some old, some q =>
      let s := { s with
        suspended := tabDel s.suspended x.core, seqs := tabPut s.seqs x.core { old with barWaits := q.barWaits } }
      s.setFld SEQ_STATUS_CUR_DESC x.core old.desc
    | _, _ =>
      ((s.updSeq x.core fun q => { q with phase := .done }).setFld SEQ_STATUS_RUNNING x.core 0).setFld
        SEQ_STATUS_CUR_DESC x.core 0xFFFF

/-- POST (R163). -/
def State.post (s : State) (x : Nest) : State :=
  match x.d.postKind with
  | 1 => s.halterSend x.p x.d.postRef .arrive
  | 2 => s.signal x.p x.d.postRef x.d.amount
  | _ => s

/-- A nest with no iteration left ends: its held outputs are written, POST is performed once every write
is visible, and a nest that issued nothing is counted (DEDUCED, log entry 35). An output still held then was
computed with NEXT_USE 1, which its header keeps (DESIGN CHOICE, log entry 81). -/
def State.endNest (s : State) (x : Nest) (hostFail : List Nat) : State :=
  let full := s.fullPorts x none
  if !full.isEmpty then
    full.foldl (fun (s : State) p => s.bump (COR_CHUTE_CREDIT_STALL_COUNT p) x.core) s
  else
    let s := x.q.held.foldl (fun (s : State) h => s.flushHeld x h 1 hostFail) s
    let s := (s.dropReads x x.q.last).updSeq x.core fun q => { q with held := [], last := [] }
    if !x.q.owed.isEmpty || s.unscattered x != 0 then s
    else
      let (_, w) := s.advanceWalk x
      let skip := x.n.kind = 8 ∧ x.st.optSkip.contains x.d.node
      let s := if skip then s else s.commitWalk x w
      let s := if x.q.issued then s else s.bump SEQ_ZERO_NEST_COUNT x.core
      (s.post x).nextDesc x

/-- NEST_POST: only once no iteration is left. -/
def nestPost (s : State) (core : Nat) (hostFail : List Nat) : State :=
  match s.nest core with
  | none => s
  | some x =>
    if x.q.phase ≠ .run ∨ x.q.cand ∨ (x.n.kind = 8 ∧ !x.st.gnfFinal) then s
    else if x.n.kind = 8 ∧ x.st.optSkip.contains x.d.node then s.endNest x hostFail
    else
      let s := if x.q.words.isEmpty then s.readStart core else s
      match s.nest core with
      | none => s
      | some x =>
        if x.q.words.isEmpty || x.wordTensors.any (s.fetching x.p) || (s.advanceWalk x).1 then s
        else s.endNest x hostFail

def execNestPost (core : CoreId) (hostFail : List Nat) (s : State) : Out := .next (nestPost s core hostFail)

end Sys2Proof.Machine
end

