-- ==== Sys2Proof/Machine/Halter.lean ====
section
/-! DEFINITION. The chutes (spec/06 R147 to R156) and the Halter network (R157 to R161), its releases, and the
watchdog of a cluster (R168). -/

namespace Sys2Proof.Machine

/-! ## Chutes -/

/-- A bound chute of a loaded plan. -/
def State.edge (s : State) (p plan k : Nat) : Option (Plan × BoundEdge) :=
  match s.planOf p plan with
  | none => none
  | some pl => (pl.bound[k]?).map fun e => (pl, e)

/-- The oldest bale of a send half leaves, if the sender holds a credit for each of its flits (R150)
(DEDUCED, log entry 40). -/
def chuteSend (s : State) (p plan k : Nat) : State :=
  match s.edge p plan k with
  | none => s
  | some (_, e) =>
    let c := s.chute p plan k e.rxUnits
    match c.half with
    | [] => s
    | it :: rest =>
      if c.broken ∨ c.credits < it.units then s
      else
        let s := s.setChute p plan (k, e) { c with
          half := rest, flying := c.flying ++ [it], credits := c.credits - it.units }
        if e.srcCore < 256 then s.bump (COR_CHUTE_TX_BALES_COUNT e.srcPort) e.srcCore else s

def execChuteBaleSend (p : Part) (plan : Fin 16) (edge : Nat) (s : State) : Out := .next (chuteSend s p plan edge)

/-- The operand whose bales a chute carries: the receiver's, or the sender's where a drover receives. -/
def Plan.edgeOperand (pl : Plan) (k : Nat) : Option Operand :=
  (pl.edges[k]?).bind fun e =>
    let at_ := fun node op => (pl.descsOf node).findSome? fun d => ((pl.operands d).find? (·.1 == op)).map (·.2)
    match at_ e.dstNode e.dstOp with
    | some o => some o
    | none => at_ e.srcNode e.srcOp

/-- A zero bale with POISON = 1 in place of one of a chute (R155, R168). -/
def Plan.edgeZero (pl : Plan) (p k units : Nat) : Item :=
  match pl.edgeOperand k with
  | some o =>
    let b := zeroBale o.format o.shape o.rows o.cols
    ⟨(⟨{ b.hdr with part := p, tensor := o.tensor }, b.payload⟩ : Bale).bytes, [], none, true, units⟩
  | none => ⟨[], [], none, true, units⟩

/-- The last flit of a bale lands (R150, R155): `ce` flits were corrected; with `ue` uncorrectable ones
the bale is delivered as poisoned zeros (DEDUCED, log entry 40). -/
def chuteLand (s : State) (p plan k ce ue : Nat) : State :=
  match s.edge p plan k with
  | none => s
  | some (pl, e) =>
    let c := s.chute p plan k e.rxUnits
    match c.flying with
    | [] => s
    | it :: rest =>
      let it' := if ue = 0 then it else pl.edgeZero p k it.units
      let s := s.setChute p plan (k, e) { c with flying := rest, ring := c.ring ++ [it'] }
      let s := if e.dstCore < 256 then
          let s := s.setRecvWait e.dstCore e.dstPort false
          let s := s.bump (COR_CHUTE_RX_BALES_COUNT e.dstPort) e.dstCore
          let s := if ce = 0 then s else s.bump (COR_CHUTE_ERR_CE e.dstPort) e.dstCore ce
          if ue = 0 then s else s.bump (COR_CHUTE_ERR_UE e.dstPort) e.dstCore ue
        else s
      if ue = 0 then s else s.stepFault p 0x0A

def execChuteBaleLand (p : Part) (plan : Fin 16) (edge : Nat) (ce : Nat) (ue : Nat) (s : State) : Out :=
  .next (chuteLand s p plan edge ce ue)

/-- Credits of a bale reach the sender (R150, R153). -/
def creditReturn (s : State) (p plan k : Nat) : State :=
  match s.edge p plan k with
  | none => s
  | some (_, e) =>
    let c := s.chute p plan k e.rxUnits
    match c.returns with
    | [] => s
    | n :: rest => s.setChute p plan (k, e) { c with returns := rest, credits := c.credits + n }

def execChuteCreditReturn (p : Part) (plan : Fin 16) (edge : Nat) (s : State) : Out :=
  .next (creditReturn s p plan edge)

/-! ## Counters (R158 to R161) -/

/-- The physical number of a plan's semaphore or barrier, in the executing step. -/
def State.semKey (s : State) (p id : Nat) : Option Nat :=
  (s.stepPlan p).bind fun pl => (pl.sems.find? (·.1 == id)).map (·.2)
def State.barKey (s : State) (p id : Nat) : Option Nat :=
  (s.stepPlan p).bind fun pl => (pl.bars.find? (·.1 == id)).map (·.2)

def State.setSem (s : State) (k : Nat) (x : Sem) : State :=
  { s with halter := { s.halter with sems := tabPut s.halter.sems k x } }
def State.setBar (s : State) (k : Nat) (x : Bar) : State :=
  { s with halter := { s.halter with bars := tabPut s.halter.bars k x } }

/-- A wait is satisfied; its release is on its way to the waiter. -/
def State.release (s : State) (p : Nat) (w : Waiter) : State :=
  { s with halter := { s.halter with released := s.halter.released ++ [(p, w)] } }

/-- The longest delivery a cluster has seen (R169). -/
def State.latMax (s : State) (c cc : Nat) : State :=
  s.setFld CLU_HLT_LAT_MAX_CC c (max (s.fld CLU_HLT_LAT_MAX_CC c) (min cc 255))

/-- The waits at the head of a queue that a value satisfies: the value left, those released, those still
waiting (R161). -/
def serve : Nat → List (Nat × Waiter × Nat) → Nat × List (Nat × Waiter) × List (Nat × Waiter × Nat)
  | v, [] => (v, [], [])
  | v, (p, w, n) :: q =>
    if n ≤ v then
      let (v', out, rest) := serve (v - n) q
      (v', (p, w) :: out, rest)
    else (v, [], (p, w, n) :: q)

/-- A semaphore serves its queue. -/
def State.serveSem (s : State) (k : Nat) (x : Sem) : State :=
  let (v, out, rest) := serve x.value x.queue
  out.foldl (fun (s : State) r => s.release r.1 r.2) (s.setSem k ⟨v, rest⟩)

/-- SIGNAL reaches its home (R161). -/
def State.semSignal (s : State) (p id n cc : Nat) : State :=
  match (s.semKey p id).bind fun k => (tabFind s.halter.sems k).map fun x => (k, x) with
  | none => s.stepReset p
  | some (k, x) =>
    let c := k / 4096
    let s := s.latMax c cc
    let s := if 65535 < x.value + n then
        ((s.setFld CLU_HLT_STATUS_SEM_OVF c 1).bump CLU_SEM_OVF_COUNT_COUNT c).stepFault p 0x0C
      else s
    s.serveSem k { x with value := min 65535 (x.value + n) }

/-- WAIT reaches its home; one whose home was reset ends (R161, R283). -/
def State.semQueue (s : State) (p id : Nat) (w : Waiter) (n cc : Nat) : State :=
  match (s.semKey p id).bind fun k => (tabFind s.halter.sems k).map fun x => (k, x) with
  | none => (s.stepReset p).release p w
  | some (k, x) => (s.latMax (k / 4096) cc).serveSem k { x with queue := x.queue ++ [(p, w, n)] }

/-- ARRIVE reaches its home (R160). -/
def State.barArrive (s : State) (p id cc : Nat) : State :=
  match (s.barKey p id).bind fun k => (tabFind s.halter.bars k).map fun x => (k, x) with
  | none => s.stepReset p
  | some (k, x) =>
    let s := s.latMax (k / 512) cc
    if x.count + 1 < x.target then s.setBar k { x with count := x.count + 1 }
    else
      let d := x.done + 1
      (x.waits.filter fun w => decide (w.2 ≤ d)).foldl (fun (s : State) w => s.release p (.pre w.1))
        (s.setBar k { x with count := 0, done := d, waits := x.waits.filter fun w => decide (d < w.2) })

/-- A barrier WAIT reaches its home (R160). -/
def State.barQueue (s : State) (p id core n cc : Nat) : State :=
  match (s.barKey p id).bind fun k => (tabFind s.halter.bars k).map fun x => (k, x) with
  | none => (s.stepReset p).release p (.pre core)
  | some (k, x) =>
    let s := s.latMax (k / 512) cc
    if n ≤ x.done then s.release p (.pre core) else s.setBar k { x with waits := x.waits ++ [(core, n)] }

/-! ## Deliveries -/

/-- The message at a place among those flying, if it is of the partition. -/
def State.halterAt (s : State) (p k : Nat) : Option HalterMsg :=
  match s.halter.flying[k]? with
  | some m => if m.part = p then some m else none
  | none => none

/-- Messages are no longer flying. -/
def State.halterTake (s : State) (ks : List Nat) : State :=
  { s with halter := { s.halter with
    flying := ((List.range s.halter.flying.length).zip s.halter.flying).filterMap fun m =>
      if ks.contains m.1 then none else some m.2 } }

/-- An ARRIVE is delivered, `cc` core clocks after it left. -/
def halterArrive (s : State) (p k cc : Nat) : State :=
  match s.halterAt p k with
  | some ⟨_, id, .arrive⟩ => (s.halterTake [k]).barArrive p id cc
  | _ => s

def execHalterArrive (p : Part) (k : Nat) (cc : Nat) (s : State) : Out := .next (halterArrive s p k cc)

/-- A SIGNAL is delivered. -/
def halterSignal (s : State) (p k cc : Nat) : State :=
  match s.halterAt p k with
  | some ⟨_, id, .signal n⟩ => (s.halterTake [k]).semSignal p id n cc
  | _ => s

def execHalterSignal (p : Part) (k : Nat) (cc : Nat) (s : State) : Out := .next (halterSignal s p k cc)

/-- A message is a WAIT. -/
def HalterOp.isWait : HalterOp → Bool
  | .barWait .. => true
  | .semWait .. => true
  | _ => false

/-- The order in which waits of one cc are served: lower logical core first (R161), then the others
(DEDUCED, log entry 41). -/
def HalterOp.rank : HalterOp → Nat
  | .barWait c _ => c
  | .semWait (.pre c) _ => c
  | .semWait (.iter c) _ => c
  | _ => 256

/-- A nest that now waits for a landing that has not come (R192, R360): one
whose PRE semaphore some transfer signals on landing. -/
def State.markLate (s : State) (w : Waiter) : State :=
  match w with
  | .pre core => match s.nest core with
    | some x =>
      let late := x.d.preKind == 2 && x.pl.slots.any fun sl => sl.kind == 2 && sl.landSem == x.d.preRef
      if late && !s.halter.released.any (· == (x.p, w)) then
        s.updSeq core fun q => { q with waitFrom := some s.beat }
      else s
    | none => s
  | _ => s

/-- A message is applied at its home. -/
def State.halterApply (s : State) (p cc : Nat) (m : HalterMsg) : State :=
  match m.op with
  | .arrive => s.barArrive p m.id cc
  | .signal n => s.semSignal p m.id n cc
  | .barWait c n => s.barQueue p m.id c n cc
  | .semWait w n => (s.semQueue p m.id w n cc).markLate w

/-- WAITs are delivered, with every other message that arrives in the same cc: SIGNALs and ARRIVEs are applied
first, then the waits by core (R160, R161; DEDUCED, log entry 41). -/
def halterWait (s : State) (p : Nat) (ks : List Nat) (cc : Nat) : State :=
  let ms := ks.eraseDups.filterMap fun k => (s.halterAt p k).map fun m => (k, m)
  if !ms.any fun m => m.2.op.isWait then s
  else
    let order := (ms.filter fun m => !m.2.op.isWait) ++
      (ms.filter fun m => m.2.op.isWait).insertionSort fun a b => a.2.op.rank ≤ b.2.op.rank
    order.foldl (fun (s : State) m => s.halterApply p cc m.2) (s.halterTake (ms.map (·.1)))

def execHalterWait (p : Part) (ks : List Nat) (cc : Nat) (s : State) : Out := .next (halterWait s p ks cc)

/-- A release reaches its waiter (R157, R163, R272, R359, R384). -/
def State.wakeWaiter (s : State) (p : Nat) (w : Waiter) : State :=
  match w with
  | .pre core =>
    if (s.seq core).any fun q => q.phase == .waitPre then (s.linkLate core).beginNest core else s
  | .iter core =>
    if (s.seq core).any fun q => q.phase == .waitIter then
      s.updSeq core fun q => { q with phase := .run, granted := true }
    else s
  | .drover node =>
    { s with drovers := s.drovers.map fun d =>
        if d.2.part = p ∧ d.2.node = node then (d.1, { d.2 with semOk := true }) else d }
  | .slot k => s.updStep p fun st => { st with
      transfers := st.transfers.map fun (t : Transfer) => if t.slot = k then { t with semOk := true } else t }
  | .coll k => s.collReady p k

/-- The k-th release under way is delivered; while VIN_WARN holds, no nest starts (R429). -/
def halterRelease (s : State) (k cc : Nat) : State :=
  match s.halter.released[k]? with
  | none => s
  | some (p, w) =>
    let core : Option Nat := match w with
      | .pre c => some c
      | .iter c => some c
      | _ => none
    if s.flag CLK_STATUS_VIN_WARN ∧ core.isSome then s
    else
      let s := { s with halter := { s.halter with released := s.halter.released.eraseIdx k } }
      let s := match core with
        | some c => s.latMax (c / 8) cc
        | none => s
      s.wakeWaiter p w

def execHalterRelease (k : Nat) (cc : Nat) (s : State) : Out := .next (halterRelease s k cc)

/-! ## The watchdog (R168) -/

/-- A core that runs a nest is waiting on a chute, or on a Halter barrier or semaphore. -/
def State.stuck (s : State) (x : Nest) : Bool :=
  match x.q.phase with
  | .waitPre => true
  | .waitIter => true
  | .run =>
    let i : Iter := ⟨x.q.idx.getD zeros6, x.q.live, x.q.beff⟩
    if x.q.cand then !(s.takes x i).all (fun o => s.ringReady x o.1) || !(s.fullPorts x (some i)).isEmpty
    else !(s.advanceWalk x).1 && !(s.fullPorts x none).isEmpty
  | _ => false

/-- The nests that the cores of a cluster run. -/
def State.nestsOf (s : State) (c : Nat) : List Nest :=
  (List.range 8).filterMap fun k => (s.nest (8 * c + k)).bind fun x => if x.q.phase = .done then none else some x

/-- A pending receive of a core gets a poisoned zero bale. -/
def State.feed (s : State) (x : Nest) : State :=
  if x.q.phase = .run ∧ x.q.cand then
    let i : Iter := ⟨x.q.idx.getD zeros6, x.q.live, x.q.beff⟩
    (s.takes x i).foldl (fun (s : State) o => match x.edgeOf o.1 with
      | some e =>
        let c := s.chuteOf x.p x.st.plan e
        if c.ring.isEmpty then s.setChute x.p x.st.plan e { c with ring := [x.pl.edgeZero x.p e.1 0] } else s
      | none => s) s
  else s

/-- The pending receive of a SCATTER drover, in the place of a core (R272), gets a poisoned zero bale. -/
def State.feedDrover (s : State) (d : Drove) : State :=
  match s.planOf d.part d.plan with
  | none => s
  | some pl => match pl.node d.node, pl.bound.zipIdx.find? fun e => e.1.dstNode == d.node with
    | some n, some e =>
      let c := s.chute d.part d.plan e.2 e.1.rxUnits
      if fieldAt n.record 0 1 = 2 ∧ d.started ∧ !d.ended ∧ c.ring.isEmpty then
        s.setChute d.part d.plan (e.2, e.1) { c with ring := [pl.edgeZero d.part e.2 0] }
      else s
    | _, _ => s

/-- A waiter belongs to a cluster. -/
def State.waitsIn (s : State) (c p : Nat) (w : Waiter) : Bool :=
  match w with
  | .pre core => core / 8 == c
  | .iter core => core / 8 == c
  | .drover node => s.drovers.any fun d => d.1 / 4 == c && d.2.part == p && d.2.node == node
  | _ => false

/-- Every pending WAIT of a cluster completes without changing a count or value. -/
def State.endWaits (s : State) (c : Nat) : State :=
  let mine := fun (p : Nat) (w : Waiter) => s.waitsIn c p w
  let of_ := fun (m : HalterMsg) => match m.op with
    | .barWait core _ => some (m.part, Waiter.pre core)
    | .semWait w _ => some (m.part, w)
    | _ => none
  let sent := s.halter.flying.filter fun m => (of_ m).any fun w => mine w.1 w.2
  let s := { s with halter := { s.halter with flying := s.halter.flying.filter fun m => !sent.contains m } }
  let s := (sent.filterMap of_).foldl (fun (s : State) w => s.release w.1 w.2) s
  let s := s.halter.sems.foldl (fun (s : State) e =>
    let out := e.2.queue.filter fun q => mine q.1 q.2.1
    if out.isEmpty then s
    else
      let s := out.foldl (fun (s : State) q => s.release q.1 q.2.1) s
      s.serveSem e.1 { e.2 with queue := e.2.queue.filter fun q => !mine q.1 q.2.1 }) s
  s.halter.bars.foldl (fun (s : State) e =>
    let out := e.2.waits.filter fun w => w.1 / 8 == c
    if out.isEmpty then s
    else
      let s := out.foldl (fun (s : State) w => s.release ((s.partOfCore w.1).getD 0) (.pre w.1)) s
      s.setBar e.1 { e.2 with waits := e.2.waits.filter fun w => w.1 / 8 != c }) s

/-- The watchdog of a cluster fires: no flit has moved and no iteration issued for LIMIT cc. -/
def watchdogFire (s : State) (c : Nat) : State :=
  let ns := s.nestsOf c
  if ns.isEmpty ∨ s.fld CLU_HLT_WDOG_LIMIT_LIMIT c = 0 ∨ !(ns.all s.stuck) then s
  else
    let s := (s.setFld CLU_HLT_STATUS_WDOG c 1).bump CLU_WDOG_COUNT_COUNT c
    let s := ns.foldl (fun (s : State) x => s.feed x) s
    let s := (s.drovers.filter fun d => d.1 / 4 == c).foldl (fun (s : State) d => s.feedDrover d.2) s
    let s := s.endWaits c
    match s.partOfCluster c with
    | some p => s.stepFault p 0x0D
    | none => s

def execWatchdogFire (c : ClusterId) (s : State) : Out := .next (watchdogFire s c)

end Sys2Proof.Machine
end

