-- ==== Sys2Proof/Machine/Service.lean ====
section
/-! DEFINITION. The Farrier's watch and the failure of parts (spec/19 R464 to R468), the enabling of a
day book ring (R479), and the arming of a replay (R474). INTERNAL_FAULT is in Machine/Resets.lean. -/

namespace Sys2Proof.Machine

/-! ## The Farrier's watch (R464, R468) -/

/-- The score limit of a kind of part. -/
def State.farLimit (s : State) (kind : Nat) : Nat := s.fld (FAR_LIMIT_LIMIT (kind - 1))

/-- Parts with a score or with events of this hour, of the kinds that are scored. -/
def State.scored (s : State) : List Nat :=
  let ks := (s.far.scores.map (·.1) ++ s.far.events.map (·.1)).filter fun k =>
    decide (1 ≤ k / 2 ^ 40 ∧ k / 2 ^ 40 ≤ 4)
  (ks.foldl (fun (t : Tab Bool) k => tabPut t k true) []).map (·.1)

/-- A part has reached its limit: it is DUE and logged; with no spare left it stays in service, and the
module is due for replacement (R467). -/
def State.partDue (s : State) (k score : Nat) : State :=
  if s.far.due.contains k then s
  else
    let s := ({ s with far := { s.far with due := s.far.due ++ [k] } }).setFld FAR_STATUS_DUE 0 1
    let s := s.farLog 1 (k / 2 ^ 40) (k % 2 ^ 40) score
    if s.hasSpare (k / 2 ^ 40) (k % 2 ^ 40) then s
    else
      let s := (s.setFld FAR_STATUS_SPARES_OUT 0 1).setFld FAR_STATUS_REPLACE 0 1
      (s.setFld FAR_HEALTH_REPLACE 0 1).alertCheck

/-- An hour of the always-on timer: S := S − (S >> 3) + E for each part. -/
def farrierHourly (s : State) : State :=
  if s.clk.off then s
  else
    let s := s.scored.foldl (fun (s : State) k =>
      let old := tabGet 0 s.far.scores k
      let new := old - old / 8 + tabGet 0 s.far.events k
      let s := { s with far := { s.far with scores := tabSet 0 s.far.scores k new } }
      if s.farLimit (k / 2 ^ 40) ≤ new then s.partDue k new else s) s
    { s with far := { s.far with events := [] } }

def execFarrierHourly (s : State) : Out := .next (farrierHourly s)

/-- GO to FAR_APPLY (R465): the DUE parts are swapped at their boundary, at once where it is one. -/
def farApply (s : State) (val : Word) : State :=
  if bitOf val 0 then ({ s with far := { s.far with apply := true } }).spareSwaps else s

def execFarApply (val : Word) (s : State) : Out := .next (farApply s val)

/-! ## Outright failures (R465 to R467) -/

/-- A core fails outright (R19, R465, R467): its cluster is reset and the spare core takes it over; with
no spare the cluster is unavailable. -/
def coreFail (s : State) (core : Nat) : State :=
  let s := s.clearPart kCore core
  if s.coreSpareUsed (core / 8) then
    (s.spareOut kCore core (tabGet 0 s.far.scores (partKey kCore core))).loseCluster (core / 8)
  else (s.clusterReset (core / 8)).swapCore core true

/-- A management core fails: the spare takes over, or the operations of the partitions it serves complete
INTERNAL until module reset (R463 code 0x02). -/
def mgmtFail (s : State) (n : Nat) (ps : List Nat) : State :=
  if s.flag FAR_SPARES_MGMT then (s.setFld FAR_SPARES_MGMT 0 0).spareIn kMgmt n n true 0
  else
    let s := { s with far := { s.far with
      deadParts := ps.foldl (fun t p => tabPut t p true) s.far.deadParts } }
    ((s.spareOut kMgmt n 0).farLog 6 kMgmt n 2).internalRecord 0 2

/-- A part fails outright, by its kind (R472) and number. -/
def partFailure (s : State) (kind n : Nat) (ps : List Nat) : State :=
  if s.clk.off then s
  else match kind with
    | 1 => if n < 256 then coreFail s n else s
    | 2 => if n / 32 < 32 then wayFail s (n / 32) (n % 32) true else s
    | 3 => if n / 16 < 12 ∧ n % 16 < 9 then laneFail s (n / 16) (n % 16) else s
    | 4 => if n / 2 ^ 32 < 24 ∧ n / 2 ^ 24 % 256 < 16 then
        s.swapRow (n / 2 ^ 32) (n / 2 ^ 24 % 256) (n % 2 ^ 24) true else s
    | 5 => if n < 16 then s.retireBlock n else s
    | 6 => if n < 2 then lockLoss s (n == 1) else s
    | 7 => if n < 4 then mgmtFail s n ps else s
    | _ => s

def execPartFailure (kind : Nat) (n : Nat) (ps : List Part) (s : State) : Out :=
  .next (partFailure s kind n (ps.map (·.val)))

/-! ## DAY_CTRL (R479) -/

/-- The ring of a function may not be enabled: its size, its alignment, its place, or an overlap with an
Ostler region or the Yardmaster's working area. -/
def State.dayRefused (s : State) (fn : Nat) : Bool :=
  let mib := s.fld DAY_MIB_MIB fn
  let base := s.reg64 DAY_BASE_LO fn
  let n := mib * 2 ^ 20
  mib == 0 || decide (4096 < mib) || base % 4096 != 0 || decide (s.gddrSize fn < base + n) ||
    (fn != 0 && ((s.kvOn (fn - 1) && (s.kvRegions (fn - 1)).any fun r => overlaps base n r.1 r.2) ||
      overlaps base n (s.reg64 YMS_WORK_BASE_LO (fn - 1)) (s.fld YMS_WORK_MIB_MIB (fn - 1) * 2 ^ 20)))

/-- A write to DAY_CTRL: ENABLE = 1 is refused, or the ring starts at block 0 (R469); ENABLE = 0 ends it. -/
def dayCtrlWrite (s : State) (fn : Nat) (val : Word) : State :=
  if !bitOf val 0 then (s.setFld DAY_CTRL_ENABLE fn 0).setFld DAY_STATUS_ENABLED fn 0
  else if s.dayOn fn then s
  else if s.dayRefused fn then s.setFld DAY_STATUS_SETUP_ERR fn 1
  else
    let s := (s.setReg64 DAY_NEXT_SEQ_LO fn 0).setReg64 DAY_OLDEST_SEQ_LO fn 0
    (s.setFld DAY_CTRL_ENABLE fn 1).setFld DAY_STATUS_ENABLED fn 1

def execDayEnable (fn : Fn) (val : Word) (s : State) : Out := .next (whenLive s fn (dayCtrlWrite s fn val))

/-! ## REPLAY_ARM (R54, R474) -/

/-- A record belongs to a plan, as its STEP_BEGIN (1) or STEP_END (2). -/
def DayRec.isOf (r : DayRec) (type plan : Nat) : Bool := r.type == type && r.plan == plan

/-- The complete steps of a plan among records: the block of each STEP_BEGIN followed by its STEP_END, and
the block of that. -/
def completeSteps (plan : Nat) : List DayRec → List (Nat × Nat)
  | [] => []
  | r :: rs =>
    if r.isOf 1 plan then match rs.find? fun x => x.isOf 2 plan && x.step == r.step with
      | some e => (r.block, e.block) :: completeSteps plan rs
      | none => completeSteps plan rs
    else completeSteps plan rs

/-- The plan, block and count of a REPLAY_ARM. -/
def armPlan (f : Flight) : Nat := fieldAt f.bytes 8 1
def armSeq (f : Flight) : Nat := fieldAt f.bytes 16 8 % 2 ^ 63
def armImport (f : Flight) : Bool := decide (2 ^ 63 ≤ fieldAt f.bytes 16 8)
def armCount (f : Flight) : Nat := fieldAt f.bytes 24 4

/-- The block is not there: cause 0x30. -/
def State.armBad0 (s : State) (p : Nat) (imp : Bool) (n : Nat) : Bool :=
  if imp then decide (s.fld DAY_IMPORT_BLOCKS_COUNT (p + 1) ≤ n)
  else !s.dayOn (p + 1) || decide (n < s.reg64 DAY_OLDEST_SEQ_LO (p + 1)) ||
    decide (s.reg64 DAY_NEXT_SEQ_LO (p + 1) ≤ n)

/-- The lowest cause of R474 for which an arm is refused; else the STEP_BEGINs it arms. -/
def State.armCheck (s : State) (p plan n count : Nat) (imp : Bool) : Except Nat (List Nat) :=
  if s.armBad0 p imp n then .error 0x30
  else
    let rs := s.recsFrom p imp (s.recEnd p imp - n) n
    match rs with
    | [] => .error 0x30
    | r :: _ =>
      let steps := (completeSteps plan rs).take count
      let last := (steps.foldl (fun m x => max m x.2) n)
      let range := rs.filter fun x => decide (x.block ≤ last)
      let crc := ((s.planOf p plan).map (·.crc))
      let first := range.takeWhile fun x => x.type != 2
      if !r.isOf 1 plan then .error 0x31
      else if steps.length < count then .error 0x32
      else if !range.all DayRec.good then .error 0x33
      else if !(range.all fun x => !x.isOf 1 plan || some (fieldAt x.head 56 4) == crc) then .error 0x34
      else if (tabFind s.yard.armed p).isSome then .error 0x35
      else if (first.filter (·.type == 9)).any fun d => !range.any fun l =>
          l.type == 8 && fieldAt l.head 44 1 == 1 && sliceBytes l.head 32 12 == sliceBytes d.head 32 12
      then .error 0x36
      else .ok (steps.map (·.1))

/-- The checks of a REPLAY_ARM that look at no record: the owner has no plans to replay. -/
def armFields (f : Flight) : List Failed :=
  checkReserved f [(8, 1), (16, 12)] [] ++ rangeIf (decide (16 ≤ armPlan f)) 8 ++
    refusedIf (f.fn == 0) 0x2000

/-- A REPLAY_ARM. One with STEP_COUNT 0 arms nothing once its other fields have passed (R55). -/
def replayArm (s : State) (f : Flight) : State :=
  let p := f.fn - 1
  match armFields f with
  | x :: xs => s.failDesc f (x :: xs)
  | [] =>
    match s.armCheck p (armPlan f) (armSeq f) (armCount f) (armImport f) with
    | .error c => s.failDesc f [⟨stRefused, c, none⟩]
    | .ok begins =>
      if armCount f = 0 then s.finish f stOkEmpty 0 0
      else
        let s := { s with yard := { s.yard with
          armed := tabPut s.yard.armed p ⟨armPlan f, begins, armImport f⟩ } }
        let s := (s.setFld DAY_STATUS_ARMED f.fn 1).setFld DAY_REPLAY_PLAN_PLAN f.fn (armPlan f)
        (s.setFld DAY_REPLAY_LEFT_COUNT f.fn begins.length).finish f stOK 0 0

def execReplayArm (fn : Fn) (ring : Ring) (idx : Word) (s : State) : Out :=
  s.runDesc fn ring idx.toNat 0xA replayArm

end Sys2Proof.Machine
end

