-- ==== Sys2Proof/Machine/PlanRun.lean ====
section
/-! DEFINITION. A step of a plan: PLAN_RUN (spec/02 R47), its start at the start beat (R358), and its completion
with one status (R16, R461) and its day-book records (R472, R477). -/

namespace Sys2Proof.Machine

/-! ## PLAN_RUN (R47) -/

/-- The fields of a PLAN_RUN. -/
def runId (f : Flight) : Nat := fieldAt f.bytes 8 1
def runCount (f : Flight) : Nat := fieldAt f.bytes 12 4
def runTable (f : Flight) : Nat := fieldAt f.bytes 16 8
def runStep (f : Flight) : Nat := fieldAt f.bytes 24 8
def runSeed (f : Flight) : Nat := fieldAt f.bytes 32 8
def runBeat (f : Flight) : Nat := fieldAt f.bytes 40 8

/-- An entry of the argument table: TENSOR_ID, reserved word, address. -/
def argEntry (t : List Byte) (k : Nat) : Nat × Nat × Nat :=
  (fieldAt t (16 * k) 4, fieldAt t (16 * k + 4) 4, fieldAt t (16 * k + 8) 8)

/-- The argument table as bindings. -/
def argList (t : List Byte) (n : Nat) : List (Nat × Nat) :=
  (List.range n).map fun k => ((argEntry t k).1, (argEntry t k).2.2)

/-- The checks of an argument table against its plan (R47): declared ARG tensors, bound inside the
partition (R401) (DEDUCED, log entry 43). -/
def argChecks (s : State) (fn : Nat) (pl : Plan) (t : List Byte) (n : Nat) : List Failed :=
  (List.range n).flatMap fun k =>
    let (id, rsv, addr) := argEntry t k
    match pl.tensor id with
    | none => refusedIf true
    | some e => refusedIf (rsv != 0 || !e.arg) ++
        match s.place fn addr e.bytes with
        | .error x => (addrFailed 16 x).map fun f => { f with viol := none }
        | .ok _ => []

/-- The tensors that a plan's sequencers, drovers and collectives write on this module. -/
def Plan.written (pl : Plan) : List Nat :=
  (pl.descs.flatMap fun d => (pl.operands d).filterMap fun o =>
    if o.2.role = 2 ∨ o.2.role = 3 then some o.2.tensor else none) ++
  (pl.nodes.flatMap fun n => if n.kind ≠ 11 then []
    else if fieldAt n.record 0 1 = 2 then [fieldAt n.record 4 4] else [fieldAt n.record 36 4]) ++
  pl.colls.flatMap fun c => [c.dst, c.recvTensor]

/-- A written tensor lies in the Ostler's regions (R203). -/
def State.bindsOstler (s : State) (fn : Nat) (pl : Plan) (args : List (Nat × Nat)) : Bool :=
  pl.written.any fun id => match pl.tensor id with
    | none => false
    | some e =>
      let addr : Option Nat := match args.find? (·.1 == id) with
        | some a => some a.2
        | none => match pl.homes.find? (·.1 == id) with
          | some h => some h.2
          | none => if e.binding = 0 then none else some e.binding
      match addr with
      | none => false
      | some a => match s.place fn a e.bytes with
        | .ok at_ => s.hitsOstler fn at_ e.bytes
        | .error _ => false

/-- A KV node does not fit the partition's pool (R209). -/
def State.kvMisfit (s : State) (p : Nat) (pl : Plan) : Bool :=
  pl.nodes.zipIdx.any fun n =>
    if n.1.kind = 6 then
      !s.kvOn p || decide (s.kvGroups p ≤ fieldAt n.1.record 0 1) || (pl.descsOf n.2).any fun d =>
        match d.ops[0]?, d.ops[1]? with
        | some k, some v =>
          let f := mangerFormat (s.kvFormat p)
          k.format != f || v.format != f || k.rows != s.kvD p || v.cols != s.kvD p
        | _, _ => true
    else n.1.kind == 7 && !s.kvOn p

/-- A step that waits for its start beat. -/
def newStep (f : Flight) (beat : Nat) (args : List (Nat × Nat)) (replay : Option Nat) : Step :=
  { seq := f.seq, plan := runId f, step := runStep f, seed := runSeed f, startBeat := beat, args := args
    running := false, replay := replay, cause := 0, poisoned := 0, reset := false, link := none, internal := none
    part := false, left := 0, recomputed := 0, skipped := false, digest := 0, gnf := false, gnfFinal := false
    fired := [], stopped := false, fetches := [], recompute := [], recomputedAt := [], transfers := [], colls := []
    pipes := [], handed := [], optSkip := [], optDead := [], attnBad := [], tables := [], optCounted := []
    streams := [], lost := [], early := [], landed := [], landings := [], soft := [] }

/-- A collective needs a queue pair to a peer of another domain that the owner has not filled (R394). -/
def State.xqpMissing (s : State) (f : Flight) (pl : Plan) : Bool :=
  match pl.ownRank with
  | none => false
  | some own => pl.colls.any fun c =>
      match c.members.findIdx? (· == own) with
      | none => false
      | some r =>
        let x : CollCtx := ⟨0, pl, c, none, r, newStep f 0 [] none⟩
        c.op != 9 && x.peers.any fun q =>
          let w := ((c.members[q]?).bind fun m => pl.ranks[m]?).getD s.ownAddr
          let d := w / 8192
          d != s.ownAddr / 8192 && !s.flag (MUS_XQP_LOCAL_VALID (2 * d + d % 2))

/-- A replayed step's SEED, STEP or TENSOR_IDs differ from the recorded ones (R475) (DEDUCED, log entry
43). -/
def State.replayDiffers (s : State) (p : Nat) (f : Flight) (args : List (Nat × Nat)) : Bool :=
  match tabFind s.yard.armed p with
  | some a => match a.begins with
    | b :: _ =>
      let r := s.readRec p a.imported b
      a.plan == runId f && (r.step != runStep f || fieldAt r.head 32 8 != runSeed f ||
        (List.range (fieldAt r.head 48 4)).map (fun k => fieldAt r.ext (16 * k) 4) != args.map (·.1))
    | [] => false
  | none => false

/-- The checks that need the plan and its arguments, causes in ascending order. -/
def planChecks (s : State) (f : Flight) (pl : Plan) (t : List Byte) : List Failed :=
  let p := f.fn - 1
  let args := argList t (runCount f)
  argChecks s f.fn pl t (runCount f) ++
    refusedIf (s.bindsOstler f.fn pl args || s.kvMisfit p pl || (runBeat f != 0 && decide (runBeat f < s.beat))) ++
    refusedIf (pl.period != 0 && pl.period != s.period) 0x80 ++
    refusedIf (!pl.elastic && !s.synced) 0x100 ++ refusedIf (s.xqpMissing f pl) 0x200 ++
    refusedIf (s.missesCluster f.fn) 0x400 ++ refusedIf (pl.elastic && !s.dayOn f.fn) 0x800 ++
    refusedIf (s.replayDiffers p f args) 0x1000

/-- The checks of a PLAN_RUN's fields. -/
def runFields (s : State) (f : Flight) : List Failed :=
  checkReserved f [(8, 1), (12, 12), (24, 24)] [] ++ rangeIf (decide (16 ≤ runId f)) 8 ++
    (match s.place f.fn (runTable f) (16 * runCount f) with
      | .error e => addrFailed 16 e
      | .ok _ => []) ++ refusedIf (f.fn == 0) 0x2000

/-- The first beat at which a step may start (R358). -/
def State.startBeat (s : State) (f : Flight) (pl : Plan) : Nat :=
  if runBeat f ≠ 0 then runBeat f else roundUp (s.beat + 2) (2 ^ pl.alignLog2)

/-- Migrations of the partition under way are abandoned, to be resumed later (R323, R328). -/
def State.abandonMigrations (s : State) (p : Nat) : State :=
  (s.yard.migrations.filter (·.part == p)).foldl (fun (s : State) m =>
    (s.bump YMS_MIG_ABANDONED_COUNT p).dayRecord (p + 1) 0x0A m.plan 0
      (leBytes 4 5 ++ leBytes 4 m.expert ++ leBytes 4 m.chunks)) s

/-- A PLAN_RUN that passes its checks schedules its step. It has started if it has read an argument table;
otherwise it starts with its step (R58). -/
def State.schedule (s : State) (f : Flight) (pl : Plan) (args : List (Nat × Nat)) : State :=
  let p := f.fn - 1
  let replay := match tabFind s.yard.armed p with
    | some a => if a.plan = runId f then a.begins.head? else none
    | none => none
  let st := newStep f (s.startBeat f pl) args replay
  let s := (s.updFlight f.seq fun g =>
    { g with taken := true, started := runCount f != 0 }).abandonMigrations p
  { s with yard := { s.yard with steps := tabPut s.yard.steps p st } }

/-- A PLAN_RUN: fields, argument table, plan; poisoned table data is DATA_ERROR, a target in reset
TARGET_RESET (R283, R461). -/
def planRun (s : State) (f : Flight) : State :=
  match runFields s f, s.planOf (f.fn - 1) (runId f) with
  | x :: xs, _ => s.failDesc f (x :: xs)
  | [], none => s.failDesc f [⟨stRefused, 0, none⟩]
  | [], some pl =>
    let n := 16 * runCount f
    let go := fun (s : State) (t : List Byte) => match planChecks s f pl t with
      | [] => s.schedule f pl (argList t (runCount f))
      | fs => s.failDesc f fs
    if n = 0 then go s []
    else match s.place f.fn (runTable f) n with
      | .error _ => s
      | .ok at_ =>
        if s.placeDown f.fn at_ n then s.finish f stTargetReset 0 0
        else
          let t := s.touch f.fn at_ n
          if s.badAt f.fn at_ n then t.finish f stDataError (s.badCode f.fn at_ n) 0
          else go t (s.readAt f.fn at_ n)

/-- A PLAN_RUN runs when its turn has come and no step of the partition is left (R57). -/
def execPlanRun (fn : Fn) (ring : Ring) (idx : Word) (errs : List MemEvent) (s : State) : Out :=
  s.runDesc fn ring idx.toNat 2 fun s f =>
    if s.planTurn f && (f.fn == 0 || (s.stepOf (f.fn - 1)).isNone) then
      s.meeting fn errs fun s => planRun s f
    else s

/-! ## STEP_START (R117, R139, R156, R159, R272, R358, R472) -/

/-- The Halter counters bound to a plan are set up, where their homes are not in reset (R159). -/
def State.setHalter (s : State) (pl : Plan) : State :=
  let val := fun (sem : Bool) (id : Nat) => ((pl.syncs.find? fun e => e.sem == sem && e.id == id).map (·.value)).getD 0
  let s := pl.sems.foldl (fun (s : State) e =>
    if s.clusterDown (e.2 / 4096) then s else s.setSem e.2 ⟨val true e.1, []⟩) s
  pl.bars.foldl (fun (s : State) e =>
    if s.clusterDown (e.2 / 512) then s else s.setBar e.2 ⟨0, val false e.1, 0, []⟩) s

/-- The plan part of the microstore is written into every core (R139). A plan with UCODE_STEPS 0 carries no
image (R307) and leaves it as it was. DESIGN CHOICE (log entry 42): the entries and words of the plan part
that an image does not carry read 0. -/
def State.setUcode (s : State) (p : Nat) (pl : Plan) : State :=
  let has := !pl.ucode.isEmpty
  let s := if has then (s.clustersOf p).foldl (fun (s : State) c =>
      if s.clusterDown c then s
      else { s with yard := { s.yard with ucode := tabPut s.yard.ucode c (pl.ucode, pl.table) } }) s
    else s
  (s.coresOf p).foldl (fun (s : State) c => s.setFld SFU_STATUS_PLAN_UCODE c has.toNat) s

/-- BROKEN is cleared, and broken chutes of the plan start afresh (R169). -/
def State.mendChutes (s : State) (p id : Nat) (pl : Plan) : State :=
  let s := (s.coresOf p).foldl (fun (s : State) c => s.setFld COR_CHUTE_STATUS_BROKEN c 0) s
  pl.bound.zipIdx.foldl (fun (s : State) e =>
    if (s.chute p id e.2 e.1.rxUnits).broken then
      { s with chutes := tabPut s.chutes (chuteKey p id e.2) (newChute e.1.rxUnits) }
    else s) s

/-- The placed programs wait at their first descriptor; a core in reset runs nothing (R284). -/
def State.setSeqs (s : State) (p : Nat) (pl : Plan) : State :=
  pl.cores.foldl (fun (s : State) c =>
    if s.clusterDown (c.2 / 8) then s.stepReset p
    else
      { s with
        seqs := tabPut s.seqs c.2 (newSeq c.1 ((pl.programs[c.1]?).getD 0) [])
        suspended := tabDel s.suspended c.2 }) s

/-- The drover streams of a plan; those with START_WAIT wait on START_SEM (R272). -/
def State.setDrovers (s : State) (p id : Nat) (pl : Plan) : State :=
  pl.drovers.foldl (fun (s : State) d =>
    if s.clusterDown (d.2 / 4) then s.stepReset p
    else
      let r := ((pl.node d.1).map (·.record)).getD []
      let wait := (fieldAt r 1 1).testBit 1
      let s := { s with drovers := tabPut s.drovers d.2 ⟨p, id, d.1, !wait, false, 0, 0, [], [], false⟩ }
      if wait then s.semWait p (fieldAt r 48 4) (.drover d.1) else s) s

/-- The last EXPERT_MAP recorded before a replayed step's STEP_BEGIN is installed (R328, R476). -/
def State.replayMap (s : State) (p id : Nat) (pl : Plan) (imported : Bool) (begin_ : Nat) : State :=
  let first := if imported then 0 else s.reg64 DAY_OLDEST_SEQ_LO (p + 1)
  let rs := ((s.recsFrom p imported (begin_ - first) first).filter fun r =>
    decide (r.block < begin_) && r.isOf 4 id).reverse
  match rs with
  | [] => s
  | r :: _ =>
    (List.range (fieldAt r.head 32 4)).foldl (fun (s : State) e =>
      let x := (tabFind s.yard.experts (expertKey p id e)).getD (pl.freshExpert e)
      { s with yard := { s.yard with experts := tabPut s.yard.experts (expertKey p id e) { x with
          replicas := fieldAt r.ext (8 * e) 1, shed := fieldAt r.ext (8 * e + 1) 1 == 3
          mask := fieldAt r.ext (8 * e + 2) 1, score := fieldAt r.ext (8 * e + 4) 4 } } }) s

/-- A STEP_BEGIN record (R472). -/
def State.beginRecord (s : State) (p : Nat) (st : Step) (pl : Plan) : State :=
  s.dayRecord (p + 1) 0x01 st.plan st.step
    (leBytes 8 st.seed ++ leBytes 8 st.startBeat ++ leBytes 4 st.args.length ++
      leBytes 1 st.replay.isSome.toNat ++ leBytes 3 0 ++ leBytes 4 pl.crc)
    (st.args.flatMap fun a => leBytes 4 a.1 ++ leBytes 4 0 ++ leBytes 8 a.2)

/-- A step of a partition begins: what its collectives showed is one step older (R395). -/
def State.ageColls (s : State) (p : Nat) : State :=
  { s with yard := { s.yard with collShown := s.yard.collShown.map fun e =>
      if e.1 / 65536 = p then (e.1, e.2.1, e.2.2.1, e.2.2.2 - 1) else e } }

/-- A scheduled step starts once Yard Time has reached its start beat; none starts under VIN_WARN (R429)
(DEDUCED, log entry 34). -/
def stepStart (s : State) (p : Nat) : State :=
  match s.stepOf p, s.stepPlan p with
  | some st, some pl =>
    if st.running || decide (s.beat < st.startBeat) || s.flag CLK_STATUS_VIN_WARN then s
    else
      let s := s.updFlight st.seq fun g => { g with started := true, ran := true }
      let imp := ((tabFind s.yard.armed p).map (·.imported)).getD false
      let s := match st.replay with
        | some b => s.replayMap p st.plan pl imp b
        | none => s
      let s := ((s.beginRecord p st pl).clearFlags p).ageColls p
      let s := (((s.setUcode p pl).mendChutes p st.plan pl).showChutes p st.plan pl).setHalter pl
      let runs := s.startColls p st.plan pl st.replay.isSome
      let s := { s with mus := { s.mus with
        withdraw := s.mus.withdraw.filter fun w => !(w.1 == p && w.2.1 == st.plan) } }
      let s := s.updStep p fun st => { st with running := true, colls := runs }
      let s := (s.setSeqs p pl).setDrovers p st.plan pl
      let s := if runs.any fun r => ((pl.colls[r.coll]?).map (·.grad)).getD false then s else gnfFinal s p
      s.fireSlots p
  | _, _ => s

def execStepStart (p : Part) (s : State) : Out := .next (stepStart s p)

/-! ## STEP_COMPLETE (R16, R351, R360, R461, R472, R477) -/

/-- A sequencer will do no more: its program has ended, or the step has been stopped and it waits for what
does not come (R351). -/
def State.seqEnded (s : State) (st : Step) (core : Nat) (q : Seq) : Bool :=
  q.phase == .done || (st.stopped && (q.phase == .waitBeat || match s.nest core with
    | some x => s.stuck x || (x.n.kind == 8 && !st.gnfFinal) ||
        (x.n.kind == 10 && x.q.cand && (x.pipeBuf ⟨x.q.idx.getD zeros6, x.q.live, x.q.beff⟩).isNone)
    | none => false))

/-- The work of a step has ended. -/
def State.stepEnded (s : State) (p : Nat) (st : Step) (pl : Plan) : Bool :=
  st.running &&
    (pl.cores.all fun c => match s.seq c.2 with
      | some q => s.seqEnded st c.2 q
      | none => true) &&
    (st.stopped || pl.slots.zipIdx.all fun k => st.fired.contains k.2) &&
    s.drovers.all (fun d => d.2.part != p || d.2.ended || st.stopped) &&
    st.fetches.all (fun f => f.landed || f.withdrawn) && st.transfers.isEmpty &&
    st.colls.all (fun r => r.done || (st.stopped && !r.opened)) &&
    !s.halter.flying.any (·.part == p) && !s.halter.released.any (·.1 == p)

/-- The statuses that apply to a step, with their AUX. -/
def stepStatuses (st : Step) : List (Nat × Nat) :=
  [(stOK, 0)] ++ (if st.skipped then [(stOkSkipped, 0)] else []) ++ (if st.part then [(stOkPartial, st.left)] else []) ++
    (if st.recomputed = 0 then [] else [(stOkRecomputed, st.recomputed)]) ++
    (if st.reset then [(stTargetReset, 0)] else []) ++
    (if st.cause = 0 then [] else [(stDataError, st.cause + 256 * min st.poisoned 0xFFFFFF)]) ++
    (match st.link with
      | some a => [(stLinkError, a)]
      | none => []) ++
    (match st.internal with
      | some a => [(stInternal, a)]
      | none => [])

/-- The highest status (R16). -/
def stepStatus (st : Step) : Nat × Nat :=
  (stepStatuses st).foldl (fun a b => if a.1 < b.1 then b else a) (stOK, 0)

/-- The end of a replayed step (R477): a REPLAY record, the counts, MISMATCH, and the next armed step. -/
def State.replayEnd (s : State) (p : Nat) (st : Step) (status : Nat) : State :=
  match st.replay, tabFind s.yard.armed p with
  | some b, some a =>
    let rs := s.recsFrom p a.imported (s.recEnd p a.imported - b) b
    let old := rs.find? fun r => r.type == 2 && r.plan == st.plan
    let good := match old with
      | some r => fieldAt r.head 32 1 == status && fieldAt r.head 40 8 == st.digest
      | none => false
    let seq := fieldAt (s.recBlock p a.imported b) 0 8
    let s := s.dayRecord (p + 1) 0x0D st.plan st.step (leBytes 8 seq ++ leBytes 1 (!good).toNat)
    let s := if good then s.bump DAY_REPLAY_MATCH_COUNT (p + 1)
      else ((s.bump DAY_REPLAY_MISMATCH_COUNT (p + 1)).setFld DAY_STATUS_MISMATCH (p + 1) 1).raise (p + 1) 66
    let left := a.begins.drop 1
    if left.isEmpty then s.disarm p
    else
      let s := { s with yard := { s.yard with armed := tabPut s.yard.armed p { a with begins := left } } }
      s.setFld DAY_REPLAY_LEFT_COUNT (p + 1) left.length
  | _, _ => s

/-- What a step leaves in the cores, drovers and Halter counters of its partition goes. -/
def State.clearStep (s : State) (p : Nat) : State :=
  let cores := s.coresOf p
  let s := cores.foldl (fun (s : State) c =>
    ((s.setFld SEQ_STATUS_RUNNING c 0).setFld SEQ_STATUS_CUR_DESC c 0xFFFF).setFld COR_CHUTE_STATUS_RECV_WAIT c 0) s
  let s := s.drovers.foldl (fun (s : State) d =>
    if d.2.part = p then s.setFld (DRV_STATUS_BUSY (d.1 % 4)) (d.1 / 4) 0 else s) s
  { s with
    seqs := tabDrop s.seqs fun c => cores.contains c
    suspended := tabDrop s.suspended fun c => cores.contains c
    drovers := s.drovers.filter fun d => d.2.part != p
    halter := { s.halter with
      sems := s.halter.sems.map fun e => (e.1, { e.2 with queue := e.2.queue.filter (·.1 != p) })
      bars := s.halter.bars.map fun e => (e.1, { e.2 with waits := e.2.waits.filter fun w => !cores.contains w.1 }) }
    yard := { s.yard with steps := tabDel s.yard.steps p } }

/-- A step whose work has ended completes: STEP_END, the replay's check, the overrun of its slots, the
cancelled prefetches (R326), and its completion record. The plan of a step that a function-level reset
muted (R28) or that ended under internal code 0x03 (R463) is unloaded (DEDUCED, log entry 23) (DEDUCED,
log entry 47). -/
def stepComplete (s : State) (p : Nat) : State :=
  match s.stepOf p, s.stepPlan p with
  | some st, some pl =>
    if !s.stepEnded p st pl then s
    else
      let (status, aux) := match s.internalAux (p + 1) with
        | some c => (stInternal, c)
        | none => stepStatus st
      let s := s.dayRecord (p + 1) 0x02 st.plan st.step
        (leBytes 4 status ++ leBytes 4 aux ++ leBytes 8 st.digest ++ leBytes 8 s.endBeat ++ leBytes 1 st.gnf.toNat)
      let s := s.replayEnd p st status
      let late := s.beat - (st.startBeat + pl.stepBeats)
      let s := if late = 0 ∨ pl.slots.isEmpty then s else s.bump YTM_OVERRUN_BEATS_COUNT 0 late
      let s := ((s.cancelPf fun g => g.part == p).clearStep p).setFld MUS_STATUS_PARTIAL p st.part.toNat
      match s.host.flights.find? fun f => f.seq == st.seq with
      | some f =>
        let s := if f.muted || st.internal = some 3 then s.unloadPlan p st.plan else s
        s.finish f status aux 0
      | none => s
  | _, _ => s

def execStepComplete (p : Part) (s : State) : Out := .next (stepComplete s p)

end Sys2Proof.Machine
end

