-- ==== Sys2Proof/Machine/Video.lean ====
section
/-! DEFINITION. The video block (spec/20): contexts, their rings, buffers and records, the patcher, and
the encoder's slices. What a codec makes of a bitstream is the command's operand (log entry 4). -/

namespace Sys2Proof.Machine

/-! ## Contexts (R482 to R484) -/

/-- The function that a context belongs to. -/
def State.vcdFn (s : State) (x : Nat) : Nat :=
  let o := s.fld VCD_CTX_OWNER_PART x
  if o = 0x3F then 0 else o + 1

/-- A function may reach a context: its own; the owner every one. -/
def State.vcdReach (s : State) (fn x : Nat) : Bool := fn == 0 || s.vcdFn x == fn

abbrev vIdle : Nat := 0
abbrev vRunning : Nat := 1
abbrev vWait : Nat := 2
abbrev vStopping : Nat := 3
abbrev vFault : Nat := 4

def State.vState (s : State) (x : Nat) : Nat := s.fld VCD_CTX_STATE_STATE x
def State.setV (s : State) (x st : Nat) : State := s.setFld VCD_CTX_STATE_STATE x st

/-- A context, once enabled. -/
def State.vctx (s : State) (x : Nat) : Option VCtx := tabFind s.vid.ctxs x
def State.updV (s : State) (x : Nat) (f : VCtx → VCtx) : State :=
  match s.vctx x with
  | none => s
  | some c => { s with vid := { s.vid with ctxs := tabPut s.vid.ctxs x (f c) } }

/-- The video source of a context (R502). -/
def State.vRaise (s : State) (x : Nat) : State :=
  let fn := s.vcdFn x
  s.raise fn (if fn = 0 then 73 else 67)

/-- The address of a context's control block. -/
def State.vBlock (s : State) (x : Nat) : Nat := s.reg64 VCD_CTX_BLOCK_LO x

/-- The video block reads a range of a context's function (R264). -/
def State.vTouch (s : State) (x addr n : Nat) : State :=
  match s.place (s.vcdFn x) addr n with
  | .ok pl => s.touch (s.vcdFn x) pl n
  | .error _ => s

/-- A field of a control block (R483). -/
def VCtx.f (c : VCtx) (o n : Nat) : Nat := fieldAt c.block o n

/-- Read a word that the host writes in the block, or write one that the device writes. -/
def State.vWord (s : State) (x o : Nat) : Nat :=
  match s.place (s.vcdFn x) (s.vBlock x + o) 4 with
  | .ok pl => leNat (s.readAt (s.vcdFn x) pl 4)
  | .error _ => 0
def State.vTouchWord (s : State) (x o : Nat) : State := s.vTouch x (s.vBlock x + o) 4
def State.setVWord (s : State) (x o v : Nat) : State :=
  match s.place (s.vcdFn x) (s.vBlock x + o) 4 with
  | .ok pl => s.writeAt (s.vcdFn x) pl (leBytes 4 v)
  | .error _ => s

/-- A codec may be decoded (kind 0) or encoded (kind 1) (R480). -/
def codecOk (kind codec : Nat) : Bool :=
  (kind == 0 && decide (1 ≤ codec ∧ codec ≤ 3)) || (kind == 1 && decide (2 ≤ codec ∧ codec ≤ 3))

/-- The bytes of the largest frame of the level (R480, R484; the levels' picture sizes are PRESUMED from
the codecs' standards, log entry 16); an encoder's is its own. -/
def frameNeed (b : List Byte) : Nat :=
  if fieldAt b 85 1 = 1 then
    fieldAt b 168 2 * fieldAt b 170 2 * 3 / 2 * (if fieldAt b 173 1 = 10 then 2 else 1)
  else if fieldAt b 86 1 = 1 then 36864 * 256 * 3 / 2
  else 35651584 * 3

/-- The patcher's fields (R493). -/
def pP (b : List Byte) : Nat := fieldAt b 108 1
def pFmt (b : List Byte) : Nat := fieldAt b 109 1
def pW (b : List Byte) : Nat := fieldAt b 104 2
def pH (b : List Byte) : Nat := fieldAt b 106 2
def hasPatch (b : List Byte) : Bool := (fieldAt b 84 1).testBit 1

/-- Tokens, elements of a token, groups, column tiles and slot size of a frame (R494). -/
def pTokens (b : List Byte) : Nat := pW b / pP b * (pH b / pP b)
def pElems (b : List Byte) : Nat := 3 * pP b * pP b
def pGroups (b : List Byte) : Nat := (pTokens b + 127) / 128
def pTiles (b : List Byte) : Nat := (pElems b + 127) / 128
def pSlot (b : List Byte) : Nat := 64 + payloadSize (pFmt b) 0 128 128

/-- The regions of a context: address, bytes, alignment. -/
def vRegions (b : List Byte) : List (Nat × Nat × Nat) :=
  [(fieldAt b 0 8, 32 * 2 ^ fieldAt b 8 1, 4096), (fieldAt b 24 8, 32 * 2 ^ fieldAt b 32 1, 4096),
    (fieldAt b 40 8, fieldAt b 48 1 * fieldAt b 52 4, 64)] ++
    (if hasPatch b then [(fieldAt b 64 8, fieldAt b 72 4 * pTiles b * pSlot b, 64)] else []) ++
    (if fieldAt b 85 1 = 1 then [(fieldAt b 176 8, fieldAt b 184 4, 64)] else [])

/-- The regions with the control block itself, which stands at `blk` (DEDUCED, log entry 58). -/
def vAllRegions (blk : Nat) (b : List Byte) : List (Nat × Nat × Nat) := (blk, 512, 4096) :: vRegions b

/-- A region is aligned and lies in space 0x0 or 0x1 of the function. -/
def State.regionOk (s : State) (fn : Nat) (r : Nat × Nat × Nat) : Bool :=
  r.1 % r.2.2 == 0 && decide (r.1 / 2 ^ 60 < 2) && match s.place fn r.1 r.2.1 with
    | .ok _ => true
    | .error _ => false

/-- Some two of a list of regions overlap. -/
def anyOverlap : List (Nat × Nat × Nat) → Bool
  | [] => false
  | r :: rs => (rs.any fun q => overlaps r.1 r.2.1 q.1 q.2.1) || anyOverlap rs

/-- A pipe may serve a context (R482). -/
def State.pipeAllowed (s : State) (k x : Nat) : Bool :=
  !s.isolated || getBits (s.reg VCD_PIPE_OWNER) (6 * k) 6 == s.fld VCD_CTX_OWNER_PART x

/-- The pipes of a kind. -/
def pipesOf (kind : Nat) : List Nat := if kind = 0 then [0, 1, 2, 3] else [4]

/-- An ROI entry is good (R498). -/
def roiOk (b : List Byte) (r : Nat) : Bool :=
  let o := 192 + 8 * r
  let q := sfieldAt b (o + 4) 1
  decide (fieldAt b o 1 < fieldAt b (o + 2) 1) && decide (fieldAt b (o + 1) 1 < fieldAt b (o + 3) 1) &&
    decide (-12 ≤ q ∧ q ≤ 12) && fieldAt b (o + 5) 3 == 0

/-- The encoder's fields are good (R497). -/
def encoderOk (b : List Byte) : Bool :=
  let top := if fieldAt b 86 1 = 2 then 51 else 255
  let w := fieldAt b 168 2
  let h := fieldAt b 170 2
  decide (fieldAt b 144 1 ≤ 2) && ([145, 146, 147].all fun o => decide (fieldAt b o 1 ≤ top)) &&
    decide (1 ≤ fieldAt b 148 4) && w % 8 == 0 && h % 8 == 0 && decide (0 < w ∧ w ≤ 8192) &&
    decide (0 < h ∧ h ≤ 4352) && decide (1 ≤ fieldAt b 172 1) &&
    (fieldAt b 173 1 == 8 || fieldAt b 173 1 == 10) && decide (fieldAt b 188 1 ≤ 16) &&
    (List.range (min (fieldAt b 188 1) 16)).all fun r => roiOk b r

/-- The lowest cause that refuses an enable (R484, R521). -/
def State.vcdCause (s : State) (x : Nat) (b : List Byte) : Option Nat :=
  let log := fun o => decide (4 ≤ fieldAt b o 1 ∧ fieldAt b o 1 ≤ 16)
  let n := fieldAt b 48 1
  if !log 8 || !log 32 then some 1
  else if n = 0 ∨ 64 < n ∨ fieldAt b 52 4 < frameNeed b then some 2
  else if !codecOk (fieldAt b 85 1) (fieldAt b 86 1) then some 3
  else if hasPatch b && !(decide (8 ≤ pP b ∧ pP b ≤ 32) && decide (0 < pW b ∧ pW b ≤ 8192) &&
      decide (0 < pH b ∧ pH b ≤ 8192) && pW b % pP b == 0 && pH b % pP b == 0 &&
      decide (1 ≤ pFmt b ∧ pFmt b ≤ 4)) then some 4
  else if fieldAt b 52 4 % 4096 ≠ 0 ∨ fieldAt b 56 4 % 256 ≠ 0 ∨ anyOverlap (vAllRegions (s.vBlock x) b) ∨
      !(vAllRegions (s.vBlock x) b).all (s.regionOk (s.vcdFn x)) then some 5
  else if !(pipesOf (fieldAt b 85 1)).any (fun k => s.pipeAllowed k x) then some 6
  else if fieldAt b 85 1 = 1 && !encoderOk b then some 7
  else none

/-- A refused enable or write (R484). -/
def State.vcdErr (s : State) (x code : Nat) : State :=
  (s.setFld VCD_STATUS_SETUP_ERR x 1).setFld VCD_SETUP_ERR_CODE_CODE x code

/-- ENABLE = 1 (R484): validated, then the context runs from index 0 with its counters and decoder state
clear; HELD marks outlive a stop (R501). -/
def vcdEnable (s : State) (x : Nat) : State :=
  if s.flag VCD_CTX_CTRL_ENABLE x then s
  else match s.place (s.vcdFn x) (s.vBlock x) 512 with
    | .error _ => s.vcdErr x 5
    | .ok pl =>
      let b := s.readAt (s.vcdFn x) pl 512
      let s := s.touch (s.vcdFn x) pl 512
      match if s.vBlock x / 2 ^ 60 < 2 then s.vcdCause x b else some 5 with
      | some c => s.vcdErr x c
      | none =>
        let held := ((s.vctx x).map (·.bufs)).getD []
        let marks := (List.range (fieldAt b 48 1)).map fun k => held.getD k 0 &&& 4
        let s := { s with vid := { s.vid with
          ctxs := tabPut s.vid.ctxs x ⟨b, 0, 0, 0, 0, marks, [], 0, none, [], [], [], 0⟩ } }
        let s := [VCD_FRAMES, VCD_CONCEALED, VCD_RESYNCS, VCD_POOL_WAITS, VCD_DROPPED, VCD_VIOL_COUNT].foldl
          (fun (s : State) r => s.setReg r x 0) s
        let s := (s.setVWord x 16 0).setVWord x 76 0
        (s.setFld VCD_CTX_CTRL_ENABLE x 1).setV x vRunning

/-- The context enters IDLE (R501). -/
def State.vIdleNow (s : State) (x : Nat) : State :=
  (s.setFld VCD_CTX_CTRL_ENABLE x 0).setV x vIdle

/-- A stopping context is IDLE once no frame is on a pipe or in the patcher and no record waits (R501)
(DEDUCED, log entry 58). -/
def State.vSettle (s : State) (x : Nat) : State :=
  match s.vctx x with
  | none => s
  | some c =>
    if s.vState x = vStopping ∧ c.cur.isNone ∧ c.patch.isEmpty ∧ c.recs.isEmpty then s.vIdleNow x else s

/-- STOP (R501): no further frame is taken; the frame on a pipe is finished and its records written. -/
def vcdStop (s : State) (x : Nat) : State :=
  if (s.vctx x).isNone ∨ s.vState x = vIdle then s
  else ((s.updV x fun c => { c with ready := [] }).setV x vStopping).vSettle x

/-- A write to VCD_CTX_CTRL of the context a function selects. -/
def vcdCtrlWrite (s : State) (fn : Nat) (val : Word) : State :=
  let x := s.fld VCD_CTX_SEL_CONTEXT fn
  if !s.vcdReach fn x then s
  else
    let s := if bitOf val 0 then vcdEnable s x else s
    if bitOf val 1 then vcdStop s x else s

def execVcdEnable (fn : Fn) (val : Word) (s : State) : Out :=
  .next (whenLive s fn (vcdCtrlWrite s fn (setBits val 0 1 1)))

def execVcdStop (fn : Fn) (val : Word) (s : State) : Out :=
  .next (whenLive s fn (vcdCtrlWrite s fn (setBits val 1 1 1)))

/-! ## Violations and records (R486, R500) -/

/-- A host violation on a context; R502 names no violation among what raises the video source. -/
def State.vViol (s : State) (x code value : Nat) : State :=
  let s := s.bump VCD_VIOL_COUNT_COUNT x
  let s := if s.flag VCD_STATUS_VIOL x then s
    else (s.setFld VCD_VIOL_CODE_CODE x code).setFld VCD_VIOL_VALUE_VALUE x value
  s.setFld VCD_STATUS_VIOL x 1

/-- A record joins those that wait for the output ring. -/
def State.vRec (s : State) (x : Nat) (r : VRec) : State := s.updV x fun c => { c with recs := c.recs ++ [r] }

/-- The output ring is full. -/
def State.vOutFull (s : State) (x : Nat) (c : VCtx) : Bool :=
  (c.outTail + 2 ^ 32 - s.vWord x 36) % 2 ^ 32 == 2 ^ c.f 32 1

/-- Set or clear marks of a buffer. -/
def VCtx.mark (c : VCtx) (b on off : Nat) : VCtx :=
  { c with bufs := c.bufs.set b ((c.bufs.getD b 0 ||| on) &&& (7 - off)) }

/-- The next record is written (R486): its PHASE, HELD for the frame it names with OUT_FRAMES set, and the
video source where its entry had IRQ set (R502). -/
def videoRecord (s : State) (x : Nat) : State :=
  match s.vctx x with
  | none => s
  | some c => match c.recs with
    | [] => s
    | r :: rest =>
      if s.vOutFull x c || s.flag CLK_STATUS_VIN_WARN then s
      else
        let n := c.f 32 1
        let bs := leBytes 4 r.tag ++ leBytes 1 r.status ++ leBytes 1 r.kind ++ leBytes 2 r.flags ++
          leBytes 2 r.buffer ++ leBytes 2 r.conceal ++ leBytes 4 r.count ++ leBytes 8 r.addr ++
          leBytes 7 r.user ++ leBytes 1 (phaseOf c.outTail n)
        let s := match s.place (s.vcdFn x) (c.f 24 8 + 32 * (c.outTail % 2 ^ n)) 32 with
          | .ok pl => s.writeAt (s.vcdFn x) pl bs
          | .error _ => s
        let held := r.kind == 1 && (c.f 84 1).testBit 0 && !r.flags.testBit 3 && r.status != stRefused
        let s := s.updV x fun c =>
          let c := if held then c.mark r.buffer 4 0 else c
          { c with recs := rest, outTail := (c.outTail + 1) % 2 ^ 32 }
        (if r.irq then s.vRaise x else s).vSettle x

def execVideoRecordWrite (x : Fin 256) (s : State) : Out := .next (videoRecord s x)

/-! ## Pipes and buffers (R488 to R490) -/

/-- A pipe is free. -/
def State.pipeFree (s : State) (k : Nat) : Bool :=
  s.vid.ctxs.all fun e => e.2.cur.isNone || s.fld VCD_CTX_STATE_PIPE e.1 != k

/-- The contexts that have a frame ready for a pipe. -/
def State.pipeWaiters (s : State) (k : Nat) : List (Nat × VCtx) :=
  s.vid.ctxs.filter fun e => s.vState e.1 == vRunning && !e.2.ready.isEmpty && e.2.cur.isNone &&
    (pipesOf (e.2.f 85 1)).contains k && s.pipeAllowed k e.1

/-- The context that has waited longest; among equals the lower number. -/
def oldestCtx : List (Nat × VCtx) → Option (Nat × VCtx)
  | [] => none
  | e :: es => match oldestCtx es with
    | none => some e
    | some g => if g.2.since < e.2.since then some g else some e

/-- A frame finds no free buffer (R489): the context waits, or faults where every buffer is REF and none
HELD. -/
def State.noBuffer (s : State) (x : Nat) (c : VCtx) (f : VFrame) : State :=
  if c.bufs.all fun m => m.testBit 0 && !m.testBit 2 then
    let r : VRec := ⟨f.tag, stRefused, 1, f.flags ||| 128, 0, f.conceal, 0, 0, f.user, f.irq⟩
    ((s.updV x fun c => { c with ready := c.ready.drop 1, recs := c.recs ++ [r] }).setV x vFault).vRaise x
  else ((s.bump VCD_POOL_WAITS_COUNT x).setV x vWait).vRaise x

/-- A free pipe takes the next frame (R490), in the free buffer of lowest index. -/
def State.pipeTake (s : State) (k : Nat) : State :=
  if !s.pipeFree k || s.flag CLK_STATUS_VIN_WARN then s
  else match oldestCtx (s.pipeWaiters k) with
    | none => s
    | some (x, c) => match c.ready with
      | [] => s
      | f :: rest => match c.bufs.findIdx? (· == 0) with
        | none => s.noBuffer x c f
        | some b =>
          let s := s.updV x fun c =>
            { c.mark b 2 0 with ready := rest, cur := some { f with buffer := some b } }
          s.setFld VCD_CTX_STATE_PIPE x k

/-- Every free pipe takes its next frame (DEDUCED, log entry 58). -/
def State.pipesTake (s : State) : State := (List.range 5).foldl (fun (s : State) k => s.pipeTake k) s

/-- Frames become ready for a pipe. -/
def State.vReady (s : State) (x : Nat) (fs : List VFrame) : State :=
  if fs.isEmpty then s
  else
    let n := s.vid.order
    let s := s.updV x fun c =>
      { c with ready := c.ready ++ fs, since := if c.ready.isEmpty then n else c.since }
    ({ s with vid := { s.vid with order := n + 1 } }).pipesTake

/-! ## The input ring (R485, R491, R492, R500) -/

/-- The device reads IN_TAIL; a tail is accepted under the test of R37. -/
def tailPoll (s : State) (x : Nat) : State :=
  match s.vctx x with
  | none => s
  | some c =>
    if !(s.vState x == vRunning || s.vState x == vWait) then s
    else
      let t := s.vWord x 12
      let s := s.vTouchWord x 12
      let gap := fun a b => (a + 2 ^ 32 - b) % 2 ^ 32
      if gap t c.inHead ≤ 2 ^ c.f 8 1 ∧ gap t c.inTail ≤ gap t c.inHead then
        s.updV x fun c => { c with inTail := t }
      else s.vViol x 0x01 t

def execVideoTailPoll (x : Fin 256) (stores : List HostStore) (s : State) : Out :=
  .next (tailPoll (s.hostStores stores) x)

/-- The entry at the head of a context's input ring, if it is running and one is covered. -/
def State.vEntry (s : State) (x : Nat) : Option (VCtx × List Byte) :=
  match s.vctx x with
  | none => none
  | some c =>
    if s.vState x ≠ vRunning ∨ c.inHead = c.inTail ∨ s.flag CLK_STATUS_VIN_WARN then none
    else match s.place (s.vcdFn x) (c.f 0 8 + 32 * (c.inHead % 2 ^ c.f 8 1)) 32 with
      | .ok pl => some (c, s.readAt (s.vcdFn x) pl 32)
      | .error _ => none

/-- The entry is read and consumed; the tail is read again after it. -/
def State.vConsume (s : State) (x : Nat) : State :=
  let s := match s.vctx x with
    | some c => s.vTouch x (c.f 0 8 + 32 * (c.inHead % 2 ^ c.f 8 1)) 32
    | none => s
  let s := s.updV x fun c => { c with inHead := (c.inHead + 1) % 2 ^ 32 }
  match s.vctx x with
  | some c => tailPoll (s.setVWord x 16 c.inHead) x
  | none => s

/-- A record of an entry (KIND 4) with a status. -/
def State.vEntryRec (s : State) (x : Nat) (e : List Byte) (status : Nat) : State :=
  s.vRec x ⟨fieldAt e 4 4, status, 4, 0, 0, 0, 0, 0, fieldAt e 24 7, (fieldAt e 1 1).testBit 0⟩

/-- An entry of a reserved TYPE or with reserved bits set is consumed and REFUSED (R500). -/
def badEntry (e : List Byte) : Bool :=
  let t := fieldAt e 0 1
  t == 0 || decide (4 < t) || decide (1 < fieldAt e 1 1) || fieldAt e 2 2 != 0 || fieldAt e 22 2 != 0

/-- A decoded frame as the codec made it: output or dropped (R492), its flags, and its concealed share. -/
structure Decoded where
  dropped : Bool
  flags : Nat
  conceal : Nat
deriving DecidableEq, Repr

/-- The frames that became ready from an entry; `bad`: its bitstream was poisoned, so that they are concealed and all
its records are DATA_ERROR (R492). -/
def State.vFrames (s : State) (x : Nat) (e : List Byte) (ds : List Decoded) (bad : Bool) : State :=
  let tag := fieldAt e 4 4
  let user := fieldAt e 24 7
  let irq := (fieldAt e 1 1).testBit 0
  let status := if bad then stDataError else stOK
  let drop := (ds.filter (·.dropped)).foldl (fun (s : State) d =>
    (s.bump VCD_DROPPED_COUNT x).vRec x ⟨tag, status, 1, d.flags ||| 8, 0, d.conceal, 0, 0, user, irq⟩) s
  drop.vReady x ((ds.filter fun d => !d.dropped).map fun d =>
    ⟨tag, user, irq, status, d.flags ||| bad.toNat, d.conceal, none, 0⟩)

/-- An AU is consumed (R485, R491, R492), or an entry that R500 refuses. `resyncs`: syntax errors met
(DEDUCED, log entry 58). -/
def videoAu (s : State) (x : Nat) (ds : List Decoded) (resyncs : Nat) : State :=
  match s.vEntry x with
  | none => s
  | some (c, e) =>
    if badEntry e then ((s.vViol x 0x02 (fieldAt e 0 4)).vEntryRec x e stRefused).vConsume x
    else if fieldAt e 0 1 ≠ 1 then s
    else if c.f 85 1 ≠ 0 then (s.vEntryRec x e stRefused).vConsume x
    else if fieldAt e 16 4 = 0 then (s.vEntryRec x e stOkEmpty).vConsume x
    else match s.place (s.vcdFn x) (fieldAt e 8 8) (fieldAt e 16 4) with
      | .error _ =>
        ((s.vViol x 0x04 (fieldAt e 8 4)).vEntryRec x e stPartViolation).vConsume x
      | .ok pl =>
        let bad := s.badAt (s.vcdFn x) pl (fieldAt e 16 4)
        let s := s.touch (s.vcdFn x) pl (fieldAt e 16 4)
        let s := if resyncs = 0 then s else s.bump VCD_RESYNCS_COUNT x resyncs
        let s := (s.vEntryRec x e (if bad then stDataError else stOK)).vFrames x e ds bad
        s.vConsume x

def execVideoAu (x : Fin 256) (frames : List (Bool × Nat × Nat)) (resyncs : Nat) (errs : List MemEvent) (s : State) :
    Out :=
  .next (s.meeting (s.vcdFn x) errs fun s => videoAu s x (frames.map fun d => ⟨d.1, d.2.1, d.2.2⟩) resyncs)

/-- FLUSH: every pending frame is output. -/
def videoFlush (s : State) (x : Nat) (ds : List Decoded) : State :=
  match s.vEntry x with
  | none => s
  | some (_, e) =>
    if badEntry e || fieldAt e 0 1 != 3 then s
    else ((s.vEntryRec x e stOK).vFrames x e ds false).vConsume x

def execVideoFlush (x : Fin 256) (frames : List (Bool × Nat × Nat)) (s : State) : Out :=
  .next (videoFlush s x (frames.map fun d => ⟨d.1, d.2.1, d.2.2⟩))

/-- RELEASE (R488, R500): HELD is cleared, and a context that waits for a buffer goes on. -/
def videoRelease (s : State) (x : Nat) : State :=
  let run := fun (s : State) (c : VCtx) e =>
    let b := fieldAt e 20 2
    if (c.bufs.getD b 0).testBit 2 then
      let s := s.updV x fun c => c.mark b 0 4
      ((if s.vState x = vWait then s.setV x vRunning else s).vConsume x).pipesTake
    else ((s.vViol x 0x03 b).vEntryRec x e stRefused).vConsume x
  let waits := s.vState x == vWait
  match (if waits then s.setV x vRunning else s).vEntry x with
  | none => s
  | some (c, e) => if badEntry e || fieldAt e 0 1 != 2 then s else run s c e

def execVideoRelease (x : Fin 256) (s : State) : Out := .next (videoRelease s x)

/-- FRAME: a source frame to encode. -/
def videoFrame (s : State) (x : Nat) : State :=
  match s.vEntry x with
  | none => s
  | some (c, e) =>
    if badEntry e || fieldAt e 0 1 != 4 then s
    else if c.f 85 1 ≠ 1 then (s.vEntryRec x e stRefused).vConsume x
    else match s.place (s.vcdFn x) (fieldAt e 8 8) (c.f 56 4 * c.f 170 2 * 3 / 2) with
      | .error _ =>
        ((s.vViol x 0x04 (fieldAt e 8 4)).vEntryRec x e stPartViolation).vConsume x
      | .ok _ =>
        let f : VFrame := ⟨fieldAt e 4 4, fieldAt e 24 7, (fieldAt e 1 1).testBit 0, stOK, 0, 0, none, fieldAt e 8 8⟩
        ((s.vEntryRec x e stOK).vReady x [f]).vConsume x

def execVideoFrame (x : Fin 256) (s : State) : Out := .next (videoFrame s x)

/-! ## A frame ends (R487 to R492) -/

/-- A pipe finishes its frame: the planes are in the buffer, the codec's reference rules set and clear
REF, the frame is counted, its record and the patcher follow; a stopped context is IDLE. Then the pipe
takes the next frame. -/
def frameDone (s : State) (k : Nat) (planes : List Byte) (ref : Bool) (unref : List Nat) : State :=
  match s.vid.ctxs.find? fun e => e.2.cur.isSome && s.fld VCD_CTX_STATE_PIPE e.1 == k with
  | none => s.pipeTake k
  | some (x, c) => match c.cur with
    | none => s
    | some f =>
      let b := f.buffer.getD 0
      let fn := s.vcdFn x
      let s := match s.place fn (c.f 40 8 + b * c.f 52 4) planes.length with
        | .ok pl => if planes.length ≤ c.f 52 4 then s.writeAt fn pl planes else s
        | .error _ => s
      let s := (s.bump VCD_FRAMES_COUNT x).setFld VCD_CTX_STATE_PIPE x 7
      let s := if f.flags.testBit 0 then s.bump VCD_CONCEALED_COUNT x else s
      let s := s.updV x fun c =>
        let c := unref.foldl (fun (c : VCtx) u => c.mark u 0 1) c
        { c.mark b ref.toNat 2 with cur := none }
      let decode := c.f 85 1 == 0
      let s := if decode && (c.f 84 1).testBit 0 then
          s.vRec x ⟨f.tag, f.status, 1, f.flags, b, f.conceal, 0, 0, f.user, f.irq⟩ else s
      let s := if decode && (c.f 84 1).testBit 1 then
          s.updV x fun c => { c with patch := c.patch ++ [f] } else s
      let s := if s.vState x = vWait then s.setV x vRunning else s
      (s.vSettle x).pipesTake

def execVideoFrameDone (pipe : Fin 5) (planes : List Byte) (ref : Bool) (unref : List Nat) (s : State) : Out :=
  .next (frameDone s pipe planes ref unref)

/-! ## The patcher (R493 to R495) -/

/-- The value of an FP32 operation, its flags apart. -/
def val32 (m : FM Word) : Word := (m.run noFlags).1

/-- The whole part of a non-negative FP32 value. -/
def floor32 (w : Word) : Nat :=
  match dec32 w with
  | .fin false m e => if 0 ≤ e then m * 2 ^ e.toNat else m / 2 ^ (-e).toNat
  | _ => 0

/-- The source coordinate of output sample i (R493 step 3), clamped to the crop. -/
def srcCoord (i crop out : Nat) : Word :=
  let half : Word := 0x3F000000
  let x := val32 do
    let a ← nat32 i
    let b ← add32 a half
    let c ← mul32 b (← nat32 crop)
    let d ← div32 c (← nat32 out)
    sub32 d half
  min32 (max32 x 0) (val32 (nat32 (crop - 1)))

/-- Linear interpolation along one axis: a (1 − f) + b f (DESIGN CHOICE, log entry 17). -/
def lerp32 (get : Nat → Word) (crop : Nat) (x : Word) : Word :=
  let k := floor32 x
  val32 do
    let f ← sub32 x (← nat32 k)
    let g ← sub32 0x3F800000 f
    let p ← mul32 (get k) g
    let q ← mul32 (get (min (k + 1) (crop - 1))) f
    add32 p q

/-- A sample of the resized crop, horizontal pass first; `px` gives the crop's RGB samples. -/
def resized (px : Nat → Nat → Nat → Word) (cw ch ow oh : Nat) (y x c : Nat) : Word :=
  let row := fun j => lerp32 (fun i => px j i c) cw (srcCoord x cw ow)
  lerp32 row ch (srcCoord y ch oh)

/-- One FP32 word of the block's patcher fields. -/
def blockWord (b : List Byte) (o : Nat) : Word := BitVec.ofNat 32 (fieldAt b o 4)

/-- Element e of token k, normalised (R493 step 4, R494). -/
def tokenElem (b : List Byte) (px : Nat → Nat → Nat → Word) (cw ch k e : Nat) : Word :=
  let p := pP b
  let c := e % 3
  let y := k / (pW b / p) * p + e / 3 / p
  let x := k % (pW b / p) * p + e / 3 % p
  val32 (fma32 (resized px cw ch (pW b) (pH b) y x c) (blockWord b (112 + 4 * c)) (blockWord b (124 + 4 * c)))

/-- The bale of group g and column tile t of a frame (R494). -/
def tokenBale (b : List Byte) (px : Nat → Nat → Nat → Word) (cw ch part g t : Nat) : Bale :=
  let fmt := pFmt b
  let rows := min 128 (pTokens b - 128 * g)
  let cols := min 128 (pElems b - 128 * t)
  let el := fun r c => (⟨dec32 (tokenElem b px cw ch (128 * g + r) (128 * t + c)), fun _ => 0, false⟩ : BlockElem)
  let pay := (writePayload fmt 0 0 rows cols el).1
  ⟨{ format := fmt, flags := 0, rows := rows, cols := cols, shape := 0, part := part
     tensor := fieldAt b 136 4, payload := pay.length, rowOrg := 128 * g, colOrg := 128 * t
     nextUse := 0xFFFFFFFF, sticky := 0, tail := false }, pay⟩

/-- The crop, clamped to a frame of w × h: width, height, and whether it was clamped. -/
def cropOf (b : List Byte) (w h : Nat) : Nat × Nat × Bool :=
  let cw := fieldAt b 100 2
  let ch := fieldAt b 102 2
  let x := min (fieldAt b 96 2) (w - 1)
  let y := min (fieldAt b 98 2) (h - 1)
  let cw' := min cw (w - x)
  let ch' := min ch (h - y)
  (cw', ch', x != fieldAt b 96 2 || y != fieldAt b 98 2 || cw' != cw || ch' != ch)

/-- The patcher writes the tokens of the next frame (R495), once there is room for its groups: the bales,
TOK_WRITTEN, and then the token record. `rgb` holds the converted crop, row by row. -/
def tokensWrite (s : State) (x w h : Nat) (rgb : List Word) : State :=
  match s.vctx x with
  | none => s
  | some c => match c.patch with
    | [] => s
    | f :: rest =>
      let b := c.block
      let n := pTokens b
      let freed := s.vWord x 80
      let gap := (c.tokWritten % 2 ^ 32 + 2 ^ 32 - freed) % 2 ^ 32
      let s := if 2 ^ 31 ≤ gap then s.vViol x 0x05 freed else s
      let used := if 2 ^ 31 ≤ gap then 0 else gap
      let groups := pGroups b
      if n = 0 ∨ c.f 72 4 < ((used + n - 1) / n + 1) * groups then s
      else
        let (cw, ch, clamped) := cropOf b w h
        let px := fun y i k => rgb.getD ((y * cw + i) * 3 + k) 0
        let fn := s.vcdFn x
        let first := c.tokWritten / n * groups
        let at_ := fun g t => c.f 64 8 + ((first + g) % c.f 72 4) * (pTiles b * pSlot b) + t * pSlot b
        let tiles := (List.range groups).flatMap fun g => (List.range (pTiles b)).map fun t => (g, t)
        let s := tiles.foldl (fun (s : State) k =>
          let bs := (tokenBale b px cw ch (s.fld VCD_CTX_OWNER_PART x) k.1 k.2).bytes
          match s.place fn (at_ k.1 k.2) bs.length with
          | .ok pl => s.writeAt fn pl bs
          | .error _ => s) s
        let s := s.updV x fun c => { c with patch := rest, tokWritten := c.tokWritten + n }
        let s := s.setVWord x 76 ((c.tokWritten + n) % 2 ^ 32)
        s.vRec x ⟨f.tag, f.status, 2, f.flags ||| (if clamped then 32 else 0), f.buffer.getD 0, f.conceal, n,
          at_ 0 0, f.user, f.irq⟩

def execVideoTokensWrite (x : Fin 256) (w : Nat) (h : Nat) (rgb : List Word) (s : State) : Out :=
  .next (tokensWrite s x w h rgb)

/-! ## Slices (R496 to R499) -/

/-- A slice of the frame on the encode pipe is ready: it goes into the bitstream ring where there is room,
and its record names its start. Space is returned as OUT_HEAD passes the records. -/
def sliceDone (s : State) (x : Nat) (bytes : List Byte) (last : Bool) : State :=
  match s.vctx x with
  | none => s
  | some c => match c.cur with
    | none => s
    | some f =>
      let head := s.vWord x 36
      let live := c.slices.filter fun k => decide ((k.1 + 2 ^ 32 - head) % 2 ^ 32 < 2 ^ 31)
      let used := live.foldl (fun n k => n + k.2) 0
      let size := c.f 184 4
      if c.f 85 1 ≠ 1 ∨ size < used + bytes.length then s
      else
        let fn := s.vcdFn x
        let put := fun (s : State) o (bs : List Byte) =>
          match s.place fn (c.f 176 8 + o) bs.length with
          | .ok pl => s.writeAt fn pl bs
          | .error _ => s
        let n := min bytes.length (size - c.bsAt)
        let s := put s c.bsAt (bytes.take n)
        let s := if n < bytes.length then put s 0 (bytes.drop n) else s
        let idx := (c.outTail + c.recs.length) % 2 ^ 32
        let s := s.updV x fun c => { c with
          slices := live ++ [(idx, bytes.length)], bsAt := (c.bsAt + bytes.length) % size }
        s.vRec x ⟨f.tag, f.status, 3, f.flags ||| (if last then 64 else 0), f.buffer.getD 0, f.conceal,
          bytes.length, c.f 176 8 + c.bsAt, f.user, f.irq⟩

def execVideoSliceDone (x : Fin 256) (bytes : List Byte) (last : Bool) (s : State) : Out :=
  .next (sliceDone s x bytes last)

/-! ## Registers and resets (R501, R503) -/

/-- A write of VCD_CTX_BLOCK: refused while the context is enabled (cause 0x8). -/
def vcdBlockWrite (s : State) (x off : Nat) (v : Word) : State :=
  if s.flag VCD_CTX_CTRL_ENABLE x then s.vcdErr x 8 else s.setReg off x v

/-- A write of VCD_CTX_OWNER by the owner. -/
def vcdOwnerWrite (s : State) (x : Nat) (val : Word) : State :=
  let p := getBits val 0 6
  if s.flag VCD_CTX_CTRL_ENABLE x || (decide (32 ≤ p) && p != 0x3F) then s
  else s.setFld VCD_CTX_OWNER_PART x p

/-- The contexts of a partition stop at once, without records (R501). -/
def State.videoReset (s : State) (p : Nat) : State :=
  let xs := (List.range 256).filter fun x => s.vcdFn x == p + 1
  let s := s.dropRegs fun off i => decide (0x0E00004 ≤ off ∧ off < 0x0E00100) && xs.contains i
  { s with vid := { s.vid with ctxs := tabDrop s.vid.ctxs xs.contains } }

end Sys2Proof.Machine
end

