-- ==== Sys2Proof/Machine/Resets.lean ====
section
/-! DEFINITION. The function-level reset (spec/02 R28, with R223, R388, R441, R475 and R501), the
PRT_CTRL writes that enable and release a partition (spec/15 R398, R402), and the internal faults
(spec/19 R463). -/

namespace Sys2Proof.Machine

/-! ## Function-level reset (R28) -/

/-- Counters of a core: SEQ (R92), TEN (R118, R258), SFU (R146), COR (R169, R196). -/
def coreCounter (off : Nat) : Bool :=
  decide (0x1003008 ≤ off ∧ off ≤ 0x1003024) || decide (0x1004020 ≤ off ∧ off ≤ 0x100402C) ||
    decide (0x1004048 ≤ off ∧ off ≤ 0x100405C) || decide (0x1005018 ≤ off ∧ off ≤ 0x1005028) ||
    decide (0x1002108 ≤ off ∧ off ≤ 0x1002120) ||
    (decide (0x1002040 ≤ off ∧ off < 0x10020C0) && decide (0xC ≤ (off - 0x1002040) % 0x20))

/-- Counters of a cluster: CLU (R169, R285), LFT and DRV (R285). -/
def clusterCounter (off : Nat) : Bool :=
  decide (0x1001018 ≤ off ∧ off ≤ 0x1001020) || decide (0x1001040 ≤ off ∧ off ≤ 0x1001060) ||
    decide (0x100600C ≤ off ∧ off ≤ 0x100603C) ||
    (decide (0x1007000 ≤ off ∧ off < 0x1007100) && decide (8 ≤ off % 0x40))

/-- Counters of a partition: MUS (R395), YMS (R329), OST and PED (R232). -/
def partCounter (off : Nat) : Bool :=
  decide (0x0700024 ≤ off ∧ off ≤ 0x0700048) || decide (0x0A00028 ≤ off ∧ off ≤ 0x0A00058) ||
    decide (0x0B00068 ≤ off ∧ off ≤ 0x0B0007C) || decide (0x0B00084 ≤ off ∧ off ≤ 0x0B0009C)

/-- Counters of a function's day book (R479). -/
def dayCounter (off : Nat) : Bool := decide (0x0D00038 ≤ off ∧ off ≤ 0x0D00048)

/-- The rings of a function are disabled, its HCI registers are as at reset, what it fetched and had not
started is discarded, and what has started writes no record (R28). -/
def State.hciReset (s : State) (fn : Nat) : State :=
  let s := s.dropRegs fun off i => decide (off < 0x100000) && i == fn
  { s with host := { s.host with
      flights := (s.host.flights.filter fun f => f.fn != fn || (f.started && !f.finished)).map fun f =>
        if f.fn == fn then { f with muted := true } else f
      ringTurns := tabDrop s.host.ringTurns fun k => k / 64 == fn
      waiting := s.host.waiting.filter fun r => r.fn != fn
      marks := s.host.marks.filter fun m => m.fn != fn
      withdrawn := s.host.withdrawn.filter fun w => w.1 != fn } }

/-- The counters that return to 0 with a partition's function (DEDUCED, log entry 23). -/
def State.countersReset (s : State) (p : Nat) : State :=
  let cs := s.clustersOf p
  s.dropRegs fun off i =>
    (coreCounter off && cs.contains (i / 8)) || (clusterCounter off && cs.contains i) ||
      (partCounter off && i == p)

/-- Every late sum that a partition holds is discarded and counted (R388). -/
def State.dropDeferrals (s : State) (p : Nat) : State :=
  let s := s.bump MUS_DROPPED_COUNT p (tabGet [] s.yard.deferrals p).length
  { s.setFld MUS_STATUS_DEFER_HELD p 0 with
    yard := { s.yard with deferrals := tabDel s.yard.deferrals p } }

/-- The plans a partition has loaded are unloaded; one that a started step still runs goes when the step
ends (R28). -/
def State.unloadPlans (s : State) (p : Nat) : State :=
  let running := (s.stepOf p).map (·.plan)
  ((List.range 16).filter fun id => running != some id).foldl (fun (s : State) id => s.unloadPlan p id) s

/-- A step whose PLAN_RUN was discarded before it started goes with it (R28, R58). -/
def State.dropUnstarted (s : State) (p : Nat) : State :=
  { s with yard := { s.yard with
      steps := s.yard.steps.filter fun e => e.1 != p || s.host.flights.any fun f => f.seq == e.2.seq } }

/-- A function-level reset: what concerns the function itself, and for a virtual function its partition
(R28, R223, R388, R441, R475, R479, R501) (DEDUCED, log entry 22). -/
def State.functionReset (s : State) (fn : Nat) : State :=
  let s := ((s.hciReset fn).bellReset fn).dropRegs fun off i => dayCounter off && i == fn
  match fn with
  | 0 => s
  | p + 1 =>
    let s := (((s.dropUnstarted p).countersReset p).disarm p).dropDeferrals p
    let s := { s with mus := { s.mus with withdraw := s.mus.withdraw.filter fun w => w.1 != p } }
    ((s.unloadPlans p).kvReset p).videoReset p

def execFunctionLevelReset (fn : Fn) (s : State) : Out := .next (s.functionReset fn)

/-! ## PRT_CTRL (R398, R402) -/

/-- RELEASE = 1: refused with cause 0x9 unless the partition is ACTIVE; else it is SCRUBBING, its function
undergoes a function-level reset, and the wait for its started work begins (R402 step 1) (DEDUCED, log
entry 29). -/
def prtRelease (s : State) (p : Nat) : State :=
  if s.prtState p ≠ 1 then s.prtErr 9 p
  else
    let s := s.functionReset (p + 1)
    let s := (s.setFld (PRT_STATE_STATE p) 0 2).setFld (PRT_CTRL_ENABLE p) 0 0
    { s with parts := { s.parts with release := tabPut s.parts.release p 1 } }

/-- A write of PRT_CTRL (R398): one with RELEASE = 1 to a partition that is not ACTIVE is ignored whole,
with cause 0x9; else WHISTLE is stored, and RELEASE or ENABLE acts on the partition as it stood (DEDUCED,
log entry 29). -/
def prtCtrlWrite (s : State) (p : Nat) (val : Word) : State :=
  if bitOf val 1 && s.prtState p != 1 then prtRelease s p
  else
    let free := s.prtState p == 0
    let s := prtWhistle s p val
    let s := if bitOf val 1 then prtRelease s p else s
    if bitOf val 0 && free then prtEnable s p else s

def execPrtEnable (p : Part) (val : Word) (s : State) : Out := .next (prtCtrlWrite s p val)

def execPrtRelease (p : Part) (val : Word) (s : State) : Out := .next (prtCtrlWrite s p val)

def execPrtWhistleWrite (p : Part) (val : Word) (s : State) : Out := .next (prtCtrlWrite s p val)

/-! ## Internal faults (R463) -/

/-- The Farrier logs an internal fault of no part: the spec gives its KIND and INDEX no value, so they are
free (DEDUCED, log entry 24). -/
def State.faultLog (s : State) (code : Nat) : State :=
  let (w, s) := s.free
  s.farLog 6 (w.toNat % 256) (w.toNat / 256 % 65536) code

/-- A parity error meets a descriptor (code 0x03): its operation completes INTERNAL and the plan it
concerns is unloaded, at the step's end if the step runs. -/
def parityFault (s : State) (f : Flight) : State :=
  let p := f.fn - 1
  let id := if f.opcode = 1 then loadId f else runId f
  let s := (s.faultLog 3).internalRecord f.fn 3
  let plans := f.fn != 0 && (f.opcode == 1 || f.opcode == 2) && decide (id < 16)
  if plans && f.ran then s.updStep p fun st => { st with internal := some 3 }
  else
    let s := s.dropScheduled f.seq
    let s := if plans then s.unloadPlan p id else s
    let s := { s with shed := { s.shed with ops := s.shed.ops.filter fun o => o.seq != f.seq } }
    s.finish f stInternal 3 0

/-- The control logic finds a fault in itself, by its code: 0x01 both root loops lose lock, 0x02 a
management core fails, 0x03 a parity error, 0x04 the security engine fails its self-test. -/
def internalFault (s : State) (code fn sq idx core : Nat) (ps : List Nat) : State :=
  match code with
  | 1 => lockLoss (lockLoss s false) true
  | 2 => if core < 4 then mgmtFail s core ps else s
  | 3 => match (s.flightsAt fn sq idx).find? fun f => !f.finished && !f.muted with
    | some f => parityFault s f
    | none => s
  | 4 => ({ s with far := { s.far with secDead := true } }.faultLog 4).internalRecord 0 4
  | _ => s

def execInternalFault (code : Nat) (fn : Fn) (ring : Ring) (idx : Word) (core : Nat) (ps : List Part)
    (s : State) : Out :=
  .next (internalFault s code fn ring idx.toNat core (ps.map (·.val)))

end Sys2Proof.Machine
end

