-- ==== Sys2Proof/Machine/Access.lean ====
section
/-! DEFINITION. Register accesses through BAR0 (spec/00 R6, R8, R9, R11 to R13; spec/02 R29 to R31):
which instance a register reaches, what a virtual function may reach, what a read returns, and what a
write does. A register whose writes have a row of their own in the table is routed to that row's
operation. -/

namespace Sys2Proof.Machine

/-! ## Instances (R11, R30, R442) -/

/-- The cluster and the logical core a function has selected (R30). -/
def State.selCluster (s : State) (fn : Nat) : Nat := s.fld CLUSTER_SEL_CLUSTER fn
def State.selCore (s : State) (fn : Nat) : Nat := s.selCluster fn * 8 + s.fld CORE_SEL_CORE fn

/-- Address registers of the cluster window that each function holds for itself (R146, R169). -/
def heldAddr (off : Nat) : Bool :=
  off == CLU_SEM_ADDR || off == CLU_BAR_ADDR || off == SFU_UCODE_ADDR || off == SFU_TABLE_ADDR

/-- The instance of a register that a function's access reaches. -/
def State.regInst (s : State) (fn off : Nat) : Nat :=
  match off / 0x100000 with
  | 0 => fn
  | 1 => if 0x100010 ≤ off ∧ off < 0x1000C0 then fn * 32 + s.fld BEL_SEL_GROUP fn else fn
  | 6 => if off = LINK_SEL then fn else if off < 0x0600100 then s.fld LINK_SEL_LINK fn else 0
  | 7 => if off < 0x0700100 then fn - 1 else 0
  | 8 => if off = GDR_SEL then fn else s.fld GDR_SEL_CHANNEL fn
  | 9 => if off = SHD_SEL then fn else if off < 0x0900100 then s.fld SHD_SEL_CHANNEL fn else 0
  | 10 => fn - 1
  | 11 => if off < 0x0B01000 then fn - 1 else 0
  | 12 => if off = FAR_LOG_ADDR then fn else 0
  | 13 => fn
  | 14 => if off = VCD_CTX_SEL then fn else if off = VCD_PIPE_OWNER then 0 else s.fld VCD_CTX_SEL_CONTEXT fn
  | 16 =>
    if off < 0x1001000 || heldAddr off then fn
    else if 0x1002000 ≤ off ∧ off < 0x1006000 then s.selCore fn
    else s.selCluster fn
  | _ => 0

/-! ## What a virtual function may reach (R31 and the chapters' access rules) -/

/-- A virtual function may read the register. -/
def State.vfReads (s : State) (fn off : Nat) : Bool :=
  let i := s.regInst fn off
  (rowOf off).isSome && match off / 0x100000 with
    | 0 | 1 | 10 | 13 => true
    | 2 => off == CLK_STATUS || off == CLK_DIE_POINT
    | 3 => off == BOOT_STATUS
    | 5 => off == YTM_STATUS || off == YTM_BEAT_LO || off == YTM_BEAT_HI || off == YTM_PERIOD
    | 7 => decide (off < 0x0700100)
    | 8 => off == GDR_SEL || ((off == GDR_STATUS || off == GDR_ECC) && s.hasChannel (fn - 1) i)
    | 9 => off == SHD_SEL || off == SHD_STATUS
    | 11 => decide (off < 0x0B01000)
    | 12 => off == FAR_HEALTH
    | 14 => off == VCD_CTX_SEL || (decide (off < 0x0E00100) && s.vcdReach fn i)
    | 16 => decide (off < 0x1001000) || s.hasCluster (fn - 1) (s.selCluster fn)
    | _ => false

/-- The registers of the cluster window that a virtual function may write (R92, R146, R169, R196, R258,
R285). -/
def windowWritable (off : Nat) : Bool :=
  decide (off < 0x1001000) || heldAddr off || off == CLU_HLT_STATUS || off == CLU_HLT_WDOG_LIMIT ||
    off == SEQ_STATUS || off == COR_ATT_STATUS || off == TEN_OPT_STATUS || off == LFT_STATUS ||
    off == LFT_CFG || (decide (0x1007000 ≤ off ∧ off < 0x1007100) && off % 0x40 == 0)

/-- A virtual function may write the register (DEDUCED, log entry 26). -/
def State.vfWrites (s : State) (fn off : Nat) : Bool :=
  s.vfReads fn off && match off / 0x100000 with
    | 0 | 1 | 7 | 10 | 11 | 13 | 14 => true
    | 8 => off == GDR_SEL
    | 9 => off == SHD_SEL
    | 16 => windowWritable off
    | _ => false

/-- The function may make the access: the owner always, a virtual function as its chapters say (DEDUCED,
log entry 26). -/
def State.mayAccess (s : State) (fn off : Nat) (isWrite : Bool) : Bool :=
  fn == 0 || if isWrite then s.vfWrites fn off else s.vfReads fn off

/-- An access of a function that answers; a forbidden one is violation 0x09 with the offset (R31, R62). -/
def throughBar (s : State) (fn off : Nat) (isWrite : Bool) (t : State) : State :=
  if !s.fnLive fn then s
  else if s.mayAccess fn off isWrite then t
  else s.hostViolation fn 0x09 off

/-- The owner's view of a block that serves a partition: reads 0, writes ignored (R232, R329, R395). -/
def ownerBlind (fn off : Nat) : Bool :=
  fn == 0 && (decide (0x0700000 ≤ off ∧ off < 0x0700100) || decide (0x0A00000 ≤ off ∧ off < 0x0A00100) ||
    decide (0x0B00000 ≤ off ∧ off < 0x0B00100))

/-! ## Reads (R8) -/

/-- What the MUS registers of the selected collective read (R395). -/
def State.musRead (s : State) (p off : Nat) : Nat :=
  let k := (p * 16 + s.fld MUS_COLL_ADDR_PLAN p) * 4096 + s.fld MUS_COLL_ADDR_COLL p
  match tabFind s.yard.collShown k with
  | none => 0
  | some (h, own, steps) =>
    if off = MUS_COLL_SLOW then
      match h.slow with
      | some (r, _, out) => r % 2 ^ 17 + out.toNat * 2 ^ 17
      | none => 0
    else if off = MUS_COLL_LATE then (match h.slow with
      | some (_, l, _) => l
      | none => 0)
    else if off = MUS_COLL_OWN then own
    else (decide (steps ≠ 0)).toNat + 2 * h.part.toNat + 4 * h.nf.toNat + min h.left 0xFFFF * 2 ^ 16

/-- What the OST registers of the selected stream read (R232). -/
def State.ostRead (s : State) (p off : Nat) : Nat :=
  match s.stream p (s.fld OST_STREAM_ADDR_STREAM p) with
    | none => 0
    | some x =>
      if off = OST_STREAM_STATE then
        let busy := ((s.stepOf p).map fun st => st.streams.contains (s.fld OST_STREAM_ADDR_STREAM p)).getD false
        x.state + 8 * (x.window != 0).toNat + 16 * x.foc.toNat + 32 * busy.toNat
      else if off = OST_STREAM_FLUSHED then x.flushed
      else if off = OST_STREAM_COMMIT then x.commit
      else x.fill

/-- What the Halter's data registers read (R169): the semaphore or barrier counter that the function's
address register names in its selected cluster. -/
def State.hltRead (s : State) (fn off : Nat) : Nat :=
  let c := s.selCluster fn
  if off = CLU_SEM_DATA then
    match tabFind s.halter.sems (c * 4096 + s.fld CLU_SEM_ADDR_SEM fn) with
    | some x => x.value % 65536 + min x.queue.length 255 * 2 ^ 16
    | none => 0
  else
    match tabFind s.halter.bars (c * 512 + s.fld CLU_BAR_ADDR_CORE fn * 64 + s.fld CLU_BAR_ADDR_BARRIER fn) with
    | some x => x.count % 4096 + x.target % 4096 * 2 ^ 12 + x.done % 256 * 2 ^ 24
    | none => 0

/-- A microstore step as a function's address register names it (R139, R146): entries 0–319 are ROM, the
rest the image last written, with no step where none was. -/
def State.ucodeStep (s : State) (fn : Nat) : BitVec 64 :=
  let e := s.fld SFU_UCODE_ADDR_ENTRY fn
  if e < 320 then Config.romStep e
  else ((tabFind s.yard.ucode (s.selCluster fn)).bind fun u => u.1[e - 320]?).getD 0

/-- A word of the microstore's table (R139, R146). -/
def State.ucodeWord (s : State) (fn : Nat) : Word :=
  let w := s.fld SFU_TABLE_ADDR_WORD fn
  if w < 1536 then Config.romWord w
  else ((tabFind s.yard.ucode (s.selCluster fn)).bind fun u => u.2[w - 1536]?).getD 0

/-- What the Farrier log's registers read (R478). -/
def State.logRead (s : State) (fn off : Nat) : Nat :=
  match s.far.log[s.fld FAR_LOG_ADDR_ENTRY fn]? with
  | none => 0
  | some e =>
    if off = FAR_LOG_BEAT_LO then e.beat
    else if off = FAR_LOG_BEAT_HI then e.beat / 2 ^ 32
    else if off = FAR_LOG_EVENT then e.event % 256 + e.kind % 256 * 2 ^ 8 + e.index % 65536 * 2 ^ 16
    else e.detail

/-- The instance, beyond every channel or context, that holds a function's SEL_ERR of GDR_STATUS or VCD_STATUS
(R12) (DEDUCED, log entry 25). -/
def ownSelErr (off fn : Nat) : Nat := if off = GDR_STATUS then 32 + fn else 256 + fn

/-- A status word as a function reads it, its own SEL_ERR in bit 0. -/
def State.withSelErr (s : State) (fn off : Nat) (v : Word) : Word :=
  if off = GDR_STATUS ∨ off = VCD_STATUS then setBits v 0 1 (s.fld ⟨off, 0, 1⟩ (ownSelErr off fn)) else v

/-- GDR_ECC of a channel as a virtual function reads it in isolation mode: its own partition's sectors only (R410). -/
def State.ownEcc (s : State) (fn i : Nat) : Word :=
  let n := tabGet (0, 0) s.gddrs.ecc (i * 64 + fn)
  let put := fun (v : Word) (f : Field) (k : Nat) => setBits v f.lo f.w (min k (2 ^ f.w - 1))
  put (put 0 GDR_ECC_CE n.1) GDR_ECC_UE n.2

/-- What a register holds now, WO fields reading 0 (R8). -/
def State.regNow (s : State) (fn off : Nat) : Word :=
  let i := s.regInst fn off
  let w := fun n : Nat => BitVec.ofNat 32 n
  if off = MUS_COLL_SLOW ∨ off = MUS_COLL_LATE ∨ off = MUS_COLL_OWN ∨ off = MUS_COLL_STATE then w (s.musRead i off)
  else if OST_STREAM_STATE ≤ off ∧ off ≤ OST_STREAM_FILL then
    w (s.ostRead i off)
  else if off = CLU_SEM_DATA ∨ off = CLU_BAR_DATA then w (s.hltRead fn off)
  else if off = SFU_UCODE_DATA_LO then w (s.ucodeStep fn).toNat
  else if off = SFU_UCODE_DATA_HI then w ((s.ucodeStep fn).toNat / 2 ^ 32)
  else if off = SFU_TABLE_DATA then s.ucodeWord fn
  else if FAR_LOG_BEAT_LO ≤ off ∧ off ≤ FAR_LOG_DETAIL then w (s.logRead fn off)
  else if off = GDR_ECC ∧ fn ≠ 0 ∧ s.isolated then s.ownEcc fn i
  else if off = GDR_ROW_MISS ∨ off = YMS_BOUNDARY_DELAY_BEATS then Config.physicalCount off i s.freeCount
  else match rowOf off with
    | none => 0
    | some r => s.withSelErr fn off (s.reg off i &&& ~~~accMask r .wo)

/-- The _LO registers of the 64-bit pairs (R6), by canonical offset. -/
def loRegs : List Nat :=
  [HCI_SQ_BASE_LO 0, HCI_CQ_BASE_LO 0, SEQ_ISSUED_LO, SEQ_SKIPPED_LO, TEN_SLOT_OVF_LO, TEN_SLOT_NF_LO,
    TEN_SLOT_SAT_LO, TEN_MACS_LO, SFU_UCODE_DATA_LO, SFU_RESULTS_LO, VEC_ELEMS_LO] ++
  [COR_ATT_PAIRS_LO, COR_ATT_SKIPPED_LO, OST_POOL_BASE_LO, OST_HOST_BASE_LO, OST_TABLE_BASE_LO,
    OST_MANGER_BASE_LO, TEN_OPT_APPLIED_LO, LFT_HITS_LO, LFT_MISSES_LO, DRV_ROWS_LO 0, DRV_BYTES_LO 0] ++
  [GDR_RD_LO, GDR_WR_LO, SHD_HOST_WRITES_LO, SHD_NAND_WRITES_LO, YMS_WORK_BASE_LO, YMS_PF_ISSUED_LO,
    HLK_FEC_CORR_LO, HLK_TX_FLITS_LO, HLK_RX_FLITS_LO, YTM_BEAT_LO, YTM_PTP_ORIGIN_LO] ++
  [MUS_BYTES_LO, BOOT_FW_ADDR_LO, FAR_LOG_BEAT_LO, DAY_BASE_LO, DAY_NEXT_SEQ_LO, DAY_OLDEST_SEQ_LO,
    DAY_IMPORT_BASE_LO, DAY_RECORDS_LO, VCD_CTX_BLOCK_LO]

/-- A register is the lower or the upper half of a pair. -/
def isLo (off : Nat) : Bool := loRegs.contains (canonicalOff off)
def isHi (off : Nat) : Bool := decide (4 ≤ off) && loRegs.contains (canonicalOff (off - 4))

/-- The key of what a function's read of a pair captured. -/
def capKey (fn off : Nat) : Nat := fn * 2 ^ 32 + off

/-- What the next read of a register by a function returns: of a _HI register the captured upper half, if one
is held (R6). -/
def State.readReg (s : State) (fn off : Nat) : Word :=
  if !s.fnLive fn || !s.mayAccess fn off false || ownerBlind fn off then 0
  else match if isLo off then none else tabFind s.host.capHi (capKey fn off) with
    | some v => v
    | none => s.regNow fn off

/-- A read of a _LO register captures the whole value, and the function's next read of the matching _HI
returns the captured upper half, once (R6); one of FAR_LOG_BEAT_LO captures the whole entry, EVENT and DETAIL
with it, until the entry is addressed anew (R478). A read of any other register is the same event with nothing
captured (DEDUCED, log entry 27). -/
def regLoRead (s : State) (fn off : Nat) : State :=
  let v := s.readReg fn off
  let keep := [off + 4] ++ if off = FAR_LOG_BEAT_LO then [FAR_LOG_EVENT, FAR_LOG_DETAIL] else []
  let cap := if ownerBlind fn off then s.host.capHi
    else if isLo off then keep.foldl (fun t k => tabPut t (capKey fn k) (s.regNow fn k)) s.host.capHi
    else if isHi off then tabDel s.host.capHi (capKey fn off)
    else s.host.capHi
  { s with host := { s.host with lastRead := [v.toNat], capHi := cap } }

def execRegLoRead (fn : Fn) (off : Nat) (s : State) : Out :=
  .next (throughBar s fn off false (regLoRead s fn off))

/-! ## Select registers (R11 to R13) -/

/-- The select registers of R11, and the address registers held per function that R12 governs. -/
def isSelect (off : Nat) : Bool :=
  [CLUSTER_SEL, CORE_SEL, GDR_SEL, SHD_SEL, LINK_SEL, BEL_SEL, VCD_CTX_SEL, OST_STREAM_ADDR,
    MUS_COLL_ADDR, FAR_LOG_ADDR].contains off || heldAddr off

/-- The written value is in the function's range (R12). -/
def State.selInRange (s : State) (fn off : Nat) (val : Word) : Bool :=
  if off = CLUSTER_SEL then fn == 0 || s.hasCluster (fn - 1) (getBits val 0 5)
  else if off = GDR_SEL then
    decide (getBits val 0 5 < 24) && (fn == 0 || s.hasChannel (fn - 1) (getBits val 0 5))
  else if off = LINK_SEL then decide (getBits val 0 4 < 12)
  else if off = BEL_SEL then fn == 0 || decide (getBits val 0 5 < 3)
  else if off = VCD_CTX_SEL then s.vcdReach fn (getBits val 0 8)
  else if off = OST_STREAM_ADDR then decide (getBits val 0 16 < s.fld OST_STREAMS_COUNT (fn - 1))
  else true

/-- SEL_ERR in the status register of the block (R12). GDR_STATUS and VCD_STATUS show each function its own
SEL_ERR (`ownSelErr`), as it has its own select (DEDUCED, log entry 25). -/
def State.selErr (s : State) (fn off : Nat) : State :=
  if off = CLUSTER_SEL then s.setFld CLU_WIN_STATUS_SEL_ERR fn 1
  else if off = GDR_SEL then s.setFld GDR_STATUS_SEL_ERR (ownSelErr GDR_STATUS fn) 1
  else if off = LINK_SEL then s.setFld HLK_STATUS_SEL_ERR (s.fld LINK_SEL_LINK fn) 1
  else if off = BEL_SEL then s.setFld BEL_STATUS_SEL_ERR fn 1
  else if off = VCD_CTX_SEL then s.setFld VCD_STATUS_SEL_ERR (ownSelErr VCD_STATUS fn) 1
  else if off = OST_STREAM_ADDR then s.setFld OST_STATUS_SEL_ERR (fn - 1) 1
  else s

/-- A write to a select register: accepted in range, else refused with SEL_ERR (R12). The EVENT and DETAIL that
the Farrier log's last read captured go with a new address (DEDUCED, log entry 27). -/
def selectWrite (s : State) (fn off : Nat) (val : Word) : State :=
  if ownerBlind fn off then s
  else if !s.selInRange fn off val then s.selErr fn off
  else
    let gone := if off = FAR_LOG_ADDR then [FAR_LOG_EVENT, FAR_LOG_DETAIL] else []
    let s := { s with host := { s.host with capHi := gone.foldl (fun t k => tabDel t (capKey fn k)) s.host.capHi } }
    s.writeRw off (s.regInst fn off) val

def execSelectWrite (fn : Fn) (off : Nat) (val : Word) (s : State) : Out :=
  .next (if isSelect off then throughBar s fn off true (selectWrite s fn off val) else s)

/-! ## 64-bit pairs (R6) -/

/-- The key of a function's pending low half. -/
def pendKey (fn off inst : Nat) : Nat := fn * 2 ^ 52 + regKey off inst

/-- A write to a _LO register is held for the function; an RO one is ignored (R6, R8). -/
def regLoWrite (s : State) (fn off : Nat) (val : Word) : State :=
  match rowOf off with
  | none => s
  | some r =>
    if ownerBlind fn off || accMask r .rw == 0 then s
    else { s with host := { s.host with
      pendLo := tabPut s.host.pendLo (pendKey fn off (s.regInst fn off)) val } }

def execRegLoWrite (fn : Fn) (off : Nat) (val : Word) (s : State) : Out :=
  .next (if isLo off then throughBar s fn off true (regLoWrite s fn off val) else s)

/-- The block lets a pair be changed: ring bases while the ring is not locked (R35), Ostler bases while
the pool is disabled (R200), day book bases while the ring is (R479), context blocks while the context
is (R484). -/
def State.pairOpen (s : State) (fn lo inst : Nat) : Bool :=
  match lo / 0x100000 with
  | 0 => if lo / 0x1000 = 1 then !s.sqLocked fn (lo % 0x1000 / 0x40)
    else !s.flag (HCI_CQ_CTRL_ENABLE (lo % 0x1000 / 0x40)) fn
  | 11 => !s.kvOn (fn - 1)
  | 13 => !s.dayOn fn
  | 14 => !s.flag VCD_CTX_CTRL_ENABLE inst
  | _ => true

/-- What the block records of a refused pair (R35, R200, R484). -/
def State.pairRefused (s : State) (fn lo inst : Nat) : State :=
  match lo / 0x100000 with
  | 0 => s.setupErr fn 0x4 (lo % 0x1000 / 0x40) (lo / 0x1000 != 1)
  | 11 => s.ostErr (fn - 1) 8
  | 14 => s.vcdErr inst 8
  | _ => s

/-- Both halves of a pair take effect as the block allows. -/
def commitPair (s : State) (fn lo inst : Nat) (v w : Word) : State :=
  if s.pairOpen fn lo inst then (s.writeRw lo inst v).writeRw (lo + 4) inst w else s.pairRefused fn lo inst

/-- A write to a _HI register commits both halves: the pending low half, or the current one where none is
held (R6). -/
def regHiWrite (s : State) (fn off : Nat) (val : Word) : State :=
  let lo := off - 4
  let i := s.regInst fn lo
  match rowOf lo with
  | none => s
  | some r =>
    if ownerBlind fn off || accMask r .rw == 0 then s
    else
      let k := pendKey fn lo i
      let v := (tabFind s.host.pendLo k).getD (s.reg lo i)
      commitPair { s with host := { s.host with pendLo := tabDel s.host.pendLo k } } fn lo i v val

def execRegHiWrite (fn : Fn) (off : Nat) (val : Word) (s : State) : Out :=
  .next (if isHi off then throughBar s fn off true (regHiWrite s fn off val) else s)

/-! ## Writes of every other register (R8, R9) -/

/-- A write field by field (R8): RW fields are set, W1C bits written as 1 are cleared, but one the device
sets in the same cc stays set (R9), RO, WO and RSVD ignore it. -/
def plainWrite (s : State) (off inst : Nat) (val devSet : Word) : State :=
  match rowOf off with
  | none => s
  | some r =>
    let rw := accMask r .rw
    let w1 := accMask r .w1c
    let old := s.reg off inst
    s.setReg off inst (((old &&& ~~~(rw ||| w1)) ||| (val &&& rw)) ||| ((old &&& w1 &&& ~~~val) ||| (devSet &&& w1)))

/-- The Bell's block (R433, R434, R442); bits of reserved sources ignore writes. -/
def belWrite (s : State) (fn off : Nat) (val devSet : Word) : State :=
  let i := s.regInst fn off
  let g := s.fld BEL_SEL_GROUP fn
  let m : Word := BitVec.ofNat 32 (bellGroupMask fn g)
  let mask := s.reg BEL_MASK (fn * 32 + g)
  if off = BEL_COMPLETE then belCompleteWrite s fn val
  else if off = BEL_PENDING then belPendingWrite s fn val devSet
  else if off = BEL_ENABLE ∨ off = BEL_MASK then s.setReg off i (val &&& m)
  else if off = BEL_MASK_SET then s.setReg BEL_MASK i (mask ||| (val &&& m))
  else if off = BEL_MASK_CLR then s.setReg BEL_MASK i (mask &&& ~~~val)
  else if BEL_ROUTE 0 ≤ off ∧ off < 0x1000C0 then
    if bellAssigned fn (32 * g + (off - BEL_ROUTE 0) / 4) then plainWrite s off i val devSet else s
  else plainWrite s off i val devSet

/-- HLK_ADDR and HLK_DIMS (R340, R363). -/
def hlkModuleWrite (s : State) (off : Nat) (val : Word) : State :=
  if off = HLK_ADDR then
    let up := (List.range 12).any fun l => s.flag HLK_CTRL_ENABLE l && s.flag HLK_STATUS_UP l
    if up then s else s.writeRw off 0 val
  else
    let put := fun (s : State) (f : Field) (top : Nat) =>
      let n := getBits val f.lo f.w
      if 1 ≤ n ∧ n ≤ top then s.setFld f 0 n else s
    put (put (put s HLK_DIMS_DX 8) HLK_DIMS_DY 16) HLK_DIMS_DZ 16

/-- The registers of the Ostler and of the owner's quotas (R200, R201, R232, R233). -/
def ostWrite (s : State) (fn off : Nat) (val devSet : Word) : State :=
  let i := s.regInst fn off
  if off = OST_CTRL then ostCtrlWrite s fn val
  else if off = OST_POOL_FRAMES then poolFramesWrite s fn false val
  else if off = OST_HOST_FRAMES then poolFramesWrite s fn true val
  else if off = OST_KV_CFG then
    ostConfigWrite s fn fun s => (plainWrite s off i val devSet).showSizes (fn - 1)
  else if off = OST_STREAMS ∨ off = OST_MANGERS then
    ostConfigWrite s fn fun s => plainWrite s off i val devSet
  else if 0x0B01200 ≤ off then pedKeyWrite s ((off - 0x0B01200) / 16) ((off - 0x0B01200) % 16 / 4) val
  else if 0x0B01000 ≤ off then
    match off % 16 with
    | 0 => partFramesWrite s ((off - 0x0B01000) / 16) val
    | 4 => partNodesWrite s ((off - 0x0B01000) / 16) val
    | _ => plainWrite s off i val devSet
  else plainWrite s off i val devSet

/-- A write that reaches a register. What an operand of the register's own row would say about the
hardware takes its plain case here: nothing fails; an install is started by its own row alone (DESIGN
CHOICE, log entry 28). -/
def regWrite (s : State) (fn off : Nat) (val devSet : Word) : State :=
  let i := s.regInst fn off
  let plain := plainWrite s off i val devSet
  let plain := if off = GDR_STATUS ∨ off = VCD_STATUS then
      plainWrite plain off (ownSelErr off fn) (val &&& 1) (devSet &&& 1)
    else plain
  if ownerBlind fn off || (rowOf off).isNone then s
  else if isSelect off then selectWrite s fn off val
  else if isLo off then regLoWrite s fn off val
  else if isHi off then regHiWrite s fn off val
  else match off / 0x100000 with
    | 0 =>
      let n := off % 0x1000 / 0x40
      if 0x1000 ≤ off ∧ off < 0x2000 ∧ off % 0x40 = 8 then
        if bitOf val 0 then sqEnable s fn n val else sqDisable s fn n val
      else if 0x2000 ≤ off ∧ off < 0x3000 ∧ off % 0x40 = 8 then
        if bitOf val 0 then cqEnable s fn n val else cqDisable s fn n val
      else plain
    | 1 => belWrite s fn off val devSet
    | 2 =>
      if off = CLK_CTRL then clkCtrlWrite s val
      else if off = CLK_SSC then clkSscWrite s val
      else if off = CLK_FREQ_BOUNDS ∨ off = CLK_PWR_CAP then clkBoundsWrite s off val
      else plain
    | 3 =>
      if off = BOOT_CTRL then bootCtrlWrite s val
      else if off = BOOT_FW_CMD then s
      else if off = BOOT_SAVE then bootSave s val false
      else if off = BOOT_UNIT_RESET then unitResetGo s val false [] [] []
      else plain
    | 4 =>
      if off = PRT_MODE then isolateWrite s val
      else if off = PRT_OWNER_LINES ∨ (prtConfigOf off).isSome then prtConfigWrite s off val
      else if 0x0401000 ≤ off then windowWrite s off val
      else if 0x0400100 ≤ off ∧ (off - 0x0400100) % 0x40 = 0 then prtCtrlWrite s ((off - 0x0400100) / 0x40) val
      else plain
    | 5 => if off = YTM_CTRL then ytmCtrlWrite s val else plain
    | 6 =>
      if off = HLK_CTRL then hlkCtrlWrite s i val
      else if off = HLK_ADDR ∨ off = HLK_DIMS then hlkModuleWrite s off val
      else plain
    | 7 => if off = MUS_CANCEL then musCancel s i (getBits val 12 4) (getBits val 0 12) false else plain
    | 8 => if off = GDR_MARGIN_CTRL then marginStart s val else plain
    | 11 => ostWrite s fn off val devSet
    | 12 =>
      if off = FAR_APPLY then farApply s val
      else if off = FAR_CFG then plain.spareSwaps
      else plain
    | 13 =>
      if off = DAY_CTRL then dayCtrlWrite s fn val
      else if off = DAY_STATUS ∨ !s.dayOn fn then plain
      else s
    | 14 =>
      if off = VCD_CTX_CTRL then vcdCtrlWrite s fn val
      else if off = VCD_CTX_OWNER then vcdOwnerWrite s i val
      else plain
    | 15 => if off = MBS_CTRL then mbsCtrlWrite s val 0 else plain
    | _ => plain

/-- A register write by a function in one of the three spaces; what ALERT# watches may change with the
owner's (R505). -/
def registerWrite (s : State) (fn : Nat) (sp : RegSpace) (off : Nat) (val devSet : Word) : State :=
  match sp with
  | .bar0 =>
    let t := regWrite s fn off val devSet
    throughBar s fn off true (if fn = 0 then t.alertCheck else t)
  | .msixTable => whenLive s fn (msixTableWrite s fn off val)
  | .msixControl => whenLive s fn (msixControlWrite s fn val)

def execRegisterWrite (fn : Fn) (sp : RegSpace) (off : Nat) (val devSet : Word) (s : State) : Out :=
  .next (registerWrite s fn sp off val devSet)

/-- A virtual function's access that it may not make (R31): the read returns 0, the write is ignored,
violation 0x09 is logged. -/
def execVfForbiddenAccess (fn : Fn) (off : Nat) (isWrite : Bool) (s : State) : Out :=
  .next (if !s.fnLive fn || s.mayAccess fn off isWrite then s
    else
      let s := if isWrite then s else { s with host := { s.host with lastRead := [0] } }
      s.hostViolation fn 0x09 off)

end Sys2Proof.Machine
end

