-- ==== Sys2Proof/Machine/Boundary.lean ====
section
/-! DEFINITION. The plan boundary (spec/01 R23, R24): the expert map (spec/12 R319 to R324), spares, held
writes, the power loop (R425); prefetches (R325 to R327); and the ends of yard-schedule fetches (R279 to
R281). -/

namespace Sys2Proof.Machine

/-! ## The expert map (R319 to R322, R328) -/

/-- A YARD record (R472). -/
def State.yardRecord (s : State) (p plan event expert value : Nat) : State :=
  s.dayRecord (p + 1) 0x0A plan 0 (leBytes 4 event ++ leBytes 4 expert ++ leBytes 4 value)

/-- What the Yardmaster keeps of an expert. -/
def State.expert (s : State) (p id : Nat) (pl : Plan) (e : Nat) : Expert :=
  (tabFind s.yard.experts (expertKey p id e)).getD (pl.freshExpert e)

def State.setExpert (s : State) (p id e : Nat) (x : Expert) : State :=
  { s with yard := { s.yard with experts := tabPut s.yard.experts (expertKey p id e) x } }

/-- The GDDR that replicas beyond the primaries take, those under way included. -/
def State.replicaBytes (s : State) (p id : Nat) (pl : Plan) : Nat :=
  (List.range pl.expertCount).foldl (fun n e =>
    let more := (s.yard.migrations.filter fun m => m.part == p && m.plan == id && m.expert == e && m.kind == 1).length
    n + ((s.expert p id pl e).replicas - 1 + more) * pl.expertBytes e) 0

/-- A migration of an expert is under way (R323). -/
def State.migrating (s : State) (p id e : Nat) : Bool :=
  s.yard.migrations.any fun m => m.part == p && m.plan == id && m.expert == e

/-- Chunks of 1 MiB that an expert's bytes make. -/
def Plan.chunksOf (pl : Plan) (e : Nat) : Nat := (pl.expertBytes e + 2 ^ 20 - 1) / 2 ^ 20

/-- Start a migration. -/
def State.migrate (s : State) (p id e kind chunks : Nat) : State :=
  { s with yard := { s.yard with migrations := s.yard.migrations ++ [⟨p, id, e, kind, chunks⟩] } }

/-- A clamp (R322): counted, CLAMP set, recorded. -/
def State.yardClamp (s : State) (p id event e value : Nat) : State :=
  let s := match event with
    | 1 => s.bump YMS_CLAMP_MIN_COUNT p
    | 2 => s.bump YMS_CLAMP_MAX_COUNT p
    | _ => s.bump YMS_CLAMP_BUDGET_COUNT p
  (s.setFld YMS_STATUS_CLAMP p 1).yardRecord p id event e value

/-- The wish for an expert: unclamped (R320). -/
def wish (score e sum min_ : Nat) : Nat := if sum = 0 then min_ else (score * e + sum - 1) / sum

/-- An expert's streaks after a boundary (R321). -/
def streaks (x : Expert) (d lo hi coldest e sum : Nat) : Expert :=
  let dc := max lo (min hi d)
  { x with
    above := if x.replicas < dc then x.above + 1 else 0
    below := if dc < x.replicas then x.below + 1 else 0
    cold := if coldest = 3 ∧ d ≤ 1 ∧ x.score * e * 16 < sum then x.cold + 1 else 0 }

/-- Scores after a boundary (R320 step 2), `others` the counts of the stable's other modules (DEDUCED, log
entry 45). -/
def State.scoreExperts (s : State) (p id : Nat) (pl : Plan) (others : List Nat) : State :=
  (List.range pl.expertCount).foldl (fun (s : State) e =>
    let c := (tabGet 0 s.yard.counts (expertKey p id e) + (others[e]?).getD 0) % 2 ^ 32
    let x := s.expert p id pl e
    s.setExpert p id e { x with score := x.score - x.score / 8 + c }) s

/-- Clamps are counted and the streaks move on (R321, R322). -/
def State.wishExperts (s : State) (p id : Nat) (pl : Plan) (sum : Nat) : State :=
  (List.range pl.expertCount).foldl (fun (s : State) e =>
    let (lo, hi, coldest) := pl.expertBounds e
    let x := s.expert p id pl e
    let d := wish x.score pl.expertCount sum lo
    let s := if d < lo then s.yardClamp p id 1 e d else if hi < d then s.yardClamp p id 2 e d else s
    s.setExpert p id e (streaks x d lo hi coldest pl.expertCount sum)) s

/-- Additions are granted in decreasing score, lower experts first among equals, within the budget; each is
a migration that copies the expert (R321, R323). -/
def State.addReplicas (s : State) (p id : Nat) (pl : Plan) : State :=
  let want := (List.range pl.expertCount).filter fun e =>
    decide (2 ≤ (s.expert p id pl e).above) && !s.migrating p id e && !(s.expert p id pl e).shed
  let order := want.insertionSort fun a b =>
    (s.expert p id pl b).score < (s.expert p id pl a).score ∨
      ((s.expert p id pl a).score = (s.expert p id pl b).score ∧ a ≤ b)
  order.foldl (fun (s : State) e =>
    if s.fld YMS_EXPERT_BUDGET_MIB p * 2 ^ 20 < s.replicaBytes p id pl + pl.expertBytes e then
      s.yardClamp p id 3 e ((s.expert p id pl e).replicas + 1)
    else s.migrate p id e 1 (pl.chunksOf e)) s

/-- Removals, which copy nothing, and demotions to the shed (R321). -/
def State.dropReplicas (s : State) (p id : Nat) (pl : Plan) : State :=
  (List.range pl.expertCount).foldl (fun (s : State) e =>
    let x := s.expert p id pl e
    if s.migrating p id e then s
    else if 4 ≤ x.below then
      let n := x.replicas - 1
      (s.setExpert p id e { x with replicas := n, mask := pl.positions e n, below := 0 }).yardRecord p id 4 e n
    else if 8 ≤ x.cold ∧ !x.shed ∧ x.replicas ≤ 1 ∧
        pl.chunksOf e * 64 ≤ s.fld YMS_SHED_PAGES_COUNT p then s.migrate p id e 3 (pl.chunksOf e)
    else s) s

/-- An EXPERT_MAP record (R328, R472). -/
def State.mapRecord (s : State) (p id : Nat) (pl : Plan) : State :=
  let row := fun e => let x := s.expert p id pl e
    leBytes 1 x.replicas ++ leBytes 1 (if x.shed then 3 else 2) ++ leBytes 2 x.mask ++ leBytes 4 x.score
  s.dayRecord (p + 1) 0x04 id 0 (leBytes 4 pl.expertCount) ((List.range pl.expertCount).flatMap row)

/-- The expert map of a plan whose step has run is worked out; ADAPT_EN 0 freezes it (R329) (DEDUCED, log
entry 45). -/
def State.expertMap (s : State) (p id : Nat) (pl : Plan) (others : List Nat) : State :=
  let s := s.scoreExperts p id pl others
  let s := { s with yard := { s.yard with counts := tabDrop s.yard.counts fun k => k / 2 ^ 32 == p * 16 + id } }
  let sum := (List.range pl.expertCount).foldl (fun n e => n + (s.expert p id pl e).score) 0
  let s := if s.flag YMS_CFG_ADAPT_EN p then
      ((s.wishExperts p id pl sum).addReplicas p id pl).dropReplicas p id pl
    else s
  s.mapRecord p id pl

/-- The plans of a partition whose drover streams have counted tokens since the last boundary. -/
def State.countedPlans (s : State) (p : Nat) : List Nat :=
  ((s.yard.counts.map fun e => e.1 / 2 ^ 32).eraseDups.filter fun k => k / 16 == p).map (· % 16)

/-! ## PLAN_BOUNDARY -/

/-- A plan boundary of a partition. `others` gives, for a plan, the token counts of the stable's other
modules by expert (R320); `watts` is the module's input power and `fails` the dies whose regulator cannot
be written (R425, R509) (DESIGN CHOICE, log entry 44). -/
def planBoundary (s : State) (p watts : Nat) (fails : List Nat) (others : List (Nat × List Nat)) : State :=
  if !s.atBoundary p then s
  else
    let s := { s with yard := { s.yard with migDone := tabDel s.yard.migDone p } }
    let s := (s.countedPlans p).foldl (fun (s : State) id => match s.planOf p id with
      | some pl => s.expertMap p id pl (((others.find? (·.1 == id)).map (·.2)).getD [])
      | none => s) s
    let s := s.setFld YMS_STATUS_BOUNDARY_BUSY p (s.yard.migrations.any (·.part == p)).toNat
    let s := s.spareSwaps
    let s := if s.allBoundary then
        let s := (s.releaseYtCtrl.clockBoundary)
        let s := s.parts.heldWindows.foldl (fun (s : State) w => s.storeWindow w.1 w.2) s
        { s with parts := { s.parts with
          heldWindows := []
          whistleNow := (List.range 32).foldl (fun t q => tabSet false t q (s.flag (PRT_CTRL_WHISTLE q))) s.parts.whistleNow } }
      else s
    let s := s.setFld CLK_PWR_NOW_WATTS 0 watts
    (List.range 4).foldl (fun (s : State) d =>
      let ps := s.partsOnDie d
      if ps.contains p ∧ ps.all s.atBoundary then
        (s.powerLoop d watts (fails.contains d)).restorePoint d
      else s) s

def execPlanBoundary (p : Part) (watts : Nat) (fails : List DieId) (others : List (Fin 16 × List Nat))
    (s : State) : Out :=
  .next (planBoundary s p watts (fails.map (·.val)) (others.map fun o => (o.1.val, o.2)))

/-! ## Migrations (R323) -/

/-- A migration's last chunk has been copied: the map entry switches. -/
def State.switchExpert (s : State) (m : Migration) (pl : Plan) : State :=
  let x := s.expert m.part m.plan pl m.expert
  let x := if m.kind = 1 then
      { x with replicas := x.replicas + 1, mask := pl.positions m.expert (x.replicas + 1), above := 0 }
    else { x with shed := true, cold := 0 }
  ((s.setExpert m.part m.plan m.expert x).bump YMS_MIGRATIONS_COUNT m.part).yardRecord m.part m.plan 4 m.expert
    x.replicas

/-- A 1 MiB chunk of a partition's first migration has been copied, at a plan boundary and within the limit of
the boundary. -/
def migrationChunk (s : State) (p : Nat) : State :=
  match s.yard.migrations.find? (·.part == p) with
  | none => s
  | some m =>
    let done := tabGet 0 s.yard.migDone p
    if !s.atBoundary p || (s.stepOf p).isSome || decide (s.fld YMS_MIG_LIMIT_MIB p ≤ done) then s
    else match s.planOf p m.plan with
      | none => s
      | some pl =>
        let s := { s with yard := { s.yard with migDone := tabPut s.yard.migDone p (done + 1) } }
        let rest := s.yard.migrations.erase m
        let s := if m.chunks ≤ 1 then
            ({ s with yard := { s.yard with migrations := rest } }).switchExpert m pl
          else { s with yard := { s.yard with
            migrations := s.yard.migrations.map fun x => if x = m then { m with chunks := m.chunks - 1 } else x } }
        s.setFld YMS_STATUS_BOUNDARY_BUSY p (s.yard.migrations.any (·.part == p)).toNat

def execMigrationChunk (p : Part) (s : State) : Out := .next (migrationChunk s p)

/-- A demoted expert whose weights a waiting iteration needs has come back from the shed (R324): shed late on
the clusters that wait, for the beats waited. -/
def demandFetch (s : State) (p id e beats : Nat) : State :=
  match s.planOf p id with
  | none => s
  | some pl =>
    let x := s.expert p id pl e
    let mine := (s.stepOf p).any fun st => st.plan == id && st.running
    if !x.shed || !mine then s
    else
      let ts := (pl.tensors.filter (·.expert == e)).map (·.id)
      let cs := ((ts.flatMap pl.readerClusters).eraseDups)
      let s := cs.foldl (fun (s : State) c =>
        (s.bump CLU_STALL_SHED_EVENTS_COUNT c).bump CLU_STALL_SHED_BEATS_COUNT c beats) s
      ((s.setExpert p id e { x with shed := false, cold := 0 }).bump YMS_DEMAND_FETCHES_COUNT p).yardRecord p id 6 e beats

def execDemandFetch (p : Part) (plan : Fin 16) (expert : Nat) (beats : Nat) (s : State) : Out :=
  .next (demandFetch s p plan expert beats)

/-! ## Prefetches (R325 to R327) -/

/-- The sectors of a line that a byte range covers, as a mask. -/
def lineMask (line off n : Nat) : Nat :=
  (List.range 16).foldl (fun m k =>
    let a := line * 1024 + 64 * k
    if a < off + n ∧ off < a + 64 then m + 2 ^ k else m) 0

/-- The sectors of a line that its home Loft holds, or that are on their way. -/
def State.sectorsHeld (s : State) (p l : Nat) : Nat :=
  let (c, set) := s.homeOf p l
  let line := lineKey (p + 1) l
  let held := (((s.loftLines c set).find? (·.line == line)).map (·.valid)).getD 0
  (s.loft.fills.filter (·.line == line)).foldl (fun m f => m ||| f.mask) held

/-- A prefetch of one line. -/
def State.prefetchLine (s : State) (x : Nest) (l mask : Nat) (due : Option Nat) : State :=
  let line := lineKey (x.p + 1) l
  let chan := s.channelOf (x.p + 1) l
  let need := mask - (mask &&& s.sectorsHeld x.p l)
  if need = 0 ∨ s.chanDown chan ∨ s.clusterDown (s.homeOf x.p l).1 then s
  else
    let s := s.request x.p ⟨line, need, due, true, false, false, true, s.chanEpoch chan⟩
    let s := { s with yard := { s.yard with prefetches := s.yard.prefetches ++ [(⟨x.p, x.core, x.q.desc, line, false⟩ : Prefetch)] } }
    s.bump64 YMS_PF_ISSUED_LO x.p (sectorsOf need).length

/-- The Yardmaster prefetches the first bales of the GDDR read operands of a nest that waits on a slot's beat,
from RUNAHEAD beats before it (R325). -/
def prefetchIssue (s : State) (core : Nat) : State :=
  match s.nest core with
  | none => s
  | some x =>
    let b := x.slotBeat x.d.preRef
    if x.q.phase ≠ .waitBeat ∨ !s.flag YMS_CFG_PF_EN x.p ∨ s.beat + s.fld YMS_CFG_RUNAHEAD x.p < b then s
    else
      let i : Iter := ⟨zeros6, zeros6, zeros6⟩
      let at_ := s.loft.now + (b - s.beat) * s.beatClocks
      let due := if 2 ^ 63 < at_ then none else some at_
      (x.ops.filter fun o => o.2.role == 1 || o.2.role == 3).foldl (fun (s : State) o =>
        let n := 64 + payloadSize o.2.format o.2.shape o.2.rows o.2.cols
        match s.opPlace x (s.opAddr x i o.2) n with
        | some (.gddr off) =>
          (List.range ((off + n + 1023) / 1024 - off / 1024)).foldl (fun (s : State) k =>
            let l := off / 1024 + k
            s.prefetchLine x l (lineMask l off n) due) s
        | _ => s) s

def execPrefetchIssue (core : CoreId) (s : State) : Out := .next (prefetchIssue s core)

/-! ## The ends of fetches (R279 to R281) -/

/-- Change a fetch of a step. -/
def State.updFetch (s : State) (p k : Nat) (f : Fetch → Fetch) : State :=
  s.updStep p fun st => { st with fetches := st.fetches.map fun g => if g.slot = k then f g else g }

/-- Pages of a fetched tensor that the shed could not decode (R301), by page and channel: they land as zeros under
the MARK, and the step completes DATA_ERROR (R461). -/
def State.failPages (s : State) (p t bytes : Nat) (fails : List (Nat × Nat)) : State :=
  fails.foldl (fun (s : State) x =>
    let n := min pageSize (bytes - x.1 * pageSize)
    match s.tensorPlace p t (x.1 * pageSize) n with
    | some pl => if n = 0 then s else (s.failPage (p + 1) pl n x.2).stepFault p 0x09
    | none => s) s

/-- The last byte of a fetch lands, with the pages that failed. One that missed its deadline without a recipe is
counted once under its cause, with the beats from DL rounded up, on the clusters of its readers, and recorded; `past`
says whether the present beat's first core clock is over (DESIGN CHOICE, log entry 37). -/
def fetchComplete (s : State) (p k : Nat) (fails : List (Nat × Nat)) (past : Bool) : State :=
  match s.stepOf p, s.stepPlan p with
  | some st, some pl =>
    match st.fetches.find? fun f => f.slot == k && !f.landed && !f.withdrawn with
    | none => s
    | some f =>
      let s := (s.earlyEnds p).updFetch p k fun g => { g with landed := true }
      let s := if f.tier = 3 then s.failPages p f.tensor (((pl.tensor f.tensor).map (·.bytes)).getD 0) fails else s
      if !f.late then s
      else
        let n := max 1 (s.beat - f.deadline + past.toNat)
        let s := (pl.readerClusters f.tensor).foldl (fun (s : State) c =>
          if fetchCause f = 2 then (s.bump CLU_STALL_SHED_EVENTS_COUNT c).bump CLU_STALL_SHED_BEATS_COUNT c n
          else (s.bump CLU_STALL_GDDR_EVENTS_COUNT c).bump CLU_STALL_GDDR_BEATS_COUNT c n) s
        s.fetchRecord p f 2 (fetchCause f) n
  | _, _ => s

def execFetchComplete (p : Part) (slot : Nat) (fails : List (Nat × ShedChan)) (past : Bool) (s : State) : Out :=
  .next (fetchComplete s p slot (fails.map fun x => (x.1, x.2.val)) past)

/-- Yard Time reaches the deadline of a fetch that is incomplete (R280): the readers recompute, or wait. A
replay takes the recorded course (R476) (DEDUCED, log entry 46). -/
def fetchDeadlineMiss (s : State) (p k : Nat) : State :=
  match s.stepOf p, s.stepPlan p with
  | some st, some pl =>
    match st.fetches.find? fun f => f.slot == k && !f.landed && !f.withdrawn && !f.late with
    | none => s
    | some f =>
      if s.beat < f.deadline then s
      else
        let s := s.earlyEnds p
        if pl.fallback f.tensor ∧ st.replay.isNone then s.recomputeFetch p f
        else s.updFetch p k fun g => { g with late := true }
  | _, _ => s

def execFetchDeadlineMiss (p : Part) (slot : Nat) (s : State) : Out := .next (fetchDeadlineMiss s p slot)

end Sys2Proof.Machine
end

