-- ==== Sys2Proof/Machine/Drovers.lean ====
section
/-! DEFINITION. The drovers (spec/10 R271 to R278, spec/08 R215): a stream starts, gathers rows or pages into
bales for its reader, or scatters the rows of the bales it takes. -/

namespace Sys2Proof.Machine

/-! ## The record of a DROVE node (R271) -/

def NodeEnt.dMode (n : NodeEnt) : Nat := fieldAt n.record 0 1
def NodeEnt.dHalf (n : NodeEnt) : Nat := fieldAt n.record 1 1 % 2
def NodeEnt.dGroup (n : NodeEnt) : Nat := fieldAt n.record 2 1
def NodeEnt.dTiles (n : NodeEnt) : Nat := max 1 (fieldAt n.record 3 1)
def NodeEnt.dData (n : NodeEnt) : Nat := fieldAt n.record 4 4
def NodeEnt.dIndex (n : NodeEnt) : Nat := fieldAt n.record 8 4
def NodeEnt.dFirst (n : NodeEnt) : Nat := fieldAt n.record 12 4
def NodeEnt.dRows (n : NodeEnt) : Nat := fieldAt n.record 24 4
def NodeEnt.dRowStride (n : NodeEnt) : Int := sfieldAt n.record 28 4
def NodeEnt.dColStride (n : NodeEnt) : Int := sfieldAt n.record 32 4

/-- A drover at work: its number, stream, step, plan, node, and the edge it serves. -/
structure Droving where
  k : Nat
  d : Drove
  st : Step
  pl : Plan
  n : NodeEnt
  e : Nat × BoundEdge
deriving DecidableEq, Repr

/-- The work of a drover in a running step. -/
def State.droving (s : State) (k : Nat) : Option Droving :=
  match tabFind s.drovers k with
  | none => none
  | some d => match s.stepOf d.part, s.planOf d.part d.plan with
    | some st, some pl =>
      match pl.node d.node, pl.bound.zipIdx.find? fun e => e.1.srcNode == d.node || e.1.dstNode == d.node with
      | some n, some e => if st.running then some ⟨k, d, st, pl, n, (e.2, e.1)⟩ else none
      | _, _ => none
    | _, _ => none

/-- Change a drover's stream. -/
def State.updDrove (s : State) (k : Nat) (f : Drove → Drove) : State :=
  match tabFind s.drovers k with
  | none => s
  | some d => { s with drovers := tabPut s.drovers k (f d) }

/-- A drover fault (R278): the first kept, counted, and a cause of DATA_ERROR (DEDUCED, log entry 48). -/
def State.droverFault (s : State) (x : Droving) (code : Nat) : State :=
  let q := x.k % 4
  let c := x.k / 4
  let s := if s.flag (DRV_STATUS_FAULT q) c then s
    else (s.setFld (DRV_FAULT_CODE q) c code).setFld (DRV_FAULT_NODE q) c (x.d.node % 2 ^ 24)
  ((s.setFld (DRV_STATUS_FAULT q) c 1).bump (DRV_FAULT_COUNT_COUNT q) c).stepFault x.d.part 0x05

/-- The counters of a bale moved: rows or key halves, and bytes of memory. -/
def State.droverCount (s : State) (x : Droving) (rows bytes : Nat) : State :=
  let q := x.k % 4
  let c := x.k / 4
  let s := if rows = 0 then s else s.bump64 (DRV_ROWS_LO q) c rows
  let s := if bytes = 0 then s else s.bump64 (DRV_BYTES_LO q) c bytes
  s.bump (DRV_BALES_COUNT q) c

/-! ## Starting (R215, R272, R273, R276, R320) -/

/-- The halves that a page gather of a stream delivers, in position order: its blocks' halves with tokens,
then the manger's, each with KEY_BASE and the live slots (DEDUCED, log entry 48). -/
def State.gatherPages (s : State) (p sid : Nat) (x : Stream) :
    List (Nat × Option Nat × Nat × Nat × Nat × Nat) :=
  let top := match x.top with
    | some t => t + 1
    | none => 0
  let from_ := if x.window = 0 then 0 else top - min top x.window
  let blocks := (List.range top).filter fun b => decide (from_ ≤ b) && (tabFind x.table (x.word b)).isSome
  let pages := blocks.flatMap fun b =>
    let tok := match tabFind x.table (x.word b) with
      | some f => s.pageTokens p (s.framePlace p f)
      | none => 0
    [0, 1].filterMap fun h =>
      if 128 * h < tok then some (sid, some b, h, x.start + 256 * b + 128 * h, 0, min 128 (tok - 128 * h)) else none
  let h0 := (x.flushed - x.start) / 128
  let h1 := (x.fill - x.start + 127) / 128
  let manger := (List.range (h1 - h0)).filterMap fun j =>
    let base := x.start + 128 * (h0 + j)
    let lo := x.flushed - base
    let hi := min 128 (x.fill - base)
    if lo < hi then some (sid, (none : Option Nat), (h0 + j) % 2, base, lo, hi) else none
  pages ++ manger

/-- A page gather reads one stream's marks; one that is not open is an Ostler fault and gives one bale of
poisoned zeros (R234). -/
def State.gatherStream (s : State) (x : Droving) (sid : Nat) :
    List (Nat × Option Nat × Nat × Nat × Nat × Nat) × List (Nat × Nat × Nat) × State :=
  let p := x.d.part
  let s := s.touchStream p sid
  match s.stream p sid with
  | some t => (s.gatherPages p sid t, [(sid, t.flushed, t.fill)], s)
  | none => ([(2 ^ 16 + sid, none, 0, 0, 0, 128)], [], s.kvFault p sid 0x02)

/-- Where a write of a drover lies: none outside the partition, in the Ostler's regions or the day book. -/
def State.droverSpot (s : State) (p : Nat) (addr : Int) (space n : Nat) : Option Place :=
  if addr < 0 ∨ (2 ^ 60 : Nat) ≤ addr then none
  else match s.place (p + 1) (space * 2 ^ 60 + addr.toNat) n with
    | .ok pl => some pl
    | .error _ => none

/-- A length word (R273). -/
def State.lengthWord (s : State) (x : Droving) (k v : Nat) : State :=
  let p := x.d.part
  let t := fieldAt x.n.record 36 4
  let i := fieldAt x.n.record 40 4 + k
  match s.tensorPlace p t (4 * i) 4 with
  | none => s.droverFault x 0x04
  | some pl =>
    if s.hitsOstler (p + 1) pl 4 || s.hitsDayAt (p + 1) pl 4 then s.droverFault x 0x04
    else s.setTensorWord p t i v

/-- The bales that a stream delivers or takes. -/
def Droving.total (x : Droving) : Nat :=
  if x.n.dMode = 3 then x.d.pages.length else (x.d.n + 127) / 128 * x.n.dTiles

/-- The tokens of a stream count for the expert of the node it feeds (R320). -/
def State.countTokens (s : State) (x : Droving) (n : Nat) : State :=
  match x.pl.node x.e.2.dstNode with
  | none => s
  | some r =>
    if r.expert = 0xFFFFFFFF ∨ x.e.2.srcNode ≠ x.d.node then s
    else { s with yard := { s.yard with
      counts := tabModify 0 s.yard.counts (expertKey x.d.part x.d.plan r.expert) (· + n) } }

/-- The stream ends once everything has been delivered or taken. -/
def State.droverEnd (s : State) (k : Nat) : State :=
  match s.droving k with
  | none => s
  | some x =>
    if x.d.started ∧ x.total ≤ x.d.pos then
      (s.updDrove k fun d => { d with ended := true, marks := [] }).setFld (DRV_STATUS_BUSY (k % 4)) (k / 4) 0
    else s

/-- A stream starts: it reads n and, for pages, the streams' marks, writes its length words and signals
READY_SEM. `fails`: the words, the count first, whose PCIe access fails. -/
def droverStart (s : State) (k : Nat) (fails : List Nat) : State :=
  match s.droving k with
  | none => s
  | some x =>
    let ts := fieldAt x.n.record 16 4 :: (if x.n.dMode = 3 then [x.n.dIndex] else [])
    if x.d.started || !x.d.semOk || s.flag CLK_STATUS_VIN_WARN then s
    else if ts.any (s.fetching x.d.part) then s.fetchWait x.d.part (256 + k) ts
    else
      let p := x.d.part
      let s := s.earlyEnd p (256 + k)
      let s := (s.setFld (DRV_STATUS_BUSY (k % 4)) (k / 4) 1).setFld (DRV_STATUS_MODE (k % 4)) (k / 4) x.n.dMode
      let word := fun (s : State) t i j => ((if fails.contains j then none else s.tensorWord p t i), s.tookWord p t i)
      let (n, s) := match word s (fieldAt x.n.record 16 4) (fieldAt x.n.record 20 4) 0 with
        | (some n, s) => (n, s)
        | (none, s) => (0, s.droverFault x 0x03)
      let (pages, marks, s) :=
        if x.n.dMode ≠ 3 then ([], [], s)
        else (List.range n).foldl (fun a j =>
          match word a.2.2 x.n.dIndex (x.n.dFirst + j) (j + 1) with
          | (some sid, s) =>
            let (ps, ms, s) := s.gatherStream x sid
            (a.1 ++ ps, a.2.1 ++ ms, s.lengthWord x j (128 * ps.length))
          | (none, s) => (a.1, a.2.1, (s.droverFault x 0x03).lengthWord x j 0)) ([], [], s)
      let s := if x.n.dMode = 1 then s.lengthWord x 0 n else s
      let s := if x.n.dMode = 3 ∧ n = 0 then s.lengthWord x 0 0 else s
      let s := s.countTokens x n
      let s := s.updDrove k fun d => { d with started := true, n := n, pos := 0, pages := pages, marks := marks }
      (s.signal p (fieldAt x.n.record 44 4)).droverEnd k

/-- The function that a drover works for. -/
def State.droverFn (s : State) (k : Nat) : Nat := ((tabFind s.drovers k).map (·.part + 1)).getD 0

def execDroverStreamStart (d : DroverId) (fails : List Nat) (errs : List MemEvent) (s : State) : Out :=
  .next (if (s.droving d).isNone then s else s.meeting (s.droverFn d) errs fun s => droverStart s d fails)

/-! ## Rows (R274) -/

/-- Where the bale lies that holds a data row, for a column tile. -/
def State.rowPlace (s : State) (x : Droving) (row t n : Nat) : Option Place :=
  match s.tensorAddr x.d.part x.n.dData with
  | none => none
  | some a => s.droverSpot x.d.part
      ((a % 2 ^ 60 : Nat) + x.n.dRowStride * (row / 128 : Nat) + x.n.dColStride * (t : Nat)) (a / 2 ^ 60) n

/-- A bale that a drover may read or write rows of: its header passes R71 and R72, and its rows carry their own
scales. -/
def rowsReadable (p : Nat) (h : BaleHdr) : Bool := (hdrBadByte h).isNone && h.part == p && h.shape == 0

/-- The parts of a LAYOUT 0 bale that an access to one row moves: its header, the row's data and its scales
(R277). -/
def rowParts (h : BaleHdr) (r : Nat) : List (Nat × Nat) :=
  let (_, n) := storedExtents h.format h.shape h.rows h.cols
  let w := n * bitsOfFormat h.format / 8
  let k := if blockScaled h.format then n / 32 else 0
  [(0, 64), (64 + r * w, w)] ++
    (if k = 0 then [] else [(64 + dataSize h.format h.shape h.rows h.cols + r * k, k)])

/-- Some rows of the bale at a place as the step reads them, no other sector of it. -/
def State.rowsRead (s : State) (p : Nat) (pl : Place) (rows : List Nat) : BaleRead :=
  let b := s.readBale (p + 1) pl
  let ps := (rows.flatMap (rowParts b.bale.hdr)).map fun q => (placeAdd pl q.1, q.2)
  let bad := ps.find? fun q => s.badAt (p + 1) q.1 q.2
  { b with bad := bad.isSome, code := (bad.map fun q => s.badCode (p + 1) q.1 q.2).getD 0
           down := ps.any fun q => s.stepDown p q.1 q.2 }

/-- The drover takes those rows. -/
def State.tookRows (s : State) (p : Nat) (b : BaleRead) (rows : List Nat) : State :=
  ((rows.flatMap (rowParts b.bale.hdr)).foldl (fun (s : State) q => s.touch (p + 1) (placeAdd b.pl q.1) q.2)
    s).readCause p b

/-- A row of a gather: its bytes where it has any; a pad row; and whether it poisons the bale. -/
structure GatherRow where
  bytes : Option (List Byte)
  pad : Bool
  poison : Bool
  dirty : Bool
  sticky : Nat

/-- A gather under way: the rows so far, the header of the tile's first good source, and the state. -/
structure Gather where
  rows : List GatherRow
  first : Option BaleHdr
  s : State

/-- Take one row of a tile. -/
def Gather.row (g : Gather) (x : Droving) (i t : Nat) : Gather :=
  let p := x.d.part
  let s := g.s
  let add := fun (s : State) (f : Option BaleHdr) r => ({ rows := g.rows ++ [r], first := f, s := s } : Gather)
  let bad := fun (s : State) code pad => add (if t = 0 ∨ code = 2 ∨ code = 4 then s.droverFault x code else s) g.first
    ⟨none, pad, true, true, 0⟩
  let w := s.tensorWord p x.n.dIndex (x.n.dFirst + i)
  let s := if t = 0 then s.tookWord p x.n.dIndex (x.n.dFirst + i) else s
  match w with
  | none => bad s 0x03 true
  | some row =>
    if row = 0xFFFFFFFF then
      add (if t = 0 then s.bump (DRV_PAD_ROWS_COUNT (x.k % 4)) (x.k / 4) else s) g.first ⟨none, true, false, false, 0⟩
    else if x.n.dRows ≤ row then bad s 0x01 true
    else match s.rowPlace x row t 64 with
      | none => bad s 0x04 false
      | some pl =>
        if s.stepDown p pl 64 then add (s.stepReset p) g.first ⟨none, false, true, false, 0⟩
        else
          let r := s.rowsRead p pl [row % 128]
          let h := r.bale.hdr
          let same := match g.first with
            | some f => f.format == h.format && f.shape == h.shape && f.cols == h.cols
            | none => true
          if !rowsReadable p h || !same then bad (s.touch (p + 1) pl 64) 0x02 false
          else if (s.rowPlace x row t h.size).isNone then bad s 0x04 false
          else if r.down then add (s.stepReset p) g.first ⟨none, false, true, false, 0⟩
          else
            let dirty := r.bad || (r.bale.poison && !s.isSoft p r.key)
            let f := some (g.first.getD h)
            let past := decide (h.rows ≤ row % 128)
            add (s.tookRows p r [row % 128]) f
              ⟨if past then none else some (rowBytes r.bale (row % 128)), past, r.bad || r.bale.poison, dirty, h.sticky⟩

/-- The reading operand of a drover's edge. -/
def Droving.operand (x : Droving) : Option Operand := x.pl.edgeOperand x.e.1

/-- The bale of a gather of rows, with the rows and bytes moved. -/
def State.rowsBale (s : State) (x : Droving) : Item × Nat × Nat × State :=
  let p := x.d.part
  let j := x.d.pos / x.n.dTiles
  let t := x.d.pos % x.n.dTiles
  let n := min 128 (x.d.n - 128 * j)
  let g := (List.range n).foldl (fun (g : Gather) r => g.row x (128 * j + r) t) ⟨[], none, s⟩
  let o := x.operand
  let h := g.first.getD { (zeroBale ((o.map (·.format)).getD 1) ((o.map (·.shape)).getD 0) 1
    ((o.map (·.cols)).getD 1)).hdr with flags := 0 }
  let blank := (rowBytes (zeroBale h.format h.shape 1 h.cols) 0).map fun _ => (0 : Byte)
  let sticky := g.rows.foldl (fun a r => a ||| r.sticky) 0
  let b := baleOfRows h p ((o.map (·.tensor)).getD 0) (128 * j) (g.rows.map fun r => r.bytes.getD blank) sticky
    (g.rows.any (·.poison))
  let pads := (List.range n).filter fun r => ((g.rows[r]?).map (·.pad)).getD false
  let moved := (g.rows.filter (·.bytes.isSome)).length
  let (_, w) := storedExtents h.format h.shape 1 h.cols
  let per := 64 * ((w * bitsOfFormat h.format + 511) / 512 + (blockScaled h.format).toNat)
  (⟨b.bytes, pads, none, g.rows.any (·.dirty), b.bytes.length / 64⟩, moved, moved * per, g.s)

/-! ## Pages (R215, R276) -/

/-- A half as a page gather delivers it: the bytes of memory read for it, and the unit code of its poison (R225,
R461). -/
structure HalfRead where
  bale : Bale
  pl : Place
  n : Nat
  code : Option Nat

/-- What a half's bytes in memory make its poison: a bad sector, or the POISON of its page or header. -/
def State.halfPoison (s : State) (p : Nat) (pl : Place) (n : Nat) (poison : Bool) : Option Nat :=
  if s.badAt (p + 1) pl n then some (s.badCode (p + 1) pl n) else if poison then some 0x0B else none

/-- A half of a resident block, or of the manger narrowed on delivery; none where a reset took it. -/
def State.pageHalf (s : State) (x : Droving) (sid : Nat) (blk : Option Nat) (h base lo hi : Nat) :
    Option HalfRead :=
  let p := x.d.part
  let fm := s.kvFormat p
  let d := s.kvD p
  let g := x.n.dGroup
  let kv := x.n.dHalf
  match s.stream p sid with
  | none => none
  | some t => match blk with
    | some b => match tabFind t.table (t.word b) with
      | none => none
      | some f =>
        let page := s.framePlace p f
        let at_ := placeAdd page (halfOffset (halfBytes fm d) g kv h)
        let b := s.readHalf p page fm d g kv h
        let bad := b.poison || (s.pageFlags p page).testBit 1
        if s.stepDown p at_ (halfBytes fm d) then none
        else some ⟨b, at_, halfBytes fm d, s.halfPoison p at_ (halfBytes fm d) bad⟩
    | none =>
      let mf := mangerFormat fm
      let man := s.mangerPlace p t.manger
      let m := s.readHalf p man mf d g kv h
      let old := List.replicate (payloadSize fm (halfShape fm) d 128) (0 : Byte)
      let (pay, fl) := flushHalf fm d kv lo hi old m
      let (hurt, sticky, tensor) := t.putMarks g kv (base + lo) (base + hi)
      let hdr := halfHdr fm d p tensor kv base hurt.toNat (sticky ||| stickyOf fl)
      let at_ := placeAdd man (halfOffset (halfBytes mf d) g kv h)
      if s.stepDown p at_ (halfBytes mf d) then none
      else some ⟨⟨hdr, pay⟩, at_, halfBytes mf d, s.halfPoison p at_ (halfBytes mf d) hurt⟩

/-- The next bale of a page gather. -/
def State.pageBale (s : State) (x : Droving) : Item × Nat × Nat × State :=
  let p := x.d.part
  match x.d.pages[x.d.pos]? with
  | none => (⟨[], [], none, true, 0⟩, 0, 0, s)
  | some (sid, blk, h, base, lo, hi) =>
    let side := some (⟨base, lo, hi, x.n.dHalf == 1⟩ : Sideband)
    let zero := { x.pl.edgeZero p x.e.1 0 with side := side }
    let zero := { zero with units := zero.bytes.length / 64 }
    if 2 ^ 16 ≤ sid then (zero, 0, 0, s)
    else match s.pageHalf x sid blk h base lo hi with
      | none => ({ zero with dirty := false }, 0, 0, s.stepReset p)
      | some r =>
        let s := s.touch (p + 1) r.pl r.n
        let s := match r.code with
          | some c => s.stepFault p c
          | none => s
        if (hdrBadByte r.bale.hdr).isSome || r.bale.hdr.part != p then (zero, 0, 0, s.droverFault x 0x02)
        else
          let poison := r.code.isSome || r.bale.poison
          let b := { r.bale with hdr := { r.bale.hdr with flags := poison.toNat } }
          (⟨b.bytes, [], side, poison, b.bytes.length / 64⟩, 1, r.n, s)

/-- A drover builds its next bale and puts it into the send half of its edge, which holds two at most; on a
broken chute it is discarded (R156). -/
def droverDeliver (s : State) (k : Nat) : State :=
  match s.droving k with
  | none => s
  | some x =>
    let p := x.d.part
    let c := s.chuteOf p x.d.plan x.e
    let ts := if x.n.dMode = 1 then [x.n.dIndex, x.n.dData] else []
    if !x.d.started || x.d.ended || x.n.dMode == 2 || decide (2 ≤ c.half.length) then s
    else if ts.any (s.fetching p) then s.fetchWait p (256 + k) ts
    else
      let s := s.earlyEnd p (256 + k)
      let (it, rows, bytes, s) := if x.n.dMode = 1 then s.rowsBale x else s.pageBale x
      let s := if c.broken then s
        else s.setChute p x.d.plan x.e { s.chuteOf p x.d.plan x.e with half := c.half ++ [it] }
      let s := (s.droverCount x rows bytes).updDrove k fun d => { d with pos := d.pos + 1 }
      s.droverEnd k

def execDroverBaleDeliver (d : DroverId) (errs : List MemEvent) (s : State) : Out :=
  .next (if (s.droving d).isNone then s else s.meeting (s.droverFn d) errs fun s => droverDeliver s d)

/-! ## Scatter (R275) -/

/-- Replace a row's data and scale bytes in a LAYOUT 0 bale. -/
def putRow (b : Bale) (r : Nat) (row : List Byte) : Bale :=
  let h := b.hdr
  let (_, n) := storedExtents h.format h.shape h.rows h.cols
  let w := n * bitsOfFormat h.format / 8
  let k := if blockScaled h.format then n / 32 else 0
  let put := fun (bs : List Byte) at_ (v : List Byte) => bs.take at_ ++ v ++ bs.drop (at_ + v.length)
  let pay := put b.payload (r * w) (row.take w)
  ⟨h, put pay (dataSize h.format h.shape h.rows h.cols + r * k) ((row.drop w).take k)⟩

/-- The rows of an incoming bale with their data rows, in index order; others are dropped, with their faults. -/
def State.scatterRows (s : State) (x : Droving) (j t rows : Nat) : List (Nat × Nat) × State :=
  (List.range rows).foldl (fun (a : List (Nat × Nat) × State) r =>
    let s := a.2
    let i := 128 * j + r
    let fault := fun (s : State) c => if t = 0 then s.droverFault x c else s
    if x.d.n ≤ i then a
    else
      let w := s.tensorWord x.d.part x.n.dIndex (x.n.dFirst + i)
      let s := if t = 0 then s.tookWord x.d.part x.n.dIndex (x.n.dFirst + i) else s
      match w with
      | none => (a.1, fault s 0x03)
      | some row =>
        if row = 0xFFFFFFFF then
          (a.1, if t = 0 then s.bump (DRV_PAD_ROWS_COUNT (x.k % 4)) (x.k / 4) else s)
        else if x.n.dRows ≤ row then (a.1, fault s 0x01)
        else (a.1 ++ [(r, row)], s)) ([], s)

/-- Some rows of a bale and its header are written, and no other byte of it; the bale counts as one that the step
writes (R461, R477). -/
def State.writeRows (s : State) (p : Nat) (pl : Place) (b : Bale) (dirty : Bool) (rows : List Nat) : State :=
  let s := ((0, 64) :: (rows.flatMap (rowParts b.hdr))).foldl (fun (s : State) q =>
    s.writeAt (p + 1) (placeAdd pl q.1) (sliceBytes b.bytes q.1 q.2)) s
  (s.updStep p fun st => { st with digest := (st.digest + digestOf b.bytes) % 2 ^ 64 }).markBale p pl b dirty

/-- The rows for one target bale are written into it, with the incoming STICKY and POISON. -/
def State.scatterInto (s : State) (x : Droving) (b : Bale) (dirty : Bool) (t group : Nat) (rows : List (Nat × Nat)) :
    Nat × State :=
  let p := x.d.part
  match s.rowPlace x (128 * group) t 64 with
  | none => (0, s.droverFault x 0x04)
  | some pl =>
    if s.stepDown p pl 64 then (0, s.stepReset p)
    else
      let r := s.rowsRead p pl (rows.map fun q => q.2 % 128)
      let h := r.bale.hdr
      let n := h.size
      let bad := !rowsReadable p h || h.format != b.hdr.format || h.shape != b.hdr.shape || h.cols != b.hdr.cols
      if bad then (0, (s.touch (p + 1) pl 64).droverFault x 0x02)
      else if (s.rowPlace x (128 * group) t n).isNone || s.hitsOstler (p + 1) pl n || s.hitsDayAt (p + 1) pl n then
        (0, s.droverFault x 0x04)
      else if r.down then (0, s.stepReset p)
      else
        let mine := rows.filter fun q => decide (q.2 % 128 < h.rows)
        let s := s.tookRows p r (rows.map fun q => q.2 % 128)
        let new := mine.foldl (fun (c : Bale) q => putRow c (q.2 % 128) (rowBytes b q.1)) r.bale
        let wet := r.bad || (r.bale.poison && !s.isSoft p r.key) || (b.poison && dirty)
        let new := { new with hdr := { new.hdr with
          flags := (r.bad || r.bale.poison || b.poison).toNat, sticky := h.sticky ||| b.hdr.sticky } }
        (mine.length, s.writeRows p pl new wet (mine.map fun q => q.2 % 128))

/-- ITER SIGNALs of the sending core that waited for this bale are sent (R163, R275). -/
def State.payOwed (s : State) (x : Droving) : State :=
  match s.nest x.e.2.srcCore with
  | none => s
  | some y =>
    let r := ((y.scatters.findIdx? fun e => e.1 == x.e.1)).getD 0
    let less := y.q.owed.map fun v => if v / 2 ^ (32 * r) % 2 ^ 32 = 0 then v else v - 2 ^ (32 * r)
    let s := (less.filter (· == 0)).foldl (fun (s : State) _ => s.signal y.p y.d.iterSem y.d.amount) s
    s.updSeq y.core fun q => { q with owed := less.filter (· != 0) }

/-- A drover takes the landed bale at the head of its ring and scatters its rows; its credits go back. -/
def droverScatter (s : State) (k : Nat) : State :=
  match s.droving k with
  | none => s
  | some x =>
    let p := x.d.part
    let c := s.chuteOf p x.d.plan x.e
    let ts := [x.n.dIndex, x.n.dData]
    match c.ring with
    | [] => s
    | it :: rest =>
      if !x.d.started || x.n.dMode != 2 then s
      else if ts.any (s.fetching p) then s.fetchWait p (256 + k) ts
      else
        let s := s.earlyEnd p (256 + k)
        let s := s.setChute p x.d.plan x.e { c with
          ring := rest, returns := if c.broken ∨ it.units = 0 then c.returns else c.returns ++ [it.units] }
        let b := it.bale
        let j := x.d.pos / x.n.dTiles
        let t := x.d.pos % x.n.dTiles
        let (moved, s) := if !rowsReadable p b.hdr then (0, s.droverFault x 0x02)
          else
            let (rows, s) := s.scatterRows x j t b.hdr.rows
            ((rows.map fun q => q.2 / 128).eraseDups).foldl (fun (a : Nat × State) g =>
              let (m, s) := a.2.scatterInto x b it.dirty t g (rows.filter fun q => q.2 / 128 == g)
              (a.1 + m, s)) (0, s)
        let (_, w) := storedExtents b.hdr.format b.hdr.shape 1 b.hdr.cols
        let per := 64 * ((w * bitsOfFormat b.hdr.format + 511) / 512 + (blockScaled b.hdr.format).toNat)
        let s := (s.droverCount x moved (moved * per)).updDrove k fun d => { d with pos := d.pos + 1 }
        (s.payOwed x).droverEnd k

def execDroverScatterBale (d : DroverId) (errs : List MemEvent) (s : State) : Out :=
  .next (if (s.droving d).isNone then s else s.meeting (s.droverFn d) errs fun s => droverScatter s d)

end Sys2Proof.Machine
end

