-- ==== Sys2Proof/Machine/Dispatch.lean ====
section
/-! DEFINITION. The dispatch: each command to its meaning. -/

namespace Sys2Proof.Machine

def exec (i : Instr) (s : State) : Host.Outcome State Fault Refusal :=
  match i with
  | .regLoWrite fn off val => Sys2Proof.Machine.execRegLoWrite fn off val s
  | .regHiWrite fn off val => Sys2Proof.Machine.execRegHiWrite fn off val s
  | .regLoRead fn off => Sys2Proof.Machine.execRegLoRead fn off s
  | .selectWrite fn off val => Sys2Proof.Machine.execSelectWrite fn off val s
  | .registerWrite fn sp off val devSet => Sys2Proof.Machine.execRegisterWrite fn sp off val devSet s
  | .vfForbiddenAccess fn off isWrite => Sys2Proof.Machine.execVfForbiddenAccess fn off isWrite s
  | .functionLevelReset fn => Sys2Proof.Machine.execFunctionLevelReset fn s
  | .sqEnable fn ring val => Sys2Proof.Machine.execSqEnable fn ring val s
  | .sqDisable fn ring val => Sys2Proof.Machine.execSqDisable fn ring val s
  | .cqEnable fn ring val => Sys2Proof.Machine.execCqEnable fn ring val s
  | .cqDisable fn ring val => Sys2Proof.Machine.execCqDisable fn ring val s
  | .tailDoorbell fn page ring tail stores => Sys2Proof.Machine.execTailDoorbell fn page ring tail stores s
  | .headDoorbell fn page ring head => Sys2Proof.Machine.execHeadDoorbell fn page ring head s
  | .doorbellBadWrite fn page pageOff size => Sys2Proof.Machine.execDoorbellBadWrite fn page pageOff size s
  | .descriptorFetch fn ring ok => Sys2Proof.Machine.execDescriptorFetch fn ring ok s
  | .nop fn ring idx => Sys2Proof.Machine.execNop fn ring idx s
  | .planLoad fn ring idx errs => Sys2Proof.Machine.execPlanLoad fn ring idx errs s
  | .planRun fn ring idx errs => Sys2Proof.Machine.execPlanRun fn ring idx errs s
  | .baleCopy fn ring idx errs => Sys2Proof.Machine.execBaleCopy fn ring idx errs s
  | .baleCopyRaw fn ring idx errs => Sys2Proof.Machine.execBaleCopyRaw fn ring idx errs s
  | .shedRead fn ring idx => Sys2Proof.Machine.execShedRead fn ring idx s
  | .shedWrite fn ring idx => Sys2Proof.Machine.execShedWrite fn ring idx s
  | .fenceRing fn ring idx => Sys2Proof.Machine.execFenceRing fn ring idx s
  | .fenceFunction fn ring idx => Sys2Proof.Machine.execFenceFunction fn ring idx s
  | .fenceRelease fn ring idx => Sys2Proof.Machine.execFenceRelease fn ring idx s
  | .cancel fn ring idx sameCc => Sys2Proof.Machine.execCancel fn ring idx sameCc s
  | .timeSetCounter fn ring idx => Sys2Proof.Machine.execTimeSetCounter fn ring idx s
  | .timeSetPeriod fn ring idx => Sys2Proof.Machine.execTimeSetPeriod fn ring idx s
  | .timeSetEmpty fn ring idx => Sys2Proof.Machine.execTimeSetEmpty fn ring idx s
  | .replayArm fn ring idx => Sys2Proof.Machine.execReplayArm fn ring idx s
  | .reservedOpcode fn ring idx => Sys2Proof.Machine.execReservedOpcode fn ring idx s
  | .kvOpen fn ring idx => Sys2Proof.Machine.execKvOpen fn ring idx s
  | .kvFlush fn ring idx => Sys2Proof.Machine.execKvFlush fn ring idx s
  | .kvCommit fn ring idx => Sys2Proof.Machine.execKvCommit fn ring idx s
  | .kvClose fn ring idx => Sys2Proof.Machine.execKvClose fn ring idx s
  | .kvFork fn ring idx => Sys2Proof.Machine.execKvFork fn ring idx s
  | .pedInsert fn ring idx => Sys2Proof.Machine.execPedInsert fn ring idx s
  | .pedMatch fn ring idx => Sys2Proof.Machine.execPedMatch fn ring idx s
  | .kvOpReserved fn ring idx => Sys2Proof.Machine.execKvOpReserved fn ring idx s
  | .completionRecordWrite fn ring ok => Sys2Proof.Machine.execCompletionRecordWrite fn ring ok s
  | .stepStart p => Sys2Proof.Machine.execStepStart p s
  | .stepComplete p => Sys2Proof.Machine.execStepComplete p s
  | .planBoundary p watts fails others => Sys2Proof.Machine.execPlanBoundary p watts fails others s
  | .migrationChunk p => Sys2Proof.Machine.execMigrationChunk p s
  | .nestStart core errs => Sys2Proof.Machine.execNestStart core errs s
  | .iterationIssue core hostFail errs => Sys2Proof.Machine.execIterationIssue core hostFail errs s
  | .stallRetry p => Sys2Proof.Machine.execStallRetry p s
  | .gnfFinal p => Sys2Proof.Machine.execGnfFinal p s
  | .nestPost core hostFail => Sys2Proof.Machine.execNestPost core hostFail s
  | .chuteBaleSend p plan edge => Sys2Proof.Machine.execChuteBaleSend p plan edge s
  | .chuteBaleLand p plan edge ce ue => Sys2Proof.Machine.execChuteBaleLand p plan edge ce ue s
  | .chuteCreditReturn p plan edge => Sys2Proof.Machine.execChuteCreditReturn p plan edge s
  | .halterArrive p k cc => Sys2Proof.Machine.execHalterArrive p k cc s
  | .halterSignal p k cc => Sys2Proof.Machine.execHalterSignal p k cc s
  | .halterWait p ks cc => Sys2Proof.Machine.execHalterWait p ks cc s
  | .halterRelease k cc => Sys2Proof.Machine.execHalterRelease k cc s
  | .watchdogFire c => Sys2Proof.Machine.execWatchdogFire c s
  | .yardBeat => Sys2Proof.Machine.execYardBeat s
  | .beatDelivery => Sys2Proof.Machine.execBeatDelivery s
  | .fetchComplete p slot fails past => Sys2Proof.Machine.execFetchComplete p slot fails past s
  | .fetchDeadlineMiss p slot => Sys2Proof.Machine.execFetchDeadlineMiss p slot s
  | .pathLimitAdmit die => Sys2Proof.Machine.execPathLimitAdmit die s
  | .loftAccess p line reqs errs => Sys2Proof.Machine.execLoftAccess p line reqs errs s
  | .loftFill k ce ue retries crcFail => Sys2Proof.Machine.execLoftFill k ce ue retries crcFail s
  | .loftWayFail c way readable => Sys2Proof.Machine.execLoftWayFail c way readable s
  | .droverStreamStart d fails errs => Sys2Proof.Machine.execDroverStreamStart d fails errs s
  | .droverBaleDeliver d errs => Sys2Proof.Machine.execDroverBaleDeliver d errs s
  | .droverScatterBale d errs => Sys2Proof.Machine.execDroverScatterBale d errs s
  | .prefetchIssue core => Sys2Proof.Machine.execPrefetchIssue core s
  | .demandFetch p plan expert beats => Sys2Proof.Machine.execDemandFetch p plan expert beats s
  | .gddrRefresh chan => Sys2Proof.Machine.execGddrRefresh chan s
  | .gddrPatrolScrub chan own sec err => Sys2Proof.Machine.execGddrPatrolScrub chan own sec err s
  | .gddrTempPoll chan front back badMr => Sys2Proof.Machine.execGddrTempPoll chan front back badMr s
  | .rowRemapSwitch chan entry bad => Sys2Proof.Machine.execRowRemapSwitch chan entry bad s
  | .marginStart val => Sys2Proof.Machine.execMarginStart val s
  | .marginSweepDone chan low high => Sys2Proof.Machine.execMarginSweepDone chan low high s
  | .shedPageReadDone fn ring idx page chan retries ok past => Sys2Proof.Machine.execShedPageReadDone fn ring idx page chan retries ok past s
  | .shedPageWriteDone fn ring idx page chan upto fails past errs => Sys2Proof.Machine.execShedPageWriteDone fn ring idx page chan upto fails past errs s
  | .shedRelocate chan fails low => Sys2Proof.Machine.execShedRelocate chan fails low s
  | .flashBusyTimeout chan pages fetches => Sys2Proof.Machine.execFlashBusyTimeout chan pages fetches s
  | .linkTrainDone link bad rank dom far delay => Sys2Proof.Machine.execLinkTrainDone link bad rank dom far delay s
  | .linkTrainTimeout link => Sys2Proof.Machine.execLinkTrainTimeout link s
  | .linkDown link reset lost => Sys2Proof.Machine.execLinkDown link reset lost s
  | .linkReset val => Sys2Proof.Machine.execLinkReset val s
  | .linkEnableWrite val => Sys2Proof.Machine.execLinkEnableWrite val s
  | .laneFail link lane => Sys2Proof.Machine.execLaneFail link lane s
  | .linkPacketSend link src origin dest part xfer seq epoch vc flits => Sys2Proof.Machine.execLinkPacketSend link src origin dest part xfer seq epoch vc flits s
  | .linkPacketReceive link origin dest part xfer seq epoch vc flits crcOk badHdr corr uncorr => Sys2Proof.Machine.execLinkPacketReceive link origin dest part xfer seq epoch vc flits crcOk badHdr corr uncorr s
  | .linkAckReceive link seq => Sys2Proof.Machine.execLinkAckReceive link seq s
  | .linkNakReceive link seq => Sys2Proof.Machine.execLinkNakReceive link seq s
  | .linkCreditReturn link vc n => Sys2Proof.Machine.execLinkCreditReturn link vc n s
  | .dropNoticeReceive p slot => Sys2Proof.Machine.execDropNoticeReceive p slot s
  | .linkDelayMeasure link delay => Sys2Proof.Machine.execLinkDelayMeasure link delay s
  | .transferSend p slot errs => Sys2Proof.Machine.execTransferSend p slot errs s
  | .transferLand p slot inc => Sys2Proof.Machine.execTransferLand p slot inc s
  | .timeFrameReceive link count period epoch synced crcOk phase lost => Sys2Proof.Machine.execTimeFrameReceive link count period epoch synced crcOk phase lost s
  | .markerFrameReceive count period epoch synced crcOk phase lost => Sys2Proof.Machine.execMarkerFrameReceive count period epoch synced crcOk phase lost s
  | .ptpMessageReceive port ns frac sync broken lost => Sys2Proof.Machine.execPtpMessageReceive port ns frac sync broken lost s
  | .referenceLost => Sys2Proof.Machine.execReferenceLost s
  | .referenceRateCheck rate => Sys2Proof.Machine.execReferenceRateCheck rate s
  | .referenceReturn => Sys2Proof.Machine.execReferenceReturn s
  | .referenceQualified phase rate expired => Sys2Proof.Machine.execReferenceQualified phase rate expired s
  | .holdoverExpiry => Sys2Proof.Machine.execHoldoverExpiry s
  | .ytmCtrlWrite val => Sys2Proof.Machine.execYtmCtrlWrite val s
  | .ethFrameReceive port len fcsOk broken => Sys2Proof.Machine.execEthFrameReceive port len fcsOk broken s
  | .roceRequest port qp kind psn => Sys2Proof.Machine.execRoceRequest port qp kind psn s
  | .contributionSend p coll errs => Sys2Proof.Machine.execContributionSend p coll errs s
  | .childSumReceive p plan step coll shard pos hdr data past => Sys2Proof.Machine.execChildSumReceive p plan step coll shard pos hdr data past s
  | .parentClose p coll shard => Sys2Proof.Machine.execParentClose p coll shard s
  | .collectiveResultReceive p coll shard hdr data => Sys2Proof.Machine.execCollectiveResultReceive p coll shard hdr data s
  | .a2aRowsReceive p coll msg past => Sys2Proof.Machine.execA2aRowsReceive p coll msg past s
  | .whistleMessageReceive p coll sender phase withdrawn data => Sys2Proof.Machine.execWhistleMessageReceive p coll sender phase withdrawn data s
  | .musCancel fn val sameCc => Sys2Proof.Machine.execMusCancel fn val sameCc s
  | .resetMarkReceive p coll => Sys2Proof.Machine.execResetMarkReceive p coll s
  | .ostEnable fn val => Sys2Proof.Machine.execOstEnable fn val s
  | .ostDisable fn val => Sys2Proof.Machine.execOstDisable fn val s
  | .poolFramesWrite fn host val => Sys2Proof.Machine.execPoolFramesWrite fn host val s
  | .ostPartFramesWrite p val => Sys2Proof.Machine.execOstPartFramesWrite p val s
  | .pedPartNodesWrite p val => Sys2Proof.Machine.execPedPartNodesWrite p val s
  | .pedKeyWrite p w val => Sys2Proof.Machine.execPedKeyWrite p w val s
  | .prtEnable p val => Sys2Proof.Machine.execPrtEnable p val s
  | .prtRelease p val => Sys2Proof.Machine.execPrtRelease p val s
  | .releaseScrub p => Sys2Proof.Machine.execReleaseScrub p s
  | .releaseDone p ms => Sys2Proof.Machine.execReleaseDone p ms s
  | .prtWhistleWrite p val => Sys2Proof.Machine.execPrtWhistleWrite p val s
  | .prtConfigWrite off val => Sys2Proof.Machine.execPrtConfigWrite off val s
  | .isolateWrite val => Sys2Proof.Machine.execIsolateWrite val s
  | .windowMapWrite off val => Sys2Proof.Machine.execWindowMapWrite off val s
  | .clkCtrlWrite val => Sys2Proof.Machine.execClkCtrlWrite val s
  | .clkSscWrite val => Sys2Proof.Machine.execClkSscWrite val s
  | .clkBoundsWrite off val => Sys2Proof.Machine.execClkBoundsWrite off val s
  | .clockRefFault xb => Sys2Proof.Machine.execClockRefFault xb s
  | .loopLockLoss b => Sys2Proof.Machine.execLoopLockLoss b s
  | .clockGate unit => Sys2Proof.Machine.execClockGate unit s
  | .thermalSample temps => Sys2Proof.Machine.execThermalSample temps s
  | .emergencyThrottle die => Sys2Proof.Machine.execEmergencyThrottle die s
  | .emergencyEnd die => Sys2Proof.Machine.execEmergencyEnd die s
  | .vinSample v => Sys2Proof.Machine.execVinSample v s
  | .vinHoldupEnd => Sys2Proof.Machine.execVinHoldupEnd s
  | .vinRecovery => Sys2Proof.Machine.execVinRecovery s
  | .bellDecision fn => Sys2Proof.Machine.execBellDecision fn s
  | .bellCommit fn => Sys2Proof.Machine.execBellCommit fn s
  | .belComplete fn val => Sys2Proof.Machine.execBelComplete fn val s
  | .belPendingWrite fn val raised => Sys2Proof.Machine.execBelPendingWrite fn val raised s
  | .bellDoorbellRaise fn page val => Sys2Proof.Machine.execBellDoorbellRaise fn page val s
  | .bellDoorbellComplete fn page val => Sys2Proof.Machine.execBellDoorbellComplete fn page val s
  | .latchRaise => Sys2Proof.Machine.execLatchRaise s
  | .powerOn => Sys2Proof.Machine.execPowerOn s
  | .perstAssert => Sys2Proof.Machine.execPerstAssert s
  | .moduleReset val => Sys2Proof.Machine.execModuleReset val s
  | .nynikWatchdog => Sys2Proof.Machine.execNynikWatchdog s
  | .startup unread xa xb fails translates chans sheds => Sys2Proof.Machine.execStartup unread xa xb fails translates chans sheds s
  | .confirm val => Sys2Proof.Machine.execConfirm val s
  | .fwInstallStart val sigOk prod => Sys2Proof.Machine.execFwInstallStart val sigOk prod s
  | .fwInstallComplete ok => Sys2Proof.Machine.execFwInstallComplete ok s
  | .bootSave val bad => Sys2Proof.Machine.execBootSave val bad s
  | .settingsCompaction => Sys2Proof.Machine.execSettingsCompaction s
  | .unitResetGo val far pages fetches lands => Sys2Proof.Machine.execUnitResetGo val far pages fetches lands s
  | .unitResetExit kind index ok retained => Sys2Proof.Machine.execUnitResetExit kind index ok retained s
  | .farrierHourly => Sys2Proof.Machine.execFarrierHourly s
  | .farApply val => Sys2Proof.Machine.execFarApply val s
  | .partFailure kind n ps => Sys2Proof.Machine.execPartFailure kind n ps s
  | .internalFault code fn ring idx core ps => Sys2Proof.Machine.execInternalFault code fn ring idx core ps s
  | .dayEnable fn val => Sys2Proof.Machine.execDayEnable fn val s
  | .vcdEnable fn val => Sys2Proof.Machine.execVcdEnable fn val s
  | .vcdStop fn val => Sys2Proof.Machine.execVcdStop fn val s
  | .videoTailPoll x stores => Sys2Proof.Machine.execVideoTailPoll x stores s
  | .videoAu x frames resyncs errs => Sys2Proof.Machine.execVideoAu x frames resyncs errs s
  | .videoRelease x => Sys2Proof.Machine.execVideoRelease x s
  | .videoFlush x frames => Sys2Proof.Machine.execVideoFlush x frames s
  | .videoFrame x => Sys2Proof.Machine.execVideoFrame x s
  | .videoFrameDone pipe planes ref unref => Sys2Proof.Machine.execVideoFrameDone pipe planes ref unref s
  | .videoTokensWrite x w h rgb => Sys2Proof.Machine.execVideoTokensWrite x w h rgb s
  | .videoSliceDone x bytes last => Sys2Proof.Machine.execVideoSliceDone x bytes last s
  | .videoRecordWrite x => Sys2Proof.Machine.execVideoRecordWrite x s
  | .smbStatus write extra change => Sys2Proof.Machine.execSmbStatus write extra change s
  | .smbTempMax write extra => Sys2Proof.Machine.execSmbTempMax write extra s
  | .smbPower write extra watts => Sys2Proof.Machine.execSmbPower write extra watts s
  | .smbVin write extra => Sys2Proof.Machine.execSmbVin write extra s
  | .smbCoolant write extra inlet outlet => Sys2Proof.Machine.execSmbCoolant write extra inlet outlet s
  | .smbBoardCapRead extra => Sys2Proof.Machine.execSmbBoardCapRead extra s
  | .smbBoardCapWrite v pec cut hang => Sys2Proof.Machine.execSmbBoardCapWrite v pec cut hang s
  | .smbIdentity k write extra => Sys2Proof.Machine.execSmbIdentity k write extra s
  | .smbReservedCommand cmd => Sys2Proof.Machine.execSmbReservedCommand cmd s
  | .sclTimeout cmd => Sys2Proof.Machine.execSclTimeout cmd s
  | .controllerNackRetry ack => Sys2Proof.Machine.execControllerNackRetry ack s
  | .busRecovery fails => Sys2Proof.Machine.execBusRecovery fails s
  | .busRetry val fails => Sys2Proof.Machine.execBusRetry val fails s
  | .jtagIdcode => Sys2Proof.Machine.execJtagIdcode s
  | .jtagSamplePreload cells => Sys2Proof.Machine.execJtagSamplePreload cells s
  | .jtagExtest => Sys2Proof.Machine.execJtagExtest s
  | .jtagClamp => Sys2Proof.Machine.execJtagClamp s
  | .jtagHighz => Sys2Proof.Machine.execJtagHighz s
  | .jtagBypass code => Sys2Proof.Machine.execJtagBypass code s
  | .clockRefReady xb => Sys2Proof.Machine.execClockRefReady xb s
  | .ethPortLinkChange port up rate => Sys2Proof.Machine.execEthPortLinkChange port up rate s

end Sys2Proof.Machine
end

