-- ==== Sys2Proof/Safety.lean ====
section
/-! DEFINITION. What counts as a sound state and a safe run: the register file and every byte memory in
canonical form, and no command stopped; and which commands may change which part of the module, command by
command, for the frame statements: a command that is not in a list leaves that part as it was. -/

namespace Sys2Proof.Machine

/-- The GDDR list is in canonical form: rising keys, and no byte of the owner region (keys below 2^48)
listed at the 0 that an unlisted one reads as. -/
abbrev gddrWf (m : List Host.Cell) : Prop := tabWf m ∧ ∀ e ∈ m, e.1 < 2 ^ 48 → e.2 ≠ 0

/-- The register file and the byte memories are in canonical form, so that equal memories are equal
data. -/
abbrev State.memWf (s : State) : Prop :=
  tabWf s.regs ∧ tabCanon 0 s.host.mem ∧ gddrWf s.mem.gddr ∧ tabCanon 0 s.mem.scratch ∧
    tabCanon 0 s.shed.bytes

/-- A step that does not stop. -/
def State.goesOn (s : State) : Prop := ∃ t, step s = .next t

/-- A command that meets errors in memory (R270, R290, R519) acts as it does without them on the state after them;
what they made unreadable for this command alone is readable again after it. -/
def MeetsFirst (cmd : List MemEvent → Instr) (fn : Nat) (errs : List MemEvent) (s : State) : Prop :=
  ∃ u, exec (cmd []) (s.meets fn errs) = .next u ∧
    exec (cmd errs) s = .next { u with loft := { u.loft with hurt := [] } }

end Sys2Proof.Machine

namespace Sys2Proof

/-- Commands that reset the module or run its start-up, may cut its power (R413, R415, R420, R448), or write
any register (REGISTER_WRITE). -/
def Instr.resetsModule : Instr → Bool
  | .registerWrite .. | .thermalSample .. | .vinHoldupEnd .. | .vinRecovery .. | .powerOn .. |
    .perstAssert .. | .moduleReset .. | .nynikWatchdog .. | .startup .. | .confirm .. => true
  | _ => false

/-- Commands that may store to host memory: copies, mangers and pages of the host part of a pool, records,
what a plan writes to tensors there, the video rings and buffers. -/
def Instr.storesHost : Instr → Bool
  | .tailDoorbell .. | .baleCopy .. | .baleCopyRaw .. | .kvOpen .. | .kvFlush .. | .kvCommit .. |
    .kvFork .. | .pedInsert .. | .pedMatch .. | .completionRecordWrite .. | .stepStart .. |
    .planBoundary .. | .iterationIssue .. | .stallRetry .. | .nestPost .. | .yardBeat .. |
    .fetchComplete .. | .droverStreamStart .. | .droverScatterBale .. | .shedPageReadDone .. |
    .linkDown .. | .linkReset .. | .linkEnableWrite .. | .laneFail .. | .linkPacketReceive .. |
    .linkNakReceive .. | .transferLand .. | .contributionSend .. | .childSumReceive .. | .parentClose .. |
    .collectiveResultReceive .. | .a2aRowsReceive .. | .whistleMessageReceive .. | .musCancel .. |
    .resetMarkReceive .. | .poolFramesWrite .. | .pedKeyWrite .. | .clkCtrlWrite .. | .loopLockLoss .. |
    .unitResetGo .. | .unitResetExit .. | .partFailure .. | .internalFault .. | .vcdEnable .. |
    .vcdStop .. | .videoTailPoll .. | .videoAu .. | .videoRelease .. | .videoFlush .. | .videoFrame .. |
    .videoFrameDone .. | .videoTokensWrite .. | .videoSliceDone .. | .videoRecordWrite .. => true
  | _ => false

/-- Commands that may store to GDDR, or mark bytes of it poisoned: data of plans, pools and copies, day-book
records, sectors that a failed unit loses. -/
def Instr.storesGddr : Instr → Bool
  | .functionLevelReset .. | .planLoad .. | .planRun .. | .baleCopy .. | .baleCopyRaw .. | .kvOpen .. |
    .kvFlush .. | .kvCommit .. | .kvClose .. | .kvFork .. | .pedInsert .. | .pedMatch .. | .stepStart .. |
    .stepComplete .. | .planBoundary .. | .migrationChunk .. | .nestStart .. | .iterationIssue .. |
    .stallRetry .. | .nestPost .. | .yardBeat .. | .fetchComplete .. | .fetchDeadlineMiss .. |
    .loftAccess .. | .loftFill .. | .loftWayFail .. | .droverStreamStart .. | .droverBaleDeliver .. |
    .droverScatterBale .. | .demandFetch .. | .gddrPatrolScrub .. | .gddrTempPoll .. |
    .rowRemapSwitch .. | .shedPageReadDone .. | .shedPageWriteDone .. | .shedRelocate .. |
    .flashBusyTimeout .. | .linkTrainDone .. | .linkTrainTimeout .. | .linkDown .. | .linkReset .. |
    .linkEnableWrite .. | .laneFail .. | .linkPacketReceive .. | .linkNakReceive .. | .transferSend .. |
    .transferLand .. | .contributionSend .. | .childSumReceive .. | .parentClose .. |
    .collectiveResultReceive .. | .a2aRowsReceive .. | .whistleMessageReceive .. | .musCancel .. |
    .resetMarkReceive .. | .poolFramesWrite .. | .pedKeyWrite .. | .prtEnable .. | .prtRelease .. |
    .releaseScrub .. | .prtWhistleWrite .. | .prtConfigWrite .. | .clkCtrlWrite .. | .loopLockLoss .. |
    .unitResetGo .. | .unitResetExit .. | .farrierHourly .. | .farApply .. | .partFailure .. |
    .internalFault .. | .vcdEnable .. | .vcdStop .. | .videoAu .. | .videoRelease .. | .videoFlush .. |
    .videoFrame .. | .videoFrameDone .. | .videoTokensWrite .. | .videoSliceDone .. |
    .videoRecordWrite .. => true
  | _ => false

/-- Commands that may store to a scratch. -/
def Instr.storesScratch : Instr → Bool
  | .planLoad .. | .planRun .. | .baleCopy .. | .baleCopyRaw .. | .kvOpen .. | .kvFlush .. |
    .kvCommit .. | .kvFork .. | .pedInsert .. | .pedMatch .. | .stepStart .. | .planBoundary .. |
    .nestStart .. | .iterationIssue .. | .stallRetry .. | .nestPost .. | .yardBeat .. |
    .fetchComplete .. | .loftAccess .. | .droverStreamStart .. | .droverBaleDeliver .. |
    .droverScatterBale .. | .shedPageReadDone .. | .shedPageWriteDone .. | .linkDown .. | .linkReset .. |
    .linkEnableWrite .. | .laneFail .. | .linkPacketReceive .. | .linkNakReceive .. | .transferSend .. |
    .transferLand .. | .contributionSend .. | .childSumReceive .. | .parentClose .. |
    .collectiveResultReceive .. | .a2aRowsReceive .. | .whistleMessageReceive .. | .musCancel .. |
    .resetMarkReceive .. | .poolFramesWrite .. | .pedKeyWrite .. | .releaseScrub .. | .clkCtrlWrite .. |
    .loopLockLoss .. | .unitResetGo .. | .unitResetExit .. | .farApply .. | .partFailure .. |
    .internalFault .. | .vcdEnable .. | .vcdStop .. | .videoAu .. | .videoRelease .. | .videoFlush .. |
    .videoFrame .. | .videoFrameDone .. | .videoTokensWrite .. | .videoSliceDone .. |
    .videoRecordWrite .. => true
  | _ => false

/-- Commands that change what the pages of the shed read as (R301, R302, R403). -/
def Instr.storesShed : Instr → Bool
  | .shedPageWriteDone .. | .flashBusyTimeout .. | .releaseScrub .. | .unitResetGo .. => true
  | _ => false

/-- Commands that move descriptors, records or doorbell marks: the rings, what every descriptor does as it
starts and ends, and resets of functions and units. -/
def Instr.movesDescriptors : Instr → Bool
  | .functionLevelReset .. | .sqEnable .. | .sqDisable .. | .tailDoorbell .. | .descriptorFetch .. |
    .nop .. | .planLoad .. | .planRun .. | .baleCopy .. | .baleCopyRaw .. | .shedRead .. | .shedWrite .. |
    .fenceRing .. | .fenceFunction .. | .fenceRelease .. | .cancel .. | .timeSetCounter .. |
    .timeSetPeriod .. | .timeSetEmpty .. | .replayArm .. | .reservedOpcode .. | .kvOpen .. | .kvFlush .. |
    .kvCommit .. | .kvClose .. | .kvFork .. | .pedInsert .. | .pedMatch .. | .kvOpReserved .. |
    .completionRecordWrite .. | .stepStart .. | .stepComplete .. | .shedPageReadDone .. |
    .shedPageWriteDone .. | .flashBusyTimeout .. | .prtEnable .. | .prtRelease .. | .prtWhistleWrite .. |
    .unitResetGo .. | .internalFault .. => true
  | _ => false

/-- Commands that put an MSI-X message on PCIe (R435). -/
def Instr.sendsMsix : Instr → Bool
  | .bellCommit .. => true
  | _ => false

/-- Commands that change plans, steps, experts, replays or deferrals. -/
def Instr.changesPlans : Instr → Bool
  | .functionLevelReset .. | .planLoad .. | .planRun .. | .baleCopy .. | .baleCopyRaw .. | .cancel .. |
    .replayArm .. | .stepStart .. | .stepComplete .. | .planBoundary .. | .migrationChunk .. |
    .nestStart .. | .iterationIssue .. | .gnfFinal .. | .nestPost .. | .chuteBaleLand .. |
    .halterArrive .. | .halterSignal .. | .halterWait .. | .halterRelease .. | .watchdogFire .. |
    .yardBeat .. | .beatDelivery .. | .fetchComplete .. | .fetchDeadlineMiss .. | .loftAccess .. |
    .loftFill .. | .loftWayFail .. | .droverStreamStart .. | .droverBaleDeliver .. |
    .droverScatterBale .. | .prefetchIssue .. | .demandFetch .. | .gddrPatrolScrub .. | .gddrTempPoll .. |
    .shedPageWriteDone .. | .flashBusyTimeout .. | .linkDown .. | .linkReset .. | .linkEnableWrite .. |
    .laneFail .. | .linkPacketSend .. | .linkPacketReceive .. | .linkNakReceive .. |
    .dropNoticeReceive .. | .transferSend .. | .transferLand .. | .contributionSend .. |
    .childSumReceive .. | .parentClose .. | .collectiveResultReceive .. | .a2aRowsReceive .. |
    .whistleMessageReceive .. | .musCancel .. | .resetMarkReceive .. | .prtEnable .. | .prtRelease .. |
    .prtWhistleWrite .. | .clkCtrlWrite .. | .loopLockLoss .. | .unitResetGo .. | .partFailure .. |
    .internalFault .. | .videoAu .. => true
  | _ => false

/-- Commands that change streams, pages, references or the pedigree. -/
def Instr.changesKv : Instr → Bool
  | .functionLevelReset .. | .kvOpen .. | .kvFlush .. | .kvCommit .. | .kvClose .. | .kvFork .. |
    .pedInsert .. | .pedMatch .. | .iterationIssue .. | .stallRetry .. | .ostEnable .. | .ostDisable .. |
    .poolFramesWrite .. | .pedKeyWrite .. | .prtEnable .. | .prtRelease .. | .releaseScrub .. |
    .prtWhistleWrite .. | .unitResetExit .. => true
  | _ => false

/-- Commands that move bales or credits of chutes, or empty them. -/
def Instr.movesBales : Instr → Bool
  | .functionLevelReset .. | .planLoad .. | .stepStart .. | .stepComplete .. | .iterationIssue .. |
    .nestPost .. | .chuteBaleSend .. | .chuteBaleLand .. | .chuteCreditReturn .. | .watchdogFire .. |
    .droverBaleDeliver .. | .droverScatterBale .. | .prtEnable .. | .prtRelease .. | .prtWhistleWrite .. |
    .unitResetGo .. | .partFailure .. | .internalFault .. => true
  | _ => false

/-- Commands that send, deliver or drop messages of the Halter, or its beat. -/
def Instr.usesHalter : Instr → Bool
  | .stepStart .. | .stepComplete .. | .planBoundary .. | .nestStart .. | .iterationIssue .. |
    .nestPost .. | .halterArrive .. | .halterSignal .. | .halterWait .. | .halterRelease .. |
    .watchdogFire .. | .yardBeat .. | .beatDelivery .. | .droverStreamStart .. | .droverScatterBale .. |
    .linkDown .. | .linkReset .. | .linkEnableWrite .. | .laneFail .. | .linkPacketReceive .. |
    .linkNakReceive .. | .transferLand .. | .contributionSend .. | .childSumReceive .. | .parentClose .. |
    .collectiveResultReceive .. | .a2aRowsReceive .. | .whistleMessageReceive .. | .musCancel .. |
    .resetMarkReceive .. | .clkCtrlWrite .. | .loopLockLoss .. | .unitResetGo .. | .partFailure .. |
    .internalFault .. => true
  | _ => false

/-- Commands that move a sequencer. -/
def Instr.movesSequencers : Instr → Bool
  | .stepStart .. | .stepComplete .. | .nestStart .. | .iterationIssue .. | .nestPost .. |
    .halterWait .. | .halterRelease .. | .beatDelivery .. | .droverScatterBale .. | .unitResetGo .. |
    .partFailure .. => true
  | _ => false

/-- Commands that move a drover stream. -/
def Instr.changesDrovers : Instr → Bool
  | .stepStart .. | .stepComplete .. | .halterRelease .. | .droverStreamStart .. | .droverBaleDeliver .. |
    .droverScatterBale .. | .unitResetGo .. | .partFailure .. => true
  | _ => false

/-- Commands that change the shed or its operations in progress. -/
def Instr.changesShed : Instr → Bool
  | .shedRead .. | .shedWrite .. | .shedPageReadDone .. | .shedPageWriteDone .. | .flashBusyTimeout .. |
    .releaseScrub .. | .unitResetGo .. | .internalFault .. => true
  | _ => false

/-- Commands that change a GDDR controller: remaps, refresh, throttle, sweeps. -/
def Instr.changesGddrs : Instr → Bool
  | .planLoad .. | .planRun .. | .baleCopy .. | .baleCopyRaw .. | .planBoundary .. | .nestStart .. |
    .iterationIssue .. | .loftAccess .. | .loftFill .. | .droverStreamStart .. | .droverBaleDeliver .. |
    .droverScatterBale .. | .gddrPatrolScrub .. | .gddrTempPoll .. | .rowRemapSwitch .. |
    .marginStart .. | .marginSweepDone .. | .shedPageWriteDone .. | .shedRelocate .. |
    .flashBusyTimeout .. | .transferSend .. | .contributionSend .. | .prtEnable .. | .prtRelease .. |
    .prtWhistleWrite .. | .prtConfigWrite .. | .clkCtrlWrite .. | .loopLockLoss .. | .unitResetGo .. |
    .unitResetExit .. | .farApply .. | .partFailure .. | .internalFault .. | .videoAu .. => true
  | _ => false

/-- Commands that change a Holgor link. -/
def Instr.changesLinks : Instr → Bool
  | .planBoundary .. | .linkTrainDone .. | .linkTrainTimeout .. | .linkDown .. | .linkReset .. |
    .linkEnableWrite .. | .laneFail .. | .linkPacketSend .. | .linkPacketReceive .. | .linkAckReceive .. |
    .linkNakReceive .. | .linkCreditReturn .. | .linkDelayMeasure .. | .clkCtrlWrite .. |
    .loopLockLoss .. | .unitResetGo .. | .farApply .. | .partFailure .. | .internalFault .. => true
  | _ => false

/-- Commands that change the state of Yard Time. -/
def Instr.changesYardTime : Instr → Bool
  | .timeSetCounter .. | .timeSetPeriod .. | .timeSetEmpty .. | .planBoundary .. | .yardBeat .. |
    .timeFrameReceive .. | .markerFrameReceive .. | .ptpMessageReceive .. | .referenceLost .. |
    .referenceRateCheck .. | .referenceReturn .. | .referenceQualified .. | .holdoverExpiry .. |
    .ytmCtrlWrite .. | .clkCtrlWrite .. | .clockRefFault .. | .loopLockLoss .. | .partFailure .. |
    .internalFault .. => true
  | _ => false

/-- Commands that change the queue pairs of an Ethernet port. -/
def Instr.changesEthernet : Instr → Bool
  | .roceRequest .. => true
  | _ => false

/-- Commands that change messages or cancellations of the Muster. -/
def Instr.changesMuster : Instr → Bool
  | .functionLevelReset .. | .stepStart .. | .planBoundary .. | .yardBeat .. | .linkDown .. |
    .linkReset .. | .linkEnableWrite .. | .laneFail .. | .linkPacketReceive .. | .linkNakReceive .. |
    .contributionSend .. | .childSumReceive .. | .parentClose .. | .collectiveResultReceive .. |
    .whistleMessageReceive .. | .musCancel .. | .resetMarkReceive .. | .prtEnable .. | .prtRelease .. |
    .prtWhistleWrite .. | .clkCtrlWrite .. | .loopLockLoss .. | .unitResetGo .. | .partFailure .. |
    .internalFault .. => true
  | _ => false

/-- Commands that change keys, releases or held window maps. -/
def Instr.changesPartitions : Instr → Bool
  | .planBoundary .. | .prtEnable .. | .prtRelease .. | .releaseScrub .. | .releaseDone .. |
    .prtWhistleWrite .. | .windowMapWrite .. => true
  | _ => false

/-- Commands that change clocks, heat or power. -/
def Instr.changesClocks : Instr → Bool
  | .planBoundary .. | .clkCtrlWrite .. | .clkSscWrite .. | .clockRefFault .. | .loopLockLoss .. |
    .clockGate .. | .emergencyThrottle .. | .emergencyEnd .. | .vinSample .. | .partFailure .. |
    .internalFault .. => true
  | _ => false

/-- Commands that change the boot flash or the reset sequence. -/
def Instr.changesFlash : Instr → Bool
  | .fwInstallStart .. | .fwInstallComplete .. | .bootSave .. | .settingsCompaction .. => true
  | _ => false

/-- Commands that change the Farrier's scores, events or spares. -/
def Instr.changesFarrier : Instr → Bool
  | .planLoad .. | .planRun .. | .baleCopy .. | .baleCopyRaw .. | .planBoundary .. | .nestStart .. |
    .iterationIssue .. | .loftAccess .. | .loftFill .. | .loftWayFail .. | .droverStreamStart .. |
    .droverBaleDeliver .. | .droverScatterBale .. | .gddrPatrolScrub .. | .shedPageWriteDone .. |
    .shedRelocate .. | .linkTrainDone .. | .linkTrainTimeout .. | .laneFail .. | .linkPacketReceive .. |
    .transferSend .. | .contributionSend .. | .loopLockLoss .. | .unitResetGo .. | .unitResetExit .. |
    .farrierHourly .. | .farApply .. | .partFailure .. | .internalFault .. | .videoAu .. => true
  | _ => false

/-- Commands that change a video context. -/
def Instr.changesVideo : Instr → Bool
  | .functionLevelReset .. | .prtEnable .. | .prtRelease .. | .prtWhistleWrite .. | .vcdEnable .. |
    .vcdStop .. | .videoTailPoll .. | .videoAu .. | .videoRelease .. | .videoFlush .. | .videoFrame .. |
    .videoFrameDone .. | .videoTokensWrite .. | .videoSliceDone .. | .videoRecordWrite .. => true
  | _ => false

/-- Commands that change the management buses or JTAG. -/
def Instr.changesBoard : Instr → Bool
  | .planLoad .. | .planRun .. | .baleCopy .. | .baleCopyRaw .. | .planBoundary .. | .nestStart .. |
    .iterationIssue .. | .loftAccess .. | .loftFill .. | .loftWayFail .. | .droverStreamStart .. |
    .droverBaleDeliver .. | .droverScatterBale .. | .gddrPatrolScrub .. | .shedPageWriteDone .. |
    .shedRelocate .. | .linkTrainDone .. | .laneFail .. | .transferSend .. | .contributionSend .. |
    .emergencyEnd .. | .vinSample .. | .unitResetExit .. | .farrierHourly .. | .farApply .. |
    .partFailure .. | .internalFault .. | .videoAu .. | .smbStatus .. | .smbBoardCapWrite .. |
    .sclTimeout .. | .controllerNackRetry .. | .busRecovery .. | .busRetry .. | .jtagIdcode .. |
    .jtagSamplePreload .. | .jtagExtest .. | .jtagClamp .. | .jtagHighz .. | .jtagBypass .. => true
  | _ => false

/-- Commands that reach a Loft: every access of a unit to GDDR of a partition, and what drops or fills lines. -/
def Instr.touchesLoft : Instr → Bool
  | .functionLevelReset .. | .planLoad .. | .planRun .. | .baleCopy .. | .baleCopyRaw .. | .kvOpen .. |
    .kvFlush .. | .kvCommit .. | .kvClose .. | .kvFork .. | .pedInsert .. | .pedMatch .. | .stepStart .. |
    .stepComplete .. | .planBoundary .. | .migrationChunk .. | .nestStart .. | .iterationIssue .. |
    .stallRetry .. | .nestPost .. | .halterRelease .. | .yardBeat .. | .beatDelivery .. |
    .fetchComplete .. | .fetchDeadlineMiss .. | .pathLimitAdmit .. | .loftAccess .. | .loftFill .. |
    .loftWayFail .. | .droverStreamStart .. | .droverBaleDeliver .. | .droverScatterBale .. |
    .prefetchIssue .. | .demandFetch .. | .gddrPatrolScrub .. | .gddrTempPoll .. | .shedPageReadDone .. |
    .shedPageWriteDone .. | .shedRelocate .. | .flashBusyTimeout .. | .linkTrainDone .. |
    .linkTrainTimeout .. | .linkDown .. | .linkReset .. | .linkEnableWrite .. | .laneFail .. |
    .linkPacketReceive .. | .linkNakReceive .. | .transferSend .. | .transferLand .. |
    .contributionSend .. | .childSumReceive .. | .parentClose .. | .collectiveResultReceive .. |
    .a2aRowsReceive .. | .whistleMessageReceive .. | .musCancel .. | .resetMarkReceive .. |
    .poolFramesWrite .. | .pedKeyWrite .. | .prtEnable .. | .prtRelease .. | .releaseScrub .. |
    .prtWhistleWrite .. | .clkCtrlWrite .. | .loopLockLoss .. | .unitResetGo .. | .unitResetExit .. |
    .farrierHourly .. | .farApply .. | .partFailure .. | .internalFault .. | .vcdEnable .. | .vcdStop .. |
    .videoTailPoll .. | .videoAu .. | .videoRelease .. | .videoFlush .. | .videoFrame .. |
    .videoFrameDone .. | .videoTokensWrite .. | .videoSliceDone .. | .videoRecordWrite .. => true
  | _ => false

/-- Commands that draw a random number, or record an internal fault of no part (log entries 8 and 24). -/
def Instr.drawsFree : Instr → Bool
  | .iterationIssue .. | .nestPost .. | .prtEnable .. | .prtRelease .. | .prtWhistleWrite .. |
    .loopLockLoss .. | .partFailure .. | .internalFault .. => true
  | _ => false

end Sys2Proof
end

