-- ==== Sys2Proof/Certificates/Slice0/Obligations.lean ====
section
/-! DEFINITION. The statements for the provers, family by family of the table. Each names the rules of
spec/ it follows; what is the model's own choice names its log entry. -/

section ObligationsSlice0

open Sys2Proof Sys2Proof.Machine

/-! ## The queue (the model's own) -/

/-- The command at the front of the queue runs on the state with the queue's rest; an empty queue idles
(log entry 6, the model's choice). -/
def Obligations.StepRunsFrontCommand : Prop :=
  (∀ (s : State) (c : Instr) (rest : List Instr), s.pending = c :: rest →
    step s = exec c { s with pending := rest }) ∧
  (∀ s : State, s.pending = [] → step s = .next s)

/-- Every command, with whatever operands and in whatever state, is carried out: it answers a next state, never a
fault or a refusal, and the queue of waiting commands is as it was. -/
def Obligations.ExecLeavesQueue : Prop :=
  ∀ (c : Instr) (s : State), ∃ t, exec c s = .next t ∧ t.pending = s.pending

/-! ## What a command may change -/

/-- The frame of every command: a part of the module that a command is not listed for (Safety.lean) is as it
was. No list holds a NOP, a FENCE, a read, a doorbell of the Bell, a refresh or a boundary scan for the memories;
only SHED_WRITE's pages and a release change what the shed reads as; only a commit puts a message on PCIe.
Commands that reset the module, or write any register by REGISTER_WRITE, are not among these. -/
def Obligations.CommandsChangeOnlyTheirUnits : Prop :=
  ∀ (c : Instr) (s t : State), exec c s = .next t → c.resetsModule = false →
    (c.storesHost = false → t.host.mem = s.host.mem) ∧
    (c.storesGddr = false → t.mem.gddr = s.mem.gddr ∧ t.mem.bad = s.mem.bad) ∧
    (c.storesScratch = false → t.mem.scratch = s.mem.scratch ∧ t.mem.scratchBad = s.mem.scratchBad) ∧
    (c.storesShed = false → t.shed.bytes = s.shed.bytes ∧ t.shed.maps = s.shed.maps) ∧
    (c.movesDescriptors = false → t.host.flights = s.host.flights ∧ t.host.waiting = s.host.waiting ∧
      t.host.marks = s.host.marks ∧ t.host.withdrawn = s.host.withdrawn ∧ t.host.nextSeq = s.host.nextSeq) ∧
    (c.sendsMsix = false → t.host.msgs = s.host.msgs) ∧
    (c.changesPlans = false → t.yard = s.yard) ∧
    (c.changesKv = false → t.kv = s.kv) ∧
    (c.movesBales = false → t.chutes = s.chutes) ∧
    (c.usesHalter = false → t.halter = s.halter) ∧
    (c.movesSequencers = false → t.seqs = s.seqs ∧ t.suspended = s.suspended) ∧
    (c.changesDrovers = false → t.drovers = s.drovers) ∧
    (c.changesShed = false → t.shed = s.shed) ∧
    (c.changesGddrs = false → t.gddrs = { s.gddrs with ecc := t.gddrs.ecc }) ∧
    (c.touchesLoft = false → t.loft = s.loft) ∧
    (c.drawsFree = false → t.freeCount = s.freeCount) ∧
    (c.changesLinks = false → t.links = s.links) ∧
    (c.changesYardTime = false → t.yt = s.yt) ∧
    (c.changesEthernet = false → t.eth = s.eth) ∧
    (c.changesMuster = false → t.mus = s.mus) ∧
    (c.changesPartitions = false → t.parts = s.parts) ∧
    (c.changesClocks = false → t.clk = s.clk) ∧
    (c.changesFlash = false → t.boot = s.boot) ∧
    (c.changesFarrier = false → t.far = s.far) ∧
    (c.changesVideo = false → t.vid = s.vid) ∧
    (c.changesBoard = false → t.mbs = s.mbs)

/-! ## Sound memories (R6, R44, R301, R403, R519) -/

/-- Every step keeps the register file and the byte memories in canonical form, from every state that has
it, whatever command waits. -/
def Obligations.StepKeepsMemoriesCanonical : Prop :=
  ∀ s t : State, s.memWf → step s = .next t → t.memWf

/-- The reset state's register file and memories are in canonical form. -/
def Obligations.ResetMemoriesCanonical : Prop := State.reset.memWf

/-- What reset leaves (R34, R92, R413, R433, R443): nothing enabled, no partition active, no doorbell
rung, no source pending or active, ID of each function as the table gives it, no command waiting. -/
def Obligations.ResetRegisterValues : Prop :=
  (∀ (fn : Fn) (n : Ring), State.reset.flag (HCI_SQ_CTRL_ENABLE n) fn = false ∧
    State.reset.flag (HCI_CQ_CTRL_ENABLE n) fn = false ∧ State.reset.reg (HCI_SQ_TAIL n) fn = 0 ∧
    State.reset.flag (HCI_SQ_STATUS_DRAINED n) fn = true) ∧
  (∀ p : Part, State.reset.prtState p = 0) ∧
  (∀ core : CoreId, State.reset.fld SEQ_STATUS_CUR_DESC core = 0xFFFF) ∧
  (∀ (fn : Fn) (g : Fin 32), State.reset.reg BEL_PENDING (fn * 32 + g) = 0 ∧
    State.reset.reg BEL_ACTIVE (fn * 32 + g) = 0) ∧
  (∀ fn : Fn, State.reset.fld HCI_ID_FUNCTION fn = fn ∧
    State.reset.fld HCI_ID_PARTITION fn = if (fn : Nat) = 0 then 0x3F else (fn : Nat) - 1) ∧
  State.reset.pending = []

/-! ## Register accesses (R6 to R13, R31) -/

/-- A write to a _LO register changes no register: it is held as the writing function's pending low half,
and no other pending half changes (R6).
A write to a _HI register commits both halves where the block lets the pair change: the upper half
written, and the writing function's own pending low half, or the current low half where it holds none;
the pending half is emptied either way (R6), and a refused pair keeps its value.
A read of a _LO register returns the low half and captures the upper half, which the same function's next read
of _HI then returns, and changes no register; the read of _HI after that returns the current value (R6). -/
def Obligations.PairHalvesCommitTogether : Prop :=
  (∀ (fn : Fn) (off : Nat) (val : Word) (r : RegRow) (s : State),
    isLo off = true → rowOf off = some r → accMask r .rw ≠ 0 → ownerBlind fn off = false →
    s.fnLive fn = true → s.mayAccess fn off true = true →
    ∃ t, exec (.regLoWrite fn off val) s = .next t ∧ t.regs = s.regs ∧
      tabFind t.host.pendLo (pendKey fn off (s.regInst fn off)) = some val ∧
      ∀ k, k ≠ pendKey fn off (s.regInst fn off) → tabFind t.host.pendLo k = tabFind s.host.pendLo k) ∧
  (∀ (fn : Fn) (lo : Nat) (val : Word) (r q : RegRow) (s : State),
    isHi (lo + 4) = true → rowOf lo = some r → rowOf (lo + 4) = some q → accMask r .rw ≠ 0 →
    ownerBlind fn (lo + 4) = false → s.fnLive fn = true → s.mayAccess fn (lo + 4) true = true →
    s.regInst fn lo < 1048576 →
    let i := s.regInst fn lo
    let held := (tabFind s.host.pendLo (pendKey fn lo i)).getD (s.reg lo i)
    ∃ t, exec (.regHiWrite fn (lo + 4) val) s = .next t ∧
      tabFind t.host.pendLo (pendKey fn lo i) = none ∧
      (s.pairOpen fn lo i = true →
        t.reg lo i = (s.reg lo i &&& ~~~accMask r .rw) ||| (held &&& accMask r .rw) ∧
        t.reg (lo + 4) i = (s.reg (lo + 4) i &&& ~~~accMask q .rw) ||| (val &&& accMask q .rw) ∧
        ∀ o j, regKey lo i ≠ regKey o j → regKey (lo + 4) i ≠ regKey o j → t.reg o j = s.reg o j) ∧
      (s.pairOpen fn lo i = false → t = State.pairRefused
        { s with host := { s.host with pendLo := tabDel s.host.pendLo (pendKey fn lo i) } } fn lo i)) ∧
  (∀ (fn : Fn) (off : Nat) (s : State), isLo off = true → ownerBlind fn off = false →
    s.fnLive fn = true → s.mayAccess fn off false = true →
    ∃ t, exec (.regLoRead fn off) s = .next t ∧ t.regs = s.regs ∧ t.host.lastRead = [(s.regNow fn off).toNat] ∧
      (s.mayAccess fn (off + 4) false = true → ownerBlind fn (off + 4) = false →
        t.readReg fn (off + 4) = s.regNow fn (off + 4) ∧
        ∃ u, exec (.regLoRead fn (off + 4)) t = .next u ∧ u.regs = s.regs ∧
          u.host.lastRead = [(s.regNow fn (off + 4)).toNat] ∧ u.readReg fn (off + 4) = u.regNow fn (off + 4)))

/-- A select write in the function's range sets the select's field in that function's own copy; one out of
range is refused and the select keeps its value (R11, R12). -/
def Obligations.SelectWriteInRangeOrRefused : Prop :=
  ∀ (fn : Fn) (off : Nat) (val : Word) (r : RegRow) (s : State),
    isSelect off = true → rowOf off = some r → ownerBlind fn off = false → s.fnLive fn = true →
    s.mayAccess fn off true = true →
    let i := s.regInst fn off
    ∃ t, exec (.selectWrite fn off val) s = .next t ∧
      (s.selInRange fn off val = true →
        t.reg off i = (s.reg off i &&& ~~~accMask r .rw) ||| (val &&& accMask r .rw)) ∧
      (s.selInRange fn off val = false → t.reg off i = s.reg off i ∧ t = s.selErr fn off)

/-- A write to a register without rules of its own acts field by field: RW bits are set, a W1C bit written
as 1 is cleared unless the device sets it in the same cc, every other bit keeps its value (R8, R9). Stated
for the registers of such a kind that a virtual function may write. -/
def Obligations.RegisterWriteByFieldType : Prop :=
  ∀ (fn : Fn) (off : Nat) (val devSet : Word) (r : RegRow) (s : State), (fn : Nat) ≠ 0 →
    off ∈ [HCI_STATUS, BEL_STATUS, BEL_CTRL, CLU_WIN_STATUS, CLU_HLT_STATUS, CLU_HLT_WDOG_LIMIT, SEQ_STATUS,
      COR_ATT_STATUS, TEN_OPT_STATUS, LFT_STATUS, LFT_CFG, OST_STATUS, YMS_STATUS, YMS_CFG, YMS_WORK_MIB,
      YMS_EXPERT_BUDGET, YMS_MIG_LIMIT, YMS_SHED_PAGE, YMS_SHED_PAGES, MUS_STATUS, DAY_STATUS] →
    rowOf off = some r → s.fnLive fn = true → s.mayAccess fn off true = true →
    let i := s.regInst fn off
    ∃ t, exec (.registerWrite fn .bar0 off val devSet) s = .next t ∧
      t.reg off i = ((s.reg off i &&& ~~~(accMask r .rw ||| accMask r .w1c)) ||| (val &&& accMask r .rw)) |||
        ((s.reg off i &&& accMask r .w1c &&& ~~~val) ||| (devSet &&& accMask r .w1c)) ∧
      (∀ o j, regKey off i ≠ regKey o j → t.reg o j = s.reg o j) ∧
      t.host = s.host ∧ t.mem = s.mem

/-- A virtual function's access that its chapters do not allow changes nothing but the violation's record:
it is logged as 0x09 with the BAR0 offset if it is the first since VIOL was cleared, it is counted, and
the register reads 0 (R31, R62). -/
def Obligations.ForbiddenAccessIsLogged : Prop :=
  ∀ (fn : Fn) (off : Nat) (isWrite : Bool) (val devSet : Word) (s : State),
    s.fnLive fn = true → s.mayAccess fn off isWrite = false →
    (isWrite = false → s.readReg fn off = 0) ∧
    ∃ t, exec (.vfForbiddenAccess fn off isWrite) s = .next t ∧
      t.flag HCI_STATUS_VIOL fn = true ∧
      t.fld HCI_VIOL_COUNT_COUNT fn = min (s.fld HCI_VIOL_COUNT_COUNT fn + 1) 0xFFFFFFFF ∧
      (s.flag HCI_STATUS_VIOL fn = false →
        t.fld HCI_VIOL_CODE_CODE fn = 9 ∧ t.fld HCI_VIOL_VALUE_VALUE fn = off % 2 ^ 32) ∧
      t.mem = s.mem ∧ t.host.flights = s.host.flights ∧
      (isWrite = true → exec (.registerWrite fn .bar0 off val devSet) s = .next t)

/-- A function-level reset of a virtual function: its HCI registers are as at reset, so that no ring of it
is enabled; of its descriptors only started ones stay in flight, and those write no record; no record of
it waits; and with no step executing, no plan of its partition stays loaded (R28). -/
def Obligations.FunctionResetDropsUnstartedWork : Prop :=
  ∀ (p : Part) (s : State), ∃ t, exec (.functionLevelReset ⟨p + 1, by omega⟩) s = .next t ∧
    (∀ off, off < 0x100000 → t.reg off (p + 1) = regDefault off (p + 1)) ∧
    (∀ f ∈ t.host.flights, f.fn = p + 1 → f.started = true ∧ f.finished = false ∧ f.muted = true) ∧
    (∀ r ∈ t.host.waiting, r.fn ≠ p + 1) ∧
    (∀ f : Flight, f.fn ≠ p + 1 → (f ∈ t.host.flights ↔ f ∈ s.host.flights)) ∧
    (s.stepOf p = none → ∀ id : Fin 16, t.planOf p id = none)

/-! ## Rings, doorbells and records (R35 to R40, R59 to R62) -/

/-- Enabling a ring that is not enabled, of a size the manual allows and (a submission ring) with its completion
ring enabled, sets ENABLE and its indices to 0 and clears HALTED (R35).
A refused enable: ENABLE stays 0, SETUP_ERR is set, and the first cause and ring since it was cleared are recorded
(R35, causes 0x1 to 0x3).
A write with ENABLE = 1 to an enabled ring takes PRIO or IRQ_EN; one that would change its size or completion ring
leaves that field and is cause 0x4 (R35, R36); on a submission ring that is disabled and not drained the field also
stays. A function that does not answer its BAR changes nothing. -/
def Obligations.RingEnableStartsOrRefuses : Prop :=
  ((∀ (fn : Fn) (n : Ring) (val : Word) (s : State), s.fnLive fn = true →
    s.flag (HCI_SQ_CTRL_ENABLE n) fn = false → (s.sqLocked fn n && s.sqChanges fn n val) = false →
    s.sqCause fn val = none →
    ∃ t, exec (.sqEnable fn n val) s = .next t ∧ t.flag (HCI_SQ_CTRL_ENABLE n) fn = true ∧
      t.fld (HCI_SQ_CTRL_SIZE_LOG2 n) fn = getBits val 4 5 ∧ t.fld (HCI_SQ_CTRL_CQ_ID n) fn = getBits val 16 6 ∧
      t.fld (HCI_SQ_CTRL_PRIO n) fn = getBits val 24 2 ∧
      t.reg (HCI_SQ_HEAD n) fn = 0 ∧ t.reg (HCI_SQ_TAIL n) fn = 0 ∧
      t.flag (HCI_SQ_STATUS_HALTED n) fn = false ∧ t.flag (HCI_SQ_STATUS_DRAINED n) fn = false ∧
      t.host.flights = s.host.flights ∧ t.mem = s.mem) ∧
  (∀ (fn : Fn) (m : Ring) (val : Word) (s : State), s.fnLive fn = true →
    s.flag (HCI_CQ_CTRL_ENABLE m) fn = false → sizeCause (ctrlSize val) = none →
    ∃ t, exec (.cqEnable fn m val) s = .next t ∧ t.flag (HCI_CQ_CTRL_ENABLE m) fn = true ∧
      t.fld (HCI_CQ_CTRL_SIZE_LOG2 m) fn = getBits val 4 5 ∧ t.fld (HCI_CQ_CTRL_IRQ_EN m) fn = getBits val 12 1 ∧
      t.reg (HCI_CQ_TAIL m) fn = 0 ∧ t.reg (HCI_CQ_HEAD m) fn = 0 ∧ t.flag (HCI_CQ_STATUS_HALTED m) fn = false ∧
      t.host = s.host ∧ t.mem = s.mem)) ∧
  ((∀ (fn : Fn) (n : Ring) (val : Word) (c : Nat) (s : State), s.fnLive fn = true →
    s.flag (HCI_SQ_CTRL_ENABLE n) fn = false → (s.sqLocked fn n && s.sqChanges fn n val) = false →
    s.sqCause fn val = some c →
    ∃ t, exec (.sqEnable fn n val) s = .next t ∧ t.flag (HCI_SQ_CTRL_ENABLE n) fn = false ∧
      t.flag HCI_STATUS_SETUP_ERR fn = true ∧
      (s.flag HCI_STATUS_SETUP_ERR fn = false → t.fld HCI_SETUP_ERR_CODE_CODE fn = c ∧
        t.fld HCI_SETUP_ERR_CODE_RING fn = n ∧ t.fld HCI_SETUP_ERR_CODE_IS_CQ fn = 0) ∧
      (c = 1 ↔ ctrlSize val = 0) ∧ (c = 2 ↔ (1 ≤ ctrlSize val ∧ ctrlSize val < 4) ∨ 16 < ctrlSize val) ∧
      (c = 3 → s.flag (HCI_CQ_CTRL_ENABLE (ctrlCq val)) fn = false)) ∧
  (∀ (fn : Fn) (m : Ring) (val : Word) (c : Nat) (s : State), s.fnLive fn = true →
    s.flag (HCI_CQ_CTRL_ENABLE m) fn = false → sizeCause (ctrlSize val) = some c →
    ∃ t, exec (.cqEnable fn m val) s = .next t ∧ t.flag (HCI_CQ_CTRL_ENABLE m) fn = false ∧
      t.flag HCI_STATUS_SETUP_ERR fn = true ∧
      (s.flag HCI_STATUS_SETUP_ERR fn = false → t.fld HCI_SETUP_ERR_CODE_CODE fn = c ∧
        t.fld HCI_SETUP_ERR_CODE_RING fn = m ∧ t.fld HCI_SETUP_ERR_CODE_IS_CQ fn = 1) ∧
      (c = 1 ↔ ctrlSize val = 0) ∧ (c = 2 ↔ ctrlSize val ≠ 0))) ∧
  ((∀ (fn : Fn) (n : Ring) (val : Word) (s : State), s.fnLive fn = true → s.flag (HCI_SQ_CTRL_ENABLE n) fn = true →
    ∃ t, exec (.sqEnable fn n val) s = .next t ∧ t.flag (HCI_SQ_CTRL_ENABLE n) fn = true ∧
      t.fld (HCI_SQ_CTRL_PRIO n) fn = getBits val 24 2 ∧
      t.fld (HCI_SQ_CTRL_SIZE_LOG2 n) fn = s.fld (HCI_SQ_CTRL_SIZE_LOG2 n) fn ∧
      t.fld (HCI_SQ_CTRL_CQ_ID n) fn = s.fld (HCI_SQ_CTRL_CQ_ID n) fn ∧
      t.reg (HCI_SQ_HEAD n) fn = s.reg (HCI_SQ_HEAD n) fn ∧ t.reg (HCI_SQ_TAIL n) fn = s.reg (HCI_SQ_TAIL n) fn ∧
      t.host = s.host ∧
      (s.sqChanges fn n val = true → t.flag HCI_STATUS_SETUP_ERR fn = true ∧
        (s.flag HCI_STATUS_SETUP_ERR fn = false → t.fld HCI_SETUP_ERR_CODE_CODE fn = 4 ∧
          t.fld HCI_SETUP_ERR_CODE_RING fn = n ∧ t.fld HCI_SETUP_ERR_CODE_IS_CQ fn = 0))) ∧
  (∀ (fn : Fn) (n : Ring) (val : Word) (s : State), s.fnLive fn = true →
    (s.sqLocked fn n && s.sqChanges fn n val) = true →
    ∃ t, exec (.sqEnable fn n val) s = .next t ∧ t.flag HCI_STATUS_SETUP_ERR fn = true ∧
      t.fld (HCI_SQ_CTRL_SIZE_LOG2 n) fn = s.fld (HCI_SQ_CTRL_SIZE_LOG2 n) fn ∧
      t.fld (HCI_SQ_CTRL_CQ_ID n) fn = s.fld (HCI_SQ_CTRL_CQ_ID n) fn) ∧
  (∀ (fn : Fn) (m : Ring) (val : Word) (s : State), s.fnLive fn = true → s.flag (HCI_CQ_CTRL_ENABLE m) fn = true →
    ∃ t, exec (.cqEnable fn m val) s = .next t ∧ t.flag (HCI_CQ_CTRL_ENABLE m) fn = true ∧
      t.fld (HCI_CQ_CTRL_IRQ_EN m) fn = getBits val 12 1 ∧
      t.fld (HCI_CQ_CTRL_SIZE_LOG2 m) fn = s.fld (HCI_CQ_CTRL_SIZE_LOG2 m) fn ∧
      t.reg (HCI_CQ_TAIL m) fn = s.reg (HCI_CQ_TAIL m) fn ∧ t.host = s.host ∧
      (ctrlSize val ≠ s.fld (HCI_CQ_CTRL_SIZE_LOG2 m) fn → t.flag HCI_STATUS_SETUP_ERR fn = true ∧
        (s.flag HCI_STATUS_SETUP_ERR fn = false → t.fld HCI_SETUP_ERR_CODE_CODE fn = 4 ∧
          t.fld HCI_SETUP_ERR_CODE_RING fn = m ∧ t.fld HCI_SETUP_ERR_CODE_IS_CQ fn = 1))) ∧
  (∀ (fn : Fn) (n : Ring) (val : Word) (s : State), s.fnLive fn = false →
    exec (.sqEnable fn n val) s = .next s ∧ exec (.cqEnable fn n val) s = .next s))

/-- Disabling a ring: ENABLE reads 0 and what a doorbell covered but was not fetched is forgotten, while
what is in flight stays (R36); a write that would also change the size or the completion ring of a ring that is not
drained leaves that field and sets SETUP_ERR. A completion ring that no enabled submission ring names goes the same
way; one that is named stays enabled, with cause 0x5 (R35). -/
def Obligations.RingDisableStopsFetching : Prop :=
  (∀ (fn : Fn) (n : Ring) (val : Word) (s : State), s.fnLive fn = true →
    (s.sqLocked fn n && s.sqChanges fn n val) = false →
    ∃ t, exec (.sqDisable fn n val) s = .next t ∧ t.flag (HCI_SQ_CTRL_ENABLE n) fn = false ∧
      t.host.flights = s.host.flights ∧ (∀ m ∈ t.host.marks, ¬(m.fn = fn ∧ m.sq = n)) ∧
      (t.flag (HCI_SQ_STATUS_DRAINED n) fn = true ↔
        ∀ f ∈ s.host.flights, f.fn = fn → f.sq = n → f.muted = true)) ∧
  (∀ (fn : Fn) (n : Ring) (val : Word) (s : State), s.fnLive fn = true →
    (s.sqLocked fn n && s.sqChanges fn n val) = true →
    ∃ t, exec (.sqDisable fn n val) s = .next t ∧ t.flag (HCI_SQ_CTRL_ENABLE n) fn = false ∧
      t.host.flights = s.host.flights ∧ t.flag HCI_STATUS_SETUP_ERR fn = true ∧
      t.fld (HCI_SQ_CTRL_SIZE_LOG2 n) fn = s.fld (HCI_SQ_CTRL_SIZE_LOG2 n) fn ∧
      t.fld (HCI_SQ_CTRL_CQ_ID n) fn = s.fld (HCI_SQ_CTRL_CQ_ID n) fn) ∧
  (∀ (fn : Fn) (m : Ring) (val : Word) (s : State), s.fnLive fn = true →
    s.flag (HCI_CQ_CTRL_ENABLE m) fn = true →
    (s.cqNamed fn m = false → ∃ t, exec (.cqDisable fn m val) s = .next t ∧
      t.flag (HCI_CQ_CTRL_ENABLE m) fn = false ∧ t.host = s.host) ∧
    (s.cqNamed fn m = true → ctrlSize val = s.fld (HCI_CQ_CTRL_SIZE_LOG2 m) fn →
      ∃ t, exec (.cqDisable fn m val) s = .next t ∧ t.flag (HCI_CQ_CTRL_ENABLE m) fn = true ∧
        t.flag HCI_STATUS_SETUP_ERR fn = true ∧ t.host = s.host ∧
        (s.flag HCI_STATUS_SETUP_ERR fn = false → t.fld HCI_SETUP_ERR_CODE_CODE fn = 5 ∧
          t.fld HCI_SETUP_ERR_CODE_RING fn = m ∧ t.fld HCI_SETUP_ERR_CODE_IS_CQ fn = 1)))

/-- A tail doorbell that reaches a ring (the function's own page, or any partition's for the owner while
isolation mode is off): a tail that is not behind the accepted one and leaves at most the ring's size
outstanding is accepted, its indices wrapping mod 2^32; one that offers the current tail has no effect; any other
leaves the tail and is violation 0x01 with the offered tail, and one to a ring that is not enabled or beyond MAX_SQ
is 0x02 with the ring (R32, R37, R62). What software stored before it is in host memory. -/
def Obligations.TailDoorbellAcceptsWithinRing : Prop :=
  (∀ (fn page : Fn) (n : Ring) (tail : Word) (stores : List HostStore) (s : State), s.fnLive fn = true →
    ((fn : Nat) = pageFn page ∨ (fn : Nat) = 0 ∧ s.isolated = false) →
    let g := pageFn page
    let old := s.reg (HCI_SQ_TAIL n) g
    let head := s.reg (HCI_SQ_HEAD n) g
    let fits := (tail - head).toNat ≤ 2 ^ s.fld (HCI_SQ_CTRL_SIZE_LOG2 n) g ∧
      (tail - old).toNat ≤ (tail - head).toNat
    ∃ t, exec (.tailDoorbell fn page n tail stores) s = .next t ∧ t.host.mem = (s.hostStores stores).host.mem ∧
      (s.flag (HCI_SQ_CTRL_ENABLE n) g = true → fits → t.reg (HCI_SQ_TAIL n) g = tail ∧
        (∀ o j, regKey (HCI_SQ_TAIL n) g ≠ regKey o j → t.reg o j = s.reg o j)) ∧
      (s.flag (HCI_SQ_CTRL_ENABLE n) g = true → fits → tail = old → t = s.hostStores stores) ∧
      (s.flag (HCI_SQ_CTRL_ENABLE n) g = true → ¬fits → t = (s.hostStores stores).hostViolation fn 1 tail.toNat) ∧
      (s.flag (HCI_SQ_CTRL_ENABLE n) g = false → t = (s.hostStores stores).hostViolation fn 2 n)) ∧
  ∀ (fn page : Fn) (ring : Nat) (tail : Word) (stores : List HostStore) (s : State), s.fnLive fn = true →
    ((fn : Nat) = pageFn page ∨ (fn : Nat) = 0 ∧ s.isolated = false) → 64 ≤ ring →
    exec (.tailDoorbell fn page ring tail stores) s = .next ((s.hostStores stores).hostViolation fn 2 ring)

/-- A head doorbell that reaches a ring: within the outstanding records it is accepted; outside them the
head stays and it is violation 0x04; on a ring that is not enabled 0x02 (R39, R62).
Doorbell writes that ring nothing: to a ring number of 64 or more, violation 0x02 with the ring; one
that is not an aligned 4-byte write or at an unused offset, of the function's own page or by the owner of any, 0x03
with the page offset; the owner's to a partition's page while isolation mode is on, the lower code of what is wrong
with it, and otherwise 0x0A with the page (R32, R33, R62, R521). -/
def Obligations.HeadAndBadDoorbells : Prop :=
  (∀ (fn page : Fn) (m : Ring) (head : Word) (s : State), s.fnLive fn = true →
    ((fn : Nat) = pageFn page ∨ (fn : Nat) = 0 ∧ s.isolated = false) →
    let g := pageFn page
    let old := s.reg (HCI_CQ_HEAD m) g
    let fits := (head - old).toNat ≤ (s.reg (HCI_CQ_TAIL m) g - old).toNat
    ∃ t, exec (.headDoorbell fn page m head) s = .next t ∧ t.host = s.host ∧
      (s.flag (HCI_CQ_CTRL_ENABLE m) g = true → fits → t.reg (HCI_CQ_HEAD m) g = head) ∧
      (s.flag (HCI_CQ_CTRL_ENABLE m) g = true → ¬fits → t = s.hostViolation fn 4 head.toNat) ∧
      (s.flag (HCI_CQ_CTRL_ENABLE m) g = false → t = s.hostViolation fn 2 m)) ∧
  ((∀ (fn page : Fn) (ring : Nat) (v : Word) (s : State), s.fnLive fn = true → (fn : Nat) = pageFn page →
    64 ≤ ring → exec (.headDoorbell fn page ring v) s = .next (s.hostViolation fn 2 ring) ∧
      exec (.tailDoorbell fn page ring v []) s = .next (s.hostViolation fn 2 ring)) ∧
  (∀ (fn page : Fn) (off size : Nat) (s : State), s.fnLive fn = true →
    (fn : Nat) = pageFn page ∨ (fn : Nat) = 0 → badDoorbell fn page off size = true →
    exec (.doorbellBadWrite fn page off size) s = .next (s.hostViolation fn 3 off)) ∧
  (∀ (page : Fn) (ring : Nat) (v : Word) (s : State), (page : Nat) ≠ 32 → s.isolated = true →
    (s.headViolation (pageFn page) ring v = none →
      exec (.headDoorbell 0 page ring v) s = .next (s.hostViolation 0 10 page)) ∧
    (s.tailViolation (pageFn page) ring v = none →
      exec (.tailDoorbell 0 page ring v []) s = .next (s.hostViolation 0 10 page)) ∧
    (∀ c x, s.headViolation (pageFn page) ring v = some (c, x) → c < 10 ∧
      exec (.headDoorbell 0 page ring v) s = .next (s.hostViolation 0 c x)) ∧
    ∀ c x, s.tailViolation (pageFn page) ring v = some (c, x) → c < 10 ∧
      exec (.tailDoorbell 0 page ring v []) s = .next (s.hostViolation 0 c x)))

/-! ## Descriptors (R38 to R62) -/

/-- A fetch of a ring that may fetch and whose turn R40 gives: a good one takes the descriptor of the slot HEAD
names, advances HEAD by one and puts the descriptor in flight, not started; one that a CANCEL withdrew before it was
fetched ends CANCELLED instead, with its own TAG; a failed one halts the ring, is violation 0x07 with the slot's
index if it is the first, and makes one waiting record with TAG 0xFFFFFFFF, OPCODE 0xFF and STATUS DATA_ERROR (R37,
R38, R58, R62). A ring that may not fetch, or whose turn it is not, fetches nothing. The order of rings within a
round is the model's choice (log entry 72). -/
def Obligations.DescriptorFetchTakesHeadSlot : Prop :=
  (∀ (fn : Fn) (n : Ring) (s : State), s.mayFetch fn n = true → s.fetchTurn fn n = true →
    let slot := s.readHost (s.reg64 (HCI_SQ_BASE_LO n) fn +
      64 * ((s.reg (HCI_SQ_HEAD n) fn).toNat % 2 ^ s.fld (HCI_SQ_CTRL_SIZE_LOG2 n) fn)) 64
    let gone := ((fn : Nat), (n : Nat), (s.reg (HCI_SQ_HEAD n) fn).toNat)
    (gone ∉ s.host.withdrawn →
      ∃ (t : State) (f : Flight), exec (.descriptorFetch fn n true) s = .next t ∧
        t.host.flights = s.host.flights ++ [f] ∧
        f.fn = fn ∧ f.sq = n ∧ f.idx = (s.reg (HCI_SQ_HEAD n) fn).toNat ∧ f.started = false ∧ f.taken = false ∧
        f.muted = false ∧ f.bytes = slot ∧ t.host.waiting = s.host.waiting ∧
        t.reg (HCI_SQ_HEAD n) fn = s.reg (HCI_SQ_HEAD n) fn + 1) ∧
    (gone ∈ s.host.withdrawn → s.internalAux fn = none →
      ∃ (t : State) (r : Rec), exec (.descriptorFetch fn n true) s = .next t ∧
        t.host.waiting = s.host.waiting ++ [r] ∧ r.tag = fieldAt slot 4 4 ∧ r.status = 0x11 ∧ r.fn = fn ∧ r.sq = n ∧
        gone ∉ t.host.withdrawn ∧ t.reg (HCI_SQ_HEAD n) fn = s.reg (HCI_SQ_HEAD n) fn + 1) ∧
    ∃ (t : State) (r : Rec), exec (.descriptorFetch fn n false) s = .next t ∧ t.host.waiting = s.host.waiting ++ [r] ∧
      r.tag = 0xFFFFFFFF ∧ r.opcode = 0xFF ∧ r.status = 0x40 ∧ r.cq = s.fld (HCI_SQ_CTRL_CQ_ID n) fn ∧
      t.flag (HCI_SQ_STATUS_HALTED n) fn = true ∧ t.reg (HCI_SQ_HEAD n) fn = s.reg (HCI_SQ_HEAD n) fn ∧
      t.host.flights = s.host.flights ∧
      (s.flag HCI_STATUS_VIOL fn = false → t.fld HCI_VIOL_CODE_CODE fn = 7 ∧
        t.fld HCI_VIOL_VALUE_VALUE fn = (s.reg (HCI_SQ_HEAD n) fn).toNat)) ∧
  ∀ (fn : Fn) (n : Ring) (ok : Bool) (s : State), s.mayFetch fn n = false ∨ s.fetchTurn fn n = false →
    exec (.descriptorFetch fn n ok) s = .next s

/-- The end of a descriptor, as every descriptor below ends: where no internal fault of R463 stands and no
function-level reset muted it, one record joins those that wait, with the descriptor's ring, opcode and
TAG, the beat of the end (0 while unsynchronised), and the status, AUX and DETAIL given; the descriptor
is finished and memory is unchanged. A muted one leaves without a record (R28, R59, R61). -/
def Obligations.DescriptorEndQueuesOneRecord : Prop :=
  ∀ (f : Flight) (status aux detail : Nat) (s : State),
    (f.muted = false → s.internalAux f.fn = none →
      ∃ r, (s.finish f status aux detail).host.waiting = s.host.waiting ++ [r] ∧ r.fn = f.fn ∧ r.sq = f.sq ∧
        r.tag = fieldAt f.bytes 4 4 ∧ r.opcode = fieldAt f.bytes 0 1 ∧ r.status = status ∧ r.aux = aux ∧
        r.detail = detail ∧ r.endBeat = (if s.synced then s.beat else 0) ∧
        r.cq = s.fld (HCI_SQ_CTRL_CQ_ID f.sq) f.fn) ∧
    (f.muted = true → (s.finish f status aux detail).host.waiting = s.host.waiting ∧
      (s.finish f status aux detail).host.flights = s.host.flights.filter fun g => g.seq != f.seq) ∧
    (s.finish f status aux detail).mem = s.mem ∧ (s.finish f status aux detail).host.mem = s.host.mem

/-- A completion record is written: 32 bytes at the completion ring's tail slot, with SQ_HEAD as it is then
and the PHASE of the tail's pass; CQ TAIL advances by one, the record waits no longer, and every host
byte outside the 32 is unchanged. A failed write halts the ring and loses the record (R59 to R62). A full ring holds
its records and reads FULL (R39), a halted one loses them; with no record, and after the warning of input loss,
nothing is written, nor on a disabled ring, whose records wait (log entry 73, the model's choice). -/
def Obligations.CompletionRecordIsWrittenAtTail : Prop :=
  (∀ (fn : Fn) (m : Ring) (ok : Bool) (s : State),
    (s.nextRec fn m = none ∨ s.flag (HCI_CQ_CTRL_ENABLE m) fn = false ∨ s.flag CLK_STATUS_VIN_WARN = true →
      exec (.completionRecordWrite fn m ok) s = .next s) ∧
    (∀ r, s.nextRec fn m = some r → s.flag (HCI_CQ_CTRL_ENABLE m) fn = true →
      s.flag CLK_STATUS_VIN_WARN = false →
      (s.cqFull fn m = true → ∃ t, exec (.completionRecordWrite fn m ok) s = .next t ∧ t.host = s.host ∧
        t.flag (HCI_CQ_STATUS_FULL m) fn = true ∧ t.reg (HCI_CQ_TAIL m) fn = s.reg (HCI_CQ_TAIL m) fn) ∧
      (s.cqFull fn m = false → s.flag (HCI_CQ_STATUS_HALTED m) fn = true →
        ∃ t, exec (.completionRecordWrite fn m ok) s = .next t ∧ t.host.mem = s.host.mem ∧
          t.host.waiting = dropRec fn m s.host.waiting ∧ t.reg (HCI_CQ_TAIL m) fn = s.reg (HCI_CQ_TAIL m) fn))) ∧
  ∀ (fn : Fn) (m : Ring) (r : Rec) (s : State), s.nextRec fn m = some r →
    s.flag (HCI_CQ_CTRL_ENABLE m) fn = true → s.flag CLK_STATUS_VIN_WARN = false → s.cqFull fn m = false →
    s.flag (HCI_CQ_STATUS_HALTED m) fn = false → r.sq < 64 →
    let tail := s.reg (HCI_CQ_TAIL m) fn
    let size := s.fld (HCI_CQ_CTRL_SIZE_LOG2 m) fn
    let at_ := s.reg64 (HCI_CQ_BASE_LO m) fn + 32 * (tail.toNat % 2 ^ size)
    (∃ t, exec (.completionRecordWrite fn m true) s = .next t ∧ t.reg (HCI_CQ_TAIL m) fn = tail + 1 ∧
      t.readHost at_ 32 = recBytes r (s.reg (HCI_SQ_HEAD r.sq) fn).toNat (phaseOf tail.toNat size) ∧
      (∀ a, a < at_ ∨ at_ + 32 ≤ a → t.readHost a 1 = s.readHost a 1) ∧
      t.host.waiting = dropRec fn m s.host.waiting) ∧
    ∃ t, exec (.completionRecordWrite fn m false) s = .next t ∧
      t.flag (HCI_CQ_STATUS_HALTED m) fn = true ∧ t.reg (HCI_CQ_TAIL m) fn = tail ∧
      t.host.waiting = dropRec fn m s.host.waiting ∧ t.host.mem = s.host.mem

/-- A NOP whose unused bytes are 0 ends OK and changes nothing else; one with a nonzero reserved byte ends
REFUSED under violation 0x06 with that byte (R42, R62). A reserved opcode ends REFUSED under violation
0x05 with the opcode (R43, R62).
A FENCE waits, and ends OK once every earlier descriptor of its ring (SCOPE 0) or of its function
(SCOPE 1) is out of flight and Yard Time has reached its BEAT, and not before (R51); one that fails its checks is
refused.
A CANCEL whose target has been fetched and has not started ends it CANCELLED and itself OK; a target
that has started, or starts in the same cc, makes it TOO_LATE; a target that a doorbell covers and that is not fetched
is withdrawn, once; with no target at all it is TOO_LATE (R52, R58). -/
def Obligations.NopFenceAndCancel : Prop :=
  ((∀ (fn : Fn) (n : Ring) (idx : Word) (f : Flight) (s : State), s.ready fn n idx.toNat 0 = some f →
    (reservedByte f.bytes [] [] = none → exec (.nop fn n idx) s = .next (s.finish f 0 0 0)) ∧
    (∀ k, reservedByte f.bytes [] [] = some k →
      exec (.nop fn n idx) s = .next ((s.hostViolation f.fn 6 k).finish f 0x30 0 0))) ∧
  (∀ (fn : Fn) (n : Ring) (idx : Word) (f : Flight) (s : State),
    ((s.flightsAt fn n idx.toNat).find? fun f => s.mayBegin f && decide (0x0B ≤ f.opcode)) = some f →
    exec (.reservedOpcode fn n idx) s = .next ((s.hostViolation f.fn 5 f.opcode).finish f 0x30 0 0))) ∧
  ((∀ (fn : Fn) (n : Ring) (idx : Word) (f : Flight) (s : State), s.ready fn n idx.toNat 7 = some f →
    (fenceChecks f = [] →
      (fieldAt f.bytes 8 1 = 0 → exec (.fenceRing fn n idx) s =
        .next (s.updFlight f.seq fun g => { g with taken := true })) ∧
      (fieldAt f.bytes 8 1 = 1 → exec (.fenceFunction fn n idx) s =
        .next (s.updFlight f.seq fun g => { g with taken := true }))) ∧
    (∀ x xs, fenceChecks f = x :: xs →
      (fieldAt f.bytes 8 1 ≠ 1 → exec (.fenceRing fn n idx) s = .next (s.failDesc f (x :: xs))) ∧
      (fieldAt f.bytes 8 1 = 1 → exec (.fenceFunction fn n idx) s = .next (s.failDesc f (x :: xs))))) ∧
  (∀ (fn : Fn) (n : Ring) (idx : Word) (f : Flight) (s : State), f ∈ s.flightsAt fn n idx.toNat →
    (∀ g ∈ s.flightsAt fn n idx.toNat, g = f) → f.opcode = 7 → f.taken = true → f.finished = false →
    (fieldAt f.bytes 8 1 = 0 →
      ((∀ g ∈ s.host.flights, g.fn = f.fn → g.sq = f.sq → g.seq < f.seq → g.muted = true) ∧
        (fieldAt f.bytes 16 8 = 0 ∨ fieldAt f.bytes 16 8 ≤ s.beat) →
        exec (.fenceRelease fn n idx) s = .next (s.finish f 0 0 0)) ∧
      ((∃ g ∈ s.host.flights, g.fn = f.fn ∧ g.sq = f.sq ∧ g.seq < f.seq ∧ g.muted = false) →
        exec (.fenceRelease fn n idx) s = .next s)) ∧
    (fieldAt f.bytes 8 1 = 1 →
      ((∀ g ∈ s.host.flights, g.fn = f.fn → g.seq < f.seq → g.muted = true) ∧
        (fieldAt f.bytes 16 8 = 0 ∨ fieldAt f.bytes 16 8 ≤ s.beat) →
        exec (.fenceRelease fn n idx) s = .next (s.finish f 0 0 0)) ∧
      ((∃ g ∈ s.host.flights, g.fn = f.fn ∧ g.seq < f.seq ∧ g.muted = false) →
        exec (.fenceRelease fn n idx) s = .next s)) ∧
    (fieldAt f.bytes 16 8 ≠ 0 → s.beat < fieldAt f.bytes 16 8 → exec (.fenceRelease fn n idx) s = .next s))) ∧
  (∀ (fn : Fn) (n : Ring) (idx : Word) (f : Flight) (same : Bool) (s : State),
    s.ready fn n idx.toNat 8 = some f →
    (∀ x xs, cancelChecks s f = x :: xs → exec (.cancel fn n idx same) s = .next (s.failDesc f (x :: xs))) ∧
    (cancelChecks s f = [] →
      let sq := fieldAt f.bytes 8 1
      let tag := fieldAt f.bytes 12 4
      let target := s.host.flights.find? fun g => g.fn == f.fn && g.sq == sq && !g.muted && g.seq != f.seq &&
        fieldAt g.bytes 4 4 == tag
      (∀ g, target = some g →
        (g.started = false → g.finished = false → same = false → exec (.cancel fn n idx same) s =
          .next (((s.dropScheduled g.seq).finish g 0x11 0 0).finish f 0 0 0)) ∧
        (g.started = true ∨ g.finished = true ∨ same = true →
          exec (.cancel fn n idx same) s = .next (s.finish f 0x10 0 0))) ∧
      (target = none →
        let slot := (s.unfetched f.fn sq).find? fun i => fieldAt (s.readHost (s.slotAddr f.fn sq i) 64) 4 4 == tag
        (slot = none → exec (.cancel fn n idx same) s = .next (s.finish f 0x10 0 0)) ∧
        ∀ i, slot = some i →
          ((f.fn, sq, i.toNat) ∈ s.host.withdrawn → exec (.cancel fn n idx same) s = .next (s.finish f 0x10 0 0)) ∧
          ((f.fn, sq, i.toNat) ∉ s.host.withdrawn → ∃ t u, exec (.cancel fn n idx same) s = .next t ∧
            t = State.finish u f 0 0 0 ∧ u.host.withdrawn = (f.fn, sq, i.toNat) :: s.host.withdrawn ∧
            u.host.flights = s.host.flights ∧ u.regs = s.regs))))

/-- A PLAN_LOAD whose turn has come reads its image, from host memory or from GDDR. One whose image passes every
check and whose plan can be placed puts the placed plan under its PLAN_ID, in place of the one it held, and ends OK;
a refused image leaves the loaded plans as they were; poisoned image data is DATA_ERROR with its unit code, a place in
reset TARGET_RESET, LENGTH 0 OK_EMPTY, and fields that fail their checks are refused (R45, R46, R55, R313, R316,
R461).
A PLAN_RUN whose turn has come and which passes every check, with or without an argument table, is taken: its step
waits for the start beat, which is the descriptor's or the first aligned beat after the next (R47, R358); one that
names no loaded plan, or fails a check, is refused. One whose turn has not come waits. -/
def Obligations.PlansLoadAndRun : Prop :=
  (∀ (fn : Fn) (n : Ring) (idx : Word) (f : Flight) (s : State), s.ready fn n idx.toNat 1 = some f →
    (s.planTurn f = false → ∀ errs, exec (.planLoad fn n idx errs) s = .next s) ∧
    (s.planTurn f = true →
      (∀ x xs, loadChecks s f = x :: xs → exec (.planLoad fn n idx []) s = .next (s.failDesc f (x :: xs))) ∧
      (loadChecks s f = [] → loadLen f = 0 → exec (.planLoad fn n idx []) s = .next (s.finish f 1 0 0)) ∧
      ∀ at_, loadChecks s f = [] → loadLen f ≠ 0 → s.place f.fn (loadSrc f) (loadLen f) = .ok at_ →
        let img := s.readAt f.fn at_ (loadLen f)
        let p := f.fn - 1
        let u := (s.updFlight f.seq fun g => { g with taken := true, started := true, ran := true }).touch f.fn at_
          (loadLen f)
        let parsed := parsePlan (loadCrc f) (sectionsOf img) u.ownAddr
        (s.placeDown f.fn at_ (loadLen f) = true →
          exec (.planLoad fn n idx []) s = .next (s.finish f 0x20 0 0)) ∧
        (s.placeDown f.fn at_ (loadLen f) = false → s.badAt f.fn at_ (loadLen f) = true →
          ∃ code, exec (.planLoad fn n idx []) s = .next (u.finish f 0x40 code 0)) ∧
        (s.placeDown f.fn at_ (loadLen f) = false → s.badAt f.fn at_ (loadLen f) = false →
          ∃ t, exec (.planLoad fn n idx []) s = .next t ∧ t = loadImage u f img ∧
            (crc32 img ≠ loadCrc f → t = u.finish f 0x30 0 0) ∧
            (∀ pl, crc32 img = loadCrc f → headerGood img = true →
              planBad (sectionsOf img) parsed (fun k => (sectionOf img k).isSome) u.dims = none →
              lowestFail (u.placeFails p parsed) = none → u.placeStages p parsed = .ok pl →
              t.planOf p (loadId f) = some pl ∧ t.flag YMS_STATUS_PLACED p = true) ∧
            (∀ aux, crc32 img = loadCrc f → headerGood img = true →
              planBad (sectionsOf img) parsed (fun k => (sectionOf img k).isSome) u.dims = some aux →
              t = u.finish f 0x30 aux 0 ∧ t.yard.plans = s.yard.plans) ∧
            (∀ c subj, crc32 img = loadCrc f → headerGood img = true →
              planBad (sectionsOf img) parsed (fun k => (sectionOf img k).isSome) u.dims = none →
              lowestFail (u.placeFails p parsed) = some (c, subj) →
              t.yard.plans = s.yard.plans ∧ t.fld YMS_LOAD_CAUSE_CAUSE p = c % 2 ^ 8)))) ∧
  (∀ (fn : Fn) (n : Ring) (idx : Word) (f : Flight) (s : State), s.ready fn n idx.toNat 2 = some f →
    (s.planTurn f = false ∨ f.fn ≠ 0 ∧ (s.stepOf (f.fn - 1)).isSome = true →
      ∀ errs, exec (.planRun fn n idx errs) s = .next s) ∧
    (s.planTurn f = true → f.fn = 0 ∨ s.stepOf (f.fn - 1) = none →
      (∀ x xs, runFields s f = x :: xs → exec (.planRun fn n idx []) s = .next (s.failDesc f (x :: xs))) ∧
      (runFields s f = [] → s.planOf (f.fn - 1) (runId f) = none →
        exec (.planRun fn n idx []) s = .next (s.finish f 0x30 0 0)) ∧
      ∀ pl (u : State) (tab : List Byte) (at_ : Place), runFields s f = [] →
        s.planOf (f.fn - 1) (runId f) = some pl →
        (runCount f = 0 ∧ u = s ∧ tab = [] ∨
          runCount f ≠ 0 ∧ s.place f.fn (runTable f) (16 * runCount f) = .ok at_ ∧
            s.placeDown f.fn at_ (16 * runCount f) = false ∧ s.badAt f.fn at_ (16 * runCount f) = false ∧
            u = s.touch f.fn at_ (16 * runCount f) ∧ tab = s.readAt f.fn at_ (16 * runCount f)) →
        (planChecks u f pl tab = [] →
          ∃ (t : State) (st : Step), exec (.planRun fn n idx []) s = .next t ∧ t.stepOf (f.fn - 1) = some st ∧
            st.seq = f.seq ∧ st.plan = runId f ∧ st.step = runStep f ∧ st.seed = runSeed f ∧ st.running = false ∧
            st.args = argList tab (runCount f) ∧
            st.startBeat = (if runBeat f ≠ 0 then runBeat f else roundUp (u.beat + 2) (2 ^ pl.alignLog2)) ∧
            ∀ g ∈ t.host.flights, g.seq = f.seq → g.taken = true ∧ g.started = (runCount f != 0)) ∧
        (∀ x xs, planChecks u f pl tab = x :: xs →
          exec (.planRun fn n idx []) s = .next (u.failDesc f (x :: xs)))))

/-- A raw BALE_COPY that passes its checks, of good data between places that are not in reset, ends OK with the bytes
moved as DETAIL; between different spaces the destination then reads as the source did, byte for byte, and with host
memory as the destination no host byte outside it changes, nor GDDR, scratch or a register below 0x800000 but for the
record's (R48). COUNT 0 ends OK_EMPTY, a place in reset TARGET_RESET, and a failed check is refused (R55, R283).
A BALE_COPY of bales goes bale by bale, and ends as the bales went: OK with the bytes moved, REFUSED with the byte and
the index of a bad header, TARGET_RESET, or DATA_ERROR with the cause and the count of poisoned bales (R48, R71, R461).
One bale with a good header from GDDR to host memory writes the bale's bytes as its header sizes it, and ends OK with
that size as DETAIL, or DATA_ERROR with unit code 0x0B where the bale is marked poisoned. -/
def Obligations.BaleCopies : Prop :=
  (∀ (fn : Fn) (n : Ring) (idx : Word) (f : Flight) (pa pb : Place) (s : State),
    s.ready fn n idx.toNat 3 = some f → copyRaw f = true →
    let len := 64 * copyCount f
    let c := Instr.baleCopyRaw fn n idx []
    s.place f.fn (copySrc f) len = .ok pa → s.place f.fn (copyDst f) len = .ok pb →
    (∀ x xs, copyChecks f ++ s.destFailed f.fn pb len = x :: xs → exec c s = .next (s.failDesc f (x :: xs))) ∧
    (copyChecks f = [] → s.destFailed f.fn pb len = [] →
      (copyCount f = 0 → exec c s = .next (s.finish f 1 0 0)) ∧
      (copyCount f ≠ 0 → s.placeDown f.fn pa len = true ∨ s.placeDown f.fn pb len = true →
        exec c s = .next (s.finish f 0x20 0 0)) ∧
      (copyCount f ≠ 0 → s.placeDown f.fn pa len = false → s.placeDown f.fn pb len = false →
        s.badAt f.fn pa len = false → ∃ t u : State, exec c s = .next t ∧ t = u.finish f 0 0 len ∧
          (copySrc f / 2 ^ 60 ≠ copyDst f / 2 ^ 60 → t.readAt f.fn pb len = s.readAt f.fn pa len) ∧
          ∀ dst, pb = .host dst → t.mem = s.mem ∧
            (∀ a, a < dst ∨ dst + len ≤ a → t.readHost a 1 = s.readHost a 1) ∧
            ∀ o j, o < 0x800000 → j < 2 ^ 20 → t.reg o j = (s.finish f 0 0 len).reg o j))) ∧
  (∀ (fn : Fn) (n : Ring) (idx : Word) (f : Flight) (a b : Place) (s : State),
    s.ready fn n idx.toNat 3 = some f → copyRaw f = false → copyChecks f = [] →
    s.place f.fn (copySrc f) 0 = .ok a → s.place f.fn (copyDst f) 0 = .ok b →
    let c := Instr.baleCopy fn n idx []
    (copyCount f = 0 → exec c s = .next (s.finish f 1 0 0)) ∧
    (copyCount f ≠ 0 →
      let r := copyBales f.fn (copySrc f) (copyDst f) (copyStride f) (copyCount f) (copyCount f) 0 0
        ⟨s, 0, 0, 0, [], none, false⟩
      (∀ x xs, r.checks = x :: xs → r.cause = 0 → exec c s = .next (s.failDesc f (x :: xs))) ∧
      (r.checks = [] → r.cause = 0 → r.badHdr = none → r.down = false →
        exec c s = .next (r.st.finish f 0 0 r.moved)) ∧
      (r.checks = [] → r.cause = 0 → r.badHdr = none → r.down = true →
        exec c s = .next (r.st.finish f 0x20 0 r.moved)) ∧
      (∀ k x, r.checks = [] → r.cause = 0 → r.badHdr = some (k, x) → exec c s = .next (r.st.finish f 0x30 x k)) ∧
      (r.checks = [] → r.cause ≠ 0 →
        exec c s = .next (r.st.finish f 0x40 (r.cause + min r.poisoned 0xFFFFFF * 256) r.moved)))) ∧
  (∀ (fn : Fn) (n : Ring) (idx : Word) (f : Flight) (src dst src' dst' : Nat) (s : State),
    s.ready fn n idx.toNat 3 = some f → copyRaw f = false → copyChecks f = [] → copyCount f = 1 →
    s.place f.fn (copySrc f) 0 = .ok (.gddr src') → s.place f.fn (copyDst f) 0 = .ok (.host dst') →
    s.place f.fn (copySrc f) 64 = .ok (.gddr src) →
    let h := readHdr (s.readGddr f.fn src 64)
    copyHdrBad f.fn h = none → h.size ≠ 0 → s.place f.fn (copySrc f) h.size = .ok (.gddr src) →
    s.place f.fn (copyDst f) h.size = .ok (.host dst) → s.destFailed f.fn (.host dst) h.size = [] →
    s.placeDown f.fn (.gddr src) 64 = false → s.placeDown f.fn (.gddr src) h.size = false →
    s.gddrBad f.fn src h.size = false →
    ∃ (t : State) (u : State), exec (.baleCopy fn n idx []) s = .next t ∧
      t = (if h.flags % 2 = 1 then u.finish f 0x40 (0x0B + 256) h.size else u.finish f 0 0 h.size) ∧
      t.readHost dst h.size = s.readGddr f.fn src h.size ∧ t.mem = s.mem ∧
      ∀ a, a < dst ∨ dst + h.size ≤ a → t.readHost a 1 = s.readHost a 1)

/-! ## The shed (R49, R298 to R305) -/

/-- A SHED_READ or SHED_WRITE of at least one page that passes its checks starts, with every page still to
move; one of no pages ends OK_EMPTY, and one that fails its checks is refused (R49, R55, R300).
A page of a SHED_READ whose destination is host memory moves: the 16,384 bytes the page reads as (zeros
where no physical page is mapped) lie at its place, zeros where its flash page cannot be decoded, and nothing else in
host memory changes; a mapped page whose channel is in reset moves nothing; the last page of an operation ends it with
its status (R301).
A page of a SHED_WRITE from host memory is staged and, once its journal record is committed, reads as those 16,384
bytes to the same function; before that the flash is as it was; no other page's bytes change, and host memory and GDDR
are untouched (R301 to R303). -/
def Obligations.ShedOperationsMovePages : Prop :=
  (∀ (fn : Fn) (n : Ring) (idx : Word) (f : Flight) (write : Bool) (s : State),
    s.ready fn n idx.toNat (if write then 5 else 4) = some f →
    let c := if write then Instr.shedWrite fn n idx else Instr.shedRead fn n idx
    (∀ x xs, s.shedChecks f write = x :: xs → exec c s = .next (s.failDesc f (x :: xs))) ∧
    (s.shedChecks f write = [] → shedCount f = 0 → exec c s = .next (s.finish f 1 0 0)) ∧
    (s.shedChecks f write = [] → shedCount f ≠ 0 → ∃ t, exec c s = .next t ∧ t.mem = s.mem ∧
      t.shed.bytes = s.shed.bytes ∧ t.shed.maps = s.shed.maps ∧ t.host.waiting = s.host.waiting ∧
      (∃ o ∈ t.shed.ops, o.seq = f.seq ∧ o.fn = f.fn ∧ o.write = write ∧ o.first = shedPage f ∧
        o.count = shedCount f ∧ o.addr = shedAddr f ∧ o.left = List.range (shedCount f) ∧ o.staged = [] ∧
        o.moved = 0 ∧ o.failed = none ∧ o.deadline = shedDeadline f ∧ o.reset = false) ∧
      ∀ g ∈ t.host.flights, g.seq = f.seq → g.started = true ∧ g.taken = true)) ∧
  (∀ (fn : Fn) (n : Ring) (idx : Word) (k : Nat) (chan : ShedChan) (retries : Nat) (ok past : Bool) (s : State),
    s.shedOpAt fn n idx.toNat k false = none ∨ s.windowOpen (36 + chan) fn = false →
    exec (.shedPageReadDone fn n idx k chan retries ok past) s = .next s) ∧
  (∀ (fn : Fn) (n : Ring) (idx : Word) (k : Nat) (chan : ShedChan) (retries : Nat) (ok past : Bool) (o : ShedOp)
    (s : State), s.shedOpAt fn n idx.toNat k false = some o → s.windowOpen (36 + chan) fn = true →
    let pg := s.opPage o k
    let c := Instr.shedPageReadDone fn n idx k chan retries ok past
    (s.shedDown chan = true → (tabFind s.shed.maps pg).isSome = true → ∃ t, exec c s = .next t ∧
      t.mem = s.mem ∧ t.host.mem = s.host.mem ∧ t.shed.bytes = s.shed.bytes ∧
      ∀ x ∈ t.shed.ops, x.seq = o.seq → k ∉ x.left ∧ x.reset = true) ∧
    (∀ a, (s.shedDown chan = false ∨ tabFind s.shed.maps pg = none) →
      s.place o.fn (o.addr + k * pageSize) pageSize = .ok (.host a) →
      ∃ t, exec c s = .next t ∧ t.mem = s.mem ∧ t.shed.bytes = s.shed.bytes ∧ t.shed.maps = s.shed.maps ∧
        (ok = true ∨ tabFind s.shed.maps pg = none → t.readHost a pageSize = s.readShed o.fn pg) ∧
        (ok = false → (tabFind s.shed.maps pg).isSome = true →
          t.readHost a pageSize = List.replicate pageSize 0 ∧
          t.fld SHD_UE_PAGES_COUNT chan = min (s.fld SHD_UE_PAGES_COUNT chan + 1) 0xFFFFFFFF) ∧
        (∀ b, b < a ∨ a + pageSize ≤ b → t.readHost b 1 = s.readHost b 1) ∧
        (∀ x ∈ t.shed.ops, x.seq = o.seq → k ∉ x.left) ∧
        (∀ g, ok = true → o.left = [k] → (s.host.flights.find? fun h => h.seq == o.seq) = some g →
          g.muted = false → s.internalAux g.fn = none →
          ∃ r, t.host.waiting = s.host.waiting ++ [r] ∧ r.seq = some g.seq ∧ r.detail = o.moved + 1 ∧
            r.status = if o.failed.isSome then 0x40 else if o.reset then 0x20 else 0))) ∧
  (∀ (fn : Fn) (n : Ring) (idx : Word) (k : Nat) (chan : ShedChan) (upto : Fin 7) (fails : Nat) (past : Bool)
    (s : State), s.shedOpAt fn n idx.toNat k true = none ∨ s.windowOpen (36 + chan) fn = false →
    exec (.shedPageWriteDone fn n idx k chan upto fails past []) s = .next s) ∧
  (∀ (fn : Fn) (n : Ring) (idx : Word) (k : Nat) (chan : ShedChan) (upto : Fin 7) (past : Bool) (o : ShedOp)
    (s : State), s.shedOpAt fn n idx.toNat k true = some o → s.windowOpen (36 + chan) fn = true →
    s.shedDown chan = false → o ∈ s.shed.ops →
    let pg := s.opPage o k
    let c := Instr.shedPageWriteDone fn n idx k chan upto 0 past []
    let staged := o.staging k
    ((upto : Nat) ≤ staged.1 → exec c s = .next s) ∧
    (∀ a bs, staged.1 < upto →
      (staged.1 = 0 ∧ s.place o.fn (o.addr + k * pageSize) pageSize = .ok (.host a) ∧ bs = s.readHost a pageSize ∨
        staged.1 ≠ 0 ∧ bs = staged.2 ∧ bs.length = pageSize) →
      ∃ t, exec c s = .next t ∧ t.host.mem = s.host.mem ∧ t.mem = s.mem ∧
        ((upto : Nat) = 6 → 2 ≤ staged.1 ∨ s.flag CLK_STATUS_VIN_WARN = false →
          t.readShed o.fn pg = bs ∧ (∀ q, q ≠ pg → tabFind t.shed.maps q = tabFind s.shed.maps q) ∧
          (∀ b, b < pg * pageSize ∨ (pg + 1) * pageSize ≤ b →
            (tabFind t.shed.bytes b).getD 0 = (tabFind s.shed.bytes b).getD 0) ∧
          ∀ x ∈ t.shed.ops, x.seq = o.seq → k ∉ x.left) ∧
        ((upto : Nat) < 6 ∨ staged.1 < 2 ∧ s.flag CLK_STATUS_VIN_WARN = true →
          t.shed.bytes = s.shed.bytes ∧ t.shed.maps = s.shed.maps ∧
          ∃ x ∈ t.shed.ops, x.seq = o.seq ∧ x.staging k = (
            if staged.1 < 2 ∧ s.flag CLK_STATUS_VIN_WARN = true then max staged.1 1 else (upto : Nat), bs))))

/-! ## Yard Time settings and replays (R53, R54, R345, R474) -/

/-- A TIME_SET that passes its checks: bit 0 of APPLY sets the counter's next count and takes a new time
epoch, bit 1 the next period, with OK as its status; with neither it ends OK_EMPTY; one that fails its checks is
refused (R53, R345, R353).
A REPLAY_ARM that passes its checks arms the partition's replay of the plan with the recorded steps and
shows ARMED and how many are left; one that fails is REFUSED with the lowest cause of R474 as AUX; a good one of
no steps ends OK_EMPTY (R54, R55, R474). -/
def Obligations.TimeSetAndReplayArm : Prop :=
  (∀ (fn : Fn) (n : Ring) (idx : Word) (f : Flight) (s : State), s.ready fn n idx.toNat 9 = some f →
    let apply := fieldAt f.bytes 8 1
    let c := if apply.testBit 0 then Instr.timeSetCounter fn n idx
      else if apply % 4 = 2 then Instr.timeSetPeriod fn n idx else Instr.timeSetEmpty fn n idx
    (∀ x xs, timeSetChecks s f = x :: xs → exec c s = .next (s.failDesc f (x :: xs))) ∧
    (timeSetChecks s f = [] →
      (apply.testBit 0 = true → ∃ t u : State, exec (.timeSetCounter fn n idx) s = .next t ∧ t = u.finish f 0 0 0 ∧
        u.host = s.host ∧ u.mem = s.mem ∧
        t.yt = { s.yt with
          nextCount := some (fieldAt f.bytes 16 8)
          nextPeriod := if apply.testBit 1 then some (fieldAt f.bytes 10 2) else s.yt.nextPeriod } ∧
        t.fld YTM_PERIOD_EPOCH = (s.fld YTM_PERIOD_EPOCH + 1) % 256 ∧
        ∀ o j, regKey YTM_PERIOD_EPOCH.off 0 ≠ regKey o j → u.reg o j = s.reg o j) ∧
      (apply = 2 → exec (.timeSetPeriod fn n idx) s =
        .next (({ s with yt := { s.yt with nextPeriod := some (fieldAt f.bytes 10 2) } } : State).finish f 0 0 0)) ∧
      (apply = 0 → exec (.timeSetEmpty fn n idx) s = .next (s.finish f 1 0 0)))) ∧
  (∀ (fn : Fn) (n : Ring) (idx : Word) (f : Flight) (s : State), s.ready fn n idx.toNat 9 = some f →
    (fieldAt f.bytes 8 1 % 2 = 0 → exec (.timeSetCounter fn n idx) s = .next s) ∧
    (fieldAt f.bytes 8 1 % 4 ≠ 2 → exec (.timeSetPeriod fn n idx) s = .next s) ∧
    (fieldAt f.bytes 8 1 % 4 ≠ 0 → exec (.timeSetEmpty fn n idx) s = .next s)) ∧
  (∀ (fn : Fn) (n : Ring) (idx : Word) (f : Flight) (s : State), s.ready fn n idx.toNat 0xA = some f →
    (∀ x xs, armFields f = x :: xs → exec (.replayArm fn n idx) s = .next (s.failDesc f (x :: xs))) ∧
    (armFields f = [] →
      let p := f.fn - 1
      let check := s.armCheck p (armPlan f) (armSeq f) (armCount f) (armImport f)
      (∀ c, check = .error c → exec (.replayArm fn n idx) s = .next (s.finish f 0x30 c 0)) ∧
      (∀ begins, check = .ok begins →
        (armCount f = 0 → exec (.replayArm fn n idx) s = .next (s.finish f 1 0 0)) ∧
        (armCount f ≠ 0 → ∃ t u : State, exec (.replayArm fn n idx) s = .next t ∧ t = u.finish f 0 0 0 ∧
          tabFind t.yard.armed p = some ⟨armPlan f, begins, armImport f⟩ ∧ t.yard.plans = s.yard.plans ∧
          t.flag DAY_STATUS_ARMED f.fn = true ∧ t.fld DAY_REPLAY_PLAN_PLAN f.fn = armPlan f ∧
          t.fld DAY_REPLAY_LEFT_COUNT f.fn = begins.length % 2 ^ 32 ∧ u.host = s.host ∧ u.mem = s.mem))))

/-! ## Partitions (R398 to R408) -/

/-- The life of a partition. ENABLE makes a FREE one with a valid configuration ACTIVE under keys never drawn
before, and refuses an invalid one with its lowest cause; RELEASE makes an ACTIVE one SCRUBBING with its
function reset, and any other is refused with cause 0x9 and nothing else; once its work has ended the scrub destroys
its keys and leaves nothing of its GDDR or scratch, and no other partition's GDDR is touched; then it is FREE with
SCRUB_DONE. WHISTLE, alone or beside an ENABLE of a partition that is not FREE, changes only itself (R398, R402, R403,
R405). -/
def Obligations.PartitionLifecycle : Prop :=
  ∀ (p : Part) (s : State),
    (∀ val : Word, bitOf val 0 = true → bitOf val 1 = false → s.prtState p = 0 →
      (s.prtCause p = none → ∃ t, exec (.prtEnable p val) s = .next t ∧ t.prtState p = 1 ∧
        t.flag (PRT_CTRL_ENABLE p) = true ∧ t.flag (PRT_CTRL_WHISTLE p) = bitOf val 2 ∧
        tabFind t.parts.keys p = some (s.parts.draws + 1) ∧
        t.parts.draws = s.parts.draws + 1 ∧ t.mem.scratch = s.mem.scratch ∧ t.host = s.host ∧
        (s.gddrs.marked = [] → t.mem = s.mem) ∧
        ∀ q : Part, q ≠ p → t.prtState q = s.prtState q ∧ tabFind t.parts.keys q = tabFind s.parts.keys q) ∧
      (∀ c, s.prtCause p = some c → ∃ t, exec (.prtEnable p val) s = .next t ∧ t.prtState p = 0 ∧
        t.flag PRT_STATUS_SETUP_ERR = true ∧ t.parts = s.parts ∧
        (s.flag PRT_STATUS_SETUP_ERR = false → t.fld PRT_SETUP_ERR_CODE_CODE = c ∧
          t.fld PRT_SETUP_ERR_CODE_PART = p))) ∧
    (∀ val : Word, bitOf val 1 = true →
      (s.prtState p = 1 → ∃ t, exec (.prtRelease p val) s = .next t ∧ t.prtState p = 2 ∧
        t.flag (PRT_CTRL_WHISTLE p) = bitOf val 2 ∧
        t.fnLive (p + 1) = false ∧ tabFind t.parts.release p = some 1 ∧
        (∀ f ∈ t.host.flights, f.fn = p + 1 → f.started = true ∧ f.muted = true) ∧
        ∀ q : Part, q ≠ p → t.prtState q = s.prtState q) ∧
      (s.prtState p ≠ 1 → ∃ t, exec (.prtRelease p val) s = .next t ∧
        t.prtState p = s.prtState p ∧ t.flag PRT_STATUS_SETUP_ERR = true ∧ t.parts = s.parts ∧ t.host = s.host ∧
        t.reg (PRT_CTRL p) = s.reg (PRT_CTRL p) ∧
        (s.flag PRT_STATUS_SETUP_ERR = false → t.fld PRT_SETUP_ERR_CODE_CODE = 9))) ∧
    (tabFind s.parts.release p ≠ some 1 → exec (.releaseScrub p) s = .next s) ∧
    (tabFind s.parts.release p = some 1 →
      (s.workEnded p = false → exec (.releaseScrub p) s = .next s) ∧
      (s.workEnded p = true → ∃ t, exec (.releaseScrub p) s = .next t ∧ tabFind t.parts.release p = some 2 ∧
        tabFind t.parts.keys p = none ∧ (∀ k : Nat, k / 2 ^ 48 = p + 1 → tabFind t.mem.gddr k = none) ∧
        (∀ k : Nat, k / 2 ^ 48 ≠ p + 1 → tabFind t.mem.gddr k = tabFind s.mem.gddr k) ∧
        (∀ c ∈ s.coresOf p, ∀ o, o < 2 ^ 22 → t.readScratch c o 1 = [0]) ∧
        ∀ c ∉ s.coresOf p, ∀ o, o < 2 ^ 22 → t.readScratch c o 1 = s.readScratch c o 1)) ∧
    (∀ ms, (tabFind s.parts.release p ≠ some 2 → exec (.releaseDone p ms) s = .next s) ∧
      (tabFind s.parts.release p = some 2 → ∃ t, exec (.releaseDone p ms) s = .next t ∧
        t.prtState p = 0 ∧ t.flag (PRT_STATE_SCRUB_DONE p) = true ∧ tabFind t.parts.release p = none ∧
        t.reg (PRT_SCRUB_MS p) = BitVec.ofNat 32 ms)) ∧
    (∀ val : Word, bitOf val 1 = false → bitOf val 0 = false ∨ s.prtState p ≠ 0 →
      ∀ c ∈ [Instr.prtWhistleWrite p val, Instr.prtEnable p val], ∃ t, exec c s = .next t ∧
        t.flag (PRT_CTRL_WHISTLE p) = bitOf val 2 ∧
        t.parts = s.parts ∧ t.host = s.host ∧ ∀ o j, regKey (PRT_CTRL p) 0 ≠ regKey o j → t.reg o j = s.reg o j)

/-- What the owner may change when. A partition's configuration registers take a write only while it is FREE
(cause 0x7 otherwise), and the owner region's size while every partition is FREE; isolation mode is entered only
while signed Nynik runs and every partition is FREE (cause 0x8), and no write leaves it; a window map changes at once
while no step executes, without its reserved bits, and is held otherwise (R398, R404, R406, R408). -/
def Obligations.OwnerConfiguresIdlePartitions : Prop :=
  (∀ (p : Part) (r : Nat) (row : RegRow) (val : Word) (s : State), 8 ≤ r → r ≤ 0x24 → r % 4 = 0 →
    let off := 0x0400100 + 0x40 * p + r
    rowOf off = some row →
    (s.prtState p = 0 → ∃ t, exec (.prtConfigWrite off val) s = .next t ∧
      t.reg off = (s.reg off &&& ~~~accMask row .rw) ||| (val &&& accMask row .rw) ∧
      ∀ o j, regKey off 0 ≠ regKey o j → t.reg o j = s.reg o j) ∧
    (s.prtState p ≠ 0 → ∃ t, exec (.prtConfigWrite off val) s = .next t ∧ t.reg off = s.reg off ∧
      t.flag PRT_STATUS_SETUP_ERR = true ∧
      (s.flag PRT_STATUS_SETUP_ERR = false → t.fld PRT_SETUP_ERR_CODE_CODE = 7))) ∧
  (∀ (val : Word) (s : State),
    (s.allFree = true → ∃ t, exec (.prtConfigWrite PRT_OWNER_LINES val) s = .next t ∧
      t.fld PRT_OWNER_LINES_LINES = getBits val PRT_OWNER_LINES_LINES.lo PRT_OWNER_LINES_LINES.w ∧
      t.parts = s.parts ∧ t.host = s.host) ∧
    (s.allFree = false → ∃ t, exec (.prtConfigWrite PRT_OWNER_LINES val) s = .next t ∧
      t.reg PRT_OWNER_LINES = s.reg PRT_OWNER_LINES ∧ t.flag PRT_STATUS_SETUP_ERR = true ∧
      (s.flag PRT_STATUS_SETUP_ERR = false → t.fld PRT_SETUP_ERR_CODE_CODE = 7))) ∧
  (∀ (val : Word) (s : State),
    (bitOf val 0 = true → s.flag PRT_MODE_SIGNED = true → s.allFree = true →
      ∃ t, exec (.isolateWrite val) s = .next t ∧ t.isolated = true) ∧
    (bitOf val 0 = true → s.flag PRT_MODE_SIGNED = false ∨ s.allFree = false →
      ∃ t, exec (.isolateWrite val) s = .next t ∧ t.isolated = s.isolated ∧
        t.flag PRT_STATUS_SETUP_ERR = true ∧
        (s.flag PRT_STATUS_SETUP_ERR = false → t.fld PRT_SETUP_ERR_CODE_CODE = 8)) ∧
    (bitOf val 0 = false → exec (.isolateWrite val) s = .next s)) ∧
  (∀ (i : Fin 56) (k : Fin 8) (val : Word) (s : State),
    let off := PRT_WINDOW i k
    (s.executing = false → ∃ t, exec (.windowMapWrite off val) s = .next t ∧ t.reg off = val &&& 0xC7FFC7FF ∧
      t.parts = s.parts) ∧
    (s.executing = true → ∃ t, exec (.windowMapWrite off val) s = .next t ∧ t.regs = s.regs ∧
      tabFind t.parts.heldWindows off = some val))

/-! ## The Bell (R432 to R442) -/

/-- Deliveries and completions. The decision takes the lowest deliverable source of a function; the commit
puts its message on PCIe and makes it ACTIVE where its vector is open, and otherwise leaves it PENDING with
the PBA bit of a masked vector, or has no delivery where the source is no longer pending; a completion makes
an ACTIVE source inactive, and one of a source that is not active is stray (R433 to R436). -/
def Obligations.BellDeliversAndCompletes : Prop :=
  (∀ (fn : Fn) (src : Nat) (s : State), tabFind s.bell.decided fn = none → src < fenceSize fn →
    s.deliverable fn src = true → (∀ k, k < src → s.deliverable fn k = false) →
    ∃ t, exec (.bellDecision fn) s = .next t ∧ t.regs = s.regs ∧ t.host = s.host ∧
      tabFind t.bell.decided fn = some ⟨src, s.bellRoute fn src, s.flag BEL_CTRL_VX2_COMPAT fn⟩) ∧
  (∀ (fn : Fn) (s : State), (∀ k, k < fenceSize fn → s.deliverable fn k = false) →
    exec (.bellDecision fn) s = .next s) ∧
  (∀ (fn : Fn) (d : Delivery) (s : State), tabFind s.bell.decided fn = some d → d.src < 1024 →
    let v := s.msixVec fn d.vec
    ∃ t, exec (.bellCommit fn) s = .next t ∧ tabFind t.bell.decided fn = none ∧
      (s.bellP fn d.src = false → t.host.msgs = s.host.msgs ∧ t.regs = s.regs) ∧
      (s.bellP fn d.src = true → s.msixOpen fn = true → v.masked = false →
        d.compat = true ∨ s.bellMasked fn d.src = false →
        t.host.msgs = s.host.msgs ++ [(v.addr, v.data)] ∧ t.bellP fn d.src = false ∧ t.bellA fn d.src = true ∧
        t.fld BEL_DELIVERED_COUNT fn = min (s.fld BEL_DELIVERED_COUNT fn + 1) 0xFFFFFFFF) ∧
      (s.bellP fn d.src = true →
        s.msixOpen fn = false ∨ v.masked = true ∨ d.compat = false ∧ s.bellMasked fn d.src = true →
        t.host.msgs = s.host.msgs ∧ t.regs = s.regs ∧ (v.masked = true → t.pbaBit fn d.vec = true))) ∧
  (∀ (fn : Fn) (val : Word) (s : State), s.fnLive fn = true → getBits val 12 20 = 0 →
    let src := getBits val 0 12
    (bellAssigned fn src = true → s.bellA fn src = true → ∃ t, exec (.belComplete fn val) s = .next t ∧
      t.bellA fn src = false ∧ t.bellP fn src = s.bellP fn src) ∧
    (bellAssigned fn src = true → s.bellA fn src = false → ∃ t, exec (.belComplete fn val) s = .next t ∧
      t.fld BEL_STRAY_COUNT_COUNT fn = min (s.fld BEL_STRAY_COUNT_COUNT fn + 1) 0xFFFFFFFF ∧
      t.host = s.host) ∧
    (bellAssigned fn src = false → ∃ t, exec (.belComplete fn val) s = .next t ∧
      t.flag BEL_STATUS_VIOL fn = true ∧
      (s.flag BEL_STATUS_VIOL fn = false → t.fld BEL_VIOL_CODE_CODE fn = 3)))

/-- Raises. Through its Bell doorbell a software source that is idle and enabled becomes PENDING, an ACTIVE one
is pending again, and one not enabled is dropped and counted; a source that is not of software is a violation;
the doorbell's other form completes a source. A 1 written to BEL_PENDING removes a pending source, but for one
raised in the same cc. A latch of the always-on domain raises its source once the clock runs, and empties
(R433, R434, R438 to R440). -/
def Obligations.BellRaises : Prop :=
  (∀ (fn page : Fn) (val : Word) (s : State), s.fnLive fn = true → pageFn page = fn →
    getBits val 12 19 = 0 →
    let src := getBits val 0 12
    let c := Instr.bellDoorbellRaise fn page val
    (bellSoftware fn src = true → s.bellP fn src = false → s.bellA fn src = false →
      (bitOf (s.reg BEL_ENABLE (bellInst fn src)) (src % 32) = true →
        ∃ t, exec c s = .next t ∧ t.bellP fn src = true ∧ t.bellA fn src = false) ∧
      (bitOf (s.reg BEL_ENABLE (bellInst fn src)) (src % 32) = false → ∃ t, exec c s = .next t ∧
        t.bellP fn src = false ∧
        t.fld BEL_DROPPED_COUNT fn = min (s.fld BEL_DROPPED_COUNT fn + 1) 0xFFFFFFFF)) ∧
    (bellSoftware fn src = true → s.bellA fn src = true → s.bellP fn src = false →
      ∃ t, exec c s = .next t ∧ t.bellP fn src = true ∧ t.bellA fn src = true) ∧
    (bellSoftware fn src = false → ∃ t, exec c s = .next t ∧ t.flag BEL_STATUS_VIOL fn = true ∧
      (s.flag BEL_STATUS_VIOL fn = false → t.fld BEL_VIOL_CODE_CODE fn = 2)) ∧
    (bellAssigned fn src = true → s.bellA fn src = true →
      ∃ t, exec (.bellDoorbellComplete fn page val) s = .next t ∧ t.bellA fn src = false)) ∧
  (∀ (fn : Fn) (val : Word) (k : Nat) (s : State), s.fnLive fn = true → k < 32 →
    let src := 32 * s.fld BEL_SEL_GROUP fn + k
    (∃ t, exec (.belPendingWrite fn val 0) s = .next t ∧
      t.bellP fn src = (s.bellP fn src && !bitOf val k) ∧ t.bellA fn src = s.bellA fn src) ∧
    ∀ raised : Word, bitOf raised k = true → s.bellP fn src = true → bellAssigned fn src = true →
      ∃ t, exec (.belPendingWrite fn val raised) s = .next t ∧ t.bellP fn src = true) ∧
  (∀ (s : State), s.clk.ccOn = true → ∃ t, exec .latchRaise s = .next t ∧ t.bell.latches = [] ∧
    ∀ l ∈ s.bell.latches, bellAssigned 0 l.1 = true → s.bellA 0 l.1 = false →
      bitOf (s.reg BEL_ENABLE (bellInst 0 l.1)) (l.1 % 32) = true → t.bellP 0 l.1 = true)

/-! ## The Ostler's pool and the owner's quotas (R200, R201, R223, R226, R233) -/

/-- The registers of a pool. An enable whose configuration passes makes the pool ENABLED with its page sizes
shown, and one that fails leaves it disabled with its lowest cause; a disable is ignored with cause 0x8 while a
stream is open, and otherwise drops the nodes; a frame count is stored while the pool is disabled, and while it
is enabled only where it does not fall and fits (R200, R201). -/
def Obligations.PoolRegisters : Prop :=
  ∀ (p : Part) (fn : Fn) (val : Word) (s : State), (fn : Nat) = p + 1 → s.fnLive fn = true →
    let refused := fun (t : State) (c : Nat) => t.kv = s.kv ∧ t.kvOn p = s.kvOn p ∧
      t.flag OST_STATUS_SETUP_ERR p = true ∧
      (s.flag OST_STATUS_SETUP_ERR p = false → t.fld OST_SETUP_ERR_CODE_CODE p = c)
    (bitOf val 0 = true → s.kvOn p = false →
      (s.ostCause p = none → ∃ t, exec (.ostEnable fn val) s = .next t ∧ t.kvOn p = true ∧
        t.fld OST_PAGE_BYTES_BYTES p = s.pageBytes p ∧ t.fld OST_MANGER_BYTES_BYTES p = s.mangerBytes p ∧
        t.kv = s.kv ∧ t.mem = s.mem ∧ t.host = s.host) ∧
      ∀ c, s.ostCause p = some c → ∃ t, exec (.ostEnable fn val) s = .next t ∧ refused t c) ∧
    (bitOf val 0 = false → s.kvOn p = true →
      (s.openStreams p = [] → ∃ t, exec (.ostDisable fn val) s = .next t ∧ t.kvOn p = false ∧
        t.nodesOf p = [] ∧ t.mem = s.mem ∧ t.host = s.host) ∧
      (s.openStreams p ≠ [] → ∃ t, exec (.ostDisable fn val) s = .next t ∧ refused t 8)) ∧
    ∀ host : Bool,
      let f := if host then OST_HOST_FRAMES_COUNT else OST_POOL_FRAMES_COUNT
      let n := getBits val 0 23
      let u := s.setFld f p n
      (s.kvOn p = false → ∃ t, exec (.poolFramesWrite fn host val) s = .next t ∧ t.fld f p = n ∧ t.kv = s.kv) ∧
      (s.kvOn p = true → n < s.fld f p ∨ u.overQuota p = true ∨ u.regionsBad p = true →
        ∃ t, exec (.poolFramesWrite fn host val) s = .next t ∧ t.fld f p = s.fld f p ∧ refused t 8) ∧
      (s.kvOn p = true → s.fld f p ≤ n → u.overQuota p = false → u.regionsBad p = false →
        (∀ x ∈ s.kv.stalls, x.1 ≠ p) →
        ∃ t, exec (.poolFramesWrite fn host val) s = .next t ∧ t.fld f p = n ∧ t.kv = s.kv ∧ t.kvOn p = true)

/-- The owner's quotas and keys. A frame or node quota that keeps the sum over the partitions within the module's
limit (and covers the frames of an enabled pool) is stored; any other leaves every quota and sets QUOTA_ERR. The
words of a pedigree key are held until word 3 commits all four, and the partition's nodes go then; isolation mode
ignores them (R226, R233). -/
def Obligations.OwnerQuotasAndPedigreeKeys : Prop :=
  ∀ (p : Part) (val : Word) (s : State),
    (let q := getBits val 0 23
      let rest := ((List.finRange 32).map fun k : Part =>
        if k = p then 0 else s.fld (OST_PART_FRAMES_QUOTA k)).sum
      let used := if s.kvOn p then s.fld OST_POOL_FRAMES_COUNT p + s.fld OST_HOST_FRAMES_COUNT p else 0
      (rest + q ≤ 4194304 → used ≤ q → ∃ t, exec (.ostPartFramesWrite p val) s = .next t ∧
        t.fld (OST_PART_FRAMES_QUOTA p) = q ∧
        ∀ o j, regKey (OST_PART_FRAMES_QUOTA p).off 0 ≠ regKey o j → t.reg o j = s.reg o j) ∧
      (4194304 < rest + q ∨ q < used → ∃ t, exec (.ostPartFramesWrite p val) s = .next t ∧
        t.flag (OST_PART_STATUS_QUOTA_ERR p) = true ∧
        ∀ o j, regKey (OST_PART_STATUS_QUOTA_ERR p).off 0 ≠ regKey o j → t.reg o j = s.reg o j)) ∧
    (let q := getBits val 0 21
      let rest := ((List.finRange 32).map fun k : Part =>
        if k = p then 0 else s.fld (PED_PART_NODES_QUOTA k)).sum
      (rest + q ≤ 1048576 → ∃ t, exec (.pedPartNodesWrite p val) s = .next t ∧
        t.fld (PED_PART_NODES_QUOTA p) = q ∧
        ∀ o j, regKey (PED_PART_NODES_QUOTA p).off 0 ≠ regKey o j → t.reg o j = s.reg o j) ∧
      (1048576 < rest + q → ∃ t, exec (.pedPartNodesWrite p val) s = .next t ∧
        t.flag (OST_PART_STATUS_QUOTA_ERR p) = true ∧
        ∀ o j, regKey (OST_PART_STATUS_QUOTA_ERR p).off 0 ≠ regKey o j → t.reg o j = s.reg o j)) ∧
    (∀ w : Fin 4,
      (s.isolated = true → exec (.pedKeyWrite p w val) s = .next s) ∧
      (s.isolated = false → (w : Nat) ≠ 3 → ∃ t, exec (.pedKeyWrite p w val) s = .next t ∧ t.regs = s.regs ∧
        tabFind t.kv.keyWords (p * 4 + w) = some val ∧ t.kv.keys = s.kv.keys ∧ t.kv.nodes = s.kv.nodes) ∧
      (s.isolated = false → (w : Nat) = 3 → ∃ t, exec (.pedKeyWrite p w val) s = .next t ∧ t.nodesOf p = [] ∧
        let k := fun i => (tabGet 0 s.kv.keyWords (p * 4 + i)).toNat
        tabFind t.kv.keys p = some (k 0 + 2 ^ 32 * k 1 + 2 ^ 64 * k 2 + 2 ^ 96 * val.toNat)))

/-! ## The key-value cache (R199 to R233) -/

/-- OPEN, COMMIT and CLOSE of a KV_OP (R216). Its checks pass: OPEN gives the stream a context whose marks
are all at START, no page and a manger buffer; COMMIT moves the COMMIT mark by its count and, where it
discards drafts, FILL back to it (with nothing to do it ends OK_EMPTY), and flushes a stream opened with
FLUSH_ON_COMMIT, which stalls with NO_PAGE where no frame can be taken; CLOSE makes the stream FREE and
drops its references. No other stream changes but for the frames that a flush takes. Its checks fail: it is refused
with the cause of R217 (R57, R218). -/
def Obligations.StreamMarksOpenCommitClose : Prop :=
  ∀ (fn : Fn) (n : Ring) (idx : Word) (f : Flight) (s : State), s.ready fn n idx.toNat 6 = some f →
    let p := f.fn - 1
    let sid := kvSid f
    let other := fun t : State => ∀ k, k ≠ streamKey p sid → tabFind t.kv.streams k = tabFind s.kv.streams k
    (∀ x xs, s.kvChecks f = x :: xs →
      (kvSub f = 1 → exec (.kvOpen fn n idx) s = .next (s.failDesc f (x :: xs))) ∧
      (kvSub f = 3 → exec (.kvCommit fn n idx) s = .next (s.failDesc f (x :: xs))) ∧
      (kvSub f = 4 → exec (.kvClose fn n idx) s = .next (s.failDesc f (x :: xs)))) ∧
    (s.kvChecks f = [] →
      (kvSub f = 1 → ∃ (t u : State) (x : Stream), exec (.kvOpen fn n idx) s = .next t ∧ t = u.finish f 0 0 0 ∧
        t.stream p sid = some x ∧
        x.state = 1 ∧ x.start = kvArg0 f % 2 ^ 32 ∧ x.flushed = x.start ∧ x.commit = x.start ∧ x.fill = x.start ∧
        x.domain = kvArg0 f / 2 ^ 32 ∧ x.window = kvArg1 f % 2 ^ 16 ∧ x.foc = (kvArg1 f).testBit 16 ∧
        x.table = [] ∧ s.freeManger p = some x.manger ∧ t.kv.refs = s.kv.refs ∧ other t) ∧
      (∀ x, kvSub f = 3 → s.stream p sid = some x →
        let commit := x.commit + kvArg0 f
        let fill := if (kvArg1 f).testBit 0 then commit else x.fill
        ((kvArg1 f).testBit 0 = true ∨ kvArg0 f ≠ 0 →
          (x.foc = false → ∃ (t u : State) (y : Stream), exec (.kvCommit fn n idx) s = .next t ∧
            t = u.finish f 0 0 0 ∧ t.stream p sid = some y ∧ y.state = x.state ∧ y.start = x.start ∧
            y.flushed = x.flushed ∧ y.commit = commit ∧ y.fill = fill ∧ y.table = x.table ∧ y.manger = x.manger ∧
            other t) ∧
          (x.foc = true → ∃ (t u : State) (y : Stream) (ok : Bool) (code : Option Nat),
            exec (.kvCommit fn n idx) s = .next t ∧
            t = (match code with
              | some c => u.finish f 0x40 c 0
              | none => u.finish f (if ok then 0 else 0x31) 0 0) ∧
            t.stream p sid = some y ∧ y.start = x.start ∧ y.commit = commit ∧ y.fill = fill ∧
            (ok = true → y.state = 1) ∧ (ok = false → y.state = 3))) ∧
        ((kvArg1 f).testBit 0 = false → kvArg0 f = 0 → ∃ t u, exec (.kvCommit fn n idx) s = .next t ∧
          t = State.finish u f 1 0 0 ∧ u.kv = s.kv)) ∧
      (∀ x, kvSub f = 4 → s.stream p sid = some x → ∃ t u, exec (.kvClose fn n idx) s = .next t ∧
        t = State.finish u f 0 0 0 ∧ t.stream p sid = none ∧ (p, sid) ∉ t.kv.stalls ∧
        (∀ fr, (∀ e ∈ x.table, e.2 ≠ fr) → t.refs p fr = s.refs p fr) ∧
        (∀ fr, (∃ e ∈ x.table, e.2 = fr ∧ s.refs p fr = 1) → t.refs p fr = 0) ∧ other t))

/-- FLUSH of a stream whose marks are in order (R207, R212, R216): where every block finds a frame, FLUSHED
moves up to the highest position a flush may reach (COMMIT, or for a block-scaled pool its last whole 32
tokens), the stream is OPEN, and the record is OK with the pages written; where one does not, the stream is STALLED
with NO_PAGE; a bad sector of the manger that it reads makes the record DATA_ERROR with its unit code, whichever of
the two (R16, R461). COMMIT, FILL and START stay. One that fails its checks is refused. A retry of stalls gives a
stream that stalled the same flush (R221, R222). -/
def Obligations.StreamFlushReachesCommit : Prop :=
  (∀ (fn : Fn) (n : Ring) (idx : Word) (f : Flight) (s : State),
    s.ready fn n idx.toNat 6 = some f → kvSub f = 2 →
    (∀ x xs, s.kvChecks f = x :: xs → exec (.kvFlush fn n idx) s = .next (s.failDesc f (x :: xs))) ∧
    ∀ x, s.kvChecks f = [] → s.stream (f.fn - 1) (kvSid f) = some x →
      ∃ (t u : State) (ok : Bool) (k : Nat) (y : Stream), exec (.kvFlush fn n idx) s = .next t ∧
        t = (match s.flushCode (f.fn - 1) (kvSid f) with
          | some c => u.finish f 0x40 c k
          | none => u.finish f (if ok then 0 else 0x31) 0 k) ∧
        t.stream (f.fn - 1) (kvSid f) = some y ∧
        y.start = x.start ∧ y.commit = x.commit ∧ y.fill = x.fill ∧
        (ok = true → y.state = 1) ∧
        (ok = true → x.start ≤ x.flushed → x.flushed ≤ x.commit → x.commit ≤ x.fill →
          x.fill ≤ x.flushed + 256 → y.flushed = max x.flushed (s.flushTo (f.fn - 1) x)) ∧
        (ok = false → y.state = 3 ∧ ((f.fn - 1, kvSid f) ∈ t.kv.stalls ∨ x.state = 3))) ∧
  (∀ (p : Part) (sid : Nat) (x : Stream) (s : State), s.stream p sid = some x →
    (s.kv.stalls.filter fun e => e.1 == (p : Nat)) = [((p : Nat), sid)] →
    ∃ t, exec (.stallRetry p) s = .next t ∧
      ((s.flush p sid).2.1 = true → (∃ y, t.stream p sid = some y ∧ y.state = 1) ∧ ((p : Nat), sid) ∉ t.kv.stalls) ∧
      ((s.flush p sid).2.1 = false → (∃ y, t.stream p sid = some y ∧ y.state = 3) ∧ ((p : Nat), sid) ∈ t.kv.stalls)) ∧
  ∀ (p : Part) (s : State), (∀ e ∈ s.kv.stalls, ¬e.1 = (p : Nat)) → exec (.stallRetry p) s = .next s

/-- FORK gives the child the parent's context with its marks at P and the parent's frames of the blocks
below P, each held once more; the parent keeps its own. PED_INSERT never takes a partition over its node
quota; PED_MATCH puts the stream's marks after the blocks it hit; of no tokens it ends OK_EMPTY, of poisoned ones
DATA_ERROR and of a place in reset TARGET_RESET, its stream as it was. One that fails its checks is refused. A
reserved SUBOP is REFUSED under violation 0x06 with byte 8 (R50, R216, R218, R227, R228, R230, R283, R461). -/
def Obligations.StreamForkAndPedigree : Prop :=
  (∀ (fn : Fn) (n : Ring) (idx : Word) (f : Flight) (x : Failed) (xs : List Failed) (s : State),
    s.ready fn n idx.toNat 6 = some f → s.kvChecks f = x :: xs →
    (kvSub f = 5 → exec (.kvFork fn n idx) s = .next (s.failDesc f (x :: xs))) ∧
    (kvSub f = 6 → exec (.pedInsert fn n idx) s = .next (s.failDesc f (x :: xs))) ∧
    (kvSub f = 7 → exec (.pedMatch fn n idx) s = .next (s.failDesc f (x :: xs)))) ∧
  (∀ (fn : Fn) (n : Ring) (idx : Word) (f : Flight) (s : State), s.ready fn n idx.toNat 6 = some f →
    s.kvChecks f = [] →
    let p := f.fn - 1
    let sid := kvSid f
    (∀ par, kvSub f = 5 → s.stream p (kvArg0 f % 2 ^ 32) = some par → tabWf par.table →
      let at_ := kvArg0 f / 2 ^ 32
      ∃ (t u : State) (x : Stream), exec (.kvFork fn n idx) s = .next t ∧ t = u.finish f 0 0 0 ∧
        t.stream p sid = some x ∧ x.state = 1 ∧ x.start = par.start ∧ x.domain = par.domain ∧ x.flushed = at_ ∧ x.commit = at_ ∧
        x.fill = at_ ∧ t.stream p (kvArg0 f % 2 ^ 32) = some par ∧
        (∀ w, tabFind x.table w = if par.start + 256 * w < at_ then tabFind par.table w else none) ∧
        ∀ fr, t.refs p fr = s.refs p fr +
          (par.table.filter fun e => decide (par.start + 256 * e.1 < at_) && e.2 == fr).length) ∧
    (∀ x, kvSub f = 6 → s.stream p sid = some x → tabWf s.kv.nodes →
      (s.nodesOf p).length ≤ s.fld (PED_PART_NODES_QUOTA p) →
      ∃ (t u : State) (made : Nat), exec (.pedInsert fn n idx) s = .next t ∧ t = u.finish f 0 0 made ∧
        (t.nodesOf p).length ≤ s.fld (PED_PART_NODES_QUOTA p) ∧ t.kv.refs = s.kv.refs) ∧
    (∀ pl x, kvSub f = 7 → kvArg1 f % 2 ^ 32 ≠ 0 → s.stream p sid = some x →
      s.place f.fn (kvArg0 f) (4 * (kvArg1 f % 2 ^ 32)) = .ok pl →
      s.badAt f.fn pl (4 * (kvArg1 f % 2 ^ 32)) = true ∨ s.placeDown f.fn pl (4 * (kvArg1 f % 2 ^ 32)) = true →
      ∃ (t u : State), exec (.pedMatch fn n idx) s = .next t ∧ u.kv = s.kv ∧
        t = (if s.badAt f.fn pl (4 * (kvArg1 f % 2 ^ 32)) = true then
          u.finish f 0x40 (s.badCode f.fn pl (4 * (kvArg1 f % 2 ^ 32))) 0 else u.finish f 0x20 0 0)) ∧
    (∀ pl x, kvSub f = 7 → kvArg1 f % 2 ^ 32 ≠ 0 → s.stream p sid = some x →
      s.place f.fn (kvArg0 f) (4 * (kvArg1 f % 2 ^ 32)) = .ok pl →
      s.badAt f.fn pl (4 * (kvArg1 f % 2 ^ 32)) = false →
      s.placeDown f.fn pl (4 * (kvArg1 f % 2 ^ 32)) = false →
      ∃ (t u : State) (hits : Nat) (y : Stream), exec (.pedMatch fn n idx) s = .next t ∧
        t = u.finish f 0 0 hits ∧ hits ≤ kvArg1 f % 2 ^ 32 / 256 ∧ t.stream p sid = some y ∧
        y.start = x.start ∧ y.flushed = x.start + 256 * hits ∧ y.commit = y.flushed ∧ y.fill = y.flushed) ∧
    (kvSub f = 7 → kvArg1 f % 2 ^ 32 = 0 → ∃ t u, exec (.pedMatch fn n idx) s = .next t ∧
      t = State.finish u f 1 0 0 ∧ u.kv = s.kv)) ∧
  (∀ (fn : Fn) (n : Ring) (idx : Word) (f : Flight) (s : State), s.ready fn n idx.toNat 6 = some f →
    (1 ≤ kvSub f ∧ kvSub f < 8 → exec (.kvOpReserved fn n idx) s = .next s) ∧
    ((kvSub f = 0 ∨ 8 ≤ kvSub f) → ∃ k, exec (.kvOpReserved fn n idx) s =
        .next ((s.hostViolation f.fn 6 k).finish f 0x30 (if f.fn = 0 then 0x12 else 0) 0) ∧
      k = min 8 ((reservedByte f.bytes [(8, 1), (12, 4), (16, 16)] []).getD 8)))

/-! ## Steps (R47, R255, R258, R351, R358) -/

/-- A scheduled step starts once Yard Time has reached its start beat, and not before; it keeps its plan,
step number, seed and start beat. GNF becomes final once no gradient collective of the step is open, and
every core of the partition shows it. A step whose work has ended gives one record of its worst status and
leaves nothing behind in the cores and drovers of the partition, INTERNAL while an internal fault stands (R463); one
whose work has not ended goes on. That status is the highest of those that apply, DATA_ERROR and LINK_ERROR over TARGET_RESET, that over what still is
OK, and OK with none of them (R16, R461). -/
def Obligations.StepLifecycle : Prop :=
  (∀ (p : Part) (st : Step) (pl : Plan) (s : State), s.stepOf p = some st → s.stepPlan p = some pl →
    (st.running = false → st.startBeat ≤ s.beat → s.flag CLK_STATUS_VIN_WARN = false →
      ∃ (t : State) (u : Step), exec (.stepStart p) s = .next t ∧ t.stepOf p = some u ∧ u.running = true ∧
        u.seq = st.seq ∧ u.plan = st.plan ∧ u.step = st.step ∧ u.seed = st.seed ∧ u.startBeat = st.startBeat) ∧
    (s.beat < st.startBeat ∨ st.running = true ∨ s.flag CLK_STATUS_VIN_WARN = true →
      exec (.stepStart p) s = .next s)) ∧
  (∀ (p : Part) (st : Step) (pl : Plan) (s : State), s.stepOf p = some st → s.stepPlan p = some pl →
    st.gnfFinal = true ∨ st.running = false ∨
      (∃ r ∈ st.colls, r.done = false ∧ ((pl.colls[r.coll]?).map (·.grad)).getD false = true) →
    exec (.gnfFinal p) s = .next s) ∧
  (∀ (p : Part) (st : Step) (pl : Plan) (s : State), s.stepOf p = some st → s.stepPlan p = some pl →
    st.gnfFinal = false → st.running = true →
    (∀ r ∈ st.colls, r.done = true ∨ ((pl.colls[r.coll]?).map (·.grad)).getD false = false) →
    ∃ (t : State) (u : Step), exec (.gnfFinal p) s = .next t ∧ t.stepOf p = some u ∧ u.gnfFinal = true ∧
      u.gnf = st.gnf ∧ t.mem = s.mem ∧ t.host = s.host ∧
      ∀ c ∈ s.coresOf p, t.flag TEN_OPT_STATUS_GNF_FINAL c = true ∧ t.flag TEN_OPT_STATUS_GNF c = st.gnf) ∧
  (∀ (p : Part) (st : Step) (pl : Plan) (f : Flight) (s : State), s.stepOf p = some st →
    s.stepPlan p = some pl → (s.host.flights.find? fun f => f.seq == st.seq) = some f →
    (s.stepEnded p st pl = false → exec (.stepComplete p) s = .next s) ∧
    (s.stepEnded p st pl = true → ∃ t u : State,
      exec (.stepComplete p) s = .next t ∧
      (s.internalAux (p + 1) = none → t = u.finish f (stepStatus st).1 (stepStatus st).2 0) ∧
      (∀ c, s.internalAux (p + 1) = some c → t = u.finish f 0x7F c 0) ∧
      t.stepOf p = none ∧ (∀ c ∈ s.coresOf p, t.seq c = none) ∧ (∀ d ∈ t.drovers, d.2.part ≠ p) ∧
      (∀ q : Part, q ≠ p → t.stepOf q = s.stepOf q) ∧
      (f.muted = true → t.planOf p st.plan = none))) ∧
  (∀ st : Step, (∀ x ∈ stepStatuses st, x.1 ≤ (stepStatus st).1) ∧ stepStatus st ∈ stepStatuses st ∧
    ((stepStatus st).1 = 0 ↔ st.skipped = false ∧ st.part = false ∧ st.recomputed = 0 ∧ st.reset = false ∧
      st.cause = 0 ∧ st.link = none ∧ st.internal = none))

/-! ## The plan boundary (R23, R320 to R324, R408, R425) -/

/-- A plan boundary while no step or plan load of the partition executes shows the input power, starts the
boundary's migration allowance afresh and, where it is a boundary of every partition, puts the held window
writes into effect; otherwise it does nothing. A migrated chunk counts against the limit and the last one
switches the expert's entry; beyond the limit, and once a PLAN_RUN has come, no chunk moves; an expert that the
running step needs and that is fetched back from the shed is off-loaded no more. -/
def Obligations.BoundaryAndMigrations : Prop :=
  (∀ (p : Part) (watts : Nat) (fails : List DieId) (others : List (Fin 16 × List Nat)) (s : State),
    (s.atBoundary p = false → exec (.planBoundary p watts fails others) s = .next s) ∧
    (s.atBoundary p = true → ∃ t, exec (.planBoundary p watts fails others) s = .next t ∧
      t.fld CLK_PWR_NOW_WATTS = watts % 65536 ∧ tabFind t.yard.migDone p = none ∧
      (t.stepOf p).isSome = (s.stepOf p).isSome ∧ t.host.waiting = s.host.waiting ∧
      t.host.flights = s.host.flights ∧ t.yard.plans = s.yard.plans ∧
      (s.allBoundary = true → t.parts.heldWindows = []) ∧
      (s.allBoundary = false → t.parts.heldWindows = s.parts.heldWindows))) ∧
  (∀ (p : Part) (s : State), (∀ m ∈ s.yard.migrations, m.part ≠ p) ∨ s.atBoundary p = false ∨
      (s.stepOf p).isSome = true ∨ s.fld YMS_MIG_LIMIT_MIB p ≤ tabGet 0 s.yard.migDone p →
    exec (.migrationChunk p) s = .next s) ∧
  (∀ (p : Part) (m : Migration) (pl : Plan) (s : State),
    (s.yard.migrations.find? fun m => m.part == (p : Nat)) = some m → s.atBoundary p = true → s.stepOf p = none →
    tabGet 0 s.yard.migDone p < s.fld YMS_MIG_LIMIT_MIB p → s.planOf p m.plan = some pl →
    ∃ t, exec (.migrationChunk p) s = .next t ∧
      tabGet 0 t.yard.migDone p = tabGet 0 s.yard.migDone p + 1 ∧
      (m.chunks ≤ 1 → t.yard.migrations = s.yard.migrations.erase m ∧
        t.fld YMS_MIGRATIONS_COUNT p = min (s.fld YMS_MIGRATIONS_COUNT p + 1) 0xFFFFFFFF ∧
        (m.kind = 1 → (t.expert p m.plan pl m.expert).replicas = (s.expert p m.plan pl m.expert).replicas + 1) ∧
        (m.kind = 3 → (t.expert p m.plan pl m.expert).shed = true)) ∧
      (1 < m.chunks → t.yard.experts = s.yard.experts ∧
        { m with chunks := m.chunks - 1 } ∈ t.yard.migrations)) ∧
  (∀ (p : Part) (id : Fin 16) (e beats : Nat) (pl : Plan) (s : State), s.planOf p id = some pl →
    (s.expert p id pl e).shed = false ∨ s.stepOf p = none →
    exec (.demandFetch p id e beats) s = .next s) ∧
  (∀ (p : Part) (id : Fin 16) (e beats : Nat) (st : Step) (pl : Plan) (s : State), s.planOf p id = some pl →
    s.stepOf p = some st → st.plan = id → st.running = true → (s.expert p id pl e).shed = true →
    ∃ t, exec (.demandFetch p id e beats) s = .next t ∧ (t.expert p id pl e).shed = false ∧
      (∀ e', expertKey p id e' ≠ expertKey p id e → (t.expert p id pl e') = s.expert p id pl e') ∧
      t.fld YMS_DEMAND_FETCHES_COUNT p = min (s.fld YMS_DEMAND_FETCHES_COUNT p + 1) 0xFFFFFFFF)

/-- The ends of yard-schedule fetches (R279 to R281): one that lands in time is landed and moves no memory; one that
missed its deadline without a recipe counts, on each cluster of its readers, the beats from its deadline on under its
cause; one that Yard Time's deadline finds incomplete is recomputed by its readers where the tensor has a
FALLBACK recipe and the step is no replay, and otherwise late; before the deadline nothing happens. A prefetch moves no
data, fires no slot, and belongs to the waiting nest (R325). -/
def Obligations.FetchesAndPrefetches : Prop :=
  (∀ (p : Part) (k : Nat) (past : Bool) (st : Step) (pl : Plan) (s : State), s.stepOf p = some st →
    s.stepPlan p = some pl →
    ((∀ f ∈ st.fetches, f.slot = k → f.landed = true ∨ f.withdrawn = true) →
      exec (.fetchComplete p k [] past) s = .next s ∧ exec (.fetchDeadlineMiss p k) s = .next s) ∧
    ∀ f, (st.fetches.find? fun f => f.slot == k && !f.landed && !f.withdrawn) = some f →
      (∃ (t : State) (u : Step), exec (.fetchComplete p k [] past) s = .next t ∧ t.stepOf p = some u ∧
        u.fetches = st.fetches.map (fun g => if g.slot = k then { g with landed := true } else g) ∧
        u.plan = st.plan ∧ u.cause = st.cause ∧ u.recompute = st.recompute ∧
        (f.late = false → t.mem = s.mem ∧ (st.early = [] → t.regs = s.regs)) ∧
        (f.late = true → (pl.readerClusters f.tensor).Nodup → ∀ c ∈ pl.readerClusters f.tensor, c < 32 →
          let n := max 1 (s.beat - f.deadline + past.toNat)
          (f.tier = 3 ∧ f.held = false →
            t.fld CLU_STALL_SHED_EVENTS_COUNT c = min (s.fld CLU_STALL_SHED_EVENTS_COUNT c + 1) 0xFFFFFFFF ∧
            t.fld CLU_STALL_SHED_BEATS_COUNT c = min (s.fld CLU_STALL_SHED_BEATS_COUNT c + n) 0xFFFFFFFF) ∧
          (f.tier ≠ 3 ∨ f.held = true →
            t.fld CLU_STALL_GDDR_EVENTS_COUNT c = min (s.fld CLU_STALL_GDDR_EVENTS_COUNT c + 1) 0xFFFFFFFF ∧
            t.fld CLU_STALL_GDDR_BEATS_COUNT c = min (s.fld CLU_STALL_GDDR_BEATS_COUNT c + n) 0xFFFFFFFF))) ∧
      (f.late = false →
        (s.beat < f.deadline → exec (.fetchDeadlineMiss p k) s = .next s) ∧
        (f.deadline ≤ s.beat → pl.fallback f.tensor = true → st.replay = none → ∃ (t : State) (u : Step),
          exec (.fetchDeadlineMiss p k) s = .next t ∧ t.stepOf p = some u ∧ f.tensor ∈ u.recompute ∧
          u.recomputed = min 0xFFFFFFFF (st.recomputed + 1) ∧
          ∀ g ∈ u.fetches, g.slot = k → g.withdrawn = true) ∧
        (f.deadline ≤ s.beat → pl.fallback f.tensor = false ∨ st.replay.isSome = true →
          ∃ (t : State) (u : Step), exec (.fetchDeadlineMiss p k) s = .next t ∧ t.stepOf p = some u ∧
          t.mem = s.mem ∧ u.recompute = st.recompute ∧
          u.fetches = st.fetches.map (fun g => if g.slot = k then { g with late := true } else g)))) ∧
  (∀ (core : CoreId) (x : Nest) (s : State), s.nest core = some x →
    (x.q.phase ≠ .waitBeat ∨ s.flag YMS_CFG_PF_EN x.p = false ∨
      s.beat + s.fld YMS_CFG_RUNAHEAD x.p < x.slotBeat x.d.preRef → exec (.prefetchIssue core) s = .next s) ∧
    ∃ t, exec (.prefetchIssue core) s = .next t ∧ t.mem = s.mem ∧ t.host = s.host ∧
      t.yard.steps = s.yard.steps ∧ t.seqs = s.seqs ∧
      ∀ g ∈ t.yard.prefetches, g ∈ s.yard.prefetches ∨
        g.part = x.p ∧ g.core = x.core ∧ g.desc = x.q.desc ∧ g.cancelled = false)

/-! ## Lofts and paths (R263 to R270, R283, R409) -/

/-- Requests of units at the home Loft of a line. A read whose sectors the Loft holds is served there: the hits are
counted, the line takes the hint's DUE, no fill goes out and no memory changes; one with a sector missing counts the
misses, and where its set holds no candidate it waits. A write puts its bytes into the sectors of its mask, the lowest
first, and no other byte of the line changes. A request under a stale epoch, or to a place in reset, is owed
TARGET_RESET. Two requests of one core clock are served in the order of R269 (R264 to R269, R283).
A fill that lands installs its sectors in the line that waits for it and leaves memory as it was; one
whose channel has been reset since is discarded, counted, and its step is owed TARGET_RESET; one that no window serves,
or whose channel is in self refresh for heat, waits (R265, R283, R407, R428).
A held request goes out when its partition has room, never over the partition's quota on the path (R263,
R409). A way that fails is retired with every line in it, and the spare comes in where there is one (R270).
A command whose accesses meet errors in memory acts as without them on the state those errors leave (R270, R290,
R519); it goes ahead where it would have before them. -/
def Obligations.LoftAccessesAndFills : Prop :=
  (∀ (errs : List MemEvent) (s : State), errs ≠ [] →
    (∀ core : CoreId, (s.nest core).isSome = true →
      MeetsFirst (.nestStart core) (s.coreFn core) errs s ∧
      ∀ hostFail, MeetsFirst (.iterationIssue core hostFail) (s.coreFn core) errs s) ∧
    (∀ d : DroverId, (s.droving d).isSome = true →
      (∀ fails, MeetsFirst (.droverStreamStart d fails) (s.droverFn d) errs s) ∧
      MeetsFirst (.droverBaleDeliver d) (s.droverFn d) errs s ∧
      MeetsFirst (.droverScatterBale d) (s.droverFn d) errs s) ∧
    (∀ (p : Part) (k : Nat), MeetsFirst (.transferSend p k) (p + 1) errs s ∧
      MeetsFirst (.contributionSend p k) (p + 1) errs s ∧
      (∀ reqs, let u := s.meets (p + 1) errs
        s.prtState p = 1 → k * 1024 < s.gddrSize (p + 1) → u.prtState p = 1 → k * 1024 < u.gddrSize (p + 1) →
        MeetsFirst (.loftAccess p k reqs) (p + 1) errs s)) ∧
    (∀ (x : Fin 256) (frames : List (Bool × Nat × Nat)) (n : Nat),
      MeetsFirst (.videoAu x frames n) (s.vcdFn x) errs s) ∧
    (∀ (fn : Fn) (n : Ring) (idx : Word) (f : Flight),
      let u := s.meets fn errs
      let same := fun op => s.ready fn n idx.toNat op = some f ∧ u.ready fn n idx.toNat op = some f
      (same 3 → copyRaw f = false → MeetsFirst (.baleCopy fn n idx) fn errs s) ∧
      (same 3 → copyRaw f = true → MeetsFirst (.baleCopyRaw fn n idx) fn errs s) ∧
      (s.planTurn f = true → u.planTurn f = true →
        (same 1 → MeetsFirst (.planLoad fn n idx) fn errs s) ∧
        (same 2 → f.fn = 0 ∨ s.stepOf (f.fn - 1) = none ∧ u.stepOf (f.fn - 1) = none →
          MeetsFirst (.planRun fn n idx) fn errs s)) ∧
      (∀ page (chan : ShedChan) (upto : Fin 7) fails past o,
        s.shedOpAt fn n idx.toNat page true = some o → u.shedOpAt fn n idx.toNat page true = some o →
        s.windowOpen (36 + chan) fn = true → u.windowOpen (36 + chan) fn = true →
        MeetsFirst (.shedPageWriteDone fn n idx page chan upto fails past) fn errs s))) ∧
  (∀ (p : Part) (l : Nat) (r : LoftReq) (s : State),
    let m := r.mask % 2 ^ 16
    let c := (s.homeOf p l).1
    let set := (s.homeOf p l).2
    let line := lineKey (p + 1) l
    let cmd := Instr.loftAccess p l [r] []
    let held := (s.loftLines c set).find? fun x => x.line == line
    let valid := (held.map (·.valid)).getD 0
    (s.prtState p ≠ 1 ∨ s.gddrSize (p + 1) ≤ l * 1024 ∨ m = 0 → exec cmd s = .next s) ∧
    (s.prtState p = 1 → l * 1024 < s.gddrSize (p + 1) → m ≠ 0 →
      (r.stale = true ∨ s.gddrDown (p + 1) (l * 1024) 1 = true → ∃ t, exec cmd s = .next t ∧ t.mem = s.mem ∧
        t.loft = s.loft ∧ ∀ st, r.step = true → s.stepOf p = some st → t.stepOf p = some { st with reset := true }) ∧
      (r.stale = false → s.gddrDown (p + 1) (l * 1024) 1 = false →
        (∀ x, r.data = none → held = some x → m &&& x.valid = m → ∃ t, exec cmd s = .next t ∧ t.mem = s.mem ∧
          t.loft.fills = s.loft.fills ∧ t.loft.waiting = s.loft.waiting ∧
          t.reg64 LFT_HITS_LO c = min (s.reg64 LFT_HITS_LO c + (sectorsOf m).length) (2 ^ 64 - 1) ∧
          (t.loftLines c set).find? (fun x => x.line == line) = some { x with due := s.dueOf (s.reqHint r) }) ∧
        (r.data = none → m &&& valid ≠ m → s.loft.hurt = [] → ∃ t, exec cmd s = .next t ∧ t.mem = s.mem ∧
          t.host = s.host ∧
          t.reg64 LFT_MISSES_LO c =
            min (s.reg64 LFT_MISSES_LO c + (sectorsOf (m - (m &&& valid))).length) (2 ^ 64 - 1) ∧
          (held = none → s.allocate c set line (s.dueOf (s.reqHint r)) = none →
            t.loft.fills = s.loft.fills ∧ (∀ d k, t.loftLines d k = s.loftLines d k) ∧
            t.loft.setWait.length = s.loft.setWait.length + 1)) ∧
        (∀ bs, r.data = some bs → ∃ t, exec cmd s = .next t ∧
          (∀ j k, (sectorsOf m)[j]? = some k →
            t.readGddr (p + 1) (l * 1024 + 64 * k) 64 = sliceBytes bs (64 * j) 64) ∧
          t.host = s.host ∧ t.mem.scratch = s.mem.scratch ∧
          ∀ k, k < 16 → m.testBit k = false →
            t.readGddr (p + 1) (l * 1024 + 64 * k) 64 = s.readGddr (p + 1) (l * 1024 + 64 * k) 64)))) ∧
  (∀ (p : Part) (l : Nat) (a b : LoftReq) (s : State),
    ∃ u, exec (.loftAccess p l [if a.who ≤ b.who then a else b] []) s = .next u ∧
      exec (.loftAccess p l [a, b] []) s = exec (.loftAccess p l [if a.who ≤ b.who then b else a] []) u) ∧
  ((∀ (k ce ue retries : Nat) (crcFail : Bool) (f : Fill) (s : State), s.loft.fills[k]? = some f →
    let p := f.line / 2 ^ 38 - 1
    let chan := s.channelOf (p + 1) (f.line % 2 ^ 38)
    tabGet 0 s.gddrs.throttle chan = 2 ∨ s.windowOpen (12 + chan) (p + 1) = false →
    exec (.loftFill k ce ue retries crcFail) s = .next s) ∧
  (∀ (k : Nat) (f : Fill) (s : State), s.loft.fills[k]? = some f → f.prefetch = false → f.stale = false →
    let p := f.line / 2 ^ 38 - 1
    let l := f.line % 2 ^ 38
    let chan := s.channelOf (p + 1) l
    let c := (s.homeOf p l).1
    let set := (s.homeOf p l).2
    tabGet 0 s.gddrs.throttle chan ≠ 2 → s.windowOpen (12 + chan) (p + 1) = true → s.loft.setWait = [] →
    (∀ x, f.epoch = s.chanEpoch chan → s.chanDown chan = false → s.clusterDown c = false →
      (s.loftLines c set).find? (fun x => x.line == f.line) = some x →
      ∃ t, exec (.loftFill k 0 0 0 false) s = .next t ∧ t.loft.fills = s.loft.fills.eraseIdx k ∧ t.mem = s.mem ∧
        (t.loftLines c set).find? (fun x => x.line == f.line) =
          some { x with valid := x.valid ||| f.mask }) ∧
    (f.epoch ≠ s.chanEpoch chan ∨ s.clusterDown c = true → ∃ t, exec (.loftFill k 0 0 0 false) s = .next t ∧
      t.loft.fills = s.loft.fills.eraseIdx k ∧ t.loft.sets = s.loft.sets ∧ t.mem = s.mem ∧
      t.fld LFT_STALE_REPLIES_COUNT c = min (s.fld LFT_STALE_REPLIES_COUNT c + 1) 0xFFFFFFFF ∧
      ∀ st, f.step = true → s.stepOf p = some st → t.stepOf p = some { st with reset := true })) ∧
  (∀ (die : DieId) (s : State),
    ((∀ h ∈ s.loft.waiting, h.path = die → s.pathRoom die h.part = 0) →
      exec (.pathLimitAdmit die) s = .next s) ∧
    (∀ h, (s.loft.waiting.find? fun h => h.path == (die : Nat) && decide (0 < s.pathRoom die h.part)) = some h →
      ∃ t, exec (.pathLimitAdmit die) s = .next t ∧ t.mem = s.mem ∧ t.regs = s.regs ∧
        t.loft.fills.length = s.loft.fills.length + 1 ∧
        (s.inFlight die h.part ≤ s.fld (PRT_INFLIGHT_GDDR h.part) →
          t.inFlight die h.part ≤ s.fld (PRT_INFLIGHT_GDDR h.part)))) ∧
  (∀ (c : ClusterId) (w : Fin 17) (readable : Bool) (s : State),
    ((s.fld LFT_WAYS_ACTIVE c).testBit w = false → exec (.loftWayFail c w readable) s = .next s) ∧
    ((s.fld LFT_WAYS_ACTIVE c).testBit w = true → s.fld LFT_WAYS_ACTIVE c < 131072 →
      ∃ t, exec (.loftWayFail c w readable) s = .next t ∧ t.flag LFT_STATUS_SPARE_IN c = true ∧
        (s.flag LFT_STATUS_SPARE_IN c = false → s.fld LFT_WAYS_ACTIVE c < 65536 →
          t.fld LFT_WAYS_ACTIVE c = s.fld LFT_WAYS_ACTIVE c - 2 ^ (w : Nat) + 65536) ∧
        (s.flag LFT_STATUS_SPARE_IN c = true →
          t.fld LFT_WAYS_ACTIVE c = s.fld LFT_WAYS_ACTIVE c - 2 ^ (w : Nat) ∧ t.cluGone c = true) ∧
        (∀ set < 1024, ∀ x ∈ t.loftLines c set, x.way ≠ w) ∧
        ∀ p st, s.partOfCluster c = some p → s.stepOf p = some st → ∃ u, t.stepOf p = some u ∧ u.cause ≠ 0)))

/-! ## GDDR and the shed's flash (R287 to R305, R428) -/

/-- What the memory controllers do by themselves: a refresh changes nothing; the scrub counts a corrected
sector, keeps an uncorrectable one of an owner as such and counts it, and a channel whose retries all fail is reset; a
temperature report is shown and sets refresh rate and throttle by its thresholds; a finished row copy switches its
remap entry on; a margin sweep starts only on a TRAINED channel of no partition, and ends with its steps; background
relocation counts and moves no page; a flash that stays busy resets its shed channel. A unit in reset does none of it. -/
def Obligations.ControllersActOnTheirOwn : Prop :=
  (∀ (chan : ChanId) (s : State), exec (.gddrRefresh chan) s = .next s) ∧
  (∀ (chan : ChanId) (own : Option (Fn × Nat)) (sec : Fin 16) (err : Option MemError) (s : State),
    (s.flag GDR_STATUS_TRAINED chan = false ∨ s.chanDown chan = true →
      exec (.gddrPatrolScrub chan own sec err) s = .next s) ∧
    (s.flag GDR_STATUS_TRAINED chan = true → s.chanDown chan = false →
      (∃ t, exec (.gddrPatrolScrub chan none sec (some .corrected)) s = .next t ∧ t.mem = s.mem ∧
        t.fld GDR_ECC_CE chan = min (s.fld GDR_ECC_CE chan + 1) 0xFFFF) ∧
      (∃ t, exec (.gddrPatrolScrub chan none sec none) s = .next t ∧ t.mem = s.mem ∧
        t.reg64 GDR_RD_LO chan = min (s.reg64 GDR_RD_LO chan + 1) (2 ^ 64 - 1)) ∧
      (∀ n, ∃ t, exec (.gddrPatrolScrub chan own sec (some (.crc n true))) s = .next t ∧ t.chanDown chan = true) ∧
      (∀ (o : Fn) (l : Nat), s.channelOf o l = chan → l * 1024 < s.gddrSize o →
        tabFind s.mem.bad (sectorKey (lineKey o l) sec) = none →
        tabFind s.loft.stale (sectorKey (lineKey o l) sec) = none →
        (∃ t, exec (.gddrPatrolScrub chan (some (o, l)) sec (some .uncorrectable)) s = .next t ∧
          ((o : Nat) ≠ 0 ∨ s.dayOn 0 = false → t.gddrBad o (l * 1024 + 64 * sec) 64 = true ∧
            t.flag GDR_STATUS_UE chan = true ∧
            t.fld GDR_ECC_UE chan = min (s.fld GDR_ECC_UE chan + 1) 0xFFFF)) ∧
        ∃ t, exec (.gddrPatrolScrub chan (some (o, l)) sec (some .corrected)) s = .next t ∧
          t.fld GDR_ECC_CE chan = min (s.fld GDR_ECC_CE chan + 1) 0xFFFF))) ∧
  (∀ (chan : ChanId) (front back : Nat) (badMr : Bool) (s : State),
    (s.chanDown chan = true → exec (.gddrTempPoll chan front back badMr) s = .next s) ∧
    (s.chanDown chan = false → (∃ t, exec (.gddrTempPoll chan front back true) s = .next t ∧ t.chanDown chan = true) ∧
      (front < 256 → back < 256 →
        ∃ t, exec (.gddrTempPoll chan front back false) s = .next t ∧ t.fld GDR_TEMP_FRONT chan = front ∧
          t.fld GDR_TEMP_BACK chan = back ∧ t.mem = s.mem ∧
          (tabGet false t.gddrs.fast chan = true ↔ 85 < max front back) ∧
          (105 < max front back → tabGet 0 t.gddrs.throttle chan = 2) ∧
          (max front back ≤ 100 → tabGet 0 t.gddrs.throttle chan = 0) ∧
          (100 < max front back → max front back ≤ 105 → tabGet 0 t.gddrs.throttle chan =
            if tabGet 0 s.gddrs.throttle chan = 2 then 2 else 1)))) ∧
  (∀ (chan : ChanId) (entry : Fin 128) (s : State),
    ((∀ r ∈ s.gddrs.remaps, r.chan = chan → r.entry = entry → r.on = true) →
      exec (.rowRemapSwitch chan entry []) s = .next s) ∧
    ((∃ r ∈ s.gddrs.remaps, r.chan = chan ∧ r.entry = entry ∧ r.on = false) →
      ∃ t, exec (.rowRemapSwitch chan entry []) s = .next t ∧ t.mem = s.mem ∧ t.regs = s.regs ∧
        ∀ r ∈ t.gddrs.remaps, r.chan = chan → r.entry = entry → r.on = true)) ∧
  (∀ (val : Word) (s : State),
    let n := s.fld GDR_SEL_CHANNEL
    (bitOf val 0 = false → ∃ t, exec (.marginStart val) s = .next t ∧ t.gddrs = s.gddrs ∧
      t.fld GDR_MARGIN_CTRL_AXIS n = getBits val 1 1 ∧ t.fld GDR_MARGIN_CTRL_PIN n = getBits val 2 5) ∧
    (bitOf val 0 = true →
      ((∀ p, p < 32 → s.hasChannel p n = false) → s.flag GDR_STATUS_TRAINED n = true →
        ∃ t, exec (.marginStart val) s = .next t ∧ tabFind t.gddrs.sweeps n = some true ∧
          t.fld GDR_MARGIN_CTRL_AXIS n = getBits val 1 1 ∧ t.fld GDR_MARGIN_CTRL_PIN n = getBits val 2 5 ∧
          t.flag GDR_MARGIN_RESULT_DONE n = false ∧ t.flag GDR_MARGIN_RESULT_REFUSED n = false) ∧
      ((∃ p, p < 32 ∧ s.hasChannel p n = true) ∨ s.flag GDR_STATUS_TRAINED n = false →
        ∃ t, exec (.marginStart val) s = .next t ∧ t.gddrs = s.gddrs ∧
          t.flag GDR_MARGIN_RESULT_REFUSED n = true))) ∧
  (∀ (chan : ChanId) (low high : Nat) (s : State),
    (tabFind s.gddrs.sweeps chan = none → exec (.marginSweepDone chan low high) s = .next s) ∧
    ((tabFind s.gddrs.sweeps chan).isSome = true →
      ∃ t, exec (.marginSweepDone chan low high) s = .next t ∧ tabFind t.gddrs.sweeps chan = none ∧
        t.fld GDR_MARGIN_RESULT_LOW chan = low % 256 ∧ t.fld GDR_MARGIN_RESULT_HIGH chan = high % 256 ∧
        t.flag GDR_MARGIN_RESULT_DONE chan = true)) ∧
  (∀ (chan : ShedChan) (fails erases : Nat) (s : State),
    (s.flag SHD_STATUS_READY chan = false ∨ s.shedDown chan = true ∨ s.flag CLK_STATUS_VIN_WARN = true →
      exec (.shedRelocate chan fails erases) s = .next s) ∧
    (s.flag SHD_STATUS_READY chan = true → s.shedDown chan = false → s.flag CLK_STATUS_VIN_WARN = false →
      ∃ t, exec (.shedRelocate chan fails erases) s = .next t ∧ t.shed = s.shed ∧
        t.fld SHD_RELOCATIONS_COUNT chan = min (s.fld SHD_RELOCATIONS_COUNT chan + 1) 0xFFFFFFFF)) ∧
  (∀ (chan : ShedChan) (pages fetches : List (Nat × Nat)) (s : State),
    (s.shedDown chan = true → exec (.flashBusyTimeout chan pages fetches) s = .next s) ∧
    (s.shedDown chan = false →
      ∃ t, exec (.flashBusyTimeout chan pages fetches) s = .next t ∧ t.shedDown chan = true ∧
        t.flag SHD_STATUS_READY chan = false ∧ (pages = [] → t.shed = s.shed)))

/-! ## Sequencers (R83, R88, R160 to R166) -/

/-- A sequencer that reaches a nest shows it, and performs its PRE: with none it runs the nest, on a barrier
or semaphore it sends its WAIT, on a slot's beat it waits, or runs on with BEAT_LATE where the beat has
passed. A beat delivered is visible everywhere and starts the nests that waited for it (R160 to R166).
The candidate iteration that nothing holds is issued: it is counted once, and the sequencer has it as
its issued iteration. One whose ITER WAIT has not been granted sends that WAIT and waits; one that something holds
waits; a masked pair whose elements are all masked is skipped, and a pair of key length 0 passes, uncounted; a tensor
whose recipe is due is recomputed first; an iteration that is not yet the candidate becomes it. A nest that does
not run, one of OPT_STEP before GNF is final, and one whose drover stream has not started issue nothing (R83, R88,
R163, R181, R183, R239, R257, R272).
A nest with no iteration left and nothing still to write performs POST and goes on to the next
descriptor, or ends its program, SEQ_STATUS showing it, or gives the core back to the program that waited for a
recipe; while an iteration is left it goes on (R76, R88, R92, R163). -/
def Obligations.NestIterations : Prop :=
  ((∀ (core : CoreId) (s : State), s.nest core = none → exec (.nestStart core []) s = .next s ∧
      (∀ hostFail, exec (.iterationIssue core hostFail []) s = .next s ∧ exec (.nestPost core hostFail) s = .next s)) ∧
  (∀ (core : CoreId) (x : Nest) (s : State), s.nest core = some x →
    (x.q.phase ≠ .ready → exec (.nestStart core []) s = .next s) ∧
    (x.q.phase = .ready →
      ∃ (t : State) (q : Seq), exec (.nestStart core []) s = .next t ∧ t.seq core = some q ∧ q.desc = x.q.desc ∧
        t.flag SEQ_STATUS_RUNNING core = true ∧ t.fld SEQ_STATUS_CUR_DESC core = x.q.desc % 65536 ∧
        (x.d.preKind = 0 → q.phase = .run ∧ q.idx = none ∧ q.held = []) ∧
        (x.d.preKind = 1 → q.phase = .waitPre ∧ t.halter.flying = s.halter.flying ++
          [⟨x.p, x.d.preRef, .barWait core (tabGet 0 x.q.barWaits x.d.preRef + 1)⟩]) ∧
        (x.d.preKind = 2 → q.phase = .waitPre ∧ t.halter.flying = s.halter.flying ++
          [⟨x.p, x.d.preRef, .semWait (.pre core) x.d.amount⟩]) ∧
        (x.d.preKind = 3 → s.halter.visible < x.slotBeat x.d.preRef → q.phase = .waitBeat) ∧
        (x.d.preKind = 3 → x.slotBeat x.d.preRef ≤ s.halter.visible → q.phase = .run ∧
          t.flag CLU_HLT_STATUS_BEAT_LATE (core / 8) = true))) ∧
  (∀ s : State, ∃ t, exec .beatDelivery s = .next t ∧ t.halter.visible = s.beat ∧
    ∀ core x, s.nest core = some x → x.q.phase = .waitBeat → x.st.stopped = false →
      x.slotBeat x.d.preRef ≤ s.beat → ∃ q, t.seq core = some q ∧ q.phase = .run)) ∧
  (∀ (core : CoreId) (hostFail : List Nat) (x : Nest) (s : State), s.nest core = some x →
    let cmd := Instr.iterationIssue core hostFail []
    (x.q.phase ≠ .run ∨ x.n.kind = 8 ∧ (x.st.gnfFinal = false ∨ x.st.optSkip.contains x.d.node = true) ∨
      s.droverFirst x = true → exec cmd s = .next s) ∧
    (x.q.phase = .run → (x.n.kind = 8 → x.st.gnfFinal = true ∧ x.st.optSkip.contains x.d.node = false) →
      s.droverFirst x = false → x.q.words ≠ [] →
      let i : Iter := ⟨x.q.idx.getD zeros6, x.q.live, x.q.beff⟩
      let void := x.inVoid 6 ⟨i.idx, i.live, i.beff, 0, 0, [], []⟩
      let h := s.holdIssue x i
      let r := h.2.fetchReads x i hostFail
      let kv := x.n.kind = 6 ∨ x.n.kind = 7
      (x.q.cand = false →
        (x.wordTensors.any (s.fetching x.p) = true → ∃ t, exec cmd s = .next t ∧ t.seqs = s.seqs ∧ t.mem = s.mem) ∧
        (x.wordTensors.any (s.fetching x.p) = false →
          ((s.advanceWalk x).1 = false → exec cmd s = .next s) ∧
          ((s.advanceWalk x).1 = true → exec cmd s = exec cmd (s.candidate x)))) ∧
      (x.q.cand = true →
        (∀ rc, void = false → s.recipeDue x = some rc → ∃ (t : State) (q : Seq), exec cmd s = .next t ∧
          t.seq core = some q ∧ q.program = rc.program ∧ q.phase = .ready ∧
          tabFind t.suspended core = some { x.q with rebuilt := rc.tensor :: x.q.rebuilt } ∧
          t.fld TEN_RECOMP_RUNS_COUNT core = min (s.fld TEN_RECOMP_RUNS_COUNT core + 1) 0xFFFFFFFF) ∧
        (void = true → s.fullPorts x (some { i with beff := i.beff.set x.keyLevel 1 }) = [] → ∃ (t : State) (q : Seq), exec cmd s = .next t ∧
          t.seq core = some q ∧ q.cand = false ∧ q.issued = x.q.issued ∧
          t.reg64 SEQ_ISSUED_LO core = s.reg64 SEQ_ISSUED_LO core) ∧
        (void = false → s.recipeDue x = none →
          (x.n.masked = true → s.peekSide x i = none → ∃ t, exec cmd s = .next t ∧ t.seqs = s.seqs ∧
            t.mem = s.mem) ∧
          ∀ sd, (if x.n.masked then s.peekSide x i else some none) = some sd →
            (x.skipped i sd = true → (s.receive x i).1 = true → s.fullPorts x (some i) = [] →
              ∃ (t : State) (q : Seq), exec cmd s = .next t ∧ t.seq core = some q ∧ q.cand = false ∧
                t.reg64 COR_ATT_SKIPPED_LO core = min (s.reg64 COR_ATT_SKIPPED_LO core + 1) (2 ^ 64 - 1) ∧
                t.reg64 SEQ_ISSUED_LO core = s.reg64 SEQ_ISSUED_LO core) ∧
            (x.skipped i sd = false →
              ((x.d.iterKind = 1 ∨ x.d.iterKind = 3) ∧ x.q.granted = false →
                ∃ (t : State) (q : Seq), exec cmd s = .next t ∧ t.seq core = some q ∧
                  q.phase = .waitIter ∧ q.idx = x.q.idx ∧ t.halter.flying = s.halter.flying ++
                    [⟨x.p, x.d.iterSem, .semWait (.iter core) x.d.amount⟩]) ∧
              (¬((x.d.iterKind = 1 ∨ x.d.iterKind = 3) ∧ x.q.granted = false) →
                (h.1 = true → exec cmd s = .next h.2 ∧ h.2.mem = s.mem ∧
                  ∀ y, h.2.nest core = some y → y.q.cand = true) ∧
                (h.1 = false →
                  (kv → x.q.kvHeld = true → h.2.streamStalled x i = true → exec cmd s = .next h.2) ∧
                  (kv → ¬(x.q.kvHeld = true ∧ (h.2.streamStalled x i = true ∨ x.n.kind = 7)) →
                    (r.2.2.kvAct x i r.1).1 ≠ .done → ∃ (t : State) (q : Seq), exec cmd s = .next t ∧
                      t.seq core = some q ∧ q.cand = true ∧ q.issued = x.q.issued ∧
                      t.reg64 SEQ_ISSUED_LO core = s.reg64 SEQ_ISSUED_LO core) ∧
                  ((kv → ¬(x.q.kvHeld = true ∧ h.2.streamStalled x i = true) ∧
                      ((r.2.2.kvAct x i r.1).1 = .done ∨ x.q.kvHeld = true ∧ x.n.kind = 7)) →
                    (x.n.kind = 10 → (x.op 0).isSome = true) →
                    ∃ (t : State) (q : Seq), exec cmd s = .next t ∧ t.seq core = some q ∧
                      q.cand = false ∧ q.issued = true ∧ q.idx = x.q.idx ∧ q.prevCc = x.clocks ∧
                      t.reg64 SEQ_ISSUED_LO core = min (s.reg64 SEQ_ISSUED_LO core + 1) (2 ^ 64 - 1))))))))) ∧
  (∀ (core : CoreId) (hostFail : List Nat) (x : Nest) (s : State), s.nest core = some x →
    (x.q.phase ≠ .run ∨ x.q.cand = true ∨ x.n.kind = 8 ∧ x.st.gnfFinal = false →
      exec (.nestPost core hostFail) s = .next s) ∧
    (x.q.phase = .run → x.q.cand = false → (x.n.kind = 8 → x.st.gnfFinal = true) →
      let skip := x.n.kind = 8 ∧ x.st.optSkip.contains x.d.node = true
      (¬skip → x.q.words ≠ [] → x.wordTensors.any (s.fetching x.p) = true ∨ (s.advanceWalk x).1 = true →
        exec (.nestPost core hostFail) s = .next s) ∧
      (skip ∨ x.q.words ≠ [] ∧ x.wordTensors.any (s.fetching x.p) = false ∧ (s.advanceWalk x).1 = false →
        (s.fullPorts x none ≠ [] → ∃ t, exec (.nestPost core hostFail) s = .next t ∧ t.seqs = s.seqs ∧
          t.mem = s.mem) ∧
        (s.fullPorts x none = [] → x.q.held = [] → x.q.last = [] → x.q.owed = [] → s.unscattered x = 0 →
          ∃ (t : State) (q : Seq), exec (.nestPost core hostFail) s = .next t ∧
            t.seq core = some q ∧
            (x.d.next ≠ 0xFFFF → q.phase = .ready ∧ q.desc = x.d.next ∧ t.flag SEQ_STATUS_RUNNING core = false ∧
              t.fld SEQ_STATUS_CUR_DESC core = 0xFFFF) ∧
            (x.d.next = 0xFFFF → tabFind s.suspended core = none → q.phase = .done ∧
              t.flag SEQ_STATUS_RUNNING core = false ∧ t.fld SEQ_STATUS_CUR_DESC core = 0xFFFF) ∧
            (∀ old, x.d.next = 0xFFFF → tabFind s.suspended core = some old →
              q = { old with barWaits := x.q.barWaits } ∧ tabFind t.suspended core = none) ∧
            t.halter.flying = s.halter.flying ++
              (if x.d.postKind = 1 then [⟨x.p, x.d.postRef, .arrive⟩]
               else if x.d.postKind = 2 then [⟨x.p, x.d.postRef, .signal x.d.amount⟩] else [])))))

/-! ## Chutes (R148 to R156) -/

/-- The oldest waiting bale of a chute leaves when the sender holds a credit for each of its units, which it
gives up; without them, or on a broken chute, it stays. A bale that lands whole joins the ring as it was
sent; one with an uncorrectable flit joins as a poisoned zero bale and the step is DATA_ERROR. Returned
credits come back to the sender. Bales keep their order, and no other chute changes. Where no bale, or no
credit, is there to move, nothing changes. -/
def Obligations.ChutesKeepOrderAndCredits : Prop :=
  ∀ (p : Part) (id : Fin 16) (k : Nat) (pl : Plan) (e : BoundEdge) (s : State), s.edge p id k = some (pl, e) →
    let c := s.chute p id k e.rxUnits
    (∀ it rest, c.half = it :: rest →
      (c.broken = false → it.units ≤ c.credits → ∃ t, exec (.chuteBaleSend p id k) s = .next t ∧
        t.chute p id k e.rxUnits = { c with
          half := rest, flying := c.flying ++ [it], credits := c.credits - it.units } ∧
        ∀ j, j ≠ chuteKey p id k → tabFind t.chutes j = tabFind s.chutes j) ∧
      (c.broken = true ∨ c.credits < it.units → exec (.chuteBaleSend p id k) s = .next s)) ∧
    (∀ it rest ce ue, c.flying = it :: rest → ∃ (t : State) (it' : Item),
      exec (.chuteBaleLand p id k ce ue) s = .next t ∧
      t.chute p id k e.rxUnits = { c with flying := rest, ring := c.ring ++ [it'] } ∧
      (ue = 0 → it' = it ∧ t.yard = s.yard) ∧
      (ue ≠ 0 → it'.units = it.units ∧ it'.dirty = true ∧
        ∀ st, s.stepOf p = some st → ∃ u, t.stepOf p = some u ∧ u.cause ≠ 0) ∧
      ∀ j, j ≠ chuteKey p id k → tabFind t.chutes j = tabFind s.chutes j) ∧
    (∀ n rest, c.returns = n :: rest → ∃ t, exec (.chuteCreditReturn p id k) s = .next t ∧
      t.chute p id k e.rxUnits = { c with returns := rest, credits := c.credits + n } ∧
      ∀ j, j ≠ chuteKey p id k → tabFind t.chutes j = tabFind s.chutes j) ∧
    (c.half = [] → exec (.chuteBaleSend p id k) s = .next s) ∧
    (c.flying = [] → ∀ ce ue, exec (.chuteBaleLand p id k ce ue) s = .next s) ∧
    (c.returns = [] → exec (.chuteCreditReturn p id k) s = .next s)

/-! ## The Halter (R157 to R161, R168) -/

/-- The Halter's deliveries. A semaphore serves its waits in the order of their arrival, each only with its
whole amount, and what is left is less than the next one wants; SIGNAL adds, saturating at 65,535 with
SEM_OVF and DATA_ERROR, and serves; WAIT joins the queue, which is served. Of a WAIT and a SIGNAL delivered in one
core clock the SIGNAL is applied first. ARRIVE counts, and the
one that reaches the target starts the count again and releases the waits of that completion; a barrier WAIT
for a completion that has happened is released at once (R158 to R161).
A message whose home was reset is lost: its step is owed TARGET_RESET, and a WAIT ends (R283). A command that names no
message of its kind changes nothing. -/
def Obligations.HalterServesInOrder : Prop :=
  (∀ (v : Nat) (q : List (Nat × Waiter × Nat)), ∃ k : Nat,
    (serve v q).2.1 = (q.take k).map (fun e => (e.1, e.2.1)) ∧ (serve v q).2.2 = q.drop k ∧
    (serve v q).1 + ((q.take k).map fun e => e.2.2).sum = v ∧
    ∀ e ∈ (q.drop k).head?, (serve v q).1 < e.2.2) ∧
  (∀ (p : Part) (k cc id n key : Nat) (x : Sem) (s : State), s.halterAt p k = some ⟨p, id, .signal n⟩ →
    s.semKey p id = some key → tabFind s.halter.sems key = some x →
    let v := min 65535 (x.value + n)
    ∃ t, exec (.halterSignal p k cc) s = .next t ∧
      tabFind t.halter.sems key = some ⟨(serve v x.queue).1, (serve v x.queue).2.2⟩ ∧
      t.halter.released = s.halter.released ++ (serve v x.queue).2.1 ∧
      t.halter.flying = s.halter.flying.eraseIdx k ∧ t.mem = s.mem ∧
      (65535 < x.value + n → key < 131072 → t.flag CLU_HLT_STATUS_SEM_OVF (key / 4096) = true ∧
        t.fld CLU_SEM_OVF_COUNT_COUNT (key / 4096) =
          min (s.fld CLU_SEM_OVF_COUNT_COUNT (key / 4096) + 1) 0xFFFFFFFF ∧
        ∀ st, s.stepOf p = some st → ∃ u, t.stepOf p = some u ∧ u.cause ≠ 0)) ∧
  (∀ (p : Part) (k cc id n key : Nat) (w : Waiter) (x : Sem) (s : State),
    s.halterAt p k = some ⟨p, id, .semWait w n⟩ → s.semKey p id = some key →
    tabFind s.halter.sems key = some x →
    let q := x.queue ++ [((p : Nat), w, n)]
    (∃ t, exec (.halterWait p [k] cc) s = .next t ∧ t.halter.flying = s.halter.flying.eraseIdx k ∧
      tabFind t.halter.sems key = some ⟨(serve x.value q).1, (serve x.value q).2.2⟩ ∧
      t.halter.released = s.halter.released ++ (serve x.value q).2.1) ∧
    ∀ (j m : Nat), j ≠ k → s.halterAt p j = some ⟨p, id, .signal m⟩ →
      let v := min 65535 (x.value + m)
      let q := (serve v x.queue).2.2 ++ [((p : Nat), w, n)]
      ∃ t, exec (.halterWait p [k, j] cc) s = .next t ∧
        tabFind t.halter.sems key =
          some ⟨(serve (serve v x.queue).1 q).1, (serve (serve v x.queue).1 q).2.2⟩ ∧
        t.halter.released =
          s.halter.released ++ (serve v x.queue).2.1 ++ (serve (serve v x.queue).1 q).2.1) ∧
  (∀ (p : Part) (k cc id key : Nat) (x : Bar) (s : State), s.barKey p id = some key →
    tabFind s.halter.bars key = some x →
    (s.halterAt p k = some ⟨p, id, .arrive⟩ → ∃ t, exec (.halterArrive p k cc) s = .next t ∧
      t.halter.flying = s.halter.flying.eraseIdx k ∧
      (x.count + 1 < x.target → tabFind t.halter.bars key = some { x with count := x.count + 1 } ∧
        t.halter.released = s.halter.released) ∧
      (x.target ≤ x.count + 1 → ∃ y, tabFind t.halter.bars key = some y ∧ y.count = 0 ∧ y.done = x.done + 1 ∧
        (∀ w ∈ y.waits, x.done + 1 < w.2) ∧
        ∀ w ∈ x.waits, w.2 ≤ x.done + 1 → ((p : Nat), Waiter.pre w.1) ∈ t.halter.released)) ∧
    (∀ core n, s.halterAt p k = some ⟨p, id, .barWait core n⟩ →
      ∃ t, exec (.halterWait p [k] cc) s = .next t ∧
        (n ≤ x.done → t.halter.released = s.halter.released ++ [((p : Nat), .pre core)] ∧
          tabFind t.halter.bars key = some x) ∧
        (x.done < n → t.halter.released = s.halter.released ∧
          tabFind t.halter.bars key = some { x with waits := x.waits ++ [(core, n)] }))) ∧
  (∀ (p : Part) (k cc id : Nat) (op : HalterOp) (s : State), s.halterAt p k = some ⟨p, id, op⟩ →
    let sem := (s.semKey p id).bind (tabFind s.halter.sems)
    let bar := (s.barKey p id).bind (tabFind s.halter.bars)
    let lost := fun (t : State) (w : List (Nat × Waiter)) =>
      t.halter = { s.halter with
        flying := s.halter.flying.eraseIdx k, released := s.halter.released ++ w } ∧
      ∀ st, s.stepOf p = some st → t.stepOf p = some { st with reset := true }
    (op = .arrive → bar = none → ∃ t, exec (.halterArrive p k cc) s = .next t ∧ lost t []) ∧
    (∀ n, op = .signal n → sem = none → ∃ t, exec (.halterSignal p k cc) s = .next t ∧ lost t []) ∧
    (∀ w n, op = .semWait w n → sem = none →
      ∃ t, exec (.halterWait p [k] cc) s = .next t ∧ lost t [((p : Nat), w)]) ∧
    (∀ core n, op = .barWait core n → bar = none →
      ∃ t, exec (.halterWait p [k] cc) s = .next t ∧ lost t [((p : Nat), .pre core)])) ∧
  (∀ (p : Part) (k cc : Nat) (s : State),
    ((∀ m, s.halterAt p k = some m → m.op ≠ .arrive) → exec (.halterArrive p k cc) s = .next s) ∧
    ((∀ m, s.halterAt p k = some m → ∀ n, m.op ≠ .signal n) → exec (.halterSignal p k cc) s = .next s) ∧
    ∀ ks : List Nat, (∀ j ∈ ks, ∀ m, s.halterAt p j = some m → m.op.isWait = false) →
      exec (.halterWait p ks cc) s = .next s)

/-- A release that reaches its waiter lets it go on: a nest waiting in PRE or for its ITER semaphore runs, a
drover stream may start, a TRANSFER slot or collective has its semaphore; while the input power is low no nest goes on,
and a core that does not wait stays as it is (R157, R163, R429). The watchdog of a cluster all
of whose nests are stuck sets WDOG, counts, makes the step DATA_ERROR and ends the cluster's waits; with LIMIT
0 it never fires, nor where a nest is not stuck or no core runs one (R168). -/
def Obligations.HalterReleasesAndWatchdog : Prop :=
  (∀ (k cc p core : Nat) (x : Nest) (s : State), core < 256 → s.nest core = some x →
    s.flag CLK_STATUS_VIN_WARN = false →
    (s.halter.released[k]? = some (p, .pre core) → x.q.phase = .waitPre →
      ∃ (t : State) (q : Seq), exec (.halterRelease k cc) s = .next t ∧ t.seq core = some q ∧ q.phase = .run ∧
        q.desc = x.q.desc ∧ t.halter.released = s.halter.released.eraseIdx k) ∧
    (s.halter.released[k]? = some (p, .iter core) → x.q.phase = .waitIter →
      ∃ t, exec (.halterRelease k cc) s = .next t ∧
        t.seq core = some { x.q with phase := .run, granted := true } ∧
        t.halter.released = s.halter.released.eraseIdx k) ∧
    (s.halter.released[k]? = some (p, .pre core) ∧ x.q.phase ≠ .waitPre ∨
      s.halter.released[k]? = some (p, .iter core) ∧ x.q.phase ≠ .waitIter →
      ∃ t, exec (.halterRelease k cc) s = .next t ∧ t.seqs = s.seqs ∧
        t.halter.released = s.halter.released.eraseIdx k)) ∧
  (∀ (k cc p core : Nat) (s : State), s.flag CLK_STATUS_VIN_WARN = true →
    s.halter.released[k]? = some (p, .pre core) ∨ s.halter.released[k]? = some (p, .iter core) →
    exec (.halterRelease k cc) s = .next s) ∧
  (∀ (k cc : Nat) (s : State), s.halter.released[k]? = none → exec (.halterRelease k cc) s = .next s) ∧
  (∀ (k cc p j : Nat) (s : State),
    (s.halter.released[k]? = some (p, .drover j) → ∃ t, exec (.halterRelease k cc) s = .next t ∧
      ∀ d ∈ t.drovers, d.2.part = p → d.2.node = j → d.2.semOk = true) ∧
    (∀ st, s.halter.released[k]? = some (p, .slot j) → s.stepOf p = some st →
      ∃ (t : State) (u : Step), exec (.halterRelease k cc) s = .next t ∧ t.stepOf p = some u ∧
        ∀ x ∈ u.transfers, x.slot = j → x.semOk = true) ∧
    (∀ r x, s.halter.released[k]? = some (p, .coll j) → s.collRun p j = some r → s.collCtx p j = some x →
      ∃ (t : State) (q : CollRun), exec (.halterRelease k cc) s = .next t ∧ t.collRun p j = some q ∧
        q.semOk = true)) ∧
  (∀ (c : ClusterId) (s : State),
    (s.fld CLU_HLT_WDOG_LIMIT_LIMIT c = 0 ∨ s.nestsOf c = [] ∨ (s.nestsOf c).all s.stuck = false →
      exec (.watchdogFire c) s = .next s) ∧
    (s.fld CLU_HLT_WDOG_LIMIT_LIMIT c ≠ 0 → s.nestsOf c ≠ [] → (s.nestsOf c).all s.stuck = true →
      tabWf s.halter.sems → ∃ t, exec (.watchdogFire c) s = .next t ∧ t.flag CLU_HLT_STATUS_WDOG c = true ∧
        t.fld CLU_WDOG_COUNT_COUNT c = min (s.fld CLU_WDOG_COUNT_COUNT c + 1) 0xFFFFFFFF ∧
        (∀ e ∈ t.halter.sems, ∀ w ∈ e.2.queue, t.waitsIn c w.1 w.2.1 = false) ∧
        ∀ p st, s.partOfCluster c = some p → s.stepOf p = some st → ∃ u, t.stepOf p = some u ∧ u.cause ≠ 0))

/-! ## Drovers (R271 to R278) -/

/-- A drover stream whose START_WAIT is satisfied starts with the count it reads, or with 0 under a fault where that
word cannot be read; a started gather puts its
next bale into the send half of its edge unless two wait there, and on a broken chute drops it; a scatter takes the bale
at the head of its ring and gives its credits back. One that needs a tensor whose fetch is under way waits, and so do
streams before their start or, all starts, while the input power is low (R271 to R279, R429). -/
def Obligations.DroverStreamsMoveBales : Prop :=
  (∀ (d : DroverId) (s : State), s.droving d = none → ∀ fails errs,
    exec (.droverStreamStart d fails errs) s = .next s ∧ exec (.droverBaleDeliver d errs) s = .next s ∧
      exec (.droverScatterBale d errs) s = .next s) ∧
  ∀ (d : DroverId) (x : Droving) (s : State), s.droving d = some x →
    let c := s.chuteOf x.d.part x.d.plan x.e
    let count := fieldAt x.n.record 16 4
    let first := count :: (if x.n.dMode = 3 then [x.n.dIndex] else [])
    let rows := [x.n.dIndex, x.n.dData]
    let waits := fun cmd => ∃ t, exec cmd s = .next t ∧ t.drovers = s.drovers ∧ t.chutes = s.chutes ∧ t.mem = s.mem
    (∀ fails, x.d.started = true ∨ x.d.semOk = false ∨ s.flag CLK_STATUS_VIN_WARN = true →
      exec (.droverStreamStart d fails []) s = .next s) ∧
    (∀ fails, x.d.started = false → x.d.semOk = true → s.flag CLK_STATUS_VIN_WARN = false →
      (first.any (s.fetching x.d.part) = true → waits (.droverStreamStart d fails [])) ∧
      (first.any (s.fetching x.d.part) = false →
        ∃ (t : State) (r : Drove), exec (.droverStreamStart d fails []) s = .next t ∧
          tabFind t.drovers d = some r ∧ r.started = true ∧ r.pos = 0 ∧
          (∀ n, 0 ∉ fails → s.tensorWord x.d.part count (fieldAt x.n.record 20 4) = some n → r.n = n) ∧
          (0 ∈ fails ∨ s.tensorWord x.d.part count (fieldAt x.n.record 20 4) = none →
            r.n = 0 ∧ t.flag (DRV_STATUS_FAULT ((d : Nat) % 4)) ((d : Nat) / 4) = true) ∧
          ⟨x.d.part, fieldAt x.n.record 44 4, .signal 1⟩ ∈ t.halter.flying)) ∧
    (x.d.started = false ∨ x.d.ended = true ∨ x.n.dMode = 2 ∨ 2 ≤ c.half.length →
      exec (.droverBaleDeliver d []) s = .next s) ∧
    (x.d.started = true → x.d.ended = false → x.n.dMode ≠ 2 → c.half.length < 2 →
      (x.n.dMode = 1 → rows.any (s.fetching x.d.part) = true → waits (.droverBaleDeliver d [])) ∧
      ((x.n.dMode = 1 → rows.any (s.fetching x.d.part) = false) →
        ∃ (t : State) (r : Drove), exec (.droverBaleDeliver d []) s = .next t ∧
          tabFind t.drovers d = some r ∧ r.pos = x.d.pos + 1 ∧
          (c.broken = true → t.chutes = s.chutes) ∧
          (c.broken = false → ∃ it, (t.chuteOf x.d.part x.d.plan x.e).half = c.half ++ [it]))) ∧
    (x.d.started = false ∨ x.n.dMode ≠ 2 ∨ c.ring = [] → exec (.droverScatterBale d []) s = .next s) ∧
    (∀ it rest, x.d.started = true → x.n.dMode = 2 → c.ring = it :: rest →
      (rows.any (s.fetching x.d.part) = true → waits (.droverScatterBale d [])) ∧
      (rows.any (s.fetching x.d.part) = false →
        ∃ (t : State) (r : Drove), exec (.droverScatterBale d []) s = .next t ∧ tabFind t.drovers d = some r ∧
          r.pos = x.d.pos + 1 ∧ (t.chuteOf x.d.part x.d.plan x.e).ring = rest ∧
          (c.broken = false → it.units ≠ 0 →
            (t.chuteOf x.d.part x.d.plan x.e).returns = c.returns ++ [it.units])))

/-! ## Holgor links (R330 to R341, R348, R362, R363, R408) -/

/-- The state of a link. Training that finishes with enough lanes takes it UP with full credits if the
neighbour is the one the address requires, and leaves it MISWIRED under violation 0x06 otherwise; it is
tried four times in all. A link that leaves UP has DOWN_EVENT, a higher epoch and no packets left; ENABLE 0
holds it down, ENABLE turned on trains it where it has a neighbour; a lane in use that fails takes it down and one not
in use does not. A report about a link that is not UP, or not in training, changes nothing. -/
def Obligations.LinkStates : Prop :=
  (∀ (l : LinkId) (bad : List (Fin 9)) (rank dom far delay m : Nat) (s : State),
    s.flag HLK_STATUS_TRAINING l = true →
    (let b := bad.map (·.val)
     laneMask ((s.link l).failed ++ b.filter fun n => !(s.link l).failed.contains n)) = some m →
    ∃ t, exec (.linkTrainDone l bad rank dom far delay) s = .next t ∧ t.flag HLK_STATUS_TRAINING l = false ∧
      t.fld HLK_LANES_ACTIVE l = m % 512 ∧
      (rank = neighbourOf s.dims (s.fld HLK_ADDR_RANK) l ∧ dom = s.fld HLK_ADDR_DOMAIN ∧ far = farLink l →
        t.flag HLK_STATUS_UP l = true ∧ (t.link l).credits = fullCredits ∧ (t.link l).unacked = [] ∧
        (t.link l).forward = []) ∧
      (rank ≠ neighbourOf s.dims (s.fld HLK_ADDR_RANK) l ∨ dom ≠ s.fld HLK_ADDR_DOMAIN ∨ far ≠ farLink l →
        t.flag HLK_STATUS_UP l = s.flag HLK_STATUS_UP l ∧ t.flag HLK_STATUS_MISWIRED l = true ∧
        t.flag HLK_STATUS_VIOL l = true ∧
        (s.flag HLK_STATUS_VIOL l = false → t.fld HLK_VIOL_CODE_CODE l = 6))) ∧
  (∀ (l : LinkId) (bad : List (Fin 9)) (rank dom far delay : Nat) (s : State),
    s.flag HLK_STATUS_TRAINING l = false ∨
      (let b := bad.map (·.val)
       laneMask ((s.link l).failed ++ b.filter fun n => !(s.link l).failed.contains n)) = none →
    exec (.linkTrainDone l bad rank dom far delay) s = .next s) ∧
  (∀ (l : LinkId) (s : State), (s.flag HLK_STATUS_TRAINING l = false → exec (.linkTrainTimeout l) s = .next s) ∧
    (s.flag HLK_STATUS_UP l = false → ∀ delay, exec (.linkDelayMeasure l delay) s = .next s) ∧
    ∀ lane : Fin 9, (lane : Nat) ∈ (s.link l).failed → exec (.laneFail l lane) s = .next s) ∧
  (∀ (l : LinkId) (s : State), s.flag HLK_STATUS_TRAINING l = true →
    ((s.link l).tries < 3 → ∃ t, exec (.linkTrainTimeout l) s = .next t ∧ t.regs = s.regs ∧
      (t.link l).tries = (s.link l).tries + 1) ∧
    (3 ≤ (s.link l).tries → ∃ t, exec (.linkTrainTimeout l) s = .next t ∧
      t.flag HLK_STATUS_TRAINING l = false)) ∧
  (∀ (l : LinkId) (reset : Bool) (lost : List (Part × Landing)) (s : State),
    (s.flag HLK_STATUS_UP l = false → exec (.linkDown l reset lost) s = .next s) ∧
    (s.flag HLK_STATUS_UP l = true → (∀ p ∈ s.stepping, p < 32) →
      ∃ t, exec (.linkDown l reset lost) s = .next t ∧
      t.flag HLK_STATUS_UP l = false ∧ t.flag HLK_STATUS_DOWN_EVENT l = true ∧
      t.fld HLK_STATUS_EPOCH l = (s.fld HLK_STATUS_EPOCH l + 1) % 256 ∧ (t.link l).unacked = [] ∧
      (t.link l).forward = [] ∧ (t.link l).credits = [])) ∧
  (∀ (val : Word) (s : State),
    let l := s.linkSel
    let c := if bitOf val 0 then Instr.linkReset val else Instr.linkEnableWrite val
    (∀ p ∈ s.stepping, p < 32) → ∃ t, exec c s = .next t ∧ t.flag HLK_CTRL_ENABLE l = bitOf val 1 ∧
      (bitOf val 1 = false ∨ bitOf val 0 = true → t.flag HLK_STATUS_UP l = false ∧
        (s.flag HLK_STATUS_UP l = true → t.fld HLK_STATUS_EPOCH l = (s.fld HLK_STATUS_EPOCH l + 1) % 256)) ∧
      (bitOf val 1 = false → t.flag HLK_STATUS_TRAINING l = false) ∧
      (bitOf val 1 = true → bitOf val 0 = false → s.flag HLK_CTRL_ENABLE l = false → s.noDimension l = false →
        s.fabricUp = true → t.flag HLK_STATUS_TRAINING l = true ∧ (t.link l).tries = 0)) ∧
  (∀ (val : Word) (s : State), (bitOf val 0 = false → exec (.linkReset val) s = .next s) ∧
    (bitOf val 0 = true → exec (.linkEnableWrite val) s = .next s)) ∧
  (∀ (l : LinkId) (lane : Fin 9) (s : State), (lane : Nat) ∉ (s.link l).failed →
    ((s.fld HLK_LANES_ACTIVE l).testBit lane = false → ∃ t, exec (.laneFail l lane) s = .next t ∧
      t.regs = s.regs ∧ (t.link l).failed = (lane : Nat) :: (s.link l).failed) ∧
    ((s.fld HLK_LANES_ACTIVE l).testBit lane = true → (∀ p ∈ s.stepping, p < 32) →
      ∃ t, exec (.laneFail l lane) s = .next t ∧
      t.flag HLK_STATUS_UP l = false)) ∧
  (∀ (l : LinkId) (delay : Nat) (s : State), s.flag HLK_STATUS_UP l = true →
    ∃ t, exec (.linkDelayMeasure l delay) s = .next t ∧ t.fld HLK_DELAY_DELAY l = delay % 2 ^ 32 ∧
      (t.link l).measured = s.beat)

/-- Packets of a link. A packet of this module, or the next of its virtual channel to forward, that its route takes
over an UP link, in its window, and with nothing on a higher channel ahead of it, goes
out when a credit for each flit is held, which it uses up, and is kept for replay under the next sequence
number; without credits it is held and counted, with the replay buffer full it waits, and with no window at all it is
dropped under violation 0x05. A good packet that arrives is counted in and, if it is for
another module, kept to be forwarded in order; one with a bad CRC or a stale epoch is dropped, one with a bad header
counts to the 16 in a row that take the link down, and one beyond its credits takes it down. An
acknowledgement frees what it covers, a NAK resends from its packet on, one of a packet never sent is violation 0x03,
and returned credits never pass the receiver's buffer. On a link that is not UP nothing happens (R332 to R341, R362,
R408). -/
def Obligations.LinkPacketsUseCredits : Prop :=
  (∀ (l : LinkId) (src : Option LinkId) (origin dest part xfer seq epoch : Nat) (vc : Fin 4) (flits : Nat)
      (s : State),
    let v := s.outVc l ⟨origin, dest, part, xfer, seq, epoch, vc, flits⟩
    let k : Packet := ⟨origin, dest, part, xfer, seq, epoch, vc, flits⟩
    let out : Packet := { k with vc := v }
    let c := Instr.linkPacketSend l src origin dest part xfer seq epoch vc flits
    let held := ((s.link l).unacked.map fun u => u.2.1.size).foldl (· + ·) 0
    let known := (src = none → origin = s.ownAddr) ∧
      ∀ f, src = some f → ((s.link f).forward.find? fun q => q.vc == (vc : Nat)) = some k
    let gone := fun t : State => ∀ f, src = some f → (t.link f).forward = (s.link f).forward.erase k
    (s.flag HLK_STATUS_UP l = false ∨ ¬known ∨ s.leavesBy dest l = false ∨ s.flag CLK_STATUS_VIN_WARN = true ∨
      512 < flits ∨ s.higherWaits l v = true → exec c s = .next s) ∧
    (s.flag HLK_STATUS_UP l = true → known → s.leavesBy dest l = true → s.flag CLK_STATUS_VIN_WARN = false →
      flits ≤ 512 → s.higherWaits l v = false →
      (s.linkWindow l out = 0 → ∃ t, exec c s = .next t ∧ t.flag HLK_STATUS_VIOL l = true ∧ t.mem = s.mem ∧
        (s.flag HLK_STATUS_VIOL l = false → t.fld HLK_VIOL_CODE_CODE l = 5) ∧ gone t ∧
        (t.link l).unacked = (s.link l).unacked ∧
        ∀ p st, origin = s.ownAddr → s.hostPart part = some p → s.stepOf p = some st →
          (∃ x ∈ st.transfers, x.slot = xfer) → ∃ u, t.stepOf p = some u ∧ u.link.isSome = true) ∧
      (s.linkWindow l out = 1 → exec c s = .next s) ∧
      (s.linkWindow l out = 2 →
        (flits + 1 ≤ (s.link l).credits.getD v 0 → held + (flits + 1) ≤ 12800 →
          ∃ t, exec c s = .next t ∧ (t.link l).unacked = (s.link l).unacked ++ [((s.link l).txSeq, out, 0)] ∧
            (t.link l).txSeq = (s.link l).txSeq + 1 ∧
            (t.link l).credits.getD v 0 = (s.link l).credits.getD v 0 - (flits + 1) ∧ gone t ∧
            (∀ j, j ≠ (l : Nat) → src.map (fun f => (f : Nat)) ≠ some j → t.link j = s.link j) ∧ t.mem = s.mem) ∧
        (flits + 1 ≤ (s.link l).credits.getD v 0 → 12800 < held + (flits + 1) → exec c s = .next s) ∧
        ((s.link l).credits.getD v 0 < flits + 1 → ∃ t, exec c s = .next t ∧ t.links = s.links ∧
          t.fld HLK_CREDIT_STALL_COUNT l = min (s.fld HLK_CREDIT_STALL_COUNT l + 1) 0xFFFFFFFF)))) ∧
  (∀ (l : LinkId) (origin dest part xfer seq epoch : Nat) (vc : Fin 4) (flits : Nat) (badHdr : Option Word)
      (corr uncorr : Nat) (s : State), (∀ p ∈ s.stepping, p < 32) →
    let k : Packet := ⟨origin, dest, part, xfer, seq, epoch, vc, flits⟩
    let c := fun ok => Instr.linkPacketReceive l origin dest part xfer seq epoch vc flits ok badHdr corr uncorr
    let good := s.rxHeld l vc + k.size ≤ fullCredits.getD vc 0
    let stale := dest = s.ownAddr ∧ epoch ≠ s.fld HLK_STATUS_EPOCH l
    let viol := fun (t : State) code => t.flag HLK_STATUS_VIOL l = true ∧
      (s.flag HLK_STATUS_VIOL l = false → t.fld HLK_VIOL_CODE_CODE l = code)
    (s.flag HLK_STATUS_UP l = false → ∀ ok, exec (c ok) s = .next s) ∧
    (s.flag HLK_STATUS_UP l = true →
      (∃ t, exec (c false) s = .next t ∧ t.links = s.links ∧ t.mem = s.mem) ∧
      (badHdr ≠ none ∨ 512 < flits → ∃ t, exec (c true) s = .next t ∧ viol t 1 ∧
        ((s.link l).badRun < 15 → (t.link l).badRun = (s.link l).badRun + 1 ∧
          (t.link l).forward = (s.link l).forward) ∧
        (15 ≤ (s.link l).badRun → t.flag HLK_STATUS_UP l = false)) ∧
      (badHdr = none → flits ≤ 512 → ¬good → ∃ t, exec (c true) s = .next t ∧ viol t 2 ∧
        t.flag HLK_STATUS_UP l = false) ∧
      (badHdr = none → flits ≤ 512 → good → ∃ t, exec (c true) s = .next t ∧
        (t.link l).rxSeq = (s.link l).rxSeq + 1 ∧ (t.link l).badRun = 0 ∧ t.mem = s.mem ∧
        (dest ≠ s.ownAddr → s.arrivesBy origin dest l = true →
          (t.link l).forward = (s.link l).forward ++ [k]) ∧
        (dest = s.ownAddr ∨ s.arrivesBy origin dest l = false → (t.link l).forward = (s.link l).forward) ∧
        (stale → t.fld HLK_STALE_DROPS_COUNT l = min (s.fld HLK_STALE_DROPS_COUNT l + 1) 0xFFFFFFFF) ∧
        (¬stale → s.arrivesBy origin dest l = false → viol t 4) ∧
        (¬stale → s.arrivesBy origin dest l = true → dest = s.ownAddr → s.hostPart part = none →
          viol t 5)))) ∧
  (∀ (l : LinkId) (seq : Nat) (s : State), (∀ p ∈ s.stepping, p < 32) →
    (s.flag HLK_STATUS_UP l = false → exec (.linkAckReceive l seq) s = .next s ∧
      exec (.linkNakReceive l seq) s = .next s) ∧
    (s.flag HLK_STATUS_UP l = true → (s.link l).txSeq ≤ seq →
      ∀ c ∈ [Instr.linkAckReceive l seq, .linkNakReceive l seq], ∃ t, exec c s = .next t ∧ t.links = s.links ∧
        t.flag HLK_STATUS_VIOL l = true ∧ (s.flag HLK_STATUS_VIOL l = false → t.fld HLK_VIOL_CODE_CODE l = 3)) ∧
    (s.flag HLK_STATUS_UP l = true → seq < (s.link l).txSeq →
      (∃ t, exec (.linkAckReceive l seq) s = .next t ∧ t.regs = s.regs ∧
        (t.link l).unacked = (s.link l).unacked.filter fun u => decide (seq < u.1)) ∧
      ((∀ u ∈ (s.link l).unacked, seq ≤ u.1 → u.2.2 < 8) → ∃ t, exec (.linkNakReceive l seq) s = .next t ∧
        (t.link l).unacked = (s.link l).unacked.map fun u =>
          if seq ≤ u.1 then (u.1, u.2.1, u.2.2 + 1) else u) ∧
      ((∃ u ∈ (s.link l).unacked, seq ≤ u.1 ∧ 8 ≤ u.2.2) → ∃ t, exec (.linkNakReceive l seq) s = .next t ∧
        t.flag HLK_STATUS_UP l = false))) ∧
  (∀ (l : LinkId) (vc : Fin 4) (n : Nat) (s : State),
    (s.flag HLK_STATUS_UP l = false → exec (.linkCreditReturn l vc n) s = .next s) ∧
    (s.flag HLK_STATUS_UP l = true → (s.link l).credits.length = 4 →
      ∃ t, exec (.linkCreditReturn l vc n) s = .next t ∧
        (t.link l).credits.getD vc 0 = min (fullCredits.getD vc 0) ((s.link l).credits.getD vc 0 + n) ∧
        ∀ v : Fin 4, v ≠ vc → (t.link l).credits.getD v 0 = (s.link l).credits.getD v 0))

/-- Transfers. A slot's transfer whose semaphore and source are ready, with no earlier one of the step before it on its
first link, goes out with its bytes, counted late past its beat; an uncorrectable source makes the step DATA_ERROR,
one in reset ends it, and with its first link down it ends LINK_ERROR. Once its last byte is visible it is done, and one
to this module itself lands; what a
peer sends lands in this partition's tensor and signals LAND_SEM, or in its landing buffer when that is free and no
earlier micro-batch is still to land, and waits otherwise. A drop notice ends its transfer with
LINK_ERROR (R253, R283, R359 to R362; the link down at sending is the model's reading, log entry 10). -/
def Obligations.TransfersGoOutAndLand : Prop :=
  (∀ (p : Part) (k : Nat) (s : State),
    ((s.stepOf p = none ∨ s.stepPlan p = none ∨ s.slotOf p k = none) → exec (.transferSend p k []) s = .next s) ∧
    (∀ st, s.stepOf p = some st → (st.transfers.find? fun t => t.slot == k) = none →
      exec (.transferSend p k []) s = .next s ∧ exec (.dropNoticeReceive p k) s = .next s ∧
      exec (.transferLand p (some k) none) s = .next s)) ∧
  (∀ (p : Part) (k : Nat) (st : Step) (pl : Plan) (sl : Slot) (t0 : Transfer) (s : State),
    s.stepOf p = some st → s.stepPlan p = some pl → pl.slots[k]? = some sl →
    (st.transfers.find? fun t => t.slot == k) = some t0 →
    let source := t0.bale = none ∧ sl.length ≠ 0
    let hold := t0.sent = true ∨ t0.semOk = false ∨
      (pl.pipeOf kindPipeSend k).isSome = true ∧ t0.bale = none ∨ s.flag CLK_STATUS_VIN_WARN = true ∨
      source ∧ s.fetching p sl.subject = true ∨ s.behind pl st k sl = true
    let w := (pl.ranks[sl.peer]?).getD 0
    let up := w / 8192 = s.ownAddr / 8192 → ∀ l,
      nextLink s.dims (s.fld HLK_ADDR_RANK) (w % 8192) false = some l → s.flag HLK_STATUS_UP l = true
    let bad := source ∧ ∃ at_, s.tensorPlace p sl.subject sl.srcOffset sl.length = some at_ ∧
      s.badAt (p + 1) at_ sl.length = true
    (hold → exec (.transferSend p k []) s = .next s) ∧
    (¬hold → s.transferBytes p t0 sl = none →
      ∃ (t : State) (u : Step), exec (.transferSend p k []) s = .next t ∧ t.stepOf p = some u ∧ u.reset = true ∧
        ∀ x ∈ u.transfers, x.slot ≠ k) ∧
    ∀ bs, ¬hold → s.transferBytes p t0 sl = some bs →
      ∃ (t : State) (u : Step), exec (.transferSend p k []) s = .next t ∧ t.stepOf p = some u ∧ t.mem = s.mem ∧
        (st.startBeat + sl.beat < s.beat →
          t.fld YTM_SLOT_LATE_COUNT = min (s.fld YTM_SLOT_LATE_COUNT + 1) 0xFFFFFFFF) ∧
        (bad → u.cause ≠ 0) ∧
        (up → ∀ x ∈ u.transfers, x.slot = k → x.sent = true ∧ (¬bad → x.bale = some bs)) ∧
        (¬up → u.link.isSome = true ∧ ∀ x ∈ u.transfers, x.slot ≠ k)) ∧
  (∀ (p : Part) (k : Nat) (st : Step) (pl : Plan) (sl : Slot) (t0 : Transfer) (s : State),
    s.stepOf p = some st → s.stepPlan p = some pl → pl.slots[k]? = some sl →
    (st.transfers.find? fun t => t.slot == k && t.sent) = some t0 →
    let w := pl.ranks[sl.peer]?
    ∃ (t : State) (u : Step), exec (.transferLand p (some k) none) s = .next t ∧ t.stepOf p = some u ∧
      u.transfers = st.transfers.filter (fun x => x.slot != k) ∧
      (w ≠ some s.ownAddr → t.mem = s.mem ∧ t.halter = s.halter) ∧
      (w = some s.ownAddr → pl.pipeOf kindPipeRecv k = none →
        t.halter.flying = s.halter.flying ++ [⟨p, sl.landSem, .signal 1⟩] ∧
        ∀ o, s.tensorPlace p sl.dstTensor sl.dstOffset (t0.bale.getD []).length = some (.gddr o) →
          t.readGddr (p + 1) o (t0.bale.getD []).length = t0.bale.getD [])) ∧
  (∀ (p : Part) (x : Landing) (s : State),
    (s.stepOf p = none → exec (.transferLand p none (some x)) s = .next s) ∧
    (exec (.transferLand p none none) s = .next s) ∧
    ∀ st pl, s.stepOf p = some st → s.stepPlan p = some pl →
      (x.pipe = none → ∃ t, exec (.transferLand p none (some x)) s = .next t ∧
        t.halter.flying = s.halter.flying ++ [⟨p, x.sem, .signal 1⟩] ∧
        (∀ o, s.tensorPlace p x.tensor x.off x.data.length = some (.gddr o) →
          t.readGddr (p + 1) o x.data.length = x.data ∧ t.host = s.host) ∧
        (s.tensorPlace p x.tensor x.off x.data.length = none → t.mem = s.mem ∧ t.host = s.host)) ∧
      (∀ node mb, x.pipe = some (node, mb) → st.landings = [] →
        ∃ (t : State) (u : Step), exec (.transferLand p none (some x)) s = .next t ∧ t.stepOf p = some u ∧
          t.mem = s.mem ∧
          (st.pipeTurn pl node mb = .free → u.landings = [] ∧
            u.pipes = st.pipes ++ [⟨node, mb % pl.buffersOf node, mb, ⟨x.data, [], none, x.poison, 0⟩⟩] ∧
            t.halter.flying = s.halter.flying ++
              [⟨p, ((pl.node node).map fun nd => fieldAt nd.record 16 4).getD x.sem, .signal 1⟩]) ∧
          (st.pipeTurn pl node mb ≠ .free → u.pipes = st.pipes ∧
            u.landings.map (fun e => (e.1, e.2.1)) = [(x, false)] ∧ t.halter = s.halter))) ∧
  (∀ (p : Part) (k : Nat) (st : Step) (s : State), s.stepOf p = some st →
    (∃ x ∈ st.transfers, x.slot = k) → ∃ (t : State) (u : Step), exec (.dropNoticeReceive p k) s = .next t ∧
      t.stepOf p = some u ∧ u.transfers = st.transfers.filter (fun x => x.slot != k) ∧ u.link.isSome = true)

/-! ## Yard Time and Ethernet (R342 to R354, R359) -/

/-- At a beat the counter takes the count a TIME_SET gave, or the next one, a waiting period takes effect where the
count reaches a multiple of 4,096, and every slot of a running step
of a synchronised module, or of an elastic plan, whose beat has come fires; a strict plan's step stops without SYNCED
(R345, R351, R359). A frame of the module's source with good CRC
and SYNCED brings its period, and with a new time epoch its count, clearing SYNCED; a period outside 1 to 64,
or a count more than a beat off, is a violation that changes neither (R347, R353). A PTP message of the
source port makes the reference present (R344); what is not of the module's source, or is lost, changes no time. A
YTM_CTRL write waits while a step executes, and its UPLINK 12 to 15 is ignored (R346). -/
def Obligations.YardTimeBeatsAndFrames : Prop :=
  (∀ s : State, s.yt.nextCount.getD 0 < 2 ^ 64 → ∃ t, exec .yardBeat s = .next t ∧
    t.beat = s.yt.nextCount.getD ((s.beat + 1) % 2 ^ 64) ∧ t.yt.nextCount = none ∧
    t.loft.now = (s.loft.now + s.beatClocks) % 2 ^ 64 ∧
    (∀ q, s.yt.nextPeriod = some q → q ≤ 64 → s.yt.nextCount = none → t.beat % 4096 = 0 →
      t.period = q ∧ t.yt.nextPeriod = none) ∧
    ∀ p st pl k sl, s.stepOf p = some st → s.stepPlan p = some pl → st.running = true →
      st.stopped = false → pl.slots[k]? = some sl → st.startBeat + sl.beat ≤ t.beat →
      ∃ u, t.stepOf p = some u ∧ (s.synced = true ∨ pl.elastic = true → k ∈ u.fired) ∧
        (t.synced = false → pl.elastic = false → k ∉ st.fired → u.stopped = true ∧ u.link.isSome = true ∧
          u.fired = st.fired)) ∧
  (∀ (c : Instr) (l : LinkId) (count period epoch : Nat) (phase : Int) (s : State), count < 2 ^ 64 →
    epoch < 256 →
    (c = .markerFrameReceive count period epoch true true phase false ∧ s.ytSource = 1 ∨
      c = .timeFrameReceive l count period epoch true true phase false ∧ s.flag HLK_STATUS_UP l = true ∧
        s.ytSource = 2 ∧ s.fld YTM_CTRL_UPLINK = l) →
    ∃ t, exec c s = .next t ∧
      (1 ≤ period → period ≤ 64 → epoch ≠ s.fld YTM_PERIOD_EPOCH → t.beat = count ∧
        t.fld YTM_PERIOD_EPOCH = epoch ∧ t.fld YTM_PERIOD_PERIOD = period ∧ t.synced = false) ∧
      (1 ≤ period → period ≤ 64 → epoch = s.fld YTM_PERIOD_EPOCH → count ≤ s.beat + 1 → s.beat ≤ count + 1 →
        t.beat = s.beat ∧ t.fld YTM_PERIOD_PERIOD = period ∧ t.yt.present = true) ∧
      (period = 0 ∨ 64 < period ∨
          epoch = s.fld YTM_PERIOD_EPOCH ∧ (s.beat + 1 < count ∨ count + 1 < s.beat) →
        t.flag YTM_STATUS_VIOL = true ∧ t.beat = s.beat ∧
        t.fld YTM_PERIOD_PERIOD = s.fld YTM_PERIOD_PERIOD)) ∧
  (∀ (l : LinkId) (count period epoch : Nat) (synced crcOk lost : Bool) (phase : Int) (s : State),
    let used := synced = true ∧ crcOk = true ∧ lost = false
    (s.flag HLK_STATUS_UP l = false →
      exec (.timeFrameReceive l count period epoch synced crcOk phase lost) s = .next s) ∧
    (s.flag HLK_STATUS_UP l = true → ¬(used ∧ s.ytSource = 2 ∧ s.fld YTM_CTRL_UPLINK = l) →
      ∃ t, exec (.timeFrameReceive l count period epoch synced crcOk phase lost) s = .next t ∧ t.yt = s.yt ∧
        t.beat = s.beat ∧ t.reg YTM_STATUS = s.reg YTM_STATUS ∧ t.reg YTM_PERIOD = s.reg YTM_PERIOD) ∧
    (¬(used ∧ s.ytSource = 1) →
      exec (.markerFrameReceive count period epoch synced crcOk phase lost) s = .next s)) ∧
  (∀ (port : Fin 2) (ns : Nat) (frac : Int) (sync lost broken : Bool) (s : State),
    s.flag (HLK_ETH_STATUS_UP port) = false ∨
      broken = false ∧ ¬(s.ytSource = 3 ∧ s.fld YTM_CTRL_PTP_PORT = port ∧ sync = true ∧ lost = false) →
    exec (.ptpMessageReceive port ns frac sync broken lost) s = .next s) ∧
  (∀ (port : Fin 2) (ns : Nat) (frac : Int) (s : State), s.flag (HLK_ETH_STATUS_UP port) = true →
    (s.ytSource = 3 → s.fld YTM_CTRL_PTP_PORT = port →
      ∃ t, exec (.ptpMessageReceive port ns frac true false false) s = .next t ∧ t.yt.present = true ∧
        (s.ytState = ytLocked → t.yt.phase =
          (((s.reg64 YTM_PTP_ORIGIN_LO + s.beat * (s.period * 250) : Nat) : Int) - ns) * 2000 + frac)) ∧
    ∀ sync lost, ∃ t, exec (.ptpMessageReceive port ns frac sync true lost) s = .next t ∧ t.yt = s.yt ∧
      t.fld (HLK_ETH_PROTO_ERR_COUNT port) = min (s.fld (HLK_ETH_PROTO_ERR_COUNT port) + 1) 0xFFFFFFFF) ∧
  (∀ (val : Word) (s : State),
    let up := getBits ((s.yt.held).getD (s.reg YTM_CTRL)) 3 4
    let v := if getBits val 3 4 < 12 then val &&& 0xFF else setBits (val &&& 0xFF) 3 4 up
    (s.executing = false → ∃ t, exec (.ytmCtrlWrite val) s = .next t ∧ t.reg YTM_CTRL = v) ∧
    (s.executing = true → ∃ t, exec (.ytmCtrlWrite val) s = .next t ∧ t.regs = s.regs ∧ t.yt.held = some v))

/-- The states of Yard Time (R349 to R352, R354). A LOCKED module whose reference is lost, or runs more than
100 ppm from the locked rate, goes to HOLDOVER with SYNCED kept while its crystal runs, and is UNSYNC without it; a
synchronised SLEW does the same, ACQUIRE goes back to the holdover it left, and without SYNCED both are UNSYNC; a
reference that
returns is acquired, one rejected for its rate once it is near again; one that qualifies is slewed to at the rate it
has; a holdover of 60 s ends SYNCED,
HOLDOVER becoming UNSYNC. A free-running module knows no reference. -/
def Obligations.YardTimeStates : Prop :=
  (∀ s : State, s.ytSource ≠ 0 →
    let lost := s.ytState = ytLocked ∨ s.ytState = ytSlew ∨ s.ytState = ytAcquire
    (lost → ∃ t, exec .referenceLost s = .next t ∧ t.flag YTM_STATUS_REF_LOST = true ∧ t.beat = s.beat ∧
      t.yt.present = false ∧
      (s.ytState = ytLocked ∨ s.synced = true → s.clk.root = .crystal → t.ytState = ytHoldover ∧ t.synced = true ∧
        t.yt.hold = (if s.ytState = ytAcquire then s.yt.hold else some 0)) ∧
      (s.ytState = ytLocked ∨ s.synced = true → s.clk.root ≠ .crystal → t.ytState = ytUnsync ∧ t.synced = false ∧
        t.flag YTM_STATUS_UNSYNC_EVENT = true) ∧
      (s.ytState ≠ ytLocked → s.synced = false → t.ytState = ytUnsync ∧ t.synced = false)) ∧
    (¬lost → ∃ t, exec .referenceLost s = .next t ∧ t.regs = s.regs ∧ t.yt.present = false) ∧
    (∀ rate : Int, s.yt.present = true → s.beat % 4096 = 0 →
      let near := (rate - s.yt.lockRate).natAbs ≤ 100000
      (s.yt.rejected = false → s.ytState = ytLocked ∨ s.ytState = ytSlew → ¬near →
        ∃ t, exec (.referenceRateCheck rate) s = .next t ∧
          t.flag YTM_STATUS_RATE_REJECT = true ∧ t.yt.rejected = true ∧
          (s.ytState = ytLocked ∨ s.synced = true → s.clk.root = .crystal →
            t.ytState = ytHoldover ∧ t.synced = true)) ∧
      (s.yt.rejected = false → near ∨ s.ytState ≠ ytLocked ∧ s.ytState ≠ ytSlew →
        ∃ t, exec (.referenceRateCheck rate) s = .next t ∧
          t.ytState = s.ytState ∧ t.reg YTM_FREQ_OFFSET = wordOfInt rate ∧ t.yt = s.yt) ∧
      (s.yt.rejected = true → ¬near → ∃ t, exec (.referenceRateCheck rate) s = .next t ∧ t.yt = s.yt ∧
        t.ytState = s.ytState) ∧
      (s.yt.rejected = true → near → ∃ t, exec (.referenceRateCheck rate) s = .next t ∧ t.yt.rejected = false ∧
        (s.ytState = ytHoldover ∨ s.ytState = ytUnsync → t.ytState = ytAcquire) ∧ t.synced = s.synced))) ∧
  (∀ s : State, s.ytSource = 0 → exec .referenceLost s = .next s ∧ exec .referenceReturn s = .next s ∧
    ∀ rate, exec (.referenceRateCheck rate) s = .next s) ∧
  (∀ (rate : Int) (s : State), s.yt.present = false ∨ s.beat % 4096 ≠ 0 →
    exec (.referenceRateCheck rate) s = .next s) ∧
  (∀ s : State, s.ytSource ≠ 0 → ∃ t, exec .referenceReturn s = .next t ∧ t.synced = s.synced ∧
    t.yt.present = true ∧
    (s.yt.rejected = false → s.ytState = ytHoldover ∨ s.ytState = ytUnsync → t.ytState = ytAcquire) ∧
    (s.yt.rejected = true ∨ s.ytState ≠ ytHoldover ∧ s.ytState ≠ ytUnsync → t.regs = s.regs)) ∧
  (∀ (phase rate : Int) (expired : Bool) (s : State),
    (s.ytState ≠ ytAcquire → exec (.referenceQualified phase rate expired) s = .next s) ∧
    (s.ytState = ytAcquire →
      ∃ t, exec (.referenceQualified phase rate expired) s = .next t ∧ t.ytState = ytSlew ∧
        t.yt.phase = phase ∧ t.yt.lockRate = rate ∧ t.yt.hold = none ∧
        (expired = true → s.yt.hold.isSome = true → t.synced = false) ∧
        (expired = false ∨ s.yt.hold = none → t.synced = s.synced))) ∧
  (∀ s : State,
    let runs := s.yt.hold.isSome = true ∧ s.synced = true ∧ (s.ytState = ytHoldover ∨ s.ytState = ytAcquire)
    (¬runs → exec .holdoverExpiry s = .next s) ∧
    (runs → ∃ t, exec .holdoverExpiry s = .next t ∧
      t.synced = false ∧ t.flag YTM_STATUS_UNSYNC_EVENT = true ∧
      t.ytState = (if s.ytState = ytHoldover then ytUnsync else ytAcquire)))

/-- The Ethernet ports: a frame is counted, and a bad FCS, a frame over 9,216 bytes or a break of its protocol is an
error; a RoCE v2
request in sequence on a queue pair in use is acknowledged and moves the expected sequence on, a repeat is acknowledged
again, one ahead of the sequence or of another
kind is answered with a NAK (log entry 12 for its syndrome) and moves nothing, and one on a queue pair not in use is an
error; a port shows its link, and without one receives nothing
(R342, R343, R363). -/
def Obligations.EthernetCountsAndAnswers : Prop :=
  (∀ (port : Fin 2) (len : Nat) (ok broken : Bool) (s : State),
    (s.flag (HLK_ETH_STATUS_UP port) = false → exec (.ethFrameReceive port len ok broken) s = .next s) ∧
    (s.flag (HLK_ETH_STATUS_UP port) = true → ∃ t, exec (.ethFrameReceive port len ok broken) s = .next t ∧
      t.fld (HLK_ETH_RX_FRAMES_COUNT port) = min (s.fld (HLK_ETH_RX_FRAMES_COUNT port) + 1) 0xFFFFFFFF ∧
      (ok = false → t.fld (HLK_ETH_FCS_ERR_COUNT port) =
        min (s.fld (HLK_ETH_FCS_ERR_COUNT port) + 1) 0xFFFFFFFF) ∧
      (ok = true → t.fld (HLK_ETH_PROTO_ERR_COUNT port) = if broken = true ∨ 9216 < len then
        min (s.fld (HLK_ETH_PROTO_ERR_COUNT port) + 1) 0xFFFFFFFF
        else s.fld (HLK_ETH_PROTO_ERR_COUNT port)) ∧ t.eth = s.eth)) ∧
  (∀ (port : Fin 2) (qp kind psn : Nat) (s : State),
    (s.flag (HLK_ETH_STATUS_UP port) = false → exec (.roceRequest port qp kind psn) s = .next s) ∧
    (s.flag (HLK_ETH_STATUS_UP port) = true → s.knownQp port qp = false →
      ∃ t, exec (.roceRequest port qp kind psn) s = .next t ∧ t.eth = s.eth ∧ t.mem = s.mem ∧
        t.fld (HLK_ETH_PROTO_ERR_COUNT port) = min (s.fld (HLK_ETH_PROTO_ERR_COUNT port) + 1) 0xFFFFFFFF) ∧
    (s.flag (HLK_ETH_STATUS_UP port) = true → s.knownQp port qp = true →
      let want := tabGet 0 s.eth.psn qp
      let served := 1 ≤ kind ∧ kind ≤ 3
      let repeated := (want + 2 ^ 24 - psn) % 2 ^ 24 < 2 ^ 23
      ∃ t, exec (.roceRequest port qp kind psn) s = .next t ∧ t.mem = s.mem ∧
        (served → psn = want → tabGet 0 t.eth.psn qp = (psn + 1) % 2 ^ 24 ∧
          t.eth.replies = (qp, psn, 0) :: s.eth.replies) ∧
        (served → psn ≠ want → repeated → t.eth.psn = s.eth.psn ∧ t.eth.replies = (qp, psn, 0) :: s.eth.replies) ∧
        (served → psn ≠ want → ¬repeated → t.eth.psn = s.eth.psn ∧
          ∃ syn, syn ≠ 0 ∧ t.eth.replies = (qp, psn, syn) :: s.eth.replies) ∧
        (¬served → t.eth.psn = s.eth.psn ∧
          t.fld (HLK_ETH_PROTO_ERR_COUNT port) = min (s.fld (HLK_ETH_PROTO_ERR_COUNT port) + 1) 0xFFFFFFFF ∧
          ∃ syn, syn ≠ 0 ∧ t.eth.replies = (qp, psn, syn) :: s.eth.replies))) ∧
  (∀ (port : Fin 2) (up rate : Bool) (s : State), ∃ t, exec (.ethPortLinkChange port up rate) s = .next t ∧
    t.flag (HLK_ETH_STATUS_UP port) = up ∧ (up = true → t.flag (HLK_ETH_STATUS_RATE port) = rate))

/-! ## Muster (R366 to R392) -/

/-- Reductions. A member whose collective is open, whose semaphore is satisfied and whose source has come sends its
contribution,
stamped with the beat; before that, and while the input power is low, it waits. A child's sum of this step joins those
of its shard once, and
the one that completes a sent member's shard closes it; one for a shard already closed, or of another step, is dropped
where its slot says so, and otherwise held; so is one that comes between the steps of an elastic plan (R388). An elastic
parent past its close beat goes on without the missing
children, a strict one waits (R386, R387). A result due here is taken once (R371 to R373). -/
def Obligations.MusterSumsGoUpAndResultsDown : Prop :=
  (∀ (p : Part) (k : Nat) (s : State), s.collRun p k = none ∨ s.collCtx p k = none →
    exec (.contributionSend p k []) s = .next s ∧
    (∀ j, exec (.parentClose p k j) s = .next s) ∧
    ∀ j h data, exec (.collectiveResultReceive p k j h data) s = .next s) ∧
  (∀ (p : Part) (k id step j pos : Nat) (h : SumHdr) (data : List Word) (past : Bool) (s : State),
    s.stepOf p = none →
    let c := Instr.childSumReceive p id step k j pos h data past
    (s.planOf p id = none → exec c s = .next s) ∧
    ∀ pl q own, s.planOf p id = some pl → pl.colls[k]? = some q → pl.ownRank = some own →
      let drop := ((pl.slots.find? fun x => x.kind == 4 && x.subject == k).map (·.drop)).getD false
      (q.reduces = false ∨ own ∉ q.members ∨ pl.elastic = false → exec c s = .next s) ∧
      (q.reduces = true → own ∈ q.members → pl.elastic = true →
        ∃ t, exec c s = .next t ∧ t.yard.plans = s.yard.plans ∧
          (drop = true → t.yard.deferrals = s.yard.deferrals ∧
            t.fld MUS_DROPPED_COUNT p = min (s.fld MUS_DROPPED_COUNT p + 1) 0xFFFFFFFF) ∧
          (drop = false → ∃ e ∈ tabGet [] t.yard.deferrals p,
            e.plan = id ∧ e.coll = k ∧ e.shard = j ∧ e.pos = pos))) ∧
  ∀ (p : Part) (k : Nat) (r : CollRun) (x : CollCtx) (s : State), s.collRun p k = some r →
    s.collCtx p k = some x →
    let wait := r.opened = false ∨ r.semOk = false ∨ r.sent = true ∨ s.flag CLK_STATUS_VIN_WARN = true ∨
      r.withdrawn = false ∧ s.fetching p x.coll.src = true
    (¬wait → ∃ (t : State) (q : CollRun), exec (.contributionSend p k []) s = .next t ∧ t.collRun p k = some q ∧
      q.sent = true ∧ q.granted = true ∧ q.stamp = s.beat ∧ q.withdrawn = r.withdrawn) ∧
    (wait → exec (.contributionSend p k []) s = .next s) ∧
    (∀ (j pos : Nat) (h : SumHdr) (data : List Word) (past : Bool),
      (x.plan.elastic = true → x.replay = true ∨ r.opened = false ∨ s.beatPast (x.closeBeat j) past = false) →
      let c := fun id step => Instr.childSumReceive p id step k j pos h data past
      let kid := ∃ c ∈ x.kids j, c.1 = pos
      let drop := (x.slot.map (·.drop)).getD false
      let skip := x.replay = true ∧ pos ∈ s.replayLeft p k j x
      let dropped := fun t : State => t.yard.deferrals = s.yard.deferrals ∧
        t.fld MUS_DROPPED_COUNT p = min (s.fld MUS_DROPPED_COUNT p + 1) 0xFFFFFFFF
      let held := fun t : State => ∃ e ∈ tabGet [] t.yard.deferrals p,
        e.plan = x.id ∧ e.coll = k ∧ e.shard = j ∧ e.pos = pos
      (∀ id step, id ≠ x.id ∨ x.coll.reduces = false ∨ ¬kid → exec (c id step) s = .next s) ∧
      (x.coll.reduces = true → kid →
        (∀ step, step ≠ x.step.step → ∃ t, exec (c x.id step) s = .next t ∧ t.collRun p k = some r ∧
          (drop = true ∨ j ∈ r.closed → dropped t) ∧ (drop = false → j ∉ r.closed → held t)) ∧
        (skip → exec (c x.id x.step.step) s = .next s) ∧
        (¬skip → j ∈ r.closed ∨ j ∈ r.shut → ∃ t, exec (c x.id x.step.step) s = .next t ∧
          t.collRun p k = some r ∧ (drop = true → dropped t) ∧ (drop = false → held t)) ∧
        (¬skip → j ∉ r.closed → j ∉ r.shut → (∃ u ∈ r.sums, u.shard = j ∧ u.pos = pos) →
          exec (c x.id x.step.step) s = .next s) ∧
        (¬skip → j ∉ r.closed → j ∉ r.shut → (∀ u ∈ r.sums, ¬(u.shard = j ∧ u.pos = pos)) →
          ∃ (t : State) (q : CollRun), exec (c x.id x.step.step) s = .next t ∧ t.collRun p k = some q ∧
            ⟨j, pos, h, data⟩ ∈ q.sums ∧ (∀ u ∈ r.sums, u ∈ q.sums) ∧
            (r.opened = true → r.sent = true →
              (∀ d ∈ x.kids j, d.1 = pos ∨ ∃ u ∈ r.sums, u.shard = j ∧ u.pos = d.1) → j ∈ q.closed)))) ∧
    (∀ j,
      (x.coll.reduces = false ∨ r.opened = false ∨ j ∈ r.closed ∨ x.plan.elastic = false ∨ x.replay = true ∨
          s.beat < x.closeBeat j →
        exec (.parentClose p k j) s = .next s) ∧
      (x.coll.reduces = true → r.opened = true → j ∉ r.closed → x.plan.elastic = true → x.replay = false →
        x.closeBeat j ≤ s.beat →
        ∃ (t : State) (q : CollRun), exec (.parentClose p k j) s = .next t ∧ t.collRun p k = some q ∧
          j ∈ q.shut ∧ (r.sent = true → j ∈ q.closed))) ∧
    (∀ (j : Nat) (h : SumHdr) (data : List Word),
      (j ∉ x.due ∨ j ∈ r.results → exec (.collectiveResultReceive p k j h data) s = .next s) ∧
      (r.done = false → j ∈ x.due → j ∉ r.results →
        ∃ (t : State) (q : CollRun), exec (.collectiveResultReceive p k j h data) s = .next t ∧
          t.collRun p k = some q ∧ j ∈ q.results ∧ (∀ i ∈ r.results, i ∈ q.results)))

/-- Exchanges, whistles, cancellations and resets. Rows from each sender and a whistle vector of each other member
of the line and phase are taken once, and no others (R378, R382). MUS_CANCEL withdraws a contribution whose first flit
has
not been granted, is TOO_LATE for one that has, and REFUSED for what is no collective of the module; while one is under
way the next does nothing (R391). A
RESET mark ends the collective: it is done, DONE_SEM is signalled, the mark goes on to every other member and
the step is owed TARGET_RESET; one for a collective that is done changes nothing (R392). -/
def Obligations.MusterExchangesAndCancels : Prop :=
  (∀ (p : Part) (k : Nat) (s : State), s.collRun p k = none ∨ s.collCtx p k = none →
    (∀ m past, exec (.a2aRowsReceive p k m past) s = .next s) ∧
    (∀ sender phase h data, exec (.whistleMessageReceive p k sender phase h data) s = .next s) ∧
    exec (.resetMarkReceive p k) s = .next s) ∧
  (∀ (p : Part) (k : Nat) (r : CollRun) (x : CollCtx) (s : State), s.collRun p k = some r →
    s.collCtx p k = some x →
    (∀ (m : RowMsg) (past : Bool),
      let takes := r.done = false ∧ x.coll.exchanges = true ∧ m.sender < x.n ∧ ∀ a ∈ r.rows, a.sender ≠ m.sender
      (takes → ∃ (t : State) (q : CollRun),
        exec (.a2aRowsReceive p k m past) s = .next t ∧ t.collRun p k = some q ∧ m ∈ q.rows ∧
        ∀ a ∈ r.rows, a ∈ q.rows) ∧
      (¬takes → exec (.a2aRowsReceive p k m past) s = .next s)) ∧
    (∀ (sender : Nat) (phase : Fin 4) (h : SumHdr) (data : List Word),
      let takes := r.done = false ∧ x.coll.op = 8 ∧ sender ≠ x.rank ∧ sender ∈ x.line phase ∧
        ∀ v ∈ r.vecs, ¬(v.1 = phase ∧ v.2.1 = sender)
      (takes → ∃ (t : State) (q : CollRun), exec (.whistleMessageReceive p k sender phase h data) s = .next t ∧
        t.collRun p k = some q ∧ ((phase : Nat), sender, h, data) ∈ q.vecs) ∧
      (¬takes → exec (.whistleMessageReceive p k sender phase h data) s = .next s)) ∧
    (r.done = true → exec (.resetMarkReceive p k) s = .next s) ∧
    (r.done = false → ∃ (t : State) (q : CollRun) (u : Step), exec (.resetMarkReceive p k) s = .next t ∧
      t.collRun p k = some q ∧ q.done = true ∧ t.stepOf p = some u ∧ u.reset = true ∧
      ⟨p, x.coll.doneSem, .signal 1⟩ ∈ t.halter.flying ∧
      (2 ≤ x.n → x.rank < x.n → ∃ m ∈ t.mus.outbox, m.kind = 4 ∧ m.coll = k ∧
        ∀ i, i < x.n → i ≠ x.rank → i ∈ m.dests))) ∧
  (∀ (fn : Fn) (val : Word) (sameCc : Bool) (s : State),
    (fn : Nat) = 0 ∨ s.fnLive fn = false ∨ s.flag MUS_CANCEL_STATUS_BUSY (fn - 1 : Nat) = true →
    exec (.musCancel fn val sameCc) s = .next s) ∧
  (∀ (p : Part) (fn : Fn) (val : Word) (sameCc : Bool) (s : State), (fn : Nat) = p + 1 → s.prtState p = 1 →
    s.flag MUS_CANCEL_STATUS_BUSY p = false →
    let id := getBits val 12 4
    let k := getBits val 0 12
    ((∀ pl, s.planOf p id = some pl → ∀ c, pl.colls[k]? = some c → ∀ own, pl.ownRank = some own →
        own ∉ c.members ∨ c.op = 9) →
      ∃ t, exec (.musCancel fn val sameCc) s = .next t ∧
        t.fld MUS_CANCEL_STATUS_CODE p = 0x30 ∧ t.yard = s.yard ∧ t.mus = s.mus) ∧
    (∀ pl c own, s.planOf p id = some pl → pl.colls[k]? = some c → pl.ownRank = some own → own ∈ c.members →
      c.op ≠ 9 →
      (∀ st r, s.stepOf p = some st → st.plan = id → (st.colls.find? fun r => r.coll == k) = some r →
        (r.granted = true ∨ sameCc = true → ∃ t, exec (.musCancel fn val sameCc) s = .next t ∧
          t.fld MUS_CANCEL_STATUS_CODE p = 0x10 ∧ t.yard = s.yard) ∧
        (r.granted = false → sameCc = false → ∃ (t : State) (q : CollRun),
          exec (.musCancel fn val sameCc) s = .next t ∧ t.fld MUS_CANCEL_STATUS_CODE p = 0x11 ∧
          t.collRun p k = some q ∧ q.withdrawn = true)) ∧
      ((∀ st, s.stepOf p = some st → st.plan = id → (st.colls.find? fun r => r.coll == k) = none) →
        ∃ t, exec (.musCancel fn val sameCc) s = .next t ∧
          t.fld MUS_CANCEL_STATUS_CODE p = 0x11 ∧ t.yard = s.yard ∧ ((p : Nat), id, k) ∈ t.mus.withdraw)))

/-! ## Clocks, heat and the 48 V input (R414 to R430) -/

/-- The root clock. A CLK_CTRL write that selects a source or loop that is not ready (or FOSC in isolation mode)
is refused, and changes nothing else; one between crystals is taken at once, and one into or out of FOSC waits
for a plan boundary. A faulty reference that is in use is counted and the loop takes XB or holds; one that is
not in use only stops being ready. A root loop that loses lock gives way to the other; with neither the root is
lost. Spread, bounds and cap are taken within their ranges only, and a gated clock changes nothing that a command
sees. Without power the inputs show nothing (R414 to R422, R425, R430). -/
def Obligations.RootClock : Prop :=
  ∀ s : State,
    (∀ val : Word, let r := getBits val 0 2
      let lock := if bitOf val 2 then CLK_STATUS_LOOPB_LOCK else CLK_STATUS_LOOPA_LOCK
      let ready := r ≠ 3 ∧ (r = 0 → s.flag CLK_STATUS_XA_READY = true) ∧
        (r = 1 → s.flag CLK_STATUS_XB_READY = true) ∧ s.flag lock = true ∧
        (s.isolated = true → r ≠ 2 ∧ s.onFosc = false)
      (¬ready → ∃ t, exec (.clkCtrlWrite val) s = .next t ∧ t.flag CLK_STATUS_SWITCH_REFUSED = true ∧
        t.clk = s.clk ∧ t.reg CLK_CTRL = s.reg CLK_CTRL) ∧
      (ready → r ≠ 2 → s.onFosc = false → ∃ t, exec (.clkCtrlWrite val) s = .next t ∧
        t.clk.root = .crystal ∧ t.fld CLK_STATUS_REF = r ∧ t.fld CLK_STATUS_LOOP = (bitOf val 2).toNat ∧
        t.reg CLK_CTRL = val &&& 0xF) ∧
      (ready → (r = 2 ↔ s.onFosc = false) → s.allBoundary = false →
        ∃ t, exec (.clkCtrlWrite val) s = .next t ∧ t.regs = s.regs ∧ t.clk.heldSel = some val ∧
          t.clk.root = s.clk.root) ∧
      (ready → r = 2 → s.onFosc = false → s.allBoundary = true →
        ∃ t, exec (.clkCtrlWrite val) s = .next t ∧ t.clk.root = .fosc ∧ t.fld CLK_STATUS_REF = 2) ∧
      (ready → r = 2 → s.onFosc = true → ∃ t, exec (.clkCtrlWrite val) s = .next t ∧ t.clk.root = s.clk.root ∧
        t.reg CLK_CTRL = val &&& 0xF) ∧
      (ready → r ≠ 2 → s.onFosc = true → s.allBoundary = true → ∃ t, exec (.clkCtrlWrite val) s = .next t ∧
        t.clk.root = .crystal ∧ t.fld CLK_STATUS_REF = r ∧ t.flag CLK_STATUS_FOSC_CLAMP = false)) ∧
    (∀ xb : Bool, let mine := if xb then CLK_STATUS_XB_READY else CLK_STATUS_XA_READY
      (s.clk.off = true → exec (.clockRefReady xb) s = .next s) ∧
      (s.clk.off = true ∨ s.flag CLK_STATUS_VIN_WARN = true → exec (.clockRefFault xb) s = .next s) ∧
      (s.clk.off = false → ∃ t, exec (.clockRefReady xb) s = .next t ∧ t.flag mine = true ∧ t.clk = s.clk) ∧
      (s.clk.off = false → s.flag CLK_STATUS_VIN_WARN = false →
        (¬(s.clk.root = .crystal ∧ s.fld CLK_STATUS_REF = xb.toNat) → ∃ t,
          exec (.clockRefFault xb) s = .next t ∧ t.flag mine = false ∧ t.clk = s.clk ∧
          t.fld CLK_STATUS_REF = s.fld CLK_STATUS_REF) ∧
        (s.clk.root = .crystal → s.fld CLK_STATUS_REF = xb.toNat → ∃ t,
          exec (.clockRefFault xb) s = .next t ∧ t.flag mine = false ∧ t.flag CLK_STATUS_REF_FAULT = true ∧
          t.fld CLK_REF_FAULT_COUNT_COUNT = min (s.fld CLK_REF_FAULT_COUNT_COUNT + 1) 0xFFFFFFFF ∧
          (xb = false → s.flag CLK_STATUS_XB_READY = true → s.flag CLK_CTRL_AUTO_FAILOVER = true →
            t.clk.root = .crystal ∧ t.fld CLK_STATUS_REF = 1) ∧
          (xb = true ∨ s.flag CLK_STATUS_XB_READY = false ∨ s.flag CLK_CTRL_AUTO_FAILOVER = false →
            t.clk.root = .held ∧ t.fld CLK_STATUS_REF = 3)))) ∧
    (∀ b : Bool, let mine := if b then CLK_STATUS_LOOPB_LOCK else CLK_STATUS_LOOPA_LOCK
      let other := if b then CLK_STATUS_LOOPA_LOCK else CLK_STATUS_LOOPB_LOCK
      (s.clk.off = true ∨ s.flag mine = false → exec (.loopLockLoss b) s = .next s) ∧
      (s.clk.off = false → s.flag mine = true →
        ∃ t, exec (.loopLockLoss b) s = .next t ∧
          (s.flag other = true → t.flag mine = false ∧ t.clk.root = s.clk.root ∧ t.clk.lostRoot = s.clk.lostRoot ∧
            t.fld CLK_STATUS_LOOP = if s.fld CLK_STATUS_LOOP = b.toNat then (!b).toNat else s.fld CLK_STATUS_LOOP) ∧
          (s.flag other = false → t.clk.root = .fosc ∧ t.clk.lostRoot = true))) ∧
    (∀ val : Word, let n := getBits val 0 4
      (10 < n → exec (.clkSscWrite val) s = .next s) ∧
      (n ≤ 10 → ∃ t, exec (.clkSscWrite val) s = .next t ∧ t.fld CLK_SSC_SPREAD = n ∧
        (s.allBoundary = true → t.clk.spread = n) ∧
        (s.allBoundary = false → t.clk.spread = s.clk.spread ∧ t.clk.heldSpread = some n))) ∧
    (∀ val : Word, let lo := getBits val 0 5
      let hi := getBits val 8 5
      let w := getBits val 0 16
      (lo ≤ hi → hi ≤ 16 → ∃ t, exec (.clkBoundsWrite CLK_FREQ_BOUNDS val) s = .next t ∧
        t.fld CLK_FREQ_BOUNDS_PMIN = lo ∧ t.fld CLK_FREQ_BOUNDS_PMAX = hi) ∧
      (hi < lo ∨ 16 < hi → ∃ t, exec (.clkBoundsWrite CLK_FREQ_BOUNDS val) s = .next t ∧
        t.flag CLK_STATUS_BOUND_ERR = true ∧ t.reg CLK_FREQ_BOUNDS = s.reg CLK_FREQ_BOUNDS) ∧
      (800 ≤ w → w ≤ 2400 → ∃ t, exec (.clkBoundsWrite CLK_PWR_CAP val) s = .next t ∧
        t.fld CLK_PWR_CAP_WATTS = w) ∧
      (w < 800 ∨ 2400 < w → ∃ t, exec (.clkBoundsWrite CLK_PWR_CAP val) s = .next t ∧
        t.flag CLK_STATUS_BOUND_ERR = true ∧ t.reg CLK_PWR_CAP = s.reg CLK_PWR_CAP) ∧
      ∀ off, off ≠ CLK_FREQ_BOUNDS → off ≠ CLK_PWR_CAP → exec (.clkBoundsWrite off val) s = .next s) ∧
    (∀ u : Fin 1152, ∃ t, exec (.clockGate u) s = .next t ∧ t.regs = s.regs ∧ t.host = s.host ∧ t.mem = s.mem ∧
      tabFind t.clk.gated u = some true)

/-- Heat and power. A junction sample from 105 °C puts its die into emergency at point 0 and one from 115 °C trips
the module: every regulator off, the die recorded; an emergency tightens after 1 ms above, and ends below 95 °C.
20 samples of VIN below 38.00 V or 10 above 62.00 V begin the loss sequence and a shorter dip is only counted; at
its end everything is off with VIN_WARN still shown and the shed's pages past step 2 of their writes carried through,
and the input's return is a module reset of cause 2. Without power no sample is taken, and during the sequence no
emergency begins (R303, R425 to R429). -/
def Obligations.HeatAndInputPower : Prop :=
  ∀ s : State,
    (s.clk.off = true → (∀ temps, exec (.thermalSample temps) s = .next s) ∧
      (∀ v, exec (.vinSample v) s = .next s) ∧ exec .vinHoldupEnd s = .next s) ∧
    (s.clk.off = false → exec .vinRecovery s = .next s) ∧
    (∀ temps : List Nat, s.clk.off = false →
      let at_ := fun d => min (temps.getD d 0) 255
      ((∀ d, d < 5 → at_ d < 115) → s.flag CLK_STATUS_VIN_WARN = true →
        ∃ t, exec (.thermalSample temps) s = .next t ∧ t.fld CLK_TEMP_IO_DEG_C = at_ 4 ∧ t.clk.emerg = s.clk.emerg ∧
          ∀ d : Fin 5, tabGet false t.clk.hot d = decide (95 ≤ at_ d)) ∧
      ((∀ d, d < 5 → at_ d < 115) → s.flag CLK_STATUS_VIN_WARN = false →
        ∃ t, exec (.thermalSample temps) s = .next t ∧ t.fld CLK_TEMP_IO_DEG_C = at_ 4 ∧
          (∀ d : Fin 5, tabGet false t.clk.hot d = decide (95 ≤ at_ d) ∧ tabFind t.clk.temps d = some (at_ d) ∧
            (105 ≤ at_ d → (tabFind t.clk.emerg d).isSome = true ∧
              (tabFind s.clk.emerg d = none → t.flag CLK_STATUS_EMERG = true ∧ ((d : Nat) < 4 → t.diePoint d = 0))) ∧
            (at_ d < 105 → tabFind t.clk.emerg d = tabFind s.clk.emerg d ∧ t.diePoint d = s.diePoint d))) ∧
      (∀ d, d < 5 → 115 ≤ at_ d → (∀ e, e < d → at_ e < 115) →
        ∃ t, exec (.thermalSample temps) s = .next t ∧ t.clk.off = true ∧ t.clk.trip = some d ∧
          t.mem = State.reset.mem ∧ t.host.flights = [])) ∧
    (∀ die : Fin 5,
      (tabFind s.clk.emerg die = some 1 → 105 < tabGet 0 s.clk.temps die →
        ∃ t, exec (.emergencyThrottle die) s = .next t ∧ tabFind t.clk.emerg die = some 2 ∧ t.regs = s.regs) ∧
      (tabFind s.clk.emerg die ≠ some 1 ∨ tabGet 0 s.clk.temps die ≤ 105 →
        exec (.emergencyThrottle die) s = .next s) ∧
      ((tabFind s.clk.emerg die).isSome = true → tabGet 0 s.clk.temps die < 95 →
        ∃ t, exec (.emergencyEnd die) s = .next t ∧ tabFind t.clk.emerg die = none ∧
          ((∀ k, k ≠ (die : Nat) → tabFind s.clk.emerg k = none) → t.flag CLK_STATUS_EMERG = false) ∧
          ((die : Nat) < 4 →
            if (s.partsOnDie die).all s.atBoundary then t.diePoint die = s.heldPoint die % 32
            else t.diePoint die = s.diePoint die ∧ tabGet false t.clk.restore die = true)) ∧
      (tabFind s.clk.emerg die = none ∨ 95 ≤ tabGet 0 s.clk.temps die → exec (.emergencyEnd die) s = .next s)) ∧
    (∀ v : Nat, s.clk.off = false → ∃ t, exec (.vinSample v) s = .next t ∧
      t.fld CLK_VIN_VOLTS = v % 65536 ∧
      (s.flag CLK_STATUS_VIN_WARN = true → t.clk = s.clk) ∧
      (s.flag CLK_STATUS_VIN_WARN = false →
        (v < 3800 → t.clk.vinLow = s.clk.vinLow + 1 ∧
          t.flag CLK_STATUS_VIN_WARN = decide (20 ≤ s.clk.vinLow + 1)) ∧
        (6200 < v → t.clk.vinHigh = s.clk.vinHigh + 1 ∧
          t.flag CLK_STATUS_VIN_WARN = decide (10 ≤ s.clk.vinHigh + 1)) ∧
        (3800 ≤ v → v ≤ 6200 → t.flag CLK_STATUS_VIN_WARN = false ∧ t.clk.vinLow = 0 ∧ t.clk.vinHigh = 0 ∧
          t.fld CLK_VIN_DIP_COUNT_COUNT =
            min (s.fld CLK_VIN_DIP_COUNT_COUNT + if s.clk.vinLow = 0 then 0 else 1) 0xFFFFFFFF))) ∧
    (s.flag CLK_STATUS_VIN_WARN = true → s.clk.off = false → ∃ t, exec .vinHoldupEnd s = .next t ∧
      t.clk.off = true ∧ t.flag CLK_STATUS_VIN_WARN = true ∧ t.mem = State.reset.mem ∧
      t.shed.bytes = s.commitStaged.shed.bytes ∧ t.shed.maps = s.commitStaged.shed.maps ∧ t.shed.ops = []) ∧
    (s.flag CLK_STATUS_VIN_WARN = true → s.clk.off = true → ∃ t, exec .vinRecovery s = .next t ∧
      t.boot.inReset = true ∧ t.fld BOOT_LAST_CAUSE = 2 ∧ t.clk.off = false) ∧
    (s.flag CLK_STATUS_VIN_WARN = false → exec .vinHoldupEnd s = .next s ∧ exec .vinRecovery s = .next s)

/-! ## Start-up, firmware and settings (R443 to R455) -/

/-- A module reset of each cause leaves the module in reset with the cause in BOOT_LAST and everything volatile
gone, while host memory, the slots and fuses, the shed's pages (those past step 2 of a write carried through), the wear
history and the identity stay; a wrong key
resets nothing. Start-up then comes to READY, to RECOVERY, or to a reset of cause 6 where settings cannot be read: it
boots a good slot to READY, its channels trained, and rests in RECOVERY where no slot is
installed; CONFIRM makes the running slot good and raises the fused minimum, before a reset that the same write asks
for (R303, R443, R444, R448, R449, R455, R460). -/
def Obligations.ModuleResetAndStartup : Prop :=
  ∀ s : State,
    let fresh := fun (c t : State) (cause : Nat) => t.boot.inReset = true ∧ t.fld BOOT_LAST_CAUSE = cause ∧
      t.clk.off = false ∧ t.mem = State.reset.mem ∧ t.host.flights = [] ∧ t.yard = State.reset.yard ∧
      t.host.mem = s.host.mem ∧ t.boot.slotA = c.boot.slotA ∧ t.boot.slotB = c.boot.slotB ∧
      t.boot.fusedMin = c.boot.fusedMin ∧ t.shed.bytes = s.commitStaged.shed.bytes ∧ t.far.scores = s.far.scores ∧
      t.mbs.identity = s.mbs.identity ∧ t.pending = s.pending
    ((∀ o ∈ s.shed.ops, ∀ x ∈ o.staged, x.2.1 < 2) → s.commitStaged = s) ∧
    (s.clk.off = false ∨ s.clk.trip = none → ∃ t, exec .powerOn s = .next t ∧ fresh s t 0) ∧
    (∀ d, s.clk.off = true → s.clk.trip = some d → d < 5 → ∃ t, exec .powerOn s = .next t ∧ fresh s t 5 ∧
      t.fld BOOT_LAST_TRIP_DIE = d) ∧
    (s.clk.off = true → exec .perstAssert s = .next s) ∧
    (s.clk.off = false → ∃ t, exec .perstAssert s = .next t ∧ fresh s t 1 ∧ t.mbs.perst = true) ∧
    (s.clk.off = true ∨ s.boot.inReset = true → exec .nynikWatchdog s = .next s) ∧
    (s.clk.off = false → s.boot.inReset = false → ∃ t, exec .nynikWatchdog s = .next t ∧ fresh s t 4) ∧
    (∀ val : Word, let c := if bitOf val 0 then s.confirm else s;
      (getBits val 16 16 = 0xB007 → ∃ t, exec (.moduleReset val) s = .next t ∧ fresh c t 3) ∧
      (getBits val 16 16 ≠ 0xB007 → exec (.moduleReset val) s = .next c) ∧
      (bitOf val 1 = true → getBits val 16 16 = 0xB007 →
        ∃ t, exec (.confirm val) s = .next t ∧ fresh s.confirm t 3) ∧
      (bitOf val 1 = false ∨ getBits val 16 16 ≠ 0xB007 → exec (.confirm val) s = .next s.confirm)) ∧
    (let x := s.running;
      (s.fld BOOT_STATUS_STAGE = 3 → (s.confirm.slot x).good = true ∧
        s.confirm.flag BOOT_STATUS_CONFIRMED = true ∧
        s.confirm.boot.fusedMin = max s.boot.fusedMin (s.slot x).secVer ∧
        s.confirm.slot (1 - x) = s.slot (1 - x) ∧ s.confirm.host = s.host ∧ s.confirm.mem = s.mem) ∧
      (s.fld BOOT_STATUS_STAGE ≠ 3 → s.confirm = s)) ∧
    (∀ (unread : List (Fin 2)) (xa xb : Bool) (fails : List (Nat × Nat))
        (translates : List (Nat × Nat × Nat × List Byte)) (chans : List ChanId) (sheds : List ShedChan),
      let go := Instr.startup unread xa xb fails translates chans sheds
      (s.boot.inReset = false ∨ s.clk.off = true → exec go s = .next s) ∧
      (s.boot.inReset = true → s.clk.off = false → ∃ t, exec go s = .next t ∧
        (t.boot.inReset = false ∧ t.fld BOOT_STATUS_STAGE = 3 ∨ t.boot.inReset = false ∧ t.fld BOOT_STATUS_STAGE = 4 ∨
          t.boot.inReset = true ∧ t.fld BOOT_LAST_CAUSE = 6) ∧
        (s.boot.slotA.installed = false → s.boot.slotB.installed = false → t.boot.inReset = false ∧
          t.fld BOOT_STATUS_STAGE = 4) ∧
        (s.boot.slotA.installed = true → s.boot.slotA.good = true → s.boot.slotA.bad = false →
          s.boot.slotA.incompat = false → s.imageValid s.boot.slotA = true → s.boot.slotB.installed = false →
          s.boot.slotA.active.recs = [] → 0 ∉ unread → t.boot.inReset = false ∧
            t.fld BOOT_STATUS_STAGE = 3 ∧ t.fld BOOT_STATUS_SLOT = 0 ∧ t.flag BOOT_STATUS_CONFIRMED = true ∧
            t.clk.root = (if xa || xb then .crystal else .clamped) ∧
            ∀ n : ChanId, n ∉ chans → t.flag GDR_STATUS_TRAINED n = true) ∧
        (s.boot.slotA.installed = true → s.boot.slotA.good = true → s.boot.slotA.bad = false →
          s.boot.slotA.incompat = false → s.imageValid s.boot.slotA = true → s.boot.slotB.installed = false →
          0 ∉ unread → (∃ r ∈ s.boot.slotA.active.recs, r.cls < 2 ^ 15 ∧ (r.cls, r.ver) ∈ fails) →
          t.boot.inReset = true ∧ t.fld BOOT_LAST_CAUSE = 6 ∧ t.boot.slotA.incompat = true)))

/-- Installing an image and keeping settings. START with a good header, key and length begins an install into the
other slot (in RECOVERY, into one that is not good), which is no longer installed, each failed check has its status, and
one while an install is under way is refused as busy; its end makes the slot installed and
untried, one sequence above the other slot's, or reports failure 6. BOOT_SAVE appends the classes asked for, each
read back live as the registers stand, unless the record is torn; compaction keeps every live value, in the other bank.
Before READY, and after a warning of input loss, no settings are written (R446, R450 to R454). -/
def Obligations.FirmwareAndSettings : Prop :=
  ∀ s : State,
    (∀ (val : Word) (sigOk prod : Bool),
      let stage := s.fld BOOT_STATUS_STAGE
      let ready := bitOf val 0 = true ∧ (stage = 3 ∨ stage = 4)
      let h := s.readHost (s.reg64 BOOT_FW_ADDR_LO) 4096
      let len := s.fld BOOT_FW_LEN_BYTES
      let keyed := headerShape h && sigOk && (prod || s.boot.debugFuse)
      let x := s.installTarget
      let refused := fun n => ∃ t, exec (.fwInstallStart val sigOk prod) s = .next t ∧
        t.fld BOOT_FW_CMD_FW_STATUS = n ∧ t.boot = s.boot
      (¬ready → exec (.fwInstallStart val sigOk prod) s = .next s) ∧
      (ready → s.boot.install.isSome = true → refused 7) ∧
      (ready → s.boot.install = none →
        (len = 0 → refused 5) ∧ (len ≠ 0 → keyed = false → refused 3) ∧
        (len ≠ 0 → keyed = true → fieldAt h 12 2 < s.boot.fusedMin → refused 4) ∧
        (len ≠ 0 → keyed = true → s.boot.fusedMin ≤ fieldAt h 12 2 → len ≠ 4096 + fieldAt h 16 4 → refused 5) ∧
        (keyed = true → s.boot.fusedMin ≤ fieldAt h 12 2 → len = 4096 + fieldAt h 16 4 →
          ∃ t, exec (.fwInstallStart val sigOk prod) s = .next t ∧ t.fld BOOT_FW_CMD_FW_STATUS = 1 ∧
            (t.slot x).installed = false ∧ t.slot (1 - x) = s.slot (1 - x) ∧ x < 2 ∧
            ∃ i, t.boot.install = some i ∧ i.slot = x ∧ i.version = fieldAt h 8 4))) ∧
    (s.boot.install = none → ∀ ok, exec (.fwInstallComplete ok) s = .next s) ∧
    (∀ i, s.boot.install = some i → i.slot < 2 →
      (∃ t, exec (.fwInstallComplete true) s = .next t ∧ t.boot.install = none ∧
        t.fld BOOT_FW_CMD_FW_STATUS = 2 ∧ (t.slot i.slot).installed = true ∧ (t.slot i.slot).tried = false ∧
        (t.slot i.slot).good = false ∧ (t.slot i.slot).version = i.version ∧
        (t.slot i.slot).seq = (s.slot (1 - i.slot)).seq + 1 ∧ t.slot (1 - i.slot) = s.slot (1 - i.slot)) ∧
      (∃ t, exec (.fwInstallComplete false) s = .next t ∧ t.boot.install = none ∧
        t.fld BOOT_FW_CMD_FW_STATUS = 6 ∧ t.boot.slotA = s.boot.slotA ∧ t.boot.slotB = s.boot.slotB)) ∧
    (let held := s.fld BOOT_STATUS_STAGE ≠ 3 ∨ s.flag CLK_STATUS_VIN_WARN = true
      let f := s.slot s.running
      (held → (∀ val bad, exec (.bootSave val bad) s = .next s) ∧ exec .settingsCompaction s = .next s) ∧
      (¬held →
        (∀ val : Word, f.active.used + 1024 ≤ bankBytes →
          (∃ t, exec (.bootSave val false) s = .next t ∧ ∀ k, k < 4 → bitOf val k = true →
            ((((t.slot s.running).active).live (k + 1) 0).map (·.payload)) = some (s.classBytes (k + 1))) ∧
          ∃ t, exec (.bootSave val true) s = .next t ∧ (t.slot s.running).active.recs = f.active.recs) ∧
        (f.active.used + 65536 ≤ bankBytes → exec .settingsCompaction s = .next s) ∧
        (bankBytes < f.active.used + 65536 → ∃ t, exec .settingsCompaction s = .next t ∧
          (t.slot s.running).activeOne = !f.activeOne ∧
          (∀ cls inst, (((t.slot s.running).active.live cls inst).map (·.payload)) =
            (f.active.live cls inst).map (·.payload)) ∧
          t.fld BOOT_COMPACTIONS_COUNT = min (s.fld BOOT_COMPACTIONS_COUNT + 1) 0xFFFFFFFF)))

/-! ## Units, the Farrier and the day book (R420, R456 to R472, R479) -/

/-- The reset of one unit. GO with a unit that exists and runs takes it into reset with a new epoch, the result
running; a reserved kind, an index out of range, a unit in reset or a module without power is refused with result 3 and
resets nothing; without
GO only the selection is stored. By order of the Farrier the same unit is reset, the result untouched. The unit leaves
once its old requests are gone and its training succeeds; one whose training fails stays, the Farrier reporting it (R456
to R459, R295, R305). -/
def Obligations.UnitResets : Prop :=
  ∀ (val : Word) (s : State), (∀ p ∈ s.stepping, p < 32) →
    let kind := getBits val 0 3
    let i := getBits val 8 5
    let go := Instr.unitResetGo val false [] [] []
    let bad := unitCount kind ≤ i ∨ s.unitDown kind i = true ∨ s.clk.off = true
    let epoch := fun (t : State) => match kind with
      | 1 => getBits (t.reg BOOT_EPOCH_DIE) (8 * i) 8
      | 2 => getBits (t.reg (BOOT_EPOCH_CLU (i / 4))) (8 * (i % 4)) 8
      | 3 => getBits (t.reg (BOOT_EPOCH_GDR (i / 4))) (8 * (i % 4)) 8
      | _ => getBits (t.reg (BOOT_EPOCH_SHD (i / 4))) (8 * (i % 4)) 8
    (bitOf val 16 = false → ∀ pages fetches lands, ∃ t, exec (.unitResetGo val false pages fetches lands) s = .next t ∧
      t.fld BOOT_UNIT_RESET_KIND = kind ∧
      t.fld BOOT_UNIT_RESET_INDEX = i ∧ ∀ o j, regKey BOOT_UNIT_RESET 0 ≠ regKey o j → t.reg o j = s.reg o j) ∧
    (bitOf val 16 = true → bad →
      ∀ pages fetches lands, ∃ t, exec (.unitResetGo val false pages fetches lands) s = .next t ∧
        t.fld BOOT_UNIT_RESET_RESULT = 3 ∧ t.yard = s.yard ∧
        ∀ o j, regKey BOOT_UNIT_RESET 0 ≠ regKey o j → t.reg o j = s.reg o j) ∧
    (bad → ∀ pages fetches lands, exec (.unitResetGo val true pages fetches lands) s = .next s) ∧
    (bitOf val 16 = true → ¬bad →
      ∃ t, exec go s = .next t ∧ t.fld BOOT_UNIT_RESET_RESULT = 1 ∧ t.unitDown kind i = true ∧
        epoch t = (epoch s + 1) % 256) ∧
    (¬bad → ∃ t, exec (.unitResetGo val true [] [] []) s = .next t ∧ t.reg BOOT_UNIT_RESET = s.reg BOOT_UNIT_RESET ∧
      t.unitDown kind i = true ∧ epoch t = (epoch s + 1) % 256) ∧
    (∀ ok retained : Bool,
      let stays := unitCount kind ≤ i ∨ s.unitDown kind i = false ∨ s.oldRequests kind i = true ∨ s.clk.off = true ∨
        s.fld BOOT_STATUS_STAGE ≠ 3 ∨ kind = 1 ∧ s.dieBusy i = true ∨
        kind = 3 ∧ s.flag GDR_STATUS_FAILED i = true ∨ kind = 4 ∧ tabGet false s.shed.held i = true
      (stays → exec (.unitResetExit kind i ok retained) s = .next s) ∧
      (¬stays → ok = true ∨ kind = 1 →
        ∃ t, exec (.unitResetExit kind i ok retained) s = .next t ∧ t.unitDown kind i = false ∧ epoch t = epoch s ∧
          (s.fld BOOT_UNIT_RESET_RESULT = 1 → s.fld BOOT_UNIT_RESET_KIND = kind →
            s.fld BOOT_UNIT_RESET_INDEX = i → t.fld BOOT_UNIT_RESET_RESULT = 2)) ∧
      (¬stays → ok = false → kind ≠ 1 →
        ∃ t, exec (.unitResetExit kind i ok retained) s = .next t ∧ t.unitDown kind i = true ∧
          t.flag FAR_STATUS_REPLACE = true ∧ (kind = 3 → t.flag GDR_STATUS_FAILED i = true)))

/-- The Farrier and the day book. Each hour a part's score loses an eighth and takes its events, and at its kind's limit
the part is DUE; GO swaps a DUE core at its boundary for its cluster's spare, its scratch zeros, and waits for that
boundary. A core that fails
outright takes the spare at once, its cluster reset, or makes the cluster unavailable; a way, a lane or a loop that fails
does what its own failure does, a row is remapped, a flash block retired; a management core with no spare
condemns its partitions. An internal fault completes the operation INTERNAL, at the end of a running step, or condemns
the module. A day book ring is
enabled at block 0 where its range is good, and refused otherwise (R463 to R467, R479). -/
def Obligations.FarrierFaultsAndDayBook : Prop :=
  ∀ s : State,
    (s.clk.off = true → exec .farrierHourly s = .next s ∧ ∀ kind n ps, exec (.partFailure kind n ps) s = .next s) ∧
    (s.clk.off = false → ∃ t, exec .farrierHourly s = .next t ∧ t.far.events = [] ∧
      ∀ kind n, 1 ≤ kind → kind ≤ 4 → n < 2 ^ 40 →
        let k := partKey kind n
        let old := tabGet 0 s.far.scores k
        let new := old - old / 8 + tabGet 0 s.far.events k
        tabGet 0 t.far.scores k = new ∧ (0 < new → s.farLimit kind ≤ new → k ∈ t.far.due) ∧
          (k ∈ s.far.due → k ∈ t.far.due)) ∧
    (∀ val : Word, (bitOf val 0 = false → exec (.farApply val) s = .next s) ∧
      ∀ core : CoreId, bitOf val 0 = true → s.far.due = [partKey kCore core] → s.coreSpareUsed (core / 8) = false →
        ((∀ p ∈ s.partOfCore core, s.atBoundary p = true) →
          ∃ t, exec (.farApply val) s = .next t ∧ tabGet false t.far.spareCore core = true ∧ t.far.due = [] ∧
            t.fld FAR_SPARES_CORES = s.fld FAR_SPARES_CORES - 1 ∧
            tabGet 0 t.far.scores (partKey kCore core) = 0 ∧
            ∀ o, o < 2 ^ 22 → t.readScratch core o 1 = [0]) ∧
        ((∃ p ∈ s.partOfCore core, s.atBoundary p = false) →
          ∃ t, exec (.farApply val) s = .next t ∧ t.far = { s.far with apply := true } ∧ t.mem = s.mem ∧
            t.regs = s.regs)) ∧
    (s.clk.off = false →
      (∀ (core : CoreId) (ps : List Part),
        (s.coreSpareUsed (core / 8) = false → ∃ t, exec (.partFailure 1 core ps) s = .next t ∧
          tabGet false t.far.spareCore core = true ∧ t.clusterDown (core / 8) = true) ∧
        (s.coreSpareUsed (core / 8) = true → ∃ t, exec (.partFailure 1 core ps) s = .next t ∧
          tabGet false t.far.unavailable (core / 8) = true ∧ t.flag FAR_STATUS_REPLACE = true)) ∧
      (∀ (c : ClusterId) (w : Fin 17) (ps : List Part),
        exec (.partFailure 2 (c * 32 + w : Nat) ps) s = exec (.loftWayFail c w true) s) ∧
      (∀ (l : LinkId) (lane : Fin 9) (ps : List Part),
        exec (.partFailure 3 (l * 16 + lane : Nat) ps) s = exec (.laneFail l lane) s) ∧
      (∀ (chan : ChanId) (bank : Fin 16) (row : Nat) (ps : List Part), row < 2 ^ 24 →
        let fail := Instr.partFailure 4 (chan * 2 ^ 32 + bank * 2 ^ 24 + row : Nat) ps
        let used := s.bankEntries chan bank
        ((∃ r ∈ s.gddrs.remaps, r.chan = chan ∧ r.entry / 8 = bank ∧ r.row = row) → exec fail s = .next s) ∧
        ((∀ r ∈ s.gddrs.remaps, ¬(r.chan = chan ∧ r.entry / 8 = bank ∧ r.row = row)) → used < 8 →
          ∃ t, exec fail s = .next t ∧ t.gddrs.remaps = s.gddrs.remaps ++ [⟨chan, bank * 8 + used, row, false⟩]) ∧
        ((∀ r ∈ s.gddrs.remaps, ¬(r.chan = chan ∧ r.entry / 8 = bank ∧ r.row = row)) → 8 ≤ used →
          ∃ t, exec fail s = .next t ∧ t.flag GDR_STATUS_REMAP_FULL chan = true ∧
            t.gddrs.remaps = s.gddrs.remaps)) ∧
      (∀ (chan : ShedChan) (ps : List Part), let left := (s.reg SHD_SPARE_BLOCKS).toNat
        ∃ t, exec (.partFailure 5 chan ps) s = .next t ∧ t.shed = s.shed ∧
          (left = 0 → t.flag FAR_STATUS_SPARES_OUT = true) ∧
          (0 < left → t.fld SHD_SPARE_BLOCKS_COUNT = left - 1)) ∧
      (∀ (b : Bool) (ps : List Part), exec (.partFailure 6 b.toNat ps) s = exec (.loopLockLoss b) s) ∧
      (∀ (m : Fin 4) (ps : List Part),
        exec (.partFailure 7 m ps) s = exec (.internalFault 2 0 0 0 m ps) s) ∧
      (∀ kind n ps, kind = 0 ∨ 7 < kind → exec (.partFailure kind n ps) s = .next s)) ∧
    (∀ (m : Fin 4) (ps : List Part),
      (s.flag FAR_SPARES_MGMT = false →
        ∃ t, exec (.internalFault 2 0 0 0 m ps) s = .next t ∧ ∀ p ∈ ps, tabGet false t.far.deadParts p = true) ∧
      (s.flag FAR_SPARES_MGMT = true → ∃ t, exec (.internalFault 2 0 0 0 m ps) s = .next t ∧
        t.flag FAR_SPARES_MGMT = false ∧ t.far.deadParts = s.far.deadParts)) ∧
    (∀ fn ring idx core ps, exec (.internalFault 1 fn ring idx core ps) s = .next (lockLoss (lockLoss s false) true) ∧
      ∀ code, code = 0 ∨ 4 < code → exec (.internalFault code fn ring idx core ps) s = .next s) ∧
    (∀ (fn : Fn) (ring : Ring) (idx : Word) (core : Nat) (ps : List Part),
      let fault := Instr.internalFault 3 fn ring idx core ps
      let target := (s.flightsAt fn ring idx.toNat).find? (fun f => !f.finished && !f.muted)
      (target = none → exec fault s = .next s) ∧
      ∀ f, target = some f →
        (f.opcode ≠ 1 → f.opcode ≠ 2 → ∃ (t : State) (r : Rec), exec fault s = .next t ∧
          t.host.waiting = s.host.waiting ++ [r] ∧ r.status = 0x7F ∧ r.seq = some f.seq ∧
          (s.internalAux fn = none → r.aux = 3)) ∧
        (f.opcode = 2 → f.fn ≠ 0 → f.ran = true → runId f < 16 → ∀ st, s.stepOf (f.fn - 1) = some st →
          ∃ (t : State) (u : Step), exec fault s = .next t ∧ t.host.flights = s.host.flights ∧
            t.stepOf (f.fn - 1) = some u ∧ u.internal = some 3)) ∧
    (∀ fn ring idx core ps, ∃ t, exec (.internalFault 4 fn ring idx core ps) s = .next t ∧ ∀ p : Part,
      s.clk.lostRoot = false → tabGet false s.far.deadParts p = false → t.internalAux (p + 1) = some 4) ∧
    (∀ (fn : Fn) (val : Word),
      (s.fnLive fn = false → exec (.dayEnable fn val) s = .next s) ∧
      (s.fnLive fn = true →
        (bitOf val 0 = false → ∃ t, exec (.dayEnable fn val) s = .next t ∧ t.dayOn fn = false) ∧
        (bitOf val 0 = true → s.dayOn fn = true → exec (.dayEnable fn val) s = .next s) ∧
        (bitOf val 0 = true → s.dayOn fn = false → s.dayRefused fn = false →
          ∃ t, exec (.dayEnable fn val) s = .next t ∧ t.dayOn fn = true ∧ t.reg64 DAY_NEXT_SEQ_LO fn = 0 ∧
            t.reg64 DAY_OLDEST_SEQ_LO fn = 0 ∧ t.mem = s.mem) ∧
        (bitOf val 0 = true → s.dayOn fn = false → s.dayRefused fn = true →
          ∃ t, exec (.dayEnable fn val) s = .next t ∧ t.dayOn fn = false ∧ t.flag DAY_STATUS_SETUP_ERR fn = true) ∧
        (let mib := s.fld DAY_MIB_MIB fn;
          mib = 0 ∨ 4096 < mib ∨ s.reg64 DAY_BASE_LO fn % 4096 ≠ 0 ∨
            s.gddrSize fn < s.reg64 DAY_BASE_LO fn + mib * 2 ^ 20 → s.dayRefused fn = true)))

/-! ## The video block (R484 to R501) -/

/-- A context and its input ring. An enable that passes every check runs the context from index 0 on a copy of its
block, one that fails records its cause, and one with STOP goes straight back to IDLE; a stop discards the frames not
yet on a pipe and is IDLE once no frame is on a pipe or in the patcher and no record waits. A tail within the ring is
accepted and any other is a violation. A FLUSH, a RELEASE, a frame to encode and an access unit each consume one entry
with its record, REFUSED or PARTITION_VIOLATION where R500 says so; the release frees the buffer, and goes on while the
context waits (R484, R485, R488, R491, R498, R500, R501; when a stopping context is IDLE is the reading of log entry
58). -/
def Obligations.VideoInput : Prop :=
  (∀ (fn : Fn) (val : Word) (s : State),
    let x := s.fld VCD_CTX_SEL_CONTEXT fn
    let at_ := s.vBlock x
    let enable := exec (.vcdEnable fn val) s
    let failed := fun (t : State) (n : Nat) => t.flag VCD_CTX_CTRL_ENABLE x = false ∧
      t.flag VCD_STATUS_SETUP_ERR x = true ∧ t.fld VCD_SETUP_ERR_CODE_CODE x = n ∧ t.vid = s.vid ∧ t.host = s.host
    (s.fnLive fn = false ∨ s.vcdReach fn x = false → enable = .next s ∧ exec (.vcdStop fn val) s = .next s) ∧
    (s.fnLive fn = true → s.vcdReach fn x = true →
      (s.flag VCD_CTX_CTRL_ENABLE x = true → bitOf val 1 = false → enable = .next s) ∧
      (s.flag VCD_CTX_CTRL_ENABLE x = true → bitOf val 1 = true →
        enable = exec (.vcdStop fn (setBits val 0 1 0)) s) ∧
      (∀ c, bitOf val 1 = false → s.flag VCD_CTX_CTRL_ENABLE x = false → s.place (s.vcdFn x) at_ 512 = .error c →
        ∃ t, enable = .next t ∧ failed t 5) ∧
      (∀ pl, s.flag VCD_CTX_CTRL_ENABLE x = false → s.place (s.vcdFn x) at_ 512 = .ok pl →
        let b := s.readAt (s.vcdFn x) pl 512
        let cause := if at_ / 2 ^ 60 < 2 then (s.touch (s.vcdFn x) pl 512).vcdCause x b else some 5
        (cause = none → bitOf val 1 = false → ∃ (t : State) (c : VCtx), enable = .next t ∧
          t.flag VCD_CTX_CTRL_ENABLE x = true ∧ t.vState x = vRunning ∧ t.vctx x = some c ∧ c.block = b ∧
          c.inHead = 0 ∧ c.outTail = 0 ∧ c.recs = [] ∧ t.reg VCD_FRAMES x = 0) ∧
        (cause = none → bitOf val 1 = true → ∃ (t : State) (c : VCtx), enable = .next t ∧
          t.flag VCD_CTX_CTRL_ENABLE x = false ∧ t.vState x = vIdle ∧ t.vctx x = some c ∧ c.block = b ∧
          t.reg VCD_FRAMES x = 0) ∧
        (∀ n, cause = some n → bitOf val 1 = false → ∃ t, enable = .next t ∧ failed t n)) ∧
      (bitOf val 0 = true → exec (.vcdStop fn val) s = exec (.vcdEnable fn (setBits val 1 1 1)) s) ∧
      (bitOf val 0 = false → s.vctx x = none ∨ s.vState x = vIdle → exec (.vcdStop fn val) s = .next s) ∧
      (∀ c, bitOf val 0 = false → s.vctx x = some c → s.vState x ≠ vIdle →
        let ended := c.cur = none ∧ c.patch = [] ∧ c.recs = []
        (ended → ∃ t, exec (.vcdStop fn val) s = .next t ∧ t.vState x = vIdle ∧
          t.flag VCD_CTX_CTRL_ENABLE x = false ∧ t.vctx x = some { c with ready := [] }) ∧
        (¬ended → ∃ t, exec (.vcdStop fn val) s = .next t ∧ t.vState x = vStopping ∧
          t.vctx x = some { c with ready := [] } ∧ t.host = s.host)))) ∧
  (∀ (x : Fin 256) (stores : List HostStore) (s : State),
    let u := s.hostStores stores
    let polls := s.vState x = vRunning ∨ s.vState x = vWait
    (s.vctx x = none ∨ ¬polls → exec (.videoTailPoll x stores) s = .next u) ∧
    (∀ c : VCtx, s.vctx x = some c → polls →
      let tail := u.vWord x 12
      let gap := fun a b => (a + 2 ^ 32 - b) % 2 ^ 32
      let fits := gap tail c.inHead ≤ 2 ^ c.f 8 1 ∧ gap tail c.inTail ≤ gap tail c.inHead
      (fits → ∃ t, exec (.videoTailPoll x stores) s = .next t ∧ t.vctx x = some { c with inTail := tail } ∧
        ∀ a, u.place (s.vcdFn x) (s.vBlock x + 12) 4 = .ok (.host a) → t.regs = s.regs) ∧
      (¬fits → ∃ t, exec (.videoTailPoll x stores) s = .next t ∧ t.vctx x = some c ∧
        t.flag VCD_STATUS_VIOL x = true ∧ (s.flag VCD_STATUS_VIOL x = false →
          t.fld VCD_VIOL_CODE_CODE x = 1 ∧ t.fld VCD_VIOL_VALUE_VALUE x = tail % 2 ^ 32)))) ∧
  (∀ (x : Fin 256) (frames : List (Bool × Nat × Nat)) (resyncs : Nat) (s : State),
    let au := exec (.videoAu x frames resyncs []) s
    let runs := if s.vState x = vWait then s.setV x vRunning else s
    (s.vEntry x = none →
      au = .next s ∧ exec (.videoFlush x frames) s = .next s ∧ exec (.videoFrame x) s = .next s) ∧
    (runs.vEntry x = none → exec (.videoRelease x) s = .next s) ∧
    ∀ (c : VCtx) (e : List Byte),
      let took := fun (t : State) (status : Nat) => ∃ (c' : VCtx) (r : VRec), t.vctx x = some c' ∧
        c'.inHead = (c.inHead + 1) % 2 ^ 32 ∧ (c.recs ++ [r]) <+: c'.recs ∧ r.kind = 4 ∧ r.status = status ∧
        r.tag = fieldAt e 4 4 ∧ r.user = fieldAt e 24 7
      let viol := fun (t : State) (code value : Nat) => t.flag VCD_STATUS_VIOL x = true ∧
        (s.flag VCD_STATUS_VIOL x = false → t.fld VCD_VIOL_CODE_CODE x = code ∧ t.fld VCD_VIOL_VALUE_VALUE x = value)
      (runs.vEntry x = some (c, e) →
        (badEntry e = true ∨ fieldAt e 0 1 ≠ 2 → exec (.videoRelease x) s = .next s) ∧
        (badEntry e = false → fieldAt e 0 1 = 2 → (c.bufs.getD (fieldAt e 20 2) 0).testBit 2 = true →
          ∃ (t : State) (c' : VCtx), exec (.videoRelease x) s = .next t ∧ t.vctx x = some c' ∧
            c'.inHead = (c.inHead + 1) % 2 ^ 32 ∧ (c'.bufs.getD (fieldAt e 20 2) 0).testBit 2 = false) ∧
        (badEntry e = false → fieldAt e 0 1 = 2 → (c.bufs.getD (fieldAt e 20 2) 0).testBit 2 = false →
          ∃ t, exec (.videoRelease x) s = .next t ∧ took t stRefused ∧ viol t 3 (fieldAt e 20 2))) ∧
      (s.vEntry x = some (c, e) →
        (badEntry e = true →
          (∃ t, au = .next t ∧ took t stRefused ∧ viol t 2 (fieldAt e 0 4)) ∧
          exec (.videoFlush x frames) s = .next s ∧ exec (.videoFrame x) s = .next s) ∧
        (fieldAt e 0 1 ≠ 3 → exec (.videoFlush x frames) s = .next s) ∧
        (fieldAt e 0 1 ≠ 4 → exec (.videoFrame x) s = .next s) ∧
        (badEntry e = false →
          (fieldAt e 0 1 = 3 → ∃ t, exec (.videoFlush x frames) s = .next t ∧ took t stOK) ∧
          (fieldAt e 0 1 = 4 →
            (c.f 85 1 ≠ 1 → ∃ t, exec (.videoFrame x) s = .next t ∧ took t stRefused) ∧
            (c.f 85 1 = 1 → match s.place (s.vcdFn x) (fieldAt e 8 8) (c.f 56 4 * c.f 170 2 * 3 / 2) with
              | .ok _ => ∃ t, exec (.videoFrame x) s = .next t ∧ took t stOK
              | .error _ => ∃ t, exec (.videoFrame x) s = .next t ∧ took t stPartViolation ∧
                viol t 4 (fieldAt e 8 4))) ∧
          (fieldAt e 0 1 ≠ 1 → au = .next s) ∧
          (fieldAt e 0 1 = 1 →
            (c.f 85 1 ≠ 0 → ∃ t, au = .next t ∧ took t stRefused) ∧
            (c.f 85 1 = 0 → fieldAt e 16 4 = 0 → ∃ t, au = .next t ∧ took t stOkEmpty) ∧
            (c.f 85 1 = 0 → fieldAt e 16 4 ≠ 0 → match s.place (s.vcdFn x) (fieldAt e 8 8) (fieldAt e 16 4) with
              | .ok pl => ∃ t, au = .next t ∧
                took t (if s.badAt (s.vcdFn x) pl (fieldAt e 16 4) then stDataError else stOK)
              | .error _ => ∃ t, au = .next t ∧ took t stPartViolation ∧ viol t 4 (fieldAt e 8 4))))))

/-- What a context gives out. A frame that ends is counted, its picture record queued with the frame's status, and the
patcher takes it; a pipe with no frame takes the next one. The tokens of a patched frame wait for room, taken as none
freed (violation 0x05) where TOK_FREED passes TOK_WRITTEN, and a slice waits for room; each then advances its ring and
queues a record. The oldest record is written with its phase where the output ring is not full and the input voltage
holds (R486, R490, R493, R495, R499, R500). -/
def Obligations.VideoOutput : Prop :=
  (∀ (k : Fin 5) (planes : List Byte) (ref : Bool) (unref : List Nat) (s : State),
    s.vid.ctxs.find? (fun e => e.2.cur.isSome && s.fld VCD_CTX_STATE_PIPE e.1 == k) = none →
    exec (.videoFrameDone k planes ref unref) s = .next (s.pipeTake k)) ∧
  (∀ (k : Fin 5) (x : Fin 256) (planes : List Byte) (ref : Bool) (unref : List Nat) (c : VCtx) (f : VFrame)
    (s : State), (∀ e ∈ s.vid.ctxs, e.1 < 256) →
    s.vid.ctxs.find? (fun e => e.2.cur.isSome && s.fld VCD_CTX_STATE_PIPE e.1 == k) = some ((x : Nat), c) →
    s.vctx x = some c → c.cur = some f →
    ∃ (t : State) (c' : VCtx), exec (.videoFrameDone k planes ref unref) s = .next t ∧ t.vctx x = some c' ∧
      t.fld VCD_FRAMES_COUNT x = min (s.fld VCD_FRAMES_COUNT x + 1) 0xFFFFFFFF ∧
      (c.f 85 1 = 0 → (c.f 84 1).testBit 0 = true → ∃ r : VRec, (c.recs ++ [r]) <+: c'.recs ∧ r.kind = 1 ∧
        r.status = f.status ∧ r.tag = f.tag ∧ r.buffer = f.buffer.getD 0) ∧
      (c.f 85 1 = 0 → (c.f 84 1).testBit 1 = true → c'.patch = c.patch ++ [f])) ∧
  (∀ (x : Fin 256) (w h : Nat) (rgb : List Word) (s : State),
    (s.vctx x = none ∨ (∃ c, s.vctx x = some c ∧ c.patch = []) → exec (.videoTokensWrite x w h rgb) s = .next s) ∧
    ∀ (c : VCtx) (f : VFrame) (rest : List VFrame), s.vctx x = some c → c.patch = f :: rest →
      let n := pTokens c.block
      let gap := (c.tokWritten % 2 ^ 32 + 2 ^ 32 - s.vWord x 80) % 2 ^ 32
      let used := if 2 ^ 31 ≤ gap then 0 else gap
      let room := 0 < n ∧ ((used + n - 1) / n + 1) * pGroups c.block ≤ c.f 72 4
      (gap < 2 ^ 31 → ¬room → exec (.videoTokensWrite x w h rgb) s = .next s) ∧
      (2 ^ 31 ≤ gap → ∃ t, exec (.videoTokensWrite x w h rgb) s = .next t ∧ t.flag VCD_STATUS_VIOL x = true ∧
        (s.flag VCD_STATUS_VIOL x = false → t.fld VCD_VIOL_CODE_CODE x = 5) ∧ (¬room → t.vctx x = some c)) ∧
      (room → ∃ (t : State) (c' : VCtx) (r : VRec), exec (.videoTokensWrite x w h rgb) s = .next t ∧
        t.vctx x = some c' ∧ c'.patch = rest ∧ c'.tokWritten = c.tokWritten + n ∧ c'.recs = c.recs ++ [r] ∧
        r.kind = 2 ∧ r.status = f.status ∧ r.count = n ∧ r.tag = f.tag)) ∧
  (∀ (x : Fin 256) (bytes : List Byte) (last : Bool) (s : State),
    (s.vctx x = none ∨ (∃ c, s.vctx x = some c ∧ (c.cur = none ∨ c.f 85 1 ≠ 1)) →
      exec (.videoSliceDone x bytes last) s = .next s) ∧
    ∀ (c : VCtx) (f : VFrame), s.vctx x = some c → c.cur = some f → c.f 85 1 = 1 →
      let live := c.slices.filter fun k => decide ((k.1 + 2 ^ 32 - s.vWord x 36) % 2 ^ 32 < 2 ^ 31)
      let used := (live.map (·.2)).sum
      (c.f 184 4 < used + bytes.length → exec (.videoSliceDone x bytes last) s = .next s) ∧
      (used + bytes.length ≤ c.f 184 4 →
        ∃ (t : State) (c' : VCtx) (r : VRec), exec (.videoSliceDone x bytes last) s = .next t ∧
          t.vctx x = some c' ∧ c'.bsAt = (c.bsAt + bytes.length) % c.f 184 4 ∧ c'.recs = c.recs ++ [r] ∧
          r.kind = 3 ∧ r.status = f.status ∧ r.count = bytes.length ∧ r.addr = c.f 176 8 + c.bsAt)) ∧
  (∀ (x : Fin 256) (s : State),
    (s.vctx x = none ∨ (∃ c, s.vctx x = some c ∧ (c.recs = [] ∨ s.vOutFull x c = true)) ∨
      s.flag CLK_STATUS_VIN_WARN = true → exec (.videoRecordWrite x) s = .next s) ∧
    ∀ (c : VCtx) (r : VRec) (rest : List VRec), s.vctx x = some c → c.recs = r :: rest → s.vOutFull x c = false →
      s.flag CLK_STATUS_VIN_WARN = false →
      ∃ (t : State) (c' : VCtx), exec (.videoRecordWrite x) s = .next t ∧ t.vctx x = some c' ∧ c'.recs = rest ∧
        c'.outTail = (c.outTail + 1) % 2 ^ 32 ∧ c'.inHead = c.inHead ∧
        ∀ a, s.place (s.vcdFn x) (c.f 24 8 + 32 * (c.outTail % 2 ^ c.f 32 1)) 32 = .ok (.host a) →
          t.readHost a 4 = leBytes 4 r.tag ∧ t.readHost (a + 4) 1 = leBytes 1 r.status ∧
          t.readHost (a + 31) 1 = leBytes 1 (phaseOf c.outTail (c.f 32 1)) ∧
          ∀ b, b < a ∨ a + 32 ≤ b → t.readHost b 1 = s.readHost b 1)

/-! ## The management buses and JTAG (R504 to R511) -/

/-- The board controller's reads and its one write. A command that answers returns its bytes, 0xFF beyond them under
violation 0x07, and a write to it is 0x04; none answers without regulators or after the hold-up's end, and before READY
only STATUS and IDENTITY. Reading STATUS releases ALERT#. BOARD_CAP takes 0 and 800 to 2,400 W, with a right packet
error code if one is sent, and a write cut short is 0x06; a reserved command is 0x01, and a clock held low forgets the
transaction under 0x05 (R505 to R508). -/
def Obligations.BoardControllerCommands : Prop :=
  ∀ s : State,
    let viol := fun (t : State) (code : Nat) => t.flag MBS_STATUS_VIOL = true ∧
      t.fld MBS_VIOL_COUNT_COUNT = min (s.fld MBS_VIOL_COUNT_COUNT + 1) 0xFFFFFFFF ∧
      (s.flag MBS_STATUS_VIOL = false → t.fld MBS_VIOL_CODE_CODE = code)
    let reads := fun (c : Bool → Nat → Instr) (cmd : Nat) (data : List Nat) =>
      (s.smbAnswers cmd = false → ∀ w n, ∃ t, exec (c w n) s = .next t ∧ t.host.lastRead = [] ∧
        t.flag MBS_STATUS_VIOL = s.flag MBS_STATUS_VIOL) ∧
      (s.smbAnswers cmd = true →
        (∀ n, ∃ t, exec (c true n) s = .next t ∧ t.host.lastRead = [] ∧ viol t 4) ∧
        (∃ t, exec (c false 0) s = .next t ∧ t.host.lastRead = data ∧
          t.flag MBS_STATUS_VIOL = s.flag MBS_STATUS_VIOL) ∧
        ∀ n, 0 < n → ∃ t, exec (c false n) s = .next t ∧
          t.host.lastRead = data ++ List.replicate n 0xFF ∧ viol t 7)
    (∀ cmd, s.smbAnswers cmd = true ↔ s.clk.off = false ∧ (s.boot.inReset = false ∨ s.fld BOOT_LAST_CAUSE ≠ 2) ∧
      (s.fld BOOT_STATUS_STAGE = 3 ∨ cmd = 0 ∨ (0x10 ≤ cmd ∧ cmd ≤ 0x17))) ∧
    (∀ change, reads (fun w n => .smbStatus w n change) 0 (word2 s.smbStatus)) ∧
    (∀ change, s.smbAnswers 0 = true →
      (∀ n, ∃ t, exec (.smbStatus false n change) s = .next t ∧ t.mbs.alert = change) ∧
      ∃ t, exec (.smbStatus false 0 change) s = .next t ∧ t.regs = s.regs) ∧
    reads (fun w n => .smbTempMax w n) 1 [s.clk.temps.foldl (fun m t => max m t.2) 0] ∧
    (∀ watts, reads (fun w n => .smbPower w n watts) 2 (word2 (watts % 65536))) ∧
    reads (fun w n => .smbVin w n) 3 (word2 (s.fld CLK_VIN_VOLTS)) ∧
    (∀ a b, reads (fun w n => .smbCoolant w n a b) 4
      (if s.flag MBS_STATUS_ISOLATED then [0, 0] else [a.toNat, b.toNat])) ∧
    (∀ k : Fin 8, reads (fun w n => .smbIdentity k w n) (0x10 + k)
      ((sliceBytes s.mbs.identity (32 * k) 32).map (·.toNat))) ∧
    (s.smbAnswers 8 = false → ∀ n v pec cut hang,
      (∃ t, exec (.smbBoardCapRead n) s = .next t ∧ t.host.lastRead = [] ∧ t.regs = s.regs) ∧
      ∃ t, exec (.smbBoardCapWrite v pec cut hang) s = .next t ∧ t.host.lastRead = [] ∧ t.regs = s.regs) ∧
    (s.smbAnswers 8 = true →
      (∃ t, exec (.smbBoardCapRead 0) s = .next t ∧ t.host.lastRead = word2 (s.fld MBS_BOARD_CAP_WATTS)) ∧
      (∀ n, 0 < n → ∃ t, exec (.smbBoardCapRead n) s = .next t ∧
        t.host.lastRead = word2 (s.fld MBS_BOARD_CAP_WATTS) ++ List.replicate n 0xFF ∧ viol t 7) ∧
      ∀ v pec,
        let w := v % 65536
        let sum := pecOf [2 * s.fld MBS_TARGET_ADDR, 8, w % 256, w / 256]
        let good := (pec.all fun c => c % 256 == sum) = true
        (∀ hang, good → w = 0 ∨ (800 ≤ w ∧ w ≤ 2400) → ∃ t, exec (.smbBoardCapWrite v pec none hang) s = .next t ∧
          t.fld MBS_BOARD_CAP_WATTS = w ∧ t.flag MBS_STATUS_VIOL = s.flag MBS_STATUS_VIOL) ∧
        (∀ hang, good → ¬(w = 0 ∨ (800 ≤ w ∧ w ≤ 2400)) →
          ∃ t, exec (.smbBoardCapWrite v pec none hang) s = .next t ∧
            t.fld MBS_BOARD_CAP_WATTS = s.fld MBS_BOARD_CAP_WATTS ∧ viol t 3) ∧
        (∀ hang, ¬good → ∃ t, exec (.smbBoardCapWrite v pec none hang) s = .next t ∧
          t.fld MBS_BOARD_CAP_WATTS = s.fld MBS_BOARD_CAP_WATTS ∧ viol t 2) ∧
        ∀ k : Fin 2,
          (∃ t, exec (.smbBoardCapWrite v pec (some k) false) s = .next t ∧
            t.fld MBS_BOARD_CAP_WATTS = s.fld MBS_BOARD_CAP_WATTS ∧ viol t 6) ∧
          ∃ t, exec (.smbBoardCapWrite v pec (some k) true) s = .next t ∧ t.mbs.inWrite = some (8, (k : Nat)) ∧
            t.regs = s.regs) ∧
    (∀ cmd, (smbKnown (cmd % 256) = true → exec (.smbReservedCommand cmd) s = .next s) ∧
      (smbKnown (cmd % 256) = false →
        (s.smbAnswers cmd = true → ∃ t, exec (.smbReservedCommand cmd) s = .next t ∧ t.host.lastRead = [] ∧ viol t 1) ∧
        (s.smbAnswers cmd = false → ∃ t, exec (.smbReservedCommand cmd) s = .next t ∧ t.host.lastRead = [] ∧
          t.regs = s.regs))) ∧
    (∀ cmd, (s.clk.off = true → exec (.sclTimeout cmd) s = .next s) ∧
      (s.clk.off = false → ∃ t, exec (.sclTimeout cmd) s = .next t ∧ t.mbs.inWrite = none ∧
        t.flag MBS_STATUS_TGT_TIMEOUT = true ∧ viol t 5 ∧
        t.fld MBS_TGT_TIMEOUTS_COUNT = min (s.fld MBS_TGT_TIMEOUTS_COUNT + 1) 0xFFFFFFFF))

/-- The on-module bus and JTAG. A NACKed transaction is tried three times more and then counted; a stuck bus is free after
a recovery that succeeds and isolated after three that fail, its attempts counted, and BUS_RETRY runs a further set on an
isolated one. IDCODE names the stepping; EXTEST, CLAMP and HIGHZ act while PERST# is asserted and are BYPASS otherwise, as
is every private code without the debug fuse or in isolation mode (R509 to R511). -/
def Obligations.ModuleBusAndJtag : Prop :=
  ∀ s : State,
    (s.clk.off = true ∨ s.flag MBS_STATUS_ISOLATED = true →
      (∀ ack, exec (.controllerNackRetry ack) s = .next s) ∧ ∀ fails, exec (.busRecovery fails) s = .next s) ∧
    (s.clk.off = false → s.flag MBS_STATUS_ISOLATED = false →
      (∃ t, exec (.controllerNackRetry true) s = .next t ∧ t.mbs.tries = 0 ∧ t.regs = s.regs) ∧
      (s.mbs.tries < 3 → ∃ t, exec (.controllerNackRetry false) s = .next t ∧ t.mbs.tries = s.mbs.tries + 1 ∧
        t.regs = s.regs) ∧
      (3 ≤ s.mbs.tries → ∃ t, exec (.controllerNackRetry false) s = .next t ∧ t.mbs.tries = 0 ∧
        t.fld MBS_NACKS_COUNT = min (s.fld MBS_NACKS_COUNT + 1) 0xFFFFFFFF) ∧
      ∀ fails : Fin 4, ∃ t, exec (.busRecovery fails) s = .next t ∧ t.flag MBS_STATUS_STUCK = true ∧
        t.flag MBS_STATUS_ISOLATED = decide ((fails : Nat) = 3) ∧
        t.fld MBS_RECOVERIES_COUNT = min (s.fld MBS_RECOVERIES_COUNT + min ((fails : Nat) + 1) 3) 0xFFFFFFFF) ∧
    (∀ (val : Word) (fails : Fin 4),
      let rate := if getBits val 1 2 = 3 then s.fld MBS_CTRL_CTL_RATE else getBits val 1 2
      ∃ t, exec (.busRetry val fails) s = .next t ∧ t.fld MBS_CTRL_CTL_RATE = rate ∧
        t.flag MBS_STATUS_ISOLATED = (s.flag MBS_STATUS_ISOLATED && decide ((fails : Nat) = 3)) ∧
        (s.flag MBS_STATUS_ISOLATED = false → t.fld MBS_RECOVERIES_COUNT = s.fld MBS_RECOVERIES_COUNT)) ∧
    (∃ t, exec .jtagIdcode s = .next t ∧ t.mbs.ir = 1 ∧ t.regs = s.regs ∧
      t.host.lastRead = [0x4F, 0x60, 0x3C, if s.fld HCI_ID_STEPPING = 0 then 0x0B else 0x1B]) ∧
    (∀ cells, ∃ t, exec (.jtagSamplePreload cells) s = .next t ∧ t.mbs.ir = 2 ∧ t.mbs.cells = cells ∧
      t.regs = s.regs) ∧
    (∀ c ∈ [(Instr.jtagExtest, 3), (.jtagClamp, 4), (.jtagHighz, 5)], ∃ t, exec c.1 s = .next t ∧
      t.mbs.ir = (if s.mbs.perst then c.2 else 0xFF) ∧ t.regs = s.regs) ∧
    (∀ code, (1 ≤ code → code ≤ 5 → exec (.jtagBypass code) s = .next s) ∧
      (code = 0 ∨ 5 < code → ∃ t, exec (.jtagBypass code) s = .next t ∧ t.regs = s.regs ∧
        t.mbs.ir = if 0xFF ≤ code ∨ s.isolated = true ∨ s.boot.debugFuse = false then 0xFF else code))

end ObligationsSlice0
end

