-- ==== Sys2Proof/Laws/Tab.lean ====
section
/-! SUPPORT. What a sparse table reads after it is written, and that every table operation keeps the
canonical form. -/

namespace Sys2Proof.Machine

variable {α : Type}

theorem tabFind_tabPut (t : Tab α) (k k' : Nat) (v : α) :
    tabFind (tabPut t k v) k' = if k = k' then some v else tabFind t k' := by
  induction t with
  | nil => simp [tabPut, tabFind]
  | cons e t ih =>
    obtain ⟨a, w⟩ := e
    simp only [tabPut]
    split
    · simp [tabFind]
    · split
      · subst_vars
        simp only [tabFind]
        split <;> rfl
      · simp only [tabFind, ih]
        split
        · subst_vars
          rw [if_neg ‹_›]
        · rfl

theorem tabFind_tabDel (t : Tab α) (k k' : Nat) :
    tabFind (tabDel t k) k' = if k = k' then none else tabFind t k' := by
  induction t with
  | nil => simp [tabDel, tabFind]
  | cons e t ih =>
    obtain ⟨a, w⟩ := e
    simp only [tabDel, List.filter_cons] at ih ⊢
    by_cases h : a = k
    · subst h
      simp only [bne_self_eq_false, Bool.false_eq_true, if_false, ih, tabFind]
      split <;> rfl
    · simp only [bne_iff_ne, ne_eq, h, not_false_eq_true, if_true, tabFind, ih]
      by_cases h' : a = k'
      · subst h'
        simp [Ne.symm h]
      · simp [h']

theorem tabGet_tabSet [DecidableEq α] (d : α) (t : Tab α) (k k' : Nat) (v : α) :
    tabGet d (tabSet d t k v) k' = if k = k' then v else tabGet d t k' := by
  unfold tabGet tabSet
  split
  · rw [tabFind_tabDel]
    split <;> simp_all
  · rw [tabFind_tabPut]
    split <;> rfl

theorem tabFind_tabDrop (t : Tab α) (p : Nat → Bool) (k : Nat) :
    tabFind (tabDrop t p) k = if p k then none else tabFind t k := by
  induction t with
  | nil => simp [tabDrop, tabFind]
  | cons e t ih =>
    obtain ⟨a, w⟩ := e
    simp only [tabDrop, List.filter_cons] at ih ⊢
    by_cases h : p a
    · simp only [h, Bool.not_true, Bool.false_eq_true, if_false, ih, tabFind]
      by_cases h' : a = k
      · subst h'; simp [h]
      · simp [h']
    · simp only [h, Bool.not_false, if_true, tabFind, ih]
      by_cases h' : a = k
      · subst h'; simp [h]
      · simp [h']

/-! ## The canonical form is kept -/

theorem mem_tabPut {t : Tab α} {k : Nat} {v : α} {e : Nat × α} (h : e ∈ tabPut t k v) :
    e = (k, v) ∨ e ∈ t := by
  induction t with
  | nil => simpa [tabPut] using h
  | cons x t ih =>
    simp only [tabPut] at h
    split at h
    · simpa using h
    · split at h
      · rcases List.mem_cons.1 h with h | h
        · exact .inl h
        · exact .inr (List.mem_cons_of_mem _ h)
      · rcases List.mem_cons.1 h with h | h
        · exact .inr (h ▸ List.mem_cons_self)
        · exact (ih h).imp id (List.mem_cons_of_mem _)

theorem tabWf_tabPut {t : Tab α} (k : Nat) (v : α) (h : tabWf t) : tabWf (tabPut t k v) := by
  induction t with
  | nil => simp [tabPut]
  | cons x t ih =>
    obtain ⟨a, w⟩ := x
    have h' := List.pairwise_cons.1 h
    simp only [tabPut]
    split
    · refine List.pairwise_cons.2 ⟨fun e he => ?_, h⟩
      rcases List.mem_cons.1 he with he | he
      · subst he; assumption
      · have := h'.1 e he; simp only at this ⊢; omega
    · split
      · subst_vars; exact List.pairwise_cons.2 ⟨h'.1, h'.2⟩
      · refine List.pairwise_cons.2 ⟨fun e he => ?_, ih h'.2⟩
        rcases mem_tabPut he with he | he
        · subst he; simp only; omega
        · exact h'.1 e he

theorem tabWf_filter {t : Tab α} (p : Nat × α → Bool) (h : tabWf t) : tabWf (t.filter p) :=
  h.sublist List.filter_sublist

theorem tabWf_tabDel {t : Tab α} (k : Nat) (h : tabWf t) : tabWf (tabDel t k) := tabWf_filter _ h

theorem tabWf_tabDrop {t : Tab α} (p : Nat → Bool) (h : tabWf t) : tabWf (tabDrop t p) :=
  tabWf_filter _ h

theorem tabWf_tabSet [DecidableEq α] {t : Tab α} (d : α) (k : Nat) (v : α) (h : tabWf t) :
    tabWf (tabSet d t k v) := by
  unfold tabSet
  split
  · exact tabWf_tabDel k h
  · exact tabWf_tabPut k v h

theorem mem_tabSet [DecidableEq α] {t : Tab α} {d : α} {k : Nat} {v : α} {e : Nat × α}
    (h : e ∈ tabSet d t k v) : (e = (k, v) ∧ v ≠ d) ∨ e ∈ t := by
  unfold tabSet at h
  split at h
  · exact .inr (List.mem_of_mem_filter h)
  · rcases mem_tabPut h with h | h
    · exact .inl ⟨h, ‹_›⟩
    · exact .inr h

theorem tabCanon_tabSet [DecidableEq α] {t : Tab α} {d : α} (k : Nat) (v : α) (h : tabCanon d t) :
    tabCanon d (tabSet d t k v) := by
  refine ⟨tabWf_tabSet d k v h.1, fun e he => ?_⟩
  rcases mem_tabSet he with ⟨rfl, hv⟩ | he
  · exact hv
  · exact h.2 e he

theorem tabCanon_tabDrop [DecidableEq α] {t : Tab α} {d : α} (p : Nat → Bool) (h : tabCanon d t) :
    tabCanon d (tabDrop t p) :=
  ⟨tabWf_tabDrop p h.1, fun e he => h.2 e (List.mem_of_mem_filter he)⟩

/-- Tables in canonical form that read the same under every key are the same list. -/
theorem tabWf_ext {t u : Tab α} (ht : tabWf t) (hu : tabWf u)
    (h : ∀ k, tabFind t k = tabFind u k) : t = u := by
  have low : ∀ {t : Tab α} {a : Nat}, (∀ e ∈ t, a < e.1) → tabFind t a = none := by
    intro t a h
    induction t with
    | nil => rfl
    | cons e t ih =>
      have h1 := h e List.mem_cons_self
      simp only [tabFind]
      rw [if_neg (by omega), ih fun e he => h e (List.mem_cons_of_mem _ he)]
  induction t generalizing u with
  | nil =>
    cases u with
    | nil => rfl
    | cons e u => have := h e.1; simp [tabFind] at this
  | cons x t ih =>
    obtain ⟨a, w⟩ := x
    cases u with
    | nil => have := h a; simp [tabFind] at this
    | cons y u =>
      obtain ⟨b, z⟩ := y
      have ht' := List.pairwise_cons.1 ht
      have hu' := List.pairwise_cons.1 hu
      have hab : a = b := by
        by_contra hne
        rcases Nat.lt_or_gt_of_ne hne with hlt | hlt
        · have h1 := h a
          simp only [tabFind, if_true] at h1
          rw [if_neg (by omega), low fun e he => Nat.lt_trans hlt (hu'.1 e he)] at h1
          simp at h1
        · have h1 := h b
          simp only [tabFind, if_true] at h1
          rw [if_neg (by omega), low fun e he => Nat.lt_trans hlt (ht'.1 e he)] at h1
          simp at h1
      subst hab
      have hw : w = z := by have := h a; simpa [tabFind] using this
      subst hw
      congr 1
      refine ih ht'.2 hu'.2 fun k => ?_
      have := h k
      simp only [tabFind] at this
      by_cases hk : a = k
      · subst hk
        rw [low ht'.1, low hu'.1]
      · simpa [hk] using this

end Sys2Proof.Machine
end

