-- ==== Sys2Proof/Laws/Memory.lean ====
section
/-! SUPPORT. Byte memories: what a byte reads after a write, and that every operation on the register
file and on the byte memories keeps the canonical form. -/

namespace Sys2Proof.Machine

/-! ## Reading one byte -/

/-- The byte that a read of one address gives. -/
theorem readBytes_one (d : Nat → Byte) (m : List Host.Cell) (a : Nat) :
    readBytes d m a 1 = [(tabFind m a).getD (d a)] := rfl

theorem getD_tabFind_writeBytes (m : List Host.Cell) (a : Nat) (bs : List Byte) (k : Nat) :
    (tabFind (writeBytes m a bs) k).getD 0 =
      if a ≤ k ∧ k < a + bs.length then (bs[k - a]?).getD 0 else (tabFind m k).getD 0 := by
  induction bs generalizing m a with
  | nil => simp [writeBytes]
  | cons b bs ih =>
    have hs := tabGet_tabSet (0 : Byte) m a k b
    simp only [tabGet] at hs
    rw [writeBytes, ih, hs]
    by_cases h : a = k
    · subst h; simp
    · by_cases h2 : a + 1 ≤ k ∧ k < a + 1 + bs.length
      · rw [if_pos h2, if_pos ⟨by omega, by simp only [List.length_cons]; omega⟩]
        obtain ⟨d, rfl⟩ : ∃ d, k = a + 1 + d := ⟨k - (a + 1), by omega⟩
        have e1 : a + 1 + d - (a + 1) = d := by omega
        have e2 : a + 1 + d - a = d + 1 := by omega
        rw [e1, e2, List.getElem?_cons_succ]
      · rw [if_neg h2, if_neg h, if_neg (by simp only [List.length_cons]; omega)]

/-- A write to host memory leaves every byte outside it. -/
theorem State.readHost_writeHost_outside (s : State) (a k : Nat) (bs : List Byte)
    (h : k < a ∨ a + bs.length ≤ k) : (s.writeHost a bs).readHost k 1 = s.readHost k 1 := by
  have := getD_tabFind_writeBytes s.host.mem a bs k
  simp only [State.readHost, State.writeHost, readBytes_one]
  rw [this, if_neg (by omega)]

/-- A byte of host memory within a write reads what was written. -/
theorem State.readHost_writeHost_inside (s : State) (a i : Nat) (bs : List Byte) (h : i < bs.length) :
    (s.writeHost a bs).readHost (a + i) 1 = [bs[i]] := by
  have := getD_tabFind_writeBytes s.host.mem a bs (a + i)
  simp only [State.readHost, State.writeHost, readBytes_one]
  rw [this, if_pos ⟨by omega, by omega⟩]
  simp [h]

/-- A read returns the bytes that every one of its addresses holds. -/
theorem readBytes_eq (m : List Host.Cell) (a : Nat) (bs : List Byte)
    (h : ∀ i, i < bs.length → (tabFind m (a + i)).getD 0 = (bs[i]?).getD 0) :
    readBytes (fun _ => 0) m a bs.length = bs := by
  induction bs generalizing a with
  | nil => rfl
  | cons b bs ih =>
    have h0 := h 0 (by simp)
    have ht := ih (a + 1) fun i hi => by
      have := h (i + 1) (by simpa using hi)
      simpa [Nat.add_comm, Nat.add_left_comm, Nat.add_assoc] using this
    simp only [List.length_cons, readBytes, ht]
    simpa using h0

/-- A read of the bytes just written returns them. -/
theorem State.readHost_writeHost (s : State) (a : Nat) (bs : List Byte) :
    (s.writeHost a bs).readHost a bs.length = bs := by
  refine readBytes_eq _ _ _ fun i hi => ?_
  have := getD_tabFind_writeBytes s.host.mem a bs (a + i)
  simp only [State.writeHost, this]
  simp [hi]

/-- A write to GDDR leaves every byte outside it. -/
theorem tabFind_writeListed_outside (m : List Host.Cell) (a k : Nat) (bs : List Byte)
    (h : k < a ∨ a + bs.length ≤ k) : tabFind (writeListed m a bs) k = tabFind m k := by
  induction bs generalizing m a with
  | nil => rfl
  | cons b bs ih =>
    simp only [List.length_cons] at h
    rw [writeListed, ih _ _ (by omega)]
    split
    · unfold tabSet
      split
      · rw [tabFind_tabDel, if_neg (by omega)]
      · rw [tabFind_tabPut, if_neg (by omega)]
    · rw [tabFind_tabPut, if_neg (by omega)]

/-! ## The canonical form is kept -/

theorem State.memWf_reset : State.reset.memWf := by decide

theorem tabCanon_writeBytes {m : List Host.Cell} (a : Nat) (bs : List Byte) (h : tabCanon 0 m) :
    tabCanon 0 (writeBytes m a bs) := by
  induction bs generalizing m a with
  | nil => exact h
  | cons b bs ih => exact ih _ (tabCanon_tabSet a b h)

theorem gddrWf_writeListed {m : List Host.Cell} (a : Nat) (bs : List Byte) (h : gddrWf m) :
    gddrWf (writeListed m a bs) := by
  induction bs generalizing m a with
  | nil => exact h
  | cons b bs ih =>
    refine ih _ ?_
    split
    · refine ⟨tabWf_tabSet 0 a b h.1, fun e he hk => ?_⟩
      rcases mem_tabSet he with ⟨rfl, hv⟩ | he
      · exact hv
      · exact h.2 e he hk
    · refine ⟨tabWf_tabPut a b h.1, fun e he hk => ?_⟩
      rcases mem_tabPut he with rfl | he
      · exact absurd hk ‹_›
      · exact h.2 e he hk

theorem gddrWf_tabDrop {m : List Host.Cell} (p : Nat → Bool) (h : gddrWf m) : gddrWf (tabDrop m p) :=
  ⟨tabWf_tabDrop p h.1, fun e he => h.2 e (List.mem_of_mem_filter he)⟩

theorem State.memWf_setReg {s : State} (o i : Nat) (v : Word) (h : s.memWf) : (s.setReg o i v).memWf :=
  ⟨tabWf_tabSet _ _ _ h.1, h.2⟩

theorem State.memWf_dropRegs {s : State} (p : Nat → Nat → Bool) (h : s.memWf) : (s.dropRegs p).memWf :=
  ⟨tabWf_tabDrop (fun k => p (k / 1048576) (k % 1048576)) h.1, h.2⟩

theorem State.memWf_writeHost {s : State} (a : Nat) (bs : List Byte) (h : s.memWf) :
    (s.writeHost a bs).memWf :=
  ⟨h.1, tabCanon_writeBytes a bs h.2.1, h.2.2⟩

theorem State.memWf_writeGddr {s : State} (o a : Nat) (bs : List Byte) (h : s.memWf) :
    (s.writeGddr o a bs).memWf :=
  ⟨h.1, h.2.1, gddrWf_writeListed _ bs h.2.2.1, h.2.2.2⟩

theorem State.memWf_writeScratch {s : State} (c a : Nat) (bs : List Byte) (h : s.memWf) :
    (s.writeScratch c a bs).memWf :=
  ⟨h.1, h.2.1, h.2.2.1, tabCanon_writeBytes _ bs h.2.2.2.1, h.2.2.2.2⟩

theorem State.memWf_zeroScratch {s : State} (c : Nat) (h : s.memWf) : (s.zeroScratch c).memWf :=
  ⟨h.1, h.2.1, h.2.2.1, tabCanon_tabDrop (fun k => k / 2 ^ 22 == c) h.2.2.2.1, h.2.2.2.2⟩

/-- A loop keeps the canonical form if each turn does. -/
theorem State.memWf_foldl {β : Type} (g : State → β → State) (hg : ∀ s x, s.memWf → (g s x).memWf)
    (l : List β) {s : State} (h : s.memWf) : (l.foldl g s).memWf := by
  induction l generalizing s with
  | nil => exact h
  | cons x l ih => exact ih (hg s x h)

end Sys2Proof.Machine
end

