-- ==== Sys2Proof/Laws/Reg.lean ====
section
/-! SUPPORT. Registers and their fields after a write: the written bits, and every other one. -/

namespace Sys2Proof.Machine

/-! ## Bit ranges (R3) -/

/-- A word as its low part, a range and the rest. -/
theorem word_split (v lo w : Nat) :
    v % 2 ^ lo + v / 2 ^ lo % 2 ^ w * 2 ^ lo + v / 2 ^ (lo + w) * 2 ^ (lo + w) = v := by
  have h1 := Nat.div_add_mod v (2 ^ lo)
  have h2 := Nat.div_add_mod (v / 2 ^ lo) (2 ^ w)
  rw [Nat.div_div_eq_div_mul, ← Nat.pow_add] at h2
  have h3 : v / 2 ^ (lo + w) * 2 ^ (lo + w) = 2 ^ lo * (2 ^ w * (v / 2 ^ (lo + w))) := by
    rw [Nat.pow_add]; ring
  rw [h3, Nat.mul_comm (_ % _) (2 ^ lo)]
  calc _ = 2 ^ lo * (2 ^ w * (v / 2 ^ (lo + w)) + v / 2 ^ lo % 2 ^ w) + v % 2 ^ lo := by ring
    _ = v := by rw [h2, h1]

/-- The number that `setBits` makes fits a word. -/
theorem setBits_lt (v : Word) {lo w : Nat} (x : Nat) (h : lo + w ≤ 32) :
    v.toNat % 2 ^ lo + x % 2 ^ w * 2 ^ lo + v.toNat / 2 ^ (lo + w) * 2 ^ (lo + w) < 2 ^ 32 := by
  have h1 : v.toNat % 2 ^ lo < 2 ^ lo := Nat.mod_lt _ (by positivity)
  have h2 : x % 2 ^ w < 2 ^ w := Nat.mod_lt _ (by positivity)
  have h3 : v.toNat / 2 ^ (lo + w) < 2 ^ (32 - (lo + w)) := by
    rw [Nat.div_lt_iff_lt_mul (by positivity), ← Nat.pow_add, Nat.sub_add_cancel h]
    exact v.isLt
  have h4 : x % 2 ^ w * 2 ^ lo + 2 ^ lo ≤ 2 ^ (lo + w) := by
    rw [Nat.pow_add, Nat.mul_comm (2 ^ lo)]
    calc _ = (x % 2 ^ w + 1) * 2 ^ lo := by ring
      _ ≤ _ := Nat.mul_le_mul_right _ h2
  have h5 : v.toNat / 2 ^ (lo + w) * 2 ^ (lo + w) + 2 ^ (lo + w) ≤ 2 ^ 32 := by
    calc _ = (v.toNat / 2 ^ (lo + w) + 1) * 2 ^ (lo + w) := by ring
      _ ≤ 2 ^ (32 - (lo + w)) * 2 ^ (lo + w) := Nat.mul_le_mul_right _ h3
      _ = _ := by rw [← Nat.pow_add, Nat.sub_add_cancel h]
  omega

theorem toNat_setBits (v : Word) {lo w : Nat} (x : Nat) (h : lo + w ≤ 32) :
    (setBits v lo w x).toNat =
      v.toNat % 2 ^ lo + x % 2 ^ w * 2 ^ lo + v.toNat / 2 ^ (lo + w) * 2 ^ (lo + w) := by
  unfold setBits
  rw [BitVec.toNat_ofNat, Nat.mod_eq_of_lt (setBits_lt v x h)]

/-- A range reads what was put into it, to its width. -/
theorem getBits_setBits (v : Word) {lo w : Nat} (x : Nat) (h : lo + w ≤ 32) :
    getBits (setBits v lo w x) lo w = x % 2 ^ w := by
  unfold getBits
  rw [toNat_setBits v x h]
  have h1 : v.toNat % 2 ^ lo < 2 ^ lo := Nat.mod_lt _ (by positivity)
  have e : v.toNat % 2 ^ lo + x % 2 ^ w * 2 ^ lo + v.toNat / 2 ^ (lo + w) * 2 ^ (lo + w) =
      2 ^ lo * (2 ^ w * (v.toNat / 2 ^ (lo + w)) + x % 2 ^ w) + v.toNat % 2 ^ lo := by
    rw [Nat.pow_add]; ring
  rw [e, Nat.mul_add_div (by positivity), Nat.div_eq_of_lt h1, Nat.add_zero, Nat.mul_add_mod, Nat.mod_mod]

/-- Bits below the range are unchanged. -/
theorem getBits_setBits_below (v : Word) {lo w lo' w' : Nat} (x : Nat) (h : lo + w ≤ 32)
    (hd : lo' + w' ≤ lo) : getBits (setBits v lo w x) lo' w' = getBits v lo' w' := by
  unfold getBits
  rw [toNat_setBits v x h]
  have e : v.toNat % 2 ^ lo + x % 2 ^ w * 2 ^ lo + v.toNat / 2 ^ (lo + w) * 2 ^ (lo + w) =
      2 ^ lo * (2 ^ w * (v.toNat / 2 ^ (lo + w)) + x % 2 ^ w) + v.toNat % 2 ^ lo := by
    rw [Nat.pow_add]; ring
  have key : ∀ n : Nat, n / 2 ^ lo' % 2 ^ w' = n % 2 ^ lo / 2 ^ lo' % 2 ^ w' := by
    intro n
    obtain ⟨d, rfl⟩ := Nat.exists_eq_add_of_le hd
    rw [Nat.add_assoc, Nat.pow_add 2 lo', Nat.mod_mul_right_div_self, Nat.pow_add, Nat.mod_mul_right_mod]
  rw [key, key v.toNat, e, Nat.mul_add_mod, Nat.mod_mod]

/-- Bits above the range are unchanged. -/
theorem getBits_setBits_above (v : Word) {lo w lo' w' : Nat} (x : Nat) (h : lo + w ≤ 32)
    (hd : lo + w ≤ lo') : getBits (setBits v lo w x) lo' w' = getBits v lo' w' := by
  unfold getBits
  rw [toNat_setBits v x h]
  have key : ∀ n : Nat, n / 2 ^ lo' = n / 2 ^ (lo + w) / 2 ^ (lo' - (lo + w)) := by
    intro n
    rw [Nat.div_div_eq_div_mul, ← Nat.pow_add, Nat.add_sub_cancel' hd]
  have h1 : v.toNat % 2 ^ lo + x % 2 ^ w * 2 ^ lo < 2 ^ (lo + w) := by
    have h1 : v.toNat % 2 ^ lo < 2 ^ lo := Nat.mod_lt _ (by positivity)
    have h2 : x % 2 ^ w < 2 ^ w := Nat.mod_lt _ (by positivity)
    rw [Nat.pow_add, Nat.mul_comm (2 ^ lo)]
    calc _ < (x % 2 ^ w + 1) * 2 ^ lo := by
          rw [Nat.add_mul, Nat.one_mul, Nat.add_comm]; omega
      _ ≤ _ := Nat.mul_le_mul_right _ h2
  rw [key, key v.toNat, Nat.add_comm, Nat.mul_comm, Nat.mul_add_div (by positivity), Nat.div_eq_of_lt h1,
    Nat.add_zero]

/-! ## Register instances -/

/-- Distinct instances have distinct keys, where instance numbers fit the key. -/
theorem regKey_inj {o o' i i' : Nat} (h : i < 1048576) (h' : i' < 1048576) :
    regKey o i = regKey o' i' ↔ o = o' ∧ i = i' := by
  unfold regKey
  constructor
  · intro e; omega
  · rintro ⟨rfl, rfl⟩; rfl

@[simp] theorem State.reg_setReg_same (s : State) (o i : Nat) (v : Word) : (s.setReg o i v).reg o i = v := by
  have := tabGet_tabSet (regDefault o i) s.regs (regKey o i) (regKey o i) v
  simpa [State.reg, State.setReg, tabGet] using this

theorem State.reg_setReg_ne (s : State) {o o' i i' : Nat} (v : Word) (h : regKey o i ≠ regKey o' i') :
    (s.setReg o i v).reg o' i' = s.reg o' i' := by
  unfold State.reg State.setReg tabSet
  split
  · simp only [tabFind_tabDel, if_neg h]
  · simp only [tabFind_tabPut, if_neg h]

/-- A register other than the one written keeps its value. -/
theorem State.reg_setReg_off (s : State) {o o' i i' : Nat} (v : Word) (hi : i < 1048576)
    (hi' : i' < 1048576) (h : o ≠ o' ∨ i ≠ i') : (s.setReg o i v).reg o' i' = s.reg o' i' := by
  refine s.reg_setReg_ne v fun e => ?_
  have := (regKey_inj hi hi').1 e
  omega

/-! ## Fields -/

/-- A field reads what was put into it, to its width. -/
theorem State.fld_setFld_same (s : State) (f : Field) (i x : Nat) (h : f.lo + f.w ≤ 32) :
    (s.setFld f i x).fld f i = x % 2 ^ f.w := by
  simp [State.fld, State.setFld, getBits_setBits _ x h]

/-- A field of another register instance keeps its value. -/
theorem State.fld_setFld_ne (s : State) {f g : Field} {i j : Nat} (x : Nat)
    (h : regKey f.off i ≠ regKey g.off j) : (s.setFld f i x).fld g j = s.fld g j := by
  simp [State.fld, State.setFld, State.reg_setReg_ne s _ h]

/-- A field beside the one written keeps its value. -/
theorem State.fld_setFld_beside (s : State) {f g : Field} (i x : Nat) (h : f.lo + f.w ≤ 32)
    (ho : f.off = g.off) (hd : g.lo + g.w ≤ f.lo ∨ f.lo + f.w ≤ g.lo) :
    (s.setFld f i x).fld g i = s.fld g i := by
  unfold State.fld State.setFld
  rw [ho, State.reg_setReg_same]
  rcases hd with hd | hd
  · exact getBits_setBits_below _ x h hd
  · exact getBits_setBits_above _ x h hd

theorem State.reg_setFld_ne (s : State) {f : Field} {o i j : Nat} (x : Nat)
    (h : regKey f.off i ≠ regKey o j) : (s.setFld f i x).reg o j = s.reg o j := by
  simp [State.setFld, State.reg_setReg_ne s _ h]

/-- A counter saturates at its width. -/
theorem State.fld_bump_same (s : State) (f : Field) (i n : Nat) (h : f.lo + f.w ≤ 32) :
    (s.bump f i n).fld f i = min (s.fld f i + n) (2 ^ f.w - 1) := by
  unfold State.bump
  rw [State.fld_setFld_same s f i _ h, Nat.mod_eq_of_lt]
  have : 0 < 2 ^ f.w := by positivity
  omega

theorem State.fld_bump_ne (s : State) {f g : Field} {i j : Nat} (n : Nat)
    (h : regKey f.off i ≠ regKey g.off j) : (s.bump f i n).fld g j = s.fld g j :=
  s.fld_setFld_ne _ h

theorem State.reg_bump_ne (s : State) {f : Field} {o i j : Nat} (n : Nat)
    (h : regKey f.off i ≠ regKey o j) : (s.bump f i n).reg o j = s.reg o j :=
  s.reg_setFld_ne _ h

/-- A register that `dropRegs` returns to reset, and one it leaves. -/
theorem State.reg_dropRegs (s : State) (p : Nat → Nat → Bool) {o i : Nat} (h : i < 1048576) :
    (s.dropRegs p).reg o i = if p o i then regDefault o i else s.reg o i := by
  have e1 : regKey o i / 1048576 = o := by unfold regKey; omega
  have e2 : regKey o i % 1048576 = i := by unfold regKey; omega
  simp only [State.reg, State.dropRegs, tabFind_tabDrop, e1, e2]
  split <;> rfl

/-- A 64-bit pair reads what was written. -/
theorem State.reg64_setReg64 (s : State) (lo i v : Nat) (h : v < 2 ^ 64) :
    (s.setReg64 lo i v).reg64 lo i = v := by
  have hne : regKey (lo + 4) i ≠ regKey lo i := by unfold regKey; omega
  unfold State.reg64 State.setReg64
  rw [State.reg_setReg_same, State.reg_setReg_ne _ _ hne, State.reg_setReg_same]
  simp only [BitVec.toNat_ofNat]
  omega

end Sys2Proof.Machine
end

