-- ==== Sys2Proof/Laws/State.lean ====
section
/-! SUPPORT. Each update of State that the operations are made of, and each field it leaves: one lemma per
field per update, so that no proof unfolds a record update. -/

namespace Sys2Proof.Machine

variable (s : State)

@[simp] theorem State.host_setReg (o i : Nat) (v : Word) : (s.setReg o i v).host = s.host := rfl
@[simp] theorem State.mem_setReg (o i : Nat) (v : Word) : (s.setReg o i v).mem = s.mem := rfl
@[simp] theorem State.chutes_setReg (o i : Nat) (v : Word) : (s.setReg o i v).chutes = s.chutes := rfl
@[simp] theorem State.halter_setReg (o i : Nat) (v : Word) : (s.setReg o i v).halter = s.halter := rfl
@[simp] theorem State.seqs_setReg (o i : Nat) (v : Word) : (s.setReg o i v).seqs = s.seqs := rfl
@[simp] theorem State.suspended_setReg (o i : Nat) (v : Word) : (s.setReg o i v).suspended = s.suspended := rfl
@[simp] theorem State.kv_setReg (o i : Nat) (v : Word) : (s.setReg o i v).kv = s.kv := rfl
@[simp] theorem State.loft_setReg (o i : Nat) (v : Word) : (s.setReg o i v).loft = s.loft := rfl
@[simp] theorem State.drovers_setReg (o i : Nat) (v : Word) : (s.setReg o i v).drovers = s.drovers := rfl
@[simp] theorem State.shed_setReg (o i : Nat) (v : Word) : (s.setReg o i v).shed = s.shed := rfl
@[simp] theorem State.gddrs_setReg (o i : Nat) (v : Word) : (s.setReg o i v).gddrs = s.gddrs := rfl
@[simp] theorem State.yard_setReg (o i : Nat) (v : Word) : (s.setReg o i v).yard = s.yard := rfl
@[simp] theorem State.links_setReg (o i : Nat) (v : Word) : (s.setReg o i v).links = s.links := rfl
@[simp] theorem State.yt_setReg (o i : Nat) (v : Word) : (s.setReg o i v).yt = s.yt := rfl
@[simp] theorem State.eth_setReg (o i : Nat) (v : Word) : (s.setReg o i v).eth = s.eth := rfl
@[simp] theorem State.mus_setReg (o i : Nat) (v : Word) : (s.setReg o i v).mus = s.mus := rfl
@[simp] theorem State.parts_setReg (o i : Nat) (v : Word) : (s.setReg o i v).parts = s.parts := rfl
@[simp] theorem State.clk_setReg (o i : Nat) (v : Word) : (s.setReg o i v).clk = s.clk := rfl
@[simp] theorem State.bell_setReg (o i : Nat) (v : Word) : (s.setReg o i v).bell = s.bell := rfl
@[simp] theorem State.boot_setReg (o i : Nat) (v : Word) : (s.setReg o i v).boot = s.boot := rfl
@[simp] theorem State.far_setReg (o i : Nat) (v : Word) : (s.setReg o i v).far = s.far := rfl
@[simp] theorem State.vid_setReg (o i : Nat) (v : Word) : (s.setReg o i v).vid = s.vid := rfl
@[simp] theorem State.mbs_setReg (o i : Nat) (v : Word) : (s.setReg o i v).mbs = s.mbs := rfl
@[simp] theorem State.freeCount_setReg (o i : Nat) (v : Word) : (s.setReg o i v).freeCount = s.freeCount := rfl
@[simp] theorem State.pending_setReg (o i : Nat) (v : Word) : (s.setReg o i v).pending = s.pending := rfl

@[simp] theorem State.host_setFld (f : Field) (i x : Nat) : (s.setFld f i x).host = s.host := rfl
@[simp] theorem State.mem_setFld (f : Field) (i x : Nat) : (s.setFld f i x).mem = s.mem := rfl
@[simp] theorem State.chutes_setFld (f : Field) (i x : Nat) : (s.setFld f i x).chutes = s.chutes := rfl
@[simp] theorem State.halter_setFld (f : Field) (i x : Nat) : (s.setFld f i x).halter = s.halter := rfl
@[simp] theorem State.seqs_setFld (f : Field) (i x : Nat) : (s.setFld f i x).seqs = s.seqs := rfl
@[simp] theorem State.suspended_setFld (f : Field) (i x : Nat) : (s.setFld f i x).suspended = s.suspended := rfl
@[simp] theorem State.kv_setFld (f : Field) (i x : Nat) : (s.setFld f i x).kv = s.kv := rfl
@[simp] theorem State.loft_setFld (f : Field) (i x : Nat) : (s.setFld f i x).loft = s.loft := rfl
@[simp] theorem State.drovers_setFld (f : Field) (i x : Nat) : (s.setFld f i x).drovers = s.drovers := rfl
@[simp] theorem State.shed_setFld (f : Field) (i x : Nat) : (s.setFld f i x).shed = s.shed := rfl
@[simp] theorem State.gddrs_setFld (f : Field) (i x : Nat) : (s.setFld f i x).gddrs = s.gddrs := rfl
@[simp] theorem State.yard_setFld (f : Field) (i x : Nat) : (s.setFld f i x).yard = s.yard := rfl
@[simp] theorem State.links_setFld (f : Field) (i x : Nat) : (s.setFld f i x).links = s.links := rfl
@[simp] theorem State.yt_setFld (f : Field) (i x : Nat) : (s.setFld f i x).yt = s.yt := rfl
@[simp] theorem State.eth_setFld (f : Field) (i x : Nat) : (s.setFld f i x).eth = s.eth := rfl
@[simp] theorem State.mus_setFld (f : Field) (i x : Nat) : (s.setFld f i x).mus = s.mus := rfl
@[simp] theorem State.parts_setFld (f : Field) (i x : Nat) : (s.setFld f i x).parts = s.parts := rfl
@[simp] theorem State.clk_setFld (f : Field) (i x : Nat) : (s.setFld f i x).clk = s.clk := rfl
@[simp] theorem State.bell_setFld (f : Field) (i x : Nat) : (s.setFld f i x).bell = s.bell := rfl
@[simp] theorem State.boot_setFld (f : Field) (i x : Nat) : (s.setFld f i x).boot = s.boot := rfl
@[simp] theorem State.far_setFld (f : Field) (i x : Nat) : (s.setFld f i x).far = s.far := rfl
@[simp] theorem State.vid_setFld (f : Field) (i x : Nat) : (s.setFld f i x).vid = s.vid := rfl
@[simp] theorem State.mbs_setFld (f : Field) (i x : Nat) : (s.setFld f i x).mbs = s.mbs := rfl
@[simp] theorem State.freeCount_setFld (f : Field) (i x : Nat) : (s.setFld f i x).freeCount = s.freeCount := rfl
@[simp] theorem State.pending_setFld (f : Field) (i x : Nat) : (s.setFld f i x).pending = s.pending := rfl

@[simp] theorem State.host_bump (f : Field) (i n : Nat) : (s.bump f i n).host = s.host := rfl
@[simp] theorem State.mem_bump (f : Field) (i n : Nat) : (s.bump f i n).mem = s.mem := rfl
@[simp] theorem State.chutes_bump (f : Field) (i n : Nat) : (s.bump f i n).chutes = s.chutes := rfl
@[simp] theorem State.halter_bump (f : Field) (i n : Nat) : (s.bump f i n).halter = s.halter := rfl
@[simp] theorem State.seqs_bump (f : Field) (i n : Nat) : (s.bump f i n).seqs = s.seqs := rfl
@[simp] theorem State.suspended_bump (f : Field) (i n : Nat) : (s.bump f i n).suspended = s.suspended := rfl
@[simp] theorem State.kv_bump (f : Field) (i n : Nat) : (s.bump f i n).kv = s.kv := rfl
@[simp] theorem State.loft_bump (f : Field) (i n : Nat) : (s.bump f i n).loft = s.loft := rfl
@[simp] theorem State.drovers_bump (f : Field) (i n : Nat) : (s.bump f i n).drovers = s.drovers := rfl
@[simp] theorem State.shed_bump (f : Field) (i n : Nat) : (s.bump f i n).shed = s.shed := rfl
@[simp] theorem State.gddrs_bump (f : Field) (i n : Nat) : (s.bump f i n).gddrs = s.gddrs := rfl
@[simp] theorem State.yard_bump (f : Field) (i n : Nat) : (s.bump f i n).yard = s.yard := rfl
@[simp] theorem State.links_bump (f : Field) (i n : Nat) : (s.bump f i n).links = s.links := rfl
@[simp] theorem State.yt_bump (f : Field) (i n : Nat) : (s.bump f i n).yt = s.yt := rfl
@[simp] theorem State.eth_bump (f : Field) (i n : Nat) : (s.bump f i n).eth = s.eth := rfl
@[simp] theorem State.mus_bump (f : Field) (i n : Nat) : (s.bump f i n).mus = s.mus := rfl
@[simp] theorem State.parts_bump (f : Field) (i n : Nat) : (s.bump f i n).parts = s.parts := rfl
@[simp] theorem State.clk_bump (f : Field) (i n : Nat) : (s.bump f i n).clk = s.clk := rfl
@[simp] theorem State.bell_bump (f : Field) (i n : Nat) : (s.bump f i n).bell = s.bell := rfl
@[simp] theorem State.boot_bump (f : Field) (i n : Nat) : (s.bump f i n).boot = s.boot := rfl
@[simp] theorem State.far_bump (f : Field) (i n : Nat) : (s.bump f i n).far = s.far := rfl
@[simp] theorem State.vid_bump (f : Field) (i n : Nat) : (s.bump f i n).vid = s.vid := rfl
@[simp] theorem State.mbs_bump (f : Field) (i n : Nat) : (s.bump f i n).mbs = s.mbs := rfl
@[simp] theorem State.freeCount_bump (f : Field) (i n : Nat) : (s.bump f i n).freeCount = s.freeCount := rfl
@[simp] theorem State.pending_bump (f : Field) (i n : Nat) : (s.bump f i n).pending = s.pending := rfl

@[simp] theorem State.host_setReg64 (o i v : Nat) : (s.setReg64 o i v).host = s.host := rfl
@[simp] theorem State.mem_setReg64 (o i v : Nat) : (s.setReg64 o i v).mem = s.mem := rfl
@[simp] theorem State.chutes_setReg64 (o i v : Nat) : (s.setReg64 o i v).chutes = s.chutes := rfl
@[simp] theorem State.halter_setReg64 (o i v : Nat) : (s.setReg64 o i v).halter = s.halter := rfl
@[simp] theorem State.seqs_setReg64 (o i v : Nat) : (s.setReg64 o i v).seqs = s.seqs := rfl
@[simp] theorem State.suspended_setReg64 (o i v : Nat) : (s.setReg64 o i v).suspended = s.suspended := rfl
@[simp] theorem State.kv_setReg64 (o i v : Nat) : (s.setReg64 o i v).kv = s.kv := rfl
@[simp] theorem State.loft_setReg64 (o i v : Nat) : (s.setReg64 o i v).loft = s.loft := rfl
@[simp] theorem State.drovers_setReg64 (o i v : Nat) : (s.setReg64 o i v).drovers = s.drovers := rfl
@[simp] theorem State.shed_setReg64 (o i v : Nat) : (s.setReg64 o i v).shed = s.shed := rfl
@[simp] theorem State.gddrs_setReg64 (o i v : Nat) : (s.setReg64 o i v).gddrs = s.gddrs := rfl
@[simp] theorem State.yard_setReg64 (o i v : Nat) : (s.setReg64 o i v).yard = s.yard := rfl
@[simp] theorem State.links_setReg64 (o i v : Nat) : (s.setReg64 o i v).links = s.links := rfl
@[simp] theorem State.yt_setReg64 (o i v : Nat) : (s.setReg64 o i v).yt = s.yt := rfl
@[simp] theorem State.eth_setReg64 (o i v : Nat) : (s.setReg64 o i v).eth = s.eth := rfl
@[simp] theorem State.mus_setReg64 (o i v : Nat) : (s.setReg64 o i v).mus = s.mus := rfl
@[simp] theorem State.parts_setReg64 (o i v : Nat) : (s.setReg64 o i v).parts = s.parts := rfl
@[simp] theorem State.clk_setReg64 (o i v : Nat) : (s.setReg64 o i v).clk = s.clk := rfl
@[simp] theorem State.bell_setReg64 (o i v : Nat) : (s.setReg64 o i v).bell = s.bell := rfl
@[simp] theorem State.boot_setReg64 (o i v : Nat) : (s.setReg64 o i v).boot = s.boot := rfl
@[simp] theorem State.far_setReg64 (o i v : Nat) : (s.setReg64 o i v).far = s.far := rfl
@[simp] theorem State.vid_setReg64 (o i v : Nat) : (s.setReg64 o i v).vid = s.vid := rfl
@[simp] theorem State.mbs_setReg64 (o i v : Nat) : (s.setReg64 o i v).mbs = s.mbs := rfl
@[simp] theorem State.freeCount_setReg64 (o i v : Nat) : (s.setReg64 o i v).freeCount = s.freeCount := rfl
@[simp] theorem State.pending_setReg64 (o i v : Nat) : (s.setReg64 o i v).pending = s.pending := rfl

@[simp] theorem State.host_bump64 (o i n : Nat) : (s.bump64 o i n).host = s.host := rfl
@[simp] theorem State.mem_bump64 (o i n : Nat) : (s.bump64 o i n).mem = s.mem := rfl
@[simp] theorem State.chutes_bump64 (o i n : Nat) : (s.bump64 o i n).chutes = s.chutes := rfl
@[simp] theorem State.halter_bump64 (o i n : Nat) : (s.bump64 o i n).halter = s.halter := rfl
@[simp] theorem State.seqs_bump64 (o i n : Nat) : (s.bump64 o i n).seqs = s.seqs := rfl
@[simp] theorem State.suspended_bump64 (o i n : Nat) : (s.bump64 o i n).suspended = s.suspended := rfl
@[simp] theorem State.kv_bump64 (o i n : Nat) : (s.bump64 o i n).kv = s.kv := rfl
@[simp] theorem State.loft_bump64 (o i n : Nat) : (s.bump64 o i n).loft = s.loft := rfl
@[simp] theorem State.drovers_bump64 (o i n : Nat) : (s.bump64 o i n).drovers = s.drovers := rfl
@[simp] theorem State.shed_bump64 (o i n : Nat) : (s.bump64 o i n).shed = s.shed := rfl
@[simp] theorem State.gddrs_bump64 (o i n : Nat) : (s.bump64 o i n).gddrs = s.gddrs := rfl
@[simp] theorem State.yard_bump64 (o i n : Nat) : (s.bump64 o i n).yard = s.yard := rfl
@[simp] theorem State.links_bump64 (o i n : Nat) : (s.bump64 o i n).links = s.links := rfl
@[simp] theorem State.yt_bump64 (o i n : Nat) : (s.bump64 o i n).yt = s.yt := rfl
@[simp] theorem State.eth_bump64 (o i n : Nat) : (s.bump64 o i n).eth = s.eth := rfl
@[simp] theorem State.mus_bump64 (o i n : Nat) : (s.bump64 o i n).mus = s.mus := rfl
@[simp] theorem State.parts_bump64 (o i n : Nat) : (s.bump64 o i n).parts = s.parts := rfl
@[simp] theorem State.clk_bump64 (o i n : Nat) : (s.bump64 o i n).clk = s.clk := rfl
@[simp] theorem State.bell_bump64 (o i n : Nat) : (s.bump64 o i n).bell = s.bell := rfl
@[simp] theorem State.boot_bump64 (o i n : Nat) : (s.bump64 o i n).boot = s.boot := rfl
@[simp] theorem State.far_bump64 (o i n : Nat) : (s.bump64 o i n).far = s.far := rfl
@[simp] theorem State.vid_bump64 (o i n : Nat) : (s.bump64 o i n).vid = s.vid := rfl
@[simp] theorem State.mbs_bump64 (o i n : Nat) : (s.bump64 o i n).mbs = s.mbs := rfl
@[simp] theorem State.freeCount_bump64 (o i n : Nat) : (s.bump64 o i n).freeCount = s.freeCount := rfl
@[simp] theorem State.pending_bump64 (o i n : Nat) : (s.bump64 o i n).pending = s.pending := rfl

@[simp] theorem State.host_dropRegs (p : Nat → Nat → Bool) : (s.dropRegs p).host = s.host := rfl
@[simp] theorem State.mem_dropRegs (p : Nat → Nat → Bool) : (s.dropRegs p).mem = s.mem := rfl
@[simp] theorem State.chutes_dropRegs (p : Nat → Nat → Bool) : (s.dropRegs p).chutes = s.chutes := rfl
@[simp] theorem State.halter_dropRegs (p : Nat → Nat → Bool) : (s.dropRegs p).halter = s.halter := rfl
@[simp] theorem State.seqs_dropRegs (p : Nat → Nat → Bool) : (s.dropRegs p).seqs = s.seqs := rfl
@[simp] theorem State.suspended_dropRegs (p : Nat → Nat → Bool) : (s.dropRegs p).suspended = s.suspended := rfl
@[simp] theorem State.kv_dropRegs (p : Nat → Nat → Bool) : (s.dropRegs p).kv = s.kv := rfl
@[simp] theorem State.loft_dropRegs (p : Nat → Nat → Bool) : (s.dropRegs p).loft = s.loft := rfl
@[simp] theorem State.drovers_dropRegs (p : Nat → Nat → Bool) : (s.dropRegs p).drovers = s.drovers := rfl
@[simp] theorem State.shed_dropRegs (p : Nat → Nat → Bool) : (s.dropRegs p).shed = s.shed := rfl
@[simp] theorem State.gddrs_dropRegs (p : Nat → Nat → Bool) : (s.dropRegs p).gddrs = s.gddrs := rfl
@[simp] theorem State.yard_dropRegs (p : Nat → Nat → Bool) : (s.dropRegs p).yard = s.yard := rfl
@[simp] theorem State.links_dropRegs (p : Nat → Nat → Bool) : (s.dropRegs p).links = s.links := rfl
@[simp] theorem State.yt_dropRegs (p : Nat → Nat → Bool) : (s.dropRegs p).yt = s.yt := rfl
@[simp] theorem State.eth_dropRegs (p : Nat → Nat → Bool) : (s.dropRegs p).eth = s.eth := rfl
@[simp] theorem State.mus_dropRegs (p : Nat → Nat → Bool) : (s.dropRegs p).mus = s.mus := rfl
@[simp] theorem State.parts_dropRegs (p : Nat → Nat → Bool) : (s.dropRegs p).parts = s.parts := rfl
@[simp] theorem State.clk_dropRegs (p : Nat → Nat → Bool) : (s.dropRegs p).clk = s.clk := rfl
@[simp] theorem State.bell_dropRegs (p : Nat → Nat → Bool) : (s.dropRegs p).bell = s.bell := rfl
@[simp] theorem State.boot_dropRegs (p : Nat → Nat → Bool) : (s.dropRegs p).boot = s.boot := rfl
@[simp] theorem State.far_dropRegs (p : Nat → Nat → Bool) : (s.dropRegs p).far = s.far := rfl
@[simp] theorem State.vid_dropRegs (p : Nat → Nat → Bool) : (s.dropRegs p).vid = s.vid := rfl
@[simp] theorem State.mbs_dropRegs (p : Nat → Nat → Bool) : (s.dropRegs p).mbs = s.mbs := rfl
@[simp] theorem State.freeCount_dropRegs (p : Nat → Nat → Bool) : (s.dropRegs p).freeCount = s.freeCount := rfl
@[simp] theorem State.pending_dropRegs (p : Nat → Nat → Bool) : (s.dropRegs p).pending = s.pending := rfl

@[simp] theorem State.regs_writeHost (a : Nat) (bs : List Byte) : (s.writeHost a bs).regs = s.regs := rfl
@[simp] theorem State.mem_writeHost (a : Nat) (bs : List Byte) : (s.writeHost a bs).mem = s.mem := rfl
@[simp] theorem State.chutes_writeHost (a : Nat) (bs : List Byte) : (s.writeHost a bs).chutes = s.chutes := rfl
@[simp] theorem State.halter_writeHost (a : Nat) (bs : List Byte) : (s.writeHost a bs).halter = s.halter := rfl
@[simp] theorem State.seqs_writeHost (a : Nat) (bs : List Byte) : (s.writeHost a bs).seqs = s.seqs := rfl
@[simp] theorem State.suspended_writeHost (a : Nat) (bs : List Byte) : (s.writeHost a bs).suspended = s.suspended := rfl
@[simp] theorem State.kv_writeHost (a : Nat) (bs : List Byte) : (s.writeHost a bs).kv = s.kv := rfl
@[simp] theorem State.loft_writeHost (a : Nat) (bs : List Byte) : (s.writeHost a bs).loft = s.loft := rfl
@[simp] theorem State.drovers_writeHost (a : Nat) (bs : List Byte) : (s.writeHost a bs).drovers = s.drovers := rfl
@[simp] theorem State.shed_writeHost (a : Nat) (bs : List Byte) : (s.writeHost a bs).shed = s.shed := rfl
@[simp] theorem State.gddrs_writeHost (a : Nat) (bs : List Byte) : (s.writeHost a bs).gddrs = s.gddrs := rfl
@[simp] theorem State.yard_writeHost (a : Nat) (bs : List Byte) : (s.writeHost a bs).yard = s.yard := rfl
@[simp] theorem State.links_writeHost (a : Nat) (bs : List Byte) : (s.writeHost a bs).links = s.links := rfl
@[simp] theorem State.yt_writeHost (a : Nat) (bs : List Byte) : (s.writeHost a bs).yt = s.yt := rfl
@[simp] theorem State.eth_writeHost (a : Nat) (bs : List Byte) : (s.writeHost a bs).eth = s.eth := rfl
@[simp] theorem State.mus_writeHost (a : Nat) (bs : List Byte) : (s.writeHost a bs).mus = s.mus := rfl
@[simp] theorem State.parts_writeHost (a : Nat) (bs : List Byte) : (s.writeHost a bs).parts = s.parts := rfl
@[simp] theorem State.clk_writeHost (a : Nat) (bs : List Byte) : (s.writeHost a bs).clk = s.clk := rfl
@[simp] theorem State.bell_writeHost (a : Nat) (bs : List Byte) : (s.writeHost a bs).bell = s.bell := rfl
@[simp] theorem State.boot_writeHost (a : Nat) (bs : List Byte) : (s.writeHost a bs).boot = s.boot := rfl
@[simp] theorem State.far_writeHost (a : Nat) (bs : List Byte) : (s.writeHost a bs).far = s.far := rfl
@[simp] theorem State.vid_writeHost (a : Nat) (bs : List Byte) : (s.writeHost a bs).vid = s.vid := rfl
@[simp] theorem State.mbs_writeHost (a : Nat) (bs : List Byte) : (s.writeHost a bs).mbs = s.mbs := rfl
@[simp] theorem State.freeCount_writeHost (a : Nat) (bs : List Byte) : (s.writeHost a bs).freeCount = s.freeCount := rfl
@[simp] theorem State.pending_writeHost (a : Nat) (bs : List Byte) : (s.writeHost a bs).pending = s.pending := rfl

@[simp] theorem State.regs_writeGddr (o a : Nat) (bs : List Byte) : (s.writeGddr o a bs).regs = s.regs := rfl
@[simp] theorem State.host_writeGddr (o a : Nat) (bs : List Byte) : (s.writeGddr o a bs).host = s.host := rfl
@[simp] theorem State.chutes_writeGddr (o a : Nat) (bs : List Byte) : (s.writeGddr o a bs).chutes = s.chutes := rfl
@[simp] theorem State.halter_writeGddr (o a : Nat) (bs : List Byte) : (s.writeGddr o a bs).halter = s.halter := rfl
@[simp] theorem State.seqs_writeGddr (o a : Nat) (bs : List Byte) : (s.writeGddr o a bs).seqs = s.seqs := rfl
@[simp] theorem State.suspended_writeGddr (o a : Nat) (bs : List Byte) : (s.writeGddr o a bs).suspended = s.suspended := rfl
@[simp] theorem State.kv_writeGddr (o a : Nat) (bs : List Byte) : (s.writeGddr o a bs).kv = s.kv := rfl
@[simp] theorem State.loft_writeGddr (o a : Nat) (bs : List Byte) : (s.writeGddr o a bs).loft = s.loft := rfl
@[simp] theorem State.drovers_writeGddr (o a : Nat) (bs : List Byte) : (s.writeGddr o a bs).drovers = s.drovers := rfl
@[simp] theorem State.shed_writeGddr (o a : Nat) (bs : List Byte) : (s.writeGddr o a bs).shed = s.shed := rfl
@[simp] theorem State.gddrs_writeGddr (o a : Nat) (bs : List Byte) : (s.writeGddr o a bs).gddrs = s.gddrs := rfl
@[simp] theorem State.yard_writeGddr (o a : Nat) (bs : List Byte) : (s.writeGddr o a bs).yard = s.yard := rfl
@[simp] theorem State.links_writeGddr (o a : Nat) (bs : List Byte) : (s.writeGddr o a bs).links = s.links := rfl
@[simp] theorem State.yt_writeGddr (o a : Nat) (bs : List Byte) : (s.writeGddr o a bs).yt = s.yt := rfl
@[simp] theorem State.eth_writeGddr (o a : Nat) (bs : List Byte) : (s.writeGddr o a bs).eth = s.eth := rfl
@[simp] theorem State.mus_writeGddr (o a : Nat) (bs : List Byte) : (s.writeGddr o a bs).mus = s.mus := rfl
@[simp] theorem State.parts_writeGddr (o a : Nat) (bs : List Byte) : (s.writeGddr o a bs).parts = s.parts := rfl
@[simp] theorem State.clk_writeGddr (o a : Nat) (bs : List Byte) : (s.writeGddr o a bs).clk = s.clk := rfl
@[simp] theorem State.bell_writeGddr (o a : Nat) (bs : List Byte) : (s.writeGddr o a bs).bell = s.bell := rfl
@[simp] theorem State.boot_writeGddr (o a : Nat) (bs : List Byte) : (s.writeGddr o a bs).boot = s.boot := rfl
@[simp] theorem State.far_writeGddr (o a : Nat) (bs : List Byte) : (s.writeGddr o a bs).far = s.far := rfl
@[simp] theorem State.vid_writeGddr (o a : Nat) (bs : List Byte) : (s.writeGddr o a bs).vid = s.vid := rfl
@[simp] theorem State.mbs_writeGddr (o a : Nat) (bs : List Byte) : (s.writeGddr o a bs).mbs = s.mbs := rfl
@[simp] theorem State.freeCount_writeGddr (o a : Nat) (bs : List Byte) : (s.writeGddr o a bs).freeCount = s.freeCount := rfl
@[simp] theorem State.pending_writeGddr (o a : Nat) (bs : List Byte) : (s.writeGddr o a bs).pending = s.pending := rfl

@[simp] theorem State.regs_poisonGddr (o a n : Nat) : (s.poisonGddr o a n).regs = s.regs := rfl
@[simp] theorem State.host_poisonGddr (o a n : Nat) : (s.poisonGddr o a n).host = s.host := rfl
@[simp] theorem State.chutes_poisonGddr (o a n : Nat) : (s.poisonGddr o a n).chutes = s.chutes := rfl
@[simp] theorem State.halter_poisonGddr (o a n : Nat) : (s.poisonGddr o a n).halter = s.halter := rfl
@[simp] theorem State.seqs_poisonGddr (o a n : Nat) : (s.poisonGddr o a n).seqs = s.seqs := rfl
@[simp] theorem State.suspended_poisonGddr (o a n : Nat) : (s.poisonGddr o a n).suspended = s.suspended := rfl
@[simp] theorem State.kv_poisonGddr (o a n : Nat) : (s.poisonGddr o a n).kv = s.kv := rfl
@[simp] theorem State.loft_poisonGddr (o a n : Nat) : (s.poisonGddr o a n).loft = s.loft := rfl
@[simp] theorem State.drovers_poisonGddr (o a n : Nat) : (s.poisonGddr o a n).drovers = s.drovers := rfl
@[simp] theorem State.shed_poisonGddr (o a n : Nat) : (s.poisonGddr o a n).shed = s.shed := rfl
@[simp] theorem State.gddrs_poisonGddr (o a n : Nat) : (s.poisonGddr o a n).gddrs = s.gddrs := rfl
@[simp] theorem State.yard_poisonGddr (o a n : Nat) : (s.poisonGddr o a n).yard = s.yard := rfl
@[simp] theorem State.links_poisonGddr (o a n : Nat) : (s.poisonGddr o a n).links = s.links := rfl
@[simp] theorem State.yt_poisonGddr (o a n : Nat) : (s.poisonGddr o a n).yt = s.yt := rfl
@[simp] theorem State.eth_poisonGddr (o a n : Nat) : (s.poisonGddr o a n).eth = s.eth := rfl
@[simp] theorem State.mus_poisonGddr (o a n : Nat) : (s.poisonGddr o a n).mus = s.mus := rfl
@[simp] theorem State.parts_poisonGddr (o a n : Nat) : (s.poisonGddr o a n).parts = s.parts := rfl
@[simp] theorem State.clk_poisonGddr (o a n : Nat) : (s.poisonGddr o a n).clk = s.clk := rfl
@[simp] theorem State.bell_poisonGddr (o a n : Nat) : (s.poisonGddr o a n).bell = s.bell := rfl
@[simp] theorem State.boot_poisonGddr (o a n : Nat) : (s.poisonGddr o a n).boot = s.boot := rfl
@[simp] theorem State.far_poisonGddr (o a n : Nat) : (s.poisonGddr o a n).far = s.far := rfl
@[simp] theorem State.vid_poisonGddr (o a n : Nat) : (s.poisonGddr o a n).vid = s.vid := rfl
@[simp] theorem State.mbs_poisonGddr (o a n : Nat) : (s.poisonGddr o a n).mbs = s.mbs := rfl
@[simp] theorem State.freeCount_poisonGddr (o a n : Nat) : (s.poisonGddr o a n).freeCount = s.freeCount := rfl
@[simp] theorem State.pending_poisonGddr (o a n : Nat) : (s.poisonGddr o a n).pending = s.pending := rfl

@[simp] theorem State.regs_writeScratch (c a : Nat) (bs : List Byte) : (s.writeScratch c a bs).regs = s.regs := rfl
@[simp] theorem State.host_writeScratch (c a : Nat) (bs : List Byte) : (s.writeScratch c a bs).host = s.host := rfl
@[simp] theorem State.chutes_writeScratch (c a : Nat) (bs : List Byte) : (s.writeScratch c a bs).chutes = s.chutes := rfl
@[simp] theorem State.halter_writeScratch (c a : Nat) (bs : List Byte) : (s.writeScratch c a bs).halter = s.halter := rfl
@[simp] theorem State.seqs_writeScratch (c a : Nat) (bs : List Byte) : (s.writeScratch c a bs).seqs = s.seqs := rfl
@[simp] theorem State.suspended_writeScratch (c a : Nat) (bs : List Byte) : (s.writeScratch c a bs).suspended = s.suspended := rfl
@[simp] theorem State.kv_writeScratch (c a : Nat) (bs : List Byte) : (s.writeScratch c a bs).kv = s.kv := rfl
@[simp] theorem State.loft_writeScratch (c a : Nat) (bs : List Byte) : (s.writeScratch c a bs).loft = s.loft := rfl
@[simp] theorem State.drovers_writeScratch (c a : Nat) (bs : List Byte) : (s.writeScratch c a bs).drovers = s.drovers := rfl
@[simp] theorem State.shed_writeScratch (c a : Nat) (bs : List Byte) : (s.writeScratch c a bs).shed = s.shed := rfl
@[simp] theorem State.gddrs_writeScratch (c a : Nat) (bs : List Byte) : (s.writeScratch c a bs).gddrs = s.gddrs := rfl
@[simp] theorem State.yard_writeScratch (c a : Nat) (bs : List Byte) : (s.writeScratch c a bs).yard = s.yard := rfl
@[simp] theorem State.links_writeScratch (c a : Nat) (bs : List Byte) : (s.writeScratch c a bs).links = s.links := rfl
@[simp] theorem State.yt_writeScratch (c a : Nat) (bs : List Byte) : (s.writeScratch c a bs).yt = s.yt := rfl
@[simp] theorem State.eth_writeScratch (c a : Nat) (bs : List Byte) : (s.writeScratch c a bs).eth = s.eth := rfl
@[simp] theorem State.mus_writeScratch (c a : Nat) (bs : List Byte) : (s.writeScratch c a bs).mus = s.mus := rfl
@[simp] theorem State.parts_writeScratch (c a : Nat) (bs : List Byte) : (s.writeScratch c a bs).parts = s.parts := rfl
@[simp] theorem State.clk_writeScratch (c a : Nat) (bs : List Byte) : (s.writeScratch c a bs).clk = s.clk := rfl
@[simp] theorem State.bell_writeScratch (c a : Nat) (bs : List Byte) : (s.writeScratch c a bs).bell = s.bell := rfl
@[simp] theorem State.boot_writeScratch (c a : Nat) (bs : List Byte) : (s.writeScratch c a bs).boot = s.boot := rfl
@[simp] theorem State.far_writeScratch (c a : Nat) (bs : List Byte) : (s.writeScratch c a bs).far = s.far := rfl
@[simp] theorem State.vid_writeScratch (c a : Nat) (bs : List Byte) : (s.writeScratch c a bs).vid = s.vid := rfl
@[simp] theorem State.mbs_writeScratch (c a : Nat) (bs : List Byte) : (s.writeScratch c a bs).mbs = s.mbs := rfl
@[simp] theorem State.freeCount_writeScratch (c a : Nat) (bs : List Byte) : (s.writeScratch c a bs).freeCount = s.freeCount := rfl
@[simp] theorem State.pending_writeScratch (c a : Nat) (bs : List Byte) : (s.writeScratch c a bs).pending = s.pending := rfl

@[simp] theorem State.regs_zeroScratch (c : Nat) : (s.zeroScratch c).regs = s.regs := rfl
@[simp] theorem State.host_zeroScratch (c : Nat) : (s.zeroScratch c).host = s.host := rfl
@[simp] theorem State.chutes_zeroScratch (c : Nat) : (s.zeroScratch c).chutes = s.chutes := rfl
@[simp] theorem State.halter_zeroScratch (c : Nat) : (s.zeroScratch c).halter = s.halter := rfl
@[simp] theorem State.seqs_zeroScratch (c : Nat) : (s.zeroScratch c).seqs = s.seqs := rfl
@[simp] theorem State.suspended_zeroScratch (c : Nat) : (s.zeroScratch c).suspended = s.suspended := rfl
@[simp] theorem State.kv_zeroScratch (c : Nat) : (s.zeroScratch c).kv = s.kv := rfl
@[simp] theorem State.loft_zeroScratch (c : Nat) : (s.zeroScratch c).loft = s.loft := rfl
@[simp] theorem State.drovers_zeroScratch (c : Nat) : (s.zeroScratch c).drovers = s.drovers := rfl
@[simp] theorem State.shed_zeroScratch (c : Nat) : (s.zeroScratch c).shed = s.shed := rfl
@[simp] theorem State.gddrs_zeroScratch (c : Nat) : (s.zeroScratch c).gddrs = s.gddrs := rfl
@[simp] theorem State.yard_zeroScratch (c : Nat) : (s.zeroScratch c).yard = s.yard := rfl
@[simp] theorem State.links_zeroScratch (c : Nat) : (s.zeroScratch c).links = s.links := rfl
@[simp] theorem State.yt_zeroScratch (c : Nat) : (s.zeroScratch c).yt = s.yt := rfl
@[simp] theorem State.eth_zeroScratch (c : Nat) : (s.zeroScratch c).eth = s.eth := rfl
@[simp] theorem State.mus_zeroScratch (c : Nat) : (s.zeroScratch c).mus = s.mus := rfl
@[simp] theorem State.parts_zeroScratch (c : Nat) : (s.zeroScratch c).parts = s.parts := rfl
@[simp] theorem State.clk_zeroScratch (c : Nat) : (s.zeroScratch c).clk = s.clk := rfl
@[simp] theorem State.bell_zeroScratch (c : Nat) : (s.zeroScratch c).bell = s.bell := rfl
@[simp] theorem State.boot_zeroScratch (c : Nat) : (s.zeroScratch c).boot = s.boot := rfl
@[simp] theorem State.far_zeroScratch (c : Nat) : (s.zeroScratch c).far = s.far := rfl
@[simp] theorem State.vid_zeroScratch (c : Nat) : (s.zeroScratch c).vid = s.vid := rfl
@[simp] theorem State.mbs_zeroScratch (c : Nat) : (s.zeroScratch c).mbs = s.mbs := rfl
@[simp] theorem State.freeCount_zeroScratch (c : Nat) : (s.zeroScratch c).freeCount = s.freeCount := rfl
@[simp] theorem State.pending_zeroScratch (c : Nat) : (s.zeroScratch c).pending = s.pending := rfl

@[simp] theorem State.regs_updFlight (q : Nat) (g : Flight → Flight) : (s.updFlight q g).regs = s.regs := rfl
@[simp] theorem State.mem_updFlight (q : Nat) (g : Flight → Flight) : (s.updFlight q g).mem = s.mem := rfl
@[simp] theorem State.chutes_updFlight (q : Nat) (g : Flight → Flight) : (s.updFlight q g).chutes = s.chutes := rfl
@[simp] theorem State.halter_updFlight (q : Nat) (g : Flight → Flight) : (s.updFlight q g).halter = s.halter := rfl
@[simp] theorem State.seqs_updFlight (q : Nat) (g : Flight → Flight) : (s.updFlight q g).seqs = s.seqs := rfl
@[simp] theorem State.suspended_updFlight (q : Nat) (g : Flight → Flight) : (s.updFlight q g).suspended = s.suspended := rfl
@[simp] theorem State.kv_updFlight (q : Nat) (g : Flight → Flight) : (s.updFlight q g).kv = s.kv := rfl
@[simp] theorem State.loft_updFlight (q : Nat) (g : Flight → Flight) : (s.updFlight q g).loft = s.loft := rfl
@[simp] theorem State.drovers_updFlight (q : Nat) (g : Flight → Flight) : (s.updFlight q g).drovers = s.drovers := rfl
@[simp] theorem State.shed_updFlight (q : Nat) (g : Flight → Flight) : (s.updFlight q g).shed = s.shed := rfl
@[simp] theorem State.gddrs_updFlight (q : Nat) (g : Flight → Flight) : (s.updFlight q g).gddrs = s.gddrs := rfl
@[simp] theorem State.yard_updFlight (q : Nat) (g : Flight → Flight) : (s.updFlight q g).yard = s.yard := rfl
@[simp] theorem State.links_updFlight (q : Nat) (g : Flight → Flight) : (s.updFlight q g).links = s.links := rfl
@[simp] theorem State.yt_updFlight (q : Nat) (g : Flight → Flight) : (s.updFlight q g).yt = s.yt := rfl
@[simp] theorem State.eth_updFlight (q : Nat) (g : Flight → Flight) : (s.updFlight q g).eth = s.eth := rfl
@[simp] theorem State.mus_updFlight (q : Nat) (g : Flight → Flight) : (s.updFlight q g).mus = s.mus := rfl
@[simp] theorem State.parts_updFlight (q : Nat) (g : Flight → Flight) : (s.updFlight q g).parts = s.parts := rfl
@[simp] theorem State.clk_updFlight (q : Nat) (g : Flight → Flight) : (s.updFlight q g).clk = s.clk := rfl
@[simp] theorem State.bell_updFlight (q : Nat) (g : Flight → Flight) : (s.updFlight q g).bell = s.bell := rfl
@[simp] theorem State.boot_updFlight (q : Nat) (g : Flight → Flight) : (s.updFlight q g).boot = s.boot := rfl
@[simp] theorem State.far_updFlight (q : Nat) (g : Flight → Flight) : (s.updFlight q g).far = s.far := rfl
@[simp] theorem State.vid_updFlight (q : Nat) (g : Flight → Flight) : (s.updFlight q g).vid = s.vid := rfl
@[simp] theorem State.mbs_updFlight (q : Nat) (g : Flight → Flight) : (s.updFlight q g).mbs = s.mbs := rfl
@[simp] theorem State.freeCount_updFlight (q : Nat) (g : Flight → Flight) : (s.updFlight q g).freeCount = s.freeCount := rfl
@[simp] theorem State.pending_updFlight (q : Nat) (g : Flight → Flight) : (s.updFlight q g).pending = s.pending := rfl

@[simp] theorem State.regs_dropFlight (q : Nat) : (s.dropFlight q).regs = s.regs := rfl
@[simp] theorem State.mem_dropFlight (q : Nat) : (s.dropFlight q).mem = s.mem := rfl
@[simp] theorem State.chutes_dropFlight (q : Nat) : (s.dropFlight q).chutes = s.chutes := rfl
@[simp] theorem State.halter_dropFlight (q : Nat) : (s.dropFlight q).halter = s.halter := rfl
@[simp] theorem State.seqs_dropFlight (q : Nat) : (s.dropFlight q).seqs = s.seqs := rfl
@[simp] theorem State.suspended_dropFlight (q : Nat) : (s.dropFlight q).suspended = s.suspended := rfl
@[simp] theorem State.kv_dropFlight (q : Nat) : (s.dropFlight q).kv = s.kv := rfl
@[simp] theorem State.loft_dropFlight (q : Nat) : (s.dropFlight q).loft = s.loft := rfl
@[simp] theorem State.drovers_dropFlight (q : Nat) : (s.dropFlight q).drovers = s.drovers := rfl
@[simp] theorem State.shed_dropFlight (q : Nat) : (s.dropFlight q).shed = s.shed := rfl
@[simp] theorem State.gddrs_dropFlight (q : Nat) : (s.dropFlight q).gddrs = s.gddrs := rfl
@[simp] theorem State.yard_dropFlight (q : Nat) : (s.dropFlight q).yard = s.yard := rfl
@[simp] theorem State.links_dropFlight (q : Nat) : (s.dropFlight q).links = s.links := rfl
@[simp] theorem State.yt_dropFlight (q : Nat) : (s.dropFlight q).yt = s.yt := rfl
@[simp] theorem State.eth_dropFlight (q : Nat) : (s.dropFlight q).eth = s.eth := rfl
@[simp] theorem State.mus_dropFlight (q : Nat) : (s.dropFlight q).mus = s.mus := rfl
@[simp] theorem State.parts_dropFlight (q : Nat) : (s.dropFlight q).parts = s.parts := rfl
@[simp] theorem State.clk_dropFlight (q : Nat) : (s.dropFlight q).clk = s.clk := rfl
@[simp] theorem State.bell_dropFlight (q : Nat) : (s.dropFlight q).bell = s.bell := rfl
@[simp] theorem State.boot_dropFlight (q : Nat) : (s.dropFlight q).boot = s.boot := rfl
@[simp] theorem State.far_dropFlight (q : Nat) : (s.dropFlight q).far = s.far := rfl
@[simp] theorem State.vid_dropFlight (q : Nat) : (s.dropFlight q).vid = s.vid := rfl
@[simp] theorem State.mbs_dropFlight (q : Nat) : (s.dropFlight q).mbs = s.mbs := rfl
@[simp] theorem State.freeCount_dropFlight (q : Nat) : (s.dropFlight q).freeCount = s.freeCount := rfl
@[simp] theorem State.pending_dropFlight (q : Nat) : (s.dropFlight q).pending = s.pending := rfl

@[simp] theorem State.mem_dropFlight' (q : Nat) : (s.dropFlight q).host.mem = s.host.mem := rfl
@[simp] theorem State.mem_updFlight' (q : Nat) (g : Flight → Flight) : (s.updFlight q g).host.mem = s.host.mem := rfl

/-! A register read looks at the registers alone. -/

theorem State.reg_congr {s t : State} (h : t.regs = s.regs) (o i : Nat) : t.reg o i = s.reg o i := by
  unfold State.reg
  rw [h]

theorem State.fld_congr {s t : State} (h : t.regs = s.regs) (f : Field) (i : Nat) : t.fld f i = s.fld f i := by
  unfold State.fld
  rw [State.reg_congr h]

theorem State.flag_congr {s t : State} (h : t.regs = s.regs) (f : Field) (i : Nat) : t.flag f i = s.flag f i := by
  unfold State.flag
  rw [State.fld_congr h]

@[simp] theorem State.reg_writeHost (a : Nat) (bs : List Byte) (o i : Nat) :
    (s.writeHost a bs).reg o i = s.reg o i := rfl
@[simp] theorem State.fld_writeHost (a : Nat) (bs : List Byte) (f : Field) (i : Nat) :
    (s.writeHost a bs).fld f i = s.fld f i := rfl
@[simp] theorem State.reg_writeGddr (o a : Nat) (bs : List Byte) (p i : Nat) :
    (s.writeGddr o a bs).reg p i = s.reg p i := rfl
@[simp] theorem State.reg_updFlight (q : Nat) (g : Flight → Flight) (o i : Nat) :
    (s.updFlight q g).reg o i = s.reg o i := rfl
@[simp] theorem State.reg_dropFlight (q o i : Nat) : (s.dropFlight q).reg o i = s.reg o i := rfl

end Sys2Proof.Machine
end

