-- ==== Sys2Proof/Tests/States.lean ====
section
/-! SUPPORT. Small states, descriptors, plans and messages that the witnesses of Tests/Witnesses.lean and
the tests of Tests/Slice0.lean are about. Every state is State.reset with a few fields changed. -/

namespace Sys2Proof.Tests
open Sys2Proof.Machine
set_option maxRecDepth 100000
set_option Elab.async false
set_option synthInstance.maxSize 100000
set_option synthInstance.maxHeartbeats 1000000

/-- Some GDDR and shed channels out of reset. -/
def up : State :=
  ((((State.reset.setFld GDR_STATUS_IN_RESET 0 0).setFld GDR_STATUS_IN_RESET 1 0).setFld SHD_STATUS_IN_RESET 0 0).setFld
    SHD_STATUS_IN_RESET 11 0).setReg BOOT_INRESET_CLU 0 0

/-- Partition 0 is ACTIVE, with cluster 0, channels 0 and 1 and 1,024 lines of each. -/
def act : State :=
  ((((up.setFld (PRT_STATE_STATE 0) 0 1).setFld (PRT_CLUSTERS_MASK 0) 0 1).setFld
    (PRT_CHANNELS_MASK 0) 0 3).setFld (PRT_GDDR_LINES_LINES 0) 0 1024).setFld (PRT_SHED_PAGES_COUNT 0) 0 64

/-- Submission ring 0 and completion ring 0 of function 1 run with 16 slots each. -/
def rings : State :=
  ((((((act.setReg (HCI_SQ_CTRL 0) 1 0x41).setReg (HCI_CQ_CTRL 0) 1 0x41).setReg (HCI_SQ_BASE_LO 0) 1 0x1000).setReg
    (HCI_CQ_BASE_LO 0) 1 0x2000).setFld (HCI_SQ_STATUS_DRAINED 0) 1 0).setReg (HCI_SQ_TAIL 0) 1 4).setReg
    (HCI_SQ_HEAD 0) 1 2

/-- A descriptor of an opcode with a tag and its 56 body bytes. -/
def dsc (op tag : Nat) (body : List Byte) : List Byte :=
  leBytes 1 op ++ leBytes 3 0 ++ leBytes 4 tag ++ sliceBytes body 0 56

/-- A descriptor in flight on ring 0 of function 1, its fetch number also its index. -/
def fl (seq : Nat) (bs : List Byte) : Flight :=
  { fn := 1, sq := 0, idx := seq, seq := seq, bell := 0, bytes := bs, taken := false, started := false
    ran := false, finished := false, muted := false }

/-- The rings run, with these descriptors in flight. -/
def flying (fs : List Flight) (s : State := rings) : State :=
  { s with host := { s.host with flights := fs, nextSeq := fs.length } }

/-- A record that waits for completion ring 0 of function 1. -/
def rec1 : Rec := ⟨1, 0, 0, none, 9, 0, 0, 0, 0, 0, false⟩
def secEntry (t off : Nat) (b : List Byte) : List Byte := leBytes 2 t ++ leBytes 2 0 ++ leBytes 4 off ++ leBytes 4 b.length ++ leBytes 4 (crc32 b)
def mkImg (secs : List (Nat × List Byte)) : List Byte :=
  let n := secs.length
  let h := leBytes 4 0x4C505856 ++ leBytes 2 1 ++ leBytes 2 n ++ leBytes 56 0
  let start := (64 + 16 * n + 63) / 64 * 64
  let r := secs.foldl (fun (x : Nat × List Byte × List Byte) s => (x.1 + s.2.length, x.2.1 ++ secEntry s.1 x.1 s.2, x.2.2 ++ s.2)) (start, [], [])
  sliceBytes (h ++ r.2.1) 0 start ++ r.2.2
def levelB (bound : Nat) := leBytes 4 bound ++ leBytes 1 1 ++ leBytes 11 0
def operB (role t : Nat) := leBytes 1 role ++ leBytes 1 0 ++ leBytes 1 1 ++ leBytes 1 0 ++ leBytes 1 1 ++ leBytes 1 1 ++ leBytes 1 7 ++ leBytes 1 7 ++ leBytes 4 t ++ leBytes 52 0
def descB : List Byte := leBytes 2 0 ++ leBytes 2 2 ++ leBytes 4 (0+8+2*64+3*512+4*4096+5*32768) ++ leBytes 4 0 ++ leBytes 4 0xFFFF ++ leBytes 16 0 ++ (List.range 6).flatMap (fun _ => levelB 1) ++ operB 1 1 ++ operB 2 2 ++ leBytes 128 0
def loopsB := leBytes 4 1 ++ leBytes 4 1 ++ leBytes 56 0 ++ leBytes 64 0 ++ descB
def tenB (id bytes : Nat) := leBytes 4 id ++ leBytes 4 0 ++ leBytes 8 bytes ++ leBytes 8 0 ++ leBytes 4 0xFFFFFFFF ++ leBytes 4 0
def nodeB := leBytes 1 2 ++ leBytes 1 0 ++ leBytes 2 7 ++ leBytes 4 0 ++ leBytes 16 0 ++ leBytes 4 0 ++ leBytes 4 0xFFFFFFFF
def graphB := leBytes 4 1 ++ leBytes 8 0 ++ leBytes 4 2 ++ leBytes 48 0 ++ tenB 1 128 ++ tenB 2 128 ++ nodeB ++ leBytes 32 0
def slotB := leBytes 4 0 ++ leBytes 1 1 ++ leBytes 59 0
def yardB := leBytes 4 1 ++ leBytes 2 1 ++ leBytes 2 0 ++ leBytes 4 4 ++ leBytes 52 0 ++ slotB
def img0 : List Byte := mkImg [(1, loopsB), (2, graphB), (4, yardB)]
/-- The plan that the image spells, as plan 0 of partition 0 where a state holds it. -/
def plan0 : Plan := parsePlan (crc32 img0) (sectionsOf img0) 0
def withPlan (s : State) (pl : Plan := plan0) : State := { s with yard := { s.yard with plans := tabPut s.yard.plans 0 pl } }
/-- The records of that plan, as they stand once it is placed: its elastic form, tensors 1 and 2 in the
scratch of core 0. -/
def opr (role t : Nat) : Operand := ⟨role, 0, 1, 0, 1, 1, 7, 7, t, 0, [0, 0, 0, 0, 0, 0], 0, 0, 0, 0⟩
def d0 : Desc := ⟨[0, 1, 2, 3, 4, 5], 0, 0xFFFF, 0, 0, 0, 0, 0, 0, 0, List.replicate 6 ⟨1, 1, 0, 0, 0, 0⟩, [opr 1 1, opr 2 2]⟩
def n0 : NodeEnt := ⟨2, 0, 7, 0, [0, 0, 0, 0], [], 0xFFFFFFFF⟩
def ten (id : Nat) : TensorEnt := ⟨id, false, false, 128, 0, 0xFFFFFFFF⟩
def planE : Plan :=
  { crc := 9, programs := [0], descs := [d0], tensors := [ten 1, ten 2], nodes := [n0], edges := [], syncs := []
    ucode := [], table := [], intents := [], slots := [⟨0, 1, false, false, 0, 0, 0, 0, 0, 0, 0, 0, 0⟩], period := 0
    elastic := true, alignLog2 := 0, stepBeats := 4, recipes := [], ranks := [], colls := [], ownRank := none
    cores := [(0, 0)], drovers := [], homes := [(1, 2 * 2 ^ 60), (2, 2 * 2 ^ 60 + 128)], bound := [], sems := []
    bars := [] }
/-- The flight of a PLAN_RUN that executes. -/
def frun : Flight := { fl 0 (dsc 2 7 []) with taken := true, started := true, ran := true }
/-- A step of plan 0 that runs, or waits for its start beat. -/
def st0 (running : Bool) : Step := { newStep frun 0 [] none with running := running }
/-- Partition 0 executes a step. -/
def stepS (st : Step) (pl : Plan := planE) (s : State := flying [frun]) : State :=
  { s with yard := { s.yard with plans := tabPut s.yard.plans 0 pl, steps := [(0, st)] } }
/-- The pool of partition 0 has a valid configuration. -/
def poolCfg : State :=
  (((((((((rings.setFld OST_KV_CFG_FORMAT 0 2).setFld OST_KV_CFG_D 0 32).setFld OST_KV_CFG_GROUPS 0 1).setFld OST_KV_CFG_MAXPG_LOG2 0 4).setFld
    OST_STREAMS_COUNT 0 4).setFld OST_MANGERS_COUNT 0 2).setFld OST_POOL_FRAMES_COUNT 0 4).setReg64 OST_TABLE_BASE_LO 0 0x40000).setReg64
    OST_MANGER_BASE_LO 0 0x50000).setFld (OST_PART_FRAMES_QUOTA 0) 0 100
def poolOn : State := poolCfg.setFld OST_STATUS_ENABLED 0 1
/-- Stream 0 of partition 0, open and empty. -/
def strm1 : Tab Stream := [(0, ⟨1, 0, 0, 0, false, 0, 0, 0, 0, [], [], [], 0, none, none⟩)]

/-- A KV_OP of function 1 on stream 0. -/
def kvF (sub a0 a1 : Nat) : Flight := fl 0 (dsc 6 7 (leBytes 4 sub ++ leBytes 4 0 ++ leBytes 8 a0 ++ leBytes 8 a1))
/-- The pool runs, with that operation in flight and these streams. -/
def kvS (f : Flight) (xs : Tab Stream := []) : State :=
  let s := flying [f] poolOn
  { s with kv := { s.kv with streams := xs } }
def strm (start flushed commit fill : Nat) (tbl : Tab Nat) : Stream := ⟨1, start, 0, 0, false, flushed, commit, fill, 0, tbl, [], [], 0, none, none⟩

/-- Core 0 is at the start of its nest. -/
def q0 : Seq := newSeq 0 0 []
def seqS (q : Seq) (st : Step := st0 true) (pl : Plan := planE) (s : State := flying [frun]) : State :=
  { stepS st pl s with seqs := [(0, q)] }
def x0 (q : Seq) (st : Step := st0 true) (pl : Plan := planE) : Nest := ⟨0, 0, st, pl, q, (pl.descs[0]?).getD d0, (pl.nodes[0]?).getD n0⟩

def s1_1 : State := { State.reset with pending := [.powerOn] }
def s1_2 : State := flying [fl 0 (dsc 0 7 []), { fl 1 (dsc 3 8 []) with started := true }]
def s1_3 : State := act.setFld (HCI_CQ_CTRL_ENABLE 1) 1 1
def s1_4 : State := flying [fl 0 (dsc 0 7 [])]
def s1_5 : State := act.setReg (HCI_CQ_CTRL 0) 1 0x41
def s1_6 : State := rings.setReg (HCI_CQ_TAIL 0) 1 2
def s1_7 : State := rings.setFld PRT_MODE_ISOLATE 0 1
def f1_8 : Flight := fl 0 (dsc 0 7 [])
def f1_9 : Flight := { fl 0 (dsc 0 7 []) with muted := true }
def s1_10 : State := flying [{ fl 0 (dsc 0 7 []) with muted := true }]
def s1_11 : State := { rings with host := { rings.host with waiting := [rec1] } }
def f1_12 : Flight := fl 0 (dsc 0 7 (leBytes 56 (2^440)))
def s1_13 : State := flying [fl 0 (dsc 0 7 (leBytes 56 (2^440)))]
def f1_14 : Flight := fl 0 (dsc 11 7 [])
def s1_15 : State := flying [fl 0 (dsc 11 7 [])]
def f1_16 : Flight := fl 0 (dsc 7 7 [])
def s1_17 : State := flying [fl 0 (dsc 7 7 [])]
def f1_18 : Flight := fl 0 (dsc 7 7 [1])
def s1_19 : State := flying [fl 0 (dsc 7 7 [1])]
def f1_20 : Flight := { fl 0 (dsc 7 7 []) with taken := true }
def s1_21 : State := flying [{ fl 0 (dsc 7 7 []) with taken := true }]
def f1_22 : Flight := { fl 1 (dsc 7 7 []) with taken := true }
def s1_23 : State := flying [fl 0 (dsc 3 7 []), { fl 1 (dsc 7 7 []) with taken := true }]
def f1_24 : Flight := { fl 0 (dsc 7 7 [1]) with taken := true }
def s1_25 : State := flying [{ fl 0 (dsc 7 7 [1]) with taken := true }]
def f1_26 : Flight := fl 1 (dsc 8 7 [0,0,0,0,5])
def f1_27 : Flight := fl 0 (dsc 0 5 [])
def s1_28 : State := flying [fl 0 (dsc 0 5 []), fl 1 (dsc 8 7 [0,0,0,0,5])]
def f1_29 : Flight := { fl 0 (dsc 3 5 []) with started := true }
def s1_30 : State := flying [{ fl 0 (dsc 3 5 []) with started := true }, fl 1 (dsc 8 7 [0,0,0,0,5])]

def loadB (crc : Nat) : List Byte := leBytes 8 0x10000 ++ leBytes 8 960 ++ leBytes 4 0 ++ leBytes 4 crc
def one (f : Flight) : State := flying [f]
def bale1 (flags : Nat) : List Byte := hdrBytes ⟨1, flags, 1, 1, 0, 0, 5, 64, 0, 0, 0, 0, false⟩ ++ leBytes 64 7
def copyB (n raw : Nat) : List Byte := leBytes 8 (2^60) ++ leBytes 8 0x10000 ++ leBytes 4 n ++ leBytes 4 0 ++ leBytes 1 raw
def shedB (a page n : Nat) : List Byte := leBytes 8 a ++ leBytes 4 page ++ leBytes 4 n ++ leBytes 8 0
def oneShed (f : Flight) (w : Bool) (s : State := rings) : State :=
  let s := flying [{ f with started := true }] s
  { s with shed := { s.shed with ops := [⟨f.seq, 1, w, shedPage f, shedCount f, shedAddr f, List.range (shedCount f), 0, [], 0, none, 0, false⟩] } }
def dayS : State := (((one (fl 0 (dsc 0xA 7 (leBytes 8 0 ++ leBytes 8 0 ++ leBytes 4 1)))).setFld DAY_STATUS_ENABLED 1 1).setFld DAY_MIB_MIB 1 1)

def f2_1 : Flight := fl 0 (dsc 1 7 (loadB (crc32 img0)))
/-- A state whose host memory holds these bytes from address 0x10000 on, and nothing else. -/
def held (bs : List Byte) (s : State) : State :=
  { s with host := { s.host with mem := (bs.zipIdx.filter (·.1 ≠ 0)).map fun x => (0x10000 + x.2, x.1) } }
def s2_2 : State := held img0 (one (fl 0 (dsc 1 7 (loadB (crc32 img0)))))
def f2_3 : Flight := fl 0 (dsc 1 7 (loadB 5))
def s2_4 : State := held img0 (one (fl 0 (dsc 1 7 (loadB 5))))
def f2_5 : Flight := fl 0 (dsc 2 7 [])
def s2_6 : State := withPlan ((one (fl 0 (dsc 2 7 []))).setFld DAY_STATUS_ENABLED 1 1) planE
def s2_7 : State := one (fl 0 (dsc 2 7 []))
def f2_8 : Flight := fl 0 (dsc 3 7 (copyB 2 1))
def s2_9 : State := (one (fl 0 (dsc 3 7 (copyB 2 1)))).writeGddr 1 0 (leBytes 128 77)
def f2_10 : Flight := fl 0 (dsc 3 7 (copyB 0 0))
def s2_11 : State := one (fl 0 (dsc 3 7 (copyB 0 0)))
def f2_12 : Flight := fl 0 (dsc 3 7 (copyB 1 0))
def s2_13 : State := (one (fl 0 (dsc 3 7 (copyB 1 0)))).writeGddr 1 0 (bale1 0)
def s2_14 : State := (one (fl 0 (dsc 3 7 (copyB 1 0)))).writeGddr 1 0 (bale1 1)
def f2_15 : Flight := fl 0 (dsc 4 7 (shedB 0x10000 0 2))
def s2_16 : State := one (fl 0 (dsc 4 7 (shedB 0x10000 0 2)))
def f2_17 : Flight := fl 0 (dsc 5 7 (shedB 0x10000 0 64))
def s2_18 : State := one (fl 0 (dsc 5 7 (shedB 0x10000 0 64)))
def f2_19 : Flight := fl 0 (dsc 5 7 (shedB 0x10000 0 0))
def s2_20 : State := one (fl 0 (dsc 5 7 (shedB 0x10000 0 0)))
def d2_21 : ShedOp := ⟨0, 1, false, 0, 2, 0x10000, [0, 1], 0, [], 0, none, 0, false⟩
def s2_22 : State := oneShed (fl 0 (dsc 4 7 (shedB 0x10000 0 2))) false
def d2_23 : ShedOp := ⟨0, 1, true, 0, 2, 0x10000, [0, 1], 0, [], 0, none, 0, false⟩
def s2_24 : State := (oneShed (fl 0 (dsc 5 7 (shedB 0x10000 0 2))) true).writeHost 0x14000 (leBytes 200 (7^70))
def f2_25 : Flight := { fl 0 (dsc 9 7 (leBytes 1 3 ++ leBytes 1 0 ++ leBytes 2 64 ++ leBytes 4 0 ++ leBytes 8 999)) with fn := 0 }
def s2_26 : State := one { fl 0 (dsc 9 7 (leBytes 1 3 ++ leBytes 1 0 ++ leBytes 2 64 ++ leBytes 4 0 ++ leBytes 8 999)) with fn := 0 }
def f2_27 : Flight := { fl 0 (dsc 9 7 (leBytes 1 2 ++ leBytes 1 0 ++ leBytes 2 1)) with fn := 0 }
def s2_28 : State := one { fl 0 (dsc 9 7 (leBytes 1 2 ++ leBytes 1 0 ++ leBytes 2 1)) with fn := 0 }
def f2_29 : Flight := { fl 0 (dsc 9 7 []) with fn := 0 }
def s2_30 : State := one { fl 0 (dsc 9 7 []) with fn := 0 }
def f2_31 : Flight := fl 0 (dsc 10 7 [])
def s2_32 : State := one (fl 0 (dsc 10 7 []))
def f2_33 : Flight := fl 0 (dsc 0xA 7 (leBytes 8 0 ++ leBytes 8 0 ++ leBytes 4 1))
def s2_34 : State := (withPlan dayS).dayRecord 1 1 0 9 (leBytes 24 0 ++ leBytes 4 plan0.crc) |>.dayRecord 1 2 0 9 (leBytes 28 0)

/-- Partition 0 configured but FREE. -/
def free0 : State := ((act.setFld (PRT_STATE_STATE 0) 0 0).setFld (PRT_INFLIGHT_GDDR 0) 0 1).setFld (PRT_INFLIGHT_SHED 0) 0 1
/-- Source 80 of function 1 is open for messages by vector 3. -/
def bellOn : State :=
  let s := ((act.setReg BEL_ENABLE (32 + 2) 0xFFFFFFFF).setReg BEL_MASK (32 + 2) 0).setFld (BEL_ROUTE_VECTOR 16) (32 + 2) 3
  { s with bell := { s.bell with msixOn := [(1, true)], vecs := [(67, ⟨0xFEE0, 9, false⟩)] } }

def s3_1 : State := { flying [fl 0 (dsc 0 7 [])] with parts := { act.parts with release := [(0, 1)] } }
def s3_2 : State := { (act.writeGddr 1 0 (leBytes 8 99)) with parts := { act.parts with release := [(0, 1)] } }
def s3_3 : State := { (act.setFld (PRT_STATE_STATE 0) 0 2) with parts := { act.parts with release := [(0, 2)] } }
def s3_4 : State := State.reset.setFld PRT_MODE_SIGNED 0 1
def s3_5 : State := stepS (st0 true)
def s3_6 : State := bellOn.setBellP 1 80 true
def d3_7 : Delivery := ⟨80, 3, false⟩
def s3_8 : State := let s := bellOn.setBellP 1 80 true; { s with bell := { s.bell with decided := [(1, ⟨80, 3, false⟩)] } }
def d3_9 : Delivery := ⟨80, 4, false⟩
def s3_10 : State := let s := bellOn.setBellP 1 80 true; { s with bell := { s.bell with decided := [(1, ⟨80, 4, false⟩)] } }
def d3_11 : Delivery := ⟨81, 3, false⟩
def s3_12 : State := let s := bellOn.setBellP 1 80 true; { s with bell := { s.bell with decided := [(1, ⟨81, 3, false⟩)] } }
def s3_13 : State := bellOn.setBellA 1 80 true
def s3_14 : State := act.setBellA 1 95 true
def s3_15 : State := act.setBellA 1 67 true
def s3_16 : State := (bellOn.setBellP 1 80 true).setFld BEL_SEL_GROUP 1 2
def s3_17 : State := let s := act.setReg BEL_ENABLE 2 0xFFFFFFFF; { s with clk := { s.clk with ccOn := true }, bell := { s.bell with latches := [(66, 5)] } }
def s3_18 : State := poolCfg.setFld OST_KV_CFG_FORMAT 0 0
def s3_19 : State := { poolOn with kv := { poolOn.kv with streams := strm1 } }
def s3_20 : State := poolOn.setFld PRT_MODE_ISOLATE 0 1

def f4_1 : Flight := kvF 1 64 5
def s4_2 : State := kvS (kvF 1 64 5)
def f4_3 : Flight := kvF 3 10 0
def s4_4 : State := kvS (kvF 3 10 0) [(0, strm 0 0 0 20 [])]
def f4_5 : Flight := kvF 3 10 1
def s4_6 : State := kvS (kvF 3 10 1) [(0, strm 0 0 0 20 [])]
def f4_7 : Flight := kvF 3 0 0
def s4_8 : State := kvS (kvF 3 0 0) [(0, strm 0 0 0 20 [])]
def f4_9 : Flight := kvF 4 0 0
def s4_10 : State := let s := kvS (kvF 4 0 0) [(0, strm 0 256 256 256 [(0, 3)])]; { s with kv := { s.kv with refs := [(3, 1)] } }
def f4_11 : Flight := kvF 2 0 0
def s4_12 : State := kvS (kvF 2 0 0) [(0, strm 0 0 20 40 [])]
def d4_13 : Stream := { strm 0 0 20 40 [] with state := 3 }
def s4_14 : State := let s := kvS (kvF 2 0 0) [(0, { strm 0 0 20 40 [] with state := 3 })]; { s with kv := { s.kv with stalls := [(0, 0)] } }
def s4_15 : State := kvS (kvF 2 0 0)
def f4_16 : Flight := kvF 5 (1 + 100 * 2^32) 0
def s4_17 : State := let s := kvS (kvF 5 (1 + 100 * 2^32) 0) [(1, strm 0 256 256 256 [(0, 3)])]; { s with kv := { s.kv with refs := [(3, 1)] } }
def f4_18 : Flight := kvF 6 0 0
def s4_19 : State := let s := (kvS (kvF 6 0 0) [(0, strm 0 256 256 256 [(0, 3)])]).setFld (PED_PART_NODES_QUOTA 0) 0 4; { s with kv := { s.kv with refs := [(3, 1)] } }
def f4_20 : Flight := kvF 7 0x10000 256
def s4_21 : State := kvS (kvF 7 0x10000 256) [(0, strm 0 0 0 0 [])]
def f4_22 : Flight := kvF 7 0x10000 0
def s4_23 : State := kvS (kvF 7 0x10000 0) [(0, strm 0 0 0 0 [])]
def f4_24 : Flight := kvF 0 0 0
def s4_25 : State := kvS (kvF 0 0 0)
def f4_26 : Flight := kvF 8 0 0
def s4_27 : State := kvS (kvF 8 0 0)

def stF (late : Bool) (dl : Nat) : Step := { st0 true with fetches := [⟨0, 2, 3, false, false, late, dl, false⟩] }
def planR : Plan := { planE with recipes := [⟨2, false, 0, []⟩] }
def migS (m : Migration) : State := let s := (withPlan rings planE).setFld YMS_MIG_LIMIT_MIB 0 2; { s with yard := { s.yard with migrations := [m] } }
def loftS : State := let h := act.homeOf 0 0
  { act with loft := { act.loft with sets := [(h.1 * 1024 + h.2, [⟨0, lineKey 1 0, 0xF, 0, none⟩])] } }
def fillS (e : Nat) : State := { loftS with loft := { loftS.loft with fills := [⟨lineKey 1 0, 0xF0, none, false, false, false, false, e⟩] } }
def heldS : State := let s := act.setFld (PRT_INFLIGHT_GDDR 0) 0 4; { s with loft := { s.loft with waiting := [⟨0, 0, ⟨lineKey 1 0, 1, none, false, false, false, false, 0⟩⟩] } }
def trained : State := act.setFld GDR_STATUS_TRAINED 0 1

def d5_1 : Step := st0 false
def s5_2 : State := stepS (st0 false)
def d5_3 : Step := { st0 false with startBeat := 9 }
def s5_4 : State := stepS { st0 false with startBeat := 9 }
def d5_5 : Step := st0 true
def s5_6 : State := stepS (st0 true)
def d5_7 : Step := { st0 true with stopped := true }
def s5_8 : State := stepS { st0 true with stopped := true }
def d5_9 : Migration := ⟨0, 0, 0, 1, 1⟩
def s5_10 : State := migS ⟨0, 0, 0, 1, 1⟩
def d5_11 : Migration := ⟨0, 0, 0, 3, 2⟩
def s5_12 : State := migS ⟨0, 0, 0, 3, 2⟩
def d5_13 : Migration := ⟨0, 0, 0, 3, 1⟩
def s5_14 : State := migS ⟨0, 0, 0, 3, 1⟩
def s5_15 : State := (stepS (st0 true)).setExpert 0 0 0 { (planE.freshExpert 0) with shed := true }
def d5_16 : Step := stF false 5
def d5_17 : Fetch := ⟨0, 2, 3, false, false, false, 5, false⟩
def s5_18 : State := stepS (stF false 5)
def d5_19 : Step := stF false 0
def d5_20 : Fetch := ⟨0, 2, 3, false, false, false, 0, false⟩
def s5_21 : State := stepS (stF false 0) planR
def s5_22 : State := stepS (stF false 0)
def d5_23 : Nest := x0 q0
def s5_24 : State := seqS q0
def d5_25 : LoftLine := ⟨0, lineKey 1 0, 0xF, 0, none⟩
def d5_26 : Fill := ⟨lineKey 1 0, 0xF0, none, false, false, false, false, 0⟩
def s5_27 : State := fillS 0
def d5_28 : Fill := ⟨lineKey 1 0, 0xF0, none, false, false, false, false, 1⟩
def s5_29 : State := fillS 1
def d5_30 : Held263 := ⟨0, 0, ⟨lineKey 1 0, 1, none, false, false, false, false, 0⟩⟩
def s5_31 : State := { act with gddrs := { act.gddrs with remaps := [⟨0, 5, 7, false⟩] } }
def s5_32 : State := (act.setFld GDR_SEL_CHANNEL 0 5).setFld GDR_STATUS_TRAINED 5 1
def s5_33 : State := (act.setFld GDR_SEL_CHANNEL 0 1).setFld GDR_STATUS_TRAINED 1 1
def s5_34 : State := { act with gddrs := { act.gddrs with sweeps := [(5, true)] } }
def s5_35 : State := act.setFld SHD_STATUS_READY 0 1

def planD (d : Desc) : Plan := { planE with descs := [d], slots := [⟨2, 1, false, false, 0, 0, 0, 0, 0, 0, 0, 0, 0⟩] }
def qRun (cand : Bool) : Seq := { q0 with phase := .run, words := [1], idx := some (List.replicate 6 0), cand := cand, live := List.replicate 6 1, beff := List.replicate 6 1 }
/-- A chute from core 0 to core 1, and a state in which it holds bales. -/
def planC : Plan := { planE with bound := [⟨0, 0, 1, 0, 4, 0, 0⟩] }
def it2 : Item := ⟨[], [], none, false, 2⟩
def chuS (c : Chute) : State := { withPlan rings planC with chutes := [(chuteKey 0 0 0, c)] }
/-- A step with semaphore 5 and barrier 6 bound, these counters and messages. -/
def planH : Plan := { planE with sems := [(5, 1)], bars := [(6, 2)] }
def halS (sem : Sem) (bar : Bar) (ms : List HalterMsg) (rel : List (Nat × Waiter) := []) (q : Seq := q0) : State :=
  let s := seqS q (st0 true) planH
  { s with halter := { s.halter with sems := [(1, sem)], bars := [(2, bar)], flying := ms, released := rel } }
def nD (mode : Nat) : NodeEnt := { n0 with kind := 11, record := leBytes 4 mode ++ leBytes 4 1 ++ leBytes 4 2 ++ leBytes 4 0 ++ leBytes 4 1 ++ leBytes 4 0 ++ leBytes 4 1 ++ leBytes 16 0 ++ leBytes 4 5 ++ leBytes 16 0 }
def planDr (mode : Nat) : Plan := { planH with nodes := [n0, nD mode], drovers := [(1, 0)], bound := [if mode = 2 then ⟨0, 0, 256, 0, 4, 0, 1⟩ else ⟨256, 0, 0, 0, 4, 1, 0⟩] }
def dro (sem started : Bool) : Drove := ⟨0, 0, 1, sem, started, 4, 0, [], [], false⟩
def droS (mode : Nat) (sem started : Bool) (c : List (Nat × Chute) := []) : State := { stepS (st0 true) (planDr mode) with drovers := [(0, dro sem started)], chutes := c }
def droX (mode : Nat) (sem started : Bool) : Droving := ⟨0, dro sem started, st0 true, planDr mode, nD mode, (0, ((planDr mode).bound[0]?).getD ⟨0, 0, 0, 0, 0, 0, 0⟩)⟩

def d6_1 : Nest := x0 q0
def s6_2 : State := seqS q0
def d6_3 : Nest := x0 q0 (st0 true) (planD { d0 with preKind := 1, preRef := 6 })
def s6_4 : State := seqS q0 (st0 true) (planD { d0 with preKind := 1, preRef := 6 })
def d6_5 : Nest := x0 q0 (st0 true) (planD { d0 with preKind := 2, preRef := 5, amount := 1 })
def s6_6 : State := seqS q0 (st0 true) (planD { d0 with preKind := 2, preRef := 5, amount := 1 })
def d6_7 : Nest := x0 q0 (st0 true) (planD { d0 with preKind := 3 })
def s6_8 : State := seqS q0 (st0 true) (planD { d0 with preKind := 3 })
def d6_9 : Nest := x0 q0 (st0 true) { planD { d0 with preKind := 3 } with slots := planE.slots }
def s6_10 : State := seqS q0 (st0 true) { planD { d0 with preKind := 3 } with slots := planE.slots }
def s6_11 : State := seqS { q0 with phase := .waitBeat } (st0 true) (planD { d0 with preKind := 3 })
def d6_12 : Nest := x0 (qRun true) (st0 true) (planD { d0 with iterKind := 1, iterSem := 5, amount := 1 })
def s6_13 : State := seqS (qRun true) (st0 true) (planD { d0 with iterKind := 1, iterSem := 5, amount := 1 })
def d6_14 : Nest := x0 (qRun true)
def s6_15 : State := seqS (qRun true)
def d6_16 : Nest := x0 { qRun false with beff := [2, 1, 1, 1, 1, 1] }
def s6_17 : State := seqS { qRun false with beff := [2, 1, 1, 1, 1, 1] }
def d6_18 : Nest := x0 (qRun false)
def s6_19 : State := seqS (qRun false)
def d6_20 : Nest := x0 (qRun false) (st0 true) (planD { d0 with next := 0, postKind := 2, postRef := 5, amount := 1 })
def s6_21 : State := seqS (qRun false) (st0 true) (planD { d0 with next := 0, postKind := 2, postRef := 5, amount := 1 })
def d6_22 : BoundEdge := ⟨0, 0, 1, 0, 4, 0, 0⟩
def s6_23 : State := chuS ⟨[it2], [], [], 2, [], false⟩
def s6_24 : State := chuS ⟨[it2], [], [], 1, [], false⟩
def s6_25 : State := chuS ⟨[], [it2], [], 2, [], false⟩
def s6_26 : State := chuS ⟨[], [], [], 2, [2], false⟩
def d6_27 : Sem := ⟨0, [(0, .pre 0, 2), (0, .pre 1, 1)]⟩
def s6_28 : State := halS ⟨0, [(0, .pre 0, 2), (0, .pre 1, 1)]⟩ ⟨0, 1, 0, []⟩ [⟨0, 5, .signal 2⟩]
def d6_29 : Sem := ⟨65534, [(0, .pre 0, 2), (0, .pre 1, 1)]⟩
def s6_30 : State := halS ⟨65534, [(0, .pre 0, 2), (0, .pre 1, 1)]⟩ ⟨0, 1, 0, []⟩ [⟨0, 5, .signal 2⟩]
def d6_31 : Sem := ⟨2, []⟩
def s6_32 : State := halS ⟨2, []⟩ ⟨0, 1, 0, []⟩ [⟨0, 5, .semWait (.pre 0) 2⟩]
def d6_33 : Sem := ⟨1, []⟩
def s6_34 : State := halS ⟨1, []⟩ ⟨0, 1, 0, []⟩ [⟨0, 5, .semWait (.pre 0) 2⟩]
def d6_35 : Bar := ⟨0, 1, 0, [(0, 1), (1, 2)]⟩
def s6_36 : State := halS ⟨1, []⟩ ⟨0, 1, 0, [(0, 1), (1, 2)]⟩ [⟨0, 6, .arrive⟩]
def d6_37 : Bar := ⟨0, 2, 0, []⟩
def s6_38 : State := halS ⟨1, []⟩ ⟨0, 2, 0, []⟩ [⟨0, 6, .arrive⟩]
def d6_39 : Bar := ⟨0, 2, 1, []⟩
def s6_40 : State := halS ⟨1, []⟩ ⟨0, 2, 1, []⟩ [⟨0, 6, .barWait 0 1⟩]
def s6_41 : State := halS ⟨1, []⟩ ⟨0, 2, 0, []⟩ [⟨0, 6, .barWait 0 1⟩]
def d6_42 : Nest := x0 { q0 with phase := .waitPre } (st0 true) planH
def s6_43 : State := halS ⟨1, []⟩ ⟨0, 2, 0, []⟩ [] [(0, .pre 0)] { q0 with phase := .waitPre }
def d6_44 : Nest := x0 { qRun true with phase := .waitIter } (st0 true) planH
def s6_45 : State := halS ⟨1, []⟩ ⟨0, 2, 0, []⟩ [] [(0, .iter 0)] { qRun true with phase := .waitIter }
def s6_46 : State := { droS 1 false false with halter := { rings.halter with released := [(0, .drover 1)] } }
def s6_47 : State := let s := stepS { st0 true with transfers := [⟨0, false, false, false, none⟩] }; { s with halter := { s.halter with released := [(0, .slot 0)] } }
def d6_48 : Step := { st0 true with transfers := [⟨0, false, false, false, none⟩] }
def s6_49 : State := (halS ⟨0, [(0, .pre 0, 1)]⟩ ⟨0, 2, 0, []⟩ [] [] { q0 with phase := .waitPre }).setFld CLU_HLT_WDOG_LIMIT_LIMIT 0 0
def s6_50 : State := (halS ⟨0, [(0, .pre 0, 1)]⟩ ⟨0, 2, 0, []⟩ [] [] { q0 with phase := .waitPre }).setFld CLU_HLT_WDOG_LIMIT_LIMIT 0 5
def d6_51 : Droving := droX 1 true false
def s6_52 : State := droS 1 true false
def d6_53 : Droving := droX 1 false false
def s6_54 : State := droS 1 false false
def d6_55 : Droving := droX 1 true true
def s6_56 : State := droS 1 true true [(chuteKey 0 0 0, ⟨[it2, it2], [], [], 4, [], false⟩)]
def s6_57 : State := droS 1 true true
def d6_58 : Droving := droX 2 true true
def s6_59 : State := droS 2 true true [(chuteKey 0 0 0, ⟨[], [], [it2], 4, [], false⟩)]

def lnk (un : List (Nat × Packet × Nat)) (tx : Nat) (cr : List Nat) : LinkSt := ⟨un, tx, 0, cr, 0, 0, 0, [], []⟩
/-- Link 0 is up, to the module of rank 1. -/
def linkS (x : LinkSt) (s : State := rings) : State :=
  let s := (((s.setFld HLK_STATUS_UP 0 1).setFld HLK_DIMS_DX 0 4).setFld HLK_DIMS_DY 0 1).setFld HLK_DIMS_DZ 0 1
  { s with links := [(0, x)] }
def pk (n : Nat) : Packet := ⟨0, 1, 0, 7, n, 0, 0, 1⟩
def trainS (tries : Nat) : State :=
  let s := linkS { lnk [] 0 [] with tries := tries }
  (s.setFld HLK_STATUS_UP 0 0).setFld HLK_STATUS_TRAINING 0 1
def slT : Slot := ⟨0, 2, false, false, 0, 1, 0, 64, 1, 2, 0, 5, 0⟩
def planT : Plan := { planE with slots := [slT], ranks := [0, 1], ownRank := some 0, homes := [(1, 2 * 2 ^ 60), (2, 2 ^ 60 + 0x1000)], syncs := [⟨5, true, 0⟩] }
def stT (semOk : Bool) : Step := { st0 true with transfers := [⟨0, semOk, false, false, none⟩] }
def ytS (src st : Nat) (synced : Bool) (s : State := rings) : State :=
  let s := ((s.setFld YTM_CTRL_SOURCE 0 src).setFld YTM_STATUS_STATE 0 st).setFld YTM_STATUS_SYNCED 0 synced.toNat
  { s with clk := { s.clk with root := .crystal }, yt := { s.yt with present := true } }
def ethS : State := (((rings.setFld (HLK_ETH_STATUS_UP 1) 0 1).setFld (MUS_XQP_LOCAL_VALID 1) 0 1).setFld (MUS_XQP_LOCAL_QPN 1) 0 77).setFld YTM_CTRL_PTP_PORT 0 1
def collOf (op : Nat) : Coll := ⟨op, false, false, false, 1, 0, 0, 2, 1, 1, 2, 64, 0, 0, 5, 1, 0, 0, [0, 1], []⟩
def planM (op : Nat) (elastic := true) : Plan :=
  { planT with colls := [collOf op], slots := [⟨0, 4, false, false, 3, 0, 0, 0, 0, 0, 0, 0, 0⟩], elastic := elastic, sems := [(5, 1)] }
def run0 : CollRun :=
  { coll := 0, opened := true, semOk := true, sent := false, withdrawn := false, granted := false, stamp := 0
    early := [], counts := none
    own := noHdr, ownSoft := false, vec := [], geom := [], sums := [], shut := [], closed := [], results := []
    got := noHdr, phase := 0, vecs := [], rows := [], sentRows := [], recvRows := [], done := false }
def stM (r : CollRun) : Step := { st0 true with colls := [r] }
def musS (op : Nat) (r : CollRun) (elastic := true) (s : State := flying [frun]) : State :=
  stepS (stM r) (planM op elastic) s
def ctx (op : Nat) (r : CollRun) (elastic := true) : CollCtx := ⟨0, planM op elastic, collOf op, (planM op elastic).slots[0]?, 0, stM r⟩
def hdr0 : SumHdr := ⟨false, false, false, 0, 0, [], none, false, false⟩
def sum1 : ChildSum := ⟨0, 1, noHdr, []⟩

def s7_1 : State := trainS 0
def s7_2 : State := trainS 2
def s7_3 : State := trainS 3
def s7_4 : State := linkS (lnk [] 0 fullCredits)
def s7_5 : State := linkS (lnk [] 0 fullCredits) (stepS (st0 true))
def s7_6 : State := (linkS (lnk [] 0 fullCredits)).setFld HLK_LANES_ACTIVE 0 0xFF
def s7_7 : State := linkS (lnk [(0, pk 0, 0), (1, pk 1, 0), (2, pk 2, 7)] 3 fullCredits)
def s7_8 : State := linkS (lnk [(1, pk 1, 0), (2, pk 2, 8)] 3 fullCredits)
def s7_9 : State := linkS (lnk [] 0 [1, 2, 3, 60])
def d7_10 : Step := stT true
def d7_11 : Transfer := ⟨0, true, false, false, none⟩
def d7_12 : List Byte := leBytes 64 0
def s7_13 : State := stepS (stT true) planT (linkS (lnk [] 0 fullCredits) (flying [frun]))
def s7_14 : State := stepS (stT true) planT
def d7_15 : Landing := ⟨2, 0, none, 5, leBytes 64 7, false, 1⟩
def s7_16 : State := ytS 1 2 true (stepS (st0 true))
def s7_17 : State := ytS 1 2 true
def s7_18 : State := linkS (lnk [] 0 fullCredits) (ytS 2 2 true)
def s7_19 : State := ytS 3 2 true ethS
def s7_20 : State := stepS (st0 true)
def s7_21 : State := ytS 1 4 false
def s7_22 : State := let s := ytS 1 1 true; { s with yt := { s.yt with hold := some 3 } }
def s7_23 : State := ytS 1 1 false
def s7_24 : State := let s := ytS 1 3 true; { s with yt := { s.yt with hold := some 3 } }
def d7_25 : CollCtx := ctx 1 run0
def s7_26 : State := musS 1 run0
def d7_27 : CollRun := { run0 with sent := true }
def d7_28 : CollCtx := ctx 1 { run0 with sent := true }
def s7_29 : State := musS 1 { run0 with sent := true }
def d7_30 : CollRun := { run0 with sums := [sum1] }
def d7_31 : CollCtx := ctx 1 { run0 with sums := [sum1] }
def s7_32 : State := musS 1 { run0 with sums := [sum1] }
def d7_33 : CollRun := { run0 with closed := [0] }
def d7_34 : CollCtx := ctx 1 { run0 with closed := [0] }
def s7_35 : State := musS 1 { run0 with closed := [0] }
def s7_36 : State := (musS 1 { run0 with sent := true }).setReg64 YTM_BEAT_LO 0 3
def d7_37 : CollRun := { run0 with results := [1] }
def d7_38 : CollCtx := ctx 1 { run0 with results := [1] }
def s7_39 : State := musS 1 { run0 with results := [1] }
def d7_40 : CollCtx := ctx 5 run0
def s7_41 : State := musS 5 run0
def d7_42 : CollRun := { run0 with rows := [⟨1, [], [], [], false, false, false⟩] }
def d7_43 : CollCtx := ctx 5 { run0 with rows := [⟨1, [], [], [], false, false, false⟩] }
def s7_44 : State := musS 5 { run0 with rows := [⟨1, [], [], [], false, false, false⟩] }
def d7_45 : CollCtx := ctx 8 run0
def s7_46 : State := musS 8 run0
def d7_47 : Step := stM run0
def s7_48 : State := withPlan rings (planM 1)

def crys : State := let s := ((((rings.setFld CLK_STATUS_XA_READY 0 1).setFld CLK_STATUS_XB_READY 0 1).setFld CLK_STATUS_LOOPA_LOCK 0 1).setFld CLK_STATUS_LOOPB_LOCK 0 1).setFld BOOT_STATUS_STAGE 0 3
  { s with clk := { s.clk with root := .crystal } }
def warn (s : State := crys) : State := s.setFld CLK_STATUS_VIN_WARN 0 1
def hotS (temp : Nat) (e : Tab Nat) : State := { crys with clk := { crys.clk with temps := [(1, temp)], emerg := e } }
def inst1 : Install := ⟨1, 9, 3, true⟩
def img1 : FlashSlot := ⟨true, 7, 2, true, 5, true, false, true, false, false, ⟨1, true, [], 0, 65536⟩, ⟨0, false, [], 0, 0⟩⟩
def slots (a : FlashSlot) (inReset : Bool) (s : State := crys) : State := { s with boot := { s.boot with slotA := a, inReset := inReset } }
def fwHdr : List Byte := leBytes 4 0x4D495856 ++ leBytes 2 1 ++ leBytes 2 0 ++ leBytes 4 9 ++ leBytes 4 0 ++ leBytes 4 4096 ++ leBytes 492 0 ++ List.replicate 3584 0xFF
def fwBase (len min : Nat) : State :=
  let s := ((slots img1 false).setReg64 BOOT_FW_ADDR_LO 0 0x40000).setFld BOOT_FW_LEN_BYTES 0 len
  { s with boot := { s.boot with fusedMin := min } }
/-- An image header in host memory, its length and the fused minimum version. -/
def fwS (len min : Nat) : State := (fwBase len min).writeHost 0x40000 fwHdr
def fwA : State := fwS 0 0
def fwB : State := fwS 8192 0
def fwC : State := fwS 8192 1
def fwD : State := fwS 8191 0
def fwI : State := let s := slots img1 false; { s with boot := { s.boot with install := some inst1 } }
theorem fw_header (len min : Nat) (h : (fwS len min).reg64 BOOT_FW_ADDR_LO = 0x40000) :
    (fwS len min).readHost ((fwS len min).reg64 BOOT_FW_ADDR_LO) 4096 = fwHdr := by
  rw [h]; exact State.readHost_writeHost _ _ fwHdr
theorem fwA_header : fwA.readHost (fwA.reg64 BOOT_FW_ADDR_LO) 4096 = fwHdr := fw_header 0 0 (by decide +kernel)
theorem fwB_header : fwB.readHost (fwB.reg64 BOOT_FW_ADDR_LO) 4096 = fwHdr := fw_header 8192 0 (by decide +kernel)
theorem fwC_header : fwC.readHost (fwC.reg64 BOOT_FW_ADDR_LO) 4096 = fwHdr := fw_header 8192 1 (by decide +kernel)
theorem fwD_header : fwD.readHost (fwD.reg64 BOOT_FW_ADDR_LO) 4096 = fwHdr := fw_header 8191 0 (by decide +kernel)
def dn (kind i : Nat) (s : State := crys) : State := s.setFld (if kind = 3 then GDR_STATUS_IN_RESET else SHD_STATUS_IN_RESET) i 1
def goW (kind i : Nat) : Word := BitVec.ofNat 32 (0x10000 + kind + 256 * i)
def farS (due : List Nat) (sc ev : Tab Nat) : State := { crys with far := { crys.far with due := due, scores := sc, events := ev } }

def s8_1 : State := let s := stepS (st0 true) planE crys; { s with host := { s.host with flights := [frun] } }
def s8_2 : State := (crys.setFld CLK_CTRL_AUTO_FAILOVER 0 1).setFld CLK_STATUS_REF 0 0
def s8_3 : State := (crys.setFld CLK_CTRL_AUTO_FAILOVER 0 0).setFld CLK_STATUS_REF 0 1
def s8_4 : State := crys.setFld CLK_STATUS_LOOPA_LOCK 0 0
def s8_5 : State := hotS 106 [(1, 1)]
def s8_6 : State := hotS 94 [(1, 2)]
def s8_7 : State := hotS 95 [(1, 2)]
def s8_8 : State := { crys with clk := { crys.clk with vinLow := 19 } }
def s8_9 : State := { crys with clk := { crys.clk with vinHigh := 8 } }
def s8_10 : State := let s := warn; { s with clk := { s.clk with off := true } }
def s8_11 : State := { crys with clk := { crys.clk with off := true, trip := some 4 } }
def s8_12 : State := slots img1 false
def s8_13 : State := slots { img1 with installed := false } true State.reset
def s8_14 : State := slots img1 true State.reset
def s8_15 : State := slots img1 false State.reset
def s8_16 : State := slots { img1 with bank0 := ⟨1, true, [⟨1, 1, 0, [1], 1⟩], 0, 8 * 2 ^ 20 - 65535⟩ } false
def s8_17 : State := dn 3 0
def s8_18 : State := crys.setFld BOOT_INRESET_UNIT_DIE 0 0
def s8_19 : State := stepS (st0 true) planE crys
def s8_20 : State := crys.setReg BOOT_INRESET_CLU 0 0x80000000
def s8_21 : State := farS [] [(2 ^ 40 + 3, 90)] [(2 ^ 40 + 3, 30)]
def s8_22 : State := farS [] [] []
def s8_23 : State := farS [partKey kCore 9] [] []
def s8_24 : State := { crys with far := { crys.far with spareCore := [(248, true)] } }
def s8_25 : State := crys.setFld FAR_SPARES_MGMT 0 0
def s8_26 : State := flying [fl 0 (dsc 3 7 [])] crys
def f8_27 : Flight := fl 0 (dsc 3 7 [])
def s8_28 : State := crys.setFld DAY_STATUS_ENABLED 1 1
def s8_29 : State := crys.setFld DAY_MIB_MIB 1 1
def s8_30 : State := crys.setFld DAY_MIB_MIB 1 4097

def put (b : List Byte) (o n v : Nat) : List Byte := b.take o ++ leBytes n v ++ b.drop (o + n)
/-- A control block: rings of 16 at 0x50000 and 0x60000, one buffer at 0x10000000. -/
def blk (enc : Bool) : List Byte :=
  let b := put (put (put (put (put (List.replicate 512 0) 0 8 0x50000) 8 1 4) 24 8 0x60000) 32 1 4) 40 8 0x10000000
  let b := put b 48 1 1
  if enc then
    put (put (put (put (put (put (put (put (put (put b 52 4 4096) 56 4 256) 85 1 1) 86 1 2) 148 4 1) 168 2 8) 170 2 8) 172 1 1) 173 1 8) 184 4 1024
      |> fun b => put b 176 8 0x70000
  else put (put (put b 52 4 0x6600000) 56 4 256) 86 1 2
def patBlk : List Byte :=
  put (put (put (put (put (put (put (blk true) 84 1 2) 104 2 8) 106 2 8) 108 1 8) 109 1 1) 64 8 0x80000) 72 4 4
def fr : VFrame := ⟨7, 9, true, 0, 0, 0, some 0, 0x10000000⟩
def vc0 (b : List Byte) : VCtx := ⟨b, 0, 1, 0, 0, [0], [], 0, none, [], [], [], 0⟩
def vcF (b : List Byte) : VCtx := { vc0 b with cur := some fr }
/-- Context 0 of partition 0, with its block at 0x40000. -/
def vidCfg : State := ((act.setFld (VCD_CTX_OWNER_PART) 0 0).setReg64 VCD_CTX_BLOCK_LO 0 0x40000).setFld BOOT_STATUS_STAGE 0 3
def vidS (c : VCtx) (st : Nat) : State :=
  let s := (vidCfg.setFld VCD_CTX_STATE_STATE 0 st).setFld VCD_CTX_CTRL_ENABLE 0 1
  { s with vid := { s.vid with ctxs := [(0, c)] } }
def ent (ty buf len addr : Nat) : List Byte := leBytes 1 ty ++ leBytes 3 0 ++ leBytes 4 77 ++ leBytes 8 addr ++ leBytes 4 len ++ leBytes 2 buf ++ leBytes 2 0 ++ leBytes 8 5
def vidE (c : VCtx) (e : List Byte) : State := (vidS c 1).writeHost 0x50000 e
def vrec : VRec := ⟨7, 0, 1, 0, 0, 0, 0, 0, 9, false⟩
def rdy : State := State.reset.setFld BOOT_STATUS_STAGE 0 3

def s9_1 : State := vidCfg.writeHost 0x40000 (blk true)
def s9_2 : State := vidCfg.writeHost 0x40000 (blk false)
def s9_3 : State := vidCfg.writeHost 0x40000 (put (blk false) 8 1 17)
def s9_4 : State := vidS (vc0 (blk true)) 1
def s9_5 : State := vidS (vcF (blk true)) 2
def d9_6 : VCtx := { vc0 (blk true) with inTail := 0 }
def s9_7 : State := vidS { vc0 (blk true) with inTail := 0 } 1
def s9_8 : State := vidS { vc0 (blk true) with inTail := 0 } 2
def d9_9 : List Byte := ent 3 0 0 0
def s9_10 : State := vidE (vc0 (blk false)) (ent 3 0 0 0)
def d9_11 : VCtx := { vc0 (blk false) with bufs := [4] }
def d9_12 : List Byte := ent 2 0 0 0
def s9_13 : State := vidE { vc0 (blk false) with bufs := [4] } (ent 2 0 0 0)
def d9_14 : List Byte := ent 4 0 0 0x90000
def s9_15 : State := vidE (vc0 (blk true)) (ent 4 0 0 0x90000)
def d9_16 : List Byte := ent 1 0 0 0
def s9_17 : State := vidE (vc0 (blk false)) (ent 1 0 0 0)
def d9_18 : List Byte := ent 1 0 64 0x90000
def s9_19 : State := vidE (vc0 (blk false)) (ent 1 0 64 0x90000)
def s9_20 : State := (vidS (vcF (blk true)) 1).setFld VCD_CTX_STATE_PIPE 0 4
def s9_21 : State := (vidS (vcF (put (blk false) 84 1 1)) 1).setFld VCD_CTX_STATE_PIPE 0 0
def d9_22 : VCtx := { vc0 patBlk with patch := [fr] }
def s9_23 : State := vidS { vc0 patBlk with patch := [fr] } 1
def s9_24 : State := vidS (vcF (blk true)) 1
def d9_25 : VCtx := { vcF (blk true) with slices := [(0, 1022)] }
def s9_26 : State := vidS { vcF (blk true) with slices := [(0, 1022)] } 1
def d9_27 : VCtx := { vc0 (blk true) with recs := [vrec], outTail := 16 }
def s9_28 : State := vidS { vc0 (blk true) with recs := [vrec], outTail := 16 } 1
def d9_29 : VCtx := { vc0 (blk true) with recs := [vrec], outTail := 15 }
def s9_30 : State := vidS { vc0 (blk true) with recs := [vrec], outTail := 15 } 1
def s9_31 : State := { rdy with mbs := { rdy.mbs with tries := 2 } }
def s9_32 : State := { rdy with mbs := { rdy.mbs with tries := 3 } }
def s9_33 : State := rdy.setFld MBS_STATUS_ISOLATED 0 1
def s9_34 : State := { rdy with mbs := { rdy.mbs with perst := true } }

def w1_1 : State := { rings with host := { rings.host with withdrawn := [(1, 0, 2)] } }
def w1_2 : State := s1_11.setReg (HCI_CQ_TAIL 0) 1 16
def w1_3 : State := s1_11.setFld (HCI_CQ_STATUS_HALTED 0) 1 1
def w1_4 : State := flying [fl 0 (dsc 7 7 [2])]
def w1_5 : State := flying [fl 0 (dsc 7 7 [1, 1])]
def w1_6 : State := flying [fl 0 (dsc 3 7 []), { fl 1 (dsc 7 7 [1]) with taken := true }]
def w1_7 : State := flying [{ fl 0 (dsc 7 7 (leBytes 8 0 ++ leBytes 8 9)) with taken := true }]
def w1_8 : State := flying [fl 0 (dsc 8 7 [64])]
def w1_9 : State := flying [fl 0 (dsc 8 7 [0, 0, 0, 0, 9])]
def w1_10 : State := flying [fl 0 (dsc 8 7 [])]
def w1_11 : State := { w1_10 with host := { w1_10.host with withdrawn := [(1, 0, 2)] } }

/-- A PLAN_LOAD of some bytes, from a function, with a reserved byte. -/
def ldF (src len : Nat) (seq := 0) (r := 0) : Flight := fl seq (dsc 1 7 (leBytes 8 src ++ leBytes 8 len ++ leBytes 4 r ++ leBytes 4 5))
def w2_1 : State := flying [{ ldF 0 64 with taken := true, started := true, ran := true }, ldF 0 64 1]
def w2_2 : State := one (ldF 0 64 0 (2 ^ 31))
def w2_3 : State := one (ldF 0 0)
def w2_4 : State := (one (ldF (2 ^ 60) 64)).setFld GDR_STATUS_IN_RESET 0 1
def w2_5 : State := let s := one (ldF (2 ^ 60) 64); { s with mem := { s.mem with bad := [(gddrKey 1 0 / 64, true)] } }
def w2_6 : State := stepS (st0 true) planE (flying [fl 0 (dsc 2 7 [])])
def w2_7 : State := one (fl 0 (dsc 2 7 [1]))
def w2_8 : State := one (fl 0 (dsc 2 7 (leBytes 4 16)))
/-- A BALE_COPY. -/
def cpF (src dst n raw : Nat) : Flight := fl 0 (dsc 3 7 (leBytes 8 src ++ leBytes 8 dst ++ leBytes 4 n ++ leBytes 4 0 ++ leBytes 1 raw))
def w2_9 : State := one (cpF (2 ^ 60 + 1) 0x10000 1 1)
def w2_10 : State := one (cpF (2 ^ 60) 0x10000 0 1)
def w2_11 : State := (one (cpF (2 ^ 60) 0x10000 1 1)).setFld GDR_STATUS_IN_RESET 0 1
def w2_12 : State := (one (cpF (2 ^ 60) (2 ^ 60 - 64) 1 0)).writeGddr 1 0 (bale1 0)
def w2_13 : State := (one (cpF (2 ^ 60) 0x10000 1 0)).setFld GDR_STATUS_IN_RESET 0 1
def w2_14 : State := (one (cpF (2 ^ 60) 0x10000 1 0)).writeGddr 1 0 (leBytes 64 (2 ^ 512 - 1))
def w2_15 : State := one (fl 0 (dsc 4 7 (shedB 0x10000 0 65)))
def w2_16 : State := let s := (oneShed (fl 0 (dsc 4 7 (shedB 0x10000 0 2))) false).setFld SHD_STATUS_IN_RESET 0 1; { s with shed := { s.shed with maps := [(s.opPage d2_21 0, 1)], ops := s.shed.ops.map fun o => { o with out := 1 } } }
def w2_17 : State := one { fl 0 (dsc 9 7 (leBytes 1 3 ++ leBytes 1 0 ++ leBytes 2 0 ++ leBytes 4 0 ++ leBytes 8 999)) with fn := 0 }
def w2_18 : State := one (fl 0 (dsc 10 7 [0, 1]))
def w2_19 : State := dayS
def w2_21 : State := withPlan (one (fl 0 (dsc 2 7 []))) planE
def w2_20 : State := (withPlan (((one (fl 0 (dsc 0xA 7 (leBytes 8 0 ++ leBytes 8 0 ++ leBytes 4 0)))).setFld DAY_STATUS_ENABLED 1 1).setFld DAY_MIB_MIB 1 1)).dayRecord 1 1 0 9 (leBytes 24 0 ++ leBytes 4 plan0.crc) |>.dayRecord 1 2 0 9 (leBytes 28 0)

def w4_1 : State := flying [kvF 1 64 5] poolCfg
def w4_2 : State := flying [kvF 3 10 0] poolCfg
def w4_3 : State := flying [kvF 4 0 0] poolCfg
def w4_4 : State := kvS (kvF 3 10 1) [(0, { strm 0 0 0 20 [] with foc := true })]
def w4_5 : State := flying [kvF 5 (1 + 100 * 2 ^ 32) 0] poolCfg
def w4_6 : State := flying [kvF 6 0 0] poolCfg
def w4_7 : State := flying [kvF 7 0x10000 0] poolCfg
def w4_8 : State := (kvS (kvF 7 (2 ^ 60) 256) [(0, strm 0 0 0 0 [])]).setFld GDR_STATUS_IN_RESET 0 1

/-- An error that a command meets: in scratch of core 0, and in the acting function's GDDR. -/
def e5_1 : List MemEvent := [⟨some 0, 0, .corrected⟩]
def e5_2 : List MemEvent := [⟨none, 0, .uncorrectable⟩]
def r5_1 : LoftReq := ⟨0, 3, none, some 1, true, false⟩
def r5_2 : LoftReq := ⟨257, 3, none, none, false, true⟩
def r5_3 : LoftReq := ⟨256, 3, some (leBytes 64 7), some 1, true, false⟩
def r5_4 : LoftReq := ⟨259, 0x10, none, none, false, false⟩
def r5_5 : LoftReq := ⟨0, 3, none, none, true, true⟩
def r5_6 : LoftReq := ⟨0, 0xF0, none, none, true, false⟩
def r5_7 : LoftReq := ⟨0, 0, none, none, true, false⟩
def w5_1 : State := { fillS 0 with gddrs := { (fillS 0).gddrs with throttle := [(0, 2), (1, 2), (2, 2), (3, 2)] } }
/-- Every way of the set of line 0 holds a line with a nearer use. -/
def w5_2 : State := let h := act.homeOf 0 0
  { act with loft := { act.loft with sets := [(h.1 * 1024 + h.2, (List.range 16).map fun w => ⟨w, lineKey 1 (w + 1), 0xF, 0xF, some 1⟩)] } }

def stR (t : Nat) : Step := { st0 true with fetches := [⟨0, t, 3, false, false, false, 9, false⟩] }
def w6_1 : State := seqS (qRun false) (stR 1) (planD { d0 with levels := [⟨1, 1, 1, 0, 1, 0⟩] ++ List.replicate 5 ⟨1, 1, 0, 0, 0, 0⟩ })
def w6_2 : State := seqS (qRun true) { st0 true with recompute := [1] } { planE with recipes := [⟨1, false, 0, []⟩] }
def nA (rec : List Byte) : NodeEnt := { n0 with kind := 3, record := rec ++ leBytes 64 0 }
def planA (rec : List Byte) : Plan :=
  { planE with nodes := [nA rec], descs := [{ d0 with ops := [opr 1 1, { opr 1 2 with colLevel := 3 }] }] }
def w6_3 : State := seqS { qRun true with beff := [1, 1, 1, 0, 1, 1] } (st0 true) (planA [])
def w6_4 : State := seqS (qRun true) (st0 true)
  { planA [] with descs := [{ d0 with ops := [opr 1 1, { opr 4 2 with colLevel := 3 }] }], edges := [⟨1, 0, 0, 1, 4⟩], bound := [⟨256, 0, 0, 0, 4, 1, 0⟩] }
def w6_5 : State := seqS (qRun true) (st0 true) (planA (leBytes 1 1 ++ leBytes 15 0 ++ leBytes 4 100))
def w6_6 : State := seqS (qRun true) (stR 1)
def nK (kind : Nat) : NodeEnt := { n0 with kind := kind, record := leBytes 1 0 ++ leBytes 1 0 ++ leBytes 2 7 ++ leBytes 4 1 ++ leBytes 56 0 }
def stalled0 : Tab Stream := [(0, { strm 0 0 256 256 [] with state := 3 })]
def kvQ (kind : Nat) (held : Bool) : State :=
  let s := seqS { qRun true with kvHeld := held } (st0 true) { planE with nodes := [nK kind] } (flying [frun] poolOn)
  { s with kv := { s.kv with streams := stalled0, stalls := [(0, 0)] } }
def w6_7 : State := kvQ 6 true
def w6_8 : State := kvQ 6 false
def w6_9 : State := kvQ 7 false
def held5 : Held := ⟨1, 1, none, [], noFlags, false, false, 1, 1, 0, 0⟩
def w6_10 : State :=
  let s := seqS { qRun false with held := [held5] } (st0 true)
    { planE with descs := [{ d0 with ops := [opr 1 1, opr 5 2] }], edges := [⟨0, 1, 1, 0, 4⟩], bound := [⟨0, 0, 1, 0, 4, 0, 1⟩] }
  { s with chutes := [(chuteKey 0 0 0, ⟨[it2, it2], [], [], 4, [], false⟩)] }
def h6_1 : HalterOp := .arrive
def h6_2 : HalterOp := .signal 2
def h6_3 : HalterOp := .barWait 0 1
def h6_4 : HalterOp := .semWait (.pre 0) 2
def wt6_1 : Waiter := .pre 0
def w6_11 : State := halS ⟨2, []⟩ ⟨0, 1, 0, []⟩ [⟨0, 9, .arrive⟩]
def w6_12 : State := halS ⟨2, []⟩ ⟨0, 1, 0, []⟩ [⟨0, 9, .signal 2⟩]
def w6_13 : State := halS ⟨2, []⟩ ⟨0, 1, 0, []⟩ [⟨0, 9, .barWait 0 1⟩]
def w6_14 : State := halS ⟨2, []⟩ ⟨0, 1, 0, []⟩ [⟨0, 9, .semWait (.pre 0) 2⟩]
def w6_15 : State := halS ⟨2, []⟩ ⟨0, 1, 0, []⟩ [⟨0, 5, .semWait (.pre 0) 2⟩, ⟨0, 5, .signal 1⟩]
def w6_16 : State := halS ⟨1, []⟩ ⟨0, 2, 0, []⟩ [] [(0, .pre 0)] { q0 with phase := .run }
def w6_17 : State := w6_16.setFld CLK_STATUS_VIN_WARN 0 1
def w6_18 : State := { droS 1 true false with yard := { (droS 1 true false).yard with steps := [(0, stR 1)] } }
def drF (mode t : Nat) (c : List (Nat × Chute) := []) : State :=
  let s := droS mode true true c; { s with yard := { s.yard with steps := [(0, stR t)] } }
def w6_19 : State := drF 1 1
def w6_20 : State := drF 1 2
def w6_21 : State := drF 2 1 [(chuteKey 0 0 0, ⟨[], [], [it2], 4, [], false⟩)]
def w6_22 : State := drF 2 2 [(chuteKey 0 0 0, ⟨[], [], [it2], 4, [], false⟩)]

def w7_1 : State := linkS { lnk [] 0 [] with failed := [1] }
def w7_2 : State := linkS (lnk [] 0 []) (rings.setFld HLK_LANES_ACTIVE 0 0)
def w7_3 : State := stepS { stT true with transfers := [⟨0, true, true, false, none⟩] } planT
def l7_1 : Landing := ⟨2, 0, none, 5, leBytes 64 7, false, 1⟩
def l7_2 : Landing := ⟨2, 64, none, 5, leBytes 64 7, false, 0⟩
def l7_3 : Landing := ⟨0, 0, some (0, 0), 5, leBytes 64 7, false, 1⟩
def w7_9 : State := s7_4.setFld PRT_MODE_ISOLATE 0 1
def w7_10 : State := linkS (lnk ((List.range 25).map fun k => (k, { pk k with flits := 511 }, 0)) 25 fullCredits)
def w7_11 : State := linkS (lnk [] 0 fullCredits) (rings.setFld CLK_STATUS_VIN_WARN 0 1)
def w7_7 : State := s7_14.setReg BOOT_INRESET_CLU 0 1
def collA (m : List Nat) : State := withPlan rings { planM 1 with colls := [{ collOf 1 with members := m }] }
def w7_8 : State := collA [1]
def replM : State :=
  let s := (flying [frun]).setFld DAY_STATUS_ENABLED 1 1
  let s := ((s.setFld DAY_MIB_MIB 1 1).dayRecord 1 1 0 9 (leBytes 28 0)).dayRecord 1 7 0 9 (leBytes 4 0 ++ leBytes 4 0 ++ leBytes 4 1)
  stepS { stM run0 with replay := some 0 } (planM 1) (s.dayRecord 1 2 0 9 (leBytes 28 0))
def w7_4 : State := let s := ytS 1 2 true; { s with yt := { s.yt with rejected := true, lockRate := 0 } }
def w7_5 : State := musS 1 { run0 with done := true }
def h7_1 : SumHdr := hdr0
def h7_2 : SumHdr := noHdr
def h7_3 : SumHdr := { noHdr with layout := 0x101 }
def m7_1 : RowMsg := ⟨1, [], [], [], false, false, false⟩
def w7_6 : State := { (musS 1 { run0 with sent := true }) with halter := { rings.halter with released := [(0, .coll 0)] } }

def w8_1 : State := { crys with clk := { crys.clk with root := .fosc } }
def w8_2 : State := (flying [frun] crys).setFld CLK_STATUS_VIN_WARN 0 1
def w8_3 : State := { s8_23 with far := { s8_23.far with spareCore := [] } }
def w8_4 : State := farS [partKey kCore 0] [] []
def w8_5 : State := let s := stepS (st0 true) planE (flying [frun] crys); { s with far := { s.far with due := [partKey kCore 0] } }
def w8_6 : State := { crys with far := { crys.far with spareCore := [(0, true)] } }
def w8_7 : State := { crys with gddrs := { crys.gddrs with remaps := [⟨0, 0, 5, true⟩] } }
def w8_8 : State := { crys with gddrs := { crys.gddrs with remaps := (List.range 8).map fun k => ⟨0, k, k + 100, true⟩ } }
def t8_1 : List Nat := [50, 60]
def t8_2 : List Nat := [115, 60]

def a9_1 : AddrError := ⟨some 6, false, false⟩
def a9_2 : AddrError := ⟨none, false, false⟩
def w9_1 : State := vidE { vc0 (blk false) with bufs := [0] } (ent 2 0 0 0)
def w9_2 : State := vidE (vc0 (blk false)) (ent 4 0 0 0x90000)
def w9_3 : State := vidE (vc0 (blk true)) (ent 1 0 64 0x90000)
def w9_7 : State := ((act.setFld (VCD_CTX_OWNER_PART) 0 0).setReg64 VCD_CTX_BLOCK_LO 0 (2 ^ 60 + 2 ^ 50)).setFld BOOT_STATUS_STAGE 0 3
def w9_8 : State := ((act.setFld (VCD_CTX_OWNER_PART) 0 0).setReg64 VCD_CTX_BLOCK_LO 0 (2 ^ 62)).setFld BOOT_STATUS_STAGE 0 3
def w9_4 : State := vidS { vc0 patBlk with patch := [fr], tokWritten := 1000000 } 1
def w9_5 : State := vidS { vc0 patBlk with patch := [fr], tokWritten := 2 ^ 31 } 1
def b9_1 : List Byte := [1, 2, 3]
def w9_6 : State := vidS { vcF (blk true) with slices := [(0, 1022)] } 2

/-! States for the inner clauses of the statements. -/

def y2_1 : State := { s2_22 with shed := { s2_22.shed with maps := [(s2_22.opPage d2_21 0, 1)], ops := s2_22.shed.ops.map fun o => { o with out := 1 } } }
def y2_2 : State := oneShed (fl 0 (dsc 4 7 (shedB 0x10000 0 1))) false
/-- The image with a descriptor of a node that the graph does not have. -/
def imgX : List Byte := mkImg [(1, sliceBytes loopsB 0 128 ++ leBytes 2 9 ++ loopsB.drop 130), (2, graphB), (4, yardB)]
def y2_3 : State := held imgX (one (fl 0 (dsc 1 7 (loadB (crc32 imgX)))))
/-- The image with its section 0x0002 given a tensor that no memory of the partition holds. -/
def imgY : List Byte :=
  mkImg [(1, loopsB), (2, leBytes 4 1 ++ leBytes 8 0 ++ leBytes 4 2 ++ leBytes 48 0 ++ tenB 1 128 ++ tenB 2 (2 ^ 40) ++ nodeB ++ leBytes 32 0), (4, yardB)]
def y2_4 : State := held imgY (one (fl 0 (dsc 1 7 (loadB (crc32 imgY)))))
def y5_1 : State := stepS { st0 true with fetches := [⟨0, 1, 3, false, false, true, 5, false⟩] }
def y5_2 : State := stepS { st0 true with fetches := [⟨0, 1, 2, false, false, true, 5, false⟩] }
def y5_3 : State := let s := s5_8; { s with far := { s.far with deadParts := [(0, true)] } }
def y5_4 : State := stepS { st0 true with stopped := true } planE (flying [{ frun with muted := true }])
/-- Every way of the set of line 0 holds a line with a fill on its way. -/
def y5_5 : State := { w5_2 with loft := { w5_2.loft with fills := (List.range 16).map fun w => ⟨lineKey 1 (w + 1), 0xF0, none, false, false, false, false, 0⟩ } }
def y5_6 : State := let s := stepS (st0 true); { s with loft := { loftS.loft with fills := [⟨lineKey 1 0, 0xF0, none, false, false, false, true, 1⟩] } }
def y5_7 : State := State.reset.setFld LFT_STATUS_SPARE_IN 0 1
def y6_1 : State := { stepS (st0 true) planC with chutes := [(chuteKey 0 0 0, ⟨[], [it2], [], 2, [], false⟩)] }
def y6_2 : State := droS 1 true true [(chuteKey 0 0 0, ⟨[], [], [], 4, [], true⟩)]
def y6_3 : State := s6_11.setReg64 YTM_BEAT_LO 0 5
def y6_4 : State := { s6_19 with suspended := [(0, q0)] }
def fwd0 : List (Nat × LinkSt) := [(0, lnk [] 0 fullCredits), (1, { lnk [] 0 fullCredits with forward := [⟨0, 1, 0, 7, 0, 0, 0, 64⟩] })]
def y7_1 : State := { w7_9 with links := fwd0 }
def y7_2 : State := (linkS (lnk [] 0 fullCredits) (stepS { st0 true with transfers := [⟨7, true, true, false, none⟩] })).setFld PRT_MODE_ISOLATE 0 1
def y7_3 : State := { s7_4 with links := fwd0 }
def y7_4 : State := linkS { lnk [] 0 fullCredits with badRun := 15 }
def y7_5 : State := let s := s7_4.setFld HLK_CTRL_ENABLE 0 0; { s with boot := { s.boot with inReset := false }, clk := { s.clk with root := .crystal } }
def y7_6 : State := s7_13.setReg64 YTM_BEAT_LO 0 3
def y7_7 : State := let s := stepS (stT true) { planT with homes := [(1, 2 ^ 60), (2, 2 ^ 60 + 0x1000)] } (linkS (lnk [] 0 fullCredits) (flying [frun]))
  { s with mem := { s.mem with bad := [(gddrKey 1 0 / 64, false)] } }
def y7_8 : State := stepS { stT true with transfers := [⟨0, true, true, false, none⟩] } { planT with ranks := [0, 0] }
def y7_9 : State := withPlan rings { planM 1 with slots := [⟨0, 4, false, true, 3, 0, 0, 0, 0, 0, 0, 0, 0⟩] }
def y7_10 : State := stepS (stM { run0 with closed := [0] }) { planM 1 with slots := [⟨0, 4, false, true, 30, 0, 0, 0, 0, 0, 0, 0, 0⟩] }
def y7_11 : State := musS 5 { run0 with rows := [⟨0, [], [], [], false, false, false⟩] }
def y7_12 : State := { s7_17 with clk := { s7_17.clk with root := .held } }
def y7_13 : State := let s := ytS 1 3 true; { s with yt := { s.yt with rejected := true, lockRate := 0 } }
def l7_4 : Landing := ⟨9, 0, none, 5, leBytes 64 7, false, 1⟩
def l7_5 : Landing := ⟨0, 0, some (0, 1), 5, leBytes 64 7, false, 1⟩
def y8_1 : State := crys.setReg SHD_SPARE_BLOCKS 0 1
def y8_2 : State := slots { img1 with bank0 := ⟨1, true, [⟨1, 1, 0, [1], 1⟩], 0, 65536⟩ } true State.reset
def y8_3 : State := ((s8_17.setFld BOOT_UNIT_RESET_RESULT 0 1).setFld BOOT_UNIT_RESET_KIND 0 3).setFld BOOT_UNIT_RESET_INDEX 0 0
def y9_1 : State := (vidS (vcF (put (blk false) 84 1 2)) 1).setFld VCD_CTX_STATE_PIPE 0 0
def y9_2 : State := vidS { vc0 (put patBlk 72 4 0) with patch := [fr], tokWritten := 2 ^ 31 } 1

end Sys2Proof.Tests
end

