-- ==== Sys2Proof/WellFormed.lean ====
section
/-! DEFINITION. The commands that a sender can form: what the types of the operands do not say. -/

namespace Sys2Proof

/-- Bytes that host software stores lie within the 60-bit addresses of PCIe (R44). -/
def HostStore.wf (h : HostStore) : Bool := decide (h.addr + h.bytes.length ≤ 2 ^ 60)

/-- A register offset names an aligned word of BAR0, 64 MiB (R6, R29). -/
def wfOff (off : Nat) : Bool := decide (off < 2 ^ 26) && off % 4 == 0

/-- A word of BAR0, of a function's MSI-X table of 64 vectors, or its control word (R29, R437). -/
def wfSpace (sp : RegSpace) (off : Nat) : Bool :=
  match sp with
  | .bar0 => wfOff off
  | .msixTable => decide (off < 1024) && off % 4 == 0
  | .msixControl => off == 0

/-- A 32-bit quantity (R6). -/
def wfWord (n : Nat) : Bool := decide (n < 2 ^ 32)

/-- A collective of a plan (R395: 12 bits). -/
def wfColl (n : Nat) : Bool := decide (n < 4096)

/-- A module rank of 13 bits (R340). -/
def wfRank (n : Nat) : Bool := decide (n < 8192)

/-- A module address: the rank and the 4 bits of the domain above it (R333, R340). -/
def wfAddr (n : Nat) : Bool := decide (n < 2 ^ 17)

/-- A 64-bit quantity of a time frame (R347). -/
def wfTime (n : Nat) : Bool := decide (n < 2 ^ 64)

/-- An edge of a plan's chutes (R148), and an expert number. -/
def wfEdge (n : Nat) : Bool := decide (n < 65536)
def wfExpert (n : Nat) : Bool := decide (n < 2 ^ 32)

/-- A sum's header holds counts of 32 bits (R372). -/
def SumHdr.wf (h : SumHdr) : Bool := wfWord h.left && wfWord h.layout

/-- An error in memory names a unit of core scratch, or a sector of the function's 2^40 bytes of GDDR at most. -/
def MemEvent.wf (e : MemEvent) : Bool := decide (e.unit < if e.core.isSome then 49152 else 2 ^ 34)

/-- Errors that a command's accesses meet. -/
def wfErrs (errs : List MemEvent) : Bool := errs.all MemEvent.wf

/-- The operands of a command are such as a sender can form. -/
def Instr.wf : Instr → Bool
  | .regLoWrite _ off _ => wfOff off
  | .regHiWrite _ off _ => wfOff off
  | .regLoRead _ off => wfOff off
  | .selectWrite _ off _ => wfOff off
  | .registerWrite _ sp off _ _ => wfSpace sp off
  | .vfForbiddenAccess fn off _ => wfOff off && decide (fn ≠ 0)
  | .functionLevelReset _ => true
  | .sqEnable _ _ _ => true
  | .sqDisable _ _ _ => true
  | .cqEnable _ _ _ => true
  | .cqDisable _ _ _ => true
  | .tailDoorbell _ _ ring _ stores => decide (ring < 128) && stores.all HostStore.wf
  | .headDoorbell _ _ ring _ => decide (ring < 128)
  | .doorbellBadWrite _ _ pageOff size => decide (pageOff < 4096) && decide (size ≤ 8)
  | .descriptorFetch _ _ _ => true
  | .nop _ _ _ => true
  | .planLoad _ _ _ errs => wfErrs errs
  | .planRun _ _ _ errs => wfErrs errs
  | .baleCopy _ _ _ errs => wfErrs errs
  | .baleCopyRaw _ _ _ errs => wfErrs errs
  | .shedRead _ _ _ => true
  | .shedWrite _ _ _ => true
  | .fenceRing _ _ _ => true
  | .fenceFunction _ _ _ => true
  | .fenceRelease _ _ _ => true
  | .cancel _ _ _ _ => true
  | .timeSetCounter _ _ _ => true
  | .timeSetPeriod _ _ _ => true
  | .timeSetEmpty _ _ _ => true
  | .replayArm _ _ _ => true
  | .reservedOpcode _ _ _ => true
  | .kvOpen _ _ _ => true
  | .kvFlush _ _ _ => true
  | .kvCommit _ _ _ => true
  | .kvClose _ _ _ => true
  | .kvFork _ _ _ => true
  | .pedInsert _ _ _ => true
  | .pedMatch _ _ _ => true
  | .kvOpReserved _ _ _ => true
  | .completionRecordWrite _ _ _ => true
  | .prtEnable _ _ => true
  | .prtRelease _ _ => true
  | .releaseScrub _ => true
  | .releaseDone _ ms => wfWord ms
  | .prtWhistleWrite _ _ => true
  | .prtConfigWrite off _ => wfOff off
  | .isolateWrite _ => true
  | .windowMapWrite off _ => wfOff off
  | .bellDecision _ => true
  | .bellCommit _ => true
  | .belComplete _ _ => true
  | .belPendingWrite _ _ _ => true
  | .bellDoorbellRaise _ _ _ => true
  | .bellDoorbellComplete _ _ _ => true
  | .latchRaise => true
  | .contributionSend _ coll errs => wfColl coll && wfErrs errs
  | .childSumReceive _ plan _ coll _ _ hdr _ _ => decide (plan < 16) && wfColl coll && hdr.wf
  | .parentClose _ coll _ => wfColl coll
  | .collectiveResultReceive _ coll _ hdr _ => wfColl coll && hdr.wf
  | .a2aRowsReceive _ coll _ _ => wfColl coll
  | .whistleMessageReceive _ coll _ _ hdr _ => wfColl coll && hdr.wf
  | .musCancel _ _ _ => true
  | .resetMarkReceive _ coll => wfColl coll
  | .gnfFinal _ => true
  | .linkDown _ _ _ => true
  | .linkReset _ => true
  | .linkEnableWrite _ => true
  | .linkTrainDone _ _ rank dom far _ => wfRank rank && decide (dom < 16) && decide (far < 16)
  | .linkTrainTimeout _ => true
  | .laneFail _ _ => true
  | .linkDelayMeasure _ _ => true
  | .linkPacketSend _ _ origin dest part _ _ epoch _ _ => wfAddr origin && wfAddr dest && decide (part < 2048) && decide (epoch < 256)
  | .linkPacketReceive _ origin dest part _ _ epoch _ _ _ _ _ _ => wfAddr origin && wfAddr dest && decide (part < 2048) && decide (epoch < 256)
  | .linkAckReceive _ _ => true
  | .linkNakReceive _ _ => true
  | .linkCreditReturn _ _ _ => true
  | .dropNoticeReceive _ _ => true
  | .transferSend _ _ errs => wfErrs errs
  | .transferLand _ _ _ => true
  | .referenceLost => true
  | .referenceRateCheck _ => true
  | .referenceReturn => true
  | .referenceQualified _ _ _ => true
  | .holdoverExpiry => true
  | .ytmCtrlWrite _ => true
  | .timeFrameReceive _ count period _ _ _ _ _ => wfTime count && wfTime period
  | .markerFrameReceive count period _ _ _ _ _ => wfTime count && wfTime period
  | .ptpMessageReceive _ _ _ _ _ _ => true
  | .yardBeat => true
  | .ethFrameReceive _ len _ _ => decide (len < 65536)
  | .roceRequest _ qp _ psn => decide (qp < 2 ^ 24) && decide (psn < 2 ^ 24)
  | .ethPortLinkChange _ _ _ => true
  | .stallRetry _ => true
  | .ostEnable _ _ => true
  | .ostDisable _ _ => true
  | .poolFramesWrite _ _ _ => true
  | .ostPartFramesWrite _ _ => true
  | .pedPartNodesWrite _ _ => true
  | .pedKeyWrite _ _ _ => true
  | .shedPageReadDone _ _ _ _ _ _ _ _ => true
  | .shedPageWriteDone _ _ _ _ _ _ _ _ errs => wfErrs errs
  | .shedRelocate _ _ _ => true
  | .unitResetGo _ _ _ _ _ => true
  | .unitResetExit kind _ _ _ => decide (kind < 8)
  | .loftAccess _ _ _ errs => wfErrs errs
  | .loftFill _ _ _ _ _ => true
  | .pathLimitAdmit _ => true
  | .loftWayFail _ _ _ => true
  | .gddrRefresh _ => true
  | .gddrPatrolScrub _ _ _ _ => true
  | .gddrTempPoll _ front back _ => decide (front < 256) && decide (back < 256)
  | .marginStart _ => true
  | .marginSweepDone _ _ _ => true
  | .rowRemapSwitch _ _ _ => true
  | .flashBusyTimeout _ _ _ => true
  | .clkCtrlWrite _ => true
  | .clkSscWrite _ => true
  | .clkBoundsWrite off _ => wfOff off
  | .clockRefReady _ => true
  | .clockRefFault _ => true
  | .loopLockLoss _ => true
  | .clockGate _ => true
  | .thermalSample temps => decide (temps.length = 5)
  | .emergencyThrottle _ => true
  | .emergencyEnd _ => true
  | .vinSample _ => true
  | .vinHoldupEnd => true
  | .vinRecovery => true
  | .powerOn => true
  | .perstAssert => true
  | .moduleReset _ => true
  | .nynikWatchdog => true
  | .startup _ _ _ _ _ _ _ => true
  | .confirm _ => true
  | .fwInstallStart _ _ _ => true
  | .fwInstallComplete _ => true
  | .bootSave _ _ => true
  | .settingsCompaction => true
  | .farrierHourly => true
  | .farApply _ => true
  | .partFailure kind _ _ => decide (1 ≤ kind ∧ kind ≤ 7)
  | .dayEnable _ _ => true
  | .smbStatus _ _ _ => true
  | .smbTempMax _ _ => true
  | .smbPower _ _ _ => true
  | .smbVin _ _ => true
  | .smbCoolant _ _ _ _ => true
  | .smbBoardCapRead _ => true
  | .smbBoardCapWrite v _ _ _ => decide (v < 65536)
  | .smbIdentity _ _ _ => true
  | .smbReservedCommand cmd => decide (cmd < 256)
  | .sclTimeout _ => true
  | .controllerNackRetry _ => true
  | .busRecovery _ => true
  | .busRetry _ _ => true
  | .jtagIdcode => true
  | .jtagSamplePreload _ => true
  | .jtagExtest => true
  | .jtagClamp => true
  | .jtagHighz => true
  | .jtagBypass code => decide (code < 256)
  | .vcdEnable _ _ => true
  | .vcdStop _ _ => true
  | .videoTailPoll _ stores => stores.all HostStore.wf
  | .videoAu _ _ _ errs => wfErrs errs
  | .videoRelease _ => true
  | .videoFlush _ _ => true
  | .videoFrame _ => true
  | .videoFrameDone _ _ _ _ => true
  | .videoTokensWrite _ w h rgb => decide (rgb.length = 3 * w * h)
  | .videoSliceDone _ _ _ => true
  | .videoRecordWrite _ => true
  | .nestStart _ errs => wfErrs errs
  | .iterationIssue _ fail errs => fail.all (decide <| · < 25) && wfErrs errs
  | .nestPost _ fail => fail.all (decide <| · < 25)
  | .beatDelivery => true
  | .chuteBaleSend _ _ edge => wfEdge edge
  | .chuteBaleLand _ _ edge _ _ => wfEdge edge
  | .chuteCreditReturn _ _ edge => wfEdge edge
  | .halterArrive _ _ _ => true
  | .halterSignal _ _ _ => true
  | .halterWait _ _ _ => true
  | .halterRelease _ _ => true
  | .watchdogFire _ => true
  | .stepStart _ => true
  | .stepComplete _ => true
  | .planBoundary _ _ _ _ => true
  | .migrationChunk _ => true
  | .demandFetch _ _ expert _ => wfExpert expert
  | .prefetchIssue _ => true
  | .fetchComplete _ _ _ _ => true
  | .fetchDeadlineMiss _ _ => true
  | .droverStreamStart _ _ errs => wfErrs errs
  | .droverBaleDeliver _ errs => wfErrs errs
  | .droverScatterBale _ errs => wfErrs errs
  | .internalFault code _ _ _ _ _ => decide (1 ≤ code ∧ code ≤ 4)

end Sys2Proof
end

