-- ==== Sys2Proof/Tests/Slice0.lean ====
section
/-! SUPPORT. The model's own tests: terms that WellFormed refuses, and the worked examples of the spec,
whose expected values stand there. -/

namespace Sys2Proof.Tests
open Sys2Proof.Machine
set_option maxRecDepth 100000
set_option Elab.async false
set_option synthInstance.maxSize 100000
set_option synthInstance.maxHeartbeats 1000000

/-! ## WellFormed: one ill-formed term for each check -/

theorem test_wf_reg_lo_unaligned :
    Instr.wf (.regLoWrite 0 2 0) = false := by decide +kernel
theorem test_wf_reg_hi_beyond_bar :
    Instr.wf (.regHiWrite 0 0x4000000 0) = false := by decide +kernel
theorem test_wf_reg_read_beyond_bar :
    Instr.wf (.regLoRead 0 0x4000000) = false := by decide +kernel
theorem test_wf_select_unaligned :
    Instr.wf (.selectWrite 0 1 0) = false := by decide +kernel
theorem test_wf_bar_unaligned :
    Instr.wf (.registerWrite 0 .bar0 2 0 0) = false := by decide +kernel
theorem test_wf_msix_beyond_table :
    Instr.wf (.registerWrite 0 .msixTable 1024 0 0) = false := by decide +kernel
theorem test_wf_msix_control_offset :
    Instr.wf (.registerWrite 0 .msixControl 4 0 0) = false := by decide +kernel
theorem test_wf_vf_access_by_pf :
    Instr.wf (.vfForbiddenAccess 0 0 true) = false := by decide +kernel
theorem test_wf_vf_access_unaligned :
    Instr.wf (.vfForbiddenAccess 1 2 true) = false := by decide +kernel
theorem test_wf_prt_config_unaligned :
    Instr.wf (.prtConfigWrite 3 0) = false := by decide +kernel
theorem test_wf_window_unaligned :
    Instr.wf (.windowMapWrite 3 0) = false := by decide +kernel
theorem test_wf_clk_bounds_unaligned :
    Instr.wf (.clkBoundsWrite 3 0) = false := by decide +kernel
theorem test_wf_tail_ring :
    Instr.wf (.tailDoorbell 0 0 128 0 []) = false := by decide +kernel
theorem test_wf_tail_store_address :
    Instr.wf (.tailDoorbell 0 0 0 0 [⟨2 ^ 60, [1], false⟩]) = false := by decide +kernel
theorem test_wf_head_ring :
    Instr.wf (.headDoorbell 0 0 128 0) = false := by decide +kernel
theorem test_wf_bad_doorbell_offset :
    Instr.wf (.doorbellBadWrite 0 0 4096 4) = false := by decide +kernel
theorem test_wf_bad_doorbell_size :
    Instr.wf (.doorbellBadWrite 0 0 0 9) = false := by decide +kernel
theorem test_wf_release_ms :
    Instr.wf (.releaseDone 0 (2 ^ 32)) = false := by decide +kernel
theorem test_wf_contribution_coll :
    Instr.wf (.contributionSend 0 4096 []) = false := by decide +kernel
theorem test_wf_child_sum_plan :
    Instr.wf (.childSumReceive 0 16 0 0 0 1 ⟨false, false, false, 0, 0, [], none, false, false⟩ [] false) = false := by decide +kernel
theorem test_wf_child_sum_left :
    Instr.wf (.childSumReceive 0 0 0 0 0 1 ⟨false, false, false, 2 ^ 32, 0, [], none, false, false⟩ [] false) = false := by decide +kernel
theorem test_wf_parent_close_coll :
    Instr.wf (.parentClose 0 4096 0) = false := by decide +kernel
theorem test_wf_result_layout :
    Instr.wf (.collectiveResultReceive 0 0 0 ⟨false, false, false, 0, 2 ^ 32, [], none, false, false⟩ []) = false := by decide +kernel
theorem test_wf_rows_coll :
    Instr.wf (.a2aRowsReceive 0 4096 ⟨0, [], [], [], false, false, false⟩ false) = false := by decide +kernel
theorem test_wf_whistle_coll :
    Instr.wf (.whistleMessageReceive 0 4096 0 0 ⟨false, false, false, 0, 0, [], none, false, false⟩ []) = false := by decide +kernel
theorem test_wf_mark_coll :
    Instr.wf (.resetMarkReceive 0 4096) = false := by decide +kernel
theorem test_wf_train_rank :
    Instr.wf (.linkTrainDone 0 [] 8192 0 0 0) = false := by decide +kernel
theorem test_wf_train_domain :
    Instr.wf (.linkTrainDone 0 [] 0 16 0 0) = false := by decide +kernel
theorem test_wf_train_far :
    Instr.wf (.linkTrainDone 0 [] 0 0 16 0) = false := by decide +kernel
theorem test_wf_packet_origin :
    Instr.wf (.linkPacketSend 0 none (2 ^ 17) 0 0 0 0 0 0 1) = false := by decide +kernel
theorem test_wf_packet_part :
    Instr.wf (.linkPacketSend 0 none 0 0 2048 0 0 0 0 1) = false := by decide +kernel
theorem test_wf_packet_dest :
    Instr.wf (.linkPacketReceive 0 0 (2 ^ 17) 0 0 0 0 0 1 true none 0 0) = false := by decide +kernel
theorem test_wf_packet_epoch :
    Instr.wf (.linkPacketReceive 0 0 0 0 0 0 256 0 1 true none 0 0) = false := by decide +kernel
theorem test_wf_frame_count :
    Instr.wf (.timeFrameReceive 0 (2 ^ 64) 0 0 true true 0 false) = false := by decide +kernel
theorem test_wf_marker_period :
    Instr.wf (.markerFrameReceive 0 (2 ^ 64) 0 true true 0 false) = false := by decide +kernel
theorem test_wf_eth_length :
    Instr.wf (.ethFrameReceive 0 65536 true false) = false := by decide +kernel
theorem test_wf_roce_pair :
    Instr.wf (.roceRequest 0 (2 ^ 24) 0 0) = false := by decide +kernel
theorem test_wf_roce_psn :
    Instr.wf (.roceRequest 0 0 0 (2 ^ 24)) = false := by decide +kernel
theorem test_wf_reset_kind :
    Instr.wf (.unitResetExit 8 0 true true) = false := by decide +kernel
theorem test_wf_gddr_temperature :
    Instr.wf (.gddrTempPoll 0 256 0 false) = false := by decide +kernel
theorem test_wf_thermal_sensors :
    Instr.wf (.thermalSample [1, 2, 3, 4]) = false := by decide +kernel
theorem test_wf_memory_error :
    Instr.wf (.nestStart 0 [⟨some 3, 49152, .corrected⟩]) = false := by decide +kernel
theorem test_wf_part_kind_0 :
    Instr.wf (.partFailure 0 0 []) = false := by decide +kernel
theorem test_wf_part_kind_8 :
    Instr.wf (.partFailure 8 0 []) = false := by decide +kernel
theorem test_wf_board_cap :
    Instr.wf (.smbBoardCapWrite 65536 none none false) = false := by decide +kernel
theorem test_wf_smbus_command :
    Instr.wf (.smbReservedCommand 256) = false := by decide +kernel
theorem test_wf_jtag_code :
    Instr.wf (.jtagBypass 256) = false := by decide +kernel
theorem test_wf_video_store :
    Instr.wf (.videoTailPoll 0 [⟨2 ^ 60 - 1, [1, 2], false⟩]) = false := by decide +kernel
theorem test_wf_token_samples :
    Instr.wf (.videoTokensWrite 0 2 2 [0]) = false := by decide +kernel
theorem test_wf_chute_send_edge :
    Instr.wf (.chuteBaleSend 0 0 65536) = false := by decide +kernel
theorem test_wf_chute_land_edge :
    Instr.wf (.chuteBaleLand 0 0 65536 0 0) = false := by decide +kernel
theorem test_wf_chute_credit_edge :
    Instr.wf (.chuteCreditReturn 0 0 65536) = false := by decide +kernel
theorem test_wf_expert :
    Instr.wf (.demandFetch 0 0 (2 ^ 32) 0) = false := by decide +kernel
theorem test_wf_fault_code_0 :
    Instr.wf (.internalFault 0 0 0 0 0 []) = false := by decide +kernel
theorem test_wf_fault_code_5 :
    Instr.wf (.internalFault 5 0 0 0 0 []) = false := by decide +kernel

/-- A well-formed term of the same kinds is accepted. -/
theorem test_wf_accepts : Instr.wf (.tailDoorbell 1 1 127 5 [⟨2 ^ 60 - 1, [1], true⟩]) = true := by decide +kernel

/-! ## Doorbells: the worked example of spec/02 (R33), and records at the ring's end -/

/-- Submission ring 3 of 16 slots, its tail at 0xFFFFFFFE and its head at 0xFFFFFFFC. -/
def ringS : State :=
  let s := (act.setFld (HCI_SQ_CTRL_ENABLE 3) 1 1).setFld (HCI_SQ_CTRL_SIZE_LOG2 3) 1 4
  (s.setReg (HCI_SQ_HEAD 3) 1 0xFFFFFFFC).setReg (HCI_SQ_TAIL 3) 1 0xFFFFFFFE

theorem test_tail_doorbell_accepted :
    ((tailDoorbell ringS 1 1 3 8).reg (HCI_SQ_TAIL 3) 1, (tailDoorbell ringS 1 1 3 8).fld HCI_VIOL_CODE_CODE 1)
      = (8, 0) := by decide +kernel
theorem test_tail_doorbell_ignored :
    ((tailDoorbell ringS 1 1 3 13).reg (HCI_SQ_TAIL 3) 1, (tailDoorbell ringS 1 1 3 13).fld HCI_VIOL_CODE_CODE 1)
      = (0xFFFFFFFE, 1) := by decide +kernel

/-! ## Numbers: the worked examples of spec/04, spec/05 and spec/09 -/

/-- The three products of spec/04's group, at B's format of 32 positions. -/
def groupA : List Fv := [fmtE4M3.decode 0x3C, fmtE4M3.decode 0xC3, fmtE4M3.decode 0x7E]
def groupB : List Fv := [fmtE2M1.decode 0x7, fmtE2M1.decode 0x1, fmtE2M1.decode 0xB]

theorem test_group_elements :
    (groupA.map fun v => mulV v (.fin false 1 (-3)))
      = [.fin false 12 (-6), .fin true 11 (-5), .fin false 14 2] := by decide +kernel

def group4 : Word × Flags :=
  (groupStep 32 (groupA.map fun v => mulV v (.fin false 1 (-3))) (groupB.map fun v => mulV v (.fin false 1 2))
    0x3DCCCCCD).run noFlags

theorem test_group_step : group4 = (0xC3A60B33, noFlags) := by decide +kernel

theorem test_bf16_stochastic_down :
    narrowPlain 2 (.sr 0x1234AB) (dec32 0xC3A60B33) = (0xC3A6, noFlags) := by decide +kernel
theorem test_bf16_stochastic_up :
    narrowPlain 2 (.sr 0xF80000) (dec32 0xC3A60B33) = (0xC3A7, noFlags) := by decide +kernel
theorem test_bf16_nearest :
    narrowPlain 2 .rne (dec32 0xC3A60B33) = (0xC3A6, noFlags) := by decide +kernel

/-- The squared ReLU of spec/05 at entries 320 to 323. -/
def reluU : Ucode :=
  ⟨fun k => ([0x46, 0x88, 0xCA, 0x000001C10004B405] : List (BitVec 64)).getD (k - 320) 0, fun _ => 0⟩
def relu (x : Word) : Word × Flags := (uprog reluU 16 320 (x :: List.replicate 7 0)).run noFlags

theorem test_ucode_positive : relu 0x40200000 = (0x40C80000, noFlags) := by decide +kernel
theorem test_ucode_negative : relu 0xBFC00000 = (0, noFlags) := by decide +kernel
theorem test_ucode_overflow : relu 0x61821AB1 = (0x7F800000, ⟨true, false, false, 0⟩) ∧
    (narrowPlain 1 .rne (dec32 0x7F800000)).2.nf = true := by decide +kernel
theorem test_ucode_nan : (relu 0x7FC00000).1 = 0x7FC00000 := by decide +kernel

/-- The hyperparameters of spec/09's ADAMW element. -/
def hyper9 : Hyper :=
  ⟨0x3A800000, 0x3F600000, 0x3E000000, 0x3F7E0000, 0x3C000000, 0x3B800000, 0x3D800000, one32, one32, one32⟩

theorem test_adamw :
    (((optW 1 hyper9 0x3F800000 0x3F200000 0x3E800000 0x3F200000).run noFlags).1,
      ((optM 1 hyper9 0x3F200000 0x3E800000).run noFlags).1, ((optR 1 hyper9 0x3F200000 0x3F200000).run noFlags).1)
      = (0x3F7FDDCA, 0x3E980000, 0x3F200000) := by decide +kernel

theorem test_adamw_m_scaled :
    (narrowPlain 4 .rne (.fin false 152 0)).1 = 0x72 ∧ (narrowPlain 4 (.sr 0x3A0000) (.fin false 152 0)).1 = 0x71 ∧
      (narrowPlain 4 (.sr 0x800000) (.fin false 152 0)).1 = 0x72 ∧ (narrowPlain 9 .rne (.fin false 40960 0)).1 = 0xF2 := by
  decide +kernel

/-- The check value of the CRC-32 of R46. -/
theorem test_crc32 : crc32 [0x31, 0x32, 0x33, 0x34, 0x35, 0x36, 0x37, 0x38, 0x39] = 0xCBF43926 := by decide +kernel

/-! ## Memory: the worked examples of spec/08, spec/11 and spec/20 -/

/-- Offset 0x00C81400 over channels 6 to 11 from BASE 0 (R288, R289). -/
theorem test_channel_of_line : chanMap [6, 7, 8, 9, 10, 11] (0x00C81400 / 1024) = (11, 2134) := by decide +kernel

def six : State := ((act.setFld (PRT_CHANNELS_MASK 0) 0 0xFC0).setFld (PRT_GDDR_BASE_LINE 0) 0 0)

theorem test_row_of_line : (six.channelOf 1 12805, six.rowOfLine 1 12805) = (11, (7, 34)) := by decide +kernel

/-- FORMAT 0x04, D 128 and GROUPS 4: pages of 274,432 bytes and mangers of 528,384. -/
theorem test_kv_page_bytes : frameBytes 4 128 4 = 274432 ∧ frameBytes (mangerFormat 4) 128 4 = 528384 := by
  decide +kernel

/-- OUT_W 448, OUT_H 252, P 14, TOK_FMT BF16. -/
def patch20 : List Byte :=
  List.replicate 84 0 ++ [3] ++ List.replicate 19 0 ++ leBytes 2 448 ++ leBytes 2 252 ++ [14, 2] ++ List.replicate 146 0

theorem test_video_tokens :
    (pTokens patch20, pElems patch20, pTiles patch20, pGroups patch20, pSlot patch20) = (576, 588, 5, 5, 32832) ∧
      payloadSize 2 0 128 76 = 19456 ∧ payloadSize 2 0 64 76 = 9728 := by decide +kernel

/-! ## Experts, trees and power: the worked examples of spec/12, spec/14 and spec/16 -/

theorem test_expert_wishes : wish 10000 8 20000 1 = 4 ∧ wish 11550 8 23100 1 = 4 ∧ wish 10507 8 21014 1 = 4 := by
  decide +kernel

theorem test_muster_tree :
    treeKids 0 2 6 = [(1, 1), (2, 2)] ∧ treeKids 1 2 6 = [(1, 3), (2, 4)] ∧ treeKids 2 2 6 = [(1, 5)] := by
  decide +kernel

theorem test_muster_sums :
    ((add32 0x4B800000 0x3F800000).run noFlags).1 = 0x4B800000 ∧
      ((add32 0x4B800000 0x40000000).run noFlags).1 = 0x4B800001 := by decide +kernel

/-- PWR_CAP 2,000 W, PMIN 12, PMAX 16. -/
def power : State :=
  (((State.reset.setFld CLK_PWR_CAP_WATTS 0 2000).setFld MBS_BOARD_CAP_WATTS 0 0).setFld CLK_FREQ_BOUNDS_PMIN 0 12).setFld
    CLK_FREQ_BOUNDS_PMAX 0 16

theorem test_power_loop :
    ((power.powerLoop 0 2310 false).heldPoint 0,
      ((((power.powerLoop 0 2310 false).powerLoop 0 2200 false).powerLoop 0 2090 false).powerLoop 0 2030 false).heldPoint 0,
      (((((power.powerLoop 0 2310 false).powerLoop 0 2200 false).powerLoop 0 2090 false).powerLoop 0 2030 false).powerLoop
        0 2010 false).heldPoint 0) = (15, 12, 12) := by decide +kernel
theorem test_power_clamp :
    ((((((power.powerLoop 0 2310 false).powerLoop 0 2200 false).powerLoop 0 2090 false).powerLoop 0 2030 false).powerLoop
        0 2010 false).fld CLK_CLAMP_LOW_COUNT) = 1 := by decide +kernel

/-! ## The Bell: the worked example of spec/17, source 0 on vector 3 under VX2_COMPAT -/

def bell17 : State :=
  let s := (((act.setReg BEL_ENABLE 32 1).setReg BEL_MASK 32 0).setFld (BEL_ROUTE_VECTOR 0) 32 3).setFld
    BEL_CTRL_VX2_COMPAT 1 1
  let s := { s with bell := { s.bell with msixOn := [(1, true)], vecs := [(67, ⟨0xFEE0, 9, false⟩)] } }
  bellDecide (s.setBellP 1 0 true) 1

/-- The mask takes effect between the decision and the commit. -/
def bellLate : State := bellCommit (bell17.setReg BEL_MASK 32 1) 1

theorem test_late_mask :
    (bellLate.host.msgs, bellLate.bellA 1 0, bellLate.fld BEL_LATE_MASK_COUNT 1) = ([(0xFEE0, 9)], true, 1) := by
  decide +kernel
theorem test_native_mask :
    let s := bellCommit ((bell17.setReg BEL_MASK 32 1)) 1
    let n := { bell17 with bell := { bell17.bell with decided := [(1, ⟨0, 3, false⟩)] } }
    s.host.msgs ≠ (bellCommit (n.setReg BEL_MASK 32 1) 1).host.msgs ∧
      (bellCommit (n.setReg BEL_MASK 32 1) 1).bellP 1 0 = true := by decide +kernel
theorem test_stray_completion :
    let s := bellDoorbell (bellDoorbell bellLate 1 0x80000000 |>.setBellP 1 0 true) 1 0x80000000
    (s.bellP 1 0, s.bellA 1 0, s.fld BEL_STRAY_COUNT_COUNT 1) = (true, false, 1) := by decide +kernel

/-! ## One step, and the empty queue -/

theorem test_step_powers_on :
    ((match step { State.reset with pending := [.powerOn] } with
      | .next t => some t.pending
      | _ => none) : Option (List Instr)) = some [] := by decide +kernel
theorem test_idle : step State.reset = .next State.reset := by rfl
theorem test_table_gives_no_bits : decodeTableWord 32 0 = none := by rfl

end Sys2Proof.Tests
end

