-- ==== Sys2Proof/Tests/Witnesses.lean ====
section
/-! SUPPORT. One theorem for each statement of Certificates/Slice0/Obligations.lean that has hypotheses:
concrete states and operands meet them together, one group for each clause (the value of a clause at a
boundary of its range where it has one). The clauses of a long statement stand in several theorems, wit_X,
wit_X_2 and so on. -/

namespace Sys2Proof.Tests
open Sys2Proof.Machine
set_option maxRecDepth 100000
set_option Elab.async false
set_option synthInstance.maxSize 100000
set_option synthInstance.maxHeartbeats 1000000

theorem wit_StepRunsFrontCommand :
    (Option.any (fun c => decide (Option.any (fun rest => decide (s1_1.pending = c :: rest)) (some
    s1_1.pending.tail) = true)) s1_1.pending.head? = true) ∧
    (State.reset.pending = []) := by
  decide +kernel

/-- A step that goes on: the queue's command runs, and nothing waits after it. -/
theorem wit_ExecLeavesQueue : exec (.gddrRefresh 0) { act with pending := [.powerOn] } =
    .next { act with pending := [.powerOn] } := by rfl

theorem wit_CommandsChangeOnlyTheirUnits :
    (exec (.gddrRefresh 0) act = .next act) ∧
    (∀ f ∈ [Instr.resetsModule, Instr.storesHost, Instr.storesGddr, Instr.storesScratch, Instr.storesShed,
      Instr.movesDescriptors, Instr.sendsMsix, Instr.changesPlans, Instr.changesKv, Instr.movesBales,
      Instr.usesHalter, Instr.movesSequencers, Instr.changesDrovers, Instr.changesShed, Instr.changesGddrs,
      Instr.changesLinks, Instr.changesYardTime, Instr.changesEthernet, Instr.changesMuster,
      Instr.changesPartitions, Instr.changesClocks, Instr.changesFlash, Instr.changesFarrier,
      Instr.changesVideo, Instr.changesBoard], f (.gddrRefresh 0) = false) :=
  ⟨by rfl, by decide +kernel⟩

theorem wit_StepKeepsMemoriesCanonical : State.reset.memWf ∧ step State.reset = .next State.reset :=
  ⟨by decide +kernel, by rfl⟩

theorem wit_PairHalvesCommitTogether :
    (act.fnLive 1 = true ∧ isLo (HCI_SQ_BASE_LO 0) = true ∧ ownerBlind 1 (HCI_SQ_BASE_LO 0) = false ∧
    act.mayAccess 1 (HCI_SQ_BASE_LO 0) true = true ∧ Option.any (fun r => decide (accMask r Access.rw ≠ 0 ∧ 0 ≠
    pendKey 1 (HCI_SQ_BASE_LO 0) (act.regInst 1 (HCI_SQ_BASE_LO 0)))) (rowOf (HCI_SQ_BASE_LO 0)) = true) ∧
    (act.fnLive 1 = true ∧
      let i := act.regInst 1 (HCI_SQ_BASE_LO 0); isHi (HCI_SQ_BASE_LO 0 + 4) = true ∧ ownerBlind 1
        (HCI_SQ_BASE_LO 0 + 4) = false ∧ act.mayAccess 1 (HCI_SQ_BASE_LO 0 + 4) true = true ∧ act.regInst 1
        (HCI_SQ_BASE_LO 0) < 1048576 ∧ act.pairOpen 1 (HCI_SQ_BASE_LO 0) i = true ∧ Option.any (fun r => decide
        (accMask r Access.rw ≠ 0 ∧ (rowOf (HCI_SQ_BASE_LO 0 + 4)).isSome = true)) (rowOf (HCI_SQ_BASE_LO 0)) =
        true) ∧
    (act.fnLive 1 = true ∧
      let i := act.regInst 1 (HCI_SQ_BASE_LO 0); isHi (HCI_SQ_BASE_LO 0 + 4) = true ∧ ownerBlind 1
        (HCI_SQ_BASE_LO 0 + 4) = false ∧ act.mayAccess 1 (HCI_SQ_BASE_LO 0 + 4) true = true ∧ act.regInst 1
        (HCI_SQ_BASE_LO 0) < 1048576 ∧ act.pairOpen 1 (HCI_SQ_BASE_LO 0) i = true ∧ Option.any (fun r => decide
        (accMask r Access.rw ≠ 0 ∧ Option.any (fun q => decide (regKey (HCI_SQ_BASE_LO 0) i ≠ regKey 0 0 ∧
        regKey (HCI_SQ_BASE_LO 0 + 4) i ≠ regKey 0 0)) (rowOf (HCI_SQ_BASE_LO 0 + 4)) = true)) (rowOf
        (HCI_SQ_BASE_LO 0)) = true) ∧
    (rings.fnLive 1 = true ∧
      let i := rings.regInst 1 (HCI_SQ_BASE_LO 0); isHi (HCI_SQ_BASE_LO 0 + 4) = true ∧ ownerBlind 1
        (HCI_SQ_BASE_LO 0 + 4) = false ∧ rings.mayAccess 1 (HCI_SQ_BASE_LO 0 + 4) true = true ∧ rings.regInst 1
        (HCI_SQ_BASE_LO 0) < 1048576 ∧ rings.pairOpen 1 (HCI_SQ_BASE_LO 0) i = false ∧ Option.any (fun r =>
        decide (accMask r Access.rw ≠ 0 ∧ (rowOf (HCI_SQ_BASE_LO 0 + 4)).isSome = true)) (rowOf (HCI_SQ_BASE_LO
        0)) = true) ∧
    (State.reset.fnLive 0 = true ∧ isLo YTM_BEAT_LO = true ∧ ownerBlind 0 YTM_BEAT_LO = false ∧
    State.reset.mayAccess 0 YTM_BEAT_LO false = true ∧ State.reset.mayAccess 0 (YTM_BEAT_LO + 4) false = true ∧
    ownerBlind 0 (YTM_BEAT_LO + 4) = false) := by
  decide +kernel

theorem wit_SelectWriteInRangeOrRefused :
    (State.reset.fnLive 0 = true ∧ isSelect CLUSTER_SEL = true ∧ ownerBlind 0 CLUSTER_SEL = false ∧
    State.reset.mayAccess 0 CLUSTER_SEL true = true ∧ Option.any (fun r => decide (State.reset.selInRange 0
    CLUSTER_SEL 0 = true)) (rowOf CLUSTER_SEL) = true) ∧
    (act.fnLive 1 = true ∧ isSelect CLUSTER_SEL = true ∧ ownerBlind 1 CLUSTER_SEL = false ∧ act.mayAccess 1
    CLUSTER_SEL true = true ∧ Option.any (fun r => decide (act.selInRange 1 CLUSTER_SEL 1 = false)) (rowOf
    CLUSTER_SEL) = true) := by
  decide +kernel

theorem wit_RegisterWriteByFieldType :
    (([HCI_STATUS, BEL_STATUS, BEL_CTRL, CLU_WIN_STATUS, CLU_HLT_STATUS, CLU_HLT_WDOG_LIMIT, SEQ_STATUS,
    COR_ATT_STATUS, TEN_OPT_STATUS, LFT_STATUS, LFT_CFG, OST_STATUS, YMS_STATUS, YMS_CFG, YMS_WORK_MIB,
    YMS_EXPERT_BUDGET, YMS_MIG_LIMIT, YMS_SHED_PAGE, YMS_SHED_PAGES, MUS_STATUS, DAY_STATUS].any fun off =>
    decide (Option.any (fun r => decide (
      let i := act.regInst 1 off; 1 ≠ 0 ∧ act.fnLive 1 = true ∧ act.mayAccess 1 off true = true ∧ regKey off i
        ≠ regKey 0 0)) (rowOf off) = true)) = true) := by
  decide +kernel

theorem wit_ForbiddenAccessIsLogged :
    (act.fnLive 1 = true ∧ act.mayAccess 1 1 false = false ∧ false = false) ∧
    (act.fnLive 1 = true ∧ act.flag HCI_STATUS_VIOL 1 = false ∧ act.mayAccess 1 1 false = false) ∧
    (act.fnLive 1 = true ∧ act.mayAccess 1 1 true = false ∧ true = true) := by
  decide +kernel

theorem wit_FunctionResetDropsUnstartedWork : (State.reset.stepOf 0 = none) ∧ (s1_2.stepOf 0 = none) := by
  decide +kernel

theorem wit_RingEnableStartsOrRefuses :
    (rings.fnLive 1 = true ∧ rings.flag (HCI_SQ_CTRL_ENABLE 1) 1 = false ∧ (rings.sqLocked 1 1 &&
    rings.sqChanges 1 1 80) = false ∧ rings.sqCause 1 80 = none) ∧
    (State.reset.fnLive 0 = true ∧ State.reset.flag (HCI_CQ_CTRL_ENABLE 0) = false ∧ sizeCause (ctrlSize 80) =
    none) ∧
    (State.reset.fnLive 0 = true ∧ State.reset.flag HCI_STATUS_SETUP_ERR = false ∧ State.reset.flag
    (HCI_SQ_CTRL_ENABLE 0) = false ∧ (State.reset.sqLocked 0 0 && State.reset.sqChanges 0 0 0) = false ∧
    (State.reset.sqCause 0 0).isSome = true) ∧
    (State.reset.fnLive 0 = true ∧ State.reset.flag (HCI_SQ_CTRL_ENABLE 0) = false ∧ (State.reset.sqLocked 0 0
    && State.reset.sqChanges 0 0 80) = false ∧ Option.any (fun c => decide (c = 3)) (State.reset.sqCause 0 80) =
    true) ∧
    (State.reset.fnLive 0 = true ∧ State.reset.flag HCI_STATUS_SETUP_ERR = false ∧ State.reset.flag
    (HCI_CQ_CTRL_ENABLE 0) = false ∧ (sizeCause (ctrlSize 0)).isSome = true) ∧
    (rings.fnLive 1 = true ∧ rings.flag (HCI_SQ_CTRL_ENABLE 0) 1 = true ∧ rings.sqChanges 1 0 0 = true) ∧
    (rings.fnLive 1 = true ∧ rings.flag HCI_STATUS_SETUP_ERR 1 = false ∧ rings.flag (HCI_SQ_CTRL_ENABLE 0) 1 =
    true ∧ rings.sqChanges 1 0 0 = true) ∧
    (rings.fnLive 1 = true ∧ (rings.sqLocked 1 0 && rings.sqChanges 1 0 0) = true) ∧
    (rings.fnLive 1 = true ∧ rings.flag (HCI_CQ_CTRL_ENABLE 0) 1 = true ∧ ctrlSize 0 ≠ rings.fld
    (HCI_CQ_CTRL_SIZE_LOG2 0) 1) ∧
    (rings.fnLive 1 = true ∧ rings.flag HCI_STATUS_SETUP_ERR 1 = false ∧ rings.flag (HCI_CQ_CTRL_ENABLE 0) 1 =
    true ∧ ctrlSize 0 ≠ rings.fld (HCI_CQ_CTRL_SIZE_LOG2 0) 1) ∧
    (State.reset.fnLive 1 = false) := by
  decide +kernel

theorem wit_RingDisableStopsFetching :
    (State.reset.fnLive 0 = true ∧ (State.reset.sqLocked 0 0 && State.reset.sqChanges 0 0 0) = false) ∧
    (rings.fnLive 1 = true ∧ (rings.sqLocked 1 0 && rings.sqChanges 1 0 0) = true) ∧
    (s1_3.fnLive 1 = true ∧ s1_3.flag (HCI_CQ_CTRL_ENABLE 1) 1 = true ∧ s1_3.cqNamed 1 1 = false) ∧
    (rings.fnLive 1 = true ∧ rings.flag HCI_STATUS_SETUP_ERR 1 = false ∧ rings.flag (HCI_CQ_CTRL_ENABLE 0) 1 =
    true ∧ rings.cqNamed 1 0 = true ∧ ctrlSize 65601 = rings.fld (HCI_CQ_CTRL_SIZE_LOG2 0) 1) := by
  decide +kernel

theorem wit_TailDoorbellAcceptsWithinRing :
    (rings.fnLive 0 = true ∧
      let g := pageFn 0; (0 = pageFn 0 ∨ 0 = 0 ∧ rings.isolated = false) ∧
      let old := rings.reg (HCI_SQ_TAIL 0) g;
      let head := rings.reg (HCI_SQ_HEAD 0) g; rings.flag (HCI_SQ_CTRL_ENABLE 0) g = true ∧
      let fits := BitVec.toNat (4 - head) ≤ 2 ^ rings.fld (HCI_SQ_CTRL_SIZE_LOG2 0) g ∧ BitVec.toNat (4 - old)
        ≤ BitVec.toNat (4 - head); fits) ∧
    (rings.fnLive 0 = true ∧
      let g := pageFn 0; (0 = pageFn 0 ∨ 0 = 0 ∧ rings.isolated = false) ∧
      let old := rings.reg (HCI_SQ_TAIL 0) g;
      let head := rings.reg (HCI_SQ_HEAD 0) g; rings.flag (HCI_SQ_CTRL_ENABLE 0) g = true ∧
      let fits := BitVec.toNat (4 - head) ≤ 2 ^ rings.fld (HCI_SQ_CTRL_SIZE_LOG2 0) g ∧ BitVec.toNat (4 - old)
        ≤ BitVec.toNat (4 - head); fits ∧ regKey (HCI_SQ_TAIL 0) g ≠ regKey 0 0) ∧
    (rings.fnLive 0 = true ∧
      let g := pageFn 0; (0 = pageFn 0 ∨ 0 = 0 ∧ rings.isolated = false) ∧
      let old := rings.reg (HCI_SQ_TAIL 0) g;
      let head := rings.reg (HCI_SQ_HEAD 0) g; rings.flag (HCI_SQ_CTRL_ENABLE 0) g = true ∧
      let fits := BitVec.toNat (4 - head) ≤ 2 ^ rings.fld (HCI_SQ_CTRL_SIZE_LOG2 0) g ∧ BitVec.toNat (4 - old)
        ≤ BitVec.toNat (4 - head); fits ∧ 4 = old) ∧
    (rings.fnLive 0 = true ∧
      let g := pageFn 0; (0 = pageFn 0 ∨ 0 = 0 ∧ rings.isolated = false) ∧
      let old := rings.reg (HCI_SQ_TAIL 0) g;
      let head := rings.reg (HCI_SQ_HEAD 0) g; rings.flag (HCI_SQ_CTRL_ENABLE 0) g = true ∧
      let fits := BitVec.toNat (0 - head) ≤ 2 ^ rings.fld (HCI_SQ_CTRL_SIZE_LOG2 0) g ∧ BitVec.toNat (0 - old)
        ≤ BitVec.toNat (0 - head); ¬fits) ∧
    (State.reset.fnLive 0 = true ∧
      let g := pageFn 0; (0 = pageFn 0 ∨ 0 = 0 ∧ State.reset.isolated = false) ∧ State.reset.flag
        (HCI_SQ_CTRL_ENABLE 0) g = false) ∧
    (State.reset.fnLive 0 = true ∧ (0 = pageFn 0 ∨ 0 = 0 ∧ State.reset.isolated = false) ∧ 64 ≤ 64) := by
  decide +kernel

theorem wit_HeadAndBadDoorbells :
    (rings.fnLive 0 = true ∧
      let g := pageFn 0; (0 = pageFn 0 ∨ 0 = 0 ∧ rings.isolated = false) ∧
      let old := rings.reg (HCI_CQ_HEAD 0) g; rings.flag (HCI_CQ_CTRL_ENABLE 0) g = true ∧
      let fits := BitVec.toNat (0 - old) ≤ BitVec.toNat (rings.reg (HCI_CQ_TAIL 0) g - old); fits) ∧
    (rings.fnLive 0 = true ∧
      let g := pageFn 0; (0 = pageFn 0 ∨ 0 = 0 ∧ rings.isolated = false) ∧
      let old := rings.reg (HCI_CQ_HEAD 0) g; rings.flag (HCI_CQ_CTRL_ENABLE 0) g = true ∧
      let fits := BitVec.toNat (1 - old) ≤ BitVec.toNat (rings.reg (HCI_CQ_TAIL 0) g - old); ¬fits) ∧
    (State.reset.fnLive 0 = true ∧
      let g := pageFn 0; (0 = pageFn 0 ∨ 0 = 0 ∧ State.reset.isolated = false) ∧ State.reset.flag
        (HCI_CQ_CTRL_ENABLE 0) g = false) ∧
    (act.fnLive 1 = true ∧ 1 = pageFn 0 ∧ 64 ≤ 64) ∧
    (State.reset.fnLive 0 = true ∧ (0 = pageFn 0 ∨ 0 = 0) ∧ badDoorbell 0 0 0 0 = true) ∧
    (s1_7.isolated = true ∧ 0 ≠ 32 ∧ s1_7.headViolation (pageFn 0) 0 0 = none) ∧
    (s1_7.isolated = true ∧ 0 ≠ 32 ∧ s1_7.tailViolation (pageFn 0) 0 4 = none) ∧
    (s1_7.isolated = true ∧ 0 ≠ 32 ∧ Option.any (fun c => decide (Option.any (fun x => decide
    (s1_7.headViolation (pageFn 0) 0 1 = some (c, x))) (Option.map Prod.snd (s1_7.headViolation (pageFn 0) 0 1))
    = true)) (Option.map Prod.fst (s1_7.headViolation (pageFn 0) 0 1)) = true) ∧
    (s1_7.isolated = true ∧ 0 ≠ 32 ∧ Option.any (fun c => decide (Option.any (fun x => decide
    (s1_7.tailViolation (pageFn 0) 0 0 = some (c, x))) (Option.map Prod.snd (s1_7.tailViolation (pageFn 0) 0 0))
    = true)) (Option.map Prod.fst (s1_7.tailViolation (pageFn 0) 0 0)) = true) := by
  decide +kernel

theorem wit_DescriptorFetchTakesHeadSlot :
    (
      let gone := (1, 0, 2); rings.mayFetch 1 0 = true ∧ rings.fetchTurn 1 0 = true ∧ gone ∉
        rings.host.withdrawn) ∧
    (w1_1.internalAux 1 = none ∧
      let gone := (1, 0, 2); w1_1.mayFetch 1 0 = true ∧ w1_1.fetchTurn 1 0 = true ∧ gone ∈
        w1_1.host.withdrawn) ∧
    (rings.flag HCI_STATUS_VIOL 1 = false ∧ rings.mayFetch 1 0 = true ∧ rings.fetchTurn 1 0 = true) ∧
    (State.reset.mayFetch 0 0 = false ∨ State.reset.fetchTurn 0 0 = false) := by
  decide +kernel

theorem wit_DescriptorEndQueuesOneRecord :
    (frun.muted = false ∧ State.reset.internalAux frun.fn = none) ∧
    (f1_9.muted = true) := by
  decide +kernel

theorem wit_CompletionRecordIsWrittenAtTail :
    (State.reset.nextRec 0 0 = none ∨ State.reset.flag (HCI_CQ_CTRL_ENABLE 0) = false ∨ State.reset.flag
    CLK_STATUS_VIN_WARN = true) ∧
    (w1_2.flag CLK_STATUS_VIN_WARN = false ∧ w1_2.flag (HCI_CQ_CTRL_ENABLE 0) 1 = true ∧ w1_2.cqFull 1 0 = true
    ∧ (w1_2.nextRec 1 0).isSome = true) ∧
    (w1_3.flag CLK_STATUS_VIN_WARN = false ∧ w1_3.flag (HCI_CQ_CTRL_ENABLE 0) 1 = true ∧ w1_3.cqFull 1 0 = false
    ∧ w1_3.flag (HCI_CQ_STATUS_HALTED 0) 1 = true ∧ (w1_3.nextRec 1 0).isSome = true) ∧
    (s1_11.flag CLK_STATUS_VIN_WARN = false ∧
      let tail := s1_11.reg (HCI_CQ_TAIL 0) 1;
      let size := s1_11.fld (HCI_CQ_CTRL_SIZE_LOG2 0) 1;
      let at_ := s1_11.reg64 (HCI_CQ_BASE_LO 0) 1 + 32 * (BitVec.toNat tail % 2 ^ size); s1_11.flag
        (HCI_CQ_CTRL_ENABLE 0) 1 = true ∧ s1_11.cqFull 1 0 = false ∧ s1_11.flag (HCI_CQ_STATUS_HALTED 0) 1 =
        false ∧ Option.any (fun r => decide (r.sq < 64 ∧ (0 < at_ ∨ at_ + 32 ≤ 0))) (s1_11.nextRec 1 0) = true) ∧
    (s1_11.flag CLK_STATUS_VIN_WARN = false ∧ s1_11.flag (HCI_CQ_CTRL_ENABLE 0) 1 = true ∧ s1_11.cqFull 1 0 =
    false ∧ s1_11.flag (HCI_CQ_STATUS_HALTED 0) 1 = false ∧ Option.any (fun r => decide (r.sq < 64))
    (s1_11.nextRec 1 0) = true) := by
  decide +kernel

theorem wit_NopFenceAndCancel :
    (Option.any (fun f => decide (reservedByte f.bytes [] [] = none)) (s1_2.ready 1 0 0 0) = true) ∧
    (Option.any (fun f => decide ((reservedByte f.bytes [] []).isSome = true)) (s1_13.ready 1 0 0 0) = true) ∧
    ((List.find? (fun f => s1_15.mayBegin f && decide (11 ≤ f.opcode)) (s1_15.flightsAt 1 0 0)).isSome = true) ∧
    (Option.any (fun f => decide (fenceChecks f = [] ∧ fieldAt f.bytes 8 1 = 0)) (s1_17.ready 1 0 0 7) = true) ∧
    (Option.any (fun f => decide (fenceChecks f = [] ∧ fieldAt f.bytes 8 1 = 1)) (s1_19.ready 1 0 0 7) = true) ∧
    (Option.any (fun f => decide (fieldAt f.bytes 8 1 ≠ 1 ∧ Option.any (fun x => decide (Option.any (fun xs =>
    decide (fenceChecks f = x :: xs)) (some (fenceChecks f).tail) = true)) (fenceChecks f).head? = true))
    (w1_4.ready 1 0 0 7) = true) ∧
    (Option.any (fun f => decide (fieldAt f.bytes 8 1 = 1 ∧ Option.any (fun x => decide (Option.any (fun xs =>
    decide (fenceChecks f = x :: xs)) (some (fenceChecks f).tail) = true)) (fenceChecks f).head? = true))
    (w1_5.ready 1 0 0 7) = true) ∧
    (((s1_21.flightsAt 1 0 0).any fun f => decide ((∀ g ∈ s1_21.flightsAt 1 0 0, g = f) ∧ f.opcode = 7 ∧ f.taken
    = true ∧ f.finished = false ∧ fieldAt f.bytes 8 1 = 0 ∧ (∀ g ∈ s1_21.host.flights, g.fn = f.fn → g.sq = f.sq
    → g.seq < f.seq → g.muted = true) ∧ (fieldAt f.bytes 16 8 = 0 ∨ fieldAt f.bytes 16 8 ≤ s1_21.beat))) = true) ∧
    (((s1_23.flightsAt 1 0 1).any fun f => decide ((∀ g ∈ s1_23.flightsAt 1 0 1, g = f) ∧ f.opcode = 7 ∧ f.taken
    = true ∧ f.finished = false ∧ fieldAt f.bytes 8 1 = 0 ∧ ∃ g ∈ s1_23.host.flights, g.fn = f.fn ∧ g.sq = f.sq
    ∧ g.seq < f.seq ∧ g.muted = false)) = true) ∧
    (((s1_25.flightsAt 1 0 0).any fun f => decide ((∀ g ∈ s1_25.flightsAt 1 0 0, g = f) ∧ f.opcode = 7 ∧ f.taken
    = true ∧ f.finished = false ∧ fieldAt f.bytes 8 1 = 1 ∧ (∀ g ∈ s1_25.host.flights, g.fn = f.fn → g.seq <
    f.seq → g.muted = true) ∧ (fieldAt f.bytes 16 8 = 0 ∨ fieldAt f.bytes 16 8 ≤ s1_25.beat))) = true) ∧
    (((w1_6.flightsAt 1 0 1).any fun f => decide ((∀ g ∈ w1_6.flightsAt 1 0 1, g = f) ∧ f.opcode = 7 ∧ f.taken =
    true ∧ f.finished = false ∧ fieldAt f.bytes 8 1 = 1 ∧ ∃ g ∈ w1_6.host.flights, g.fn = f.fn ∧ g.seq < f.seq ∧
    g.muted = false)) = true) ∧
    (((w1_7.flightsAt 1 0 0).any fun f => decide ((∀ g ∈ w1_7.flightsAt 1 0 0, g = f) ∧ f.opcode = 7 ∧ f.taken =
    true ∧ f.finished = false ∧ fieldAt f.bytes 16 8 ≠ 0 ∧ w1_7.beat < fieldAt f.bytes 16 8)) = true) ∧
    (Option.any (fun f => decide (Option.any (fun x => decide (Option.any (fun xs => decide (cancelChecks w1_8 f
    = x :: xs)) (some (cancelChecks w1_8 f).tail) = true)) (cancelChecks w1_8 f).head? = true)) (w1_8.ready 1 0
    0 8) = true) ∧
    (Option.any (fun f => decide (
      let sq := fieldAt f.bytes 8 1;
      let tag := fieldAt f.bytes 12 4;
      let target := List.find? (fun g => g.fn == f.fn && g.sq == sq && !g.muted && g.seq != f.seq && fieldAt
        g.bytes 4 4 == tag) s1_28.host.flights; cancelChecks s1_28 f = [] ∧ Option.any (fun g => decide
        (g.started = false ∧ g.finished = false ∧ false = false)) target = true)) (s1_28.ready 1 0 1 8) = true) ∧
    (Option.any (fun f => decide (
      let sq := fieldAt f.bytes 8 1;
      let tag := fieldAt f.bytes 12 4;
      let target := List.find? (fun g => g.fn == f.fn && g.sq == sq && !g.muted && g.seq != f.seq && fieldAt
        g.bytes 4 4 == tag) s1_28.host.flights; cancelChecks s1_28 f = [] ∧ Option.any (fun g => decide
        (g.started = true ∨ g.finished = true ∨ true = true)) target = true)) (s1_28.ready 1 0 1 8) = true) ∧
    (Option.any (fun f => decide (
      let sq := fieldAt f.bytes 8 1;
      let tag := fieldAt f.bytes 12 4;
      let target := List.find? (fun g => g.fn == f.fn && g.sq == sq && !g.muted && g.seq != f.seq && fieldAt
        g.bytes 4 4 == tag) w1_9.host.flights;
      let slot := List.find? (fun i => fieldAt (w1_9.readHost (w1_9.slotAddr f.fn sq i) 64) 4 4 == tag)
        (w1_9.unfetched f.fn sq); cancelChecks w1_9 f = [] ∧ target = none ∧ slot = none)) (w1_9.ready 1 0 0 8)
        = true) ∧
    (Option.any (fun f => decide (
      let sq := fieldAt f.bytes 8 1;
      let tag := fieldAt f.bytes 12 4;
      let target := List.find? (fun g => g.fn == f.fn && g.sq == sq && !g.muted && g.seq != f.seq && fieldAt
        g.bytes 4 4 == tag) w1_11.host.flights;
      let slot := List.find? (fun i => fieldAt (w1_11.readHost (w1_11.slotAddr f.fn sq i) 64) 4 4 == tag)
        (w1_11.unfetched f.fn sq); cancelChecks w1_11 f = [] ∧ target = none ∧ Option.any (fun i => decide
        ((f.fn, sq, BitVec.toNat i) ∈ w1_11.host.withdrawn)) slot = true)) (w1_11.ready 1 0 0 8) = true) ∧
    (Option.any (fun f => decide (
      let sq := fieldAt f.bytes 8 1;
      let tag := fieldAt f.bytes 12 4;
      let target := List.find? (fun g => g.fn == f.fn && g.sq == sq && !g.muted && g.seq != f.seq && fieldAt
        g.bytes 4 4 == tag) w1_10.host.flights;
      let slot := List.find? (fun i => fieldAt (w1_10.readHost (w1_10.slotAddr f.fn sq i) 64) 4 4 == tag)
        (w1_10.unfetched f.fn sq); cancelChecks w1_10 f = [] ∧ target = none ∧ Option.any (fun i => decide
        ((f.fn, sq, BitVec.toNat i) ∉ w1_10.host.withdrawn)) slot = true)) (w1_10.ready 1 0 0 8) = true) := by
  decide +kernel

/-- A plan image in host memory: clause 1 of the load. -/
theorem wit_PlansLoadAndRun_image1 :
    (Option.any (fun f => decide (s2_4.planTurn f = true ∧ loadChecks s2_4 f = [] ∧ loadLen f ≠ 0 ∧ Option.any
    (fun at_ => decide (
      let img := s2_4.readAt f.fn at_ (loadLen f); s2_4.placeDown f.fn at_ (loadLen f) = false ∧ s2_4.badAt
        f.fn at_ (loadLen f) = false ∧ crc32 img ≠ loadCrc f)) (s2_4.place f.fn (loadSrc f) (loadLen
        f)).toOption = true)) (s2_4.ready 1 0 0 1) = true) := by
  decide +kernel

/-- A plan image in host memory: clause 2 of the load. -/
theorem wit_PlansLoadAndRun_image2 :
    (Option.any (fun f => decide (
      let p := f.fn - 1; s2_2.planTurn f = true ∧ loadChecks s2_2 f = [] ∧ loadLen f ≠ 0 ∧ Option.any (fun at_
        => decide (
      let img := s2_2.readAt f.fn at_ (loadLen f);
      let u := (s2_2.updFlight f.seq fun g =>
        { fn := g.fn, sq := g.sq, idx := g.idx, seq := g.seq, bell := g.bell, bytes := g.bytes, taken := true, started := true, ran := true, finished := g.finished, muted := g.muted }).touch
        f.fn at_ (loadLen f);
      let parsed := parsePlan (loadCrc f) (sectionsOf img) u.ownAddr; s2_2.placeDown f.fn at_ (loadLen f) =
        false ∧ s2_2.badAt f.fn at_ (loadLen f) = false ∧ crc32 img = loadCrc f ∧ headerGood img = true ∧
        planBad (sectionsOf img) parsed (fun k => (sectionOf img k).isSome) u.dims = none ∧ lowestFail
        (u.placeFails p parsed) = none ∧ (u.placeStages p parsed).toOption.isSome = true)) (s2_2.place f.fn
        (loadSrc f) (loadLen f)).toOption = true)) (s2_2.ready 1 0 0 1) = true) := by
  decide +kernel

/-- A plan image in host memory: clause 3 of the load. -/
theorem wit_PlansLoadAndRun_image3 :
    (Option.any (fun f => decide (y2_3.planTurn f = true ∧ loadChecks y2_3 f = [] ∧ loadLen f ≠ 0 ∧ Option.any
    (fun at_ => decide (
      let img := y2_3.readAt f.fn at_ (loadLen f);
      let u := (y2_3.updFlight f.seq fun g =>
        { fn := g.fn, sq := g.sq, idx := g.idx, seq := g.seq, bell := g.bell, bytes := g.bytes, taken := true, started := true, ran := true, finished := g.finished, muted := g.muted }).touch
        f.fn at_ (loadLen f);
      let parsed := parsePlan (loadCrc f) (sectionsOf img) u.ownAddr; y2_3.placeDown f.fn at_ (loadLen f) =
        false ∧ y2_3.badAt f.fn at_ (loadLen f) = false ∧ crc32 img = loadCrc f ∧ headerGood img = true ∧
        (planBad (sectionsOf img) parsed (fun k => (sectionOf img k).isSome) u.dims).isSome = true)) (y2_3.place
        f.fn (loadSrc f) (loadLen f)).toOption = true)) (y2_3.ready 1 0 0 1) = true) := by
  decide +kernel

/-- A plan image in host memory: clause 4 of the load. -/
theorem wit_PlansLoadAndRun_image4 :
    (Option.any (fun f => decide (
      let p := f.fn - 1; y2_4.planTurn f = true ∧ loadChecks y2_4 f = [] ∧ loadLen f ≠ 0 ∧ Option.any (fun at_
        => decide (
      let img := y2_4.readAt f.fn at_ (loadLen f);
      let u := (y2_4.updFlight f.seq fun g =>
        { fn := g.fn, sq := g.sq, idx := g.idx, seq := g.seq, bell := g.bell, bytes := g.bytes, taken := true, started := true, ran := true, finished := g.finished, muted := g.muted }).touch
        f.fn at_ (loadLen f);
      let parsed := parsePlan (loadCrc f) (sectionsOf img) u.ownAddr; y2_4.placeDown f.fn at_ (loadLen f) =
        false ∧ y2_4.badAt f.fn at_ (loadLen f) = false ∧ crc32 img = loadCrc f ∧ headerGood img = true ∧
        planBad (sectionsOf img) parsed (fun k => (sectionOf img k).isSome) u.dims = none ∧ Option.any (fun c =>
        decide (Option.any (fun subj => decide (lowestFail (u.placeFails p parsed) = some (c, subj)))
        (Option.map Prod.snd (lowestFail (u.placeFails p parsed))) = true)) (Option.map Prod.fst (lowestFail
        (u.placeFails p parsed))) = true)) (y2_4.place f.fn (loadSrc f) (loadLen f)).toOption = true))
        (y2_4.ready 1 0 0 1) = true) := by
  decide +kernel

theorem wit_PlansLoadAndRun :
    (Option.any (fun f => decide (w2_1.planTurn f = false)) (w2_1.ready 1 0 1 1) = true) ∧
    (Option.any (fun f => decide (w2_2.planTurn f = true ∧ Option.any (fun x => decide (Option.any (fun xs =>
    decide (loadChecks w2_2 f = x :: xs)) (some (loadChecks w2_2 f).tail) = true)) (loadChecks w2_2 f).head? =
    true)) (w2_2.ready 1 0 0 1) = true) ∧
    (Option.any (fun f => decide (w2_3.planTurn f = true ∧ loadChecks w2_3 f = [] ∧ loadLen f = 0)) (w2_3.ready
    1 0 0 1) = true) ∧
    (Option.any (fun f => decide (w2_4.planTurn f = true ∧ loadChecks w2_4 f = [] ∧ loadLen f ≠ 0 ∧ Option.any
    (fun at_ => decide (w2_4.placeDown f.fn at_ (loadLen f) = true)) (w2_4.place f.fn (loadSrc f) (loadLen
    f)).toOption = true)) (w2_4.ready 1 0 0 1) = true) ∧
    (Option.any (fun f => decide (w2_5.planTurn f = true ∧ loadChecks w2_5 f = [] ∧ loadLen f ≠ 0 ∧ Option.any
    (fun at_ => decide (w2_5.placeDown f.fn at_ (loadLen f) = false ∧ w2_5.badAt f.fn at_ (loadLen f) = true))
    (w2_5.place f.fn (loadSrc f) (loadLen f)).toOption = true)) (w2_5.ready 1 0 0 1) = true) ∧
    (Option.any (fun f => decide (w2_6.planTurn f = false ∨ f.fn ≠ 0 ∧ (w2_6.stepOf (f.fn - 1)).isSome = true))
    (w2_6.ready 1 0 0 2) = true) ∧
    (Option.any (fun f => decide (w2_8.planTurn f = true ∧ (f.fn = 0 ∨ w2_8.stepOf (f.fn - 1) = none) ∧
    Option.any (fun x => decide (Option.any (fun xs => decide (runFields w2_8 f = x :: xs)) (some (runFields
    w2_8 f).tail) = true)) (runFields w2_8 f).head? = true)) (w2_8.ready 1 0 0 2) = true) ∧
    (Option.any (fun f => decide (s2_7.planTurn f = true ∧ (f.fn = 0 ∨ s2_7.stepOf (f.fn - 1) = none) ∧
    runFields s2_7 f = [] ∧ s2_7.planOf (f.fn - 1) (runId f) = none)) (s2_7.ready 1 0 0 2) = true) ∧
    (Option.any (fun f => decide (s2_6.planTurn f = true ∧ (f.fn = 0 ∨ s2_6.stepOf (f.fn - 1) = none) ∧
    runFields s2_6 f = [] ∧ Option.any (fun pl => decide (planChecks s2_6 f pl [] = [] ∧ (runCount f = 0 ∧ True
    ∨ runCount f ≠ 0 ∧ s2_6.place f.fn (runTable f) (16 * runCount f) = Except.ok (Place.host 0) ∧
    s2_6.placeDown f.fn (Place.host 0) (16 * runCount f) = false ∧ s2_6.badAt f.fn (Place.host 0) (16 * runCount
    f) = false ∧ s2_6 = s2_6.touch f.fn (Place.host 0) (16 * runCount f) ∧ ([] : List Byte) = s2_6.readAt f.fn
    (Place.host 0) (16 * runCount f)))) (s2_6.planOf (f.fn - 1) (runId f)) = true)) (s2_6.ready 1 0 0 2) = true) ∧
    (Option.any (fun f => decide (w2_21.planTurn f = true ∧ (f.fn = 0 ∨ w2_21.stepOf (f.fn - 1) = none) ∧
    runFields w2_21 f = [] ∧ Option.any (fun pl => decide (Option.any (fun x => decide (Option.any (fun xs =>
    decide (planChecks w2_21 f pl [] = x :: xs ∧ (runCount f = 0 ∧ True ∨ runCount f ≠ 0 ∧ w2_21.place f.fn
    (runTable f) (16 * runCount f) = Except.ok (Place.host 0) ∧ w2_21.placeDown f.fn (Place.host 0) (16 *
    runCount f) = false ∧ w2_21.badAt f.fn (Place.host 0) (16 * runCount f) = false ∧ w2_21 = w2_21.touch f.fn
    (Place.host 0) (16 * runCount f) ∧ ([] : List Byte) = w2_21.readAt f.fn (Place.host 0) (16 * runCount f))))
    (some (planChecks w2_21 f pl []).tail) = true)) (planChecks w2_21 f pl []).head? = true)) (w2_21.planOf
    (f.fn - 1) (runId f)) = true)) (w2_21.ready 1 0 0 2) = true) := by
  decide +kernel

theorem wit_BaleCopies :
    (Option.any (fun f => decide (
      let len := 64 * copyCount f; copyRaw f = true ∧ Option.any (fun pa => decide (Option.any (fun pb =>
        decide (Option.any (fun x => decide (Option.any (fun xs => decide (copyChecks f ++ w2_9.destFailed f.fn
        pb len = x :: xs)) (some (copyChecks f ++ w2_9.destFailed f.fn pb len).tail) = true)) (copyChecks f ++
        w2_9.destFailed f.fn pb len).head? = true)) (w2_9.place f.fn (copyDst f) len).toOption = true))
        (w2_9.place f.fn (copySrc f) len).toOption = true)) (w2_9.ready 1 0 0 3) = true) ∧
    (Option.any (fun f => decide (
      let len := 64 * copyCount f; copyRaw f = true ∧ copyChecks f = [] ∧ copyCount f = 0 ∧ Option.any (fun pa
        => decide (Option.any (fun pb => decide (w2_10.destFailed f.fn pb len = [])) (w2_10.place f.fn (copyDst
        f) len).toOption = true)) (w2_10.place f.fn (copySrc f) len).toOption = true)) (w2_10.ready 1 0 0 3) =
        true) ∧
    (Option.any (fun f => decide (
      let len := 64 * copyCount f; copyRaw f = true ∧ copyChecks f = [] ∧ copyCount f ≠ 0 ∧ Option.any (fun pa
        => decide (Option.any (fun pb => decide (w2_11.destFailed f.fn pb len = [] ∧ (w2_11.placeDown f.fn pa
        len = true ∨ w2_11.placeDown f.fn pb len = true))) (w2_11.place f.fn (copyDst f) len).toOption = true))
        (w2_11.place f.fn (copySrc f) len).toOption = true)) (w2_11.ready 1 0 0 3) = true) ∧
    (Option.any (fun f => decide (
      let len := 64 * copyCount f; copyRaw f = true ∧ copyChecks f = [] ∧ copyCount f ≠ 0 ∧ copySrc f / 2 ^ 60
        ≠ copyDst f / 2 ^ 60 ∧ Option.any (fun pa => decide (s2_9.placeDown f.fn pa len = false ∧ s2_9.badAt
        f.fn pa len = false ∧ Option.any (fun pb => decide (s2_9.destFailed f.fn pb len = [] ∧ s2_9.placeDown
        f.fn pb len = false)) (s2_9.place f.fn (copyDst f) len).toOption = true)) (s2_9.place f.fn (copySrc f)
        len).toOption = true)) (s2_9.ready 1 0 0 3) = true) ∧
    (Option.any (fun f => decide (
      let len := 64 * copyCount f; copyRaw f = true ∧ copyChecks f = [] ∧ copyCount f ≠ 0 ∧ Option.any (fun pa
        => decide (s2_9.placeDown f.fn pa len = false ∧ s2_9.badAt f.fn pa len = false ∧ Option.any (fun pb =>
        decide (s2_9.destFailed f.fn pb len = [] ∧ s2_9.placeDown f.fn pb len = false ∧ pb = Place.host 65536))
        (s2_9.place f.fn (copyDst f) len).toOption = true)) (s2_9.place f.fn (copySrc f) len).toOption = true))
        (s2_9.ready 1 0 0 3) = true) ∧
    (Option.any (fun f => decide (
      let len := 64 * copyCount f; copyRaw f = true ∧ copyChecks f = [] ∧ copyCount f ≠ 0 ∧ Option.any (fun pa
        => decide (s2_9.placeDown f.fn pa len = false ∧ s2_9.badAt f.fn pa len = false ∧ Option.any (fun pb =>
        decide (s2_9.destFailed f.fn pb len = [] ∧ s2_9.placeDown f.fn pb len = false ∧ pb = Place.host 65536 ∧
        (0 < 65536 ∨ 65536 + len ≤ 0))) (s2_9.place f.fn (copyDst f) len).toOption = true)) (s2_9.place f.fn
        (copySrc f) len).toOption = true)) (s2_9.ready 1 0 0 3) = true) ∧
    (Option.any (fun f => decide (
      let len := 64 * copyCount f; copyRaw f = true ∧ copyChecks f = [] ∧ copyCount f ≠ 0 ∧ Option.any (fun pa
        => decide (s2_9.placeDown f.fn pa len = false ∧ s2_9.badAt f.fn pa len = false ∧ Option.any (fun pb =>
        decide (s2_9.destFailed f.fn pb len = [] ∧ s2_9.placeDown f.fn pb len = false ∧ pb = Place.host 65536 ∧
        0 < 8388608 ∧ 0 < 2 ^ 20)) (s2_9.place f.fn (copyDst f) len).toOption = true)) (s2_9.place f.fn (copySrc
        f) len).toOption = true)) (s2_9.ready 1 0 0 3) = true) := by
  decide +kernel

theorem wit_BaleCopies_2 :
    (Option.any (fun f => decide (copyRaw f = false ∧ copyChecks f = [] ∧ copyCount f = 0 ∧ Option.any (fun a =>
    decide ((s1_23.place f.fn (copyDst f) 0).toOption.isSome = true)) (s1_23.place f.fn (copySrc f) 0).toOption
    = true)) (s1_23.ready 1 0 0 3) = true) ∧
    (Option.any (fun f => decide (
      let r := copyBales f.fn (copySrc f) (copyDst f) (copyStride f) (copyCount f) (copyCount f) 0 0
        { st := w2_12, moved := 0, poisoned := 0, cause := 0, checks := [], badHdr := none, down := false };
        copyRaw f = false ∧ copyChecks f = [] ∧ copyCount f ≠ 0 ∧ r.cause = 0 ∧ Option.any (fun a => decide
        (Option.any (fun b => decide (Option.any (fun x => decide (Option.any (fun xs => decide (r.checks = x ::
        xs)) (some r.checks.tail) = true)) r.checks.head? = true)) (w2_12.place f.fn (copyDst f) 0).toOption =
        true)) (w2_12.place f.fn (copySrc f) 0).toOption = true)) (w2_12.ready 1 0 0 3) = true) ∧
    (Option.any (fun f => decide (
      let r := copyBales f.fn (copySrc f) (copyDst f) (copyStride f) (copyCount f) (copyCount f) 0 0
        { st := s2_13, moved := 0, poisoned := 0, cause := 0, checks := [], badHdr := none, down := false };
        copyRaw f = false ∧ copyChecks f = [] ∧ copyCount f ≠ 0 ∧ r.checks = [] ∧ r.cause = 0 ∧ r.badHdr = none
        ∧ r.down = false ∧ Option.any (fun a => decide ((s2_13.place f.fn (copyDst f) 0).toOption.isSome =
        true)) (s2_13.place f.fn (copySrc f) 0).toOption = true)) (s2_13.ready 1 0 0 3) = true) ∧
    (Option.any (fun f => decide (
      let r := copyBales f.fn (copySrc f) (copyDst f) (copyStride f) (copyCount f) (copyCount f) 0 0
        { st := w2_13, moved := 0, poisoned := 0, cause := 0, checks := [], badHdr := none, down := false };
        copyRaw f = false ∧ copyChecks f = [] ∧ copyCount f ≠ 0 ∧ r.checks = [] ∧ r.cause = 0 ∧ r.badHdr = none
        ∧ r.down = true ∧ Option.any (fun a => decide ((w2_13.place f.fn (copyDst f) 0).toOption.isSome = true))
        (w2_13.place f.fn (copySrc f) 0).toOption = true)) (w2_13.ready 1 0 0 3) = true) ∧
    (Option.any (fun f => decide (
      let r := copyBales f.fn (copySrc f) (copyDst f) (copyStride f) (copyCount f) (copyCount f) 0 0
        { st := w2_14, moved := 0, poisoned := 0, cause := 0, checks := [], badHdr := none, down := false };
        copyRaw f = false ∧ copyChecks f = [] ∧ copyCount f ≠ 0 ∧ r.checks = [] ∧ r.cause = 0 ∧ Option.any (fun
        a => decide (Option.any (fun b => decide (Option.any (fun k => decide (Option.any (fun x => decide
        (r.badHdr = some (k, x))) (Option.map Prod.snd r.badHdr) = true)) (Option.map Prod.fst r.badHdr) =
        true)) (w2_14.place f.fn (copyDst f) 0).toOption = true)) (w2_14.place f.fn (copySrc f) 0).toOption =
        true)) (w2_14.ready 1 0 0 3) = true) ∧
    (Option.any (fun f => decide (
      let r := copyBales f.fn (copySrc f) (copyDst f) (copyStride f) (copyCount f) (copyCount f) 0 0
        { st := s2_14, moved := 0, poisoned := 0, cause := 0, checks := [], badHdr := none, down := false };
        copyRaw f = false ∧ copyChecks f = [] ∧ copyCount f ≠ 0 ∧ r.checks = [] ∧ r.cause ≠ 0 ∧ Option.any (fun
        a => decide ((s2_14.place f.fn (copyDst f) 0).toOption.isSome = true)) (s2_14.place f.fn (copySrc f)
        0).toOption = true)) (s2_14.ready 1 0 0 3) = true) ∧
    (Option.any (fun f => decide (copyRaw f = false ∧ copyChecks f = [] ∧ copyCount f = 1 ∧
      let h := readHdr (s2_13.readGddr f.fn 0 64); s2_13.place f.fn (copySrc f) 64 = Except.ok (Place.gddr 0)
        ∧ copyHdrBad f.fn h = none ∧ h.size ≠ 0 ∧ s2_13.place f.fn (copySrc f) h.size = Except.ok (Place.gddr 0)
        ∧ s2_13.placeDown f.fn (Place.gddr 0) 64 = false ∧ s2_13.placeDown f.fn (Place.gddr 0) h.size = false ∧
        s2_13.gddrBad f.fn 0 h.size = false ∧ s2_13.place f.fn (copyDst f) h.size = Except.ok (Place.host 65536)
        ∧ s2_13.destFailed f.fn (Place.host 65536) h.size = [] ∧ s2_13.place f.fn (copySrc f) 0 = Except.ok
        (Place.gddr 0) ∧ s2_13.place f.fn (copyDst f) 0 = Except.ok (Place.host 65536) ∧ (0 < 65536 ∨ 65536 +
        h.size ≤ 0))) (s2_13.ready 1 0 0 3) = true) := by
  decide +kernel

theorem wit_ShedOperationsMovePages :
    (Option.any (fun f => decide (Option.any (fun x => decide (Option.any (fun xs => decide (w2_15.shedChecks f
    false = x :: xs)) (some (w2_15.shedChecks f false).tail) = true)) (w2_15.shedChecks f false).head? = true))
    (w2_15.ready 1 0 0 (if false = true then 5 else 4)) = true) ∧
    (Option.any (fun f => decide (s2_20.shedChecks f true = [] ∧ shedCount f = 0)) (s2_20.ready 1 0 0 (if true =
    true then 5 else 4)) = true) ∧
    (Option.any (fun f => decide (s2_16.shedChecks f false = [] ∧ shedCount f ≠ 0)) (s2_16.ready 1 0 0 (if false
    = true then 5 else 4)) = true) ∧
    (State.reset.shedOpAt 0 0 0 0 false = none ∨ State.reset.windowOpen (36 + 0) 0 = false) ∧
    (Option.any (fun o => decide (
      let pg := w2_16.opPage o 0; (tabFind w2_16.shed.maps pg).isSome = true ∧ w2_16.windowOpen (36 + 0) 1 =
        true ∧ w2_16.shedDown 0 = true)) (w2_16.shedOpAt 1 0 0 0 false) = true) ∧
    (Option.any (fun o => decide (
      let pg := s2_22.opPage o 0; s2_22.windowOpen (36 + 0) 1 = true ∧ (s2_22.shedDown 0 = false ∨ tabFind
        s2_22.shed.maps pg = none) ∧ (true = true ∨ tabFind s2_22.shed.maps pg = none) ∧ s2_22.place o.fn
        (o.addr + 0 * pageSize) pageSize = Except.ok (Place.host 65536))) (s2_22.shedOpAt 1 0 0 0 false) = true) ∧
    (Option.any (fun o => decide (
      let pg := y2_1.opPage o 0; (tabFind y2_1.shed.maps pg).isSome = true ∧ y2_1.windowOpen (36 + 0) 1 = true
        ∧ (y2_1.shedDown 0 = false ∨ tabFind y2_1.shed.maps pg = none) ∧ false = false ∧ y2_1.place o.fn (o.addr
        + 0 * pageSize) pageSize = Except.ok (Place.host 65536))) (y2_1.shedOpAt 1 0 0 0 false) = true) ∧
    (Option.any (fun o => decide (
      let pg := s2_22.opPage o 0; s2_22.windowOpen (36 + 0) 1 = true ∧ (s2_22.shedDown 0 = false ∨ tabFind
        s2_22.shed.maps pg = none) ∧ s2_22.place o.fn (o.addr + 0 * pageSize) pageSize = Except.ok (Place.host
        65536) ∧ (0 < 65536 ∨ 65536 + pageSize ≤ 0))) (s2_22.shedOpAt 1 0 0 0 false) = true) := by
  decide +kernel

theorem wit_ShedOperationsMovePages_2 :
    (Option.any (fun o => decide (
      let pg := y2_2.opPage o 0; o.left = [0] ∧ Option.any (fun g => decide (g.muted = false ∧
        y2_2.internalAux g.fn = none ∧ y2_2.windowOpen (36 + 0) 1 = true ∧ (y2_2.shedDown 0 = false ∨ tabFind
        y2_2.shed.maps pg = none) ∧ true = true ∧ y2_2.place o.fn (o.addr + 0 * pageSize) pageSize = Except.ok
        (Place.host 65536))) (List.find? (fun h => h.seq == o.seq) y2_2.host.flights) = true)) (y2_2.shedOpAt 1
        0 0 0 false) = true) ∧
    (State.reset.shedOpAt 0 0 0 0 true = none ∨ State.reset.windowOpen (36 + 0) 0 = false) ∧
    ((s2_24.shed.ops.any fun o => decide (
      let staged := o.staging 0; s2_24.shedOpAt 1 0 0 0 true = some o ∧ s2_24.windowOpen (36 + 0) 1 = true ∧
        s2_24.shedDown 0 = false ∧ 0 ≤ staged.1)) = true) ∧
    ((s2_24.shed.ops.any fun o => decide (
      let staged := o.staging 1; s2_24.shedOpAt 1 0 0 1 true = some o ∧ (2 ≤ staged.1 ∨ s2_24.flag
        CLK_STATUS_VIN_WARN = false) ∧ s2_24.windowOpen (36 + 0) 1 = true ∧ s2_24.shedDown 0 = false ∧ staged.1
        < 6 ∧ 6 = 6 ∧ (staged.1 = 0 ∧ s2_24.place o.fn (o.addr + 1 * pageSize) pageSize = Except.ok (Place.host
        81920) ∧ True ∨ staged.1 ≠ 0 ∧ s2_24.readHost 81920 pageSize = staged.2 ∧ (s2_24.readHost 81920
        pageSize).length = pageSize))) = true) ∧
    ((s2_24.shed.ops.any fun o => decide (
      let pg := s2_24.opPage o 1;
      let staged := o.staging 1; s2_24.shedOpAt 1 0 0 1 true = some o ∧ (2 ≤ staged.1 ∨ s2_24.flag
        CLK_STATUS_VIN_WARN = false) ∧ s2_24.windowOpen (36 + 0) 1 = true ∧ s2_24.shedDown 0 = false ∧ staged.1
        < 6 ∧ 6 = 6 ∧ (staged.1 = 0 ∧ s2_24.place o.fn (o.addr + 1 * pageSize) pageSize = Except.ok (Place.host
        81920) ∧ True ∨ staged.1 ≠ 0 ∧ s2_24.readHost 81920 pageSize = staged.2 ∧ (s2_24.readHost 81920
        pageSize).length = pageSize) ∧ 0 ≠ pg)) = true) ∧
    ((s2_24.shed.ops.any fun o => decide (
      let pg := s2_24.opPage o 1;
      let staged := o.staging 1; s2_24.shedOpAt 1 0 0 1 true = some o ∧ (2 ≤ staged.1 ∨ s2_24.flag
        CLK_STATUS_VIN_WARN = false) ∧ s2_24.windowOpen (36 + 0) 1 = true ∧ s2_24.shedDown 0 = false ∧ staged.1
        < 6 ∧ 6 = 6 ∧ (staged.1 = 0 ∧ s2_24.place o.fn (o.addr + 1 * pageSize) pageSize = Except.ok (Place.host
        81920) ∧ True ∨ staged.1 ≠ 0 ∧ s2_24.readHost 81920 pageSize = staged.2 ∧ (s2_24.readHost 81920
        pageSize).length = pageSize) ∧ (0 < pg * pageSize ∨ (pg + 1) * pageSize ≤ 0))) = true) ∧
    ((s2_24.shed.ops.any fun o => decide (
      let staged := o.staging 1; s2_24.shedOpAt 1 0 0 1 true = some o ∧ s2_24.windowOpen (36 + 0) 1 = true ∧
        s2_24.shedDown 0 = false ∧ staged.1 < 1 ∧ (1 < 6 ∨ staged.1 < 2 ∧ s2_24.flag CLK_STATUS_VIN_WARN = true)
        ∧ (staged.1 = 0 ∧ s2_24.place o.fn (o.addr + 1 * pageSize) pageSize = Except.ok (Place.host 81920) ∧
        True ∨ staged.1 ≠ 0 ∧ s2_24.readHost 81920 pageSize = staged.2 ∧ (s2_24.readHost 81920 pageSize).length
        = pageSize))) = true) := by
  decide +kernel

theorem wit_TimeSetAndReplayArm :
    (Option.any (fun f => decide (Option.any (fun x => decide (Option.any (fun xs => decide (timeSetChecks w2_17
    f = x :: xs)) (some (timeSetChecks w2_17 f).tail) = true)) (timeSetChecks w2_17 f).head? = true))
    (w2_17.ready 0 0 0 9) = true) ∧
    (Option.any (fun f => decide (
      let apply := fieldAt f.bytes 8 1; timeSetChecks s2_26 f = [] ∧ apply.testBit 0 = true ∧ regKey
        YTM_PERIOD_EPOCH.off 0 ≠ regKey 0 0)) (s2_26.ready 0 0 0 9) = true) ∧
    (Option.any (fun f => decide (
      let apply := fieldAt f.bytes 8 1; timeSetChecks s2_28 f = [] ∧ apply = 2)) (s2_28.ready 0 0 0 9) = true) ∧
    (Option.any (fun f => decide (
      let apply := fieldAt f.bytes 8 1; timeSetChecks s2_30 f = [] ∧ apply = 0)) (s2_30.ready 0 0 0 9) = true) ∧
    (Option.any (fun f => decide (fieldAt f.bytes 8 1 % 2 = 0)) (s2_28.ready 0 0 0 9) = true) ∧
    (Option.any (fun f => decide (fieldAt f.bytes 8 1 % 4 ≠ 2)) (s2_26.ready 0 0 0 9) = true) ∧
    (Option.any (fun f => decide (fieldAt f.bytes 8 1 % 4 ≠ 0)) (s2_26.ready 0 0 0 9) = true) ∧
    (Option.any (fun f => decide (Option.any (fun x => decide (Option.any (fun xs => decide (armFields f = x ::
    xs)) (some (armFields f).tail) = true)) (armFields f).head? = true)) (w2_18.ready 1 0 0 10) = true) ∧
    (Option.any (fun f => decide (
      let p := f.fn - 1;
      let check := dayS.armCheck p (armPlan f) (armSeq f) (armCount f) (armImport f); armFields f = [] ∧ check
        = Except.error 48)) (dayS.ready 1 0 0 10) = true) ∧
    (Option.any (fun f => decide (
      let p := f.fn - 1;
      let check := w2_20.armCheck p (armPlan f) (armSeq f) (armCount f) (armImport f); armFields f = [] ∧
        armCount f = 0 ∧ check.toOption.isSome = true)) (w2_20.ready 1 0 0 10) = true) ∧
    (Option.any (fun f => decide (
      let p := f.fn - 1;
      let check := s2_34.armCheck p (armPlan f) (armSeq f) (armCount f) (armImport f); armFields f = [] ∧
        armCount f ≠ 0 ∧ check.toOption.isSome = true)) (s2_34.ready 1 0 0 10) = true) := by
  decide +kernel

theorem wit_PartitionLifecycle :
    (free0.gddrs.marked = [] ∧ free0.prtState 0 = 0 ∧ free0.prtCause 0 = none ∧ bitOf 1 0 = true ∧ bitOf 1 1 =
    false) ∧
    (free0.prtState 0 = 0 ∧ free0.prtCause 0 = none ∧ bitOf 1 0 = true ∧ bitOf 1 1 = false ∧ 1 ≠ 0) ∧
    (State.reset.flag PRT_STATUS_SETUP_ERR = false ∧ State.reset.prtState 0 = 0 ∧ Option.any (fun c => decide
    (bitOf 1 0 = true ∧ bitOf 1 1 = false)) (State.reset.prtCause 0) = true) ∧
    (act.prtState 0 = 1 ∧ bitOf 2 1 = true ∧ 1 ≠ 0) ∧
    (State.reset.flag PRT_STATUS_SETUP_ERR = false ∧ State.reset.prtState 0 ≠ 1 ∧ bitOf 2 1 = true) ∧
    (tabFind State.reset.parts.release 0 ≠ some 1) ∧
    (tabFind s3_1.parts.release 0 = some 1 ∧ s3_1.workEnded 0 = false) ∧
    (tabFind s3_2.parts.release 0 = some 1 ∧ s3_2.workEnded 0 = true ∧ 2 ^ 48 / 2 ^ 48 = 0 + 1) ∧
    (tabFind s3_2.parts.release 0 = some 1 ∧ s3_2.workEnded 0 = true ∧ 0 / 2 ^ 48 ≠ 0 + 1) ∧
    (tabFind s3_2.parts.release 0 = some 1 ∧ s3_2.workEnded 0 = true ∧ ((s3_2.coresOf 0).any fun c => decide (0
    < 2 ^ 22)) = true) ∧
    (tabFind s3_2.parts.release 0 = some 1 ∧ s3_2.workEnded 0 = true ∧ 16 ∉ s3_2.coresOf 0 ∧ 0 < 2 ^ 22) ∧
    (tabFind State.reset.parts.release 0 ≠ some 2) ∧
    (tabFind s3_3.parts.release 0 = some 2) ∧
    (bitOf 0 1 = false ∧ (bitOf 0 0 = false ∨ State.reset.prtState 0 ≠ 0) ∧ ([Instr.prtWhistleWrite 0 0,
    Instr.prtEnable 0 0].any fun c => decide (regKey (PRT_CTRL 0) 0 ≠ regKey 0 0)) = true) := by
  decide +kernel

theorem wit_OwnerConfiguresIdlePartitions :
    (State.reset.prtState 0 = 0 ∧
      let off := 4194560 + 64 * 0 + 16; 8 ≤ 16 ∧ 16 ≤ 36 ∧ 16 % 4 = 0 ∧ Option.any (fun row => decide (regKey
        off 0 ≠ regKey 0 0)) (rowOf off) = true) ∧
    (act.flag PRT_STATUS_SETUP_ERR = false ∧ act.prtState 0 ≠ 0 ∧
      let off := 4194560 + 64 * 0 + 16; 8 ≤ 16 ∧ 16 ≤ 36 ∧ 16 % 4 = 0 ∧ (rowOf off).isSome = true) ∧
    (State.reset.allFree = true) ∧
    (act.allFree = false ∧ act.flag PRT_STATUS_SETUP_ERR = false) ∧
    (s3_4.flag PRT_MODE_SIGNED = true ∧ s3_4.allFree = true ∧ bitOf 1 0 = true) ∧
    ((State.reset.flag PRT_MODE_SIGNED = false ∨ State.reset.allFree = false) ∧ State.reset.flag
    PRT_STATUS_SETUP_ERR = false ∧ bitOf 1 0 = true) ∧
    (bitOf 0 0 = false) ∧
    (State.reset.executing = false) ∧
    (s3_5.executing = true) := by
  decide +kernel

theorem wit_BellDeliversAndCompletes :
    (tabFind s3_6.bell.decided 1 = none ∧ 80 < fenceSize 1 ∧ s3_6.deliverable 1 80 = true ∧ ∀ k < 80,
    s3_6.deliverable 1 k = false) ∧
    (∀ k < fenceSize 0, State.reset.deliverable 0 k = false) ∧
    (Option.any (fun d => decide (d.src < 1024 ∧ s3_12.bellP 1 d.src = false)) (tabFind s3_12.bell.decided 1) =
    true) ∧
    (s3_8.msixOpen 1 = true ∧ Option.any (fun d => decide (
      let v := s3_8.msixVec 1 d.vec; d.src < 1024 ∧ s3_8.bellP 1 d.src = true ∧ v.masked = false ∧ (d.compat =
        true ∨ s3_8.bellMasked 1 d.src = false))) (tabFind s3_8.bell.decided 1) = true) ∧
    (Option.any (fun d => decide (
      let v := s3_10.msixVec 1 d.vec; d.src < 1024 ∧ s3_10.bellP 1 d.src = true ∧ (s3_10.msixOpen 1 = false ∨
        v.masked = true ∨ d.compat = false ∧ s3_10.bellMasked 1 d.src = true))) (tabFind s3_10.bell.decided 1) =
        true) ∧
    (Option.any (fun d => decide (
      let v := s3_10.msixVec 1 d.vec; d.src < 1024 ∧ s3_10.bellP 1 d.src = true ∧ (s3_10.msixOpen 1 = false ∨
        v.masked = true ∨ d.compat = false ∧ s3_10.bellMasked 1 d.src = true) ∧ v.masked = true)) (tabFind
        s3_10.bell.decided 1) = true) ∧
    (s3_13.fnLive 1 = true ∧
      let src := getBits 80 0 12; getBits 80 12 20 = 0 ∧ bellAssigned 1 src = true ∧ s3_13.bellA 1 src = true) ∧
    (State.reset.fnLive 0 = true ∧
      let src := getBits 0 0 12; getBits 0 12 20 = 0 ∧ bellAssigned 0 src = true ∧ State.reset.bellA 0 src =
        false) ∧
    (State.reset.fnLive 0 = true ∧ State.reset.flag BEL_STATUS_VIOL = false ∧
      let src := getBits 4095 0 12; getBits 4095 12 20 = 0 ∧ bellAssigned 0 src = false) := by
  decide +kernel

theorem wit_BellRaises :
    (bellOn.fnLive 1 = true ∧ pageFn 0 = 1 ∧
      let src := getBits 80 0 12; getBits 80 12 19 = 0 ∧ bellSoftware 1 src = true ∧ bellOn.bellP 1 src =
        false ∧ bellOn.bellA 1 src = false ∧ bitOf (bellOn.reg BEL_ENABLE (bellInst 1 src)) (src % 32) = true) ∧
    (act.fnLive 1 = true ∧ pageFn 0 = 1 ∧
      let src := getBits 80 0 12; getBits 80 12 19 = 0 ∧ bellSoftware 1 src = true ∧ act.bellP 1 src = false ∧
        act.bellA 1 src = false ∧ bitOf (act.reg BEL_ENABLE (bellInst 1 src)) (src % 32) = false) ∧
    (s3_13.fnLive 1 = true ∧ pageFn 0 = 1 ∧
      let src := getBits 80 0 12; getBits 80 12 19 = 0 ∧ bellSoftware 1 src = true ∧ s3_13.bellA 1 src = true
        ∧ s3_13.bellP 1 src = false) ∧
    (act.fnLive 1 = true ∧ act.flag BEL_STATUS_VIOL 1 = false ∧ pageFn 0 = 1 ∧
      let src := getBits 0 0 12; getBits 0 12 19 = 0 ∧ bellSoftware 1 src = false) ∧
    (s3_13.fnLive 1 = true ∧ pageFn 0 = 1 ∧
      let src := getBits 80 0 12; getBits 80 12 19 = 0 ∧ bellAssigned 1 src = true ∧ s3_13.bellA 1 src = true) ∧
    (State.reset.fnLive 0 = true ∧ 0 < 32) ∧
    (s3_16.fnLive 1 = true ∧
      let src := 32 * s3_16.fld BEL_SEL_GROUP 1 + 16; 16 < 32 ∧ s3_16.bellP 1 src = true ∧ bellAssigned 1 src
        = true ∧ bitOf 65601 16 = true) ∧
    (s3_17.clk.ccOn = true ∧ (List.any s3_17.bell.latches fun l => decide (bellAssigned 0 l.1 = true ∧
    s3_17.bellA 0 l.1 = false ∧ bitOf (s3_17.reg BEL_ENABLE (bellInst 0 l.1)) (l.1 % 32) = true)) = true) := by
  decide +kernel

theorem wit_PoolRegisters :
    (poolCfg.kvOn 0 = false ∧ poolCfg.ostCause 0 = none ∧ 1 = 0 + 1 ∧ poolCfg.fnLive 1 = true ∧ bitOf 1 0 =
    true) ∧
    (act.kvOn 0 = false ∧ act.flag OST_STATUS_SETUP_ERR = false ∧ Option.any (fun c => decide (1 = 0 + 1 ∧
    act.fnLive 1 = true ∧ bitOf 1 0 = true)) (act.ostCause 0) = true) ∧
    (poolOn.kvOn 0 = true ∧ poolOn.openStreams 0 = [] ∧ 1 = 0 + 1 ∧ poolOn.fnLive 1 = true ∧ bitOf 0 0 = false) ∧
    (s3_19.kvOn 0 = true ∧ s3_19.openStreams 0 ≠ [] ∧ s3_19.flag OST_STATUS_SETUP_ERR = false ∧ 1 = 0 + 1 ∧
    s3_19.fnLive 1 = true ∧ bitOf 0 0 = false) ∧
    (act.kvOn 0 = false ∧ 1 = 0 + 1 ∧ act.fnLive 1 = true) ∧
    (poolOn.kvOn 0 = true ∧ poolOn.flag OST_STATUS_SETUP_ERR = false ∧ 1 = 0 + 1 ∧ poolOn.fnLive 1 = true ∧
      let n := getBits 0 0 23;
      let f := if false = true then OST_HOST_FRAMES_COUNT else OST_POOL_FRAMES_COUNT;
      let u := poolOn.setFld f 0 n; n < poolOn.fld f ∨ u.overQuota 0 = true ∨ u.regionsBad 0 = true) ∧
    (poolOn.kvOn 0 = true ∧ (∀ x ∈ poolOn.kv.stalls, x.1 ≠ 0) ∧ 1 = 0 + 1 ∧ poolOn.fnLive 1 = true ∧
      let n := getBits 0 0 23;
      let f := if true = true then OST_HOST_FRAMES_COUNT else OST_POOL_FRAMES_COUNT;
      let u := poolOn.setFld f 0 n; poolOn.fld f ≤ n ∧ u.overQuota 0 = false ∧ u.regionsBad 0 = false) := by
  decide +kernel

theorem wit_OwnerQuotasAndPedigreeKeys :
    (
      let rest := (List.map (fun k => if k = 0 then 0 else State.reset.fld (OST_PART_FRAMES_QUOTA ↑k))
        (List.finRange 32)).sum;
      let used := if State.reset.kvOn 0 = true then State.reset.fld OST_POOL_FRAMES_COUNT + State.reset.fld
        OST_HOST_FRAMES_COUNT else 0;
      let q := getBits 0 0 23; rest + q ≤ 4194304 ∧ used ≤ q ∧ regKey (OST_PART_FRAMES_QUOTA 0).off 0 ≠ regKey
        0 0) ∧
    (
      let rest := (List.map (fun k => if k = 0 then 0 else poolOn.fld (OST_PART_FRAMES_QUOTA ↑k))
        (List.finRange 32)).sum;
      let used := if poolOn.kvOn 0 = true then poolOn.fld OST_POOL_FRAMES_COUNT + poolOn.fld
        OST_HOST_FRAMES_COUNT else 0;
      let q := getBits 0 0 23; (4194304 < rest + q ∨ q < used) ∧ regKey (OST_PART_STATUS_QUOTA_ERR 0).off 0 ≠
        regKey 0 0) ∧
    (
      let rest := (List.map (fun k => if k = 0 then 0 else State.reset.fld (PED_PART_NODES_QUOTA ↑k))
        (List.finRange 32)).sum;
      let q := getBits 0 0 21; rest + q ≤ 1048576 ∧ regKey (PED_PART_NODES_QUOTA 0).off 0 ≠ regKey 0 0) ∧
    (
      let rest := (List.map (fun k => if k = 0 then 0 else State.reset.fld (PED_PART_NODES_QUOTA ↑k))
        (List.finRange 32)).sum;
      let q := getBits 1048577 0 21; 1048576 < rest + q ∧ regKey (OST_PART_STATUS_QUOTA_ERR 0).off 0 ≠ regKey
        0 0) ∧
    (s1_7.isolated = true) ∧
    (State.reset.isolated = false ∧ 0 ≠ 3) ∧
    (State.reset.isolated = false ∧ 3 = 3) := by
  decide +kernel

theorem wit_StreamMarksOpenCommitClose :
    (Option.any (fun f => decide (kvSub f = 1 ∧ Option.any (fun x => decide (Option.any (fun xs => decide
    (w4_1.kvChecks f = x :: xs)) (some (w4_1.kvChecks f).tail) = true)) (w4_1.kvChecks f).head? = true))
    (w4_1.ready 1 0 0 6) = true) ∧
    (Option.any (fun f => decide (kvSub f = 3 ∧ Option.any (fun x => decide (Option.any (fun xs => decide
    (w4_2.kvChecks f = x :: xs)) (some (w4_2.kvChecks f).tail) = true)) (w4_2.kvChecks f).head? = true))
    (w4_2.ready 1 0 0 6) = true) ∧
    (Option.any (fun f => decide (kvSub f = 4 ∧ Option.any (fun x => decide (Option.any (fun xs => decide
    (w4_3.kvChecks f = x :: xs)) (some (w4_3.kvChecks f).tail) = true)) (w4_3.kvChecks f).head? = true))
    (w4_3.ready 1 0 0 6) = true) ∧
    (Option.any (fun f => decide (
      let p := f.fn - 1;
      let sid := kvSid f; s4_2.kvChecks f = [] ∧ kvSub f = 1 ∧ 1 ≠ streamKey p sid)) (s4_2.ready 1 0 0 6) =
        true) ∧
    (Option.any (fun f => decide (
      let p := f.fn - 1;
      let sid := kvSid f; s4_4.kvChecks f = [] ∧ kvSub f = 3 ∧ ((kvArg1 f).testBit 0 = true ∨ kvArg0 f ≠ 0) ∧
        Option.any (fun x => decide (x.foc = false ∧ 1 ≠ streamKey p sid)) (s4_4.stream p sid) = true))
        (s4_4.ready 1 0 0 6) = true) ∧
    (Option.any (fun f => decide (
      let p := f.fn - 1;
      let sid := kvSid f; w4_4.kvChecks f = [] ∧ kvSub f = 3 ∧ ((kvArg1 f).testBit 0 = true ∨ kvArg0 f ≠ 0) ∧
        Option.any (fun x => decide (x.foc = true)) (w4_4.stream p sid) = true)) (w4_4.ready 1 0 0 6) = true) ∧
    (Option.any (fun f => decide (
      let p := f.fn - 1;
      let sid := kvSid f; s4_8.kvChecks f = [] ∧ kvSub f = 3 ∧ (kvArg1 f).testBit 0 = false ∧ kvArg0 f = 0 ∧
        (s4_8.stream p sid).isSome = true)) (s4_8.ready 1 0 0 6) = true) ∧
    (Option.any (fun f => decide (
      let p := f.fn - 1;
      let sid := kvSid f; s4_10.kvChecks f = [] ∧ kvSub f = 4 ∧ Option.any (fun x => decide (∀ e ∈ x.table,
        e.2 ≠ 0)) (s4_10.stream p sid) = true)) (s4_10.ready 1 0 0 6) = true) ∧
    (Option.any (fun f => decide (
      let p := f.fn - 1;
      let sid := kvSid f; s4_10.kvChecks f = [] ∧ kvSub f = 4 ∧ Option.any (fun x => decide (∃ e ∈ x.table,
        e.2 = 3 ∧ s4_10.refs p 3 = 1)) (s4_10.stream p sid) = true)) (s4_10.ready 1 0 0 6) = true) ∧
    (Option.any (fun f => decide (
      let p := f.fn - 1;
      let sid := kvSid f; s4_10.kvChecks f = [] ∧ kvSub f = 4 ∧ Option.any (fun x => decide (1 ≠ streamKey p
        sid)) (s4_10.stream p sid) = true)) (s4_10.ready 1 0 0 6) = true) := by
  decide +kernel

theorem wit_StreamFlushReachesCommit :
    (Option.any (fun f => decide (kvSub f = 2 ∧ Option.any (fun x => decide (Option.any (fun xs => decide
    (s4_15.kvChecks f = x :: xs)) (some (s4_15.kvChecks f).tail) = true)) (s4_15.kvChecks f).head? = true))
    (s4_15.ready 1 0 0 6) = true) ∧
    (Option.any (fun f => decide (kvSub f = 2 ∧ s4_12.kvChecks f = [] ∧ (s4_12.stream (f.fn - 1) (kvSid
    f)).isSome = true)) (s4_12.ready 1 0 0 6) = true) ∧
    (List.filter (fun e => e.1 == 0) s4_14.kv.stalls = [(0, 0)] ∧ (s4_14.stream 0 0).isSome = true) ∧
    (∀ e ∈ State.reset.kv.stalls, ¬e.1 = 0) := by
  decide +kernel

theorem wit_StreamForkAndPedigree :
    (Option.any (fun f => decide (kvSub f = 5 ∧ Option.any (fun x => decide (Option.any (fun xs => decide
    (w4_5.kvChecks f = x :: xs)) (some (w4_5.kvChecks f).tail) = true)) (w4_5.kvChecks f).head? = true))
    (w4_5.ready 1 0 0 6) = true) ∧
    (Option.any (fun f => decide (kvSub f = 6 ∧ Option.any (fun x => decide (Option.any (fun xs => decide
    (w4_6.kvChecks f = x :: xs)) (some (w4_6.kvChecks f).tail) = true)) (w4_6.kvChecks f).head? = true))
    (w4_6.ready 1 0 0 6) = true) ∧
    (Option.any (fun f => decide (kvSub f = 7 ∧ Option.any (fun x => decide (Option.any (fun xs => decide
    (w4_7.kvChecks f = x :: xs)) (some (w4_7.kvChecks f).tail) = true)) (w4_7.kvChecks f).head? = true))
    (w4_7.ready 1 0 0 6) = true) ∧
    (Option.any (fun f => decide (
      let p := f.fn - 1; s4_17.kvChecks f = [] ∧ kvSub f = 5 ∧ Option.any (fun par => decide (tabWf
        par.table)) (s4_17.stream p (kvArg0 f % 2 ^ 32)) = true)) (s4_17.ready 1 0 0 6) = true) ∧
    (tabWf s4_19.kv.nodes ∧ Option.any (fun f => decide (
      let p := f.fn - 1;
      let sid := kvSid f; s4_19.kvChecks f = [] ∧ kvSub f = 6 ∧ (s4_19.nodesOf p).length ≤ s4_19.fld
        (PED_PART_NODES_QUOTA p) ∧ (s4_19.stream p sid).isSome = true)) (s4_19.ready 1 0 0 6) = true) ∧
    (Option.any (fun f => decide (
      let p := f.fn - 1;
      let sid := kvSid f; w4_8.kvChecks f = [] ∧ kvSub f = 7 ∧ kvArg1 f % 2 ^ 32 ≠ 0 ∧ Option.any (fun pl =>
        decide ((w4_8.badAt f.fn pl (4 * (kvArg1 f % 2 ^ 32)) = true ∨ w4_8.placeDown f.fn pl (4 * (kvArg1 f % 2
        ^ 32)) = true) ∧ (w4_8.stream p sid).isSome = true)) (w4_8.place f.fn (kvArg0 f) (4 * (kvArg1 f % 2 ^
        32))).toOption = true)) (w4_8.ready 1 0 0 6) = true) ∧
    (Option.any (fun f => decide (
      let p := f.fn - 1;
      let sid := kvSid f; s4_21.kvChecks f = [] ∧ kvSub f = 7 ∧ kvArg1 f % 2 ^ 32 ≠ 0 ∧ Option.any (fun pl =>
        decide (s4_21.badAt f.fn pl (4 * (kvArg1 f % 2 ^ 32)) = false ∧ s4_21.placeDown f.fn pl (4 * (kvArg1 f %
        2 ^ 32)) = false ∧ (s4_21.stream p sid).isSome = true)) (s4_21.place f.fn (kvArg0 f) (4 * (kvArg1 f % 2
        ^ 32))).toOption = true)) (s4_21.ready 1 0 0 6) = true) ∧
    (Option.any (fun f => decide (s4_23.kvChecks f = [] ∧ kvSub f = 7 ∧ kvArg1 f % 2 ^ 32 = 0)) (s4_23.ready 1 0
    0 6) = true) ∧
    (Option.any (fun f => decide (1 ≤ kvSub f ∧ kvSub f < 8)) (s4_2.ready 1 0 0 6) = true) ∧
    (Option.any (fun f => decide (kvSub f = 0 ∨ 8 ≤ kvSub f)) (s4_25.ready 1 0 0 6) = true) := by
  decide +kernel

theorem wit_StepLifecycle :
    (s5_2.flag CLK_STATUS_VIN_WARN = false ∧ Option.any (fun st => decide (st.running = false ∧ st.startBeat ≤
    s5_2.beat ∧ (s5_2.stepPlan 0).isSome = true)) (s5_2.stepOf 0) = true) ∧
    (Option.any (fun st => decide ((s3_5.beat < st.startBeat ∨ st.running = true ∨ s3_5.flag CLK_STATUS_VIN_WARN
    = true) ∧ (s3_5.stepPlan 0).isSome = true)) (s3_5.stepOf 0) = true) ∧
    (Option.any (fun st => decide (Option.any (fun pl => decide (st.gnfFinal = true ∨ st.running = false ∨ ∃ r ∈
    st.colls, r.done = false ∧ (Option.map (fun x => x.grad) pl.colls[r.coll]?).getD false = true))
    (s5_2.stepPlan 0) = true)) (s5_2.stepOf 0) = true) ∧
    (Option.any (fun st => decide (st.gnfFinal = false ∧ st.running = true ∧ Option.any (fun pl => decide ((∀ r
    ∈ st.colls, r.done = true ∨ (Option.map (fun x => x.grad) pl.colls[r.coll]?).getD false = false) ∧
    s3_5.coresOf 0 ≠ [])) (s3_5.stepPlan 0) = true)) (s3_5.stepOf 0) = true) ∧
    (Option.any (fun st => decide (Option.any (fun pl => decide (s3_5.stepEnded 0 st pl = false ∧ (List.find?
    (fun f => f.seq == st.seq) s3_5.host.flights).isSome = true)) (s3_5.stepPlan 0) = true)) (s3_5.stepOf 0) =
    true) ∧
    (s5_8.internalAux (0 + 1) = none ∧ Option.any (fun st => decide (Option.any (fun pl => decide
    (s5_8.stepEnded 0 st pl = true ∧ (List.find? (fun f => f.seq == st.seq) s5_8.host.flights).isSome = true))
    (s5_8.stepPlan 0) = true)) (s5_8.stepOf 0) = true) ∧
    (Option.any (fun st => decide (Option.any (fun pl => decide (y5_3.stepEnded 0 st pl = true ∧ Option.any (fun
    f => decide ((y5_3.internalAux (0 + 1)).isSome = true)) (List.find? (fun f => f.seq == st.seq)
    y5_3.host.flights) = true)) (y5_3.stepPlan 0) = true)) (y5_3.stepOf 0) = true) ∧
    (Option.any (fun st => decide (Option.any (fun pl => decide (s5_8.stepEnded 0 st pl = true ∧ Option.any (fun
    f => decide (s5_8.coresOf 0 ≠ [])) (List.find? (fun f => f.seq == st.seq) s5_8.host.flights) = true))
    (s5_8.stepPlan 0) = true)) (s5_8.stepOf 0) = true) ∧
    (Option.any (fun st => decide (Option.any (fun pl => decide (s5_8.stepEnded 0 st pl = true ∧ Option.any (fun
    f => decide (1 ≠ 0)) (List.find? (fun f => f.seq == st.seq) s5_8.host.flights) = true)) (s5_8.stepPlan 0) =
    true)) (s5_8.stepOf 0) = true) ∧
    (Option.any (fun st => decide (Option.any (fun pl => decide (y5_4.stepEnded 0 st pl = true ∧ Option.any (fun
    f => decide (f.muted = true)) (List.find? (fun f => f.seq == st.seq) y5_4.host.flights) = true))
    (y5_4.stepPlan 0) = true)) (y5_4.stepOf 0) = true) ∧
    (stepStatuses d5_1 ≠ []) := by
  decide +kernel

theorem wit_BoundaryAndMigrations :
    (s3_5.atBoundary 0 = false) ∧
    (State.reset.allBoundary = true ∧ State.reset.atBoundary 0 = true) ∧
    (s3_5.allBoundary = false ∧ s3_5.atBoundary 1 = true) ∧
    ((∀ m ∈ State.reset.yard.migrations, m.part ≠ 0) ∨ State.reset.atBoundary 0 = false ∨ (State.reset.stepOf
    0).isSome = true ∨ State.reset.fld YMS_MIG_LIMIT_MIB ≤ tabGet 0 State.reset.yard.migDone 0) ∧
    (s5_10.atBoundary 0 = true ∧ s5_10.stepOf 0 = none ∧ tabGet 0 s5_10.yard.migDone 0 < s5_10.fld
    YMS_MIG_LIMIT_MIB ∧ Option.any (fun m => decide (m.chunks ≤ 1 ∧ (s5_10.planOf 0 m.plan).isSome = true))
    (List.find? (fun m => m.part == 0) s5_10.yard.migrations) = true) ∧
    (s5_10.atBoundary 0 = true ∧ s5_10.stepOf 0 = none ∧ tabGet 0 s5_10.yard.migDone 0 < s5_10.fld
    YMS_MIG_LIMIT_MIB ∧ Option.any (fun m => decide (m.chunks ≤ 1 ∧ m.kind = 1 ∧ (s5_10.planOf 0 m.plan).isSome
    = true)) (List.find? (fun m => m.part == 0) s5_10.yard.migrations) = true) ∧
    (s5_14.atBoundary 0 = true ∧ s5_14.stepOf 0 = none ∧ tabGet 0 s5_14.yard.migDone 0 < s5_14.fld
    YMS_MIG_LIMIT_MIB ∧ Option.any (fun m => decide (m.chunks ≤ 1 ∧ m.kind = 3 ∧ (s5_14.planOf 0 m.plan).isSome
    = true)) (List.find? (fun m => m.part == 0) s5_14.yard.migrations) = true) ∧
    (s5_12.atBoundary 0 = true ∧ s5_12.stepOf 0 = none ∧ tabGet 0 s5_12.yard.migDone 0 < s5_12.fld
    YMS_MIG_LIMIT_MIB ∧ Option.any (fun m => decide (1 < m.chunks ∧ (s5_12.planOf 0 m.plan).isSome = true))
    (List.find? (fun m => m.part == 0) s5_12.yard.migrations) = true) ∧
    (Option.any (fun pl => decide ((s2_6.expert 0 0 pl 0).shed = false ∨ s2_6.stepOf 0 = none)) (s2_6.planOf 0
    0) = true) ∧
    (Option.any (fun st => decide (st.running = true ∧ st.plan = 0 ∧ Option.any (fun pl => decide ((s5_15.expert
    0 0 pl 0).shed = true ∧ expertKey 0 0 1 ≠ expertKey 0 0 0)) (s5_15.planOf 0 0) = true)) (s5_15.stepOf 0) =
    true) := by
  decide +kernel

theorem wit_FetchesAndPrefetches :
    (Option.any (fun st => decide (Option.any (fun pl => decide (∀ f ∈ st.fetches, f.slot = 0 → f.landed = true
    ∨ f.withdrawn = true)) (s3_5.stepPlan 0) = true)) (s3_5.stepOf 0) = true) ∧
    (Option.any (fun st => decide (Option.any (fun pl => decide (Option.any (fun f => decide (f.late = false))
    (List.find? (fun f => f.slot == 0 && !f.landed && !f.withdrawn) st.fetches) = true)) (s5_18.stepPlan 0) =
    true)) (s5_18.stepOf 0) = true) ∧
    (Option.any (fun st => decide (st.early = [] ∧ Option.any (fun pl => decide (Option.any (fun f => decide
    (f.late = false)) (List.find? (fun f => f.slot == 0 && !f.landed && !f.withdrawn) st.fetches) = true))
    (s5_18.stepPlan 0) = true)) (s5_18.stepOf 0) = true) ∧
    (Option.any (fun st => decide (Option.any (fun pl => decide (Option.any (fun f => decide (f.late = true ∧
    (pl.readerClusters f.tensor).Nodup ∧ (f.tier = 3 ∧ f.held = false) ∧ ((pl.readerClusters f.tensor).any fun c
    => decide (c < 32)) = true)) (List.find? (fun f => f.slot == 0 && !f.landed && !f.withdrawn) st.fetches) =
    true)) (y5_1.stepPlan 0) = true)) (y5_1.stepOf 0) = true) ∧
    (Option.any (fun st => decide (Option.any (fun pl => decide (Option.any (fun f => decide (f.late = true ∧
    (pl.readerClusters f.tensor).Nodup ∧ (f.tier ≠ 3 ∨ f.held = true) ∧ ((pl.readerClusters f.tensor).any fun c
    => decide (c < 32)) = true)) (List.find? (fun f => f.slot == 0 && !f.landed && !f.withdrawn) st.fetches) =
    true)) (y5_2.stepPlan 0) = true)) (y5_2.stepOf 0) = true) ∧
    (Option.any (fun st => decide (Option.any (fun pl => decide (Option.any (fun f => decide (f.late = false ∧
    s5_18.beat < f.deadline)) (List.find? (fun f => f.slot == 0 && !f.landed && !f.withdrawn) st.fetches) =
    true)) (s5_18.stepPlan 0) = true)) (s5_18.stepOf 0) = true) ∧
    (Option.any (fun st => decide (st.replay = none ∧ Option.any (fun pl => decide (Option.any (fun f => decide
    (f.late = false ∧ f.deadline ≤ s5_21.beat ∧ pl.fallback f.tensor = true)) (List.find? (fun f => f.slot == 0
    && !f.landed && !f.withdrawn) st.fetches) = true)) (s5_21.stepPlan 0) = true)) (s5_21.stepOf 0) = true) ∧
    (Option.any (fun st => decide (Option.any (fun pl => decide (Option.any (fun f => decide (f.late = false ∧
    f.deadline ≤ s5_22.beat ∧ (pl.fallback f.tensor = false ∨ st.replay.isSome = true))) (List.find? (fun f =>
    f.slot == 0 && !f.landed && !f.withdrawn) st.fetches) = true)) (s5_22.stepPlan 0) = true)) (s5_22.stepOf 0)
    = true) ∧
    (Option.any (fun x => decide (x.q.phase ≠ Phase.waitBeat ∨ s5_24.flag YMS_CFG_PF_EN x.p = false ∨ s5_24.beat
    + s5_24.fld YMS_CFG_RUNAHEAD x.p < x.slotBeat x.d.preRef)) (s5_24.nest 0) = true) ∧
    ((s5_24.nest 0).isSome = true) := by
  decide +kernel

theorem wit_LoftAccessesAndFills :
    (e5_1 ≠ [] ∧ (s5_24.nest 0).isSome = true) ∧
    (e5_1 ≠ [] ∧ (s6_46.droving 0).isSome = true) ∧
    (e5_1 ≠ []) ∧
    (e5_1 ≠ [] ∧
      let u := act.meets (0 + 1) e5_1; act.prtState 0 = 1 ∧ u.prtState 0 = 1 ∧ 0 * 1024 < act.gddrSize (0 + 1)
        ∧ 0 * 1024 < u.gddrSize (0 + 1)) ∧
    (e5_1 ≠ [] ∧
      let u := s1_23.meets 1 e5_1; (fun op => s1_23.ready 1 0 0 op = some f8_27 ∧ u.ready 1 0 0 op = some
        f8_27) 3 ∧ copyRaw f8_27 = false) ∧
    (e5_1 ≠ [] ∧
      let u := s2_9.meets 1 e5_1; (fun op => s2_9.ready 1 0 0 op = some f2_8 ∧ u.ready 1 0 0 op = some f2_8) 3
        ∧ copyRaw f2_8 = true) ∧
    (e5_1 ≠ [] ∧
      let u := s2_2.meets 1 e5_1; s2_2.planTurn f2_1 = true ∧ u.planTurn f2_1 = true ∧ (fun op => s2_2.ready 1
        0 0 op = some f2_1 ∧ u.ready 1 0 0 op = some f2_1) 1) ∧
    (e5_1 ≠ [] ∧
      let u := s2_6.meets 1 e5_1; s2_6.planTurn f2_5 = true ∧ u.planTurn f2_5 = true ∧ (fun op => s2_6.ready 1
        0 0 op = some f2_5 ∧ u.ready 1 0 0 op = some f2_5) 2 ∧ (f2_5.fn = 0 ∨ s2_6.stepOf (f2_5.fn - 1) = none ∧
        u.stepOf (f2_5.fn - 1) = none)) ∧
    (e5_1 ≠ [] ∧
      let u := s2_24.meets 1 e5_1; Option.any (fun o => decide (u.shedOpAt 1 0 0 0 true = some o ∧
        s2_24.windowOpen (36 + 0) 1 = true ∧ u.windowOpen (36 + 0) 1 = true)) (s2_24.shedOpAt 1 0 0 0 true) =
        true) ∧
    (
      let m := r5_1.mask % 2 ^ 16; State.reset.prtState 0 ≠ 1 ∨ State.reset.gddrSize (0 + 1) ≤ 0 * 1024 ∨ m =
        0) ∧
    (s3_5.prtState 0 = 1 ∧ Option.any (fun st => decide (0 * 1024 < s3_5.gddrSize (0 + 1) ∧
      let m := r5_5.mask % 2 ^ 16; m ≠ 0 ∧ (r5_5.stale = true ∨ s3_5.gddrDown (0 + 1) (0 * 1024) 1 = true) ∧
        r5_5.step = true)) (s3_5.stepOf 0) = true) ∧
    (loftS.prtState 0 = 1 ∧
      let c := (loftS.homeOf 0 0).1;
      let set := (loftS.homeOf 0 0).2;
      let line := lineKey (0 + 1) 0;
      let held := List.find? (fun x => x.line == line) (loftS.loftLines c set); 0 * 1024 < loftS.gddrSize (0 +
        1) ∧ loftS.gddrDown (0 + 1) (0 * 1024) 1 = false ∧ Option.any (fun x => decide (
      let m := r5_1.mask % 2 ^ 16; m ≠ 0 ∧ r5_1.stale = false ∧ r5_1.data = none ∧ m &&& x.valid = m)) held =
        true) ∧
    (y5_5.loft.hurt = [] ∧ y5_5.prtState 0 = 1 ∧
      let c := (y5_5.homeOf 0 0).1;
      let set := (y5_5.homeOf 0 0).2;
      let line := lineKey (0 + 1) 0;
      let held := List.find? (fun x => x.line == line) (y5_5.loftLines c set);
      let valid := (Option.map (fun x => x.valid) held).getD 0; 0 * 1024 < y5_5.gddrSize (0 + 1) ∧
        y5_5.gddrDown (0 + 1) (0 * 1024) 1 = false ∧ held = none ∧
      let m := r5_1.mask % 2 ^ 16; m ≠ 0 ∧ r5_1.stale = false ∧ r5_1.data = none ∧ m &&& valid ≠ m ∧
        y5_5.allocate c set line (y5_5.dueOf (y5_5.reqHint r5_1)) = none) ∧
    (act.prtState 0 = 1 ∧ 0 * 1024 < act.gddrSize (0 + 1) ∧ act.gddrDown (0 + 1) (0 * 1024) 1 = false ∧
      let m := r5_3.mask % 2 ^ 16; m ≠ 0 ∧ r5_3.stale = false ∧ Option.any (fun bs => decide ((sectorsOf
        m)[0]?.isSome = true)) r5_3.data = true) ∧
    (act.prtState 0 = 1 ∧ 0 * 1024 < act.gddrSize (0 + 1) ∧ act.gddrDown (0 + 1) (0 * 1024) 1 = false ∧
      let m := r5_3.mask % 2 ^ 16; m ≠ 0 ∧ r5_3.stale = false ∧ Option.any (fun bs => decide (2 < 16 ∧
        m.testBit 2 = false)) r5_3.data = true) ∧
    (w5_1.loft.fills[0]? = some d5_26 ∧
      let p := d5_26.line / 2 ^ 38 - 1;
      let chan := w5_1.channelOf (p + 1) (d5_26.line % 2 ^ 38); tabGet 0 w5_1.gddrs.throttle chan = 2 ∨
        w5_1.windowOpen (12 + chan) (p + 1) = false) ∧
    (s5_27.loft.setWait = [] ∧ s5_27.loft.fills[0]? = some d5_26 ∧
      let p := d5_26.line / 2 ^ 38 - 1;
      let l := d5_26.line % 2 ^ 38;
      let chan := s5_27.channelOf (p + 1) l;
      let c := (s5_27.homeOf p l).1;
      let set := (s5_27.homeOf p l).2; d5_26.prefetch = false ∧ d5_26.stale = false ∧ tabGet 0
        s5_27.gddrs.throttle chan ≠ 2 ∧ s5_27.windowOpen (12 + chan) (p + 1) = true ∧ d5_26.epoch =
        s5_27.chanEpoch chan ∧ s5_27.chanDown chan = false ∧ s5_27.clusterDown c = false ∧ (List.find? (fun x =>
        x.line == d5_26.line) (s5_27.loftLines c set)).isSome = true) ∧
    (y5_6.loft.setWait = [] ∧ Option.any (fun f => decide (
      let p := f.line / 2 ^ 38 - 1;
      let l := f.line % 2 ^ 38;
      let chan := y5_6.channelOf (p + 1) l;
      let c := (y5_6.homeOf p l).1; f.prefetch = false ∧ f.stale = false ∧ tabGet 0 y5_6.gddrs.throttle chan ≠
        2 ∧ y5_6.windowOpen (12 + chan) (p + 1) = true ∧ (f.epoch ≠ y5_6.chanEpoch chan ∨ y5_6.clusterDown c =
        true) ∧ f.step = true ∧ (y5_6.stepOf p).isSome = true)) y5_6.loft.fills[0]? = true) ∧
    (∀ h ∈ State.reset.loft.waiting, h.path = 0 → State.reset.pathRoom 0 h.part = 0) ∧
    (Option.any (fun h => decide (heldS.inFlight 0 h.part ≤ heldS.fld (PRT_INFLIGHT_GDDR h.part))) (List.find?
    (fun h => h.path == 0 && decide (0 < heldS.pathRoom 0 h.part)) heldS.loft.waiting) = true) ∧
    ((State.reset.fld LFT_WAYS_ACTIVE).testBit 16 = false) ∧
    (State.reset.fld LFT_WAYS_ACTIVE < 131072 ∧ State.reset.flag LFT_STATUS_SPARE_IN = false ∧ State.reset.fld
    LFT_WAYS_ACTIVE < 65536 ∧ (State.reset.fld LFT_WAYS_ACTIVE).testBit 0 = true) ∧
    (y5_7.fld LFT_WAYS_ACTIVE < 131072 ∧ y5_7.flag LFT_STATUS_SPARE_IN = true ∧ (y5_7.fld
    LFT_WAYS_ACTIVE).testBit 0 = true) ∧
    (s3_5.fld LFT_WAYS_ACTIVE < 131072 ∧ Option.any (fun p => decide (Option.any (fun st => decide ((s3_5.fld
    LFT_WAYS_ACTIVE).testBit 0 = true)) (s3_5.stepOf p) = true)) (s3_5.partOfCluster 0) = true) := by
  decide +kernel

theorem wit_ControllersActOnTheirOwn :
    (State.reset.flag GDR_STATUS_TRAINED = false ∨ State.reset.chanDown 0 = true) ∧
    (trained.flag GDR_STATUS_TRAINED = true ∧ trained.chanDown 0 = false) ∧
    (trained.flag GDR_STATUS_TRAINED = true ∧ trained.chanDown 0 = false ∧ (1 ≠ 0 ∨ trained.dayOn 0 = false) ∧
    trained.channelOf 1 0 = 0 ∧ 0 * 1024 < trained.gddrSize 1 ∧ tabFind trained.mem.bad (sectorKey (lineKey 1 0)
    0) = none ∧ tabFind trained.loft.stale (sectorKey (lineKey 1 0) 0) = none) ∧
    (trained.flag GDR_STATUS_TRAINED = true ∧ trained.chanDown 0 = false ∧ trained.channelOf 1 0 = 0 ∧ 0 * 1024
    < trained.gddrSize 1 ∧ tabFind trained.mem.bad (sectorKey (lineKey 1 0) 0) = none ∧ tabFind
    trained.loft.stale (sectorKey (lineKey 1 0) 0) = none) ∧
    (State.reset.chanDown 0 = true) ∧
    (up.chanDown 0 = false) ∧
    (up.chanDown 0 = false ∧ 106 < 256 ∧ 0 < 256 ∧ 105 < max 106 0) ∧
    (up.chanDown 0 = false ∧ 0 < 256 ∧ 0 < 256 ∧ max 0 0 ≤ 100) ∧
    (up.chanDown 0 = false ∧ 101 < 256 ∧ 0 < 256 ∧ 100 < max 101 0 ∧ max 101 0 ≤ 105) ∧
    (∀ r ∈ State.reset.gddrs.remaps, r.chan = 0 → r.entry = 0 → r.on = true) ∧
    (∃ r ∈ s5_31.gddrs.remaps, r.chan = 0 ∧ r.entry = 5 ∧ r.on = false) ∧
    (bitOf 0 0 = false) ∧
    (
      let n := s5_32.fld GDR_SEL_CHANNEL; (∀ p < 32, s5_32.hasChannel p n = false) ∧ s5_32.flag
        GDR_STATUS_TRAINED n = true ∧ bitOf 1 0 = true) ∧
    (
      let n := State.reset.fld GDR_SEL_CHANNEL; ((∃ p < 32, State.reset.hasChannel p n = true) ∨
        State.reset.flag GDR_STATUS_TRAINED n = false) ∧ bitOf 1 0 = true) ∧
    (tabFind State.reset.gddrs.sweeps 0 = none) ∧
    ((tabFind s5_34.gddrs.sweeps 5).isSome = true) ∧
    (State.reset.flag SHD_STATUS_READY = false ∨ State.reset.shedDown 0 = true ∨ State.reset.flag
    CLK_STATUS_VIN_WARN = true) ∧
    (s5_35.flag CLK_STATUS_VIN_WARN = false ∧ s5_35.flag SHD_STATUS_READY = true ∧ s5_35.shedDown 0 = false) ∧
    (State.reset.shedDown 0 = true) ∧
    (up.shedDown 0 = false) := by
  decide +kernel

theorem wit_NestIterations :
    (State.reset.nest 0 = none) ∧
    (Option.any (fun x => decide (x.q.phase ≠ Phase.ready)) (s6_11.nest 0) = true) ∧
    (Option.any (fun x => decide (x.q.phase = Phase.ready ∧ x.d.preKind = 0)) (s5_24.nest 0) = true) ∧
    (Option.any (fun x => decide (x.q.phase = Phase.ready ∧ x.d.preKind = 1)) (s6_4.nest 0) = true) ∧
    (Option.any (fun x => decide (x.q.phase = Phase.ready ∧ x.d.preKind = 2)) (s6_6.nest 0) = true) ∧
    (Option.any (fun x => decide (x.q.phase = Phase.ready ∧ x.d.preKind = 3 ∧ s6_8.halter.visible < x.slotBeat
    x.d.preRef)) (s6_8.nest 0) = true) ∧
    (Option.any (fun x => decide (x.q.phase = Phase.ready ∧ x.d.preKind = 3 ∧ x.slotBeat x.d.preRef ≤
    s6_10.halter.visible)) (s6_10.nest 0) = true) ∧
    (Option.any (fun x => decide (x.q.phase = Phase.waitBeat ∧ x.st.stopped = false ∧ x.slotBeat x.d.preRef ≤
    y6_3.beat)) (y6_3.nest 0) = true) ∧
    (Option.any (fun x => decide (x.q.phase ≠ Phase.run ∨ x.n.kind = 8 ∧ (x.st.gnfFinal = false ∨
    x.st.optSkip.contains x.d.node = true) ∨ s5_24.droverFirst x = true)) (s5_24.nest 0) = true) ∧
    (Option.any (fun x => decide (x.q.phase = Phase.run ∧ (x.n.kind = 8 → x.st.gnfFinal = true ∧
    x.st.optSkip.contains x.d.node = false) ∧ w6_1.droverFirst x = false ∧ x.q.words ≠ [] ∧ x.q.cand = false ∧
    x.wordTensors.any (w6_1.fetching x.p) = true)) (w6_1.nest 0) = true) ∧
    (Option.any (fun x => decide (x.q.phase = Phase.run ∧ (x.n.kind = 8 → x.st.gnfFinal = true ∧
    x.st.optSkip.contains x.d.node = false) ∧ s6_19.droverFirst x = false ∧ x.q.words ≠ [] ∧ x.q.cand = false ∧
    x.wordTensors.any (s6_19.fetching x.p) = false ∧ (s6_19.advanceWalk x).1 = false)) (s6_19.nest 0) = true) ∧
    (Option.any (fun x => decide (x.q.phase = Phase.run ∧ (x.n.kind = 8 → x.st.gnfFinal = true ∧
    x.st.optSkip.contains x.d.node = false) ∧ s6_17.droverFirst x = false ∧ x.q.words ≠ [] ∧ x.q.cand = false ∧
    x.wordTensors.any (s6_17.fetching x.p) = false ∧ (s6_17.advanceWalk x).1 = true)) (s6_17.nest 0) = true) ∧
    (Option.any (fun x => decide (
      let i : Iter := { idx := x.q.idx.getD zeros6, live := x.q.live, beff := x.q.beff };
      let void := x.inVoid 6
        { idx := i.idx, live := i.live, beff := i.beff, skipped := 0, clamps := 0, faults := [], words := [] };
        x.q.phase = Phase.run ∧ (x.n.kind = 8 → x.st.gnfFinal = true ∧ x.st.optSkip.contains x.d.node = false) ∧
        w6_2.droverFirst x = false ∧ x.q.words ≠ [] ∧ x.q.cand = true ∧ void = false ∧ (w6_2.recipeDue x).isSome
        = true)) (w6_2.nest 0) = true) ∧
    (Option.any (fun x => decide (
      let i : Iter := { idx := x.q.idx.getD zeros6, live := x.q.live, beff := x.q.beff };
      let void := x.inVoid 6
        { idx := i.idx, live := i.live, beff := i.beff, skipped := 0, clamps := 0, faults := [], words := [] };
        x.q.phase = Phase.run ∧ (x.n.kind = 8 → x.st.gnfFinal = true ∧ x.st.optSkip.contains x.d.node = false) ∧
        w6_3.droverFirst x = false ∧ x.q.words ≠ [] ∧ x.q.cand = true ∧ void = true ∧ w6_3.fullPorts x (some
        { idx := i.idx, live := i.live, beff := i.beff.set x.keyLevel 1 }) = [])) (w6_3.nest 0) = true) ∧
    (Option.any (fun x => decide (
      let i : Iter := { idx := x.q.idx.getD zeros6, live := x.q.live, beff := x.q.beff };
      let void := x.inVoid 6
        { idx := i.idx, live := i.live, beff := i.beff, skipped := 0, clamps := 0, faults := [], words := [] };
        x.q.phase = Phase.run ∧ (x.n.kind = 8 → x.st.gnfFinal = true ∧ x.st.optSkip.contains x.d.node = false) ∧
        w6_4.droverFirst x = false ∧ x.q.words ≠ [] ∧ x.q.cand = true ∧ void = false ∧ w6_4.recipeDue x = none ∧
        x.n.masked = true ∧ w6_4.peekSide x i = none)) (w6_4.nest 0) = true) ∧
    (Option.any (fun x => decide (
      let i : Iter := { idx := x.q.idx.getD zeros6, live := x.q.live, beff := x.q.beff };
      let void := x.inVoid 6
        { idx := i.idx, live := i.live, beff := i.beff, skipped := 0, clamps := 0, faults := [], words := [] };
        x.q.phase = Phase.run ∧ (x.n.kind = 8 → x.st.gnfFinal = true ∧ x.st.optSkip.contains x.d.node = false) ∧
        w6_5.droverFirst x = false ∧ x.q.words ≠ [] ∧ x.q.cand = true ∧ void = false ∧ w6_5.recipeDue x = none ∧
        (w6_5.receive x i).1 = true ∧ w6_5.fullPorts x (some i) = [] ∧ Option.any (fun sd => decide (x.skipped i
        sd = true)) (if x.n.masked = true then w6_5.peekSide x i else some none) = true)) (w6_5.nest 0) = true) ∧
    (Option.any (fun x => decide (
      let i : Iter := { idx := x.q.idx.getD zeros6, live := x.q.live, beff := x.q.beff };
      let void := x.inVoid 6
        { idx := i.idx, live := i.live, beff := i.beff, skipped := 0, clamps := 0, faults := [], words := [] };
        x.q.phase = Phase.run ∧ (x.n.kind = 8 → x.st.gnfFinal = true ∧ x.st.optSkip.contains x.d.node = false) ∧
        s6_13.droverFirst x = false ∧ x.q.words ≠ [] ∧ x.q.cand = true ∧ void = false ∧ s6_13.recipeDue x = none
        ∧ ((x.d.iterKind = 1 ∨ x.d.iterKind = 3) ∧ x.q.granted = false) ∧ Option.any (fun sd => decide
        (x.skipped i sd = false)) (if x.n.masked = true then s6_13.peekSide x i else some none) = true))
        (s6_13.nest 0) = true) ∧
    (Option.any (fun x => decide (
      let i : Iter := { idx := x.q.idx.getD zeros6, live := x.q.live, beff := x.q.beff };
      let void := x.inVoid 6
        { idx := i.idx, live := i.live, beff := i.beff, skipped := 0, clamps := 0, faults := [], words := [] };
      let h := w6_6.holdIssue x i; x.q.phase = Phase.run ∧ (x.n.kind = 8 → x.st.gnfFinal = true ∧
        x.st.optSkip.contains x.d.node = false) ∧ w6_6.droverFirst x = false ∧ x.q.words ≠ [] ∧ x.q.cand = true
        ∧ void = false ∧ w6_6.recipeDue x = none ∧ ¬((x.d.iterKind = 1 ∨ x.d.iterKind = 3) ∧ x.q.granted =
        false) ∧ h.1 = true ∧ Option.any (fun sd => decide (x.skipped i sd = false)) (if x.n.masked = true then
        w6_6.peekSide x i else some none) = true)) (w6_6.nest 0) = true) ∧
    (Option.any (fun x => decide (
      let i : Iter := { idx := x.q.idx.getD zeros6, live := x.q.live, beff := x.q.beff };
      let void := x.inVoid 6
        { idx := i.idx, live := i.live, beff := i.beff, skipped := 0, clamps := 0, faults := [], words := [] };
      let h := w6_6.holdIssue x i; x.q.phase = Phase.run ∧ (x.n.kind = 8 → x.st.gnfFinal = true ∧
        x.st.optSkip.contains x.d.node = false) ∧ w6_6.droverFirst x = false ∧ x.q.words ≠ [] ∧ x.q.cand = true
        ∧ void = false ∧ w6_6.recipeDue x = none ∧ ¬((x.d.iterKind = 1 ∨ x.d.iterKind = 3) ∧ x.q.granted =
        false) ∧ h.1 = true ∧ Option.any (fun sd => decide (x.skipped i sd = false ∧ (h.2.nest 0).isSome =
        true)) (if x.n.masked = true then w6_6.peekSide x i else some none) = true)) (w6_6.nest 0) = true) ∧
    (Option.any (fun x => decide (
      let i : Iter := { idx := x.q.idx.getD zeros6, live := x.q.live, beff := x.q.beff };
      let void := x.inVoid 6
        { idx := i.idx, live := i.live, beff := i.beff, skipped := 0, clamps := 0, faults := [], words := [] };
      let h := w6_7.holdIssue x i;
      let kv := x.n.kind = 6 ∨ x.n.kind = 7; x.q.phase = Phase.run ∧ (x.n.kind = 8 → x.st.gnfFinal = true ∧
        x.st.optSkip.contains x.d.node = false) ∧ w6_7.droverFirst x = false ∧ x.q.words ≠ [] ∧ x.q.cand = true
        ∧ void = false ∧ w6_7.recipeDue x = none ∧ ¬((x.d.iterKind = 1 ∨ x.d.iterKind = 3) ∧ x.q.granted =
        false) ∧ h.1 = false ∧ kv ∧ x.q.kvHeld = true ∧ h.2.streamStalled x i = true ∧ Option.any (fun sd =>
        decide (x.skipped i sd = false)) (if x.n.masked = true then w6_7.peekSide x i else some none) = true))
        (w6_7.nest 0) = true) ∧
    (Option.any (fun x => decide (
      let i : Iter := { idx := x.q.idx.getD zeros6, live := x.q.live, beff := x.q.beff };
      let void := x.inVoid 6
        { idx := i.idx, live := i.live, beff := i.beff, skipped := 0, clamps := 0, faults := [], words := [] };
      let h := w6_8.holdIssue x i;
      let kv := x.n.kind = 6 ∨ x.n.kind = 7; x.q.phase = Phase.run ∧ (x.n.kind = 8 → x.st.gnfFinal = true ∧
        x.st.optSkip.contains x.d.node = false) ∧ w6_8.droverFirst x = false ∧ x.q.words ≠ [] ∧ x.q.cand = true
        ∧ void = false ∧ w6_8.recipeDue x = none ∧ ¬((x.d.iterKind = 1 ∨ x.d.iterKind = 3) ∧ x.q.granted =
        false) ∧ h.1 = false ∧ kv ∧ ¬(x.q.kvHeld = true ∧ (h.2.streamStalled x i = true ∨ x.n.kind = 7)) ∧
        Option.any (fun sd => decide (x.skipped i sd = false ∧
      let r := h.2.fetchReads x i []; (r.2.2.kvAct x i r.1).1 ≠ KvEnd.done)) (if x.n.masked = true then
        w6_8.peekSide x i else some none) = true)) (w6_8.nest 0) = true) ∧
    (Option.any (fun x => decide (
      let i : Iter := { idx := x.q.idx.getD zeros6, live := x.q.live, beff := x.q.beff };
      let void := x.inVoid 6
        { idx := i.idx, live := i.live, beff := i.beff, skipped := 0, clamps := 0, faults := [], words := [] };
      let h := s6_15.holdIssue x i;
      let kv := x.n.kind = 6 ∨ x.n.kind = 7; x.q.phase = Phase.run ∧ (x.n.kind = 8 → x.st.gnfFinal = true ∧
        x.st.optSkip.contains x.d.node = false) ∧ s6_15.droverFirst x = false ∧ x.q.words ≠ [] ∧ x.q.cand = true
        ∧ void = false ∧ s6_15.recipeDue x = none ∧ ¬((x.d.iterKind = 1 ∨ x.d.iterKind = 3) ∧ x.q.granted =
        false) ∧ h.1 = false ∧ (x.n.kind = 10 → (x.op 0).isSome = true) ∧ Option.any (fun sd => decide
        (x.skipped i sd = false ∧
      let r := h.2.fetchReads x i []; kv → ¬(x.q.kvHeld = true ∧ h.2.streamStalled x i = true) ∧ ((r.2.2.kvAct
        x i r.1).1 = KvEnd.done ∨ x.q.kvHeld = true ∧ x.n.kind = 7))) (if x.n.masked = true then s6_15.peekSide
        x i else some none) = true)) (s6_15.nest 0) = true) ∧
    (Option.any (fun x => decide (x.q.phase ≠ Phase.run ∨ x.q.cand = true ∨ x.n.kind = 8 ∧ x.st.gnfFinal =
    false)) (s5_24.nest 0) = true) ∧
    (Option.any (fun x => decide (
      let skip := x.n.kind = 8 ∧ x.st.optSkip.contains x.d.node = true; x.q.phase = Phase.run ∧ x.q.cand =
        false ∧ (x.n.kind = 8 → x.st.gnfFinal = true) ∧ ¬skip ∧ x.q.words ≠ [] ∧ (x.wordTensors.any
        (s6_17.fetching x.p) = true ∨ (s6_17.advanceWalk x).1 = true))) (s6_17.nest 0) = true) ∧
    (Option.any (fun x => decide (
      let skip := x.n.kind = 8 ∧ x.st.optSkip.contains x.d.node = true; x.q.phase = Phase.run ∧ x.q.cand =
        false ∧ (x.n.kind = 8 → x.st.gnfFinal = true) ∧ (skip ∨ x.q.words ≠ [] ∧ x.wordTensors.any
        (w6_10.fetching x.p) = false ∧ (w6_10.advanceWalk x).1 = false) ∧ w6_10.fullPorts x none ≠ []))
        (w6_10.nest 0) = true) ∧
    (Option.any (fun x => decide (
      let skip := x.n.kind = 8 ∧ x.st.optSkip.contains x.d.node = true; x.q.phase = Phase.run ∧ x.q.cand =
        false ∧ (x.n.kind = 8 → x.st.gnfFinal = true) ∧ (skip ∨ x.q.words ≠ [] ∧ x.wordTensors.any
        (s6_21.fetching x.p) = false ∧ (s6_21.advanceWalk x).1 = false) ∧ s6_21.fullPorts x none = [] ∧ x.q.held
        = [] ∧ x.q.last = [] ∧ x.q.owed = [] ∧ s6_21.unscattered x = 0 ∧ x.d.next ≠ 65535)) (s6_21.nest 0) =
        true) ∧
    (tabFind s6_19.suspended 0 = none ∧ Option.any (fun x => decide (
      let skip := x.n.kind = 8 ∧ x.st.optSkip.contains x.d.node = true; x.q.phase = Phase.run ∧ x.q.cand =
        false ∧ (x.n.kind = 8 → x.st.gnfFinal = true) ∧ (skip ∨ x.q.words ≠ [] ∧ x.wordTensors.any
        (s6_19.fetching x.p) = false ∧ (s6_19.advanceWalk x).1 = false) ∧ s6_19.fullPorts x none = [] ∧ x.q.held
        = [] ∧ x.q.last = [] ∧ x.q.owed = [] ∧ s6_19.unscattered x = 0 ∧ x.d.next = 65535)) (s6_19.nest 0) =
        true) ∧
    (Option.any (fun x => decide (
      let skip := x.n.kind = 8 ∧ x.st.optSkip.contains x.d.node = true; x.q.phase = Phase.run ∧ x.q.cand =
        false ∧ (x.n.kind = 8 → x.st.gnfFinal = true) ∧ (skip ∨ x.q.words ≠ [] ∧ x.wordTensors.any
        (y6_4.fetching x.p) = false ∧ (y6_4.advanceWalk x).1 = false) ∧ y6_4.fullPorts x none = [] ∧ x.q.held =
        [] ∧ x.q.last = [] ∧ x.q.owed = [] ∧ y6_4.unscattered x = 0 ∧ x.d.next = 65535 ∧ (tabFind y6_4.suspended
        0).isSome = true)) (y6_4.nest 0) = true) := by
  decide +kernel

theorem wit_ChutesKeepOrderAndCredits :
    (Option.any (fun pl => decide (Option.any (fun e => decide (
      let c := s6_23.chute 0 0 0 e.rxUnits; s6_23.edge 0 0 0 = some (pl, e) ∧ c.broken = false ∧ Option.any
        (fun it => decide (it.units ≤ c.credits ∧ Option.any (fun rest => decide (c.half = it :: rest ∧ 1 ≠
        chuteKey 0 0 0)) (some c.half.tail) = true)) c.half.head? = true)) (Option.map Prod.snd (s6_23.edge 0 0
        0)) = true)) (Option.map Prod.fst (s6_23.edge 0 0 0)) = true) ∧
    (Option.any (fun pl => decide (Option.any (fun e => decide (
      let c := s6_24.chute 0 0 0 e.rxUnits; s6_24.edge 0 0 0 = some (pl, e) ∧ Option.any (fun it => decide
        ((c.broken = true ∨ c.credits < it.units) ∧ Option.any (fun rest => decide (c.half = it :: rest)) (some
        c.half.tail) = true)) c.half.head? = true)) (Option.map Prod.snd (s6_24.edge 0 0 0)) = true))
        (Option.map Prod.fst (s6_24.edge 0 0 0)) = true) ∧
    (Option.any (fun pl => decide (Option.any (fun e => decide (
      let c := s6_25.chute 0 0 0 e.rxUnits; s6_25.edge 0 0 0 = some (pl, e) ∧ Option.any (fun it => decide
        (Option.any (fun rest => decide (c.flying = it :: rest ∧ 0 = 0)) (some c.flying.tail) = true))
        c.flying.head? = true)) (Option.map Prod.snd (s6_25.edge 0 0 0)) = true)) (Option.map Prod.fst
        (s6_25.edge 0 0 0)) = true) ∧
    (Option.any (fun pl => decide (Option.any (fun e => decide (
      let c := s6_25.chute 0 0 0 e.rxUnits; s6_25.edge 0 0 0 = some (pl, e) ∧ Option.any (fun it => decide
        (Option.any (fun rest => decide (c.flying = it :: rest ∧ 1 ≠ 0)) (some c.flying.tail) = true))
        c.flying.head? = true)) (Option.map Prod.snd (s6_25.edge 0 0 0)) = true)) (Option.map Prod.fst
        (s6_25.edge 0 0 0)) = true) ∧
    (Option.any (fun st => decide (Option.any (fun pl => decide (Option.any (fun e => decide (
      let c := y6_1.chute 0 0 0 e.rxUnits; y6_1.edge 0 0 0 = some (pl, e) ∧ Option.any (fun it => decide
        (Option.any (fun rest => decide (c.flying = it :: rest ∧ 1 ≠ 0)) (some c.flying.tail) = true))
        c.flying.head? = true)) (Option.map Prod.snd (y6_1.edge 0 0 0)) = true)) (Option.map Prod.fst (y6_1.edge
        0 0 0)) = true)) (y6_1.stepOf 0) = true) ∧
    (Option.any (fun pl => decide (Option.any (fun e => decide (
      let c := s6_25.chute 0 0 0 e.rxUnits; s6_25.edge 0 0 0 = some (pl, e) ∧ Option.any (fun it => decide
        (Option.any (fun rest => decide (c.flying = it :: rest ∧ 1 ≠ chuteKey 0 0 0)) (some c.flying.tail) =
        true)) c.flying.head? = true)) (Option.map Prod.snd (s6_25.edge 0 0 0)) = true)) (Option.map Prod.fst
        (s6_25.edge 0 0 0)) = true) ∧
    (Option.any (fun pl => decide (Option.any (fun e => decide (
      let c := s6_26.chute 0 0 0 e.rxUnits; s6_26.edge 0 0 0 = some (pl, e) ∧ Option.any (fun n => decide
        (Option.any (fun rest => decide (c.returns = n :: rest ∧ 1 ≠ chuteKey 0 0 0)) (some c.returns.tail) =
        true)) c.returns.head? = true)) (Option.map Prod.snd (s6_26.edge 0 0 0)) = true)) (Option.map Prod.fst
        (s6_26.edge 0 0 0)) = true) ∧
    (Option.any (fun pl => decide (Option.any (fun e => decide (
      let c := s6_25.chute 0 0 0 e.rxUnits; s6_25.edge 0 0 0 = some (pl, e) ∧ c.half = [])) (Option.map
        Prod.snd (s6_25.edge 0 0 0)) = true)) (Option.map Prod.fst (s6_25.edge 0 0 0)) = true) ∧
    (Option.any (fun pl => decide (Option.any (fun e => decide (
      let c := s6_23.chute 0 0 0 e.rxUnits; s6_23.edge 0 0 0 = some (pl, e) ∧ c.flying = [])) (Option.map
        Prod.snd (s6_23.edge 0 0 0)) = true)) (Option.map Prod.fst (s6_23.edge 0 0 0)) = true) ∧
    (Option.any (fun pl => decide (Option.any (fun e => decide (
      let c := s6_23.chute 0 0 0 e.rxUnits; s6_23.edge 0 0 0 = some (pl, e) ∧ c.returns = [])) (Option.map
        Prod.snd (s6_23.edge 0 0 0)) = true)) (Option.map Prod.fst (s6_23.edge 0 0 0)) = true) := by
  decide +kernel

theorem wit_HalterServesInOrder :
    (Option.any (fun key => decide (key < 131072 ∧ Option.any (fun x => decide (s6_30.halterAt 0 0 = some
    { part := 0, id := 5, op := HalterOp.signal 2 } ∧ 65535 < x.value + 2)) (tabFind s6_30.halter.sems key) =
    true)) (s6_30.semKey 0 5) = true) ∧
    (Option.any (fun st => decide (Option.any (fun key => decide (key < 131072 ∧ Option.any (fun x => decide
    (s6_30.halterAt 0 0 = some { part := 0, id := 5, op := HalterOp.signal 2 } ∧ 65535 < x.value + 2)) (tabFind
    s6_30.halter.sems key) = true)) (s6_30.semKey 0 5) = true)) (s6_30.stepOf 0) = true) ∧
    (Option.any (fun key => decide (Option.any (fun x => decide (s6_32.halterAt 0 0 = some
    { part := 0, id := 5, op := HalterOp.semWait wt6_1 2 })) (tabFind s6_32.halter.sems key) = true))
    (s6_32.semKey 0 5) = true) ∧
    (Option.any (fun key => decide (Option.any (fun x => decide (w6_15.halterAt 0 0 = some
    { part := 0, id := 5, op := HalterOp.semWait wt6_1 2 } ∧ 1 ≠ 0 ∧ w6_15.halterAt 0 1 = some
    { part := 0, id := 5, op := HalterOp.signal 1 })) (tabFind w6_15.halter.sems key) = true)) (w6_15.semKey 0
    5) = true) ∧
    (s6_38.halterAt 0 0 = some { part := 0, id := 6, op := HalterOp.arrive } ∧ Option.any (fun key => decide
    (Option.any (fun x => decide (x.count + 1 < x.target)) (tabFind s6_38.halter.bars key) = true))
    (s6_38.barKey 0 6) = true) ∧
    (s6_36.halterAt 0 0 = some { part := 0, id := 6, op := HalterOp.arrive } ∧ Option.any (fun key => decide
    (Option.any (fun x => decide (x.target ≤ x.count + 1 ∧ (x.waits.any fun w => decide (w.2 ≤ x.done + 1)) =
    true)) (tabFind s6_36.halter.bars key) = true)) (s6_36.barKey 0 6) = true) ∧
    (Option.any (fun key => decide (Option.any (fun x => decide (s6_40.halterAt 0 0 = some
    { part := 0, id := 6, op := HalterOp.barWait 0 1 } ∧ 1 ≤ x.done)) (tabFind s6_40.halter.bars key) = true))
    (s6_40.barKey 0 6) = true) ∧
    (Option.any (fun key => decide (Option.any (fun x => decide (s6_41.halterAt 0 0 = some
    { part := 0, id := 6, op := HalterOp.barWait 0 1 } ∧ x.done < 1)) (tabFind s6_41.halter.bars key) = true))
    (s6_41.barKey 0 6) = true) ∧
    (Option.any (fun st => decide (
      let bar := (w6_11.barKey 0 9).bind (tabFind w6_11.halter.bars); bar = none ∧ w6_11.halterAt 0 0 = some
        { part := 0, id := 9, op := h6_1 } ∧ h6_1 = HalterOp.arrive)) (w6_11.stepOf 0) = true) ∧
    (Option.any (fun st => decide (
      let sem := (w6_12.semKey 0 9).bind (tabFind w6_12.halter.sems); sem = none ∧ w6_12.halterAt 0 0 = some
        { part := 0, id := 9, op := h6_2 } ∧ h6_2 = HalterOp.signal 2)) (w6_12.stepOf 0) = true) ∧
    (Option.any (fun st => decide (
      let sem := (w6_14.semKey 0 9).bind (tabFind w6_14.halter.sems); sem = none ∧ w6_14.halterAt 0 0 = some
        { part := 0, id := 9, op := h6_4 } ∧ h6_4 = HalterOp.semWait wt6_1 2)) (w6_14.stepOf 0) = true) ∧
    (Option.any (fun st => decide (
      let bar := (w6_13.barKey 0 9).bind (tabFind w6_13.halter.bars); bar = none ∧ w6_13.halterAt 0 0 = some
        { part := 0, id := 9, op := h6_3 } ∧ h6_3 = HalterOp.barWait 0 1)) (w6_13.stepOf 0) = true) ∧
    (∀ (m : HalterMsg), State.reset.halterAt 0 0 = some m → m.op ≠ HalterOp.arrive) ∧
    (∀ j ∈ [], ∀ (m : HalterMsg), State.reset.halterAt 0 j = some m → m.op.isWait = false) ∧
    (∀ m, State.reset.halterAt 0 0 = some m → ∀ n, m.op ≠ .signal n) := by
  refine ⟨by decide +kernel, by decide +kernel, by decide +kernel, by decide +kernel, by decide +kernel, by decide +kernel, by decide +kernel, by decide +kernel, by decide +kernel, by decide +kernel, by decide +kernel, by decide +kernel, by decide +kernel, by decide +kernel, ?_⟩
  intro m h
  have e : State.reset.halterAt 0 0 = none := by decide +kernel
  rw [e] at h; cases h

theorem wit_HalterReleasesAndWatchdog :
    (s6_43.flag CLK_STATUS_VIN_WARN = false ∧ Option.any (fun p => decide (0 < 256 ∧ s6_43.halter.released[0]? =
    some (p, Waiter.pre 0) ∧ Option.any (fun x => decide (x.q.phase = Phase.waitPre)) (s6_43.nest 0) = true))
    (Option.map Prod.fst s6_43.halter.released[0]?) = true) ∧
    (s6_45.flag CLK_STATUS_VIN_WARN = false ∧ Option.any (fun p => decide (0 < 256 ∧ s6_45.halter.released[0]? =
    some (p, Waiter.iter 0) ∧ Option.any (fun x => decide (x.q.phase = Phase.waitIter)) (s6_45.nest 0) = true))
    (Option.map Prod.fst s6_45.halter.released[0]?) = true) ∧
    (w6_16.flag CLK_STATUS_VIN_WARN = false ∧ 0 < 256 ∧ Option.any (fun x => decide (w6_16.halter.released[0]? =
    some (0, Waiter.pre 0) ∧ x.q.phase ≠ Phase.waitPre ∨ w6_16.halter.released[0]? = some (0, Waiter.iter 0) ∧
    x.q.phase ≠ Phase.waitIter)) (w6_16.nest 0) = true) ∧
    (w6_17.flag CLK_STATUS_VIN_WARN = true ∧ (w6_17.halter.released[0]? = some (0, Waiter.pre 0) ∨
    w6_17.halter.released[0]? = some (0, Waiter.iter 0))) ∧
    (State.reset.halter.released[0]? = none) ∧
    (Option.any (fun p => decide (s6_46.halter.released[0]? = some (p, Waiter.drover 1))) (Option.map Prod.fst
    s6_46.halter.released[0]?) = true) ∧
    (Option.any (fun p => decide (Option.any (fun st => decide (s6_47.halter.released[0]? = some (p, Waiter.slot
    0))) (s6_47.stepOf p) = true)) (Option.map Prod.fst s6_47.halter.released[0]?) = true) ∧
    (Option.any (fun p => decide (w7_6.halter.released[0]? = some (p, Waiter.coll 0) ∧ Option.any (fun r =>
    decide ((w7_6.collCtx p 0).isSome = true)) (w7_6.collRun p 0) = true)) (Option.map Prod.fst
    w7_6.halter.released[0]?) = true) ∧
    (State.reset.fld CLU_HLT_WDOG_LIMIT_LIMIT = 0 ∨ State.reset.nestsOf 0 = [] ∨ (State.reset.nestsOf 0).all
    State.reset.stuck = false) ∧
    (tabWf s6_43.halter.sems ∧ s6_43.fld CLU_HLT_WDOG_LIMIT_LIMIT ≠ 0 ∧ s6_43.nestsOf 0 ≠ [] ∧ (s6_43.nestsOf
    0).all s6_43.stuck = true ∧ Option.any (fun p => decide ((s6_43.stepOf p).isSome = true))
    (s6_43.partOfCluster 0) = true) := by
  decide +kernel

theorem wit_DroverStreamsMoveBales :
    (State.reset.droving 0 = none) ∧
    (Option.any (fun x => decide (x.d.started = true ∨ x.d.semOk = false ∨ s6_46.flag CLK_STATUS_VIN_WARN =
    true)) (s6_46.droving 0) = true) ∧
    (w6_18.flag CLK_STATUS_VIN_WARN = false ∧ Option.any (fun x => decide (
      let count := fieldAt x.n.record 16 4;
      let first := count :: if x.n.dMode = 3 then [x.n.dIndex] else []; x.d.started = false ∧ x.d.semOk = true
        ∧ first.any (w6_18.fetching x.d.part) = true)) (w6_18.droving 0) = true) ∧
    (s6_52.flag CLK_STATUS_VIN_WARN = false ∧ Option.any (fun x => decide (
      let count := fieldAt x.n.record 16 4;
      let first := count :: if x.n.dMode = 3 then [x.n.dIndex] else []; x.d.started = false ∧ x.d.semOk = true
        ∧ first.any (s6_52.fetching x.d.part) = false ∧ Option.any (fun n => decide (0 ∉ [])) (s6_52.tensorWord
        x.d.part count (fieldAt x.n.record 20 4)) = true)) (s6_52.droving 0) = true) ∧
    (s6_52.flag CLK_STATUS_VIN_WARN = false ∧ Option.any (fun x => decide (
      let count := fieldAt x.n.record 16 4;
      let first := count :: if x.n.dMode = 3 then [x.n.dIndex] else []; x.d.started = false ∧ x.d.semOk = true
        ∧ first.any (s6_52.fetching x.d.part) = false ∧ (0 ∈ [0] ∨ s6_52.tensorWord x.d.part count (fieldAt
        x.n.record 20 4) = none))) (s6_52.droving 0) = true) ∧
    (Option.any (fun x => decide (
      let c := s6_46.chuteOf x.d.part x.d.plan x.e; x.d.started = false ∨ x.d.ended = true ∨ x.n.dMode = 2 ∨ 2
        ≤ c.half.length)) (s6_46.droving 0) = true) ∧
    (Option.any (fun x => decide (
      let c := w6_19.chuteOf x.d.part x.d.plan x.e;
      let rows := [x.n.dIndex, x.n.dData]; x.d.started = true ∧ x.d.ended = false ∧ x.n.dMode ≠ 2 ∧
        c.half.length < 2 ∧ x.n.dMode = 1 ∧ rows.any (w6_19.fetching x.d.part) = true)) (w6_19.droving 0) =
        true) ∧
    (Option.any (fun x => decide (
      let c := y6_2.chuteOf x.d.part x.d.plan x.e;
      let rows := [x.n.dIndex, x.n.dData]; x.d.started = true ∧ x.d.ended = false ∧ x.n.dMode ≠ 2 ∧
        c.half.length < 2 ∧ (x.n.dMode = 1 → rows.any (y6_2.fetching x.d.part) = false) ∧ c.broken = true))
        (y6_2.droving 0) = true) ∧
    (Option.any (fun x => decide (
      let c := s6_57.chuteOf x.d.part x.d.plan x.e;
      let rows := [x.n.dIndex, x.n.dData]; x.d.started = true ∧ x.d.ended = false ∧ x.n.dMode ≠ 2 ∧
        c.half.length < 2 ∧ (x.n.dMode = 1 → rows.any (s6_57.fetching x.d.part) = false) ∧ c.broken = false))
        (s6_57.droving 0) = true) ∧
    (Option.any (fun x => decide (
      let c := s6_46.chuteOf x.d.part x.d.plan x.e; x.d.started = false ∨ x.n.dMode ≠ 2 ∨ c.ring = []))
        (s6_46.droving 0) = true) ∧
    (Option.any (fun x => decide (
      let c := w6_21.chuteOf x.d.part x.d.plan x.e;
      let rows := [x.n.dIndex, x.n.dData]; x.d.started = true ∧ x.n.dMode = 2 ∧ rows.any (w6_21.fetching
        x.d.part) = true ∧ Option.any (fun it => decide (Option.any (fun rest => decide (c.ring = it :: rest))
        (some c.ring.tail) = true)) c.ring.head? = true)) (w6_21.droving 0) = true) ∧
    (Option.any (fun x => decide (
      let c := s6_59.chuteOf x.d.part x.d.plan x.e;
      let rows := [x.n.dIndex, x.n.dData]; x.d.started = true ∧ x.n.dMode = 2 ∧ rows.any (s6_59.fetching
        x.d.part) = false ∧ c.broken = false ∧ Option.any (fun it => decide (it.units ≠ 0 ∧ Option.any (fun rest
        => decide (c.ring = it :: rest)) (some c.ring.tail) = true)) c.ring.head? = true)) (s6_59.droving 0) =
        true) := by
  decide +kernel

theorem wit_LinkStates :
    (s7_1.flag HLK_STATUS_TRAINING = true ∧ Option.any (fun m => decide (1 = neighbourOf s7_1.dims (s7_1.fld
    HLK_ADDR_RANK) 0 ∧ 0 = s7_1.fld HLK_ADDR_DOMAIN ∧ 0 = farLink 0)) (have b := List.map (fun x => ↑x) [];
    laneMask ((s7_1.link 0).failed ++ List.filter (fun n => !(s7_1.link 0).failed.contains n) b)) = true) ∧
    (s7_1.flag HLK_STATUS_TRAINING = true ∧ Option.any (fun m => decide (0 ≠ neighbourOf s7_1.dims (s7_1.fld
    HLK_ADDR_RANK) 0 ∨ 0 ≠ s7_1.fld HLK_ADDR_DOMAIN ∨ 0 ≠ farLink 0)) (have b := List.map (fun x => ↑x) [];
    laneMask ((s7_1.link 0).failed ++ List.filter (fun n => !(s7_1.link 0).failed.contains n) b)) = true) ∧
    (s7_1.flag HLK_STATUS_TRAINING = true ∧ s7_1.flag HLK_STATUS_VIOL = false ∧ Option.any (fun m => decide (0 ≠
    neighbourOf s7_1.dims (s7_1.fld HLK_ADDR_RANK) 0 ∨ 0 ≠ s7_1.fld HLK_ADDR_DOMAIN ∨ 0 ≠ farLink 0)) (laneMask
    ((s7_1.link 0).failed ++ List.filter (fun n => !(s7_1.link 0).failed.contains n) ([] : List Nat))) = true) ∧
    (State.reset.flag HLK_STATUS_TRAINING = false ∨ (have b := List.map (fun x => ↑x) []; laneMask
    ((State.reset.link 0).failed ++ List.filter (fun n => !(State.reset.link 0).failed.contains n) b)) = none) ∧
    (State.reset.flag HLK_STATUS_TRAINING = false) ∧
    (State.reset.flag HLK_STATUS_UP = false) ∧
    (1 ∈ (w7_1.link 0).failed) ∧
    (s7_1.flag HLK_STATUS_TRAINING = true ∧ (s7_1.link 0).tries < 3) ∧
    (s7_3.flag HLK_STATUS_TRAINING = true ∧ 3 ≤ (s7_3.link 0).tries) ∧
    ((∀ p ∈ s7_4.stepping, p < 32) ∧ s7_4.flag HLK_STATUS_UP = true) ∧
    ((∀ p ∈ State.reset.stepping, p < 32) ∧ (bitOf 0 1 = false ∨ bitOf 0 0 = true)) ∧
    (
      let l := s7_4.linkSel; (∀ p ∈ s7_4.stepping, p < 32) ∧ s7_4.flag HLK_STATUS_UP l = true ∧ (bitOf 0 1 =
        false ∨ bitOf 0 0 = true)) ∧
    ((∀ p ∈ State.reset.stepping, p < 32) ∧ bitOf 0 1 = false) ∧
    (
      let l := y7_5.linkSel; (∀ p ∈ y7_5.stepping, p < 32) ∧ y7_5.flag HLK_CTRL_ENABLE l = false ∧
        y7_5.noDimension l = false ∧ y7_5.fabricUp = true ∧ bitOf 2 1 = true ∧ bitOf 2 0 = false) ∧
    (bitOf 0 0 = false) ∧
    (bitOf 1 0 = true) ∧
    (8 ∉ (w7_2.link 0).failed ∧ (w7_2.fld HLK_LANES_ACTIVE).testBit 8 = false) ∧
    ((∀ p ∈ State.reset.stepping, p < 32) ∧ 0 ∉ (State.reset.link 0).failed ∧ (State.reset.fld
    HLK_LANES_ACTIVE).testBit 0 = true) ∧
    (s7_4.flag HLK_STATUS_UP = true) := by
  decide +kernel

theorem wit_LinkPacketsUseCredits :
    (
      let v := w7_11.outVc 0
        { origin := 0, dest := 1, part := 0, xfer := 7, seq := 0, epoch := 0, vc := 0, flits := 64 };
      let k : Packet :=
        { origin := 0, dest := 1, part := 0, xfer := 7, seq := 0, epoch := 0, vc := 0, flits := 64 };
      let known := ((none : Option LinkId) = none → 0 = w7_11.ownAddr) ∧ ∀ (f : LinkId), (none : Option
        LinkId) = some f → List.find? (fun q => q.vc == 0) (w7_11.link ↑f).forward = some k; w7_11.flag
        HLK_STATUS_UP = false ∨ ¬known ∨ w7_11.leavesBy 1 0 = false ∨ w7_11.flag CLK_STATUS_VIN_WARN = true ∨
        512 < 64 ∨ w7_11.higherWaits 0 v = true) ∧
    (w7_9.flag CLK_STATUS_VIN_WARN = false ∧ w7_9.flag HLK_STATUS_UP = true ∧ w7_9.flag HLK_STATUS_VIOL = false
    ∧ w7_9.leavesBy 1 0 = true ∧
      let v := w7_9.outVc 0
        { origin := 0, dest := 1, part := 0, xfer := 7, seq := 0, epoch := 0, vc := 0, flits := 64 };
      let k : Packet :=
        { origin := 0, dest := 1, part := 0, xfer := 7, seq := 0, epoch := 0, vc := 0, flits := 64 };
      let out : Packet :=
        { origin := k.origin, dest := k.dest, part := k.part, xfer := k.xfer, seq := k.seq, epoch := k.epoch, vc := v, flits := k.flits };
      let known := ((none : Option LinkId) = none → 0 = w7_9.ownAddr) ∧ ∀ (f : LinkId), (none : Option LinkId)
        = some f → List.find? (fun q => q.vc == 0) (w7_9.link ↑f).forward = some k; known ∧ 64 ≤ 512 ∧
        w7_9.higherWaits 0 v = false ∧ w7_9.linkWindow 0 out = 0) ∧
    (y7_1.flag CLK_STATUS_VIN_WARN = false ∧ y7_1.flag HLK_STATUS_UP = true ∧ Option.any (fun f => decide
    (y7_1.leavesBy 1 0 = true ∧
      let v := y7_1.outVc 0
        { origin := 0, dest := 1, part := 0, xfer := 7, seq := 0, epoch := 0, vc := 0, flits := 64 };
      let k : Packet :=
        { origin := 0, dest := 1, part := 0, xfer := 7, seq := 0, epoch := 0, vc := 0, flits := 64 };
      let out : Packet :=
        { origin := k.origin, dest := k.dest, part := k.part, xfer := k.xfer, seq := k.seq, epoch := k.epoch, vc := v, flits := k.flits };
      let known := (some 1 = none → 0 = y7_1.ownAddr) ∧ ∀ (f : LinkId), some 1 = some f → List.find? (fun q =>
        q.vc == 0) (y7_1.link ↑f).forward = some k; known ∧ 64 ≤ 512 ∧ y7_1.higherWaits 0 v = false ∧
        y7_1.linkWindow 0 out = 0)) (some 1) = true) ∧
    (y7_2.flag CLK_STATUS_VIN_WARN = false ∧ y7_2.flag HLK_STATUS_UP = true ∧ 0 = y7_2.ownAddr ∧ y7_2.leavesBy 1
    0 = true ∧ Option.any (fun p => decide (Option.any (fun st => decide ((∃ x ∈ st.transfers, x.slot = 7) ∧
      let v := y7_2.outVc 0
        { origin := 0, dest := 1, part := 0, xfer := 7, seq := 0, epoch := 0, vc := 0, flits := 64 };
      let k : Packet :=
        { origin := 0, dest := 1, part := 0, xfer := 7, seq := 0, epoch := 0, vc := 0, flits := 64 };
      let out : Packet :=
        { origin := k.origin, dest := k.dest, part := k.part, xfer := k.xfer, seq := k.seq, epoch := k.epoch, vc := v, flits := k.flits };
      let known := ((none : Option LinkId) = none → 0 = y7_2.ownAddr) ∧ ∀ (f : LinkId), (none : Option LinkId)
        = some f → List.find? (fun q => q.vc == 0) (y7_2.link ↑f).forward = some k; known ∧ 64 ≤ 512 ∧
        y7_2.higherWaits 0 v = false ∧ y7_2.linkWindow 0 out = 0)) (y7_2.stepOf p) = true)) (y7_2.hostPart 0) =
        true) ∧
    (w7_9.flag CLK_STATUS_VIN_WARN = false ∧ w7_9.flag HLK_STATUS_UP = true ∧ w7_9.leavesBy 1 0 = true ∧
      let v := w7_9.outVc 0
        { origin := 0, dest := 1, part := 0, xfer := 7, seq := 0, epoch := 0, vc := 2, flits := 64 };
      let k : Packet :=
        { origin := 0, dest := 1, part := 0, xfer := 7, seq := 0, epoch := 0, vc := 2, flits := 64 };
      let out : Packet :=
        { origin := k.origin, dest := k.dest, part := k.part, xfer := k.xfer, seq := k.seq, epoch := k.epoch, vc := v, flits := k.flits };
      let known := ((none : Option LinkId) = none → 0 = w7_9.ownAddr) ∧ ∀ (f : LinkId), (none : Option LinkId)
        = some f → List.find? (fun q => q.vc == 2) (w7_9.link ↑f).forward = some k; known ∧ 64 ≤ 512 ∧
        w7_9.higherWaits 0 v = false ∧ w7_9.linkWindow 0 out = 1) ∧
    (y7_3.flag CLK_STATUS_VIN_WARN = false ∧
      let held := List.foldl (fun x1 x2 => x1 + x2) 0 (List.map (fun u => u.2.1.size) (y7_3.link 0).unacked);
        y7_3.flag HLK_STATUS_UP = true ∧ Option.any (fun f => decide (y7_3.leavesBy 1 0 = true ∧
      let v := y7_3.outVc 0
        { origin := 0, dest := 1, part := 0, xfer := 7, seq := 0, epoch := 0, vc := 0, flits := 64 };
      let k : Packet :=
        { origin := 0, dest := 1, part := 0, xfer := 7, seq := 0, epoch := 0, vc := 0, flits := 64 };
      let out : Packet :=
        { origin := k.origin, dest := k.dest, part := k.part, xfer := k.xfer, seq := k.seq, epoch := k.epoch, vc := v, flits := k.flits };
      let known := (some 1 = none → 0 = y7_3.ownAddr) ∧ ∀ (f : LinkId), some 1 = some f → List.find? (fun q =>
        q.vc == 0) (y7_3.link ↑f).forward = some k; known ∧ 64 ≤ 512 ∧ y7_3.higherWaits 0 v = false ∧
        y7_3.linkWindow 0 out = 2 ∧ 64 + 1 ≤ (y7_3.link 0).credits.getD v 0 ∧ held + (64 + 1) ≤ 12800)) (some 1)
        = true) ∧
    (s7_4.flag CLK_STATUS_VIN_WARN = false ∧
      let held := List.foldl (fun x1 x2 => x1 + x2) 0 (List.map (fun u => u.2.1.size) (s7_4.link 0).unacked);
        s7_4.flag HLK_STATUS_UP = true ∧ s7_4.leavesBy 1 0 = true ∧
      let v := s7_4.outVc 0
        { origin := 0, dest := 1, part := 0, xfer := 7, seq := 0, epoch := 0, vc := 0, flits := 64 };
      let k : Packet :=
        { origin := 0, dest := 1, part := 0, xfer := 7, seq := 0, epoch := 0, vc := 0, flits := 64 };
      let out : Packet :=
        { origin := k.origin, dest := k.dest, part := k.part, xfer := k.xfer, seq := k.seq, epoch := k.epoch, vc := v, flits := k.flits };
      let known := ((none : Option LinkId) = none → 0 = s7_4.ownAddr) ∧ ∀ (f : LinkId), (none : Option LinkId)
        = some f → List.find? (fun q => q.vc == 0) (s7_4.link ↑f).forward = some k; known ∧ 64 ≤ 512 ∧
        s7_4.higherWaits 0 v = false ∧ s7_4.linkWindow 0 out = 2 ∧ 64 + 1 ≤ (s7_4.link 0).credits.getD v 0 ∧
        held + (64 + 1) ≤ 12800 ∧ 1 ≠ 0 ∧ (none : Option Nat) ≠ some 1) ∧
    (w7_10.flag CLK_STATUS_VIN_WARN = false ∧
      let held := List.foldl (fun x1 x2 => x1 + x2) 0 (List.map (fun u => u.2.1.size) (w7_10.link 0).unacked);
        w7_10.flag HLK_STATUS_UP = true ∧ w7_10.leavesBy 1 0 = true ∧
      let v := w7_10.outVc 0
        { origin := 0, dest := 1, part := 0, xfer := 7, seq := 0, epoch := 0, vc := 0, flits := 64 };
      let k : Packet :=
        { origin := 0, dest := 1, part := 0, xfer := 7, seq := 0, epoch := 0, vc := 0, flits := 64 };
      let out : Packet :=
        { origin := k.origin, dest := k.dest, part := k.part, xfer := k.xfer, seq := k.seq, epoch := k.epoch, vc := v, flits := k.flits };
      let known := ((none : Option LinkId) = none → 0 = w7_10.ownAddr) ∧ ∀ (f : LinkId), (none : Option
        LinkId) = some f → List.find? (fun q => q.vc == 0) (w7_10.link ↑f).forward = some k; known ∧ 64 ≤ 512 ∧
        w7_10.higherWaits 0 v = false ∧ w7_10.linkWindow 0 out = 2 ∧ 64 + 1 ≤ (w7_10.link 0).credits.getD v 0 ∧
        12800 < held + (64 + 1)) ∧
    (s7_4.flag CLK_STATUS_VIN_WARN = false ∧ s7_4.flag HLK_STATUS_UP = true ∧ s7_4.leavesBy 1 0 = true ∧
      let v := s7_4.outVc 0
        { origin := 0, dest := 1, part := 0, xfer := 7, seq := 0, epoch := 0, vc := 2, flits := 64 };
      let k : Packet :=
        { origin := 0, dest := 1, part := 0, xfer := 7, seq := 0, epoch := 0, vc := 2, flits := 64 };
      let out : Packet :=
        { origin := k.origin, dest := k.dest, part := k.part, xfer := k.xfer, seq := k.seq, epoch := k.epoch, vc := v, flits := k.flits };
      let known := ((none : Option LinkId) = none → 0 = s7_4.ownAddr) ∧ ∀ (f : LinkId), (none : Option LinkId)
        = some f → List.find? (fun q => q.vc == 2) (s7_4.link ↑f).forward = some k; known ∧ 64 ≤ 512 ∧
        s7_4.higherWaits 0 v = false ∧ s7_4.linkWindow 0 out = 2 ∧ (s7_4.link 0).credits.getD v 0 < 64 + 1) ∧
    ((∀ p ∈ rings.stepping, p < 32) ∧ rings.flag HLK_STATUS_UP = false) ∧
    ((∀ p ∈ s7_4.stepping, p < 32) ∧ s7_4.flag HLK_STATUS_UP = true) ∧
    ((∀ p ∈ s7_4.stepping, p < 32) ∧ s7_4.flag HLK_STATUS_UP = true ∧ s7_4.flag HLK_STATUS_VIOL = false ∧ (some
    5 ≠ none ∨ 512 < 64)) ∧
    ((∀ p ∈ s7_4.stepping, p < 32) ∧ s7_4.flag HLK_STATUS_UP = true ∧ (s7_4.link 0).badRun < 15 ∧ (some 5 ≠ none
    ∨ 512 < 64)) ∧
    ((∀ p ∈ y7_4.stepping, p < 32) ∧ y7_4.flag HLK_STATUS_UP = true ∧ 15 ≤ (y7_4.link 0).badRun ∧ (some 5 ≠ none
    ∨ 512 < 64)) ∧
    ((∀ p ∈ s7_4.stepping, p < 32) ∧ s7_4.flag HLK_STATUS_UP = true ∧ s7_4.flag HLK_STATUS_VIOL = false ∧
      let k : Packet :=
        { origin := 0, dest := 1, part := 0, xfer := 7, seq := 0, epoch := 0, vc := 2, flits := 64 };
      let good := s7_4.rxHeld 0 2 + k.size ≤ fullCredits.getD 2 0; 64 ≤ 512 ∧ ¬good ∧ (none : Option Word) =
        none) ∧
    ((∀ p ∈ s7_4.stepping, p < 32) ∧ s7_4.flag HLK_STATUS_UP = true ∧ 8192 ≠ s7_4.ownAddr ∧ s7_4.arrivesBy 1
    8192 0 = true ∧
      let k : Packet :=
        { origin := 1, dest := 8192, part := 0, xfer := 7, seq := 0, epoch := 0, vc := 0, flits := 64 };
      let good := s7_4.rxHeld 0 0 + k.size ≤ fullCredits.getD 0 0; 64 ≤ 512 ∧ good ∧ (none : Option Word) =
        none) ∧
    ((∀ p ∈ s7_4.stepping, p < 32) ∧ s7_4.flag HLK_STATUS_UP = true ∧ (1 = s7_4.ownAddr ∨ s7_4.arrivesBy 0 1 0 =
    false) ∧
      let k : Packet :=
        { origin := 0, dest := 1, part := 0, xfer := 7, seq := 0, epoch := 0, vc := 0, flits := 64 };
      let good := s7_4.rxHeld 0 0 + k.size ≤ fullCredits.getD 0 0; 64 ≤ 512 ∧ good ∧ (none : Option Word) =
        none) ∧
    ((∀ p ∈ s7_4.stepping, p < 32) ∧ s7_4.flag HLK_STATUS_UP = true ∧
      let stale := 0 = s7_4.ownAddr ∧ 1 ≠ s7_4.fld HLK_STATUS_EPOCH; stale ∧
      let k : Packet :=
        { origin := 1, dest := 0, part := 0, xfer := 7, seq := 0, epoch := 1, vc := 0, flits := 64 };
      let good := s7_4.rxHeld 0 0 + k.size ≤ fullCredits.getD 0 0; 64 ≤ 512 ∧ good ∧ (none : Option Word) =
        none) ∧
    ((∀ p ∈ s7_4.stepping, p < 32) ∧ s7_4.flag HLK_STATUS_UP = true ∧ s7_4.arrivesBy 0 1 0 = false ∧
      let stale := 1 = s7_4.ownAddr ∧ 0 ≠ s7_4.fld HLK_STATUS_EPOCH; ¬stale ∧
      let k : Packet :=
        { origin := 0, dest := 1, part := 0, xfer := 7, seq := 0, epoch := 0, vc := 0, flits := 64 };
      let good := s7_4.rxHeld 0 0 + k.size ≤ fullCredits.getD 0 0; 64 ≤ 512 ∧ good ∧ (none : Option Word) =
        none) ∧
    ((∀ p ∈ s7_4.stepping, p < 32) ∧ s7_4.flag HLK_STATUS_UP = true ∧ s7_4.flag HLK_STATUS_VIOL = false ∧
    s7_4.arrivesBy 0 1 0 = false ∧
      let stale := 1 = s7_4.ownAddr ∧ 0 ≠ s7_4.fld HLK_STATUS_EPOCH; ¬stale ∧
      let k : Packet :=
        { origin := 0, dest := 1, part := 0, xfer := 7, seq := 0, epoch := 0, vc := 0, flits := 64 };
      let good := s7_4.rxHeld 0 0 + k.size ≤ fullCredits.getD 0 0; 64 ≤ 512 ∧ good ∧ (none : Option Word) =
        none) ∧
    ((∀ p ∈ s7_4.stepping, p < 32) ∧ s7_4.flag HLK_STATUS_UP = true ∧ s7_4.arrivesBy 1 0 0 = true ∧ 0 =
    s7_4.ownAddr ∧ s7_4.hostPart 1 = none ∧
      let stale := 0 = s7_4.ownAddr ∧ 0 ≠ s7_4.fld HLK_STATUS_EPOCH; ¬stale ∧
      let k : Packet :=
        { origin := 1, dest := 0, part := 1, xfer := 7, seq := 0, epoch := 0, vc := 0, flits := 64 };
      let good := s7_4.rxHeld 0 0 + k.size ≤ fullCredits.getD 0 0; 64 ≤ 512 ∧ good ∧ (none : Option Word) =
        none) ∧
    ((∀ p ∈ s7_4.stepping, p < 32) ∧ s7_4.flag HLK_STATUS_UP = true ∧ s7_4.flag HLK_STATUS_VIOL = false ∧
    s7_4.arrivesBy 1 0 0 = true ∧ 0 = s7_4.ownAddr ∧ s7_4.hostPart 1 = none ∧
      let stale := 0 = s7_4.ownAddr ∧ 0 ≠ s7_4.fld HLK_STATUS_EPOCH; ¬stale ∧
      let k : Packet :=
        { origin := 1, dest := 0, part := 1, xfer := 7, seq := 0, epoch := 0, vc := 0, flits := 64 };
      let good := s7_4.rxHeld 0 0 + k.size ≤ fullCredits.getD 0 0; 64 ≤ 512 ∧ good ∧ (none : Option Word) =
        none) ∧
    ((∀ p ∈ s7_4.stepping, p < 32) ∧ s7_4.flag HLK_STATUS_UP = true ∧ s7_4.flag HLK_STATUS_VIOL = false ∧
    (s7_4.link 0).txSeq ≤ 0 ∧ [Instr.linkAckReceive 0 0, Instr.linkNakReceive 0 0] ≠ []) ∧
    ((∀ p ∈ s7_7.stepping, p < 32) ∧ s7_7.flag HLK_STATUS_UP = true ∧ 0 < (s7_7.link 0).txSeq) ∧
    ((∀ p ∈ s7_7.stepping, p < 32) ∧ s7_7.flag HLK_STATUS_UP = true ∧ 0 < (s7_7.link 0).txSeq ∧ ∀ u ∈ (s7_7.link
    0).unacked, 0 ≤ u.1 → u.2.2 < 8) ∧
    ((∀ p ∈ s7_8.stepping, p < 32) ∧ s7_8.flag HLK_STATUS_UP = true ∧ 0 < (s7_8.link 0).txSeq ∧ ∃ u ∈ (s7_8.link
    0).unacked, 0 ≤ u.1 ∧ 8 ≤ u.2.2) ∧
    (rings.flag HLK_STATUS_UP = false) ∧
    (s7_4.flag HLK_STATUS_UP = true ∧ (s7_4.link 0).credits.length = 4 ∧ 1 ≠ 0) := by
  decide +kernel

theorem wit_TransfersGoOutAndLand :
    (State.reset.stepOf 0 = none ∨ State.reset.stepPlan 0 = none ∨ State.reset.slotOf 0 0 = none) ∧
    (Option.any (fun st => decide (List.find? (fun t => t.slot == 0) st.transfers = none)) (s3_5.stepOf 0) =
    true) ∧
    (Option.any (fun st => decide (Option.any (fun pl => decide (Option.any (fun sl => decide (Option.any (fun
    t0 => decide (
      let source := t0.bale = none ∧ sl.length ≠ 0;
      let hold := t0.sent = true ∨ t0.semOk = false ∨ (pl.pipeOf kindPipeSend 0).isSome = true ∧ t0.bale =
        none ∨ s6_47.flag CLK_STATUS_VIN_WARN = true ∨ source ∧ s6_47.fetching 0 sl.subject = true ∨
        s6_47.behind pl st 0 sl = true; hold)) (List.find? (fun t => t.slot == 0) st.transfers) = true))
        pl.slots[0]? = true)) (s6_47.stepPlan 0) = true)) (s6_47.stepOf 0) = true) ∧
    (Option.any (fun st => decide (Option.any (fun pl => decide (Option.any (fun sl => decide (Option.any (fun
    t0 => decide (
      let source := t0.bale = none ∧ sl.length ≠ 0;
      let hold := t0.sent = true ∨ t0.semOk = false ∨ (pl.pipeOf kindPipeSend 0).isSome = true ∧ t0.bale =
        none ∨ w7_7.flag CLK_STATUS_VIN_WARN = true ∨ source ∧ w7_7.fetching 0 sl.subject = true ∨ w7_7.behind
        pl st 0 sl = true; ¬hold ∧ w7_7.transferBytes 0 t0 sl = none)) (List.find? (fun t => t.slot == 0)
        st.transfers) = true)) pl.slots[0]? = true)) (w7_7.stepPlan 0) = true)) (w7_7.stepOf 0) = true) ∧
    (Option.any (fun st => decide (Option.any (fun pl => decide (Option.any (fun sl => decide (st.startBeat +
    sl.beat < y7_6.beat ∧ Option.any (fun t0 => decide (
      let source := t0.bale = none ∧ sl.length ≠ 0;
      let hold := t0.sent = true ∨ t0.semOk = false ∨ (pl.pipeOf kindPipeSend 0).isSome = true ∧ t0.bale =
        none ∨ y7_6.flag CLK_STATUS_VIN_WARN = true ∨ source ∧ y7_6.fetching 0 sl.subject = true ∨ y7_6.behind
        pl st 0 sl = true; ¬hold ∧ (y7_6.transferBytes 0 t0 sl).isSome = true)) (List.find? (fun t => t.slot ==
        0) st.transfers) = true)) pl.slots[0]? = true)) (y7_6.stepPlan 0) = true)) (y7_6.stepOf 0) = true) ∧
    (Option.any (fun st => decide (Option.any (fun pl => decide (Option.any (fun sl => decide (Option.any (fun
    t0 => decide (
      let source := t0.bale = none ∧ sl.length ≠ 0;
      let hold := t0.sent = true ∨ t0.semOk = false ∨ (pl.pipeOf kindPipeSend 0).isSome = true ∧ t0.bale =
        none ∨ y7_7.flag CLK_STATUS_VIN_WARN = true ∨ source ∧ y7_7.fetching 0 sl.subject = true ∨ y7_7.behind
        pl st 0 sl = true;
      let bad := source ∧ ∃ at_, y7_7.tensorPlace 0 sl.subject sl.srcOffset sl.length = some at_ ∧ y7_7.badAt
        (0 + 1) at_ sl.length = true; ¬hold ∧ bad ∧ (y7_7.transferBytes 0 t0 sl).isSome = true)) (List.find?
        (fun t => t.slot == 0) st.transfers) = true)) pl.slots[0]? = true)) (y7_7.stepPlan 0) = true))
        (y7_7.stepOf 0) = true) ∧
    (Option.any (fun st => decide (Option.any (fun pl => decide (Option.any (fun sl => decide (
      let w := pl.ranks[sl.peer]?.getD 0;
      let up := w / 8192 = s7_14.ownAddr / 8192 → ∀ (l : ℕ), nextLink s7_14.dims (s7_14.fld HLK_ADDR_RANK) (w
        % 8192) false = some l → s7_14.flag HLK_STATUS_UP l = true; ¬up ∧ Option.any (fun t0 => decide (
      let source := t0.bale = none ∧ sl.length ≠ 0;
      let hold := t0.sent = true ∨ t0.semOk = false ∨ (pl.pipeOf kindPipeSend 0).isSome = true ∧ t0.bale =
        none ∨ s7_14.flag CLK_STATUS_VIN_WARN = true ∨ source ∧ s7_14.fetching 0 sl.subject = true ∨
        s7_14.behind pl st 0 sl = true; ¬hold ∧ (s7_14.transferBytes 0 t0 sl).isSome = true)) (List.find? (fun t
        => t.slot == 0) st.transfers) = true)) pl.slots[0]? = true)) (s7_14.stepPlan 0) = true)) (s7_14.stepOf
        0) = true) ∧
    (Option.any (fun st => decide (Option.any (fun pl => decide (Option.any (fun sl => decide (
      let w := pl.ranks[sl.peer]?; w ≠ some w7_3.ownAddr ∧ (List.find? (fun t => t.slot == 0 && t.sent)
        st.transfers).isSome = true)) pl.slots[0]? = true)) (w7_3.stepPlan 0) = true)) (w7_3.stepOf 0) = true) ∧
    (Option.any (fun st => decide (Option.any (fun pl => decide (pl.pipeOf kindPipeRecv 0 = none ∧ Option.any
    (fun sl => decide (
      let w := pl.ranks[sl.peer]?; w = some y7_8.ownAddr ∧ (List.find? (fun t => t.slot == 0 && t.sent)
        st.transfers).isSome = true)) pl.slots[0]? = true)) (y7_8.stepPlan 0) = true)) (y7_8.stepOf 0) = true) ∧
    (Option.any (fun st => decide (Option.any (fun pl => decide (pl.pipeOf kindPipeRecv 0 = none ∧ Option.any
    (fun sl => decide (
      let w := pl.ranks[sl.peer]?; w = some y7_8.ownAddr ∧ Option.any (fun t0 => decide (y7_8.tensorPlace 0
        sl.dstTensor sl.dstOffset (t0.bale.getD []).length = some (Place.gddr 4096))) (List.find? (fun t =>
        t.slot == 0 && t.sent) st.transfers) = true)) pl.slots[0]? = true)) (y7_8.stepPlan 0) = true))
        (y7_8.stepOf 0) = true) ∧
    (State.reset.stepOf 0 = none) ∧
    (Option.any (fun st => decide (Option.any (fun pl => decide (d7_15.pipe = none ∧ s7_13.tensorPlace 0
    d7_15.tensor d7_15.off d7_15.data.length = some (Place.gddr 4096))) (s7_13.stepPlan 0) = true))
    (s7_13.stepOf 0) = true) ∧
    (Option.any (fun st => decide (Option.any (fun pl => decide (l7_4.pipe = none ∧ s3_5.tensorPlace 0
    l7_4.tensor l7_4.off l7_4.data.length = none)) (s3_5.stepPlan 0) = true)) (s3_5.stepOf 0) = true) ∧
    (Option.any (fun st => decide (st.landings = [] ∧ Option.any (fun pl => decide (Option.any (fun node =>
    decide (Option.any (fun mb => decide (l7_3.pipe = some (node, mb) ∧ st.pipeTurn pl node mb = PipeTurn.free))
    (Option.map Prod.snd l7_3.pipe) = true)) (Option.map Prod.fst l7_3.pipe) = true)) (s3_5.stepPlan 0) = true))
    (s3_5.stepOf 0) = true) ∧
    (Option.any (fun st => decide (st.landings = [] ∧ Option.any (fun pl => decide (Option.any (fun node =>
    decide (Option.any (fun mb => decide (l7_5.pipe = some (node, mb) ∧ st.pipeTurn pl node mb ≠ PipeTurn.free))
    (Option.map Prod.snd l7_5.pipe) = true)) (Option.map Prod.fst l7_5.pipe) = true)) (s3_5.stepPlan 0) = true))
    (s3_5.stepOf 0) = true) ∧
    (Option.any (fun st => decide (∃ x ∈ st.transfers, x.slot = 0)) (s6_47.stepOf 0) = true) := by
  decide +kernel

theorem wit_YardTimeBeatsAndFrames :
    (State.reset.yt.nextCount.getD 0 < 2 ^ 64) ∧
    (0 < 2 ^ 64 ∧ 1 ≤ 1 ∧ 1 ≤ 64 ∧ 5 < 256 ∧ 5 ≠ s7_16.fld YTM_PERIOD_EPOCH ∧ (Instr.markerFrameReceive 0 1 5
    true true 0 false = Instr.markerFrameReceive 0 1 5 true true 0 false ∧ s7_16.ytSource = 1 ∨
    Instr.markerFrameReceive 0 1 5 true true 0 false = Instr.timeFrameReceive 0 0 1 5 true true 0 false ∧
    s7_16.flag HLK_STATUS_UP = true ∧ s7_16.ytSource = 2 ∧ s7_16.fld YTM_CTRL_UPLINK = 0)) ∧
    (0 < 2 ^ 64 ∧ 0 ≤ s7_16.beat + 1 ∧ s7_16.beat ≤ 0 + 1 ∧ 1 ≤ 1 ∧ 1 ≤ 64 ∧ 0 < 256 ∧ 0 = s7_16.fld
    YTM_PERIOD_EPOCH ∧ (Instr.markerFrameReceive 0 1 0 true true 0 false = Instr.markerFrameReceive 0 1 0 true
    true 0 false ∧ s7_16.ytSource = 1 ∨ Instr.markerFrameReceive 0 1 0 true true 0 false =
    Instr.timeFrameReceive 0 0 1 0 true true 0 false ∧ s7_16.flag HLK_STATUS_UP = true ∧ s7_16.ytSource = 2 ∧
    s7_16.fld YTM_CTRL_UPLINK = 0)) ∧
    (0 < 2 ^ 64 ∧ 0 < 256 ∧ (0 = 0 ∨ 64 < 0 ∨ 0 = s7_16.fld YTM_PERIOD_EPOCH ∧ (s7_16.beat + 1 < 0 ∨ 0 + 1 <
    s7_16.beat)) ∧ (Instr.markerFrameReceive 0 0 0 true true 0 false = Instr.markerFrameReceive 0 0 0 true true
    0 false ∧ s7_16.ytSource = 1 ∨ Instr.markerFrameReceive 0 0 0 true true 0 false = Instr.timeFrameReceive 0 0
    0 0 true true 0 false ∧ s7_16.flag HLK_STATUS_UP = true ∧ s7_16.ytSource = 2 ∧ s7_16.fld YTM_CTRL_UPLINK =
    0)) ∧
    (State.reset.flag HLK_STATUS_UP = false) ∧
    (s7_4.flag HLK_STATUS_UP = true ∧
      let used := false = true ∧ false = true ∧ false = false; ¬(used ∧ s7_4.ytSource = 2 ∧ s7_4.fld
        YTM_CTRL_UPLINK = 0)) ∧
    (
      let used := false = true ∧ false = true ∧ false = false; ¬(used ∧ State.reset.ytSource = 1)) ∧
    (State.reset.flag (HLK_ETH_STATUS_UP 0) = false ∨ false = false ∧ ¬(State.reset.ytSource = 3 ∧
    State.reset.fld YTM_CTRL_PTP_PORT = 0 ∧ false = true ∧ false = false)) ∧
    (s7_19.ytSource = 3 ∧ s7_19.ytState = ytLocked ∧ s7_19.flag (HLK_ETH_STATUS_UP 1) = true ∧ s7_19.fld
    YTM_CTRL_PTP_PORT = 1) ∧
    (ethS.flag (HLK_ETH_STATUS_UP 1) = true) ∧
    (State.reset.executing = false) ∧
    (s3_5.executing = true) := by
  decide +kernel

theorem wit_YardTimeStates :
    (
      let lost := s7_16.ytState = ytLocked ∨ s7_16.ytState = ytSlew ∨ s7_16.ytState = ytAcquire;
        s7_16.ytSource ≠ 0 ∧ lost ∧ (s7_16.ytState = ytLocked ∨ s7_16.synced = true) ∧ s7_16.clk.root =
        Root.crystal) ∧
    (
      let lost := y7_12.ytState = ytLocked ∨ y7_12.ytState = ytSlew ∨ y7_12.ytState = ytAcquire;
        y7_12.ytSource ≠ 0 ∧ lost ∧ (y7_12.ytState = ytLocked ∨ y7_12.synced = true) ∧ y7_12.clk.root ≠
        Root.crystal) ∧
    (
      let lost := s7_23.ytState = ytLocked ∨ s7_23.ytState = ytSlew ∨ s7_23.ytState = ytAcquire;
        s7_23.ytSource ≠ 0 ∧ lost ∧ s7_23.ytState ≠ ytLocked ∧ s7_23.synced = false) ∧
    (
      let lost := s7_21.ytState = ytLocked ∨ s7_21.ytState = ytSlew ∨ s7_21.ytState = ytAcquire;
        s7_21.ytSource ≠ 0 ∧ ¬lost) ∧
    (s7_16.ytSource ≠ 0 ∧ s7_16.yt.present = true ∧ s7_16.beat % 4096 = 0 ∧ s7_16.yt.rejected = false ∧
    (s7_16.ytState = ytLocked ∨ s7_16.ytState = ytSlew) ∧ (s7_16.ytState = ytLocked ∨ s7_16.synced = true) ∧
    s7_16.clk.root = Root.crystal ∧
      let near := (100001 - s7_16.yt.lockRate).natAbs ≤ 100000; ¬near) ∧
    (s7_16.ytSource ≠ 0 ∧ s7_16.yt.present = true ∧ s7_16.beat % 4096 = 0 ∧ s7_16.yt.rejected = false ∧
      let near := (0 - s7_16.yt.lockRate).natAbs ≤ 100000; near ∨ s7_16.ytState ≠ ytLocked ∧ s7_16.ytState ≠
        ytSlew) ∧
    (w7_4.ytSource ≠ 0 ∧ w7_4.yt.present = true ∧ w7_4.beat % 4096 = 0 ∧ w7_4.yt.rejected = true ∧
      let near := (100001 - w7_4.yt.lockRate).natAbs ≤ 100000; ¬near) ∧
    (y7_13.ytSource ≠ 0 ∧ y7_13.yt.present = true ∧ y7_13.beat % 4096 = 0 ∧ y7_13.yt.rejected = true ∧
    (y7_13.ytState = ytHoldover ∨ y7_13.ytState = ytUnsync) ∧
      let near := (0 - y7_13.yt.lockRate).natAbs ≤ 100000; near) ∧
    (State.reset.ytSource = 0) ∧
    (State.reset.yt.present = false ∨ State.reset.beat % 4096 ≠ 0) ∧
    (s7_21.ytSource ≠ 0 ∧ s7_21.yt.rejected = false ∧ (s7_21.ytState = ytHoldover ∨ s7_21.ytState = ytUnsync)) ∧
    (s7_16.ytSource ≠ 0 ∧ (s7_16.yt.rejected = true ∨ s7_16.ytState ≠ ytHoldover ∧ s7_16.ytState ≠ ytUnsync)) ∧
    (State.reset.ytState ≠ ytAcquire) ∧
    (s7_22.ytState = ytAcquire ∧ s7_22.yt.hold.isSome = true ∧ true = true) ∧
    (s7_22.ytState = ytAcquire ∧ (false = false ∨ s7_22.yt.hold = none)) ∧
    (
      let runs := State.reset.yt.hold.isSome = true ∧ State.reset.synced = true ∧ (State.reset.ytState =
        ytHoldover ∨ State.reset.ytState = ytAcquire); ¬runs) ∧
    (
      let runs := s7_22.yt.hold.isSome = true ∧ s7_22.synced = true ∧ (s7_22.ytState = ytHoldover ∨
        s7_22.ytState = ytAcquire); runs) := by
  decide +kernel

theorem wit_EthernetCountsAndAnswers :
    (State.reset.flag (HLK_ETH_STATUS_UP 0) = false) ∧
    (ethS.flag (HLK_ETH_STATUS_UP 1) = true ∧ false = false) ∧
    (ethS.flag (HLK_ETH_STATUS_UP 1) = true ∧ true = true) ∧
    (ethS.flag (HLK_ETH_STATUS_UP 1) = true ∧ ethS.knownQp 1 0 = false) ∧
    (ethS.flag (HLK_ETH_STATUS_UP 1) = true ∧
      let want := tabGet 0 ethS.eth.psn 77; ethS.knownQp 1 77 = true ∧
      let served := 1 ≤ 1 ∧ 1 ≤ 3; served ∧ 0 = want) ∧
    (ethS.flag (HLK_ETH_STATUS_UP 1) = true ∧
      let want := tabGet 0 ethS.eth.psn 77; ethS.knownQp 1 77 = true ∧
      let served := 1 ≤ 1 ∧ 1 ≤ 3; served ∧
      let repeated := (want + 2 ^ 24 - 16777215) % 2 ^ 24 < 2 ^ 23; 16777215 ≠ want ∧ repeated) ∧
    (ethS.flag (HLK_ETH_STATUS_UP 1) = true ∧
      let want := tabGet 0 ethS.eth.psn 77; ethS.knownQp 1 77 = true ∧
      let served := 1 ≤ 1 ∧ 1 ≤ 3; served ∧
      let repeated := (want + 2 ^ 24 - 1) % 2 ^ 24 < 2 ^ 23; 1 ≠ want ∧ ¬repeated) ∧
    (ethS.flag (HLK_ETH_STATUS_UP 1) = true ∧ ethS.knownQp 1 77 = true ∧
      let served := 1 ≤ 0 ∧ 0 ≤ 3; ¬served) ∧
    (true = true) := by
  decide +kernel

theorem wit_MusterSumsGoUpAndResultsDown :
    (State.reset.collRun 0 0 = none ∨ State.reset.collCtx 0 0 = none) ∧
    (State.reset.stepOf 0 = none ∧ State.reset.planOf 0 0 = none) ∧
    (w7_8.stepOf 0 = none ∧ Option.any (fun pl => decide (Option.any (fun q => decide (Option.any (fun own =>
    decide (q.reduces = false ∨ own ∉ q.members ∨ pl.elastic = false)) pl.ownRank = true)) pl.colls[0]? = true))
    (w7_8.planOf 0 0) = true) ∧
    (y7_9.stepOf 0 = none ∧ Option.any (fun pl => decide (
      let drop := (Option.map (fun x => x.drop) (List.find? (fun x => x.kind == 4 && x.subject == 0)
        pl.slots)).getD false; pl.elastic = true ∧ drop = true ∧ Option.any (fun q => decide (q.reduces = true ∧
        Option.any (fun own => decide (own ∈ q.members)) pl.ownRank = true)) pl.colls[0]? = true)) (y7_9.planOf
        0 0) = true) ∧
    (s7_48.stepOf 0 = none ∧ Option.any (fun pl => decide (
      let drop := (Option.map (fun x => x.drop) (List.find? (fun x => x.kind == 4 && x.subject == 0)
        pl.slots)).getD false; pl.elastic = true ∧ drop = false ∧ Option.any (fun q => decide (q.reduces = true
        ∧ Option.any (fun own => decide (own ∈ q.members)) pl.ownRank = true)) pl.colls[0]? = true))
        (s7_48.planOf 0 0) = true) ∧
    (Option.any (fun r => decide (Option.any (fun x => decide (
      let wait := r.opened = false ∨ r.semOk = false ∨ r.sent = true ∨ s7_26.flag CLK_STATUS_VIN_WARN = true ∨
        r.withdrawn = false ∧ s7_26.fetching 0 x.coll.src = true; ¬wait)) (s7_26.collCtx 0 0) = true))
        (s7_26.collRun 0 0) = true) ∧
    (Option.any (fun r => decide (Option.any (fun x => decide (
      let wait := r.opened = false ∨ r.semOk = false ∨ r.sent = true ∨ s7_29.flag CLK_STATUS_VIN_WARN = true ∨
        r.withdrawn = false ∧ s7_29.fetching 0 x.coll.src = true; wait)) (s7_29.collCtx 0 0) = true))
        (s7_29.collRun 0 0) = true) ∧
    (Option.any (fun r => decide (Option.any (fun x => decide (
      let kid := ∃ c ∈ x.kids 0, c.1 = 0; (x.plan.elastic = true → x.replay = true ∨ r.opened = false ∨
        s7_26.beatPast (x.closeBeat 0) false = false) ∧ (0 ≠ x.id ∨ x.coll.reduces = false ∨ ¬kid)))
        (s7_26.collCtx 0 0) = true)) (s7_26.collRun 0 0) = true) ∧
    (Option.any (fun r => decide (Option.any (fun x => decide (
      let drop := (Option.map (fun x => x.drop) x.slot).getD false; x.coll.reduces = true ∧ (drop = true ∨ 0 ∈
        r.closed) ∧
      let kid := ∃ c ∈ x.kids 0, c.1 = 1; kid ∧ (x.plan.elastic = true → x.replay = true ∨ r.opened = false ∨
        s7_35.beatPast (x.closeBeat 0) false = false) ∧ 1 ≠ x.step.step)) (s7_35.collCtx 0 0) = true))
        (s7_35.collRun 0 0) = true) ∧
    (Option.any (fun r => decide (Option.any (fun x => decide (
      let drop := (Option.map (fun x => x.drop) x.slot).getD false; x.coll.reduces = true ∧ drop = false ∧ 0 ∉
        r.closed ∧
      let kid := ∃ c ∈ x.kids 0, c.1 = 1; kid ∧ (x.plan.elastic = true → x.replay = true ∨ r.opened = false ∨
        s7_26.beatPast (x.closeBeat 0) false = false) ∧ 1 ≠ x.step.step)) (s7_26.collCtx 0 0) = true))
        (s7_26.collRun 0 0) = true) ∧
    (Option.any (fun r => decide (Option.any (fun x => decide (x.coll.reduces = true ∧
      let kid := ∃ c ∈ x.kids 0, c.1 = 1;
      let skip := x.replay = true ∧ 1 ∈ replM.replayLeft 0 0 0 x; kid ∧ skip ∧ (x.plan.elastic = true →
        x.replay = true ∨ r.opened = false ∨ replM.beatPast (x.closeBeat 0) false = false))) (replM.collCtx 0 0)
        = true)) (replM.collRun 0 0) = true) ∧
    (Option.any (fun r => decide (Option.any (fun x => decide (
      let drop := (Option.map (fun x => x.drop) x.slot).getD false; x.coll.reduces = true ∧ drop = true ∧ (0 ∈
        r.closed ∨ 0 ∈ r.shut) ∧
      let kid := ∃ c ∈ x.kids 0, c.1 = 1;
      let skip := x.replay = true ∧ 1 ∈ y7_10.replayLeft 0 0 0 x; kid ∧ ¬skip ∧ (x.plan.elastic = true →
        x.replay = true ∨ r.opened = false ∨ y7_10.beatPast (x.closeBeat 0) false = false))) (y7_10.collCtx 0 0)
        = true)) (y7_10.collRun 0 0) = true) ∧
    (Option.any (fun r => decide (Option.any (fun x => decide (
      let drop := (Option.map (fun x => x.drop) x.slot).getD false; x.coll.reduces = true ∧ drop = false ∧ (0
        ∈ r.closed ∨ 0 ∈ r.shut) ∧
      let kid := ∃ c ∈ x.kids 0, c.1 = 1;
      let skip := x.replay = true ∧ 1 ∈ s7_35.replayLeft 0 0 0 x; kid ∧ ¬skip ∧ (x.plan.elastic = true →
        x.replay = true ∨ r.opened = false ∨ s7_35.beatPast (x.closeBeat 0) false = false))) (s7_35.collCtx 0 0)
        = true)) (s7_35.collRun 0 0) = true) ∧
    (Option.any (fun r => decide (Option.any (fun x => decide (x.coll.reduces = true ∧ 0 ∉ r.closed ∧ 0 ∉ r.shut
    ∧
      let kid := ∃ c ∈ x.kids 0, c.1 = 1;
      let skip := x.replay = true ∧ 1 ∈ s7_32.replayLeft 0 0 0 x; kid ∧ ¬skip ∧ (∃ u ∈ r.sums, u.shard = 0 ∧
        u.pos = 1) ∧ (x.plan.elastic = true → x.replay = true ∨ r.opened = false ∨ s7_32.beatPast (x.closeBeat
        0) false = false))) (s7_32.collCtx 0 0) = true)) (s7_32.collRun 0 0) = true) ∧
    (Option.any (fun r => decide (Option.any (fun x => decide (x.coll.reduces = true ∧ (r.sums.any fun u =>
    decide (2 ∉ r.closed ∧ 2 ∉ r.shut ∧
      let kid := ∃ c ∈ x.kids 2, c.1 = 1;
      let skip := x.replay = true ∧ 1 ∈ s7_32.replayLeft 0 0 2 x; kid ∧ ¬skip ∧ (∀ u ∈ r.sums, ¬(u.shard = 2 ∧
        u.pos = 1)) ∧ (x.plan.elastic = true → x.replay = true ∨ r.opened = false ∨ s7_32.beatPast (x.closeBeat
        2) false = false))) = true)) (s7_32.collCtx 0 0) = true)) (s7_32.collRun 0 0) = true) ∧
    (Option.any (fun r => decide (r.opened = true ∧ r.sent = true ∧ Option.any (fun x => decide (x.coll.reduces
    = true ∧ 0 ∉ r.closed ∧ 0 ∉ r.shut ∧
      let kid := ∃ c ∈ x.kids 0, c.1 = 1;
      let skip := x.replay = true ∧ 1 ∈ s7_29.replayLeft 0 0 0 x; kid ∧ ¬skip ∧ (∀ u ∈ r.sums, ¬(u.shard = 0 ∧
        u.pos = 1)) ∧ (∀ d ∈ x.kids 0, d.1 = 1 ∨ ∃ u ∈ r.sums, u.shard = 0 ∧ u.pos = d.1) ∧ (x.plan.elastic =
        true → x.replay = true ∨ r.opened = false ∨ s7_29.beatPast (x.closeBeat 0) false = false)))
        (s7_29.collCtx 0 0) = true)) (s7_29.collRun 0 0) = true) ∧
    (Option.any (fun r => decide (Option.any (fun x => decide (x.coll.reduces = false ∨ r.opened = false ∨ 0 ∈
    r.closed ∨ x.plan.elastic = false ∨ x.replay = true ∨ s7_26.beat < x.closeBeat 0)) (s7_26.collCtx 0 0) =
    true)) (s7_26.collRun 0 0) = true) ∧
    (Option.any (fun r => decide (r.opened = true ∧ r.sent = true ∧ Option.any (fun x => decide (x.coll.reduces
    = true ∧ x.plan.elastic = true ∧ x.replay = false ∧ 0 ∉ r.closed ∧ x.closeBeat 0 ≤ s7_36.beat))
    (s7_36.collCtx 0 0) = true)) (s7_36.collRun 0 0) = true) ∧
    (Option.any (fun r => decide (Option.any (fun x => decide (2 ∉ x.due ∨ 2 ∈ r.results)) (s7_26.collCtx 0 0) =
    true)) (s7_26.collRun 0 0) = true) ∧
    (Option.any (fun r => decide (r.done = false ∧ Option.any (fun x => decide ((x.due.any fun j => decide (j ∉
    r.results ∧ r.results ≠ [])) = true)) (s7_39.collCtx 0 0) = true)) (s7_39.collRun 0 0) = true) := by
  decide +kernel

theorem wit_MusterExchangesAndCancels :
    (State.reset.collRun 0 0 = none ∨ State.reset.collCtx 0 0 = none) ∧
    (Option.any (fun r => decide (Option.any (fun x => decide ((r.rows.any fun a => decide (
      let takes := r.done = false ∧ x.coll.exchanges = true ∧ m7_1.sender < x.n ∧ ∀ a ∈ r.rows, a.sender ≠
        m7_1.sender; takes)) = true)) (y7_11.collCtx 0 0) = true)) (y7_11.collRun 0 0) = true) ∧
    (Option.any (fun r => decide (Option.any (fun x => decide (
      let takes := r.done = false ∧ x.coll.exchanges = true ∧ m7_1.sender < x.n ∧ ∀ a ∈ r.rows, a.sender ≠
        m7_1.sender; ¬takes)) (s7_26.collCtx 0 0) = true)) (s7_26.collRun 0 0) = true) ∧
    (Option.any (fun r => decide (Option.any (fun x => decide (
      let takes := r.done = false ∧ x.coll.op = 8 ∧ 1 ≠ x.rank ∧ 1 ∈ x.line 0 ∧ ∀ v ∈ r.vecs, ¬(v.1 = 0 ∧
        v.2.1 = 1); takes)) (s7_46.collCtx 0 0) = true)) (s7_46.collRun 0 0) = true) ∧
    (Option.any (fun r => decide (Option.any (fun x => decide (
      let takes := r.done = false ∧ x.coll.op = 8 ∧ 0 ≠ x.rank ∧ 0 ∈ x.line 0 ∧ ∀ v ∈ r.vecs, ¬(v.1 = 0 ∧
        v.2.1 = 0); ¬takes)) (s7_26.collCtx 0 0) = true)) (s7_26.collRun 0 0) = true) ∧
    (Option.any (fun r => decide (r.done = true ∧ (w7_5.collCtx 0 0).isSome = true)) (w7_5.collRun 0 0) = true) ∧
    (Option.any (fun r => decide (r.done = false ∧ Option.any (fun x => decide (2 ≤ x.n ∧ x.rank < x.n ∧ 1 < x.n
    ∧ 1 ≠ x.rank)) (s7_26.collCtx 0 0) = true)) (s7_26.collRun 0 0) = true) ∧
    (0 = 0 ∨ State.reset.fnLive 0 = false ∨ State.reset.flag MUS_CANCEL_STATUS_BUSY (0 - 1) = true) ∧
    (act.prtState 0 = 1 ∧ act.flag MUS_CANCEL_STATUS_BUSY = false ∧ 1 = 0 + 1 ∧
      let id := getBits 0 12 4;
      let k := getBits 0 0 12; ∀ (pl : Plan), act.planOf 0 id = some pl → ∀ (c : Coll), pl.colls[k]? = some c
        → ∀ (own : ℕ), pl.ownRank = some own → own ∉ c.members ∨ c.op = 9) ∧
    (s7_26.prtState 0 = 1 ∧ s7_26.flag MUS_CANCEL_STATUS_BUSY = false ∧ Option.any (fun st => decide (1 = 0 + 1
    ∧
      let id := getBits 0 12 4;
      let k := getBits 0 0 12; st.plan = id ∧ Option.any (fun pl => decide (Option.any (fun c => decide (c.op
        ≠ 9 ∧ Option.any (fun own => decide (own ∈ c.members ∧ Option.any (fun r => decide (r.granted = true ∨
        true = true)) (List.find? (fun r => r.coll == k) st.colls) = true)) pl.ownRank = true)) pl.colls[k]? =
        true)) (s7_26.planOf 0 id) = true)) (s7_26.stepOf 0) = true) ∧
    (s7_26.prtState 0 = 1 ∧ s7_26.flag MUS_CANCEL_STATUS_BUSY = false ∧ Option.any (fun st => decide (1 = 0 + 1
    ∧
      let id := getBits 0 12 4;
      let k := getBits 0 0 12; st.plan = id ∧ Option.any (fun pl => decide (Option.any (fun c => decide (c.op
        ≠ 9 ∧ Option.any (fun own => decide (own ∈ c.members ∧ Option.any (fun r => decide (r.granted = false ∧
        false = false)) (List.find? (fun r => r.coll == k) st.colls) = true)) pl.ownRank = true)) pl.colls[k]? =
        true)) (s7_26.planOf 0 id) = true)) (s7_26.stepOf 0) = true) ∧
    (s7_48.prtState 0 = 1 ∧ s7_48.flag MUS_CANCEL_STATUS_BUSY = false ∧ 1 = 0 + 1 ∧
      let id := getBits 0 12 4;
      let k := getBits 0 0 12; (∀ (st : Step), s7_48.stepOf 0 = some st → st.plan = id → List.find? (fun r =>
        r.coll == k) st.colls = none) ∧ Option.any (fun pl => decide (Option.any (fun c => decide (c.op ≠ 9 ∧
        Option.any (fun own => decide (own ∈ c.members)) pl.ownRank = true)) pl.colls[k]? = true)) (s7_48.planOf
        0 id) = true) := by
  decide +kernel

theorem wit_RootClock :
    (
      let r := getBits 0 0 2;
      let lock := if bitOf 0 2 = true then CLK_STATUS_LOOPB_LOCK else CLK_STATUS_LOOPA_LOCK;
      let ready := r ≠ 3 ∧ (r = 0 → State.reset.flag CLK_STATUS_XA_READY = true) ∧ (r = 1 → State.reset.flag
        CLK_STATUS_XB_READY = true) ∧ State.reset.flag lock = true ∧ (State.reset.isolated = true → r ≠ 2 ∧
        State.reset.onFosc = false); ¬ready) ∧
    (crys.onFosc = false ∧
      let r := getBits 0 0 2;
      let lock := if bitOf 0 2 = true then CLK_STATUS_LOOPB_LOCK else CLK_STATUS_LOOPA_LOCK;
      let ready := r ≠ 3 ∧ (r = 0 → crys.flag CLK_STATUS_XA_READY = true) ∧ (r = 1 → crys.flag
        CLK_STATUS_XB_READY = true) ∧ crys.flag lock = true ∧ (crys.isolated = true → r ≠ 2 ∧ crys.onFosc =
        false); ready ∧ r ≠ 2) ∧
    (s8_1.allBoundary = false ∧
      let r := getBits 2 0 2;
      let lock := if bitOf 2 2 = true then CLK_STATUS_LOOPB_LOCK else CLK_STATUS_LOOPA_LOCK;
      let ready := r ≠ 3 ∧ (r = 0 → s8_1.flag CLK_STATUS_XA_READY = true) ∧ (r = 1 → s8_1.flag
        CLK_STATUS_XB_READY = true) ∧ s8_1.flag lock = true ∧ (s8_1.isolated = true → r ≠ 2 ∧ s8_1.onFosc =
        false); ready ∧ (r = 2 ↔ s8_1.onFosc = false)) ∧
    (crys.onFosc = false ∧ crys.allBoundary = true ∧
      let r := getBits 2 0 2;
      let lock := if bitOf 2 2 = true then CLK_STATUS_LOOPB_LOCK else CLK_STATUS_LOOPA_LOCK;
      let ready := r ≠ 3 ∧ (r = 0 → crys.flag CLK_STATUS_XA_READY = true) ∧ (r = 1 → crys.flag
        CLK_STATUS_XB_READY = true) ∧ crys.flag lock = true ∧ (crys.isolated = true → r ≠ 2 ∧ crys.onFosc =
        false); ready ∧ r = 2) ∧
    (w8_1.onFosc = true ∧
      let r := getBits 2 0 2;
      let lock := if bitOf 2 2 = true then CLK_STATUS_LOOPB_LOCK else CLK_STATUS_LOOPA_LOCK;
      let ready := r ≠ 3 ∧ (r = 0 → w8_1.flag CLK_STATUS_XA_READY = true) ∧ (r = 1 → w8_1.flag
        CLK_STATUS_XB_READY = true) ∧ w8_1.flag lock = true ∧ (w8_1.isolated = true → r ≠ 2 ∧ w8_1.onFosc =
        false); ready ∧ r = 2) ∧
    (w8_1.onFosc = true ∧ w8_1.allBoundary = true ∧
      let r := getBits 0 0 2;
      let lock := if bitOf 0 2 = true then CLK_STATUS_LOOPB_LOCK else CLK_STATUS_LOOPA_LOCK;
      let ready := r ≠ 3 ∧ (r = 0 → w8_1.flag CLK_STATUS_XA_READY = true) ∧ (r = 1 → w8_1.flag
        CLK_STATUS_XB_READY = true) ∧ w8_1.flag lock = true ∧ (w8_1.isolated = true → r ≠ 2 ∧ w8_1.onFosc =
        false); ready ∧ r ≠ 2) ∧
    (s8_10.clk.off = true) ∧
    (s8_10.clk.off = true ∨ s8_10.flag CLK_STATUS_VIN_WARN = true) ∧
    (State.reset.clk.off = false) ∧
    (State.reset.clk.off = false ∧ State.reset.flag CLK_STATUS_VIN_WARN = false ∧ ¬(State.reset.clk.root =
    Root.crystal ∧ State.reset.fld CLK_STATUS_REF = false.toNat)) ∧
    (s8_2.clk.off = false ∧ s8_2.flag CLK_STATUS_VIN_WARN = false ∧ s8_2.clk.root = Root.crystal ∧ s8_2.flag
    CLK_STATUS_XB_READY = true ∧ s8_2.flag CLK_CTRL_AUTO_FAILOVER = true ∧ s8_2.fld CLK_STATUS_REF = false.toNat
    ∧ false = false) ∧
    (s8_3.clk.off = false ∧ s8_3.flag CLK_STATUS_VIN_WARN = false ∧ s8_3.clk.root = Root.crystal ∧ s8_3.fld
    CLK_STATUS_REF = true.toNat ∧ (true = true ∨ s8_3.flag CLK_STATUS_XB_READY = false ∨ s8_3.flag
    CLK_CTRL_AUTO_FAILOVER = false)) ∧
    (
      let mine := if false = true then CLK_STATUS_LOOPB_LOCK else CLK_STATUS_LOOPA_LOCK; State.reset.clk.off =
        true ∨ State.reset.flag mine = false) ∧
    (crys.clk.off = false ∧
      let mine := if false = true then CLK_STATUS_LOOPB_LOCK else CLK_STATUS_LOOPA_LOCK;
      let other := if false = true then CLK_STATUS_LOOPA_LOCK else CLK_STATUS_LOOPB_LOCK; crys.flag mine =
        true ∧ crys.flag other = true) ∧
    (s8_4.clk.off = false ∧
      let mine := if true = true then CLK_STATUS_LOOPB_LOCK else CLK_STATUS_LOOPA_LOCK;
      let other := if true = true then CLK_STATUS_LOOPA_LOCK else CLK_STATUS_LOOPB_LOCK; s8_4.flag mine = true
        ∧ s8_4.flag other = false) ∧
    (
      let n := getBits 11 0 4; 10 < n) ∧
    (State.reset.allBoundary = true ∧
      let n := getBits 0 0 4; n ≤ 10) ∧
    (s3_5.allBoundary = false ∧
      let n := getBits 0 0 4; n ≤ 10) ∧
    (
      let lo := getBits 0 0 5;
      let hi := getBits 0 8 5; lo ≤ hi ∧ hi ≤ 16) ∧
    (
      let lo := getBits 1 0 5;
      let hi := getBits 1 8 5; hi < lo ∨ 16 < hi) ∧
    (
      let w := getBits 800 0 16; 800 ≤ w ∧ w ≤ 2400) ∧
    (
      let w := getBits 0 0 16; w < 800 ∨ 2400 < w) ∧
    (0 ≠ CLK_FREQ_BOUNDS ∧ 0 ≠ CLK_PWR_CAP) := by
  decide +kernel

theorem wit_HeatAndInputPower :
    (s8_10.clk.off = true) ∧
    (State.reset.clk.off = false) ∧
    (w6_17.clk.off = false ∧ w6_17.flag CLK_STATUS_VIN_WARN = true ∧ ∀ d < 5, (fun d => min ([].getD d 0) 255) d
    < 115) ∧
    (State.reset.clk.off = false ∧ State.reset.flag CLK_STATUS_VIN_WARN = false ∧ (∀ d < 5, (fun d => min
    ([110].getD d 0) 255) d < 115) ∧ 105 ≤ (fun d => min ([110].getD d 0) 255) 0) ∧
    (State.reset.clk.off = false ∧ State.reset.flag CLK_STATUS_VIN_WARN = false ∧ (∀ d < 5, (fun d => min
    ([110].getD d 0) 255) d < 115) ∧ 105 ≤ (fun d => min ([110].getD d 0) 255) 0 ∧ tabFind State.reset.clk.emerg
    0 = none) ∧
    (State.reset.clk.off = false ∧ State.reset.flag CLK_STATUS_VIN_WARN = false ∧ (∀ d < 5, (fun d => min
    ([110].getD d 0) 255) d < 115) ∧ 105 ≤ (fun d => min ([110].getD d 0) 255) 0 ∧ tabFind State.reset.clk.emerg
    0 = none ∧ 0 < 4) ∧
    (State.reset.clk.off = false ∧ State.reset.flag CLK_STATUS_VIN_WARN = false ∧ (∀ d < 5, (fun d => min
    ([].getD d 0) 255) d < 115) ∧ (fun d => min ([].getD d 0) 255) 0 < 105) ∧
    (State.reset.clk.off = false ∧ 0 < 5 ∧ 115 ≤ (fun d => min (t8_2.getD d 0) 255) 0 ∧ ∀ e < 0, (fun d => min
    (t8_2.getD d 0) 255) e < 115) ∧
    (tabFind s8_5.clk.emerg 1 = some 1 ∧ 105 < tabGet 0 s8_5.clk.temps 1) ∧
    (tabFind State.reset.clk.emerg 0 ≠ some 1 ∨ tabGet 0 State.reset.clk.temps 0 ≤ 105) ∧
    ((tabFind s8_6.clk.emerg 1).isSome = true ∧ tabGet 0 s8_6.clk.temps 1 < 95 ∧ 1 < 4) ∧
    (tabFind State.reset.clk.emerg 0 = none ∨ 95 ≤ tabGet 0 State.reset.clk.temps 0) ∧
    (w6_17.clk.off = false ∧ w6_17.flag CLK_STATUS_VIN_WARN = true) ∧
    (State.reset.clk.off = false ∧ State.reset.flag CLK_STATUS_VIN_WARN = false ∧ 0 < 3800) ∧
    (State.reset.clk.off = false ∧ State.reset.flag CLK_STATUS_VIN_WARN = false ∧ 6200 < 6201) ∧
    (State.reset.clk.off = false ∧ State.reset.flag CLK_STATUS_VIN_WARN = false ∧ 3800 ≤ 3800 ∧ 3800 ≤ 6200) ∧
    (w6_17.flag CLK_STATUS_VIN_WARN = true ∧ w6_17.clk.off = false) ∧
    (s8_10.flag CLK_STATUS_VIN_WARN = true ∧ s8_10.clk.off = true) ∧
    (State.reset.flag CLK_STATUS_VIN_WARN = false) ∧
    ((tabFind s8_6.clk.emerg 1).isSome = true ∧ tabGet 0 s8_6.clk.temps 1 < 95 ∧ ∀ k, k ≠ 1 → tabFind
    s8_6.clk.emerg k = none) := by
  refine ⟨by decide +kernel, by decide +kernel, by decide +kernel, by decide +kernel, by decide +kernel, by decide +kernel, by decide +kernel, by decide +kernel, by decide +kernel, by decide +kernel, by decide +kernel, by decide +kernel, by decide +kernel, by decide +kernel, by decide +kernel, by decide +kernel, by decide +kernel, by decide +kernel, by decide +kernel, by decide +kernel, by decide +kernel, ?_⟩
  intro k h
  have e : s8_6.clk.emerg = [(1, 2)] := by rfl
  rw [e]; simp [tabFind, Ne.symm h]

theorem wit_ModuleResetAndStartup :
    (∀ o ∈ State.reset.shed.ops, ∀ x ∈ o.staged, x.2.1 < 2) ∧
    (State.reset.clk.off = false ∨ State.reset.clk.trip = none) ∧
    (s8_11.clk.off = true ∧ Option.any (fun d => decide (d < 5)) s8_11.clk.trip = true) ∧
    (s8_10.clk.off = true) ∧
    (State.reset.clk.off = false) ∧
    (State.reset.clk.off = true ∨ State.reset.boot.inReset = true) ∧
    (fwA.clk.off = false ∧ fwA.boot.inReset = false) ∧
    (getBits 2953248769 16 16 = 45063) ∧
    (getBits 0 16 16 ≠ 45063) ∧
    (bitOf 2953248770 1 = true ∧ getBits 2953248770 16 16 = 45063) ∧
    (bitOf 0 1 = false ∨ getBits 0 16 16 ≠ 45063) ∧
    (crys.fld BOOT_STATUS_STAGE = 3) ∧
    (State.reset.fld BOOT_STATUS_STAGE ≠ 3) ∧
    (fwA.boot.inReset = false ∨ fwA.clk.off = true) ∧
    (s8_13.boot.inReset = true ∧ s8_13.clk.off = false ∧ s8_13.boot.slotA.installed = false ∧
    s8_13.boot.slotB.installed = false) ∧
    (State.reset.boot.inReset = true ∧ State.reset.clk.off = false ∧ State.reset.boot.slotA.installed = true ∧
    State.reset.boot.slotA.good = true ∧ State.reset.boot.slotA.bad = false ∧ State.reset.boot.slotA.incompat =
    false ∧ State.reset.imageValid State.reset.boot.slotA = true ∧ State.reset.boot.slotB.installed = false ∧
    State.reset.boot.slotA.active.recs = [] ∧ 0 ∉ []) ∧
    (State.reset.boot.inReset = true ∧ State.reset.clk.off = false ∧ State.reset.boot.slotA.installed = true ∧
    State.reset.boot.slotA.good = true ∧ State.reset.boot.slotA.bad = false ∧ State.reset.boot.slotA.incompat =
    false ∧ State.reset.imageValid State.reset.boot.slotA = true ∧ State.reset.boot.slotB.installed = false ∧
    State.reset.boot.slotA.active.recs = [] ∧ 0 ∉ [] ∧ 0 ∉ []) ∧
    (y8_2.boot.inReset = true ∧ y8_2.clk.off = false ∧ y8_2.boot.slotA.installed = true ∧ y8_2.boot.slotA.good =
    true ∧ y8_2.boot.slotA.bad = false ∧ y8_2.boot.slotA.incompat = false ∧ y8_2.imageValid y8_2.boot.slotA =
    true ∧ y8_2.boot.slotB.installed = false ∧ 0 ∉ [] ∧ ∃ r ∈ y8_2.boot.slotA.active.recs, r.cls < 2 ^ 15 ∧
    (r.cls, r.ver) ∈ [(1, 1)]) := by
  decide +kernel

theorem wit_FirmwareAndSettings :
    (
      let stage := State.reset.fld BOOT_STATUS_STAGE;
      let ready := bitOf 0 0 = true ∧ (stage = 3 ∨ stage = 4); ¬ready) ∧
    (
      let stage := fwI.fld BOOT_STATUS_STAGE; fwI.boot.install.isSome = true ∧
      let ready := bitOf 1 0 = true ∧ (stage = 3 ∨ stage = 4); ready) ∧
    (
      let stage := crys.fld BOOT_STATUS_STAGE;
      let len := crys.fld BOOT_FW_LEN_BYTES; crys.boot.install = none ∧ len = 0 ∧
      let ready := bitOf 1 0 = true ∧ (stage = 3 ∨ stage = 4); ready) ∧
    (
      let stage := fwB.fld BOOT_STATUS_STAGE;
      let len := fwB.fld BOOT_FW_LEN_BYTES; fwB.boot.install = none ∧ len ≠ 0 ∧
      let ready := bitOf 1 0 = true ∧ (stage = 3 ∨ stage = 4); ready ∧
      let keyed := headerShape (fwB.readHost (fwB.reg64 BOOT_FW_ADDR_LO) 4096) && false && (false ||
        fwB.boot.debugFuse); keyed = false) ∧
    (
      let stage := fwC.fld BOOT_STATUS_STAGE;
      let len := fwC.fld BOOT_FW_LEN_BYTES; fwC.boot.install = none ∧ len ≠ 0 ∧ fieldAt (fwC.readHost
        (fwC.reg64 BOOT_FW_ADDR_LO) 4096) 12 2 < fwC.boot.fusedMin ∧
      let ready := bitOf 1 0 = true ∧ (stage = 3 ∨ stage = 4); ready ∧
      let keyed := headerShape (fwC.readHost (fwC.reg64 BOOT_FW_ADDR_LO) 4096) && true && (true ||
        fwC.boot.debugFuse); keyed = true) ∧
    (
      let stage := fwD.fld BOOT_STATUS_STAGE;
      let len := fwD.fld BOOT_FW_LEN_BYTES; fwD.boot.install = none ∧ len ≠ 0 ∧ fwD.boot.fusedMin ≤ fieldAt
        (fwD.readHost (fwD.reg64 BOOT_FW_ADDR_LO) 4096) 12 2 ∧ len ≠ 4096 + fieldAt (fwD.readHost (fwD.reg64
        BOOT_FW_ADDR_LO) 4096) 16 4 ∧
      let ready := bitOf 1 0 = true ∧ (stage = 3 ∨ stage = 4); ready ∧
      let keyed := headerShape (fwD.readHost (fwD.reg64 BOOT_FW_ADDR_LO) 4096) && true && (true ||
        fwD.boot.debugFuse); keyed = true) ∧
    (
      let stage := fwB.fld BOOT_STATUS_STAGE;
      let len := fwB.fld BOOT_FW_LEN_BYTES; fwB.boot.install = none ∧ fwB.boot.fusedMin ≤ fieldAt
        (fwB.readHost (fwB.reg64 BOOT_FW_ADDR_LO) 4096) 12 2 ∧ len = 4096 + fieldAt (fwB.readHost (fwB.reg64
        BOOT_FW_ADDR_LO) 4096) 16 4 ∧
      let ready := bitOf 1 0 = true ∧ (stage = 3 ∨ stage = 4); ready ∧
      let keyed := headerShape (fwB.readHost (fwB.reg64 BOOT_FW_ADDR_LO) 4096) && true && (true ||
        fwB.boot.debugFuse); keyed = true) ∧
    (State.reset.boot.install = none) ∧
    (Option.any (fun i => decide (i.slot < 2)) fwI.boot.install = true) ∧
    (
      let held := State.reset.fld BOOT_STATUS_STAGE ≠ 3 ∨ State.reset.flag CLK_STATUS_VIN_WARN = true; held) ∧
    (
      let held := crys.fld BOOT_STATUS_STAGE ≠ 3 ∨ crys.flag CLK_STATUS_VIN_WARN = true;
      let f := crys.slot crys.running; ¬held ∧ f.active.used + 1024 ≤ bankBytes ∧ 0 < 4 ∧ bitOf 1 0 = true) ∧
    (
      let held := crys.fld BOOT_STATUS_STAGE ≠ 3 ∨ crys.flag CLK_STATUS_VIN_WARN = true;
      let f := crys.slot crys.running; ¬held ∧ f.active.used + 1024 ≤ bankBytes) ∧
    (
      let held := crys.fld BOOT_STATUS_STAGE ≠ 3 ∨ crys.flag CLK_STATUS_VIN_WARN = true;
      let f := crys.slot crys.running; ¬held ∧ f.active.used + 65536 ≤ bankBytes) ∧
    (
      let held := s8_16.fld BOOT_STATUS_STAGE ≠ 3 ∨ s8_16.flag CLK_STATUS_VIN_WARN = true;
      let f := s8_16.slot s8_16.running; ¬held ∧ bankBytes < f.active.used + 65536) :=
  ⟨by decide +kernel,
    by decide +kernel,
    by decide +kernel,
    by rw [fwB_header]; decide +kernel,
    by rw [fwC_header]; decide +kernel,
    by rw [fwD_header]; decide +kernel,
    by rw [fwB_header]; decide +kernel,
    by decide +kernel,
    by decide +kernel,
    by decide +kernel,
    by decide +kernel,
    by decide +kernel,
    by decide +kernel,
    by decide +kernel⟩

theorem wit_UnitResets :
    ((∀ p ∈ State.reset.stepping, p < 32) ∧ bitOf 0 16 = false ∧ regKey BOOT_UNIT_RESET 0 ≠ regKey 0 0) ∧
    ((∀ p ∈ s8_10.stepping, p < 32) ∧
      let kind := getBits 65601 0 3;
      let i := getBits 65601 8 5;
      let bad := unitCount kind ≤ i ∨ s8_10.unitDown kind i = true ∨ s8_10.clk.off = true; bitOf 65601 16 =
        true ∧ bad ∧ regKey BOOT_UNIT_RESET 0 ≠ regKey 0 0) ∧
    ((∀ p ∈ State.reset.stepping, p < 32) ∧
      let kind := getBits 0 0 3;
      let i := getBits 0 8 5;
      let bad := unitCount kind ≤ i ∨ State.reset.unitDown kind i = true ∨ State.reset.clk.off = true; bad) ∧
    ((∀ p ∈ State.reset.stepping, p < 32) ∧
      let kind := getBits 65601 0 3;
      let i := getBits 65601 8 5;
      let bad := unitCount kind ≤ i ∨ State.reset.unitDown kind i = true ∨ State.reset.clk.off = true; bitOf
        65601 16 = true ∧ ¬bad) ∧
    ((∀ p ∈ State.reset.stepping, p < 32) ∧
      let kind := getBits 1 0 3;
      let i := getBits 1 8 5;
      let bad := unitCount kind ≤ i ∨ State.reset.unitDown kind i = true ∨ State.reset.clk.off = true; ¬bad) ∧
    ((∀ p ∈ State.reset.stepping, p < 32) ∧
      let kind := getBits 0 0 3;
      let i := getBits 0 8 5;
      let stays := unitCount kind ≤ i ∨ State.reset.unitDown kind i = false ∨ State.reset.oldRequests kind i =
        true ∨ State.reset.clk.off = true ∨ State.reset.fld BOOT_STATUS_STAGE ≠ 3 ∨ kind = 1 ∧
        State.reset.dieBusy i = true ∨ kind = 3 ∧ State.reset.flag GDR_STATUS_FAILED i = true ∨ kind = 4 ∧
        tabGet false State.reset.shed.held i = true; stays) ∧
    ((∀ p ∈ y8_3.stepping, p < 32) ∧ y8_3.fld BOOT_UNIT_RESET_RESULT = 1 ∧
      let kind := getBits 3 0 3;
      let i := getBits 3 8 5;
      let stays := unitCount kind ≤ i ∨ y8_3.unitDown kind i = false ∨ y8_3.oldRequests kind i = true ∨
        y8_3.clk.off = true ∨ y8_3.fld BOOT_STATUS_STAGE ≠ 3 ∨ kind = 1 ∧ y8_3.dieBusy i = true ∨ kind = 3 ∧
        y8_3.flag GDR_STATUS_FAILED i = true ∨ kind = 4 ∧ tabGet false y8_3.shed.held i = true; ¬stays ∧
        y8_3.fld BOOT_UNIT_RESET_KIND = kind ∧ y8_3.fld BOOT_UNIT_RESET_INDEX = i ∧ (true = true ∨ kind = 1)) ∧
    ((∀ p ∈ s8_17.stepping, p < 32) ∧
      let kind := getBits 3 0 3;
      let i := getBits 3 8 5;
      let stays := unitCount kind ≤ i ∨ s8_17.unitDown kind i = false ∨ s8_17.oldRequests kind i = true ∨
        s8_17.clk.off = true ∨ s8_17.fld BOOT_STATUS_STAGE ≠ 3 ∨ kind = 1 ∧ s8_17.dieBusy i = true ∨ kind = 3 ∧
        s8_17.flag GDR_STATUS_FAILED i = true ∨ kind = 4 ∧ tabGet false s8_17.shed.held i = true; ¬stays ∧ kind
        ≠ 1 ∧ kind = 3 ∧ false = false) := by
  decide +kernel

theorem wit_FarrierFaultsAndDayBook :
    (s8_10.clk.off = true) ∧
    (State.reset.clk.off = false ∧ 1 ≤ 1 ∧ 1 ≤ 4 ∧ 0 < 2 ^ 40) ∧
    (s8_21.clk.off = false ∧ 1 ≤ 1 ∧ 1 ≤ 4 ∧
      let k := partKey 1 3;
      let old := tabGet 0 s8_21.far.scores k;
      let new := old - old / 8 + tabGet 0 s8_21.far.events k; 3 < 2 ^ 40 ∧ 0 < new ∧ s8_21.farLimit 1 ≤ new) ∧
    (w8_4.clk.off = false ∧ 1 ≤ 1 ∧ 1 ≤ 4 ∧
      let k := partKey 1 0; 0 < 2 ^ 40 ∧ k ∈ w8_4.far.due) ∧
    (bitOf 0 0 = false) ∧
    (bitOf 1 0 = true ∧ w8_4.far.due = [partKey kCore 0] ∧ w8_4.coreSpareUsed (0 / 8) = false ∧ (∀ p ∈
    w8_4.partOfCore 0, w8_4.atBoundary p = true) ∧ 0 < 2 ^ 22) ∧
    (bitOf 1 0 = true ∧ w8_5.far.due = [partKey kCore 0] ∧ w8_5.coreSpareUsed (0 / 8) = false ∧ ∃ p ∈
    w8_5.partOfCore 0, w8_5.atBoundary p = false) ∧
    (State.reset.clk.off = false ∧ State.reset.coreSpareUsed (0 / 8) = false) ∧
    (w8_6.clk.off = false ∧ w8_6.coreSpareUsed (0 / 8) = true) ∧
    (State.reset.clk.off = false) ∧
    (w8_7.clk.off = false ∧ 5 < 2 ^ 24 ∧ ∃ r ∈ w8_7.gddrs.remaps, r.chan = 0 ∧ r.entry / 8 = 0 ∧ r.row = 5) ∧
    (State.reset.clk.off = false ∧
      let used := State.reset.bankEntries 0 0; used < 8 ∧ 0 < 2 ^ 24 ∧ ∀ r ∈ State.reset.gddrs.remaps,
        ¬(r.chan = 0 ∧ r.entry / 8 = 0 ∧ r.row = 0)) ∧
    (w8_8.clk.off = false ∧
      let used := w8_8.bankEntries 0 0; 8 ≤ used ∧ 5 < 2 ^ 24 ∧ ∀ r ∈ w8_8.gddrs.remaps, ¬(r.chan = 0 ∧
        r.entry / 8 = 0 ∧ r.row = 5)) ∧
    (
      let left := 0; State.reset.clk.off = false ∧ left = 0) ∧
    (
      let left := 1; y8_1.clk.off = false ∧ 0 < left) ∧
    (State.reset.clk.off = false ∧ (0 = 0 ∨ 7 < 0)) ∧
    (s8_25.flag FAR_SPARES_MGMT = false ∧ [0] ≠ []) ∧
    (State.reset.flag FAR_SPARES_MGMT = true) ∧
    (0 = 0 ∨ 4 < 0) ∧
    (
      let target := List.find? (fun f => !f.finished && !f.muted) (State.reset.flightsAt 0 0 0); target =
        none) ∧
    (s1_2.internalAux 1 = none ∧
      let target := List.find? (fun f => !f.finished && !f.muted) (s1_2.flightsAt 1 0 0); Option.any (fun f =>
        decide (f.opcode ≠ 1 ∧ f.opcode ≠ 2)) target = true) ∧
    (
      let target := List.find? (fun f => !f.finished && !f.muted) (s3_5.flightsAt 1 0 0); Option.any (fun f =>
        decide (f.opcode = 2 ∧ f.fn ≠ 0 ∧ f.ran = true ∧ runId f < 16 ∧ (s3_5.stepOf (f.fn - 1)).isSome = true))
        target = true) ∧
    (State.reset.clk.lostRoot = false ∧ tabGet false State.reset.far.deadParts 0 = false) ∧
    (State.reset.fnLive 1 = false) ∧
    (State.reset.fnLive 0 = true ∧ bitOf 0 0 = false) ∧
    (dayS.fnLive 1 = true ∧ dayS.dayOn 1 = true ∧ bitOf 1 0 = true) ∧
    (s8_29.fnLive 1 = true ∧ s8_29.dayOn 1 = false ∧ s8_29.dayRefused 1 = false ∧ bitOf 1 0 = true) ∧
    (State.reset.fnLive 0 = true ∧ State.reset.dayOn 0 = false ∧ State.reset.dayRefused 0 = true ∧ bitOf 1 0 =
    true) ∧
    (
      let mib := State.reset.fld DAY_MIB_MIB; State.reset.fnLive 0 = true ∧ (mib = 0 ∨ 4096 < mib ∨
        State.reset.reg64 DAY_BASE_LO % 4096 ≠ 0 ∨ State.reset.gddrSize 0 < State.reset.reg64 DAY_BASE_LO + mib
        * 2 ^ 20)) := by
  decide +kernel

theorem wit_VideoInput :
    (
      let x := State.reset.fld VCD_CTX_SEL_CONTEXT 1; State.reset.fnLive 1 = false ∨ State.reset.vcdReach 1 x
        = false) ∧
    (
      let x := s9_4.fld VCD_CTX_SEL_CONTEXT; s9_4.fnLive 0 = true ∧ s9_4.vcdReach 0 x = true ∧ s9_4.flag
        VCD_CTX_CTRL_ENABLE x = true ∧ bitOf 0 1 = false) ∧
    (
      let x := s9_4.fld VCD_CTX_SEL_CONTEXT; s9_4.fnLive 0 = true ∧ s9_4.vcdReach 0 x = true ∧ s9_4.flag
        VCD_CTX_CTRL_ENABLE x = true ∧ bitOf 2 1 = true) ∧
    (
      let x := w9_7.fld VCD_CTX_SEL_CONTEXT;
      let at_ := w9_7.vBlock x; w9_7.fnLive 0 = true ∧ w9_7.vcdReach 0 x = true ∧ w9_7.flag
        VCD_CTX_CTRL_ENABLE x = false ∧ bitOf 0 1 = false ∧ w9_7.place (w9_7.vcdFn x) at_ 512 = Except.error
        a9_1) ∧
    (
      let x := s9_1.fld VCD_CTX_SEL_CONTEXT;
      let at_ := s9_1.vBlock x; s9_1.fnLive 0 = true ∧ s9_1.vcdReach 0 x = true ∧ s9_1.flag
        VCD_CTX_CTRL_ENABLE x = false ∧ Option.any (fun pl => decide (
      let b := s9_1.readAt (s9_1.vcdFn x) pl 512;
      let cause := if at_ / 2 ^ 60 < 2 then (s9_1.touch (s9_1.vcdFn x) pl 512).vcdCause x b else some 5; cause
        = none ∧ bitOf 0 1 = false)) (s9_1.place (s9_1.vcdFn x) at_ 512).toOption = true) ∧
    (
      let x := s9_1.fld VCD_CTX_SEL_CONTEXT;
      let at_ := s9_1.vBlock x; s9_1.fnLive 0 = true ∧ s9_1.vcdReach 0 x = true ∧ s9_1.flag
        VCD_CTX_CTRL_ENABLE x = false ∧ Option.any (fun pl => decide (
      let b := s9_1.readAt (s9_1.vcdFn x) pl 512;
      let cause := if at_ / 2 ^ 60 < 2 then (s9_1.touch (s9_1.vcdFn x) pl 512).vcdCause x b else some 5; cause
        = none ∧ bitOf 2 1 = true)) (s9_1.place (s9_1.vcdFn x) at_ 512).toOption = true) ∧
    (
      let x := State.reset.fld VCD_CTX_SEL_CONTEXT;
      let at_ := State.reset.vBlock x; State.reset.fnLive 0 = true ∧ State.reset.vcdReach 0 x = true ∧
        State.reset.flag VCD_CTX_CTRL_ENABLE x = false ∧ Option.any (fun pl => decide (
      let b := State.reset.readAt (State.reset.vcdFn x) pl 512;
      let cause := if at_ / 2 ^ 60 < 2 then (State.reset.touch (State.reset.vcdFn x) pl 512).vcdCause x b else
        some 5; Option.any (fun n => decide (bitOf 0 1 = false)) cause = true)) (State.reset.place
        (State.reset.vcdFn x) at_ 512).toOption = true) ∧
    (
      let x := State.reset.fld VCD_CTX_SEL_CONTEXT; State.reset.fnLive 0 = true ∧ State.reset.vcdReach 0 x =
        true ∧ bitOf 1 0 = true) ∧
    (
      let x := State.reset.fld VCD_CTX_SEL_CONTEXT; State.reset.fnLive 0 = true ∧ State.reset.vcdReach 0 x =
        true ∧ (State.reset.vctx x = none ∨ State.reset.vState x = vIdle) ∧ bitOf 0 0 = false) ∧
    (
      let x := s9_4.fld VCD_CTX_SEL_CONTEXT; s9_4.fnLive 0 = true ∧ s9_4.vcdReach 0 x = true ∧ s9_4.vState x ≠
        vIdle ∧ Option.any (fun c => decide (
      let ended := c.cur = none ∧ c.patch = [] ∧ c.recs = []; ended ∧ bitOf 0 0 = false)) (s9_4.vctx x) =
        true) ∧
    (
      let x := s9_5.fld VCD_CTX_SEL_CONTEXT; s9_5.fnLive 0 = true ∧ s9_5.vcdReach 0 x = true ∧ s9_5.vState x ≠
        vIdle ∧ Option.any (fun c => decide (
      let ended := c.cur = none ∧ c.patch = [] ∧ c.recs = []; ¬ended ∧ bitOf 0 0 = false)) (s9_5.vctx x) =
        true) ∧
    (
      let polls := State.reset.vState 0 = vRunning ∨ State.reset.vState 0 = vWait; State.reset.vctx 0 = none ∨
        ¬polls) ∧
    (
      let polls := s9_7.vState 0 = vRunning ∨ s9_7.vState 0 = vWait; polls ∧ Option.any (fun c => decide (
      let u := s9_7.hostStores [];
      let tail := u.vWord 0 12;
      let fits := (fun a b => (a + 2 ^ 32 - b) % 2 ^ 32) tail c.inHead ≤ 2 ^ c.f 8 1 ∧ (fun a b => (a + 2 ^ 32
        - b) % 2 ^ 32) tail c.inTail ≤ (fun a b => (a + 2 ^ 32 - b) % 2 ^ 32) tail c.inHead; fits ∧ u.place
        (s9_7.vcdFn 0) (s9_7.vBlock 0 + 12) 4 = Except.ok (Place.host 262156))) (s9_7.vctx 0) = true) ∧
    (
      let polls := s9_4.vState 0 = vRunning ∨ s9_4.vState 0 = vWait; polls ∧ s9_4.flag VCD_STATUS_VIOL = false
        ∧ Option.any (fun c => decide (
      let u := s9_4.hostStores [];
      let tail := u.vWord 0 12;
      let fits := (fun a b => (a + 2 ^ 32 - b) % 2 ^ 32) tail c.inHead ≤ 2 ^ c.f 8 1 ∧ (fun a b => (a + 2 ^ 32
        - b) % 2 ^ 32) tail c.inTail ≤ (fun a b => (a + 2 ^ 32 - b) % 2 ^ 32) tail c.inHead; ¬fits)) (s9_4.vctx
        0) = true) ∧
    (State.reset.vEntry 0 = none) ∧
    (
      let runs := if State.reset.vState 0 = vWait then State.reset.setV 0 vRunning else State.reset;
        runs.vEntry 0 = none) ∧
    (
      let runs := if s9_4.vState 0 = vWait then s9_4.setV 0 vRunning else s9_4; Option.any (fun c => decide
        (Option.any (fun e => decide (runs.vEntry 0 = some (c, e) ∧ (badEntry e = true ∨ fieldAt e 0 1 ≠ 2)))
        (Option.map Prod.snd (runs.vEntry 0)) = true)) (Option.map Prod.fst (runs.vEntry 0)) = true) ∧
    (
      let runs := if s9_13.vState 0 = vWait then s9_13.setV 0 vRunning else s9_13; Option.any (fun c => decide
        (Option.any (fun e => decide (runs.vEntry 0 = some (c, e) ∧ badEntry e = false ∧ fieldAt e 0 1 = 2 ∧
        (c.bufs.getD (fieldAt e 20 2) 0).testBit 2 = true)) (Option.map Prod.snd (runs.vEntry 0)) = true))
        (Option.map Prod.fst (runs.vEntry 0)) = true) ∧
    (
      let runs := if w9_1.vState 0 = vWait then w9_1.setV 0 vRunning else w9_1; w9_1.flag VCD_STATUS_VIOL =
        false ∧ Option.any (fun c => decide (Option.any (fun e => decide (runs.vEntry 0 = some (c, e) ∧ badEntry
        e = false ∧ fieldAt e 0 1 = 2 ∧ (c.bufs.getD (fieldAt e 20 2) 0).testBit 2 = false)) (Option.map
        Prod.snd (runs.vEntry 0)) = true)) (Option.map Prod.fst (runs.vEntry 0)) = true) ∧
    (s9_4.flag VCD_STATUS_VIOL = false ∧ Option.any (fun c => decide (Option.any (fun e => decide (s9_4.vEntry 0
    = some (c, e) ∧ badEntry e = true)) (Option.map Prod.snd (s9_4.vEntry 0)) = true)) (Option.map Prod.fst
    (s9_4.vEntry 0)) = true) ∧
    (Option.any (fun c => decide (Option.any (fun e => decide (s9_4.vEntry 0 = some (c, e) ∧ badEntry e = true))
    (Option.map Prod.snd (s9_4.vEntry 0)) = true)) (Option.map Prod.fst (s9_4.vEntry 0)) = true) ∧
    (Option.any (fun c => decide (Option.any (fun e => decide (s9_4.vEntry 0 = some (c, e) ∧ fieldAt e 0 1 ≠ 3))
    (Option.map Prod.snd (s9_4.vEntry 0)) = true)) (Option.map Prod.fst (s9_4.vEntry 0)) = true) ∧
    (Option.any (fun c => decide (Option.any (fun e => decide (s9_4.vEntry 0 = some (c, e) ∧ fieldAt e 0 1 ≠ 4))
    (Option.map Prod.snd (s9_4.vEntry 0)) = true)) (Option.map Prod.fst (s9_4.vEntry 0)) = true) ∧
    (Option.any (fun c => decide (Option.any (fun e => decide (s9_10.vEntry 0 = some (c, e) ∧ badEntry e = false
    ∧ fieldAt e 0 1 = 3)) (Option.map Prod.snd (s9_10.vEntry 0)) = true)) (Option.map Prod.fst (s9_10.vEntry 0))
    = true) ∧
    (Option.any (fun c => decide (c.f 85 1 ≠ 1 ∧ Option.any (fun e => decide (w9_2.vEntry 0 = some (c, e) ∧
    badEntry e = false ∧ fieldAt e 0 1 = 4)) (Option.map Prod.snd (w9_2.vEntry 0)) = true)) (Option.map Prod.fst
    (w9_2.vEntry 0)) = true) ∧
    (Option.any (fun c => decide (c.f 85 1 = 1 ∧ Option.any (fun e => decide (s9_15.vEntry 0 = some (c, e) ∧
    badEntry e = false ∧ fieldAt e 0 1 = 4)) (Option.map Prod.snd (s9_15.vEntry 0)) = true)) (Option.map
    Prod.fst (s9_15.vEntry 0)) = true) ∧
    (Option.any (fun c => decide (Option.any (fun e => decide (s9_10.vEntry 0 = some (c, e) ∧ badEntry e = false
    ∧ fieldAt e 0 1 ≠ 1)) (Option.map Prod.snd (s9_10.vEntry 0)) = true)) (Option.map Prod.fst (s9_10.vEntry 0))
    = true) ∧
    (Option.any (fun c => decide (c.f 85 1 ≠ 0 ∧ Option.any (fun e => decide (w9_3.vEntry 0 = some (c, e) ∧
    badEntry e = false ∧ fieldAt e 0 1 = 1)) (Option.map Prod.snd (w9_3.vEntry 0)) = true)) (Option.map Prod.fst
    (w9_3.vEntry 0)) = true) ∧
    (Option.any (fun c => decide (c.f 85 1 = 0 ∧ Option.any (fun e => decide (s9_17.vEntry 0 = some (c, e) ∧
    badEntry e = false ∧ fieldAt e 0 1 = 1 ∧ fieldAt e 16 4 = 0)) (Option.map Prod.snd (s9_17.vEntry 0)) =
    true)) (Option.map Prod.fst (s9_17.vEntry 0)) = true) ∧
    (Option.any (fun c => decide (c.f 85 1 = 0 ∧ Option.any (fun e => decide (s9_19.vEntry 0 = some (c, e) ∧
    badEntry e = false ∧ fieldAt e 0 1 = 1 ∧ fieldAt e 16 4 ≠ 0)) (Option.map Prod.snd (s9_19.vEntry 0)) =
    true)) (Option.map Prod.fst (s9_19.vEntry 0)) = true) := by
  decide +kernel

theorem wit_VideoOutput :
    (List.find? (fun e => e.2.cur.isSome && State.reset.fld VCD_CTX_STATE_PIPE e.1 == 0) State.reset.vid.ctxs =
    none) ∧
    ((∀ e ∈ s9_21.vid.ctxs, e.1 < 256) ∧ Option.any (fun c => decide (c.f 85 1 = 0 ∧ (c.f 84 1).testBit 0 = true
    ∧ Option.any (fun f => decide (List.find? (fun e => e.2.cur.isSome && s9_21.fld VCD_CTX_STATE_PIPE e.1 == 0)
    s9_21.vid.ctxs = some (0, c) ∧ s9_21.vctx 0 = some c)) c.cur = true)) (Option.map Prod.snd (List.find? (fun
    e => e.2.cur.isSome && s9_21.fld VCD_CTX_STATE_PIPE e.1 == 0) s9_21.vid.ctxs)) = true) ∧
    ((∀ e ∈ y9_1.vid.ctxs, e.1 < 256) ∧ Option.any (fun c => decide (c.f 85 1 = 0 ∧ (c.f 84 1).testBit 1 = true
    ∧ Option.any (fun f => decide (List.find? (fun e => e.2.cur.isSome && y9_1.fld VCD_CTX_STATE_PIPE e.1 == 0)
    y9_1.vid.ctxs = some (0, c) ∧ y9_1.vctx 0 = some c)) c.cur = true)) (Option.map Prod.snd (List.find? (fun e
    => e.2.cur.isSome && y9_1.fld VCD_CTX_STATE_PIPE e.1 == 0) y9_1.vid.ctxs)) = true) ∧
    (State.reset.vctx 0 = none ∨ ∃ c, State.reset.vctx 0 = some c ∧ c.patch = []) ∧
    (Option.any (fun c => decide (
      let n := pTokens c.block;
      let gap := (c.tokWritten % 2 ^ 32 + 2 ^ 32 - w9_4.vWord 0 80) % 2 ^ 32; gap < 2 ^ 31 ∧ Option.any (fun f
        => decide (Option.any (fun rest => decide (c.patch = f :: rest ∧
      let used := if 2 ^ 31 ≤ gap then 0 else gap;
      let room := 0 < n ∧ ((used + n - 1) / n + 1) * pGroups c.block ≤ c.f 72 4; ¬room)) (some c.patch.tail) =
        true)) c.patch.head? = true)) (w9_4.vctx 0) = true) ∧
    (w9_5.flag VCD_STATUS_VIOL = false ∧ Option.any (fun c => decide (
      let gap := (c.tokWritten % 2 ^ 32 + 2 ^ 32 - w9_5.vWord 0 80) % 2 ^ 32; 2 ^ 31 ≤ gap ∧ Option.any (fun f
        => decide (Option.any (fun rest => decide (c.patch = f :: rest)) (some c.patch.tail) = true))
        c.patch.head? = true)) (w9_5.vctx 0) = true) ∧
    (Option.any (fun c => decide (
      let n := pTokens c.block;
      let gap := (c.tokWritten % 2 ^ 32 + 2 ^ 32 - y9_2.vWord 0 80) % 2 ^ 32; 2 ^ 31 ≤ gap ∧ Option.any (fun f
        => decide (Option.any (fun rest => decide (c.patch = f :: rest ∧
      let used := if 2 ^ 31 ≤ gap then 0 else gap;
      let room := 0 < n ∧ ((used + n - 1) / n + 1) * pGroups c.block ≤ c.f 72 4; ¬room)) (some c.patch.tail) =
        true)) c.patch.head? = true)) (y9_2.vctx 0) = true) ∧
    (Option.any (fun c => decide (
      let n := pTokens c.block;
      let gap := (c.tokWritten % 2 ^ 32 + 2 ^ 32 - s9_23.vWord 0 80) % 2 ^ 32; Option.any (fun f => decide
        (Option.any (fun rest => decide (c.patch = f :: rest ∧
      let used := if 2 ^ 31 ≤ gap then 0 else gap;
      let room := 0 < n ∧ ((used + n - 1) / n + 1) * pGroups c.block ≤ c.f 72 4; room)) (some c.patch.tail) =
        true)) c.patch.head? = true)) (s9_23.vctx 0) = true) ∧
    (State.reset.vctx 0 = none ∨ ∃ c, State.reset.vctx 0 = some c ∧ (c.cur = none ∨ c.f 85 1 ≠ 1)) ∧
    (Option.any (fun c => decide (
      let live := List.filter (fun k => decide ((k.1 + 2 ^ 32 - s9_5.vWord 0 36) % 2 ^ 32 < 2 ^ 31)) c.slices;
      let used := (List.map (fun x => x.2) live).sum; c.f 85 1 = 1 ∧ Option.any (fun f => decide (c.f 184 4 <
        used + fwHdr.length)) c.cur = true)) (s9_5.vctx 0) = true) ∧
    (Option.any (fun c => decide (
      let live := List.filter (fun k => decide ((k.1 + 2 ^ 32 - s9_5.vWord 0 36) % 2 ^ 32 < 2 ^ 31)) c.slices;
      let used := (List.map (fun x => x.2) live).sum; c.f 85 1 = 1 ∧ Option.any (fun f => decide (used + ([] :
        List Byte).length ≤ c.f 184 4)) c.cur = true)) (s9_5.vctx 0) = true) ∧
    (State.reset.vctx 0 = none ∨ (∃ c, State.reset.vctx 0 = some c ∧ (c.recs = [] ∨ State.reset.vOutFull 0 c =
    true)) ∨ State.reset.flag CLK_STATUS_VIN_WARN = true) ∧
    (s9_30.flag CLK_STATUS_VIN_WARN = false ∧ Option.any (fun c => decide (s9_30.vOutFull 0 c = false ∧
    Option.any (fun r => decide (Option.any (fun rest => decide (c.recs = r :: rest ∧ s9_30.place (s9_30.vcdFn
    0) (c.f 24 8 + 32 * (c.outTail % 2 ^ c.f 32 1)) 32 = Except.ok (Place.host 393696))) (some c.recs.tail) =
    true)) c.recs.head? = true)) (s9_30.vctx 0) = true) ∧
    (s9_30.flag CLK_STATUS_VIN_WARN = false ∧ Option.any (fun c => decide (s9_30.vOutFull 0 c = false ∧
    Option.any (fun r => decide (Option.any (fun rest => decide (c.recs = r :: rest ∧ s9_30.place (s9_30.vcdFn
    0) (c.f 24 8 + 32 * (c.outTail % 2 ^ c.f 32 1)) 32 = Except.ok (Place.host 393696) ∧ (0 < 393696 ∨ 393696 +
    32 ≤ 0))) (some c.recs.tail) = true)) c.recs.head? = true)) (s9_30.vctx 0) = true) := by
  decide +kernel

theorem wit_BoardControllerCommands :
    (s8_10.smbAnswers 0 = false) ∧
    (State.reset.smbAnswers 0 = true ∧ State.reset.flag MBS_STATUS_VIOL = false) ∧
    (State.reset.smbAnswers 0 = true) ∧
    (State.reset.smbAnswers 0 = true ∧ State.reset.flag MBS_STATUS_VIOL = false ∧ 0 < 1) ∧
    (State.reset.smbAnswers 1 = false) ∧
    (crys.smbAnswers 1 = true ∧ crys.flag MBS_STATUS_VIOL = false) ∧
    (crys.smbAnswers 1 = true) ∧
    (crys.smbAnswers 1 = true ∧ crys.flag MBS_STATUS_VIOL = false ∧ 0 < 1) ∧
    (State.reset.smbAnswers 2 = false) ∧
    (crys.smbAnswers 2 = true ∧ crys.flag MBS_STATUS_VIOL = false) ∧
    (crys.smbAnswers 2 = true) ∧
    (crys.smbAnswers 2 = true ∧ crys.flag MBS_STATUS_VIOL = false ∧ 0 < 1) ∧
    (State.reset.smbAnswers 3 = false) ∧
    (crys.smbAnswers 3 = true ∧ crys.flag MBS_STATUS_VIOL = false) ∧
    (crys.smbAnswers 3 = true) ∧
    (crys.smbAnswers 3 = true ∧ crys.flag MBS_STATUS_VIOL = false ∧ 0 < 1) ∧
    (State.reset.smbAnswers 4 = false) ∧
    (crys.smbAnswers 4 = true ∧ crys.flag MBS_STATUS_VIOL = false) ∧
    (crys.smbAnswers 4 = true) ∧
    (crys.smbAnswers 4 = true ∧ crys.flag MBS_STATUS_VIOL = false ∧ 0 < 1) ∧
    (s8_10.smbAnswers (16 + 0) = false) ∧
    (State.reset.flag MBS_STATUS_VIOL = false ∧ State.reset.smbAnswers (16 + 0) = true) ∧
    (State.reset.smbAnswers (16 + 0) = true) ∧
    (State.reset.flag MBS_STATUS_VIOL = false ∧ State.reset.smbAnswers (16 + 0) = true ∧ 0 < 1) ∧
    (State.reset.smbAnswers 8 = false) ∧
    (crys.smbAnswers 8 = true) ∧
    (crys.smbAnswers 8 = true ∧ crys.flag MBS_STATUS_VIOL = false ∧ 0 < 1) ∧
    (crys.smbAnswers 8 = true ∧
      let w := 0 % 65536;
      let sum := pecOf [2 * crys.fld MBS_TARGET_ADDR, 8, w % 256, w / 256]; (w = 0 ∨ 800 ≤ w ∧ w ≤ 2400) ∧
      let good := Option.all (fun c => c % 256 == sum) none = true; good) ∧
    (crys.smbAnswers 8 = true ∧ crys.flag MBS_STATUS_VIOL = false ∧
      let w := 1 % 65536;
      let sum := pecOf [2 * crys.fld MBS_TARGET_ADDR, 8, w % 256, w / 256]; ¬(w = 0 ∨ 800 ≤ w ∧ w ≤ 2400) ∧
      let good := Option.all (fun c => c % 256 == sum) none = true; good) ∧
    (crys.smbAnswers 8 = true ∧ crys.flag MBS_STATUS_VIOL = false ∧
      let w := 0 % 65536;
      let sum := pecOf [2 * crys.fld MBS_TARGET_ADDR, 8, w % 256, w / 256];
      let good := Option.all (fun c => c % 256 == sum) (some 256) = true; ¬good) ∧
    (crys.smbAnswers 8 = true ∧ crys.flag MBS_STATUS_VIOL = false) ∧
    (smbKnown (0 % 256) = true) ∧
    (crys.flag MBS_STATUS_VIOL = false ∧ smbKnown (5 % 256) = false ∧ crys.smbAnswers 5 = true) ∧
    (smbKnown (5 % 256) = false ∧ State.reset.smbAnswers 5 = false) ∧
    (s8_10.clk.off = true) ∧
    (State.reset.clk.off = false ∧ State.reset.flag MBS_STATUS_VIOL = false) := by
  decide +kernel

theorem wit_ModuleBusAndJtag :
    (s8_10.clk.off = true ∨ s8_10.flag MBS_STATUS_ISOLATED = true) ∧
    (State.reset.clk.off = false ∧ State.reset.flag MBS_STATUS_ISOLATED = false) ∧
    (State.reset.clk.off = false ∧ State.reset.flag MBS_STATUS_ISOLATED = false ∧ State.reset.mbs.tries < 3) ∧
    (s9_32.clk.off = false ∧ s9_32.flag MBS_STATUS_ISOLATED = false ∧ 3 ≤ s9_32.mbs.tries) ∧
    (State.reset.flag MBS_STATUS_ISOLATED = false) ∧
    ([(Instr.jtagExtest, 3), (Instr.jtagClamp, 4), (Instr.jtagHighz, 5)] ≠ []) ∧
    (1 ≤ 1 ∧ 1 ≤ 5) ∧
    (0 = 0 ∨ 5 < 0) := by
  decide +kernel

end Sys2Proof.Tests
end

namespace Sys2Proof.Machine

/-! ## Frames

What a function of the model leaves of the module, by part. A frame is carried through a composition of
functions from the inside out: the lemma named after a function takes the frame of its state argument. -/

/-- What a step keeps while its work goes on. -/
def Step.run (st : Step) : Nat × Nat × Nat × Nat × Nat × Bool :=
  (st.seq, st.plan, st.step, st.seed, st.startBeat, st.running)

/-- The partitions' steps, by what they keep. -/
def YardSide.runs (y : YardSide) (p : Nat) : Option (Nat × Nat × Nat × Nat × Nat × Bool) :=
  (tabFind y.steps p).map Step.run

theorem YardSide.runs_congr {x y : YardSide} (h : x.steps = y.steps) : x.runs = y.runs := by
  funext p
  simp [YardSide.runs, h]

/-- The parts of the module that the frame of a command speaks of. -/
inductive Piece where
  | hostMem | gddr | scratch | shedData | descriptors | messages | plans | kv | chutes | halter
  | sequencers | drovers | shed | gddrs | loft | free | links | yardTime | ethernet | muster
  | partitions | clocks | flash | farrier | video | board | runs
deriving DecidableEq

/-- Every part. -/
def Piece.all : List Piece :=
  [.hostMem, .gddr, .scratch, .shedData, .descriptors, .messages, .plans, .kv, .chutes, .halter, .sequencers,
    .drovers, .shed, .gddrs, .loft, .free, .links, .yardTime, .ethernet, .muster, .partitions, .clocks, .flash,
    .farrier, .video, .board, .runs]

/-- A part of the module is the same in two states. -/
def Piece.Same (s t : State) : Piece → Prop
  | .hostMem => t.host.mem = s.host.mem
  | .gddr => t.mem.gddr = s.mem.gddr ∧ t.mem.bad = s.mem.bad
  | .scratch => t.mem.scratch = s.mem.scratch ∧ t.mem.scratchBad = s.mem.scratchBad
  | .shedData => t.shed.bytes = s.shed.bytes ∧ t.shed.maps = s.shed.maps
  | .descriptors => t.host.flights = s.host.flights ∧ t.host.waiting = s.host.waiting ∧
      t.host.marks = s.host.marks ∧ t.host.withdrawn = s.host.withdrawn ∧ t.host.nextSeq = s.host.nextSeq
  | .messages => t.host.msgs = s.host.msgs
  | .plans => t.yard = s.yard
  | .kv => t.kv = s.kv
  | .chutes => t.chutes = s.chutes
  | .halter => t.halter = s.halter
  | .sequencers => t.seqs = s.seqs ∧ t.suspended = s.suspended
  | .drovers => t.drovers = s.drovers
  | .shed => t.shed = s.shed
  | .gddrs => t.gddrs = { s.gddrs with ecc := t.gddrs.ecc }
  | .loft => t.loft = s.loft
  | .free => t.freeCount = s.freeCount
  | .links => t.links = s.links
  | .yardTime => t.yt = s.yt
  | .ethernet => t.eth = s.eth
  | .muster => t.mus = s.mus
  | .partitions => t.parts = s.parts
  | .clocks => t.clk = s.clk
  | .flash => t.boot = s.boot
  | .farrier => t.far = s.far
  | .video => t.vid = s.vid
  | .board => t.mbs = s.mbs
  | .runs => t.yard.runs = s.yard.runs

theorem Piece.Same.refl (s : State) (k : Piece) : k.Same s s := by
  cases k <;> simp [Piece.Same]

theorem Piece.Same.trans {s t u : State} {k : Piece} (h : k.Same s t) (h' : k.Same t u) : k.Same s u := by
  cases k
  case gddrs =>
    have e : t.gddrs = { s.gddrs with ecc := t.gddrs.ecc } := h
    have e' : u.gddrs = { t.gddrs with ecc := u.gddrs.ecc } := h'
    exact e'.trans (by rw [e])
  all_goals simp only [Piece.Same] at h h' ⊢; simp [h, h']

/-- From `s` to `t` no part of the module changes but those listed, the memories stay canonical, and the same
commands wait. -/
structure Frame (F : List Piece) (s t : State) : Prop where
  same : ∀ k, F.contains k = false → k.Same s t
  wf : s.memWf → t.memWf
  pending : t.pending = s.pending

variable {F G : List Piece} {s₀ s t u : State}

/-- Every part listed in `G` is listed in `F`. -/
abbrev Within (G F : List Piece) : Prop := G.all F.contains = true

theorem Within.contains_eq_false (hG : Within G F) {k : Piece} (h : F.contains k = false) :
    G.contains k = false := by
  simp only [Within, List.all_eq_true, List.contains_iff_mem] at hG
  simp only [Bool.eq_false_iff, ne_eq, List.contains_iff_mem] at h ⊢
  exact fun hk => h (hG k hk)

theorem Frame.refl (s : State) : Frame F s s := ⟨fun k _ => .refl s k, id, rfl⟩

/-- A frame goes on through a change of parts it allows. -/
theorem Frame.goes (h : Frame F s t) (hG : Within G F) (h' : Frame G t u) : Frame F s u :=
  ⟨fun k hk => (h.same k hk).trans (h'.same k (hG.contains_eq_false hk)), h'.wf ∘ h.wf,
    h'.pending.trans h.pending⟩

theorem Frame.mono (h : Frame G s t) (hG : Within G F) : Frame F s t := (Frame.refl s).goes hG h

theorem Frame.trans (h : Frame F s t) (h' : Frame F t u) : Frame F s u := h.goes (by simp [Within]) h'

theorem Frame.ite {c : Prop} [Decidable c] (ht : Frame F s t) (hu : Frame F s u) :
    Frame F s (if c then t else u) := by
  split <;> assumption

/-- A branch whose sides carry a state along with other data. -/
theorem Frame.iteOn {α : Type} (π : α → State) {c : Prop} [Decidable c] {a b : α} (ha : Frame F s (π a))
    (hb : Frame F s (π b)) : Frame F s (π (if c then a else b)) := by
  split <;> assumption

theorem Frame.foldl {β : Type} {g : State → β → State} {l : List β} (h : Frame F s t)
    (hg : ∀ t x, Frame F t (g t x)) : Frame F s (l.foldl g t) := by
  induction l generalizing t with
  | nil => exact h
  | cons x l ih => exact ih (h.trans (hg t x))

theorem Frame.foldr {β : Type} {g : β → State → State} {l : List β} (h : Frame F s t)
    (hg : ∀ x t, Frame F t (g x t)) : Frame F s (l.foldr g t) := by
  induction l with
  | nil => exact h
  | cons x l ih => exact ih.trans (hg x _)

/-- A loop whose turns carry a state along with other data. -/
theorem Frame.foldlOn {α β : Type} (π : α → State) {g : α → β → α} {a : α} {l : List β} (h : Frame F s (π a))
    (hg : ∀ a x, Frame F (π a) (π (g a x))) : Frame F s (π (l.foldl g a)) := by
  induction l generalizing a with
  | nil => exact h
  | cons x l ih => exact ih (h.trans (hg a x))

/-- A command is carried out within a frame: it answers a next state. -/
def Frames (F : List Piece) (s : State) (o : Out) : Prop := ∃ t, o = .next t ∧ Frame F s t

theorem Frames.next (h : Frame F s t) : Frames F s (.next t) := ⟨t, rfl, h⟩

theorem Frames.mono {o : Out} (h : Frames G s o) (hG : Within G F) : Frames F s o :=
  let ⟨t, e, ht⟩ := h
  ⟨t, e, ht.mono hG⟩

theorem Frame.snd {α : Type} {p : α × State} {a : α} (e : p = (a, t)) (h : Frame F s p.2) : Frame F s t := by
  rw [e] at h; exact h

theorem Frame.snd₂ {α β : Type} {p : α × β × State} {a : α} {b : β} (e : p = (a, b, t))
    (h : Frame F s p.2.2) :
    Frame F s t := by
  rw [e] at h; exact h

theorem Frame.fst {α : Type} {p : State × α} {a : α} (e : p = (t, a)) (h : Frame F s p.1) : Frame F s t := by
  rw [e] at h; exact h

theorem Frame.getD {α : Type} {o : Option (α × State)} {d : α × State} (hd : Frame F s d.2)
    (ho : ∀ a u, o = some (a, u) → Frame F s u) : Frame F s (o.getD d).2 := by
  cases o with
  | none => exact hd
  | some x => exact ho x.1 x.2 rfl

theorem Frame.of_map {α β : Type} {o : Option α} {g : α → β × State} {b : β} (h : o.map g = some (b, t))
    (hg : ∀ x, o = some x → Frame F s (g x).2) : Frame F s t := by
  obtain ⟨x, hx, e⟩ := Option.map_eq_some_iff.1 h
  exact .snd e (hg x hx)

/-- Within the frame of every part, only the memories and the queue matter. -/
theorem Frame.of_all (hw : s.memWf → t.memWf) (hp : t.pending = s.pending) : Frame Piece.all s t :=
  ⟨fun k hk => by cases k <;> simp [Piece.all] at hk, hw, hp⟩

/-! ### Records of the state put in place -/

theorem Frame.withBell {x : BellSide} (h : Frame F s₀ s) :
    Frame F s₀ { s with bell := x } :=
  h.goes (G := []) rfl ⟨fun k _ => by cases k <;> simp [Piece.Same], id, rfl⟩

theorem Frame.withChutes {x : Tab Chute} (h : Frame F s₀ s) (hG : Within [.chutes] F := by rfl) :
    Frame F s₀ { s with chutes := x } :=
  h.goes hG ⟨fun k hk => by cases k <;> simp_all [Piece.Same], id, rfl⟩

theorem Frame.withHalter {x : HalterSide} (h : Frame F s₀ s) (hG : Within [.halter] F := by rfl) :
    Frame F s₀ { s with halter := x } :=
  h.goes hG ⟨fun k hk => by cases k <;> simp_all [Piece.Same], id, rfl⟩

theorem Frame.withKv {x : KvSide} (h : Frame F s₀ s) (hG : Within [.kv] F := by rfl) :
    Frame F s₀ { s with kv := x } :=
  h.goes hG ⟨fun k hk => by cases k <;> simp_all [Piece.Same], id, rfl⟩

theorem Frame.withLoft {x : LoftSide} (h : Frame F s₀ s) (hG : Within [.loft] F := by rfl) :
    Frame F s₀ { s with loft := x } :=
  h.goes hG ⟨fun k hk => by cases k <;> simp_all [Piece.Same], id, rfl⟩

theorem Frame.withDrovers {x : Tab Drove} (h : Frame F s₀ s) (hG : Within [.drovers] F := by rfl) :
    Frame F s₀ { s with drovers := x } :=
  h.goes hG ⟨fun k hk => by cases k <;> simp_all [Piece.Same], id, rfl⟩

theorem Frame.withLinks {x : Tab LinkSt} (h : Frame F s₀ s) (hG : Within [.links] F := by rfl) :
    Frame F s₀ { s with links := x } :=
  h.goes hG ⟨fun k hk => by cases k <;> simp_all [Piece.Same], id, rfl⟩

theorem Frame.withYt {x : YtSide} (h : Frame F s₀ s) (hG : Within [.yardTime] F := by rfl) :
    Frame F s₀ { s with yt := x } :=
  h.goes hG ⟨fun k hk => by cases k <;> simp_all [Piece.Same], id, rfl⟩

theorem Frame.withEth {x : EthSide} (h : Frame F s₀ s) (hG : Within [.ethernet] F := by rfl) :
    Frame F s₀ { s with eth := x } :=
  h.goes hG ⟨fun k hk => by cases k <;> simp_all [Piece.Same], id, rfl⟩

theorem Frame.withMus {x : MusSide} (h : Frame F s₀ s) (hG : Within [.muster] F := by rfl) :
    Frame F s₀ { s with mus := x } :=
  h.goes hG ⟨fun k hk => by cases k <;> simp_all [Piece.Same], id, rfl⟩

theorem Frame.withParts {x : PartSide} (h : Frame F s₀ s) (hG : Within [.partitions] F := by rfl) :
    Frame F s₀ { s with parts := x } :=
  h.goes hG ⟨fun k hk => by cases k <;> simp_all [Piece.Same], id, rfl⟩

theorem Frame.withClk {x : ClkSide} (h : Frame F s₀ s) (hG : Within [.clocks] F := by rfl) :
    Frame F s₀ { s with clk := x } :=
  h.goes hG ⟨fun k hk => by cases k <;> simp_all [Piece.Same], id, rfl⟩

theorem Frame.withBoot {x : BootSide} (h : Frame F s₀ s) (hG : Within [.flash] F := by rfl) :
    Frame F s₀ { s with boot := x } :=
  h.goes hG ⟨fun k hk => by cases k <;> simp_all [Piece.Same], id, rfl⟩

theorem Frame.withFar {x : FarSide} (h : Frame F s₀ s) (hG : Within [.farrier] F := by rfl) :
    Frame F s₀ { s with far := x } :=
  h.goes hG ⟨fun k hk => by cases k <;> simp_all [Piece.Same], id, rfl⟩

theorem Frame.withVid {x : VidSide} (h : Frame F s₀ s) (hG : Within [.video] F := by rfl) :
    Frame F s₀ { s with vid := x } :=
  h.goes hG ⟨fun k hk => by cases k <;> simp_all [Piece.Same], id, rfl⟩

theorem Frame.withMbs {x : MbsSide} (h : Frame F s₀ s) (hG : Within [.board] F := by rfl) :
    Frame F s₀ { s with mbs := x } :=
  h.goes hG ⟨fun k hk => by cases k <;> simp_all [Piece.Same], id, rfl⟩

theorem Frame.withFree {x : Nat} (h : Frame F s₀ s) (hG : Within [.free] F := by rfl) :
    Frame F s₀ { s with freeCount := x } :=
  h.goes hG ⟨fun k hk => by cases k <;> simp_all [Piece.Same], id, rfl⟩

theorem Frame.withGddrs {x : GddrSide} (h : Frame F s₀ s) (hG : Within [.gddrs] F := by rfl) :
    Frame F s₀ { s with gddrs := x } :=
  h.goes hG ⟨fun k hk => by cases k <;> simp_all [Piece.Same], id, rfl⟩

theorem Frame.withSeqs {x : Tab Seq} (h : Frame F s₀ s) (hG : Within [.sequencers] F := by rfl) :
    Frame F s₀ { s with seqs := x } :=
  h.goes hG ⟨fun k hk => by cases k <;> simp_all [Piece.Same], id, rfl⟩

theorem Frame.withSequencers {x y : Tab Seq} (h : Frame F s₀ s) (hG : Within [.sequencers] F := by rfl) :
    Frame F s₀ { s with seqs := x, suspended := y } :=
  h.goes hG ⟨fun k hk => by cases k <;> simp_all [Piece.Same], id, rfl⟩

/-- The Yardmaster with its steps. -/
theorem Frame.withSteps {x : YardSide} (h : Frame F s₀ s) (hG : Within [.plans, .runs] F := by rfl) :
    Frame F s₀ { s with yard := x } :=
  h.goes hG ⟨fun k hk => by cases k <;> simp_all [Piece.Same], id, rfl⟩

/-- The Yardmaster beside its steps. -/
theorem Frame.withYard {x : YardSide} (h : Frame F s₀ s) (hx : x.steps = s.yard.steps := by rfl)
    (hG : Within [.plans] F := by rfl) :
    Frame F s₀ { s with yard := x } :=
  h.goes hG ⟨fun k hk => by cases k <;> simp_all [Piece.Same, YardSide.runs_congr hx], id, rfl⟩

theorem Frame.withDeferrals {x : Tab (List Deferral)} (h : Frame F s₀ s) (hG : Within [.plans] F := by rfl) :
    Frame F s₀ { s with yard := { s.yard with deferrals := x } } :=
  h.goes hG (.withYard (.refl s))

theorem Frame.withArmed {x : Tab Armed} (h : Frame F s₀ s) (hG : Within [.plans] F := by rfl) :
    Frame F s₀ { s with yard := { s.yard with armed := x } } :=
  h.goes hG (.withYard (.refl s))

theorem Frame.withYardLoft {x : YardSide} {y : LoftSide} (h : Frame F s₀ s)
    (hx : x.steps = s.yard.steps := by rfl) (hG : Within [.plans, .loft] F := by rfl) :
    Frame F s₀ { s with yard := x, loft := y } :=
  h.goes hG ⟨fun k hk => by cases k <;> simp_all [Piece.Same, YardSide.runs_congr hx], id, rfl⟩

theorem Frame.withYardChutes {x : YardSide} {y : Tab Chute} (h : Frame F s₀ s)
    (hx : x.steps = s.yard.steps := by rfl) (hG : Within [.plans, .chutes] F := by rfl) :
    Frame F s₀ { s with yard := x, chutes := y } :=
  h.goes hG ⟨fun k hk => by cases k <;> simp_all [Piece.Same, YardSide.runs_congr hx], id, rfl⟩

theorem Frame.withGddrsLoft {x : GddrSide} {y : LoftSide} (h : Frame F s₀ s)
    (hG : Within [.gddrs, .loft] F := by rfl) :
    Frame F s₀ { s with gddrs := x, loft := y } :=
  h.goes hG ⟨fun k hk => by cases k <;> simp_all [Piece.Same], id, rfl⟩

theorem Frame.withPartsKv {x : PartSide} {y : KvSide} (h : Frame F s₀ s)
    (hG : Within [.kv, .partitions] F := by rfl) :
    Frame F s₀ { s with parts := x, kv := y } :=
  h.goes hG ⟨fun k hk => by cases k <;> simp_all [Piece.Same], id, rfl⟩

/-- The power side of start-up. -/
theorem Frame.withPower {x : BootSide} {y : ClkSide} {z : MbsSide} (h : Frame F s₀ s)
    (hG : Within [.clocks, .flash, .board] F := by rfl) :
    Frame F s₀ { s with boot := x, clk := y, mbs := z } :=
  h.goes hG ⟨fun k hk => by cases k <;> simp_all [Piece.Same], id, rfl⟩

theorem Frame.withEcc {x : Tab (Nat × Nat)} (h : Frame F s₀ s) :
    Frame F s₀ { s with gddrs := { s.gddrs with ecc := x } } :=
  h.goes (G := []) rfl ⟨fun k _ => by cases k <;> simp [Piece.Same], id, rfl⟩

/-- The cores, drovers and Halter messages of a step. -/
theorem Frame.withCores {x y : Tab Seq} {d : Tab Drove} {z : HalterSide} {w : YardSide} (h : Frame F s₀ s)
    (hw : w.steps = s.yard.steps := by rfl) (hG : Within [.plans, .halter, .sequencers, .drovers] F := by rfl) :
    Frame F s₀ { s with seqs := x, suspended := y, drovers := d, halter := z, yard := w } :=
  h.goes hG ⟨fun k hk => by cases k <;> simp_all [Piece.Same, YardSide.runs_congr hw], id, rfl⟩

/-- The cores, drovers and Halter messages of a step, and the Yardmaster's record of it. -/
theorem Frame.withStep {x y : Tab Seq} {d : Tab Drove} {z : HalterSide} {w : YardSide} (h : Frame F s₀ s)
    (hG : Within [.plans, .halter, .sequencers, .drovers, .runs] F := by rfl) :
    Frame F s₀ { s with seqs := x, suspended := y, drovers := d, halter := z, yard := w } :=
  h.goes hG ⟨fun k hk => by cases k <;> simp_all [Piece.Same], id, rfl⟩

/-- The host side beside its memory, descriptors and messages. -/
theorem Frame.withHost {x : HostSide} (h : Frame F s₀ s)
    (hm : x.mem = s.host.mem := by rfl) (hf : x.flights = s.host.flights := by rfl)
    (hw : x.waiting = s.host.waiting := by rfl) (hk : x.marks = s.host.marks := by rfl)
    (hd : x.withdrawn = s.host.withdrawn := by rfl) (hn : x.nextSeq = s.host.nextSeq := by rfl)
    (hs : x.msgs = s.host.msgs := by rfl) :
    Frame F s₀ { s with host := x } :=
  h.goes (G := []) rfl ⟨fun k _ => by cases k <;> simp_all [Piece.Same],
    fun ⟨hr, hh, hrest⟩ => ⟨hr, hm ▸ hh, hrest⟩, rfl⟩

/-- The host side beside its memory and messages. -/
theorem Frame.withDescriptors {x : HostSide} (h : Frame F s₀ s)
    (hm : x.mem = s.host.mem := by rfl) (hs : x.msgs = s.host.msgs := by rfl)
    (hG : Within [.descriptors] F := by rfl) :
    Frame F s₀ { s with host := x } :=
  h.goes hG ⟨fun k _ => by cases k <;> simp_all [Piece.Same],
    fun ⟨hr, hh, hrest⟩ => ⟨hr, hm ▸ hh, hrest⟩, rfl⟩

theorem Frame.withMessages {x : List (Nat × Nat)} (h : Frame F s₀ s) (hG : Within [.messages] F := by rfl) :
    Frame F s₀ { s with host := { s.host with msgs := x } } :=
  h.goes hG ⟨fun k hk => by cases k <;> simp_all [Piece.Same], id, rfl⟩

theorem Frame.withBad {x : Tab Bool} (h : Frame F s₀ s) (hG : Within [.gddr] F := by rfl) :
    Frame F s₀ { s with mem := { s.mem with bad := x } } :=
  h.goes hG ⟨fun k hk => by cases k <;> simp_all [Piece.Same], id, rfl⟩

theorem Frame.withScratchBad {x : Tab Bool} (h : Frame F s₀ s) (hG : Within [.scratch] F := by rfl) :
    Frame F s₀ { s with mem := { s.mem with scratchBad := x } } :=
  h.goes hG ⟨fun k hk => by cases k <;> simp_all [Piece.Same], id, rfl⟩

theorem Frame.withGddr {x : List Host.Cell} {y : Tab Bool} (h : Frame F s₀ s)
    (hx : gddrWf s.mem.gddr → gddrWf x) (hG : Within [.gddr] F := by rfl) :
    Frame F s₀ { s with mem := { s.mem with gddr := x, bad := y } } :=
  h.goes hG ⟨fun k _ => by cases k <;> simp_all [Piece.Same],
    fun ⟨hr, hh, hg, hc, hb⟩ => ⟨hr, hh, hx hg, hc, hb⟩, rfl⟩

/-- The shed beside its pages. -/
theorem Frame.withShed {x : ShedSide} (h : Frame F s₀ s)
    (hb : x.bytes = s.shed.bytes := by rfl) (hm : x.maps = s.shed.maps := by rfl)
    (hG : Within [.shed] F := by rfl) :
    Frame F s₀ { s with shed := x } :=
  h.goes hG ⟨fun k _ => by cases k <;> simp_all [Piece.Same],
    fun w => by simpa only [State.memWf, hb] using w, rfl⟩

theorem Frame.withRegs {x : Tab Word} (h : Frame F s₀ s) (hx : tabWf s.regs → tabWf x) :
    Frame F s₀ { s with regs := x } :=
  h.goes (G := []) rfl ⟨fun k _ => by cases k <;> simp [Piece.Same], fun ⟨hr, hrest⟩ => ⟨hx hr, hrest⟩, rfl⟩

end Sys2Proof.Machine

namespace Sys2Proof.Machine

variable {F G : List Piece} {s₀ s t u : State}

/- The proofs of this part are short and many: one after another, no thread waits for an earlier one. -/
set_option Elab.async false

/-! ### Registers, memory and descriptors -/

theorem Frame.setReg {off inst : Nat} {v : Word} (hF : Frame F s₀ s) : Frame F s₀ (s.setReg off inst v) :=
  .withRegs hF (tabWf_tabSet _ _ _)

theorem Frame.setFld {f : Field} {inst : Nat} {x : Nat} (hF : Frame F s₀ s) :
    Frame F s₀ (s.setFld f inst x) := .setReg hF

theorem Frame.bump {f : Field} {inst : Nat} {n : Nat} (hF : Frame F s₀ s) :
    Frame F s₀ (s.bump f inst n) := .setFld hF

theorem Frame.setReg64 {lo : Nat} {inst : Nat} {v : Nat} (hF : Frame F s₀ s) :
    Frame F s₀ (s.setReg64 lo inst v) := .setReg (.setReg hF)

theorem Frame.bump64 {lo : Nat} {inst : Nat} {n : Nat} (hF : Frame F s₀ s) :
    Frame F s₀ (s.bump64 lo inst n) := .setReg64 hF

theorem Frame.dropRegs {p : Nat → Nat → Bool} (hF : Frame F s₀ s) : Frame F s₀ (s.dropRegs p) :=
  .withRegs hF (tabWf_tabDrop _)

theorem Frame.free (hF : Frame F s₀ s) (hG : Within [.free] F := by rfl) : Frame F s₀ s.free.2 :=
  .withFree hF hG

theorem Frame.writeGddr {owner off : Nat} {bs : List Byte} (hF : Frame F s₀ s) (hG : Within [.gddr] F := by rfl) :
    Frame F s₀ (s.writeGddr owner off bs) :=
  hF.goes hG ⟨fun k _ => by cases k <;> simp_all [Piece.Same, State.writeGddr],
      State.memWf_writeGddr owner off bs, rfl⟩

theorem Frame.poisonGddr {owner off n : Nat} (hF : Frame F s₀ s) (hG : Within [.gddr] F := by rfl) :
    Frame F s₀ (s.poisonGddr owner off n) := hF.goes hG (.withBad (.refl _))

theorem Frame.writeScratch {core off : Nat} {bs : List Byte} (hF : Frame F s₀ s)
    (hG : Within [.scratch] F := by rfl) :
    Frame F s₀ (s.writeScratch core off bs) :=
  hF.goes hG ⟨fun k _ => by cases k <;> simp_all [Piece.Same, State.writeScratch],
      State.memWf_writeScratch core off bs, rfl⟩

theorem Frame.zeroScratch {core : Nat} (hF : Frame F s₀ s) (hG : Within [.scratch] F := by rfl) :
    Frame F s₀ (s.zeroScratch core) :=
  hF.goes hG ⟨fun k _ => by cases k <;> simp_all [Piece.Same, State.zeroScratch], State.memWf_zeroScratch core, rfl⟩

theorem Frame.writeHost {a : Nat} {bs : List Byte} (hF : Frame F s₀ s) (hG : Within [.hostMem] F := by rfl) :
    Frame F s₀ (s.writeHost a bs) :=
  hF.goes hG ⟨fun k _ => by cases k <;> simp_all [Piece.Same, State.writeHost], State.memWf_writeHost a bs, rfl⟩

theorem Frame.hostStores {st : List HostStore} (hF : Frame F s₀ s) (hG : Within [.hostMem] F := by rfl) :
    Frame F s₀ (s.hostStores st) := by
  refine hF.goes hG ?_
  unfold State.hostStores
  refine .foldl (.refl _) fun _ _ => ?_
  split <;> exact .withHost (.writeHost (.refl _))

theorem Frame.setBellP {fn src : Nat} {b : Bool} (hF : Frame F s₀ s) :
    Frame F s₀ (s.setBellP fn src b) := .setFld hF

theorem Frame.setBellA {fn src : Nat} {b : Bool} (hF : Frame F s₀ s) :
    Frame F s₀ (s.setBellA fn src b) := .setFld hF

theorem Frame.bellRaise {fn src : Nat} (hF : Frame F s₀ s) : Frame F s₀ (s.bellRaise fn src) :=
  .ite hF (.ite (.bump hF) (.ite (.setBellP hF) (.ite (.setBellP hF) (.bump hF))))

theorem Frame.raise {fn src : Nat} (hF : Frame F s₀ s) : Frame F s₀ (s.raise fn src) := by
  refine hF.goes (G := []) rfl ?_
  unfold State.raise
  refine .ite ?_ (.bellRaise (.refl _))
  split <;> exact .withBell (.refl _)

theorem Frame.hostViolation {fn code value : Nat} (hF : Frame F s₀ s) :
    Frame F s₀ (s.hostViolation fn code value) :=
  .raise (.setFld (.ite (.bump hF) (.setFld (.setFld (.bump hF)))))

theorem Frame.setupErr {fn code ring : Nat} {isCq : Bool} (hF : Frame F s₀ s) :
    Frame F s₀ (s.setupErr fn code ring isCq) := .setFld (.ite hF (.setFld (.setFld (.setFld hF))))

theorem Frame.prtErr {code p : Nat} (hF : Frame F s₀ s) : Frame F s₀ (s.prtErr code p) :=
  .setFld (.ite hF (.setFld (.setFld hF)))

theorem Frame.updFlight {seq : Nat} {g : Flight → Flight} (hF : Frame F s₀ s)
    (hG : Within [.descriptors] F := by rfl) : Frame F s₀ (s.updFlight seq g) :=
  hF.goes hG (.withDescriptors (.refl _))

theorem Frame.dropFlight {seq : Nat} (hF : Frame F s₀ s) (hG : Within [.descriptors] F := by rfl) :
    Frame F s₀ (s.dropFlight seq) := hF.goes hG (.withDescriptors (.refl _))

theorem Frame.refreshDrained {fn sq : Nat} (hF : Frame F s₀ s) : Frame F s₀ (s.refreshDrained fn sq) :=
  .setFld hF

theorem Frame.refreshFull {fn m : Nat} (hF : Frame F s₀ s) : Frame F s₀ (s.refreshFull fn m) := .setFld hF

theorem Frame.finish {f : Flight} {status aux detail : Nat} (hF : Frame F s₀ s)
    (hG : Within [.descriptors] F := by rfl) : Frame F s₀ (s.finish f status aux detail) := by
  refine hF.goes hG ?_
  unfold State.finish
  refine .ite (.refreshDrained (.dropFlight (.refl _))) (.refreshFull ?_)
  split <;> exact .withDescriptors (.updFlight (.refl _))

theorem Frame.noteChecks {fn : Nat} {fs : List Failed} (hF : Frame F s₀ s) :
    Frame F s₀ (s.noteChecks fn fs) := by
  refine hF.goes (G := []) rfl ?_
  unfold State.noteChecks
  split
  · split
    · exact .hostViolation (.bump (.refl _))
    · exact .bump (.refl _)
  · split
    · exact .hostViolation (.refl _)
    · exact .refl _

theorem Frame.failDesc {f : Flight} {fs : List Failed} (hF : Frame F s₀ s)
    (hG : Within [.descriptors] F := by rfl) : Frame F s₀ (s.failDesc f fs) := by
  refine hF.goes hG ?_
  unfold State.failDesc
  split
  · exact .finish (.refl _)
  · exact .finish (.noteChecks (.refl _))

/-! ### Alerts -/

theorem Frame.alertCheck (hF : Frame F s₀ s) (hG : Within [.board] F := by rfl) :
    Frame F s₀ s.alertCheck := hF.goes hG (.ite (.refl _) (.withMbs (.refl _)))

/-! ### The shed -/

theorem Frame.commitPage {o : ShedOp} {k : Nat} {bs : List Byte} (hF : Frame F s₀ s)
    (hG : Within [.shedData, .shed] F := by rfl) : Frame F s₀ (s.commitPage o k bs) :=
  hF.goes hG ⟨fun k _ => by cases k <;> simp_all [Piece.Same, State.commitPage],
    fun ⟨hr, hh, hg, hc, hb⟩ => ⟨hr, hh, hg, hc, tabCanon_writeBytes _ bs hb⟩, rfl⟩

theorem Frame.refreshWear (hF : Frame F s₀ s) : Frame F s₀ s.refreshWear := .setFld (.setFld hF)

theorem Frame.commitStaged (hF : Frame F s₀ s) (hG : Within [.shedData, .shed] F := by rfl) :
    Frame F s₀ s.commitStaged :=
  hF.goes hG (.foldl (.refl _) fun _ _ => .foldl (.refl _) fun _ _ => .ite (.commitPage (.refl _))
    (.refl _))

/-! ### Resets of the module -/

/-- The state after the loss of the volatile state keeps canonical registers of its own and the host's and
the shed's bytes. -/
theorem State.keepFrom_memWf {r s : State} (hr : r.memWf) (hs : s.memWf) : (r.keepFrom s).memWf := by
  unfold State.keepFrom
  obtain ⟨hregs, -, hgddr, hscratch, -⟩ := hr
  obtain ⟨-, hhost, -, -, hshed⟩ := hs
  repeat apply State.memWf_setReg
  exact ⟨hregs, hhost, hgddr, hscratch, hshed⟩

theorem Frame.blank (hF : Frame F s₀ s) (hG : Within Piece.all F := by rfl) : Frame F s₀ s.blank :=
  hF.goes hG (.of_all (State.keepFrom_memWf State.memWf_reset) rfl)

theorem Frame.moduleReset {cause : Nat} (hF : Frame F s₀ s) (hG : Within Piece.all F := by rfl) :
    Frame F s₀ (s.moduleReset cause) :=
  hF.goes hG (.alertCheck (.setFld (.setReg (.blank (.commitStaged (.refl _))))))

theorem Frame.powerCut (hF : Frame F s₀ s) (hG : Within Piece.all F := by rfl) : Frame F s₀ s.powerCut :=
  hF.goes hG (.withClk (.blank (.refl _)))

/-! ### The LOFT -/

theorem Frame.setLoftLines {c set : Nat} {ls : List LoftLine} (hF : Frame F s₀ s)
    (hG : Within [.loft] F := by rfl) : Frame F s₀ (s.setLoftLines c set ls) :=
  hF.goes hG (.withLoft (.refl _))

theorem Frame.countGddr {chan n : Nat} {write : Bool} (hF : Frame F s₀ s) :
    Frame F s₀ (s.countGddr chan n write) := .ite hF (.bump64 hF)

theorem Frame.countEcc {chan owner ce ue : Nat} (hF : Frame F s₀ s) :
    Frame F s₀ (s.countEcc chan owner ce ue) := by
  refine hF.goes (G := []) rfl ?_
  unfold State.countEcc
  split
  · split
    · exact .withEcc (.refl _)
    · exact .withEcc (.setFld (.bump (.refl _)))
  · split
    · exact .withEcc (.bump (.refl _))
    · exact .withEcc (.setFld (.bump (.bump (.refl _))))

theorem Frame.readSectors {owner l mask : Nat} (hF : Frame F s₀ s) :
    Frame F s₀ (s.readSectors owner l mask) := .ite (.countGddr hF) (.countEcc (.countGddr hF))

theorem Frame.writeBack {c : Nat} {l : LoftLine} (hF : Frame F s₀ s) (hG : Within [.loft] F := by rfl) :
    Frame F s₀ (s.writeBack c l) := by
  refine hF.goes hG ?_
  unfold State.writeBack
  refine .countGddr ?_
  split
  · exact .withLoft (.refl _)
  · exact .withLoft (.bump (.refl _))

theorem Frame.restoreStale {k : Nat} (hF : Frame F s₀ s) (hG : Within [.gddr, .loft] F := by rfl) :
    Frame F s₀ (s.restoreStale k) := by
  refine hF.goes hG ?_
  unfold State.restoreStale
  split
  · exact .refl s
  · exact .withLoft (.withGddr (.refl s) (gddrWf_writeListed _ _))

theorem Frame.evict {c set way cls : Nat} (hF : Frame F s₀ s) (hG : Within [.loft] F := by rfl) :
    Frame F s₀ (s.evict c set way cls) := by
  refine hF.goes hG ?_
  unfold State.evict
  split
  · exact .refl _
  · split
    · exact .bump (.setLoftLines (.writeBack (.refl _)))
    · exact .bump (.setLoftLines (.writeBack (.refl _)))
    · exact .bump (.setLoftLines (.writeBack (.refl _)))
    · exact .setLoftLines (.writeBack (.refl _))

theorem Frame.allocate {c set line : Nat} {due : Option Nat} (h : s.allocate c set line due = some t)
    (hF : Frame F s₀ s) (hG : Within [.loft] F := by rfl) : Frame F s₀ t := by
  refine hF.goes hG ?_
  unfold State.allocate at h
  split at h
  · cases h
  · cases h
    exact .setLoftLines (.evict (.refl s))

theorem Frame.updLine {c set line : Nat} {f : LoftLine → LoftLine} (hF : Frame F s₀ s)
    (hG : Within [.loft] F := by rfl) : Frame F s₀ (s.updLine c set line f) :=
  hF.goes hG (.setLoftLines (.refl _))

theorem Frame.keepStale {owner off : Nat} (hF : Frame F s₀ s) (hG : Within [.loft] F := by rfl) :
    Frame F s₀ (s.keepStale owner off) := by
  refine hF.goes hG ?_
  unfold State.keepStale
  refine .ite (.refl _) ?_
  split <;> exact .withLoft (.refl _)

theorem Frame.staleFills {line sec : Nat} (hF : Frame F s₀ s) (hG : Within [.loft] F := by rfl) :
    Frame F s₀ (s.staleFills line sec) := hF.goes hG (.withLoft (.refl _))

theorem Frame.fillLine {c set line mask : Nat} {due : Option Nat} {dirty : Bool} (hF : Frame F s₀ s)
    (hG : Within [.loft] F := by rfl) : Frame F s₀ (s.fillLine c set line mask due dirty) :=
  hF.goes hG (.updLine (.refl _))

theorem Frame.waitSet {c : Nat} {w : SetWait} (hF : Frame F s₀ s) (hG : Within [.loft] F := by rfl) :
    Frame F s₀ (s.waitSet c w) := hF.goes hG (.withLoft (.bump (.refl _)))

theorem Frame.loftWrite {p off : Nat} {hint : Option Nat} (hF : Frame F s₀ s)
    (hG : Within [.loft] F := by rfl) : Frame F s₀ (s.loftWrite p off hint) := by
  refine hF.goes hG ?_
  unfold State.loftWrite
  refine .ite (.fillLine (.keepStale (.refl _))) ?_
  split
  · exact .countGddr (.staleFills (.bump (.refl _)))
  · split
    · refine .fillLine (.keepStale ?_)
      refine .allocate (by assumption) ?_
      exact .refl _
    · exact .waitSet (.keepStale (.refl _))

theorem Frame.writeMem {owner off : Nat} {bs : List Byte} {hint : Option Nat} (hF : Frame F s₀ s)
    (hG : Within [.gddr, .loft] F := by rfl) : Frame F s₀ (s.writeMem owner off bs hint) :=
  hF.goes hG (.writeGddr (.foldl (.refl _) fun _ _ => .ite (.countGddr (.refl _)) (.loftWrite (.refl _))))

theorem Frame.writeAt {fn : Nat} {p : Place} {bs : List Byte} (hF : Frame F s₀ s)
    (hG : Within [.hostMem, .gddr, .scratch, .loft] F := by rfl) : Frame F s₀ (s.writeAt fn p bs) := by
  refine hF.goes hG ?_
  unfold State.writeAt
  split
  · exact .writeHost (.refl _)
  · exact .writeMem (.refl _)
  · exact .writeScratch (.refl _)

theorem Frame.readLine {p l mask : Nat} {hint : Option Nat} (hF : Frame F s₀ s)
    (hG : Within [.loft] F := by rfl) : Frame F s₀ (s.readLine p l mask hint) := by
  refine hF.goes hG ?_
  unfold State.readLine
  refine .ite (.fillLine (.ite (.refl _) (.bump64 (.refl _)))) (.ite (.fillLine (.readSectors (.bump64 (.ite
    (.refl _) (.bump64 (.refl _)))))) ?_)
  split
  · refine .fillLine ?_
    refine .allocate (by assumption) ?_
    exact .readSectors (.bump64 (.ite (.refl _) (.bump64 (.refl _))))
  · exact .waitSet (.readSectors (.bump64 (.ite (.refl _) (.bump64 (.refl _)))))

theorem Frame.touch {fn : Nat} {pl : Place} {n : Nat} {hint : Option Nat} (hF : Frame F s₀ s)
    (hG : Within [.loft] F := by rfl) : Frame F s₀ (s.touch fn pl n hint) := by
  refine hF.goes hG ?_
  unfold State.touch
  split
  · exact .foldl (.refl _) fun _ _ => .ite (.readSectors (.refl _)) (.readLine (.refl _))
  · exact .refl _

theorem Frame.dropLines {c : Nat} {count : Bool} {p : LoftLine → Bool} (hF : Frame F s₀ s)
    (hG : Within [.gddr, .loft] F := by rfl) : Frame F s₀ (s.dropLines c count p) :=
  hF.goes hG (.foldl (.refl _) fun _ _ => .ite (.refl _) (.foldl (.setLoftLines (.refl _)) fun _ _ => .foldl
    (.ite (.bump (.refl _)) (.refl _)) fun _ _ => .restoreStale (.refl _)))

theorem Frame.request {p : Nat} {f : Fill} (hF : Frame F s₀ s) (hG : Within [.loft] F := by rfl) :
    Frame F s₀ (s.request p f) := by
  refine hF.goes hG ?_
  unfold State.request
  refine .ite (.ite (.refl _) ?_) ?_
  · split <;> exact .withLoft (.refl _)
  · split
    · split
      · exact .withLoft (.refl _)
      · exact .withLoft (.withLoft (.refl _))
    · split
      · exact .withLoft (.refl _)
      · exact .withLoft (.withLoft (.refl _))

theorem Frame.retrySets (hF : Frame F s₀ s) (hG : Within [.loft] F := by rfl) : Frame F s₀ s.retrySets := by
  refine hF.goes hG ?_
  unfold State.retrySets
  refine .foldl (.refl _) fun _ _ => .ite ?_ ?_
  · split
    · exact .request (.withLoft (.refl _))
    · exact .fillLine (.withLoft (.refl _))
  · split
    · split
      · refine .request (.withLoft ?_)
        refine .allocate (by assumption) ?_
        exact .refl _
      · refine .fillLine (.withLoft ?_)
        refine .allocate (by assumption) ?_
        exact .refl _
    · exact .refl _

/-! ### The day book -/

theorem Frame.dayWriteBlocks {fn n : Nat} {bs : List Byte} (hF : Frame F s₀ s)
    (hG : Within [.gddr, .loft] F := by rfl) : Frame F s₀ (s.dayWriteBlocks fn n bs) :=
  hF.goes hG (.foldl (.refl _) fun _ _ => .writeMem (.refl _))

theorem Frame.dayRecord {fn type plan step : Nat} {body : List Byte} {ext : List Byte} (hF : Frame F s₀ s)
    (hG : Within [.gddr, .loft] F := by rfl) : Frame F s₀ (s.dayRecord fn type plan step body ext) :=
  hF.goes hG (.ite (.refl _) (.bump64 (.setReg64 (.dayWriteBlocks (.setReg64 (.ite (.refl _) (.setFld
    (.refl _))))))))

theorem Frame.dayError {fn plan step code status detail addr : Nat} (hF : Frame F s₀ s)
    (hG : Within [.gddr, .loft] F := by rfl) :
    Frame F s₀ (s.dayError fn plan step code status detail addr) := hF.goes hG (.dayRecord (.refl _))

theorem Frame.internalRecord {fn code : Nat} (hF : Frame F s₀ s)
    (hG : Within [.gddr, .loft, .free] F := by rfl) : Frame F s₀ (s.internalRecord fn code) :=
  hF.goes hG (.dayError (.free (.free (.refl _))))

theorem Frame.farLog {event kind index detail : Nat} (hF : Frame F s₀ s)
    (hG : Within [.gddr, .loft, .farrier] F := by rfl) : Frame F s₀ (s.farLog event kind index detail) :=
  hF.goes hG (.raise (.dayRecord (.setFld (.bump (.withFar (.refl _))))))

theorem Frame.farEvent {kind n : Nat} {count : Nat} (hF : Frame F s₀ s) (hG : Within [.farrier] F := by rfl)
    : Frame F s₀ (s.farEvent kind n count) := hF.goes hG (.ite (.refl _) (.withFar (.refl _)))

/-- An update of a step that leaves what the step keeps. -/
theorem Frame.updStep {p : Nat} {f : Step → Step} (hF : Frame F s₀ s)
    (hf : ∀ st, (f st).run = st.run := by intro _; rfl) (hG : Within [.plans] F := by rfl) :
    Frame F s₀ (s.updStep p f) := by
  refine hF.goes hG ?_
  unfold State.updStep
  split
  · exact .refl s
  · next st hst =>
    refine ⟨fun k hk => ?_, id, rfl⟩
    cases k
    case runs =>
      funext q
      simp only [YardSide.runs, tabFind_tabPut]
      split
      · next e =>
        subst e
        rw [show tabFind s.yard.steps p = some st from hst]
        exact congrArg some (hf st)
      · rfl
    all_goals simp_all [Piece.Same]

/-- Any update of a step. -/
theorem Frame.updStep_starts {p : Nat} {f : Step → Step} (hF : Frame F s₀ s)
    (hG : Within [.plans, .runs] F := by rfl) : Frame F s₀ (s.updStep p f) := by
  refine hF.goes hG ?_
  unfold State.updStep
  split
  · exact .refl s
  · exact .withSteps (.refl s)

theorem Frame.stepCause {p code : Nat} (hF : Frame F s₀ s) (hG : Within [.plans] F := by rfl) :
    Frame F s₀ (s.stepCause p code) := by
  refine hF.goes hG ?_
  unfold State.stepCause
  refine .updStep (.refl _) (hf := fun _ => ?_)
  split <;> rfl

theorem Frame.stepFault {p code : Nat} (hF : Frame F s₀ s) (hG : Within [.plans] F := by rfl) :
    Frame F s₀ (s.stepFault p code) := hF.goes hG (.raise (.stepCause (.refl _)))

theorem Frame.stepReset {p : Nat} (hF : Frame F s₀ s) (hG : Within [.plans] F := by rfl) :
    Frame F s₀ (s.stepReset p) := hF.goes hG (.updStep (.refl _))

theorem Frame.stepLink {p aux : Nat} (hF : Frame F s₀ s) (hG : Within [.plans] F := by rfl) :
    Frame F s₀ (s.stepLink p aux) := by
  refine hF.goes hG ?_
  unfold State.stepLink
  refine .updStep (.refl _) (hf := fun _ => ?_)
  split <;> rfl

/-! ### Spares -/

theorem Frame.clearPart {kind n : Nat} (hF : Frame F s₀ s) (hG : Within [.farrier] F := by rfl) :
    Frame F s₀ (s.clearPart kind n) := hF.goes hG (.setFld (.withFar (.refl _)))

theorem Frame.spareIn {kind n index : Nat} {outright : Bool} {detail : Nat} (hF : Frame F s₀ s)
    (hG : Within [.gddr, .loft, .farrier] F := by rfl) :
    Frame F s₀ (s.spareIn kind n index outright detail) :=
  hF.goes hG (.farLog (.setFld (.bump (.clearPart (.refl _)))))

theorem Frame.spareOut {kind index detail : Nat} (hF : Frame F s₀ s)
    (hG : Within [.gddr, .loft, .farrier, .board] F := by rfl) :
    Frame F s₀ (s.spareOut kind index detail) :=
  hF.goes hG (.alertCheck (.farLog (.setFld (.setFld (.setFld (.setFld (.refl _)))))))

theorem Frame.useSpare {f : Field} (hF : Frame F s₀ s) : Frame F s₀ (s.useSpare f) := .setFld hF

theorem Frame.loseCluster {c : Nat} (hF : Frame F s₀ s) (hG : Within [.plans, .farrier] F := by rfl) :
    Frame F s₀ (s.loseCluster c) := by
  refine hF.goes hG ?_
  have h : Frame [.plans, .farrier] s
      { s with far := { s.far with unavailable := tabPut s.far.unavailable c true } } :=
    .withFar (.refl s)
  unfold State.loseCluster
  dsimp only
  split
  · exact .stepReset h
  · exact h

theorem Frame.swapCore {core : Nat} {outright : Bool} (hF : Frame F s₀ s)
    (hG : Within [.gddr, .scratch, .loft, .farrier] F := by rfl) :
    Frame F s₀ (s.swapCore core outright) :=
  hF.goes hG (.spareIn (.zeroScratch (.useSpare (.withFar (.refl _)))))

theorem Frame.retireWay {c w : Nat} {outright : Bool} (hF : Frame F s₀ s)
    (hG : Within [.gddr, .loft, .farrier, .board] F := by rfl) : Frame F s₀ (s.retireWay c w outright) :=
  hF.goes hG (.ite (.spareOut (.clearPart (.setFld (.setFld (.refl _))))) (.spareIn (.useSpare (.withLoft
    (.setFld (.setFld (.refl _)))))))

theorem Frame.swapWay {c w : Nat} (hF : Frame F s₀ s)
    (hG : Within [.gddr, .loft, .farrier, .board] F := by rfl) : Frame F s₀ (s.swapWay c w) :=
  hF.goes hG (.retireWay (.foldl (.refl _) fun _ _ => .setLoftLines (.writeBack (.refl _))))

theorem Frame.refreshRemap {chan : Nat} (hF : Frame F s₀ s) : Frame F s₀ (s.refreshRemap chan) :=
  .setFld (.setFld hF)

theorem Frame.swapRow {chan bank row : Nat} {outright : Bool} (hF : Frame F s₀ s)
    (hG : Within [.gddr, .gddrs, .loft, .farrier, .board] F := by rfl) :
    Frame F s₀ (s.swapRow chan bank row outright) :=
  hF.goes hG (.ite (.refl _) (.ite (.spareOut (.setFld (.refl _))) (.spareIn (.refreshRemap (.withGddrs
    (.refl _))))))

theorem Frame.updLink {l : Nat} {f : LinkSt → LinkSt} (hF : Frame F s₀ s) (hG : Within [.links] F := by rfl)
    : Frame F s₀ (s.updLink l f) := hF.goes hG (.withLinks (.refl _))

theorem Frame.setLanes {l mask : Nat} (hF : Frame F s₀ s) : Frame F s₀ (s.setLanes l mask) :=
  .setFld (.setFld (.setFld hF))

theorem Frame.swapLane {l lane : Nat} {outright : Bool} (hF : Frame F s₀ s)
    (hG : Within [.gddr, .loft, .links, .farrier, .board] F := by rfl) :
    Frame F s₀ (s.swapLane l lane outright) := by
  refine hF.goes hG ?_
  unfold State.swapLane
  dsimp only
  split
  · exact .spareOut (.refl _)
  · exact .ite (.spareOut (.setLanes (.updLink (.refl _)))) (.spareIn (.useSpare (.setLanes (.updLink
      (.refl _)))))

theorem Frame.swapDue {k : Nat} (hF : Frame F s₀ s)
    (hG : Within [.gddr, .scratch, .gddrs, .loft, .links, .farrier, .board] F := by rfl) :
    Frame F s₀ (s.swapDue k) := by
  refine hF.goes hG ?_
  unfold State.swapDue
  refine .ite (.refl _) ?_
  split
  · exact .swapCore (.refl _)
  · exact .swapWay (.refl _)
  · exact .swapLane (.refl _)
  · exact .swapRow (.refl _)
  · exact .refl _

theorem Frame.spareSwaps (hF : Frame F s₀ s)
    (hG : Within [.gddr, .scratch, .gddrs, .loft, .links, .farrier, .board] F := by rfl) :
    Frame F s₀ s.spareSwaps :=
  hF.goes hG (.ite (.refl _) (.ite (.withFar (.foldl (.refl _) fun _ _ => .swapDue (.refl _))) (.foldl
    (.refl _) fun _ _ => .swapDue (.refl _))))

/-! ### Sectors of the LOFT -/

theorem Frame.loftCe {c way n : Nat} (hF : Frame F s₀ s) (hG : Within [.farrier] F := by rfl) :
    Frame F s₀ (s.loftCe c way n) := hF.goes hG (.ite (.refl _) (.farEvent (.bump (.refl _))))

theorem Frame.loftUe {c set line k : Nat} (hF : Frame F s₀ s) (hG : Within [.gddr, .loft] F := by rfl) :
    Frame F s₀ (s.loftUe c set line k) := by
  refine hF.goes hG ?_
  have h : Frame [.gddr, .loft] s ((s.bump LFT_ECC_UE c).setFld LFT_STATUS_UE c 1) := .setFld (.bump (.refl s))
  unfold State.loftUe
  dsimp only
  split
  · exact .withGddr h (gddrWf_writeListed _ _)
  · exact .withLoft (.updLine h)

theorem Frame.gddrCe {owner l n : Nat} (hF : Frame F s₀ s) (hG : Within [.farrier] F := by rfl) :
    Frame F s₀ (s.gddrCe owner l n) := hF.goes hG (.ite (.refl _) (.farEvent (.countEcc (.refl _))))

theorem Frame.gddrUe {owner l k : Nat} (hF : Frame F s₀ s)
    (hG : Within [.gddr, .gddrs, .loft, .farrier, .board] F := by rfl) :
    Frame F s₀ (s.gddrUe owner l k) := hF.goes hG (.ite (.refl _) (.swapRow (.withBad (.refl _))))

theorem Frame.memEvent {k : Nat} {n : Nat} (hF : Frame F s₀ s) (hG : Within [.gddrs] F := by rfl) :
    Frame F s₀ (s.memEvent k n) := hF.goes hG (.ite (.refl _) (.withGddrs (.refl _)))

theorem Frame.cancelPf {q : Prefetch → Bool} (hF : Frame F s₀ s) (hG : Within [.plans, .loft] F := by rfl) :
    Frame F s₀ (s.cancelPf q) := by
  refine hF.goes hG ?_
  unfold State.cancelPf
  dsimp only
  split
  · exact .refl s
  · exact .foldl (.withYardLoft (.refl s)) fun _ _ => .bump (.refl _)

theorem Frame.dayLose {fn : Nat} {lost : Nat → Bool} (hF : Frame F s₀ s) :
    Frame F s₀ (s.dayLose fn lost) :=
  .ite hF (.ite hF (.ite (.raise (.bump (.setFld hF))) (.bump (.setFld hF))))

theorem Frame.epochUp {off k : Nat} (hF : Frame F s₀ s) : Frame F s₀ (s.epochUp off k) := .setReg hF

theorem Frame.setBitOf {off inst k : Nat} {b : Bool} (hF : Frame F s₀ s) :
    Frame F s₀ (s.setBitOf off inst k b) := .setReg hF

theorem Frame.channelReset {n : Nat} (hF : Frame F s₀ s)
    (hG : Within [.gddr, .plans, .gddrs, .loft] F := by rfl) : Frame F s₀ (s.channelReset n) :=
  hF.goes hG (.ite (.refl _) (.cancelPf (.foldl (.withGddrsLoft (.setBitOf (.setFld (.setFld (.setFld
    (.epochUp (.foldl (.refl _) fun _ _ => .dayLose (.refl _)))))))) fun _ _ => .dropLines (.refl _))))

theorem Frame.crcRetry {chan retries : Nat} {fail : Bool} (hF : Frame F s₀ s)
    (hG : Within [.gddr, .plans, .gddrs, .loft] F := by rfl) :
    Frame F s₀ (s.crcRetry chan retries fail) :=
  hF.goes hG (.ite (.channelReset (.memEvent (.ite (.refl _) (.bump (.refl _))))) (.ite (.refl _) (.bump
    (.refl _))))

theorem Frame.markLines {owner : Nat} {ls : List Nat} (hF : Frame F s₀ s) (hG : Within [.gddr] F := by rfl)
    : Frame F s₀ (s.markLines owner ls) :=
  hF.goes hG (.foldl (.refl _) fun _ _ => .poisonGddr (.writeGddr (.refl _)))

theorem Frame.wipeChannel {n : Nat} (hF : Frame F s₀ s) (hG : Within [.gddr, .gddrs] F := by rfl) :
    Frame F s₀ (s.wipeChannel n) :=
  hF.goes hG (.countGddr (.withGddrs (.foldl (.refl _) fun _ _ => .markLines (.refl _))))

theorem Frame.takeMarked {owner : Nat} (hF : Frame F s₀ s) (hG : Within [.gddr, .gddrs] F := by rfl) :
    Frame F s₀ (s.takeMarked owner) :=
  hF.goes hG (.foldl (.refl _) fun _ _ => .ite (.refl _) (.withGddrs (.markLines (.refl _))))

theorem Frame.scratchError {core unit : Nat} {err : MemError} (hF : Frame F s₀ s)
    (hG : Within [.scratch, .farrier] F := by rfl) : Frame F s₀ (s.scratchError core unit err) := by
  refine hF.goes hG ?_
  unfold State.scratchError
  split
  · exact .refl s
  · cases err with
    | corrected => exact .farEvent (.refl s)
    | uncorrectable => exact .withScratchBad (.refl s)
    | crc => exact .refl s

theorem Frame.sectorError {owner unit : Nat} {err : MemError} (hF : Frame F s₀ s)
    (hG : Within [.gddr, .plans, .gddrs, .loft, .farrier, .board] F := by rfl) :
    Frame F s₀ (s.sectorError owner unit err) := by
  refine hF.goes hG ?_
  unfold State.sectorError
  refine .ite (.refl _) ?_
  split
  · exact .loftCe (.refl _)
  · exact .loftUe (.refl _)
  · exact .gddrCe (.refl _)
  · exact .gddrUe (.refl _)
  · exact .crcRetry (.refl _)

theorem Frame.meets {fn : Nat} {errs : List MemEvent} (hF : Frame F s₀ s)
    (hG : Within [.gddr, .scratch, .plans, .gddrs, .loft, .farrier, .board] F := by rfl) :
    Frame F s₀ (s.meets fn errs) := by
  refine hF.goes hG ?_
  unfold State.meets
  refine .foldl (.refl _) fun _ _ => ?_
  split
  · exact .scratchError (.refl _)
  · exact .sectorError (.refl _)

theorem Frame.meeting {fn : Nat} {errs : List MemEvent} {body : State → State} (hF : Frame F s₀ s)
    (h : ∀ t, Frame F t (body t))
    (hG : Within [.gddr, .scratch, .plans, .gddrs, .loft, .farrier, .board] F := by rfl) :
    Frame F s₀ (s.meeting fn errs body) := by
  unfold State.meeting
  split
  · exact hF.trans (h s)
  · have hm : Frame F s₀ (s.meets fn errs) := .meets hF hG
    exact .withLoft (hm.trans (h _)) (by simp_all [Within])

/-! ### A step's faults and counts -/

theorem Frame.setTensorWord {p id k v : Nat} (hF : Frame F s₀ s)
    (hG : Within [.hostMem, .gddr, .scratch, .loft] F := by rfl) :
    Frame F s₀ (s.setTensorWord p id k v) := by
  refine hF.goes hG ?_
  unfold State.setTensorWord
  split
  · exact .refl _
  · exact .writeAt (.refl _)

theorem Frame.lose {p : Nat} {pl : Place} {n : Nat} (hF : Frame F s₀ s) (hG : Within [.plans] F := by rfl) :
    Frame F s₀ (s.lose p pl n) := hF.goes hG (.updStep (.refl _))

theorem Frame.regain {p : Nat} {pl : Place} {n : Nat} (hF : Frame F s₀ s) (hG : Within [.plans] F := by rfl)
    : Frame F s₀ (s.regain p pl n) := hF.goes hG (.updStep (.refl _))

theorem Frame.earlyEnd {p u : Nat} (hF : Frame F s₀ s) (hG : Within [.plans] F := by rfl) :
    Frame F s₀ (s.earlyEnd p u) := by
  refine hF.goes hG ?_
  unfold State.earlyEnd
  split
  · exact .refl _
  · exact .ite (.updStep (.refl _)) (.bump (.updStep (.refl _)))

theorem Frame.earlyEnds {p : Nat} (hF : Frame F s₀ s) (hG : Within [.plans] F := by rfl) :
    Frame F s₀ (s.earlyEnds p) := hF.goes hG (.foldl (.refl _) fun _ _ => .earlyEnd (.refl _))

theorem Frame.fetchWait {p u : Nat} {ts : List Nat} (hF : Frame F s₀ s) (hG : Within [.plans] F := by rfl) :
    Frame F s₀ (s.fetchWait p u ts) := by
  refine hF.goes hG ?_
  unfold State.fetchWait
  refine .ite (.updStep (.refl _) (hf := fun _ => ?_)) (.earlyEnd (.refl _))
  split <;> rfl

theorem Frame.markBale {p : Nat} {pl : Place} {b : Bale} {dirty : Bool} (hF : Frame F s₀ s)
    (hG : Within [.plans] F := by rfl) : Frame F s₀ (s.markBale p pl b dirty) := by
  refine hF.goes hG ?_
  unfold State.markBale
  refine .ite (.stepCause (.updStep (.refl _) (hf := fun _ => ?_))) (.updStep (.refl _) (hf := fun _ => ?_))
  · split <;> split <;> rfl
  · split <;> split <;> rfl

theorem Frame.writeBale {p : Nat} {pl : Place} {b : Bale} {dirty : Bool} {hint : Option Nat}
    (hF : Frame F s₀ s) (hG : Within [.hostMem, .gddr, .scratch, .plans, .loft] F := by rfl) :
    Frame F s₀ (s.writeBale p pl b dirty hint) := by
  refine hF.goes hG ?_
  unfold State.writeBale
  refine .markBale (.updStep (.regain ?_))
  split
  · exact .writeMem (.refl _)
  · exact .writeAt (.refl _)

theorem Frame.readCause {p : Nat} {b : BaleRead} (hF : Frame F s₀ s) (hG : Within [.plans] F := by rfl) :
    Frame F s₀ (s.readCause p b) :=
  hF.goes hG (.ite (.stepFault (.refl _)) (.ite (.stepFault (.refl _)) (.refl _)))

theorem Frame.took {p : Nat} {b : BaleRead} {hint : Option Nat} (hF : Frame F s₀ s)
    (hG : Within [.plans, .loft] F := by rfl) : Frame F s₀ (s.took p b hint) :=
  hF.goes hG (.readCause (.touch (.refl _)))

theorem Frame.tookWord {p id k : Nat} (hF : Frame F s₀ s) (hG : Within [.loft] F := by rfl) :
    Frame F s₀ (s.tookWord p id k) := by
  refine hF.goes hG ?_
  unfold State.tookWord
  split
  · exact .touch (.refl _)
  · exact .refl _

theorem Frame.halterSend {p id : Nat} {op : HalterOp} (hF : Frame F s₀ s)
    (hG : Within [.halter] F := by rfl) : Frame F s₀ (s.halterSend p id op) :=
  hF.goes hG (.withHalter (.refl _))

theorem Frame.signal {p id : Nat} {amount : Nat} (hF : Frame F s₀ s) (hG : Within [.halter] F := by rfl) :
    Frame F s₀ (s.signal p id amount) := hF.goes hG (.halterSend (.refl _))

theorem Frame.semWait {p id : Nat} {w : Waiter} {amount : Nat} (hF : Frame F s₀ s)
    (hG : Within [.halter] F := by rfl) : Frame F s₀ (s.semWait p id w amount) :=
  hF.goes hG (.halterSend (.refl _))

/-! ### Partitions -/

theorem Frame.drawWords {n : Nat} (hF : Frame F s₀ s) (hG : Within [.free] F := by rfl) :
    Frame F s₀ (s.drawWords n).2 := by
  refine hF.goes hG ?_
  induction n with
  | zero => exact .refl s
  | succ n ih => exact .withFree ih

theorem Frame.activate {p : Nat} (hF : Frame F s₀ s)
    (hG : Within [.gddr, .kv, .gddrs, .free, .partitions] F := by rfl) : Frame F s₀ (s.activate p) := by
  refine hF.goes hG ?_
  unfold State.activate
  extract_lets a b
  have hd : Frame [.gddr, .kv, .gddrs, .free, .partitions] s (b.drawWords 4).2 :=
    .drawWords (.setReg (.setReg (.setFld (.setFld (.refl s)))))
  generalize b.drawWords 4 = d at hd ⊢
  exact .takeMarked (.setFld (.withPartsKv hd))

theorem Frame.prtEnable {p : Nat} (hF : Frame F s₀ s)
    (hG : Within [.gddr, .kv, .gddrs, .free, .partitions] F := by rfl) : Frame F s₀ (prtEnable s p) := by
  refine hF.goes hG ?_
  unfold Machine.prtEnable
  refine .ite (.refl _) ?_
  split
  · exact .prtErr (.refl _)
  · exact .activate (.refl _)

theorem Frame.prtWhistle {p : Nat} {val : Word} (hF : Frame F s₀ s) : Frame F s₀ (prtWhistle s p val) :=
  .setFld hF

theorem Frame.writeRw {off inst : Nat} {v : Word} (hF : Frame F s₀ s) :
    Frame F s₀ (s.writeRw off inst v) := by
  refine hF.goes (G := []) rfl ?_
  unfold State.writeRw
  split
  · exact .refl _
  · exact .setReg (.refl _)

theorem Frame.prtConfigWrite {off : Nat} {val : Word} (hF : Frame F s₀ s)
    (hG : Within [.gddr, .gddrs] F := by rfl) : Frame F s₀ (prtConfigWrite s off val) := by
  refine hF.goes hG ?_
  unfold Machine.prtConfigWrite
  refine .ite (.ite (.takeMarked (.writeRw (.refl _))) (.prtErr (.refl _))) ?_
  split
  · exact .refl _
  · exact .ite (.writeRw (.refl _)) (.prtErr (.refl _))

theorem Frame.isolateWrite {val : Word} (hF : Frame F s₀ s) : Frame F s₀ (isolateWrite s val) :=
  .ite hF (.ite (.setFld hF) (.prtErr hF))

theorem Frame.storeWindow {off : Nat} {val : Word} (hF : Frame F s₀ s) :
    Frame F s₀ (s.storeWindow off val) := .setReg hF

theorem Frame.windowWrite {off : Nat} {val : Word} (hF : Frame F s₀ s)
    (hG : Within [.partitions] F := by rfl) : Frame F s₀ (windowWrite s off val) :=
  hF.goes hG (.ite (.refl _) (.ite (.storeWindow (.refl _)) (.withParts (.refl _))))

/-- The part of the end of a release that no smaller operation does: keys, lines, bytes and pages are gone. -/
theorem Frame.of_scrubbed (p q : Nat → Bool) (x : PartSide) (y : KvSide) (l : LoftSide)
    (b : Tab Bool) (m : Tab Nat) (e : Tab (Nat × Nat)) :
    Frame [.gddr, .scratch, .shedData, .kv, .shed, .loft, .partitions] s
      { s with
        parts := x, kv := y, loft := l
        mem := { s.mem with gddr := tabDrop s.mem.gddr p, bad := b }
        shed := { s.shed with maps := m, bytes := tabDrop s.shed.bytes q }
        gddrs := { s.gddrs with ecc := e } } :=
  ⟨fun k _ => by cases k <;> simp_all [Piece.Same],
    fun ⟨hr, hh, hg, hc, hb⟩ => ⟨hr, hh, gddrWf_tabDrop p hg, hc, tabCanon_tabDrop q hb⟩, rfl⟩

theorem Frame.scrub {p : Nat} (hF : Frame F s₀ s)
    (hG : Within [.gddr, .scratch, .shedData, .kv, .shed, .loft, .partitions] F := by rfl) :
    Frame F s₀ (s.scrub p) := by
  refine hF.goes hG ?_
  unfold State.scrub
  refine .foldl (.foldl (.of_scrubbed ..) fun _ _ => ?_) fun _ _ => ?_
  · exact .countGddr (.refl _)
  · exact .zeroScratch (.refl _)

theorem Frame.releaseDone {p ms : Nat} (hF : Frame F s₀ s) (hG : Within [.partitions] F := by rfl) :
    Frame F s₀ (releaseDone s p ms) :=
  hF.goes hG (.ite (.refl _) (.raise (.setReg (.setFld (.setFld (.setFld (.withParts (.refl _))))))))

/-! ### Rings -/

theorem Frame.storeSqCtrl {fn n : Nat} {v : Word} {en : Bool} (hF : Frame F s₀ s) :
    Frame F s₀ (s.storeSqCtrl fn n v en) := .setReg hF

theorem Frame.storeCqCtrl {fn m : Nat} {v : Word} {en : Bool} (hF : Frame F s₀ s) :
    Frame F s₀ (s.storeCqCtrl fn m v en) := .setReg hF

theorem Frame.forgetRing {fn n : Nat} (hF : Frame F s₀ s) (hG : Within [.descriptors] F := by rfl) :
    Frame F s₀ (s.forgetRing fn n) := hF.goes hG (.withDescriptors (.refl _))

theorem Frame.sqEnableOpen {fn n : Nat} {v : Word} (hF : Frame F s₀ s)
    (hG : Within [.descriptors] F := by rfl) : Frame F s₀ (sqEnableOpen s fn n v) := by
  refine hF.goes hG ?_
  unfold Machine.sqEnableOpen
  refine .ite (.setFld (.refl _)) ?_
  split
  · exact .setupErr (.storeSqCtrl (.refl _))
  · exact .refreshDrained (.setFld (.setReg (.setReg (.forgetRing (.storeSqCtrl (.refl _))))))

theorem Frame.sqDisableOpen {fn n : Nat} {v : Word} (hF : Frame F s₀ s)
    (hG : Within [.descriptors] F := by rfl) : Frame F s₀ (sqDisableOpen s fn n v) :=
  hF.goes hG (.refreshDrained (.forgetRing (.storeSqCtrl (.refl _))))

theorem Frame.sqCtrl {act : State → Nat → Nat → Word → State} {fn n : Nat} {v : Word}
    (ha : ∀ w, Frame F s₀ (act s fn n w)) : Frame F s₀ (sqCtrl act s fn n v) := by
  unfold Machine.sqCtrl
  exact .ite (.setupErr (ha _)) (ha v)

theorem Frame.sqEnable {fn n : Nat} {v : Word} (hF : Frame F s₀ s) (hG : Within [.descriptors] F := by rfl)
    : Frame F s₀ (sqEnable s fn n v) := hF.goes hG (.sqCtrl fun _ => .sqEnableOpen (.refl _))

theorem Frame.sqDisable {fn n : Nat} {v : Word} (hF : Frame F s₀ s) (hG : Within [.descriptors] F := by rfl)
    : Frame F s₀ (sqDisable s fn n v) := hF.goes hG (.sqCtrl fun _ => .sqDisableOpen (.refl _))

theorem Frame.cqEnableOpen {fn m : Nat} {v : Word} (hF : Frame F s₀ s) :
    Frame F s₀ (cqEnableOpen s fn m v) := by
  refine hF.goes (G := []) rfl ?_
  unfold Machine.cqEnableOpen
  refine .ite (.setFld (.refl _)) ?_
  split
  · exact .setupErr (.storeCqCtrl (.refl _))
  · exact .setFld (.setFld (.setReg (.setReg (.storeCqCtrl (.refl _)))))

theorem Frame.cqDisableOpen {fn m : Nat} {v : Word} (hF : Frame F s₀ s) :
    Frame F s₀ (cqDisableOpen s fn m v) := .ite (.setupErr hF) (.storeCqCtrl hF)

theorem Frame.cqCtrl {act : State → Nat → Nat → Word → State} {fn n : Nat} {v : Word} (hF : Frame F s₀ s)
    (ha : ∀ t w, Frame F t (act t fn n w)) : Frame F s₀ (cqCtrl act s fn n v) := by
  unfold Machine.cqCtrl
  exact .ite ((Frame.setupErr hF).trans (ha _ _)) (hF.trans (ha s v))

theorem Frame.cqEnable {fn m : Nat} {v : Word} (hF : Frame F s₀ s) : Frame F s₀ (cqEnable s fn m v) :=
  hF.goes (G := []) rfl (.cqCtrl (.refl _) fun _ _ => .cqEnableOpen (.refl _))

theorem Frame.cqDisable {fn m : Nat} {v : Word} (hF : Frame F s₀ s) : Frame F s₀ (cqDisable s fn m v) :=
  hF.goes (G := []) rfl (.cqCtrl (.refl _) fun _ _ => .cqDisableOpen (.refl _))

theorem Frame.whenLive {fn : Nat} (hs : Frame F s t) (ht : Frame F s u) : Frame F s (whenLive t fn u) :=
  .ite ht hs

theorem Frame.throughPage {fn page : Nat} {viol : Option (Nat × Nat)} (hs : Frame F s t) (ht : Frame F s u) :
    Frame F s (throughPage t fn page viol u) := by
  unfold Machine.throughPage
  refine .ite hs (.ite ht (.ite hs (.ite ?_ ht)))
  split <;> exact .hostViolation hs

theorem Frame.tailDoorbell {fn t n : Nat} {tail : Word} (hF : Frame F s₀ s)
    (hG : Within [.descriptors] F := by rfl) : Frame F s₀ (tailDoorbell s fn t n tail) := by
  refine hF.goes hG ?_
  unfold Machine.tailDoorbell
  split
  · exact .hostViolation (.refl _)
  · exact .ite (.refl _) (.withDescriptors (.setReg (.refl _)))

theorem Frame.headDoorbell {fn t m : Nat} {head : Word} (hF : Frame F s₀ s) :
    Frame F s₀ (headDoorbell s fn t m head) := by
  refine hF.goes (G := []) rfl ?_
  unfold Machine.headDoorbell
  split
  · exact .hostViolation (.refl _)
  · exact .refreshFull (.setReg (.refl _))

theorem Frame.countTurn {fn n : Nat} (hF : Frame F s₀ s) : Frame F s₀ (s.countTurn fn n) := by
  refine hF.goes (G := []) rfl ?_
  unfold State.countTurn
  split <;> split <;> exact .withHost (.refl _)

theorem Frame.descriptorFetch {fn n : Nat} {ok : Bool} (hF : Frame F s₀ s)
    (hG : Within [.descriptors] F := by rfl) : Frame F s₀ (descriptorFetch s fn n ok) :=
  hF.goes hG (.ite (.refl _) (.ite (.ite (.finish (.refreshDrained (.setReg (.withDescriptors (.countTurn
    (.refl _)))))) (.refreshDrained (.setReg (.withDescriptors (.countTurn (.refl _)))))) (.withDescriptors
    (.hostViolation (.setFld (.countTurn (.refl _)))))))

theorem Frame.retire {r : Rec} (hF : Frame F s₀ s) (hG : Within [.descriptors] F := by rfl) :
    Frame F s₀ (s.retire r) := by
  refine hF.goes hG ?_
  unfold State.retire
  split
  · exact .refreshDrained (.dropFlight (.refl _))
  · exact .refreshDrained (.refl _)

theorem Frame.writeRecord {fn m : Nat} {ok : Bool} (hF : Frame F s₀ s)
    (hG : Within [.hostMem, .descriptors] F := by rfl) : Frame F s₀ (writeRecord s fn m ok) := by
  refine hF.goes hG ?_
  unfold Machine.writeRecord
  split
  · exact .refl _
  · exact .ite (.refl _) (.ite (.setFld (.refl _)) (.ite (.retire (.withDescriptors (.refl _))) (.ite (.ite
      (.raise (.refreshFull (.retire (.ite (.bump (.setReg (.withDescriptors (.writeHost (.refl _)))))
      (.setReg (.withDescriptors (.writeHost (.refl _)))))))) (.refreshFull (.retire (.ite (.bump (.setReg
      (.withDescriptors (.writeHost (.refl _))))) (.setReg (.withDescriptors (.writeHost (.refl _))))))))
      (.hostViolation (.retire (.setFld (.withDescriptors (.refl _))))))))

theorem Frames.runDesc {fn sq idx op : Nat} {k : State → Flight → State} (hk : ∀ f, Frame F s (k s f)) :
    Frames F s (s.runDesc fn sq idx op k) := by
  unfold State.runDesc
  split
  · exact .next (hk _)
  · exact .next (.refl s)

theorem execReservedOpcode_frames (fn : Fn) (ring : Ring) (idx : Word) (s : State) :
    Frames [.descriptors] s (execReservedOpcode fn ring idx s) := by
  unfold execReservedOpcode
  split
  · exact .next (.failDesc (.refl _))
  · exact .next (.refl _)

theorem Frame.fenceStart {f : Flight} (hF : Frame F s₀ s) (hG : Within [.descriptors] F := by rfl) :
    Frame F s₀ (fenceStart s f) := by
  refine hF.goes hG ?_
  unfold Machine.fenceStart
  split
  · exact .updFlight (.refl _)
  · exact .failDesc (.refl _)

theorem execFenceRelease_frames (fn : Fn) (ring : Ring) (idx : Word) (s : State) :
    Frames [.descriptors] s (execFenceRelease fn ring idx s) := by
  unfold execFenceRelease
  split
  · exact .next (.finish (.refl _))
  · exact .next (.refl _)

theorem Frame.dropScheduled {seq : Nat} (hF : Frame F s₀ s) (hG : Within [.plans, .runs] F := by rfl) :
    Frame F s₀ (s.dropScheduled seq) := hF.goes hG (.withSteps (.refl _))

theorem Frame.cancelTarget {f : Flight} {sameCc : Bool} (hF : Frame F s₀ s)
    (hG : Within [.descriptors, .plans, .runs] F := by rfl) : Frame F s₀ (cancelTarget s f sameCc) := by
  refine hF.goes hG ?_
  unfold Machine.cancelTarget
  dsimp only
  split
  · exact .ite (.finish (.refl _)) (.finish (.finish (.dropScheduled (.refl _))))
  · split
    · exact .ite (.finish (.refl _)) (.finish (.withDescriptors (.refl _)))
    · exact .finish (.refl _)

theorem execCancel_frames (fn : Fn) (ring : Ring) (idx : Word) (sameCc : Bool) (s : State) :
    Frames [.descriptors, .plans, .runs] s (execCancel fn ring idx sameCc s) := by
  unfold execCancel
  refine .runDesc fun f => ?_
  split
  · exact .cancelTarget (.refl _)
  · exact .failDesc (.refl _)

/-! ### Copies and the shed's pages -/

theorem Frame.copyOne {r : CopyRun} {fn src dst k : Nat} (hF : Frame F s₀ r.st)
    (hG : Within [.hostMem, .gddr, .scratch, .loft] F := by rfl) : Frame F s₀ (copyOne r fn src dst k).1.st := by
  refine hF.goes hG ?_
  unfold Machine.copyOne
  extract_lets s
  split
  · exact .refl _
  · refine .iteOn (fun z : CopyRun × Nat => z.1.st) (.refl _) ?_
    dsimp only
    split
    · exact .refl _
    · split
      · exact .refl _
      · exact .refl _
      · exact .refl _
      · split
        · exact .refl _
        · exact .iteOn (fun z : CopyRun × Nat => z.1.st) (.refl _) (.writeAt (.touch (.refl _)))

theorem Frame.copyBales {fn src dst stride count fuel k off : Nat} {r : CopyRun} (hF : Frame F s₀ r.st)
    (hG : Within [.hostMem, .gddr, .scratch, .loft] F := by rfl) :
    Frame F s₀ (copyBales fn src dst stride count fuel k off r).st := by
  induction fuel generalizing k off r with
  | zero => exact hF
  | succ fuel ih =>
    have h : Frame F s₀ (Machine.copyOne r fn (src + off) (dst + off) k).1.st := .copyOne hF hG
    unfold Machine.copyBales
    dsimp only
    split
    · exact hF
    · split
      · exact h
      · exact ih h

theorem Frame.copyEnd {f : Flight} {r : CopyRun} (hF : Frame F s₀ r.st)
    (hG : Within [.descriptors] F := by rfl) : Frame F s₀ (copyEnd f r) := by
  refine hF.goes hG ?_
  have h : ∀ st aux d, Frame [.descriptors] r.st (r.st.finish f st aux d) := fun _ _ _ => .finish (.refl _)
  unfold Machine.copyEnd
  refine .ite (h ..) ?_
  split
  · exact h ..
  · exact .ite (h ..) (h ..)

theorem Frame.baleCopy {f : Flight} (hF : Frame F s₀ s)
    (hG : Within [.hostMem, .gddr, .scratch, .descriptors, .loft] F := by rfl) : Frame F s₀ (baleCopy s f) := by
  refine hF.goes hG ?_
  have hc : ∀ x fs, Frame [.hostMem, .gddr, .scratch, .descriptors, .loft] s (s.failDesc f (x :: fs)) :=
    fun _ _ => .failDesc (.refl s)
  have hb : Frame [.hostMem, .gddr, .scratch, .descriptors, .loft] s
      (Machine.copyBales f.fn (copySrc f) (copyDst f) (copyStride f) (copyCount f) (copyCount f) 0 0
        ⟨s, 0, 0, 0, [], none, false⟩).st :=
    .copyBales (.refl s)
  unfold Machine.baleCopy
  dsimp only
  split
  · exact hc ..
  · refine .ite (.finish (.refl s)) ?_
    split
    · exact .ite (hc ..) (.copyEnd (.noteChecks hb))
    · exact .copyEnd hb

theorem Frame.rawBlock {fn : Nat} {pa pb : Place} {r : CopyRun} {k : Nat} (hF : Frame F s₀ r.st)
    (hG : Within [.hostMem, .gddr, .scratch, .loft] F := by rfl) :
    Frame F s₀ (rawBlock fn pa pb r k).st := by
  refine hF.goes hG ?_
  unfold Machine.rawBlock
  dsimp only
  split
  · exact .ite (.poisonGddr (.writeAt (.touch (.refl _)))) (.writeAt (.touch (.refl _)))
  · exact .writeAt (.touch (.refl _))

theorem Frame.rawCopy {f : Flight} (hF : Frame F s₀ s)
    (hG : Within [.hostMem, .gddr, .scratch, .descriptors, .loft] F := by rfl) : Frame F s₀ (rawCopy s f) := by
  refine hF.goes hG ?_
  unfold Machine.rawCopy
  dsimp only
  split
  · split
    · exact .failDesc (.refl s)
    · refine .ite (.finish (.refl s)) (.ite (.finish (.refl s)) (.copyEnd ?_))
      exact .foldlOn CopyRun.st (.refl s) fun _ _ => .rawBlock (.refl _)
  · exact .failDesc (.refl s)

theorem Frame.updShed {seq : Nat} {g : ShedOp → ShedOp} (hF : Frame F s₀ s)
    (hG : Within [.shed] F := by rfl) : Frame F s₀ (s.updShed seq g) := hF.goes hG (.withShed (.refl _))

theorem Frame.issueReads (hF : Frame F s₀ s) (hG : Within [.shed] F := by rfl) :
    Frame F s₀ s.issueReads := hF.goes hG (.foldl (.refl _) fun _ _ => .ite (.refl _) (.updShed (.refl _)))

theorem Frame.shedStart {f : Flight} {write : Bool} (hF : Frame F s₀ s)
    (hG : Within [.descriptors, .shed] F := by rfl) : Frame F s₀ (shedStart s f write) := by
  refine hF.goes hG ?_
  unfold Machine.shedStart
  split
  · exact .failDesc (.refl _)
  · refine .ite (.finish (.refl _)) (.issueReads (.updFlight ?_))
    split
    · exact .withShed (.refl _)
    · exact .withShed (.bump (.refl _))

theorem Frame.shedPageEnd {o : ShedOp} {k : Nat} {past : Bool} {g : ShedOp → ShedOp} (hF : Frame F s₀ s)
    (hG : Within [.descriptors, .shed] F := by rfl) : Frame F s₀ (s.shedPageEnd o k past g) := by
  refine hF.goes hG ?_
  unfold State.shedPageEnd
  extract_lets flash o' left late aux
  refine .ite (.issueReads (.updShed (.refl s))) ?_
  clear_value aux
  split
  · exact .issueReads (.withShed (.refl s))
  · exact .issueReads (.finish (.withShed (.refl s)))

theorem Frame.failPage {fn : Nat} {pl : Place} {n chan : Nat} (hF : Frame F s₀ s)
    (hG : Within [.hostMem, .gddr, .scratch, .loft] F := by rfl) :
    Frame F s₀ (s.failPage fn pl n chan) := by
  refine hF.goes hG ?_
  unfold State.failPage
  split
  · exact .poisonGddr (.writeAt (.setFld (.bump (.refl _))))
  · exact .writeAt (.setFld (.bump (.refl _)))

theorem Frame.shedPageRead {o : ShedOp} {k chan retries : Nat} {ok past : Bool} (hF : Frame F s₀ s)
    (hG : Within [.hostMem, .gddr, .scratch, .descriptors, .shed, .loft] F := by rfl) :
    Frame F s₀ (shedPageRead s o k chan retries ok past) := by
  refine hF.goes hG ?_
  unfold Machine.shedPageRead
  refine .ite (.shedPageEnd (.refl _)) ?_
  split
  · exact .shedPageEnd (.refl _)
  · exact .ite (.shedPageEnd (.refl _)) (.ite (.shedPageEnd (.writeAt (.ite (.bump (.refl _)) (.refl _))))
      (.shedPageEnd (.failPage (.ite (.bump (.refl _)) (.refl _)))))

theorem execShedPageReadDone_frames (fn : Fn) (ring : Ring) (idx : Word) (page : Nat) (chan : ShedChan)
    (retries : Nat) (ok past : Bool) (s : State) :
    Frames [.hostMem, .gddr, .scratch, .descriptors, .shed, .loft] s
        (execShedPageReadDone fn ring idx page chan retries ok past s) := by
  unfold execShedPageReadDone
  refine .next ?_
  split
  · exact .ite (.shedPageRead (.refl _)) (.refl _)
  · exact .refl _

theorem Frame.retireBlock {chan : Nat} (hF : Frame F s₀ s)
    (hG : Within [.gddr, .loft, .farrier, .board] F := by rfl) : Frame F s₀ (s.retireBlock chan) :=
  hF.goes hG (.ite (.spareOut (.refl _)) (.ite (.spareIn (.setFld (.refl _))) (.farLog (.setFld (.spareIn
    (.setFld (.refl _)))))))

theorem Frame.retireBlocks {chan row n : Nat} (hF : Frame F s₀ s)
    (hG : Within [.gddr, .gddrs, .loft, .farrier, .board] F := by rfl) :
    Frame F s₀ (s.retireBlocks chan row n) :=
  hF.goes hG (.foldl (.memEvent (.refl _)) fun _ _ => .retireBlock (.refl _))

theorem Frame.shedStage {next : State → ShedOp → List Byte → State} {o : ShedOp} {k : Nat} {past : Bool}
    (hn : ∀ t o bs, Frame F t (next t o bs)) (hF : Within [.descriptors, .shed, .loft] F := by rfl) :
    Frame F s (shedStage s o k past next) := by
  have he : ∀ t g, Frame F s t → Frame F s (t.shedPageEnd o k past g) := fun t _ h =>
    .shedPageEnd h (by simp_all [Within])
  have ht : ∀ pl n, Frame F s (s.touch o.fn pl n) := fun _ _ => .touch (.refl s) (by simp_all [Within])
  unfold Machine.shedStage
  split
  · exact he _ _ (.refl s)
  · exact .ite (he _ _ (.refl s)) (.ite (he _ _ (ht ..)) ((ht ..).trans (hn ..)))

theorem Frame.shedSteps {o : ShedOp} {k chan fails upto : Nat} {past : Bool} {step : Nat} {bs : List Byte}
    (hF : Frame F s₀ s)
    (hG : Within [.gddr, .shedData, .descriptors, .shed, .gddrs, .loft, .farrier, .board] F := by rfl) :
    Frame F s₀ (shedSteps s o k chan fails upto past step bs) :=
  hF.goes hG (.ite (.updShed (.refl _)) (.ite (.updShed (.ite (.retireBlocks (.bump64 (.refl _)))
    (.refl _))) (.ite (.updShed (.ite (.retireBlocks (.bump64 (.refl _))) (.refl _))) (.shedPageEnd
    (.refreshWear (.bump64 (.commitPage (.ite (.retireBlocks (.bump64 (.refl _))) (.refl _)))))))))

theorem Frame.shedPageWrite {o : ShedOp} {k chan upto fails : Nat} {past : Bool} (hF : Frame F s₀ s)
    (hG : Within [.gddr, .shedData, .descriptors, .shed, .gddrs, .loft, .farrier, .board] F := by rfl) :
    Frame F s₀ (shedPageWrite s o k chan upto fails past) :=
  hF.goes hG (.ite (.refl _) (.ite (.shedPageEnd (.refl _)) (.ite (.shedStage fun _ _ _ => .shedSteps
    (.refl _)) (.shedSteps (.refl _)))))

theorem execShedPageWriteDone_frames (fn : Fn) (ring : Ring) (idx : Word) (page : Nat) (chan : ShedChan)
    (upto : Fin 7) (fails : Nat) (past : Bool) (errs : List MemEvent) (s : State) :
    Frames [.gddr, .scratch, .shedData, .descriptors, .plans, .shed, .gddrs, .loft, .farrier, .board] s
        (execShedPageWriteDone fn ring idx page chan upto fails past errs s) := by
  unfold execShedPageWriteDone
  refine .next ?_
  split
  · exact .ite (.meeting (.refl _) fun _ => .shedPageWrite (.refl _)) (.refl _)
  · exact .refl _

theorem Frame.shedRelocate {chan fails erases : Nat} (hF : Frame F s₀ s)
    (hG : Within [.gddr, .gddrs, .loft, .farrier, .board] F := by rfl) :
    Frame F s₀ (shedRelocate s chan fails erases) :=
  hF.goes hG (.ite (.refl _) (.retireBlocks (.retireBlocks (.bump64 (.bump (.refl _))))))

theorem Frame.shedLose {lost : List (Nat × Nat)} (hF : Frame F s₀ s)
    (hG : Within [.shedData, .descriptors, .shed] F := by rfl) : Frame F s₀ (s.shedLose lost) := by
  refine hF.goes hG ?_
  unfold State.shedLose
  refine .foldl (.refl _) fun _ _ => ?_
  split
  · exact .refl _
  · exact .ite (.shedPageEnd (.refl _)) (.shedPageEnd (.refreshWear (.bump64 (.commitPage (.refl _)))))

/-! ### KV streams -/

theorem Frame.setStream {p sid : Nat} {x : Stream} (hF : Frame F s₀ s) (hG : Within [.kv] F := by rfl) :
    Frame F s₀ (s.setStream p sid x) := hF.goes hG (.withKv (.refl _))

theorem Frame.setRefs {p f n : Nat} (hF : Frame F s₀ s) (hG : Within [.kv] F := by rfl) :
    Frame F s₀ (s.setRefs p f n) := hF.goes hG (.withKv (.refl _))

theorem Frame.refreshPool {p : Nat} (hF : Frame F s₀ s) : Frame F s₀ (s.refreshPool p) :=
  .setFld (.setFld (.setFld (.setFld hF)))

theorem Frame.setPageField {p : Nat} {pl : Place} {at_ n v : Nat} (hF : Frame F s₀ s)
    (hG : Within [.hostMem, .gddr, .scratch, .loft] F := by rfl) :
    Frame F s₀ (s.setPageField p pl at_ n v) := hF.goes hG (.writeAt (.refl _))

theorem Frame.unmarkPage {p f : Nat} (hF : Frame F s₀ s)
    (hG : Within [.hostMem, .gddr, .scratch, .loft] F := by rfl) : Frame F s₀ (s.unmarkPage p f) :=
  hF.goes hG (.setPageField (.setPageField (.refl _)))

theorem Frame.dropNode {p id : Nat} (hF : Frame F s₀ s)
    (hG : Within [.hostMem, .gddr, .scratch, .kv, .loft] F := by rfl) : Frame F s₀ (s.dropNode p id) := by
  refine hF.goes hG ?_
  unfold State.dropNode
  split
  · exact .withKv (.unmarkPage (.refl _))
  · exact .withKv (.refl _)

theorem Frame.dropNodes {p : Nat} (hF : Frame F s₀ s)
    (hG : Within [.hostMem, .gddr, .scratch, .kv, .loft] F := by rfl) : Frame F s₀ (s.dropNodes p) :=
  hF.goes hG (.refreshPool (.foldl (.refl _) fun _ _ => .dropNode (.refl _)))

theorem Frame.evictNode {p f : Nat} {keep : Option Nat} (h : s.evictNode p keep = some (f, t))
    (hF : Frame F s₀ s) (hG : Within [.hostMem, .gddr, .scratch, .kv, .loft] F := by rfl) : Frame F s₀ t := by
  refine hF.goes hG ?_
  unfold State.evictNode at h
  split at h
  · cases h
  · cases h
    exact .bump (.dropNode (.refl s))

theorem Frame.claimFrame {p f : Nat} (h : s.claimFrame p = some (f, t)) (hF : Frame F s₀ s)
    (hG : Within [.hostMem, .gddr, .scratch, .kv, .loft] F := by rfl) : Frame F s₀ t := by
  refine hF.goes hG ?_
  unfold State.claimFrame at h
  split at h
  · cases h
    exact .bump (.refl s)
  · split at h
    · cases h
      exact .bump (.bump (.evictNode ‹_› (.refl s)))
    · split at h
      · cases h
        exact .bump (.bump (.refl s))
      · cases h

theorem Frame.freshPage {p sid f firstPos : Nat} (hF : Frame F s₀ s)
    (hG : Within [.hostMem, .gddr, .scratch, .loft] F := by rfl) :
    Frame F s₀ (s.freshPage p sid f firstPos) := hF.goes hG (.writeAt (.refl _))

theorem Frame.setPageWord {p sid w : Nat} {f : Option Nat} (hF : Frame F s₀ s)
    (hG : Within [.gddr, .kv, .loft] F := by rfl) : Frame F s₀ (s.setPageWord p sid w f) := by
  refine hF.goes hG ?_
  unfold State.setPageWord
  split
  · dsimp only
    split
    · exact .writeMem (.refl _)
    · exact .setStream (.writeMem (.refl _))
  · dsimp only
    split
    · exact .writeMem (.refl _)
    · exact .setStream (.writeMem (.refl _))

theorem Frame.dropRef {p f : Nat} (hF : Frame F s₀ s) (hG : Within [.kv] F := by rfl) :
    Frame F s₀ (s.dropRef p f) := hF.goes hG (.setRefs (.refl _))

theorem Frame.mangerHdr {p sid : Nat} (hF : Frame F s₀ s)
    (hG : Within [.hostMem, .gddr, .scratch, .loft] F := by rfl) : Frame F s₀ (s.mangerHdr p sid) := by
  refine hF.goes hG ?_
  unfold State.mangerHdr
  split
  · exact .refl _
  · exact .writeAt (.refl _)

theorem Frame.writeHalf {p : Nat} {pl : Place} {format d g kv h : Nat} {x : Bale} (hF : Frame F s₀ s)
    (hG : Within [.hostMem, .gddr, .scratch, .loft] F := by rfl) :
    Frame F s₀ (s.writeHalf p pl format d g kv h x) := hF.goes hG (.writeAt (.refl _))

theorem Frame.blockFrame {p sid b f : Nat} {x : Stream} (h : s.blockFrame p sid b x = some (f, t))
    (hF : Frame F s₀ s) (hG : Within [.hostMem, .gddr, .scratch, .kv, .loft] F := by rfl) : Frame F s₀ t := by
  refine hF.goes hG ?_
  have take : ∀ {u v : State} {w g : Nat}, Frame [.hostMem, .gddr, .scratch, .kv, .loft] s u →
      (u.claimFrame p).map (fun (f, t) => (f, (t.setRefs p f 1).setPageWord p sid w (some f))) = some (g, v) →
      Frame [.hostMem, .gddr, .scratch, .kv, .loft] s v := fun hu h => .of_map h fun ⟨f, v⟩ hy => by
    dsimp only
    exact .setPageWord (.setRefs (.claimFrame hy hu))
  unfold State.blockFrame at h
  extract_lets w first new grab at h
  split at h
  · exact .of_map h fun ⟨_, _⟩ hy => .freshPage (take (.refl s) hy)
  · extract_lets sl own copy at h
    split at h
    · cases h
      exact .ite (.freshPage (.refl s)) (.refl s)
    · refine .of_map h fun ⟨_, v⟩ hy => ?_
      have hd := take (.ite (.refl s) (.touch (.refl s))) hy
      exact .ite (.freshPage (.bump (.dropRef hd))) (.writeAt (.bump (.dropRef hd)))

theorem Frame.writeTokens {p b f t0 t1 : Nat} {x : Stream} (hF : Frame F s₀ s)
    (hG : Within [.hostMem, .gddr, .scratch, .loft] F := by rfl) :
    Frame F s₀ (s.writeTokens p b f t0 t1 x) :=
  hF.goes hG (.ite (.setPageField (.setPageField (.foldl (.writeAt (.touch (.refl _))) fun _ _ => .ite
    (.refl _) (.writeHalf (.touch (.refl _)))))) (.setPageField (.foldl (.writeAt (.touch (.refl _)))
    fun _ _ => .ite (.refl _) (.writeHalf (.touch (.refl _))))))

theorem Frame.flushBlocks {p sid upto : Nat} {fuel : Nat} {pages : Nat} (hF : Frame F s₀ s)
    (hG : Within [.hostMem, .gddr, .scratch, .kv, .loft] F := by rfl) :
    Frame F s₀ (s.flushBlocks p sid upto fuel pages).2.2 := by
  refine hF.goes hG ?_
  clear hF hG
  induction fuel generalizing s pages with
  | zero => exact .refl s
  | succ fuel ih =>
    unfold State.flushBlocks
    split
    · exact .refl _
    · split
      · exact .refl _
      · dsimp only
        split
        · exact .refl _
        · refine .goes ?_ rfl (ih ..)
          split
          · refine .writeTokens ?_
            refine .blockFrame (by assumption) ?_
            exact .refl _
          · refine .setStream (.writeTokens ?_)
            refine .blockFrame (by assumption) ?_
            exact .refl _

theorem Frame.stall {p sid : Nat} {x : Stream} (hF : Frame F s₀ s) (hG : Within [.kv] F := by rfl) :
    Frame F s₀ (s.stall p sid x) :=
  hF.goes hG (.ite (.refl _) (.raise (.bump (.setFld (.withKv (.setStream (.refl _)))))))

theorem Frame.flush {p sid : Nat} (hF : Frame F s₀ s)
    (hG : Within [.hostMem, .gddr, .scratch, .kv, .loft] F := by rfl) : Frame F s₀ (s.flush p sid).2.2 := by
  refine hF.goes hG ?_
  unfold State.flush
  split
  · exact .refl _
  · refine .refreshPool (.mangerHdr ?_)
    split
    · exact .flushBlocks (.refl _)
    · exact .ite (.withKv (.setStream (.flushBlocks (.refl _)))) (.stall (.flushBlocks (.refl _)))

theorem Frame.stepFlush {p sid : Nat} (hF : Frame F s₀ s)
    (hG : Within [.hostMem, .gddr, .scratch, .plans, .kv, .loft] F := by rfl) :
    Frame F s₀ (s.stepFlush p sid) := by
  refine hF.goes hG ?_
  unfold State.stepFlush
  refine .flush ?_
  split
  · exact .stepFault (.refl _)
  · exact .refl _

theorem Frame.retryStalls {p : Nat} (hF : Frame F s₀ s)
    (hG : Within [.hostMem, .gddr, .scratch, .kv, .loft] F := by rfl) : Frame F s₀ (s.retryStalls p) :=
  hF.goes hG (.foldl (.refl _) fun _ _ => .flush (.refl _))

theorem Frame.kvFault {p sid code : Nat} (hF : Frame F s₀ s) (hG : Within [.plans] F := by rfl) :
    Frame F s₀ (s.kvFault p sid code) :=
  hF.goes hG (.stepFault (.bump (.setFld (.ite (.refl _) (.setFld (.setFld (.refl _)))))))

theorem Frame.touchStream {p sid : Nat} (hF : Frame F s₀ s) (hG : Within [.plans] F := by rfl) :
    Frame F s₀ (s.touchStream p sid) := by
  refine hF.goes hG ?_
  unfold State.touchStream
  refine .updStep (.refl _) (hf := fun _ => ?_)
  split <;> rfl

theorem Frame.mangerHalves {p : Nat} {x : Stream} {g n : Nat} {pay : Nat → Nat → List Byte → List Byte}
    (hF : Frame F s₀ s) (hG : Within [.hostMem, .gddr, .scratch, .loft] F := by rfl) :
    Frame F s₀ (s.mangerHalves p x g n pay) := by
  refine hF.goes hG ?_
  unfold State.mangerHalves
  refine .foldl (.refl _) fun _ _ => ?_
  split
  · split
    · exact .refl _
    · exact .writeHalf (.refl _)

theorem Frame.appendGroup {p sid : Nat} {x : Stream} {g n : Nat} {k v : Bale} (hF : Frame F s₀ s)
    (hG : Within [.hostMem, .gddr, .scratch, .kv, .loft] F := by rfl) :
    Frame F s₀ (s.appendGroup p sid x g n k v) := hF.goes hG (.setStream (.mangerHalves (.refl _)))

theorem Frame.poisonGroup {p sid n g : Nat} (hF : Frame F s₀ s)
    (hG : Within [.hostMem, .gddr, .scratch, .kv, .loft] F := by rfl) :
    Frame F s₀ (s.poisonGroup p sid n g) := by
  refine hF.goes hG ?_
  unfold State.poisonGroup
  split
  · exact .refl _
  · exact .setStream (.mangerHalves (.refl _))

theorem Frame.storeIds {p : Nat} {x : Stream} {ids : List Nat} (hF : Frame F s₀ s)
    (hG : Within [.hostMem, .gddr, .scratch, .loft] F := by rfl) : Frame F s₀ (s.storeIds p x ids) :=
  hF.goes hG (.foldl (.refl _) fun _ _ => .writeAt (.refl _))

theorem Frame.advance {p sid n : Nat} {x : Stream} (hF : Frame F s₀ s)
    (hG : Within [.hostMem, .gddr, .scratch, .plans, .kv, .loft] F := by rfl) :
    Frame F s₀ (s.advance p sid n x) :=
  hF.goes hG (.ite (.mangerHdr (.setStream (.foldl (.refl _) fun _ _ => .poisonGroup (.refl _)))) (.kvFault
    (.mangerHdr (.setStream (.foldl (.refl _) fun _ _ => .poisonGroup (.refl _))))))

theorem Frame.kvAppend {p sid g n vn : Nat} {k v : Bale} {ids : Option (List Nat)} (hF : Frame F s₀ s)
    (hG : Within [.hostMem, .gddr, .scratch, .plans, .kv, .loft] F := by rfl) :
    Frame F s₀ (s.kvAppend p sid g n vn k v ids).2 := by
  refine hF.goes hG ?_
  unfold State.kvAppend
  extract_lets touched
  have htouched : Frame [.hostMem, .gddr, .scratch, .plans, .kv, .loft] s touched := .touchStream (.refl s)
  split
  · exact .kvFault htouched
  · extract_lets flushes flushed
    have hflushed : Frame [.hostMem, .gddr, .scratch, .plans, .kv, .loft] s flushed :=
      .ite (.stepFlush htouched) htouched
    clear_value flushed
    split
    · exact hflushed
    · split
      · exact .kvFault hflushed
      · refine .iteOn Prod.snd hflushed (.iteOn Prod.snd hflushed (.iteOn Prod.snd hflushed ?_))
        dsimp only
        split
        · exact .advance (.storeIds (.appendGroup hflushed))
        · exact .appendGroup hflushed

theorem Frame.commitTokens {p sid a : Nat} {discard : Bool} {x : Stream} (hF : Frame F s₀ s)
    (hG : Within [.hostMem, .gddr, .scratch, .kv, .loft] F := by rfl) :
    Frame F s₀ (s.commitTokens p sid a discard x).2.2 := by
  refine hF.goes hG ?_
  unfold State.commitTokens
  split
  · split
    · exact .flush (.setStream (.refl _))
    · exact .mangerHdr (.setStream (.refl _))
  · split
    · exact .flush (.setStream (.refl _))
    · exact .mangerHdr (.setStream (.refl _))

theorem Frame.kvCommit {p sid a : Nat} (hF : Frame F s₀ s)
    (hG : Within [.hostMem, .gddr, .scratch, .plans, .kv, .loft] F := by rfl) :
    Frame F s₀ (s.kvCommit p sid a).2 := by
  refine hF.goes hG ?_
  unfold State.kvCommit
  dsimp only
  split
  · exact .kvFault (.touchStream (.refl _))
  · split
    · exact .kvFault (.touchStream (.refl _))
    · split
      · split
        · exact .stepFault (.commitTokens (.touchStream (.refl _)))
        · exact .commitTokens (.touchStream (.refl _))
      · split
        · exact .stepFault (.commitTokens (.touchStream (.refl _)))
        · exact .commitTokens (.touchStream (.refl _))

theorem Frame.stampNode {p fuel : Nat} {id : Option Nat} (hF : Frame F s₀ s)
    (hG : Within [.kv] F := by rfl) : Frame F s₀ (s.stampNode p fuel id) := by
  induction fuel generalizing s id with
  | zero => exact hF
  | succ fuel ih =>
    cases id with
    | none => exact hF
    | some id =>
      unfold State.stampNode
      dsimp only
      split
      · exact hF
      · exact ih (.withKv hF hG)

theorem Frame.touchNode {p : Nat} {id : Nat} (hF : Frame F s₀ s) (hG : Within [.kv] F := by rfl) :
    Frame F s₀ (s.touchNode p id) := hF.goes hG (.stampNode (.withKv (.refl _)))

theorem Frame.nodeRoom {p : Nat} {keep : Option Nat} (h : s.nodeRoom p keep = some t) (hF : Frame F s₀ s)
    (hG : Within [.hostMem, .gddr, .scratch, .kv, .loft] F := by rfl) : Frame F s₀ t := by
  unfold State.nodeRoom at h
  split at h
  · cases h
    exact hF
  · obtain ⟨x, hx, rfl⟩ := Option.map_eq_some_iff.1 h
    exact .evictNode hx hF hG

theorem Frame.insertFrom {p sid : Nat} {fuel : Nat} {b : Nat} {parent : Option Nat} {made : Nat}
    (hF : Frame F s₀ s) (hG : Within [.hostMem, .gddr, .scratch, .kv, .loft] F := by rfl) :
    Frame F s₀ (s.insertFrom p sid fuel b parent made).2 := by
  refine hF.goes hG ?_
  clear hF hG
  induction fuel generalizing s b parent made with
  | zero => exact .refl s
  | succ fuel ih =>
    unfold State.insertFrom
    split
    · exact .refl _
    · split
      · exact .refl _
      · split
        · dsimp only
          split
          · exact .refl _
          · refine .goes ?_ rfl (ih ..)
            split
            · exact .touchNode (.refl _)
            · exact .setStream (.touchNode (.refl _))
        · dsimp only
          split
          · exact .refl _
          · split
            · refine .goes ?_ rfl (ih ..)
              split
              · exact .touchNode (.bump (.touch (.refl _)))
              · exact .setStream (.touchNode (.bump (.touch (.refl _))))
            · split
              · exact .bump (.touch (.refl _))
              · refine .goes ?_ rfl (ih ..)
                split
                · refine .setPageField (.setPageField (.touchNode (.bump (.withKv ?_))))
                  refine .nodeRoom (by assumption) ?_
                  exact .touch (.refl _)
                · refine .setStream (.setPageField (.setPageField (.touchNode (.bump (.withKv ?_)))))
                  refine .nodeRoom (by assumption) ?_
                  exact .touch (.refl _)

theorem Frame.matchFrom {p sid : Nat} {ids : List Byte} {fuel : Nat} {b : Nat} {parent : Option Nat}
    (hF : Frame F s₀ s) (hG : Within [.gddr, .kv, .loft] F := by rfl) :
    Frame F s₀ (s.matchFrom p sid ids fuel b parent).2 := by
  refine hF.goes hG ?_
  clear hF hG
  induction fuel generalizing s b parent with
  | zero => exact .refl s
  | succ fuel ih =>
    unfold State.matchFrom
    split
    · exact .refl _
    · dsimp only
      split
      · exact .bump (.ite (.refl _) (.bump (.refl _)))
      · exact .goes (.touchNode (.bump (.setRefs (.setPageWord (.refl _))))) rfl (ih ..)

theorem Frames.kvOp {fn ring idx sub : Nat} {k : State → Flight → Nat → Nat → State}
    (hG : Within [.descriptors] F) (hk : ∀ t f p sid, Frame F t (k t f p sid)) :
    Frames F s (s.kvOp fn ring idx sub k) := by
  unfold State.kvOp
  refine .runDesc fun f => .ite (.refl s) ?_
  split
  · exact (Frame.updFlight (.refl s) hG).trans (hk ..)
  · exact .failDesc (.refl s) hG

theorem Frame.bindStream {p sid : Nat} {x : Stream} (hF : Frame F s₀ s)
    (hG : Within [.hostMem, .gddr, .scratch, .kv, .loft] F := by rfl) :
    Frame F s₀ (s.bindStream p sid x) :=
  hF.goes hG (.mangerHdr (.setStream (.writeMem (.writeAt (.refl _)))))

theorem Frame.kvOpen {f : Flight} {p sid : Nat} (hF : Frame F s₀ s)
    (hG : Within [.hostMem, .gddr, .scratch, .descriptors, .kv, .loft] F := by rfl) :
    Frame F s₀ (kvOpen s f p sid) := hF.goes hG (.finish (.bindStream (.refl _)))

theorem Frame.endFlush {f : Flight} {ok : Bool} {code : Option Nat} {n : Nat} (hF : Frame F s₀ s)
    (hG : Within [.descriptors] F := by rfl) : Frame F s₀ (s.endFlush f ok code n) := by
  refine hF.goes hG ?_
  unfold State.endFlush
  split <;> exact .finish (.refl _)

theorem Frame.kvFlushOp {f : Flight} {p sid : Nat} (hF : Frame F s₀ s)
    (hG : Within [.hostMem, .gddr, .scratch, .descriptors, .kv, .loft] F := by rfl) :
    Frame F s₀ (kvFlushOp s f p sid) := hF.goes hG (.endFlush (.flush (.refl _)))

theorem Frame.kvCommitOp {f : Flight} {p sid : Nat} (hF : Frame F s₀ s)
    (hG : Within [.hostMem, .gddr, .scratch, .descriptors, .kv, .loft] F := by rfl) :
    Frame F s₀ (kvCommitOp s f p sid) := by
  refine hF.goes hG ?_
  unfold Machine.kvCommitOp
  refine .ite (.finish (.refl _)) ?_
  split
  · exact .finish (.refl _)
  · exact .endFlush (.commitTokens (.refl _))

theorem Frame.closeStream {p sid : Nat} (hF : Frame F s₀ s) (hG : Within [.gddr, .kv, .loft] F := by rfl) :
    Frame F s₀ (s.closeStream p sid) := by
  refine hF.goes hG ?_
  unfold State.closeStream
  split
  · exact .refl _
  · exact .refreshPool (.withKv (.foldl (.refl _) fun _ _ => .setPageWord (.dropRef (.refl _))))

theorem Frame.kvFork {f : Flight} {p sid : Nat} (hF : Frame F s₀ s)
    (hG : Within [.hostMem, .gddr, .scratch, .descriptors, .kv, .loft] F := by rfl) :
    Frame F s₀ (kvFork s f p sid) := by
  refine hF.goes hG ?_
  unfold Machine.kvFork
  split
  · exact .finish (.refl _)
  · exact .finish (.refreshPool (.foldl (.bindStream (.refl _)) fun _ _ => .setRefs (.setPageWord
      (.refl _))))

theorem Frame.pedInsert {f : Flight} {p sid : Nat} (hF : Frame F s₀ s)
    (hG : Within [.hostMem, .gddr, .scratch, .descriptors, .kv, .loft] F := by rfl) :
    Frame F s₀ (pedInsert s f p sid) := by
  refine hF.goes hG ?_
  unfold Machine.pedInsert
  split
  · exact .finish (.refl _)
  · next x _ =>
    have hi : Frame [.hostMem, .gddr, .scratch, .descriptors, .kv, .loft] s
        (s.insertFrom p sid 65536 x.inserted x.lastNode 0).2 := .insertFrom (.refl s)
    generalize s.insertFrom p sid 65536 x.inserted x.lastNode 0 = r at hi ⊢
    exact .finish (.refreshPool hi)

theorem Frame.pedMatch {f : Flight} {p sid : Nat} (hF : Frame F s₀ s)
    (hG : Within [.hostMem, .gddr, .scratch, .descriptors, .kv, .loft] F := by rfl) :
    Frame F s₀ (pedMatch s f p sid) := by
  refine hF.goes hG ?_
  unfold Machine.pedMatch
  refine .ite (.finish (.refl _)) ?_
  split
  · exact .finish (.refl _)
  · refine .ite (.finish (.touch (.refl _))) (.ite (.finish (.refl _)) (.finish (.refreshPool ?_)))
    split
    · exact .matchFrom (.touch (.refl _))
    · exact .mangerHdr (.setStream (.matchFrom (.touch (.refl _))))

theorem Frame.ostErr {p code : Nat} (hF : Frame F s₀ s) : Frame F s₀ (s.ostErr p code) :=
  .setFld (.ite hF (.setFld hF))

theorem Frame.showSizes {p : Nat} (hF : Frame F s₀ s) : Frame F s₀ (s.showSizes p) := .setFld (.setFld hF)

theorem Frame.ostEnable {p : Nat} (hF : Frame F s₀ s) : Frame F s₀ (ostEnable s p) := by
  refine hF.goes (G := []) rfl ?_
  unfold Machine.ostEnable
  refine .ite (.refl _) ?_
  split
  · exact .ostErr (.refl _)
  · exact .refreshPool (.showSizes (.setFld (.setFld (.refl _))))

theorem Frame.poolOff {p : Nat} (hF : Frame F s₀ s) (hG : Within [.kv] F := by rfl) :
    Frame F s₀ (s.poolOff p) := hF.goes hG (.setFld (.setFld (.refreshPool (.withKv (.refl _)))))

theorem Frame.ostDisable {p : Nat} (hF : Frame F s₀ s) (hG : Within [.kv] F := by rfl) :
    Frame F s₀ (ostDisable s p) :=
  hF.goes hG (.ite (.refl _) (.ite (.poolOff (.refl _)) (.ostErr (.refl _))))

theorem Frame.ostCtrlWrite {fn : Nat} {val : Word} (hF : Frame F s₀ s) (hG : Within [.kv] F := by rfl) :
    Frame F s₀ (ostCtrlWrite s fn val) :=
  hF.goes hG (.ite (.refl _) (.ite (.ostEnable (.refl _)) (.ostDisable (.refl _))))

theorem Frame.poolFramesWrite {fn : Nat} {host : Bool} {val : Word} (hF : Frame F s₀ s)
    (hG : Within [.hostMem, .gddr, .scratch, .kv, .loft] F := by rfl) :
    Frame F s₀ (poolFramesWrite s fn host val) :=
  hF.goes hG (.ite (.refl _) (.ite (.setFld (.refl _)) (.ite (.ostErr (.refl _)) (.retryStalls (.refreshPool
    (.setFld (.refl _)))))))

theorem Frame.ostConfigWrite {fn : Nat} {store : State → State} (h : Frame F s (store s)) :
    Frame F s (ostConfigWrite s fn store) :=
  .ite (.refl s) (.ite (.ostErr (.refl s)) h)

theorem Frame.partFramesWrite {p : Nat} {val : Word} (hF : Frame F s₀ s) :
    Frame F s₀ (partFramesWrite s p val) := .ite (.setFld hF) (.setFld hF)

theorem Frame.partNodesWrite {p : Nat} {val : Word} (hF : Frame F s₀ s) :
    Frame F s₀ (partNodesWrite s p val) := .ite (.setFld hF) (.setFld hF)

theorem Frame.pedKeyWrite {p w : Nat} {val : Word} (hF : Frame F s₀ s)
    (hG : Within [.hostMem, .gddr, .scratch, .kv, .loft] F := by rfl) :
    Frame F s₀ (pedKeyWrite s p w val) :=
  hF.goes hG (.ite (.refl _) (.ite (.withKv (.refl _)) (.dropNodes (.withKv (.withKv (.refl _))))))

theorem Frame.kvReset {p : Nat} (hF : Frame F s₀ s) (hG : Within [.gddr, .kv, .loft] F := by rfl) :
    Frame F s₀ (s.kvReset p) := hF.goes hG (.poolOff (.foldl (.refl _) fun _ _ => .closeStream (.refl _)))

theorem Frame.poisonPool {p : Nat} (hF : Frame F s₀ s)
    (hG : Within [.hostMem, .gddr, .scratch, .kv, .loft] F := by rfl) : Frame F s₀ (s.poisonPool p) :=
  hF.goes hG (.ite (.refl _) (.dropNodes (.foldl (.refl _) fun _ _ => .setPageField (.refl _))))

/-! ### Collectives -/

theorem Frame.updColl {p k : Nat} {f : CollRun → CollRun} (hF : Frame F s₀ s)
    (hG : Within [.plans] F := by rfl) : Frame F s₀ (s.updColl p k f) := hF.goes hG (.updStep (.refl _))

theorem Frame.raiseGnf {p src : Nat} (hF : Frame F s₀ s) (hG : Within [.plans] F := by rfl) :
    Frame F s₀ (s.raiseGnf p src) :=
  hF.goes hG (.foldl (.updStep (.refl _)) fun _ _ => .setFld (.setFld (.refl _)))

theorem Frame.musFault {p code k : Nat} (hF : Frame F s₀ s) (hG : Within [.plans] F := by rfl) :
    Frame F s₀ (s.musFault p code k) :=
  hF.goes hG (.stepFault (.bump (.setFld (.ite (.refl _) (.setFld (.setFld (.refl _)))))))

theorem Frame.musFaults {p k : Nat} {codes : List Nat} (hF : Frame F s₀ s)
    (hG : Within [.plans] F := by rfl) : Frame F s₀ (s.musFaults p k codes) := by
  refine hF.goes hG ?_
  unfold State.musFaults
  split
  · exact .refl _
  · exact .musFault (.refl _)

theorem Frame.musWait {p beat : Nat} {past : Bool} (hF : Frame F s₀ s) :
    Frame F s₀ (s.musWait p beat past) := .ite (.bump (.bump hF)) hF

theorem Frame.musSend {p : Nat} {x : CollCtx} {k shard kind : Nat} {dests : List Nat} {hdr : SumHdr}
    {data : List Word} {rows : Option RowMsg} (hF : Frame F s₀ s) (hG : Within [.muster] F := by rfl) :
    Frame F s₀ (s.musSend p x k shard kind dests hdr data rows) :=
  hF.goes hG (.ite (.refl _) (.bump64 (.withMus (.refl _))))

theorem Frame.writeBales {p k : Nat} {x : CollCtx} {dirty : Bool} {bs : List (Nat × Bale)}
    (hF : Frame F s₀ s) (hG : Within [.hostMem, .gddr, .scratch, .plans, .loft] F := by rfl) :
    Frame F s₀ (s.writeBales p k x dirty bs) := by
  refine hF.goes hG ?_
  unfold State.writeBales
  refine .foldl (.ite (.refl _) (.musFault (.refl _))) fun _ _ => ?_
  split
  · exact .refl _
  · exact .writeBale (.refl _)

theorem Frame.writeShard {p k : Nat} {x : CollCtx} {g : List (List Byte)} {j : Nat} {h : SumHdr}
    {data : List Word} {dirty : Bool} (hF : Frame F s₀ s)
    (hG : Within [.hostMem, .gddr, .scratch, .plans, .loft] F := by rfl) :
    Frame F s₀ (s.writeShard p k x g j h data dirty) := hF.goes hG (.writeBales (.refl _))

theorem Frame.writeRaw {p k : Nat} {x : CollCtx} {off : Nat} {data : List Word} {poison : Bool}
    (hF : Frame F s₀ s) (hG : Within [.hostMem, .gddr, .scratch, .plans, .loft] F := by rfl) :
    Frame F s₀ (s.writeRaw p k x off data poison) := by
  refine hF.goes hG ?_
  unfold State.writeRaw
  split
  · exact .ite (.refl _) (.musFault (.refl _))
  · exact .writeBales (.writeAt (.refl _))

theorem Frame.collEnd {p k : Nat} {x : CollCtx} {r : CollRun} (hF : Frame F s₀ s)
    (hG : Within [.gddr, .plans, .halter, .loft] F := by rfl) : Frame F s₀ (s.collEnd p k x r) :=
  hF.goes hG (.signal (.ite (.bump (.ite (.raiseGnf (.updStep (.dayRecord (.withYard (.updColl
    (.refl _)))))) (.updStep (.dayRecord (.withYard (.updColl (.refl _))))))) (.ite (.raiseGnf (.updStep
    (.dayRecord (.withYard (.updColl (.refl _)))))) (.updStep (.dayRecord (.withYard (.updColl
    (.refl _))))))))

theorem Frame.collDone {p k : Nat} (hF : Frame F s₀ s)
    (hG : Within [.gddr, .plans, .halter, .loft] F := by rfl) : Frame F s₀ (s.collDone p k) := by
  refine hF.goes hG ?_
  unfold State.collDone
  split
  · exact .ite (.collEnd (.refl _)) (.refl _)
  · exact .refl _

theorem Frame.collWrite {p k j : Nat} {x : CollCtx} {r : CollRun} {h : SumHdr} {data : List Word}
    {dirty : Bool} (hF : Frame F s₀ s) (hG : Within [.hostMem, .gddr, .scratch, .plans, .loft] F := by rfl)
    : Frame F s₀ (s.collWrite p k j x r h data dirty) := by
  refine hF.goes hG ?_
  unfold State.collWrite
  split
  · exact .writeShard (.refl _)
  · exact .ite (.writeShard (.refl _)) (.refl _)
  · exact .writeRaw (.refl _)
  · exact .writeRaw (.refl _)

theorem Frame.collResult {p k j : Nat} {h : SumHdr} {data : List Word} {dirty : Bool} (hF : Frame F s₀ s)
    (hG : Within [.hostMem, .gddr, .scratch, .plans, .halter, .loft, .muster] F := by rfl) :
    Frame F s₀ (s.collResult p k j h data dirty) := by
  refine hF.goes hG ?_
  unfold State.collResult
  split
  · exact .ite (.refl _) (.collDone (.updColl (.musSend (.ite (.ite (.musFault (.refl _)) (.refl _))
      (.collWrite (.ite (.musFault (.refl _)) (.refl _)))))))
  · exact .refl _

theorem Frame.writeEarly {p k : Nat} (hF : Frame F s₀ s)
    (hG : Within [.hostMem, .gddr, .scratch, .plans, .halter, .loft] F := by rfl) :
    Frame F s₀ (s.writeEarly p k) := by
  refine hF.goes hG ?_
  unfold State.writeEarly
  split
  · exact .ite (.refl _) (.collDone (.updColl (.foldl (.refl _) fun _ _ => .collWrite (.refl _))))
  · exact .refl _

theorem Frame.closeShard {p k j : Nat} (hF : Frame F s₀ s)
    (hG : Within [.hostMem, .gddr, .scratch, .plans, .halter, .loft, .muster] F := by rfl) :
    Frame F s₀ (s.closeShard p k j) := by
  refine hF.goes hG ?_
  unfold State.closeShard
  split
  · refine .ite (.refl _) (.ite (.collResult (.setFld (.foldl (.foldl (.ite (.musFault (.updColl (.refl _)))
      (.updColl (.refl _))) fun _ _ => .ite (.refl _) (.dayRecord (.bump (.refl _)))) fun _ _ => .ite
      (.raiseGnf ?_) ?_))) (.musSend (.setFld (.foldl (.foldl (.ite (.musFault (.updColl (.refl _)))
      (.updColl (.refl _))) fun _ _ => .ite (.refl _) (.dayRecord (.bump (.refl _)))) fun _ _ => .ite
      (.raiseGnf ?_) ?_))))
    · split <;> exact .withDeferrals (.dayRecord (.bump (.refl _)))
    · split <;> exact .withDeferrals (.dayRecord (.bump (.refl _)))
    · split <;> exact .withDeferrals (.dayRecord (.bump (.refl _)))
    · split <;> exact .withDeferrals (.dayRecord (.bump (.refl _)))
  · exact .refl _

theorem Frame.closeAll {p k : Nat} (hF : Frame F s₀ s)
    (hG : Within [.hostMem, .gddr, .scratch, .plans, .halter, .loft, .muster] F := by rfl) :
    Frame F s₀ (s.closeAll p k) := by
  refine hF.goes hG ?_
  unfold State.closeAll
  split
  · exact .ite (.foldl (.refl _) fun _ _ => .closeShard (.refl _)) (.refl _)
  · exact .refl _

theorem Frame.a2aCounts {p : Nat} {x : CollCtx} {cs : List Nat} (hF : Frame F s₀ s)
    (hG : Within [.hostMem, .gddr, .scratch, .loft] F := by rfl) : Frame F s₀ (s.a2aCounts p x cs) :=
  hF.goes hG (.foldl (.refl _) fun _ _ => .setTensorWord (.refl _))

theorem Frame.a2aFinish {p k : Nat} (hF : Frame F s₀ s)
    (hG : Within [.hostMem, .gddr, .scratch, .plans, .halter, .loft] F := by rfl) :
    Frame F s₀ (s.a2aFinish p k) := by
  refine hF.goes hG ?_
  unfold State.a2aFinish
  split
  · refine .ite (.refl s) ?_
    extract_lets fwd ls cap kept mism bales inside faulted hard written from_ counted gone updated
    have hwritten : Frame [.hostMem, .gddr, .scratch, .plans, .halter, .loft] s written :=
      .writeBales (.musFaults (.refl s))
    have hupdated : Frame [.hostMem, .gddr, .scratch, .plans, .halter, .loft] s updated :=
      .updColl (.ite hwritten (.a2aCounts hwritten))
    split
    · exact .collEnd hupdated
    · exact hupdated
  · exact .refl s

theorem Frame.collReady {p k : Nat} (hF : Frame F s₀ s) (hG : Within [.plans, .loft] F := by rfl) :
    Frame F s₀ (s.collReady p k) := by
  refine hF.goes hG ?_
  unfold State.collReady
  split
  · exact .ite (.updColl (.refl _)) (.updColl (.ite (.updColl (.refl _)) (.foldl (.updColl (.refl _))
      fun _ _ => .tookWord (.refl _))))
  · exact .refl _

theorem Frame.a2aSend {p k : Nat} {x : CollCtx} {r : CollRun} (hF : Frame F s₀ s)
    (hG : Within [.plans, .loft, .muster] F := by rfl) : Frame F s₀ (s.a2aSend p k x r) :=
  hF.goes hG (.updColl (.foldl (.foldl (.ite (.stepReset (.musFaults (.refl _))) (.musFaults (.refl _)))
    fun _ _ => .took (.refl _)) fun _ _ => .ite (.updColl (.refl _)) (.musSend (.refl _))))

theorem Frame.whistleRun {p k : Nat} {fuel : Nat} (hF : Frame F s₀ s)
    (hG : Within [.hostMem, .gddr, .scratch, .plans, .halter, .loft, .muster] F := by rfl) :
    Frame F s₀ (s.whistleRun p k fuel) := by
  refine hF.goes hG ?_
  clear hF hG
  induction fuel generalizing s with
  | zero => exact .refl s
  | succ fuel ih =>
    unfold State.whistleRun
    split
    · exact .ite (.refl _) (.ite (.collEnd (.writeRaw (.refl _))) (.ite (.goes (.updColl (.refl _)) rfl (ih
        ..)) (.ite (.ite (.refl _) (.updColl (.musSend (.refl _)))) (.goes (.updColl (.ite (.musFault (.ite
        (.refl _) (.updColl (.musSend (.refl _))))) (.ite (.refl _) (.updColl (.musSend (.refl _)))))) rfl
        (ih ..)))))
    · exact .refl _

theorem Frame.contributeSums {p k : Nat} {x : CollCtx} {r : CollRun} (hF : Frame F s₀ s)
    (hG : Within [.plans, .loft] F := by rfl) : Frame F s₀ (s.contributeSums p k x r) :=
  hF.goes hG (.ite (.updColl (.refl _)) (.updColl (.foldl (.ite (.stepReset (.musFaults (.refl _)))
    (.musFaults (.refl _))) fun _ _ => .ite (.refl _) (.took (.refl _)))))

theorem Frame.rawContribution {p k : Nat} {x : CollCtx} {r : CollRun} (hF : Frame F s₀ s)
    (hG : Within [.plans, .loft] F := by rfl) : Frame F s₀ (s.rawContribution p k x r).2.2 := by
  refine hF.goes hG ?_
  unfold State.rawContribution
  extract_lets none' hdr src bales
  split
  · exact .refl s
  · dsimp -zeta only
    extract_lets counted reset touched summed ws odd
    have hreset : Frame [.plans, .loft] s reset := .ite (.stepReset (.musFaults (.refl s))) (.musFaults (.refl s))
    have htouched : Frame [.plans, .loft] s touched := by
      unfold touched
      split
      · exact .ite (.touch hreset) hreset
      · exact hreset
    have hsummed : Frame [.plans, .loft] s summed := by
      unfold summed
      split
      · exact .foldl htouched fun _ _ => .ite (.stepFault (.refl _)) (.ite (.stepFault (.refl _)) (.refl _))
      · exact htouched
    exact hsummed

theorem Frame.contribute {p k : Nat} (hF : Frame F s₀ s)
    (hG : Within [.hostMem, .gddr, .scratch, .plans, .halter, .loft, .muster] F := by rfl) :
    Frame F s₀ (s.contribute p k) := by
  refine hF.goes hG ?_
  unfold State.contribute
  split
  · exact .ite (.refl _) (.ite (.writeEarly (.closeAll (.contributeSums (.updColl (.refl _))))) (.ite (.ite
      (.collDone (.updColl (.refl _))) (.collResult (.rawContribution (.updColl (.refl _))))) (.ite
      (.whistleRun (.updColl (.rawContribution (.updColl (.refl _))))) (.a2aFinish (.a2aSend (.updColl
      (.refl _)))))))
  · exact .refl _

theorem Frame.collOpen {p k : Nat} (hF : Frame F s₀ s)
    (hG : Within [.hostMem, .gddr, .scratch, .plans, .halter, .loft, .muster] F := by rfl) :
    Frame F s₀ (s.collOpen p k) := by
  refine hF.goes hG ?_
  unfold State.collOpen
  split
  · exact .ite (.refl _) (.ite (.contribute (.collReady (.updColl (.refl _)))) (.ite (.semWait (.updColl
      (.refl _))) (.collReady (.updColl (.refl _)))))
  · exact .refl _

theorem Frame.lateSum {p id : Nat} {hold : Bool} {d : Deferral} {rank : Nat} (hF : Frame F s₀ s)
    (hG : Within [.gddr, .plans, .loft] F := by rfl) : Frame F s₀ (s.lateSum p id hold d rank) :=
  hF.goes hG (.ite (.setFld (.withDeferrals (.foldl (.refl _) fun _ _ => .dayRecord (.refl _)))) (.dayRecord
    (.bump (.refl _))))

theorem Frame.parentClose {p k j : Nat} (hF : Frame F s₀ s)
    (hG : Within [.hostMem, .gddr, .scratch, .plans, .halter, .loft, .muster] F := by rfl) :
    Frame F s₀ (s.parentClose p k j) := by
  refine hF.goes hG ?_
  unfold State.parentClose
  split
  · exact .ite (.refl _) (.closeShard (.updColl (.refl _)))
  · exact .refl _

theorem Frame.childLands {p id step k j pos : Nat} {h : SumHdr} {data : List Word} {past : Bool}
    (hF : Frame F s₀ s)
    (hG : Within [.hostMem, .gddr, .scratch, .plans, .halter, .loft, .muster] F := by rfl) :
    Frame F s₀ (s.childLands p id step k j pos h data past) := by
  refine hF.goes hG ?_
  unfold State.childLands
  split
  · exact .ite (.refl _) (.ite (.lateSum (.refl _)) (.ite (.refl _) (.ite (.lateSum (.refl _)) (.ite
      (.refl _) (.closeShard (.updColl (.musWait (.refl _))))))))
  · split
    · exact .refl _
    · split
      · exact .ite (.refl _) (.lateSum (.refl _))
      · exact .refl _

theorem Frame.childSum {p id step k j pos : Nat} {h : SumHdr} {data : List Word} {past : Bool}
    (hF : Frame F s₀ s)
    (hG : Within [.hostMem, .gddr, .scratch, .plans, .halter, .loft, .muster] F := by rfl) :
    Frame F s₀ (s.childSum p id step k j pos h data past) :=
  hF.goes hG (.childLands (.ite (.parentClose (.refl _)) (.refl _)))

theorem Frame.resultArrives {p k j : Nat} {h : SumHdr} {data : List Word} (hF : Frame F s₀ s)
    (hG : Within [.hostMem, .gddr, .scratch, .plans, .halter, .loft, .muster] F := by rfl) :
    Frame F s₀ (s.resultArrives p k j h data) := by
  refine hF.goes hG ?_
  unfold State.resultArrives
  split
  · exact .collResult (.ite (.refl _) (.musWait (.refl _)))
  · exact .refl _

theorem Frame.a2aReceive {p k : Nat} {m : RowMsg} {past : Bool} (hF : Frame F s₀ s)
    (hG : Within [.hostMem, .gddr, .scratch, .plans, .halter, .loft] F := by rfl) :
    Frame F s₀ (s.a2aReceive p k m past) := by
  refine hF.goes hG ?_
  unfold State.a2aReceive
  split
  · exact .ite (.refl _) (.a2aFinish (.updColl (.musWait (.refl _))))
  · exact .refl _

theorem Frame.whistleReceive {p k sender phase : Nat} {hdr : SumHdr} {data : List Word} (hF : Frame F s₀ s)
    (hG : Within [.hostMem, .gddr, .scratch, .plans, .halter, .loft, .muster] F := by rfl) :
    Frame F s₀ (s.whistleReceive p k sender phase hdr data) := by
  refine hF.goes hG ?_
  unfold State.whistleReceive
  split
  · exact .ite (.refl _) (.whistleRun (.updColl (.refl _)))
  · exact .refl _

theorem Frame.musCancel {p id k : Nat} {sameCc : Bool} (hF : Frame F s₀ s)
    (hG : Within [.hostMem, .gddr, .scratch, .plans, .halter, .loft, .muster] F := by rfl) :
    Frame F s₀ (musCancel s p id k sameCc) := by
  refine hF.goes hG ?_
  unfold Machine.musCancel
  refine .ite (.refl _) ?_
  split
  · exact .setFld (.refl _)
  · split
    · refine .ite (.setFld (.refl _)) ?_
      split
      · exact .ite (.setFld (.bump (.refl _))) (.setFld (.ite (.contribute (.collReady (.updColl
          (.refl _)))) (.updColl (.refl _))))
      · refine .setFld ?_
        split
        · exact .refl _
        · exact .withMus (.refl _)
    · exact .setFld (.refl _)

theorem Frame.resetRaw {p k : Nat} {x : CollCtx} {off : Nat} (hF : Frame F s₀ s)
    (hG : Within [.hostMem, .gddr, .scratch, .plans, .loft] F := by rfl) :
    Frame F s₀ (s.resetRaw p k x off) := by
  refine hF.goes hG ?_
  unfold State.resetRaw
  dsimp only
  split
  · exact .writeRaw (.refl _)
  · exact .ite (.writeRaw (.refl _)) (.writeBales (.refl _))

theorem Frame.resetRows {p k : Nat} {x : CollCtx} {r : CollRun} (hF : Frame F s₀ s)
    (hG : Within [.hostMem, .gddr, .scratch, .plans, .loft] F := by rfl) :
    Frame F s₀ (s.resetRows p k x r) :=
  hF.goes hG (.ite (.writeBales (.refl _)) (.a2aCounts (.writeBales (.refl _))))

theorem Frame.collReset {p k : Nat} (hF : Frame F s₀ s)
    (hG : Within [.hostMem, .gddr, .scratch, .plans, .halter, .loft, .muster] F := by rfl) :
    Frame F s₀ (s.collReset p k) := by
  refine hF.goes hG ?_
  unfold State.collReset
  split
  · exact .ite (.refl _) (.stepReset (.signal (.updColl (.musSend (.ite (.foldl (.refl _) fun _ _ =>
      .writeShard (.refl _)) (.ite (.foldl (.refl _) fun _ _ => .resetRaw (.refl _)) (.ite (.writeRaw
      (.refl _)) (.resetRows (.refl _)))))))))
  · exact .refl _

theorem Frame.gnfFinal {p : Nat} (hF : Frame F s₀ s) (hG : Within [.plans] F := by rfl) :
    Frame F s₀ (gnfFinal s p) := by
  refine hF.goes hG ?_
  unfold Machine.gnfFinal
  split
  · refine .ite (.refl _) (.foldl (.foldl (.updStep (.refl _)) fun _ _ => ?_) fun _ _ => .ite (.setFld
      (.setFld (.setFld (.refl _)))) (.setFld (.setFld (.refl _))))
    split
    · exact .bump (.refl _)
    · exact .refl _
  · exact .refl _

/-! ### Links -/

theorem Frame.linkViol {l code value : Nat} (hF : Frame F s₀ s) : Frame F s₀ (s.linkViol l code value) :=
  .raise (.setFld (.ite (.bump hF) (.setFld (.setFld (.bump hF)))))

theorem Frame.loseTransfer {p k : Nat} {reset : Bool} (hF : Frame F s₀ s) (hG : Within [.plans] F := by rfl)
    : Frame F s₀ (s.loseTransfer p k reset) := by
  refine hF.goes hG ?_
  unfold State.loseTransfer
  split
  · exact .refl _
  · exact .ite (.ite (.stepReset (.updStep (.refl _))) (.stepLink (.updStep (.refl _)))) (.refl _)

theorem Frame.dropEdgeDeferrals {p l : Nat} (hF : Frame F s₀ s) (hG : Within [.plans] F := by rfl) :
    Frame F s₀ (s.dropEdgeDeferrals p l) :=
  hF.goes hG (.ite (.refl _) (.setFld (.bump (.withYard (.refl _)))))

theorem Frame.loseLink {p l : Nat} {reset : Bool} (hF : Frame F s₀ s)
    (hG : Within [.hostMem, .gddr, .scratch, .plans, .halter, .loft, .muster] F := by rfl) :
    Frame F s₀ (s.loseLink p l reset) := by
  refine hF.goes hG ?_
  unfold State.loseLink
  split
  · exact .ite (.dropEdgeDeferrals (.refl _)) (.refl _)
  · exact .ite (.dropEdgeDeferrals (.foldl (.foldl (.refl _) fun _ _ => .loseTransfer (.refl _)) fun _ _ =>
      .collReset (.refl _))) (.foldl (.foldl (.refl _) fun _ _ => .loseTransfer (.refl _)) fun _ _ =>
      .collReset (.refl _))

theorem Frame.landPipe {p : Nat} {pl : Plan} {node mb : Nat} {x : Landing} {lost : Bool}
    {began : Option Nat} (hF : Frame F s₀ s) (hG : Within [.plans, .halter] F := by rfl) :
    Frame F s₀ (s.landPipe p pl node mb x lost began) := by
  refine hF.goes hG ?_
  unfold State.landPipe
  refine .signal (.ite (.ite (.stepReset (.bump (.updStep (.refl _) (hf := fun _ => ?_)))) (.updStep
    (.refl _) (hf := fun _ => ?_))) (.bump (.ite (.stepReset (.bump (.updStep (.refl _) (hf := fun _ =>
    ?_)))) (.updStep (.refl _) (hf := fun _ => ?_)))))
  · split <;> rfl
  · split <;> rfl
  · split <;> rfl
  · split <;> rfl

theorem Frame.landTry {p : Nat} {e : Landing × Bool × Option Nat} (hF : Frame F s₀ s)
    (hG : Within [.plans, .halter] F := by rfl) : Frame F s₀ (s.landTry p e) := by
  refine hF.goes hG ?_
  unfold State.landTry
  split
  · split
    · exact .updStep (.refl _)
    · exact .updStep (.refl _)
    · exact .landPipe (.refl _)
  · exact .refl _

theorem Frame.landHeld {p : Nat} {k : Nat} (hF : Frame F s₀ s) (hG : Within [.plans, .halter] F := by rfl)
    : Frame F s₀ (s.landHeld p k) := by
  refine hF.goes hG ?_
  clear hF hG
  induction k generalizing s with
  | zero => exact .refl s
  | succ k ih =>
    unfold State.landHeld
    exact .goes (.foldl (.updStep (.refl _)) fun _ _ => .landTry (.refl _)) rfl (ih ..)

theorem Frame.landWaiting {p : Nat} (hF : Frame F s₀ s) (hG : Within [.plans, .halter] F := by rfl) :
    Frame F s₀ (s.landWaiting p) := hF.goes hG (.landHeld (.refl _))

theorem Frame.landTensor {p : Nat} {pl : Plan} {x : Landing} (hF : Frame F s₀ s)
    (hG : Within [.hostMem, .gddr, .scratch, .plans, .loft] F := by rfl) :
    Frame F s₀ (s.landTensor p pl x) := by
  refine hF.goes hG ?_
  unfold State.landTensor
  split
  · exact .refl _
  · exact .foldl (.regain (.writeAt (.refl _))) fun _ _ => .markBale (.refl _)

theorem Frame.loseRange {p : Nat} {pl : Plan} {tensor off n : Nat} (hF : Frame F s₀ s)
    (hG : Within [.plans] F := by rfl) : Frame F s₀ (s.loseRange p pl tensor off n) := by
  refine hF.goes hG ?_
  unfold State.loseRange
  refine .stepReset ?_
  split
  · exact .lose (.foldl (.refl _) fun _ _ => .bump (.refl _))
  · exact .foldl (.refl _) fun _ _ => .bump (.refl _)

theorem Frame.land {p : Nat} {x : Landing} {lost : Bool} (hF : Frame F s₀ s)
    (hG : Within [.hostMem, .gddr, .scratch, .plans, .halter, .loft] F := by rfl) :
    Frame F s₀ (s.land p x lost) := by
  refine hF.goes hG ?_
  unfold State.land
  split
  · exact .landWaiting (.landTry (.refl _))
  · exact .signal (.ite (.loseRange (.refl _)) (.landTensor (.refl _)))
  · exact .refl _

theorem Frame.startTrain {l : Nat} (hF : Frame F s₀ s) (hG : Within [.links] F := by rfl) :
    Frame F s₀ (s.startTrain l) :=
  hF.goes hG (.ite (.updLink (.setFld (.setFld (.refl _)))) (.setFld (.refl _)))

theorem Frame.linkDown {l : Nat} {reset : Bool} (hF : Frame F s₀ s)
    (hG : Within [.hostMem, .gddr, .scratch, .plans, .halter, .loft, .links, .muster] F := by rfl) :
    Frame F s₀ (s.linkDown l reset) :=
  hF.goes hG (.ite (.refl _) (.foldl (.foldl (.updLink (.bump (.setFld (.setFld (.setFld (.refl _))))))
    fun _ _ => .ite (.dropEdgeDeferrals (.refl _)) (.refl _)) fun _ _ => .loseLink (.refl _)))

theorem Frame.linkRetrain {l : Nat} {reset : Bool} (hF : Frame F s₀ s)
    (hG : Within [.hostMem, .gddr, .scratch, .plans, .halter, .loft, .links, .muster] F := by rfl) :
    Frame F s₀ (s.linkRetrain l reset) := hF.goes hG (.startTrain (.linkDown (.refl _)))

theorem Frame.hlkCtrlWrite {l : Nat} {val : Word} (hF : Frame F s₀ s)
    (hG : Within [.hostMem, .gddr, .scratch, .plans, .halter, .loft, .links, .muster] F := by rfl) :
    Frame F s₀ (hlkCtrlWrite s l val) :=
  hF.goes hG (.ite (.setFld (.linkDown (.setFld (.refl _)))) (.ite (.linkRetrain (.setFld (.refl _))) (.ite
    (.startTrain (.setFld (.refl _))) (.setFld (.refl _)))))

theorem Frame.linkTrainDone {l : Nat} {bad : List Nat} {rank dom far delay : Nat} (hF : Frame F s₀ s)
    (hG : Within [.gddr, .loft, .links, .farrier, .board] F := by rfl) :
    Frame F s₀ (linkTrainDone s l bad rank dom far delay) := by
  refine hF.goes hG ?_
  unfold Machine.linkTrainDone
  split
  · dsimp only
    split <;> exact .refl _
  · dsimp only
    split
    · exact .refl _
    · exact .ite (.linkViol (.setFld (.setReg (.setFld (.setLanes (.updLink (.foldl (.refl _) fun _ _ =>
        .swapLane (.refl _)))))))) (.updLink (.setFld (.setFld (.setReg (.setFld (.setLanes (.updLink
        (.foldl (.refl _) fun _ _ => .swapLane (.refl _)))))))))

theorem Frame.linkTrainTimeout {l : Nat} (hF : Frame F s₀ s)
    (hG : Within [.gddr, .loft, .links, .farrier] F := by rfl) : Frame F s₀ (linkTrainTimeout s l) :=
  hF.goes hG (.ite (.refl _) (.ite (.updLink (.refl _)) (.farLog (.setFld (.refl _)))))

theorem Frame.laneFail {l lane : Nat} (hF : Frame F s₀ s)
    (hG : Within [.hostMem, .gddr, .scratch, .plans, .halter, .loft, .links, .muster, .farrier, .board] F := by rfl)
    : Frame F s₀ (laneFail s l lane) :=
  hF.goes hG (.ite (.refl _) (.ite (.updLink (.refl _)) (.startTrain (.swapLane (.linkDown (.refl _))))))

theorem Frame.emit {l : Nat} {k : Packet} (hF : Frame F s₀ s) (hG : Within [.links] F := by rfl) :
    Frame F s₀ (s.emit l k) := hF.goes hG (.updLink (.bump64 (.refl _)))

theorem Frame.dropUnwindowed {l : Nat} {k : Packet} (hF : Frame F s₀ s) (hG : Within [.plans] F := by rfl) :
    Frame F s₀ (s.dropUnwindowed l k) := by
  refine hF.goes hG ?_
  unfold State.dropUnwindowed
  refine .ite ?_ (.linkViol (.refl _))
  split
  · exact .loseTransfer (.linkViol (.refl _))
  · exact .linkViol (.refl _)

theorem Frame.linkPacketSend {l : Nat} {src : Option Nat} {k : Packet} (hF : Frame F s₀ s)
    (hG : Within [.plans, .links] F := by rfl) : Frame F s₀ (linkPacketSend s l src k) := by
  refine hF.goes hG ?_
  unfold Machine.linkPacketSend
  refine .ite (.refl _) ?_
  split
  · split
    · exact .updLink (.dropUnwindowed (.refl _))
    · exact .dropUnwindowed (.refl _)
  · exact .refl _
  · refine .ite (.bump (.refl _)) (.ite (.refl _) ?_)
    split
    · exact .updLink (.emit (.refl _))
    · exact .emit (.refl _)

theorem Frame.linkPacketReceive {l : Nat} {k : Packet} {crcOk : Bool} {badHdr : Option Word}
    {corr uncorr : Nat} (hF : Frame F s₀ s)
    (hG : Within [.hostMem, .gddr, .scratch, .plans, .halter, .loft, .links, .muster, .farrier] F := by rfl)
    : Frame F s₀ (linkPacketReceive s l k crcOk badHdr corr uncorr) := by
  refine hF.goes hG ?_
  unfold Machine.linkPacketReceive
  refine .ite (.refl _) (.ite (.farEvent (.bump64 (.bump (.bump64 (.refl _))))) ?_)
  split
  · exact .ite (.linkRetrain (.updLink (.linkViol (.farEvent (.bump64 (.bump (.bump64 (.refl _))))))))
      (.updLink (.linkViol (.farEvent (.bump64 (.bump (.bump64 (.refl _)))))))
  · exact .ite (.linkRetrain (.linkViol (.farEvent (.bump64 (.bump (.bump64 (.refl _))))))) (.ite (.bump
      (.updLink (.farEvent (.bump64 (.bump (.bump64 (.refl _))))))) (.ite (.linkViol (.updLink (.farEvent
      (.bump64 (.bump (.bump64 (.refl _))))))) (.ite (.linkViol (.updLink (.farEvent (.bump64 (.bump
      (.bump64 (.refl _))))))) (.ite (.updLink (.farEvent (.bump64 (.bump (.bump64 (.refl _)))))) (.updLink
      (.updLink (.farEvent (.bump64 (.bump (.bump64 (.refl _)))))))))))

theorem Frame.linkAck {l seq : Nat} (hF : Frame F s₀ s) (hG : Within [.links] F := by rfl) :
    Frame F s₀ (linkAck s l seq) :=
  hF.goes hG (.ite (.refl _) (.ite (.linkViol (.refl _)) (.updLink (.refl _))))

theorem Frame.linkNak {l seq : Nat} (hF : Frame F s₀ s)
    (hG : Within [.hostMem, .gddr, .scratch, .plans, .halter, .loft, .links, .muster] F := by rfl) :
    Frame F s₀ (linkNak s l seq) :=
  hF.goes hG (.ite (.refl _) (.ite (.linkViol (.refl _)) (.ite (.linkRetrain (.refl _)) (.updLink (.bump64
    (.bump (.refl _)))))))

theorem Frame.transferSend {p k : Nat} (hF : Frame F s₀ s) (hG : Within [.plans, .loft] F := by rfl) :
    Frame F s₀ (transferSend s p k) := by
  refine hF.goes hG ?_
  unfold Machine.transferSend
  split
  · split
    · exact .refl _
    · refine .ite (.refl _) ?_
      split
      · dsimp only
        split
        · exact .loseTransfer (.ite (.bump (.refl _)) (.refl _))
        · refine .ite (.loseTransfer ?_) (.updStep ?_ (hf := fun _ => ?_))
          · split <;> exact .ite (.bump (.refl _)) (.refl _)
          · split <;> exact .ite (.bump (.refl _)) (.refl _)
          · split <;> split <;> rfl
      · dsimp only
        split
        · exact .loseTransfer (.ite (.bump (.refl _)) (.refl _))
        · refine .ite (.loseTransfer ?_) (.updStep ?_ (hf := fun _ => ?_))
          · split
            · exact .ite (.stepFault (.touch (.ite (.bump (.refl _)) (.refl _)))) (.touch (.ite (.bump
                (.refl _)) (.refl _)))
            · exact .ite (.bump (.refl _)) (.refl _)
          · split
            · exact .ite (.stepFault (.touch (.ite (.bump (.refl _)) (.refl _)))) (.touch (.ite (.bump
                (.refl _)) (.refl _)))
            · exact .ite (.bump (.refl _)) (.refl _)
          · split
            · split <;> split <;> split <;> rfl
            · split <;> rfl
  · exact .refl _

theorem Frame.transferLand {p : Nat} {slot : Option Nat} {x : Option Landing} (hF : Frame F s₀ s)
    (hG : Within [.hostMem, .gddr, .scratch, .plans, .halter, .loft] F := by rfl) :
    Frame F s₀ (transferLand s p slot x) := by
  refine hF.goes hG ?_
  unfold Machine.transferLand
  split
  · split
    · exact .land (.refl _)
    · exact .refl _
  · split
    · split
      · split
        · exact .land (.refl _)
        · exact .refl _
      · split
        · exact .land (.ite (.land (.updStep (.refl _))) (.updStep (.refl _)))
        · exact .ite (.land (.updStep (.refl _))) (.updStep (.refl _))
    · split
      · exact .land (.refl _)
      · exact .refl _

/-! ### Yard Time -/

theorem Frame.setYt {st : Nat} {synced : Bool} (hF : Frame F s₀ s) : Frame F s₀ (s.setYt st synced) :=
  .setFld (.setFld hF)

theorem Frame.setPhase {x : Int} (hF : Frame F s₀ s) (hG : Within [.yardTime] F := by rfl) :
    Frame F s₀ (s.setPhase x) := hF.goes hG (.setReg (.withYt (.refl _)))

theorem Frame.setHold {h : Option Nat} (hF : Frame F s₀ s) (hG : Within [.yardTime] F := by rfl) :
    Frame F s₀ (s.setHold h) := by
  refine hF.goes hG ?_
  unfold State.setHold
  split
  · exact .setReg (.withYt (.refl _))
  · exact .withYt (.refl _)

theorem Frame.unsync (hF : Frame F s₀ s) (hG : Within [.yardTime] F := by rfl) : Frame F s₀ s.unsync := by
  refine hF.goes hG ?_
  unfold State.unsync
  refine .raise ?_
  split <;> exact .withYt (.bump (.setFld (.setYt (.refl _))))

theorem Frame.noHoldover (hF : Frame F s₀ s) (hG : Within [.yardTime] F := by rfl) :
    Frame F s₀ s.noHoldover := hF.goes hG (.ite (.unsync (.refl _)) (.refl _))

theorem Frame.ytDrop (hF : Frame F s₀ s) (hG : Within [.yardTime] F := by rfl) : Frame F s₀ s.ytDrop := by
  refine hF.goes hG ?_
  unfold State.ytDrop
  split
  · exact .noHoldover (.setHold (.setYt (.refl _)))
  · exact .ite (.noHoldover (.setHold (.setYt (.refl _)))) (.setYt (.refl _))
  · exact .ite (.noHoldover (.setYt (.refl _))) (.setYt (.refl _))
  · exact .refl _

theorem Frame.ytReturn (hF : Frame F s₀ s) (hG : Within [.yardTime] F := by rfl) :
    Frame F s₀ s.ytReturn :=
  hF.goes hG (.ite (.withYt (.refl _)) (.ite (.setYt (.withYt (.refl _))) (.withYt (.refl _))))

theorem Frame.referenceLost (hF : Frame F s₀ s) (hG : Within [.yardTime] F := by rfl) :
    Frame F s₀ (referenceLost s) :=
  hF.goes hG (.ite (.refl _) (.ite (.raise (.ytDrop (.bump (.setFld (.withYt (.refl _)))))) (.withYt
    (.refl _))))

theorem Frame.rateCheck {rate : Int} (hF : Frame F s₀ s) (hG : Within [.yardTime] F := by rfl) :
    Frame F s₀ (rateCheck s rate) :=
  hF.goes hG (.ite (.refl _) (.ite (.ite (.ytReturn (.withYt (.setReg (.refl _)))) (.setReg (.refl _)))
    (.ite (.raise (.ytDrop (.bump (.setFld (.withYt (.setReg (.refl _))))))) (.setReg (.refl _)))))

theorem Frame.referenceQualified {phase rate : Int} {expired : Bool} (hF : Frame F s₀ s)
    (hG : Within [.yardTime] F := by rfl) : Frame F s₀ (referenceQualified s phase rate expired) := by
  refine hF.goes hG ?_
  unfold Machine.referenceQualified
  refine .ite (.refl _) (.setReg (.setPhase (.setYt ?_)))
  split
  · exact .withYt (.unsync (.refl _))
  · exact .withYt (.refl _)

theorem Frame.holdoverExpiry (hF : Frame F s₀ s) (hG : Within [.yardTime] F := by rfl) :
    Frame F s₀ (holdoverExpiry s) := hF.goes hG (.ite (.unsync (.setHold (.refl _))) (.refl _))

theorem Frame.applyYtCtrl {v : Word} (hF : Frame F s₀ s) (hG : Within [.yardTime] F := by rfl) :
    Frame F s₀ (s.applyYtCtrl v) :=
  hF.goes hG (.ite (.setReg (.refl _)) (.ite (.ytDrop (.withYt (.setReg (.refl _)))) (.setYt (.withYt
    (.withYt (.setReg (.refl _)))))))

theorem Frame.ytmCtrlWrite {val : Word} (hF : Frame F s₀ s) (hG : Within [.yardTime] F := by rfl) :
    Frame F s₀ (ytmCtrlWrite s val) := by
  refine hF.goes hG ?_
  unfold Machine.ytmCtrlWrite
  refine .ite (.applyYtCtrl (.refl _)) ?_
  split <;> exact .withYt (.refl _)

theorem Frame.releaseYtCtrl (hF : Frame F s₀ s) (hG : Within [.yardTime] F := by rfl) :
    Frame F s₀ s.releaseYtCtrl := by
  refine hF.goes hG ?_
  unfold State.releaseYtCtrl
  split
  · exact .applyYtCtrl (.withYt (.refl _))
  · exact .refl _

theorem Frame.ytViol {code value : Nat} (hF : Frame F s₀ s) : Frame F s₀ (s.ytViol code value) :=
  .raise (.setFld (.ite hF (.setFld (.setFld hF))))

theorem Frame.takeFrame {count period epoch : Nat} {phase : Int} (hF : Frame F s₀ s)
    (hG : Within [.yardTime] F := by rfl) : Frame F s₀ (s.takeFrame count period epoch phase) := by
  refine hF.goes hG ?_
  unfold State.takeFrame
  refine .ite (.ytViol (.refl _)) (.ite (.ytViol (.refl _)) (.ite ?_ (.ytReturn (.ite (.setFld ?_) ?_))))
  · split
    · exact .withYt (.ytReturn (.setFld (.setFld (.setReg64 (.setPhase (.setFld (.refl _)))))))
    · exact .withYt (.ytReturn (.setFld (.setFld (.setReg64 (.setFld (.refl _))))))
  · split
    · exact .withYt (.setPhase (.setFld (.refl _)))
    · exact .withYt (.setFld (.refl _))
  · split
    · exact .withYt (.setPhase (.setFld (.refl _)))
    · exact .withYt (.setFld (.refl _))

theorem Frame.ptpMessage {port ns : Nat} {frac : Int} {sync broken lost : Bool} (hF : Frame F s₀ s)
    (hG : Within [.yardTime] F := by rfl) : Frame F s₀ (ptpMessage s port ns frac sync broken lost) :=
  hF.goes hG (.ite (.refl _) (.ite (.bump (.refl _)) (.ite (.ytReturn (.ite (.setPhase (.refl _))
    (.refl _))) (.refl _))))

theorem Frame.fetchRecord {p : Nat} {f : Fetch} {course cause beats : Nat} (hF : Frame F s₀ s)
    (hG : Within [.gddr, .loft] F := by rfl) : Frame F s₀ (s.fetchRecord p f course cause beats) := by
  refine hF.goes hG ?_
  unfold State.fetchRecord
  split
  · exact .refl _
  · exact .dayRecord (.refl _)

theorem Frame.recomputeFetch {p : Nat} {f : Fetch} (hF : Frame F s₀ s)
    (hG : Within [.gddr, .plans, .loft] F := by rfl) : Frame F s₀ (s.recomputeFetch p f) := by
  refine hF.goes hG ?_
  unfold State.recomputeFetch
  refine .fetchRecord ?_
  split
  · refine .foldl (.updStep (.refl _) (hf := fun _ => ?_)) fun _ _ => .bump (.refl _)
    split <;> rfl
  · refine .updStep (.refl _) (hf := fun _ => ?_)
    split <;> rfl

theorem Frame.fetchStart {p k : Nat} {sl : Slot} (hF : Frame F s₀ s)
    (hG : Within [.gddr, .plans, .loft] F := by rfl) : Frame F s₀ (s.fetchStart p k sl) := by
  refine hF.goes hG ?_
  unfold State.fetchStart
  split
  · exact .ite (.recomputeFetch (.updStep (.refl _))) (.updStep (.refl _))
  · exact .refl _

theorem Frame.transferStart {p k : Nat} {sl : Slot} (hF : Frame F s₀ s)
    (hG : Within [.plans, .halter] F := by rfl) : Frame F s₀ (s.transferStart p k sl) := by
  refine hF.goes hG ?_
  unfold State.transferStart
  split
  · exact .refl _
  · exact .ite (.semWait (.updStep (.refl _))) (.updStep (.refl _))

theorem Frame.fireSlot {p k : Nat} {sl : Slot} (hF : Frame F s₀ s)
    (hG : Within [.hostMem, .gddr, .scratch, .plans, .halter, .loft, .muster] F := by rfl) :
    Frame F s₀ (s.fireSlot p k sl) := by
  refine hF.goes hG ?_
  unfold State.fireSlot
  split
  · exact .transferStart (.updStep (.refl _))
  · exact .fetchStart (.updStep (.refl _))
  · exact .collOpen (.updStep (.refl _))
  · exact .updStep (.refl _)

theorem Frame.fireSlots {p : Nat} (hF : Frame F s₀ s)
    (hG : Within [.hostMem, .gddr, .scratch, .plans, .halter, .loft, .muster] F := by rfl) :
    Frame F s₀ (s.fireSlots p) := by
  refine hF.goes hG ?_
  unfold State.fireSlots
  split
  · exact .ite (.refl _) (.ite (.stepLink (.updStep (.refl _))) (.foldl (.refl _) fun _ _ => .fireSlot
      (.refl _)))
  · exact .refl _

theorem Frame.slew (hF : Frame F s₀ s) (hG : Within [.yardTime] F := by rfl) : Frame F s₀ s.slew :=
  hF.goes hG (.ite (.refl _) (.ite (.setYt (.setPhase (.refl _))) (.setPhase (.refl _))))

theorem Frame.sendFrames (hF : Frame F s₀ s) (hG : Within [.yardTime] F := by rfl) :
    Frame F s₀ s.sendFrames :=
  hF.goes hG (.ite (.refl _) (.foldl (.withYt (.refl _)) fun _ _ => .ite (.bump64 (.refl _)) (.refl _)))

theorem Frame.yardBeat (hF : Frame F s₀ s)
    (hG : Within [.hostMem, .gddr, .scratch, .plans, .halter, .loft, .yardTime, .muster] F := by rfl) :
    Frame F s₀ (yardBeat s) := by
  refine hF.goes hG ?_
  unfold Machine.yardBeat
  refine .foldl (.sendFrames (.slew ?_)) fun _ _ => .fireSlots (.refl _)
  split
  · refine .ite (.setFld ?_) ?_
    · split
      · exact .withYt (.withYt (.setReg64 (.setHold (.withLoft (.refl _)))))
      · exact .withYt (.withYt (.setReg64 (.withLoft (.refl _))))
    · split
      · exact .withYt (.setReg64 (.setHold (.withLoft (.refl _))))
      · exact .withYt (.setReg64 (.withLoft (.refl _)))
  · split
    · exact .withYt (.setReg64 (.setHold (.withLoft (.refl _))))
    · exact .withYt (.setReg64 (.withLoft (.refl _)))

theorem Frame.timeSet {f : Flight} (hF : Frame F s₀ s) (hG : Within [.descriptors, .yardTime] F := by rfl) :
    Frame F s₀ (timeSet s f) := by
  refine hF.goes hG ?_
  unfold Machine.timeSet
  split
  · refine .finish (.ite ?_ (.ite (.setFld (.withYt (.refl _))) (.refl _)))
    split
    · exact .withYt (.setFld (.withYt (.refl _)))
    · exact .withYt (.refl _)
  · exact .failDesc (.refl _)

theorem Frame.ethFrame {port len : Nat} {fcsOk broken : Bool} (hF : Frame F s₀ s) :
    Frame F s₀ (ethFrame s port len fcsOk broken) :=
  .ite hF (.ite (.bump (.bump hF)) (.ite (.bump (.bump hF)) (.bump hF)))

theorem Frame.roceRequest {port qp kind psn : Nat} (hF : Frame F s₀ s) (hG : Within [.ethernet] F := by rfl)
    : Frame F s₀ (roceRequest s port qp kind psn) :=
  hF.goes hG (.ite (.refl _) (.ite (.bump (.refl _)) (.ite (.bump (.bump (.withEth (.refl _)))) (.ite (.bump
    (.withEth (.withEth (.refl _)))) (.ite (.bump (.withEth (.refl _))) (.bump (.withEth (.refl _))))))))

/-! ### Units and chutes -/

theorem Frame.loseFetch {p slot : Nat} (hF : Frame F s₀ s) (hG : Within [.gddr, .plans, .loft] F := by rfl)
    : Frame F s₀ (s.loseFetch p slot) := by
  refine hF.goes hG ?_
  unfold State.loseFetch
  split
  · split
    · exact .refl _
    · exact .loseRange (.updStep (.fetchRecord (.refl _)))
  · exact .refl _

theorem Frame.channelExit {n : Nat} {retained : Bool} (hF : Frame F s₀ s)
    (hG : Within [.hostMem, .gddr, .scratch, .kv, .gddrs, .loft] F := by rfl) :
    Frame F s₀ (s.channelExit n retained) :=
  hF.goes hG (.foldl (.setFld (.setBitOf (.setFld (.setFld (.ite (.refl _) (.wipeChannel (.foldl (.refl _)
    fun _ _ => .dayLose (.refl _)))))))) fun _ _ => .poisonPool (.refl _))

theorem Frame.setBroken {core port : Nat} (hF : Frame F s₀ s) : Frame F s₀ (s.setBroken core port) :=
  .ite (.setFld hF) hF

theorem Frame.clearPort {f : Field} {core port : Nat} (hF : Frame F s₀ s) :
    Frame F s₀ (s.clearPort f core port) := .ite (.setFld hF) hF

theorem Frame.breakChute {p plan k : Nat} {e : BoundEdge} {c : Nat} (hF : Frame F s₀ s)
    (hG : Within [.chutes] F := by rfl) : Frame F s₀ (s.breakChute p plan k e c) := by
  refine hF.goes hG ?_
  unfold State.breakChute
  extract_lets src dst ch counted new broken sent received marked
  have hbroken : Frame [.chutes] s broken := .withChutes (.ite (.bump (.refl s)) (.refl s))
  have hsent : Frame [.chutes] s sent := .ite (.clearPort hbroken) hbroken
  have hreceived : Frame [.chutes] s received := .ite (.clearPort hsent) hsent
  have hmarked : Frame [.chutes] s marked := .ite hreceived (.setBroken hreceived)
  exact .ite (.refl s) (.ite hmarked (.setBroken hmarked))

theorem Frame.breakChutes {c : Nat} (hF : Frame F s₀ s) (hG : Within [.chutes] F := by rfl) :
    Frame F s₀ (s.breakChutes c) :=
  hF.goes hG (.foldl (.refl _) fun _ _ => .foldl (.refl _) fun _ _ => .breakChute (.refl _))

theorem Frame.dropHalter {c : Nat} (hF : Frame F s₀ s) (hG : Within [.halter] F := by rfl) :
    Frame F s₀ (s.dropHalter c) := hF.goes hG (.withHalter (.refl _))

theorem Frame.clusterReset {c : Nat} (hF : Frame F s₀ s)
    (hG : Within [.gddr, .scratch, .plans, .chutes, .halter, .sequencers, .drovers, .loft] F := by rfl) :
    Frame F s₀ (s.clusterReset c) := by
  refine hF.goes hG ?_
  unfold State.clusterReset
  refine .ite (.refl _) ?_
  dsimp only
  split
  · exact .stepReset (.cancelPf (.dropHalter (.breakChutes (.foldl (.withCores (.foldl (.dropLines
      (.setBitOf (.epochUp (.refl _)))) fun _ _ => .setFld (.setFld (.zeroScratch (.refl _))))) fun _ _ =>
      .setFld (.refl _)))))
  · exact .cancelPf (.dropHalter (.breakChutes (.foldl (.withCores (.foldl (.dropLines (.setBitOf (.epochUp
      (.refl _)))) fun _ _ => .setFld (.setFld (.zeroScratch (.refl _))))) fun _ _ => .setFld (.refl _))))

theorem Frame.clusterExit {c : Nat} (hF : Frame F s₀ s) : Frame F s₀ (s.clusterExit c) := .setBitOf hF

theorem Frame.shedReset {n : Nat} {pages fetches : List (Nat × Nat)} (hF : Frame F s₀ s)
    (hG : Within [.gddr, .shedData, .descriptors, .plans, .shed, .loft] F := by rfl) :
    Frame F s₀ (s.shedReset n pages fetches) :=
  hF.goes hG (.ite (.refl _) (.foldl (.shedLose (.setFld (.setFld (.setBitOf (.epochUp (.refl _))))))
    fun _ _ => .loseFetch (.refl _)))

theorem Frame.dieColls {d : Nat} (hF : Frame F s₀ s)
    (hG : Within [.hostMem, .gddr, .scratch, .plans, .halter, .loft, .muster] F := by rfl) :
    Frame F s₀ (s.dieColls d) := by
  refine hF.goes hG ?_
  unfold State.dieColls
  refine .foldl (.refl _) fun _ _ => .ite ?_ (.refl _)
  split
  · exact .foldl (.refl _) fun _ _ => .collReset (.refl _)
  · exact .refl _

theorem Frame.dieReset {d : Nat} (hF : Frame F s₀ s)
    (hG : Within [.hostMem, .gddr, .scratch, .plans, .chutes, .halter, .sequencers, .drovers, .gddrs, .loft,
        .links, .muster] F := by rfl)
    : Frame F s₀ (s.dieReset d) :=
  hF.goes hG (.ite (.refl _) (.foldl (.foldl (.foldl (.dieColls (.setBitOf (.epochUp (.refl _)))) fun _ _ =>
    .clusterReset (.refl _)) fun _ _ => .channelReset (.refl _)) fun _ _ => .linkRetrain (.refl _)))

theorem Frame.unitReset {kind i : Nat} {pages fetches : List (Nat × Nat)} {lands : List (Nat × Landing)}
    (hF : Frame F s₀ s)
    (hG : Within [.hostMem, .gddr, .scratch, .shedData, .descriptors, .plans, .chutes, .halter, .sequencers,
        .drovers, .shed, .gddrs, .loft, .links, .muster] F := by rfl)
    : Frame F s₀ (s.unitReset kind i pages fetches lands) := by
  refine hF.goes hG ?_
  unfold State.unitReset
  split
  · exact .foldl (.foldl (.dieReset (.refl _)) fun _ _ => .loseFetch (.refl _)) fun _ _ => .land (.refl _)
  · exact .foldl (.clusterReset (.refl _)) fun _ _ => .loseFetch (.refl _)
  · exact .foldl (.channelReset (.refl _)) fun _ _ => .loseFetch (.refl _)
  · exact .shedReset (.refl _)
  · exact .refl _

theorem Frame.unitResetGo {val : Word} {far : Bool} {pages fetches : List (Nat × Nat)}
    {lands : List (Nat × Landing)} (hF : Frame F s₀ s)
    (hG : Within [.hostMem, .gddr, .scratch, .shedData, .descriptors, .plans, .chutes, .halter, .sequencers,
        .drovers, .shed, .gddrs, .loft, .links, .muster, .farrier] F := by rfl)
    : Frame F s₀ (unitResetGo s val far pages fetches lands) :=
  hF.goes hG (.ite (.ite (.refl _) (.farLog (.unitReset (.refl _)))) (.ite (.setFld (.setFld (.refl _)))
    (.ite (.setFld (.setFld (.setFld (.refl _)))) (.unitReset (.setFld (.setFld (.setFld (.refl _))))))))

theorem Frame.unitResetExit {kind i : Nat} {ok retained : Bool} (hF : Frame F s₀ s)
    (hG : Within [.hostMem, .gddr, .scratch, .kv, .gddrs, .loft, .farrier, .board] F := by rfl) :
    Frame F s₀ (unitResetExit s kind i ok retained) := by
  refine hF.goes hG ?_
  unfold Machine.unitResetExit
  refine .ite (.refl _) ?_
  split
  · exact .ite (.refl _) (.ite (.setFld (.setBitOf (.refl _))) (.setBitOf (.refl _)))
  · exact .ite (.ite (.setFld (.clusterExit (.refl _))) (.clusterExit (.refl _))) (.spareOut (.refl _))
  · exact .ite (.refl _) (.ite (.ite (.setFld (.channelExit (.refl _))) (.channelExit (.refl _))) (.spareOut
      (.setFld (.refl _))))
  · exact .ite (.refl _) (.ite (.ite (.setFld (.setBitOf (.setFld (.setFld (.refl _))))) (.setBitOf (.setFld
      (.setFld (.refl _))))) (.spareOut (.refl _)))

/-! ### Clocks and power -/

theorem Frame.setRoot {r : Root} {ref : Nat} (hF : Frame F s₀ s) (hG : Within [.clocks] F := by rfl) :
    Frame F s₀ (s.setRoot r ref) := hF.goes hG (.setFld (.withClk (.refl _)))

theorem Frame.fabricOut (hF : Frame F s₀ s)
    (hG : Within [.hostMem, .gddr, .scratch, .plans, .halter, .gddrs, .loft, .links, .yardTime, .muster] F := by rfl)
    : Frame F s₀ s.fabricOut :=
  hF.goes hG (.noHoldover (.foldl (.foldl (.refl _) fun _ _ => .linkRetrain (.refl _)) fun _ _ =>
    .channelReset (.refl _)))

theorem Frame.fabricIn (hF : Frame F s₀ s) (hG : Within [.links] F := by rfl) : Frame F s₀ s.fabricIn :=
  hF.goes hG (.foldl (.refl _) fun _ _ => .startTrain (.refl _))

theorem Frame.applyClk {val : Word} (hF : Frame F s₀ s)
    (hG : Within [.hostMem, .gddr, .scratch, .plans, .halter, .gddrs, .loft, .links, .yardTime, .muster,
        .clocks] F := by rfl)
    : Frame F s₀ (s.applyClk val) :=
  hF.goes hG (.ite (.ite (.withClk (.setFld (.setReg (.refl _)))) (.fabricOut (.setRoot (.withClk (.setFld
    (.setReg (.refl _))))))) (.ite (.fabricIn (.setFld (.setRoot (.withClk (.setFld (.setReg (.refl _)))))))
    (.setFld (.setRoot (.withClk (.setFld (.setReg (.refl _))))))))

theorem Frame.clkCtrlWrite {val : Word} (hF : Frame F s₀ s)
    (hG : Within [.hostMem, .gddr, .scratch, .plans, .halter, .gddrs, .loft, .links, .yardTime, .muster,
        .clocks] F := by rfl)
    : Frame F s₀ (clkCtrlWrite s val) :=
  hF.goes hG (.ite (.setFld (.refl _)) (.ite (.applyClk (.refl _)) (.withClk (.refl _))))

theorem Frame.clkSscWrite {val : Word} (hF : Frame F s₀ s) (hG : Within [.clocks] F := by rfl) :
    Frame F s₀ (clkSscWrite s val) :=
  hF.goes hG (.ite (.refl _) (.ite (.withClk (.setFld (.refl _))) (.withClk (.setFld (.refl _)))))

theorem Frame.clkBoundsWrite {off : Nat} {val : Word} (hF : Frame F s₀ s) :
    Frame F s₀ (clkBoundsWrite s off val) :=
  .ite (.ite (.setFld hF) (.setFld (.setFld hF))) (.ite (.ite (.setFld hF) (.setFld hF)) hF)

theorem Frame.refReady {xb : Bool} (hF : Frame F s₀ s) : Frame F s₀ (refReady s xb) :=
  .ite hF (.ite (.setFld hF) (.setFld hF))

theorem Frame.refFault {xb : Bool} (hF : Frame F s₀ s) (hG : Within [.yardTime, .clocks] F := by rfl) :
    Frame F s₀ (refFault s xb) :=
  hF.goes hG (.ite (.refl _) (.ite (.ite (.setFld (.refl _)) (.setFld (.refl _))) (.ite (.setFld (.raise
    (.bump (.setFld (.ite (.setFld (.refl _)) (.setFld (.refl _))))))) (.noHoldover (.setRoot (.raise (.bump
    (.setFld (.ite (.setFld (.refl _)) (.setFld (.refl _)))))))))))

theorem Frame.clockBoundary (hF : Frame F s₀ s)
    (hG : Within [.hostMem, .gddr, .scratch, .plans, .halter, .gddrs, .loft, .links, .yardTime, .muster, .clocks] F
      := by rfl) : Frame F s₀ s.clockBoundary := by
  refine hF.goes hG ?_
  unfold State.clockBoundary
  extract_lets clk taken selected released clk'
  have hselected : Frame [.hostMem, .gddr, .scratch, .plans, .halter, .gddrs, .loft, .links, .yardTime, .muster,
      .clocks] s selected := by
    unfold selected
    split
    · exact .ite (.setFld (.withClk (.refl s))) (.applyClk (.withClk (.refl s)))
    · exact .refl s
  have hreleased : Frame [.hostMem, .gddr, .scratch, .plans, .halter, .gddrs, .loft, .links, .yardTime, .muster,
      .clocks] s released := .ite (.fabricOut (.setFld (.setRoot hselected))) hselected
  split
  · exact .withClk hreleased
  · exact hreleased

theorem Frame.lockLoss {b : Bool} (hF : Frame F s₀ s)
    (hG : Within [.hostMem, .gddr, .scratch, .plans, .halter, .gddrs, .loft, .free, .links, .yardTime, .muster,
        .clocks, .farrier] F := by rfl)
    : Frame F s₀ (lockLoss s b) := by
  refine hF.goes hG ?_
  unfold Machine.lockLoss
  refine .ite (.refl _) (.ite (.ite (.spareIn (.setFld (.setFld (.setFld (.refl _))))) (.setFld (.setFld
    (.refl _)))) (.fabricOut (.internalRecord (.farLog (.setRoot ?_)))))
  split <;> exact .withClk (.setFld (.setFld (.refl _)))

theorem Frame.setPoint {d x : Nat} (hF : Frame F s₀ s) : Frame F s₀ (s.setPoint d x) := .setReg hF

theorem Frame.clamp {low : Bool} (hF : Frame F s₀ s) : Frame F s₀ (s.clamp low) := .setFld (.bump hF)

theorem Frame.powerLoop {d watts : Nat} {fail : Bool} (hF : Frame F s₀ s)
    (hG : Within [.clocks] F := by rfl) : Frame F s₀ (s.powerLoop d watts fail) := by
  refine hF.goes hG ?_
  unfold State.powerLoop
  refine .ite (.ite (.clamp ?_) (.ite (.clamp ?_) (.ite ?_ (.ite ?_ (.setPoint ?_))))) (.ite (.ite (.clamp
    ?_) (.ite (.clamp ?_) (.ite ?_ (.ite ?_ (.setPoint ?_))))) ?_)
  · split <;> exact .withClk (.refl _)
  · split <;> exact .withClk (.refl _)
  · split <;> exact .withClk (.refl _)
  · split <;> exact .withClk (.withClk (.refl _))
  · split <;> exact .withClk (.withClk (.refl _))
  · split <;> exact .withClk (.refl _)
  · split <;> exact .withClk (.refl _)
  · split <;> exact .withClk (.refl _)
  · split <;> exact .withClk (.withClk (.refl _))
  · split <;> exact .withClk (.withClk (.refl _))
  · split <;> exact .withClk (.refl _)

theorem Frame.restorePoint {d : Nat} (hF : Frame F s₀ s) (hG : Within [.clocks] F := by rfl) :
    Frame F s₀ (s.restorePoint d) := hF.goes hG (.ite (.setPoint (.withClk (.refl _))) (.refl _))

theorem Frame.emergency {d : Nat} (hF : Frame F s₀ s) (hG : Within [.clocks, .board] F := by rfl) :
    Frame F s₀ (s.emergency d) :=
  hF.goes hG (.ite (.refl _) (.alertCheck (.raise (.bump (.setFld (.setFld (.ite (.setPoint (.withClk
    (.refl _))) (.withClk (.refl _)))))))))

theorem Frame.thermalSample {temps : List Nat} (hF : Frame F s₀ s) (hG : Within Piece.all F := by rfl) :
    Frame F s₀ (thermalSample s temps) := by
  refine hF.goes hG ?_
  unfold Machine.thermalSample
  refine .ite (.refl _) ?_
  dsimp only
  split
  · exact .powerCut (.withClk (.setFld (.setReg (.withClk (.refl _)))))
  · exact .ite (.setFld (.setReg (.withClk (.refl _)))) (.foldl (.setFld (.setReg (.withClk (.refl _))))
      fun _ _ => .emergency (.refl _))

theorem Frame.emergencyEnd {d : Nat} (hF : Frame F s₀ s) (hG : Within [.clocks, .board] F := by rfl) :
    Frame F s₀ (emergencyEnd s d) := by
  refine hF.goes hG ?_
  unfold Machine.emergencyEnd
  refine .ite (.refl _) (.ite (.restorePoint ?_) (.ite (.alertCheck (.setFld (.withClk (.refl _))))
    (.withClk (.refl _))))
  split
  · exact .withClk (.alertCheck (.setFld (.withClk (.refl _))))
  · exact .withClk (.withClk (.refl _))

theorem Frame.vinWarn (hF : Frame F s₀ s) (hG : Within [.board] F := by rfl) : Frame F s₀ s.vinWarn :=
  hF.goes hG (.alertCheck (.raise (.setFld (.refl _))))

theorem Frame.vinSample {v : Nat} (hF : Frame F s₀ s) (hG : Within [.clocks, .board] F := by rfl) :
    Frame F s₀ (vinSample s v) := by
  refine hF.goes hG ?_
  unfold Machine.vinSample
  extract_lets volts low high dipped clk counted
  have hvolts : Frame [.clocks, .board] s volts := .setFld (.refl s)
  have hcounted : Frame [.clocks, .board] s counted := .withClk (.ite (.bump hvolts) hvolts)
  exact .ite (.refl s) (.ite hvolts (.ite (.vinWarn (.withClk hcounted)) (.ite (.vinWarn hcounted) hcounted)))

theorem Frame.vinHoldupEnd (hF : Frame F s₀ s) (hG : Within Piece.all F := by rfl) :
    Frame F s₀ (vinHoldupEnd s) :=
  hF.goes hG (.ite (.refl _) (.setFld (.powerCut (.commitStaged (.refl _)))))

/-! ### Start-up and flash -/

theorem Frame.powerOn (hF : Frame F s₀ s) (hG : Within Piece.all F := by rfl) : Frame F s₀ (powerOn s) :=
  hF.goes hG (.ite (.moduleReset (.refl _)) (.moduleReset (.refl _)))

theorem Frame.setSlot {x : Nat} {f : FlashSlot} (hF : Frame F s₀ s) (hG : Within [.flash] F := by rfl) :
    Frame F s₀ (s.setSlot x f) := hF.goes hG (.ite (.withBoot (.refl _)) (.withBoot (.refl _)))

theorem Frame.romChoice {unread : List Nat} {n : Nat} (hF : Frame F s₀ s)
    (hG : Within [.flash] F := by rfl) : Frame F s₀ (s.romChoice unread n).2 := by
  refine hF.goes hG ?_
  clear hF hG
  induction n generalizing s with
  | zero => exact .refl s
  | succ n ih =>
    unfold State.romChoice
    split
    · dsimp only
      split
      · exact .goes (.setSlot (.setSlot (.refl _))) rfl (ih ..)
      · exact .setSlot (.refl _)
    · dsimp only
      split
      · exact .refl _
      · split
        · exact .goes (.setSlot (.setSlot (.refl _))) rfl (ih ..)
        · exact .setSlot (.refl _)

theorem Frame.romBad (hF : Frame F s₀ s) (hG : Within [.flash] F := by rfl) : Frame F s₀ s.romBad :=
  hF.goes hG (.foldl (.refl _) fun _ _ => .ite (.setSlot (.refl _)) (.refl _))

theorem Frame.refreshOther (hF : Frame F s₀ s) : Frame F s₀ s.refreshOther := .setFld hF

theorem Frame.refreshLog (hF : Frame F s₀ s) : Frame F s₀ s.refreshLog := .setFld hF

theorem Frame.saveClass {cls : Nat} {bad : Bool} (hF : Frame F s₀ s) (hG : Within [.flash] F := by rfl) :
    Frame F s₀ (s.saveClass cls bad) := hF.goes hG (.setSlot (.refl _))

theorem Frame.bootSave {val : Word} {bad : Bool} (hF : Frame F s₀ s) (hG : Within [.flash] F := by rfl) :
    Frame F s₀ (bootSave s val bad) :=
  hF.goes hG (.ite (.refl _) (.refreshLog (.foldl (.refl _) fun _ _ => .ite (.saveClass (.refl _))
    (.refl _))))

theorem Frame.compaction (hF : Frame F s₀ s) (hG : Within [.flash] F := by rfl) :
    Frame F s₀ (compaction s) := hF.goes hG (.ite (.refl _) (.refreshLog (.bump (.setSlot (.refl _)))))

theorem Frame.applySaved {off : Nat} {v : Word} (hF : Frame F s₀ s)
    (hG : Within [.hostMem, .gddr, .scratch, .plans, .halter, .gddrs, .loft, .links, .yardTime, .muster,
        .clocks] F := by rfl)
    : Frame F s₀ (s.applySaved off v) :=
  hF.goes hG (.ite (.clkCtrlWrite (.refl _)) (.ite (.clkSscWrite (.refl _)) (.ite (.clkBoundsWrite
    (.refl _)) (.ite (.ytmCtrlWrite (.refl _)) (.writeRw (.refl _))))))

theorem Frame.applyClass {cls : Nat} (hF : Frame F s₀ s)
    (hG : Within [.hostMem, .gddr, .scratch, .plans, .halter, .gddrs, .loft, .links, .yardTime, .muster,
        .clocks] F := by rfl)
    : Frame F s₀ (s.applyClass cls) := by
  refine hF.goes hG ?_
  unfold State.applyClass
  split
  · exact .refl _
  · exact .foldl (.refl _) fun _ _ => .applySaved (.refl _)

theorem Frame.translate {q : Parsing} (hF : Frame F s₀ s) (hG : Within [.flash] F := by rfl) :
    Frame F s₀ (s.translate q) := by
  refine hF.goes hG ?_
  unfold State.translate
  refine .foldl (.refl _) fun _ _ => ?_
  split
  · exact .refl _
  · exact .setSlot (.refl _)

theorem Frame.startClocks {xa xb : Bool} (hF : Frame F s₀ s) (hG : Within [.clocks] F := by rfl) :
    Frame F s₀ (s.startClocks xa xb) :=
  hF.goes hG (.ite (.setFld (.setRoot (.setFld (.setFld (.setFld (.setFld (.refl _))))))) (.setFld (.setRoot
    (.setFld (.setFld (.setFld (.setFld (.refl _))))))))

theorem Frame.startMemory {chans sheds : List Nat} (hF : Frame F s₀ s)
    (hG : Within [.gddr, .shed, .gddrs, .loft, .links, .farrier, .board] F := by rfl) :
    Frame F s₀ (s.startMemory chans sheds) :=
  hF.goes hG (.foldl (.foldl (.foldl (.refl _) fun _ _ => .ite (.spareOut (.setBitOf (.setFld (.refl _))))
    (.setFld (.setFld (.refl _)))) fun _ _ => .ite (.spareOut (.setBitOf (.withShed (.memEvent (.refl _)))))
    (.setFld (.setFld (.refl _)))) fun _ _ => .startTrain (.refl _))

theorem Frame.boot1 {x : Nat} {xa xb : Bool} {q : Parsing} {chans sheds : List Nat} (hF : Frame F s₀ s)
    (hG : Within Piece.all F := by rfl) : Frame F s₀ (s.boot1 x xa xb q chans sheds) := by
  refine hF.goes hG ?_
  unfold State.boot1
  dsimp only
  split
  · exact .moduleReset (.setFld (.setFld (.setFld (.setSlot (.ite (.startClocks (.refreshOther (.setFld
      (.setFld (.setReg (.setFld (.setFld (.refl _)))))))) (.setFld (.bump (.startClocks (.refreshOther
      (.setFld (.setFld (.setReg (.setFld (.setFld (.refl _)))))))))))))))
  · exact .alertCheck (.ite (.raise (.setFld (.startMemory (.setFld (.foldl (.refreshLog (.translate (.ite
      (.startClocks (.refreshOther (.setFld (.setFld (.setReg (.setFld (.setFld (.refl _)))))))) (.setFld
      (.bump (.startClocks (.refreshOther (.setFld (.setFld (.setReg (.setFld (.setFld (.refl _)))))))))))))
      fun _ _ => .applyClass (.refl _)))))) (.setFld (.startMemory (.setFld (.foldl (.refreshLog (.translate
      (.ite (.startClocks (.refreshOther (.setFld (.setFld (.setReg (.setFld (.setFld (.refl _))))))))
      (.setFld (.bump (.startClocks (.refreshOther (.setFld (.setFld (.setReg (.setFld (.setFld
      (.refl _))))))))))))) fun _ _ => .applyClass (.refl _))))))

theorem Frame.startup {unread : List Nat} {xa xb : Bool} {q : Parsing} {chans sheds : List Nat}
    (hF : Frame F s₀ s) (hG : Within Piece.all F := by rfl) :
    Frame F s₀ (startup s unread xa xb q chans sheds) := by
  refine hF.goes hG ?_
  unfold Machine.startup
  refine .ite (.refl _) ?_
  dsimp only
  split
  · refine .boot1 ?_
    refine .snd (by assumption) ?_
    exact .romChoice (.romBad (.setFld (.setFld (.withPower (.refl _)))))
  · refine .setFld ?_
    refine .snd (by assumption) ?_
    exact .romChoice (.romBad (.setFld (.setFld (.withPower (.refl _)))))

theorem Frame.confirm (hF : Frame F s₀ s) (hG : Within [.flash] F := by rfl) : Frame F s₀ s.confirm :=
  hF.goes hG (.ite (.refl _) (.refreshOther (.setFld (.withBoot (.setFld (.setSlot (.refl _)))))))

theorem Frame.bootCtrlWrite {val : Word} (hF : Frame F s₀ s) (hG : Within Piece.all F := by rfl) :
    Frame F s₀ (bootCtrlWrite s val) :=
  hF.goes hG (.ite (.moduleReset (.ite (.confirm (.refl _)) (.refl _))) (.ite (.confirm (.refl _))
    (.refl _)))

theorem Frame.installStart {val : Word} {sigOk prod : Bool} (hF : Frame F s₀ s)
    (hG : Within [.flash] F := by rfl) : Frame F s₀ (installStart s val sigOk prod) :=
  hF.goes hG (.ite (.refl _) (.ite (.setFld (.refl _)) (.ite (.setFld (.refl _)) (.ite (.setFld (.refl _))
    (.ite (.setFld (.refl _)) (.ite (.setFld (.refl _)) (.refreshOther (.setFld (.withBoot (.setSlot
    (.refl _)))))))))))

theorem Frame.installComplete {ok : Bool} (hF : Frame F s₀ s) (hG : Within [.flash] F := by rfl) :
    Frame F s₀ (installComplete s ok) := by
  refine hF.goes hG ?_
  unfold Machine.installComplete
  split
  · exact .refl _
  · exact .ite (.setFld (.withBoot (.refl _))) (.refreshOther (.setFld (.setSlot (.withBoot (.refl _)))))

/-! ### The board -/

theorem Frame.answer {bs : List Nat} (hF : Frame F s₀ s) : Frame F s₀ (s.answer bs) := .withHost hF

theorem Frame.mbsViol {code value : Nat} (hF : Frame F s₀ s) : Frame F s₀ (s.mbsViol code value) :=
  .raise (.setFld (.ite (.bump hF) (.setFld (.setFld (.bump hF)))))

theorem Frame.smbRead {cmd : Nat} {data : List Nat} {write : Bool} {extra : Nat} (hF : Frame F s₀ s) :
    Frame F s₀ (s.smbRead cmd data write extra) :=
  .ite (.answer hF) (.ite (.mbsViol (.answer hF)) (.ite (.answer hF) (.mbsViol (.answer hF))))

theorem Frame.smbStatusRead {write : Bool} {extra : Nat} {change : Bool} (hF : Frame F s₀ s)
    (hG : Within [.board] F := by rfl) : Frame F s₀ (smbStatusRead s write extra change) :=
  hF.goes hG (.ite (.smbRead (.refl _)) (.withMbs (.smbRead (.refl _))))

theorem Frame.boardCapWrite {v : Nat} {pec : Option Nat} {cut : Option Nat} {hang : Bool}
    (hF : Frame F s₀ s) (hG : Within [.board] F := by rfl) :
    Frame F s₀ (boardCapWrite s v pec cut hang) := by
  refine hF.goes hG ?_
  unfold Machine.boardCapWrite
  refine .ite (.answer (.refl _)) ?_
  split
  · exact .ite (.withMbs (.refl _)) (.mbsViol (.refl _))
  · exact .ite (.mbsViol (.refl _)) (.ite (.mbsViol (.refl _)) (.setFld (.refl _)))

theorem Frame.sclTimeout {cmd : Option Nat} (hF : Frame F s₀ s) (hG : Within [.board] F := by rfl) :
    Frame F s₀ (sclTimeout s cmd) :=
  hF.goes hG (.ite (.refl _) (.mbsViol (.bump (.setFld (.withMbs (.refl _))))))

theorem Frame.nackRetry {ack : Bool} (hF : Frame F s₀ s) (hG : Within [.board] F := by rfl) :
    Frame F s₀ (nackRetry s ack) :=
  hF.goes hG (.ite (.refl _) (.ite (.withMbs (.refl _)) (.ite (.withMbs (.refl _)) (.bump (.withMbs
    (.refl _))))))

theorem Frame.recoverySet {fails : Nat} (hF : Frame F s₀ s) (hG : Within [.board] F := by rfl) :
    Frame F s₀ (s.recoverySet fails) :=
  hF.goes hG (.ite (.alertCheck (.raise (.setFld (.setFld (.setFld (.setFld (.bump (.refl _))))))))
    (.alertCheck (.setFld (.setFld (.bump (.refl _))))))

theorem Frame.mbsCtrlWrite {val : Word} {fails : Nat} (hF : Frame F s₀ s) (hG : Within [.board] F := by rfl)
    : Frame F s₀ (mbsCtrlWrite s val fails) :=
  hF.goes hG (.ite (.recoverySet (.ite (.refl _) (.setFld (.refl _)))) (.ite (.refl _) (.setFld (.refl _))))

theorem Frame.setIr {code : Nat} (hF : Frame F s₀ s) (hG : Within [.board] F := by rfl) :
    Frame F s₀ (s.setIr code) := hF.goes hG (.withMbs (.refl _))

theorem Frame.perstOnly {code : Nat} (hF : Frame F s₀ s) (hG : Within [.board] F := by rfl) :
    Frame F s₀ (s.perstOnly code) := hF.goes hG (.setIr (.refl _))

theorem Frame.jtagBypass {code : Nat} (hF : Frame F s₀ s) (hG : Within [.board] F := by rfl) :
    Frame F s₀ (jtagBypass s code) :=
  hF.goes hG (.ite (.refl _) (.ite (.setIr (.refl _)) (.setIr (.refl _))))

/-! ### GDDR and the LOFT's reads -/

theorem Frame.loftRead {p l mask : Nat} {hint : Option Nat} {step : Bool} (hF : Frame F s₀ s)
    (hG : Within [.plans, .loft] F := by rfl) : Frame F s₀ (loftRead s p l mask hint step) := by
  refine hF.goes hG ?_
  unfold Machine.loftRead
  extract_lets line hurt
  generalize s.homeOf p l = home
  obtain ⟨c, set⟩ := home
  dsimp -zeta only
  extract_lets held hits miss counted hit kept missed want fill
  have hhit : Frame [.plans, .loft] s hit := by
    unfold hit
    split
    · exact .ite (.stepFault (.bump64 (.refl s))) (.bump64 (.refl s))
    · exact .bump64 (.refl s)
  have hkept : Frame [.plans, .loft] s kept := .updLine hhit
  have hmissed : Frame [.plans, .loft] s missed := .bump64 hkept
  refine .ite hkept (.ite (.ite hmissed (.request hmissed)) ?_)
  split
  · exact .waitSet hmissed
  · have hroom := Frame.allocate (by assumption) hmissed
    exact .ite hroom (.request hroom)

theorem Frame.loftServe {p l : Nat} {r : LoftReq} (hF : Frame F s₀ s)
    (hG : Within [.gddr, .plans, .loft] F := by rfl) : Frame F s₀ (loftServe s p l r) := by
  refine hF.goes hG ?_
  unfold Machine.loftServe
  refine .ite (.refl _) (.ite (.ite (.stepReset (.refl _)) (.refl _)) ?_)
  split
  · exact .loftRead (.refl _)
  · exact .foldl (.refl _) fun _ _ => .writeMem (.refl _)

theorem Frame.loftAccess {p l : Nat} {reqs : List LoftReq} {errs : List MemEvent} (hF : Frame F s₀ s)
    (hG : Within [.gddr, .scratch, .plans, .gddrs, .loft, .farrier, .board] F := by rfl) :
    Frame F s₀ (loftAccess s p l reqs errs) :=
  hF.goes hG (.ite (.refl _) (.meeting (.refl _) fun _ => .foldl (.refl _) fun _ _ => .loftServe (.refl _)))

theorem Frame.install {p : Nat} {f : Fill} (hF : Frame F s₀ s) (hG : Within [.loft] F := by rfl) :
    Frame F s₀ (s.install p f) := by
  refine hF.goes hG ?_
  unfold State.install
  refine .updLine (.ite (.ite (.bump (.refl _)) (.refl _)) ?_)
  split
  · refine .allocate (by assumption) ?_
    exact .ite (.bump (.refl _)) (.refl _)
  · exact .waitSet (.ite (.bump (.refl _)) (.refl _))

theorem Frame.pfLanded {line : Nat} (hF : Frame F s₀ s) (hG : Within [.plans] F := by rfl) :
    Frame F s₀ (s.pfLanded line) := hF.goes hG (.ite (.refl _) (.withYard (.refl _)))

theorem Frame.fillLands {p : Nat} {f : Fill} {ce ue : Nat} (hF : Frame F s₀ s)
    (hG : Within [.gddr, .plans, .gddrs, .loft, .farrier, .board] F := by rfl) :
    Frame F s₀ (s.fillLands p f ce ue) :=
  hF.goes hG (.ite (.ite (.bump (.ite (.stepFault (.readSectors (.foldl (.gddrCe (.refl _)) fun _ _ =>
    .gddrUe (.refl _)))) (.readSectors (.foldl (.gddrCe (.refl _)) fun _ _ => .gddrUe (.refl _))))) (.ite
    (.stepFault (.readSectors (.foldl (.gddrCe (.refl _)) fun _ _ => .gddrUe (.refl _)))) (.readSectors
    (.foldl (.gddrCe (.refl _)) fun _ _ => .gddrUe (.refl _))))) (.install (.ite (.stepFault (.readSectors
    (.foldl (.gddrCe (.refl _)) fun _ _ => .gddrUe (.refl _)))) (.readSectors (.foldl (.gddrCe (.refl _))
    fun _ _ => .gddrUe (.refl _))))))

theorem Frame.loftFill {k ce ue retries : Nat} {crcFail : Bool} (hF : Frame F s₀ s)
    (hG : Within [.gddr, .plans, .gddrs, .loft, .farrier, .board] F := by rfl) :
    Frame F s₀ (loftFill s k ce ue retries crcFail) := by
  refine hF.goes hG ?_
  unfold Machine.loftFill
  split
  · exact .refl _
  · exact .ite (.refl _) (.retrySets (.ite (.ite (.pfLanded (.bump (.withLoft (.refl _)))) (.ite (.stepReset
      (.bump (.withLoft (.refl _)))) (.bump (.withLoft (.refl _))))) (.ite (.ite (.pfLanded (.withLoft
      (.refl _))) (.ite (.stepReset (.withLoft (.refl _))) (.withLoft (.refl _)))) (.ite (.ite (.pfLanded
      (.crcRetry (.withLoft (.refl _)))) (.ite (.stepReset (.crcRetry (.withLoft (.refl _)))) (.crcRetry
      (.withLoft (.refl _))))) (.ite (.pfLanded (.fillLands (.crcRetry (.withLoft (.refl _))))) (.fillLands
      (.crcRetry (.withLoft (.refl _)))))))))

theorem Frame.pathAdmit {die : Nat} (hF : Frame F s₀ s) (hG : Within [.loft] F := by rfl) :
    Frame F s₀ (pathAdmit s die) := by
  refine hF.goes hG ?_
  unfold Machine.pathAdmit
  split
  · exact .refl _
  · dsimp only
    split <;> exact .withLoft (.refl _)

theorem Frame.wayFail {c w : Nat} {readable : Bool} (hF : Frame F s₀ s)
    (hG : Within [.gddr, .plans, .loft, .farrier, .board] F := by rfl) :
    Frame F s₀ (wayFail s c w readable) := by
  refine hF.goes hG ?_
  unfold Machine.wayFail
  refine .ite (.refl _) ?_
  dsimp only
  split
  · exact .ite (.loseCluster (.retireWay (.dropLines (.refl _)))) (.retireWay (.dropLines (.refl _)))
  · split
    · exact .dayError (.stepFault (.ite (.loseCluster (.retireWay (.dropLines (.refl _)))) (.retireWay
        (.dropLines (.refl _)))))
    · exact .dayError (.stepFault (.ite (.loseCluster (.retireWay (.dropLines (.refl _)))) (.retireWay
        (.dropLines (.refl _)))))

theorem Frame.scrubSector {chan o l sec : Nat} {err : Option MemError} (hF : Frame F s₀ s)
    (hG : Within [.gddr, .gddrs, .loft, .farrier, .board] F := by rfl) :
    Frame F s₀ (s.scrubSector chan o l sec err) := by
  refine hF.goes hG ?_
  unfold State.scrubSector
  split
  · dsimp only
    split
    · exact .ite (.swapRow (.countEcc (.withLoft (.countGddr (.refl _))))) (.ite (.countEcc (.countGddr
        (.refl _))) (.ite (.gddrCe (.countGddr (.refl _))) (.countGddr (.refl _))))
    · exact .readSectors (.gddrUe (.refl _))
  · dsimp only
    split
    · exact .ite (.swapRow (.countEcc (.withLoft (.countGddr (.refl _))))) (.ite (.countEcc (.countGddr
        (.refl _))) (.ite (.gddrCe (.countGddr (.refl _))) (.countGddr (.refl _))))
    · exact .readSectors (.ite (.refl _) (.gddrCe (.refl _)))
  · dsimp only
    split
    · exact .ite (.swapRow (.countEcc (.withLoft (.countGddr (.refl _))))) (.ite (.countEcc (.countGddr
        (.refl _))) (.ite (.gddrCe (.countGddr (.refl _))) (.countGddr (.refl _))))
    · exact .readSectors (.refl _)

theorem Frame.patrolScrub {chan : Nat} {own : Option (Nat × Nat)} {sec : Nat} {err : Option MemError}
    (hF : Frame F s₀ s) (hG : Within [.gddr, .plans, .gddrs, .loft, .farrier, .board] F := by rfl) :
    Frame F s₀ (patrolScrub s chan own sec err) := by
  refine hF.goes hG ?_
  unfold Machine.patrolScrub
  refine .ite (.refl _) (.ite ?_ ?_)
  · split
    · exact .crcRetry (.refl _)
    · exact .refl _
  · split
    · split
      · exact .countGddr (.crcRetry (.refl _))
      · split
        · exact .bump (.countGddr (.refl _))
        · exact .setFld (.bump (.countGddr (.refl _)))
        · exact .countGddr (.refl _)
    · refine .ite ?_ (.scrubSector ?_)
      · split
        · exact .crcRetry (.refl _)
        · exact .refl _
      · split
        · exact .crcRetry (.refl _)
        · exact .refl _

theorem Frame.tempPoll {chan front back : Nat} {badMr : Bool} (hF : Frame F s₀ s)
    (hG : Within [.gddr, .plans, .gddrs, .loft] F := by rfl) :
    Frame F s₀ (tempPoll s chan front back badMr) := by
  refine hF.goes hG ?_
  unfold Machine.tempPoll
  refine .ite (.refl _) (.ite (.channelReset (.memEvent (.refl _))) ?_)
  dsimp only
  split
  · exact .withGddrs (.setFld (.setFld (.refl _)))
  · split <;> exact .withGddrs (.setFld (.setFld (.refl _)))

theorem Frame.marginStart {val : Word} (hF : Frame F s₀ s) (hG : Within [.gddrs] F := by rfl) :
    Frame F s₀ (marginStart s val) :=
  hF.goes hG (.ite (.setFld (.setFld (.refl _))) (.ite (.setFld (.setFld (.setFld (.refl _)))) (.withGddrs
    (.setFld (.setFld (.setFld (.setFld (.refl _))))))))

theorem Frame.marginDone {n low high : Nat} (hF : Frame F s₀ s) (hG : Within [.gddrs] F := by rfl) :
    Frame F s₀ (marginDone s n low high) :=
  hF.goes hG (.ite (.refl _) (.setFld (.setFld (.setFld (.withGddrs (.refl _))))))

theorem Frame.remapSwitch {chan entry : Nat} {bad : List (Nat × Nat × Nat)} (hF : Frame F s₀ s)
    (hG : Within [.gddr, .gddrs] F := by rfl) : Frame F s₀ (remapSwitch s chan entry bad) := by
  refine hF.goes hG ?_
  unfold Machine.remapSwitch
  split
  · exact .refl _
  · exact .withGddrs (.foldl (.refl _) fun _ _ => .ite (.poisonGddr (.refl _)) (.refl _))

/-! ### The Bell -/

theorem Frame.bellDecide {fn : Nat} (hF : Frame F s₀ s) : Frame F s₀ (bellDecide s fn) := by
  refine hF.goes (G := []) rfl ?_
  unfold Machine.bellDecide
  refine .ite (.refl _) ?_
  split
  · exact .refl _
  · exact .withBell (.refl _)

theorem Frame.bellCommit {fn : Nat} (hF : Frame F s₀ s) (hG : Within [.messages] F := by rfl) :
    Frame F s₀ (bellCommit s fn) := by
  refine hF.goes hG ?_
  unfold Machine.bellCommit
  split
  · exact .refl _
  · exact .ite (.withBell (.refl _)) (.ite (.ite (.bump (.bump (.setBellA (.setBellP (.withMessages
      (.withBell (.refl _))))))) (.bump (.setBellA (.setBellP (.withMessages (.withBell (.refl _)))))))
      (.ite (.withBell (.withBell (.refl _))) (.withBell (.refl _))))

theorem Frame.bellViolation {fn code value : Nat} (hF : Frame F s₀ s) :
    Frame F s₀ (s.bellViolation fn code value) := .setFld (.ite (.bump hF) (.setFld (.setFld (.bump hF))))

theorem Frame.bellComplete {fn src : Nat} (hF : Frame F s₀ s) : Frame F s₀ (bellComplete s fn src) :=
  .ite (.setBellA hF) (.bump hF)

theorem Frame.bellCompleteWord {fn : Nat} {val : Word} (hF : Frame F s₀ s) :
    Frame F s₀ (bellCompleteWord s fn val) := .ite (.bellComplete hF) (.bellViolation hF)

theorem Frame.belCompleteWrite {fn : Nat} {val : Word} (hF : Frame F s₀ s) :
    Frame F s₀ (belCompleteWrite s fn val) := .ite (.bellViolation hF) (.bellCompleteWord hF)

theorem Frame.pendingBit {fn src : Nat} {wrote raised : Bool} (hF : Frame F s₀ s) :
    Frame F s₀ (pendingBit s fn src wrote raised) := .ite (.bellRaise hF) (.ite (.setBellP hF) hF)

theorem Frame.belPendingWrite {fn : Nat} {val raised : Word} (hF : Frame F s₀ s) :
    Frame F s₀ (belPendingWrite s fn val raised) :=
  hF.goes (G := []) rfl (.foldl (.refl _) fun _ _ => .pendingBit (.refl _))

theorem Frame.bellDoorbell {fn : Nat} {val : Word} (hF : Frame F s₀ s) :
    Frame F s₀ (bellDoorbell s fn val) :=
  .ite (.bellViolation hF) (.ite (.bellCompleteWord hF) (.ite (.raise hF) (.bellViolation hF)))

theorem Frame.bellDoorbellWrite {fn page : Nat} {val : Word} (hF : Frame F s₀ s) :
    Frame F s₀ (bellDoorbellWrite s fn page val) := .throughPage hF (.bellDoorbell hF)

theorem Frame.latchRaise (hF : Frame F s₀ s) : Frame F s₀ (latchRaise s) :=
  hF.goes (G := []) rfl (.ite (.refl _) (.foldl (.withBell (.refl _)) fun _ _ => .bellRaise (.bump
    (.refl _))))

theorem Frame.msixTableWrite {fn off : Nat} {val : Word} (hF : Frame F s₀ s) :
    Frame F s₀ (msixTableWrite s fn off val) := by
  refine hF.goes (G := []) rfl ?_
  unfold Machine.msixTableWrite
  refine .ite (.refl _) ?_
  split
  · dsimp only
    split <;> exact .withBell (.refl _)
  · dsimp only
    split <;> exact .withBell (.refl _)
  · dsimp only
    split <;> exact .withBell (.refl _)
  · dsimp only
    split <;> exact .withBell (.refl _)

theorem Frame.msixControlWrite {fn : Nat} {val : Word} (hF : Frame F s₀ s) :
    Frame F s₀ (msixControlWrite s fn val) := .withBell hF

theorem Frame.bellReset {fn : Nat} (hF : Frame F s₀ s) : Frame F s₀ (s.bellReset fn) :=
  .withBell (.dropRegs hF)

/-! ### Nests -/

theorem Frame.updSeq {core : Nat} {f : Seq → Seq} (hF : Frame F s₀ s)
    (hG : Within [.sequencers] F := by rfl) : Frame F s₀ (s.updSeq core f) := by
  refine hF.goes hG ?_
  unfold State.updSeq
  split
  · exact .refl _
  · exact .withSeqs (.refl _)

theorem Frame.seqFault {p core desc code operand level : Nat} (hF : Frame F s₀ s)
    (hG : Within [.plans] F := by rfl) : Frame F s₀ (s.seqFault p core desc code operand level) :=
  hF.goes hG (.stepFault (.bump (.setFld (.ite (.refl _) (.setFld (.setFld (.setFld (.setFld
    (.refl _)))))))))

theorem Frame.nestFault {x : Nest} {code operand level : Nat} (hF : Frame F s₀ s)
    (hG : Within [.plans] F := by rfl) : Frame F s₀ (s.nestFault x code operand level) :=
  hF.goes hG (.seqFault (.refl _))

theorem Frame.nestWords {x : Nest} (hF : Frame F s₀ s) (hG : Within [.plans, .loft] F := by rfl) :
    Frame F s₀ (s.nestWords x).2 := by
  refine hF.goes hG ?_
  unfold State.nestWords
  refine .foldlOn Prod.snd (.refl _) fun _ _ => ?_
  dsimp only
  split
  · exact .refl _
  · exact .ite (.nestFault (.ite (.bump (.tookWord (.refl _))) (.tookWord (.refl _)))) (.ite (.bump
      (.tookWord (.refl _))) (.tookWord (.refl _)))

theorem Frame.commitWalk {x : Nest} {w : Walk} (hF : Frame F s₀ s) (hG : Within [.plans, .loft] F := by rfl)
    : Frame F s₀ (s.commitWalk x w) :=
  hF.goes hG (.foldl (.ite (.ite (.foldr (.refl _) fun _ _ => .tookWord (.refl _)) (.bump64 (.foldr
    (.refl _) fun _ _ => .tookWord (.refl _)))) (.bump (.ite (.foldr (.refl _) fun _ _ => .tookWord
    (.refl _)) (.bump64 (.foldr (.refl _) fun _ _ => .tookWord (.refl _)))))) fun _ _ => .nestFault
    (.refl _))

theorem Frame.setChute {p plan : Nat} {e : Nat × BoundEdge} {c : Chute} (hF : Frame F s₀ s)
    (hG : Within [.chutes] F := by rfl) : Frame F s₀ (s.setChute p plan e c) :=
  hF.goes hG (.ite (.setFld (.setFld (.withChutes (.refl _)))) (.withChutes (.refl _)))

theorem Frame.setRecvWait {core port : Nat} {b : Bool} (hF : Frame F s₀ s) :
    Frame F s₀ (s.setRecvWait core port b) := .setFld hF

/-! ### Flags -/

theorem Frame.orSlot {lo core slot : Nat} {b : Bool} (hF : Frame F s₀ s) :
    Frame F s₀ (s.orSlot lo core slot b) := .ite (.setReg64 hF) hF

theorem Frame.raiseFlags {p core slot : Nat} {f : Flags} (hF : Frame F s₀ s) :
    Frame F s₀ (s.raiseFlags p core slot f) :=
  hF.goes (G := []) rfl (.ite (.foldl (.ite (.setFld (.ite (.setFld (.ite (.setFld (.orSlot (.orSlot
    (.orSlot (.refl _))))) (.orSlot (.orSlot (.orSlot (.refl _)))))) (.ite (.setFld (.orSlot (.orSlot
    (.orSlot (.refl _))))) (.orSlot (.orSlot (.orSlot (.refl _))))))) (.ite (.setFld (.ite (.setFld (.orSlot
    (.orSlot (.orSlot (.refl _))))) (.orSlot (.orSlot (.orSlot (.refl _)))))) (.ite (.setFld (.orSlot
    (.orSlot (.orSlot (.refl _))))) (.orSlot (.orSlot (.orSlot (.refl _))))))) fun _ _ => .setFld (.refl _))
    (.ite (.setFld (.ite (.setFld (.ite (.setFld (.orSlot (.orSlot (.orSlot (.refl _))))) (.orSlot (.orSlot
    (.orSlot (.refl _)))))) (.ite (.setFld (.orSlot (.orSlot (.orSlot (.refl _))))) (.orSlot (.orSlot
    (.orSlot (.refl _))))))) (.ite (.setFld (.ite (.setFld (.orSlot (.orSlot (.orSlot (.refl _))))) (.orSlot
    (.orSlot (.orSlot (.refl _)))))) (.ite (.setFld (.orSlot (.orSlot (.orSlot (.refl _))))) (.orSlot
    (.orSlot (.orSlot (.refl _))))))))

theorem Frame.clearFlags {p : Nat} (hF : Frame F s₀ s) : Frame F s₀ (s.clearFlags p) :=
  hF.goes (G := []) rfl (.foldl (.refl _) fun _ _ => .setFld (.setFld (.setFld (.setFld (.setFld (.setFld
    (.setFld (.setReg64 (.setReg64 (.setReg64 (.refl _)))))))))))

/-! ### Operands -/

theorem Frame.dropReply {p : Nat} {pl : Place} (hF : Frame F s₀ s) : Frame F s₀ (s.dropReply p pl) := by
  refine hF.goes (G := []) rfl ?_
  unfold State.dropReply
  split
  · exact .bump (.refl _)
  · exact .refl _

theorem Frame.readMemOp {x : Nest} {i : Iter} {k : Nat} {o : Operand} {hostFail : List Nat}
    (hF : Frame F s₀ s) (hG : Within [.plans, .loft] F := by rfl) :
    Frame F s₀ (s.readMemOp x i k o hostFail).2 := by
  have hreset : Frame [.plans, .loft] s (s.stepReset x.p) := .stepReset (.refl s)
  have hfault : ∀ c, Frame [.plans, .loft] s (s.nestFault x c k 0) := fun _ => .nestFault (.refl s)
  refine hF.goes hG ?_
  unfold State.readMemOp
  extract_lets addr reset
  split
  · exact hfault _
  · extract_lets failed r n
    refine .iteOn Prod.snd (hfault _) (.iteOn Prod.snd hreset (.iteOn Prod.snd ?_ ?_))
    · exact .stepReset (.dropReply (.refl s))
    · split
      · exact .nestFault (.ite (.readCause (.touch (.refl s))) (.touch (.refl s)))
      · refine .iteOn Prod.snd (hfault _) (.iteOn Prod.snd (hfault _) (.iteOn Prod.snd hreset ?_))
        exact .took (.refl s)

theorem Frame.takeRing {x : Nest} {k : Nat} {o : Operand} {a : Item} (h : s.takeRing x k o = some (a, t))
    (hF : Frame F s₀ s) (hG : Within [.plans, .chutes] F := by rfl) : Frame F s₀ t := by
  refine hF.goes hG ?_
  unfold State.takeRing at h
  split at h
  · cases h
  · dsimp only at h
    split at h
    · split at h
      · cases h
        exact .stepReset (.refl s)
      · cases h
    · split at h
      · cases h
        exact .nestFault (.setChute (.refl s))
      · cases h
        exact .setChute (.refl s)

theorem Frame.fetchOp {x : Nest} {i : Iter} {k : Nat} {o : Operand} {hostFail : List Nat} (hF : Frame F s₀ s)
    (hG : Within [.plans, .chutes, .loft] F := by rfl) : Frame F s₀ (s.fetchOp x i k o hostFail).2 := by
  refine hF.goes hG ?_
  unfold State.fetchOp
  split
  · exact .refl s
  · split
    · exact .getD (.refl s) fun _ _ h => .takeRing h (.refl s)
    · exact .readMemOp (.refl s)

theorem Frame.freeBytes {n : Nat} (hF : Frame F s₀ s) (hG : Within [.free] F := by rfl) :
    Frame F s₀ (s.freeBytes n).2 := by
  refine hF.goes hG ?_
  clear hF hG
  induction n generalizing s with
  | zero => exact .refl s
  | succ n ih =>
    unfold State.freeBytes
    exact .goes (.free (.refl _)) rfl (ih ..)

theorem Frame.sendBale {x : Nest} {k : Nat} {bs : List Byte} {dirty : Bool} (hF : Frame F s₀ s)
    (hG : Within [.chutes] F := by rfl) : Frame F s₀ (s.sendBale x k bs dirty) := by
  refine hF.goes hG ?_
  unfold State.sendBale
  split
  · exact .refl _
  · exact .ite (.ite (.bump (.refl _)) (.refl _)) (.setChute (.refl _))

theorem Frame.putBale {x : Nest} {o : Operand} {h : Held} {b : Bale} {hostFail : List Nat}
    (hF : Frame F s₀ s) (hG : Within [.hostMem, .gddr, .scratch, .plans, .chutes, .loft, .free] F := by rfl)
    : Frame F s₀ (s.putBale x o h b hostFail) := by
  refine hF.goes hG ?_
  unfold State.putBale
  refine .ite (.sendBale (.refl _)) ?_
  dsimp only
  split
  · exact .nestFault (.refl _)
  · exact .ite (.nestFault (.refl _)) (.ite (.stepReset (.refl _)) (.ite (.stepReset (.dropReply (.refl _)))
      (.ite (.nestFault (.writeAt (.freeBytes (.refl _)))) (.writeBale (.refl _)))))

theorem Frame.returnCredits {x : Nest} {k : Nat} {it : Item} (hF : Frame F s₀ s)
    (hG : Within [.chutes] F := by rfl) : Frame F s₀ (s.returnCredits x k it) := by
  refine hF.goes hG ?_
  unfold State.returnCredits
  split
  · exact .refl _
  · exact .ite (.refl _) (.setChute (.refl _))

/-! ### Attention -/

theorem Frame.attnFault {p core desc code : Nat} (hF : Frame F s₀ s) (hG : Within [.plans] F := by rfl) :
    Frame F s₀ (s.attnFault p core desc code) :=
  hF.goes hG (.stepFault (.bump (.setFld (.ite (.refl _) (.setFld (.setFld (.refl _)))))))

theorem Frame.readTables {x : Nest} (hF : Frame F s₀ s) (hG : Within [.plans, .loft] F := by rfl) :
    Frame F s₀ (s.readTables x) := by
  refine hF.goes hG ?_
  unfold State.readTables
  refine .ite (.foldl (.refl _) fun _ _ => ?_) ?_
  · split
    · exact .touch (.refl _)
    · exact .refl _
  · split
    · refine .updStep (.foldl (.refl _) fun _ _ => ?_)
      split
      · exact .touch (.refl _)
      · exact .refl _
    · refine .updStep (.attnFault (.foldl (.refl _) fun _ _ => ?_))
      split
      · exact .touch (.refl _)
      · exact .refl _

/-! ### The optimizer -/

theorem Frame.optFault {p core desc code : Nat} (hF : Frame F s₀ s) (hG : Within [.plans] F := by rfl) :
    Frame F s₀ (s.optFault p core desc code) :=
  hF.goes hG (.stepFault (.setFld (.ite (.refl _) (.setFld (.setFld (.refl _))))))

/-! ### Engines -/

theorem Frame.flushHeld {x : Nest} {h : Held} {nextUse : Nat} {hostFail : List Nat} (hF : Frame F s₀ s)
    (hG : Within [.hostMem, .gddr, .scratch, .plans, .chutes, .sequencers, .loft, .free] F := by rfl) :
    Frame F s₀ (s.flushHeld x h nextUse hostFail) := by
  refine hF.goes hG ?_
  unfold State.flushHeld
  split
  · exact .refl _
  · refine .putBale (.updSeq ?_)
    split
    · exact .ite (.ite (.raiseFlags (.refl _)) (.bump (.raiseFlags (.refl _)))) (.bump (.ite (.raiseFlags
        (.refl _)) (.bump (.raiseFlags (.refl _)))))
    · exact .bump (.ite (.ite (.raiseFlags (.refl _)) (.bump (.raiseFlags (.refl _)))) (.bump (.ite
        (.raiseFlags (.refl _)) (.bump (.raiseFlags (.refl _))))))

/-! ### Loading of plans -/

theorem Frame.placementRecord {p id : Nat} {pl : Plan} (hF : Frame F s₀ s)
    (hG : Within [.gddr, .loft] F := by rfl) : Frame F s₀ (s.placementRecord p id pl) :=
  hF.goes hG (.foldl (.refl _) fun _ _ => .dayRecord (.refl _))

theorem Frame.disarm {p : Nat} (hF : Frame F s₀ s) (hG : Within [.plans] F := by rfl) :
    Frame F s₀ (s.disarm p) := hF.goes hG (.setFld (.setFld (.withYard (.refl _))))

theorem Frame.forgetPlan {p id : Nat} (hF : Frame F s₀ s) (hG : Within [.plans, .chutes] F := by rfl) :
    Frame F s₀ (s.forgetPlan p id) := hF.goes hG (.withYardChutes (.setFld (.bump (.refl _))))

theorem Frame.hideChutes {p : Nat} (hF : Frame F s₀ s) : Frame F s₀ (s.hideChutes p) :=
  hF.goes (G := []) rfl (.foldl (.refl _) fun _ _ => .foldl (.setFld (.setFld (.refl _))) fun _ _ => .setFld
    (.setFld (.setFld (.setFld (.setFld (.refl _))))))

theorem Frame.unloadPlan {p id : Nat} (hF : Frame F s₀ s) (hG : Within [.plans, .chutes] F := by rfl) :
    Frame F s₀ (s.unloadPlan p id) := hF.goes hG (.setFld (.hideChutes (.forgetPlan (.refl _))))

theorem Frame.showChutes {p id : Nat} {pl : Plan} (hF : Frame F s₀ s) :
    Frame F s₀ (s.showChutes p id pl) :=
  hF.goes (G := []) rfl (.foldl (.hideChutes (.refl _)) fun _ _ => .ite (.setFld (.ite (.setFld (.ite (.ite
    (.refl _) (.setFld (.setFld (.setFld (.setFld (.refl _)))))) (.setFld (.setFld (.setFld (.setFld (.ite
    (.refl _) (.setFld (.setFld (.setFld (.setFld (.refl _)))))))))))) (.ite (.ite (.refl _) (.setFld
    (.setFld (.setFld (.setFld (.refl _)))))) (.setFld (.setFld (.setFld (.setFld (.ite (.refl _) (.setFld
    (.setFld (.setFld (.setFld (.refl _))))))))))))) (.ite (.setFld (.ite (.ite (.refl _) (.setFld (.setFld
    (.setFld (.setFld (.refl _)))))) (.setFld (.setFld (.setFld (.setFld (.ite (.refl _) (.setFld (.setFld
    (.setFld (.setFld (.refl _)))))))))))) (.ite (.ite (.refl _) (.setFld (.setFld (.setFld (.setFld
    (.refl _)))))) (.setFld (.setFld (.setFld (.setFld (.ite (.refl _) (.setFld (.setFld (.setFld (.setFld
    (.refl _)))))))))))))

theorem Frame.installPlan {p id : Nat} {pl : Plan} (hF : Frame F s₀ s)
    (hG : Within [.gddr, .plans, .chutes, .loft] F := by rfl) : Frame F s₀ (s.installPlan p id pl) := by
  refine hF.goes hG ?_
  unfold State.installPlan
  refine .placementRecord (.showChutes (.ite (.setReg (.setFld ?_)) (.setFld (.bump (.setReg (.setFld
    ?_))))))
  · split
    · split
      · exact .withYard (.disarm (.forgetPlan (.refl _)))
      · exact .withYard (.forgetPlan (.refl _))
    · exact .withYard (.forgetPlan (.refl _))
  · split
    · split
      · exact .withYard (.disarm (.forgetPlan (.refl _)))
      · exact .withYard (.forgetPlan (.refl _))
    · exact .withYard (.forgetPlan (.refl _))

theorem Frame.loadImage {f : Flight} {img : List Byte} (hF : Frame F s₀ s)
    (hG : Within [.gddr, .descriptors, .plans, .chutes, .loft] F := by rfl) :
    Frame F s₀ (loadImage s f img) := by
  refine hF.goes hG ?_
  unfold Machine.loadImage
  refine .ite (.failDesc (.refl _)) ?_
  split
  · exact .failDesc (.refl _)
  · dsimp only
    split
    · exact .failDesc (.refl _)
    · split
      · exact .finish (.installPlan (.refl _))
      · exact .failDesc (.setFld (.setFld (.refl _)))
      · exact .failDesc (.refl _)

theorem Frame.planLoad {f : Flight} (hF : Frame F s₀ s)
    (hG : Within [.gddr, .descriptors, .plans, .chutes, .loft] F := by rfl) :
    Frame F s₀ (planLoad s f) := by
  refine hF.goes hG ?_
  unfold Machine.planLoad
  split
  · exact .failDesc (.refl _)
  · refine .ite (.finish (.refl _)) ?_
    split
    · exact .refl _
    · exact .ite (.finish (.refl _)) (.ite (.finish (.touch (.updFlight (.refl _)))) (.loadImage (.touch
        (.updFlight (.refl _)))))

/-! ### Sequencers -/

theorem Frame.readStart {core : Nat} (hF : Frame F s₀ s)
    (hG : Within [.plans, .sequencers, .loft] F := by rfl) : Frame F s₀ (s.readStart core) := by
  refine hF.goes hG ?_
  unfold State.readStart
  split
  · exact .refl _
  · exact .ite (.fetchWait (.refl _)) (.readTables (.updSeq (.nestWords (.earlyEnd (.refl _)))))

theorem Frame.beginNest {core : Nat} (hF : Frame F s₀ s)
    (hG : Within [.plans, .sequencers, .loft] F := by rfl) : Frame F s₀ (s.beginNest core) := by
  refine hF.goes hG ?_
  unfold State.beginNest
  split
  · exact .refl _
  · exact .ite (.updSeq (.cancelPf (.refl _))) (.readStart (.updSeq (.cancelPf (.refl _))))

theorem Frame.nestStart {core : Nat} (hF : Frame F s₀ s)
    (hG : Within [.plans, .halter, .sequencers, .loft] F := by rfl) : Frame F s₀ (nestStart s core) := by
  refine hF.goes hG ?_
  unfold Machine.nestStart
  split
  · exact .refl _
  · refine .ite (.refl _) ?_
    split
    · exact .halterSend (.updSeq (.setFld (.setFld (.refl _))))
    · exact .semWait (.updSeq (.setFld (.setFld (.refl _))))
    · exact .ite (.beginNest (.setFld (.bump (.setFld (.setFld (.refl _)))))) (.updSeq (.setFld (.setFld
        (.refl _))))
    · exact .beginNest (.setFld (.setFld (.refl _)))

theorem Frame.beatDelivery (hF : Frame F s₀ s)
    (hG : Within [.plans, .halter, .sequencers, .loft] F := by rfl) : Frame F s₀ (beatDelivery s) := by
  refine hF.goes hG ?_
  unfold Machine.beatDelivery
  refine .foldl (.withHalter (.refl _)) fun _ _ => ?_
  split
  · exact .refl _
  · exact .ite (.beginNest (.refl _)) (.refl _)

theorem Frame.runRecipe {x : Nest} {r : Recipe} (hF : Frame F s₀ s)
    (hG : Within [.plans, .sequencers] F := by rfl) : Frame F s₀ (s.runRecipe x r) := by
  refine hF.goes hG ?_
  unfold State.runRecipe
  split
  · exact .withSequencers (.bump (.refl _))
  · exact .withSequencers (.updStep (.bump (.refl _)))

theorem Frame.receive {x : Nest} {i : Iter} (hF : Frame F s₀ s) : Frame F s₀ (s.receive x i).2 := by
  refine hF.goes (G := []) rfl ?_
  unfold State.receive
  refine .foldl (.refl _) fun _ _ => ?_
  split
  · exact .setRecvWait (.refl _)
  · exact .refl _

theorem Frame.holdIssue {x : Nest} {i : Iter} (hF : Frame F s₀ s)
    (hG : Within [.plans, .sequencers] F := by rfl) : Frame F s₀ (s.holdIssue x i).2 :=
  hF.goes hG (.ite (.updSeq (.fetchWait (.foldl (.receive (.refl _)) fun _ _ => .bump (.refl _))))
    (.fetchWait (.foldl (.receive (.refl _)) fun _ _ => .bump (.refl _))))

theorem Frame.linkLate {core : Nat} (hF : Frame F s₀ s) (hG : Within [.sequencers] F := by rfl) :
    Frame F s₀ (s.linkLate core) := by
  refine hF.goes hG ?_
  unfold State.linkLate
  split
  · exact .refl _
  · exact .updSeq (.bump (.bump (.refl _)))

theorem Frame.settle {x : Nest} {i : Iter} {hs : List Held} {hostFail : List Nat} (hF : Frame F s₀ s)
    (hG : Within [.hostMem, .gddr, .scratch, .plans, .chutes, .sequencers, .loft, .free] F := by rfl) :
    Frame F s₀ (s.settle x i hs hostFail).1 := by
  refine hF.goes hG ?_
  unfold State.settle
  refine .foldlOn Prod.fst (.refl _) fun _ _ => ?_
  split
  · exact .refl _
  · split
    · dsimp only
      split
      · exact .refl _
      · exact .flushHeld (.refl _)
    · dsimp only
      split
      · exact .refl _
      · exact .flushHeld (.refl _)

theorem Frame.flushStale {x : Nest} {i : Iter} {hostFail : List Nat} (hF : Frame F s₀ s)
    (hG : Within [.hostMem, .gddr, .scratch, .plans, .chutes, .sequencers, .loft, .free] F := by rfl) :
    Frame F s₀ (s.flushStale x i hostFail) :=
  hF.goes hG (.updSeq (.foldl (.refl _) fun _ _ => .flushHeld (.refl _)))

theorem Frame.settleRead {x : Nest} {i : Iter} {l : LastRead} (hF : Frame F s₀ s)
    (hG : Within [.chutes] F := by rfl) : Frame F s₀ (s.settleRead x i l).2 := by
  refine hF.goes hG ?_
  unfold State.settleRead
  split
  · split
    · exact .returnCredits (.refl _)
    · exact .refl _
  · exact .refl _

theorem Frame.dropReads {x : Nest} {ls : List LastRead} (hF : Frame F s₀ s)
    (hG : Within [.chutes] F := by rfl) : Frame F s₀ (s.dropReads x ls) := by
  refine hF.goes hG ?_
  unfold State.dropReads
  refine .foldl (.refl _) fun _ _ => ?_
  split
  · exact .ite (.returnCredits (.refl _)) (.refl _)
  · exact .refl _

theorem Frame.setLast {x : Nest} {i : Iter} {new : List LastRead} (hF : Frame F s₀ s)
    (hG : Within [.chutes, .sequencers] F := by rfl) : Frame F s₀ (s.setLast x i new) :=
  hF.goes hG (.updSeq (.foldlOn Prod.snd (.dropReads (.refl _)) fun _ _ => .settleRead (.refl _)))

theorem Frame.stored {x : Nest} {i : Iter} {held : List Held} {hostFail : List Nat} (hF : Frame F s₀ s)
    (hG : Within [.plans, .chutes, .loft] F := by rfl) : Frame F s₀ (s.stored x i held hostFail).2 :=
  hF.goes hG (.foldlOn Prod.snd (.refl _) fun _ _ => .fetchOp (.refl _))

theorem Frame.received {x : Nest} {i : Iter} (hF : Frame F s₀ s)
    (hG : Within [.plans, .chutes, .loft] F := by rfl) : Frame F s₀ (s.received x i).2 :=
  hF.goes hG (.foldlOn Prod.snd (.refl _) fun _ _ => .fetchOp (.refl _))

theorem Frame.skipPair {x : Nest} {i : Iter} {hostFail : List Nat} (hF : Frame F s₀ s)
    (hG : Within [.hostMem, .gddr, .scratch, .plans, .chutes, .sequencers, .loft, .free] F := by rfl) :
    Frame F s₀ (s.skipPair x i hostFail) :=
  hF.goes hG (.ite (.foldl (.receive (.refl _)) fun _ _ => .bump (.refl _)) (.updSeq (.bump64 (.setLast
    (.settle (.stored (.received (.flushStale (.foldl (.receive (.refl _)) fun _ _ => .bump
    (.refl _))))))))))

theorem Frame.voidPair {x : Nest} {i : Iter} {hostFail : List Nat} (hF : Frame F s₀ s)
    (hG : Within [.hostMem, .gddr, .scratch, .plans, .chutes, .sequencers, .loft, .free] F := by rfl) :
    Frame F s₀ (s.voidPair x i hostFail) :=
  hF.goes hG (.ite (.foldl (.refl _) fun _ _ => .bump (.refl _)) (.updSeq (.settle (.flushStale
    (.refl _)))))

theorem Frame.countIssue {x : Nest} {i : Iter} {items fresh : List (Nat × Item)} (hF : Frame F s₀ s) :
    Frame F s₀ (s.countIssue x i items fresh) := by
  refine hF.goes (G := []) rfl ?_
  unfold State.countIssue
  extract_lets side core issued ragged macs nan nans n elems sfu pairs
  have hragged : Frame [] s ragged := .ite (.bump (.bump64 (.refl s))) (.bump64 (.refl s))
  have hmacs : Frame [] s macs := by
    unfold macs
    split
    · exact hragged
    · exact .bump64 hragged
  have hnans : Frame [] s nans := .ite hmacs (.bump hmacs)
  have helems : Frame [] s elems := .ite hnans (.bump64 hnans)
  have hsfu : Frame [] s sfu := by
    unfold sfu
    split
    · exact helems
    · exact .bump64 helems
  have hpairs : Frame [] s pairs := .ite (.bump64 hsfu) hsfu
  split
  · exact hpairs
  · exact .bump hpairs

theorem Frame.iterSignal {x : Nest} (hF : Frame F s₀ s) (hG : Within [.halter, .sequencers] F := by rfl) :
    Frame F s₀ (s.iterSignal x) :=
  hF.goes hG (.ite (.refl _) (.ite (.signal (.refl _)) (.updSeq (.refl _))))

theorem Frame.issued {x : Nest} {i : Iter} {items fresh : List (Nat × Item)} (hF : Frame F s₀ s)
    (hG : Within [.halter, .sequencers] F := by rfl) : Frame F s₀ (s.issued x i items fresh) :=
  hF.goes hG (.updSeq (.iterSignal (.linkLate (.countIssue (.refl _)))))

theorem Frame.fetchReads {x : Nest} {i : Iter} {hostFail : List Nat} (hF : Frame F s₀ s)
    (hG : Within [.plans, .chutes, .loft] F := by rfl) : Frame F s₀ (s.fetchReads x i hostFail).2.2 := by
  refine hF.goes hG ?_
  unfold State.fetchReads
  exact .foldlOn (fun a : List (Nat × Item) × List (Nat × Item) × State => a.2.2) (.refl s) fun _ _ =>
    .fetchOp (.refl _)

theorem Frame.optIssue {c : Calc} (hF : Frame F s₀ s) (hG : Within [.plans] F := by rfl) :
    Frame F s₀ (s.optIssue c).2 := by
  refine hF.goes hG ?_
  unfold State.optIssue
  dsimp only
  split
  · exact .refl _
  · split
    · exact .ite (.updStep (.optFault (.refl _))) (.optFault (.refl _))
    · split
      · exact .ite (.updStep (.refl _)) (.bump64 (.updStep (.refl _)))
      · exact .bump (.ite (.updStep (.refl _)) (.bump64 (.updStep (.refl _))))

theorem Frame.computeIssue {x : Nest} {i : Iter} {hostFail : List Nat} (hF : Frame F s₀ s)
    (hG : Within [.hostMem, .gddr, .scratch, .plans, .chutes, .halter, .sequencers, .loft, .free] F := by rfl) :
    Frame F s₀ (s.computeIssue x i hostFail) := by
  refine hF.goes hG ?_
  unfold State.computeIssue
  extract_lets a held
  have hr : Frame [.hostMem, .gddr, .scratch, .plans, .chutes, .halter, .sequencers, .loft, .free] s
      (a.fetchReads x i hostFail).2.2 := .fetchReads (.flushStale (.refl s))
  generalize a.fetchReads x i hostFail = r at hr ⊢
  obtain ⟨items, fresh, b⟩ := r
  have ho : Frame [.hostMem, .gddr, .scratch, .plans, .chutes, .halter, .sequencers, .loft, .free] s
      (b.stored x i held hostFail).2 := .stored hr
  dsimp -zeta only
  generalize b.stored x i held hostFail = o at ho ⊢
  obtain ⟨old, c⟩ := o
  dsimp -zeta only
  extract_lets fed e
  have hc : Frame [.hostMem, .gddr, .scratch, .plans, .chutes, .halter, .sequencers, .loft, .free] s
      (if x.n.kind = 8 then c.optIssue e else (e.run false, c)).2 := .iteOn Prod.snd (.optIssue ho) ho
  exact .issued (.updSeq (.setLast (.settle (.ite hc (.bump hc)))))

theorem Frame.tookStreamWord {x : Nest} {i : Iter} (hF : Frame F s₀ s) (hG : Within [.loft] F := by rfl) :
    Frame F s₀ (s.tookStreamWord x i) := hF.goes hG (.tookWord (.refl _))

theorem Frame.kvAct {x : Nest} {i : Iter} {items : List (Nat × Item)} (hF : Frame F s₀ s)
    (hG : Within [.hostMem, .gddr, .scratch, .plans, .kv, .loft, .free] F := by rfl) :
    Frame F s₀ (s.kvAct x i items).2 := by
  refine hF.goes hG ?_
  unfold State.kvAct
  split
  · exact .kvFault (.free (.refl _))
  · split
    · dsimp only
      split
      · exact .kvFault (.tookStreamWord (.refl _))
      · exact .kvCommit (.tookStreamWord (.refl _))
    · split
      · dsimp only
        split
        · exact .kvFault (.tookStreamWord (.refl _))
        · exact .kvAppend (.stepCause (.tookStreamWord (.refl _)))
      · dsimp only
        split
        · exact .kvFault (.tookStreamWord (.refl _))
        · exact .kvAppend (.tookStreamWord (.refl _))

theorem Frame.kvIssue {x : Nest} {i : Iter} {hostFail : List Nat} (hF : Frame F s₀ s)
    (hG : Within [.hostMem, .gddr, .scratch, .plans, .kv, .chutes, .halter, .sequencers, .loft, .free] F := by rfl)
    : Frame F s₀ (s.kvIssue x i hostFail) := by
  refine hF.goes hG ?_
  unfold State.kvIssue
  refine .ite (.refl _) ?_
  split
  · split
    · split
      · refine .issued (.setLast ?_)
        refine .snd (by assumption) ?_
        split
        · refine .snd₂ (by assumption) ?_
          exact .fetchReads (.refl _)
        · refine .kvAct ?_
          refine .snd₂ (by assumption) ?_
          exact .fetchReads (.refl _)
      · exact .kvAct (.refl _)
      · exact .updSeq (.kvAct (.refl _))

theorem Frame.pipeSend {x : Nest} {i : Iter} {hostFail : List Nat} (hF : Frame F s₀ s)
    (hG : Within [.plans, .chutes, .halter, .sequencers, .loft] F := by rfl) :
    Frame F s₀ (s.pipeSend x i hostFail) := by
  refine hF.goes hG ?_
  unfold State.pipeSend
  refine .issued (.setLast ?_)
  split
  · exact .updStep (.ite (.stepCause (.fetchReads (.refl _))) (.fetchReads (.refl _)))
  · exact .fetchReads (.refl _)

theorem Frame.pipeRecv {x : Nest} {i : Iter} {b : PipeBuf} {hostFail : List Nat} (hF : Frame F s₀ s)
    (hG : Within [.hostMem, .gddr, .scratch, .plans, .chutes, .halter, .sequencers, .loft, .free] F := by rfl)
    : Frame F s₀ (s.pipeRecv x i b hostFail) := by
  refine hF.goes hG ?_
  unfold State.pipeRecv
  split
  · exact .refl _
  · exact .issued (.ite (.ite (.ite (.refl _) (.optFault (.refl _))) (.putBale (.ite (.refl _) (.optFault
      (.refl _))))) (.landWaiting (.updStep (.ite (.ite (.refl _) (.optFault (.refl _))) (.putBale (.ite
      (.refl _) (.optFault (.refl _))))))))

theorem Frame.issue {x : Nest} {i : Iter} {hostFail : List Nat} (hF : Frame F s₀ s)
    (hG : Within [.hostMem, .gddr, .scratch, .plans, .kv, .chutes, .halter, .sequencers, .loft, .free] F := by rfl)
    : Frame F s₀ (s.issue x i hostFail) := by
  refine hF.goes hG ?_
  unfold State.issue
  split
  · exact .kvIssue (.refl _)
  · exact .kvIssue (.refl _)
  · exact .pipeSend (.refl _)
  · split
    · exact .pipeRecv (.refl _)
    · exact .refl _
  · exact .computeIssue (.refl _)

theorem Frame.candidate {x : Nest} (hF : Frame F s₀ s)
    (hG : Within [.plans, .sequencers, .loft] F := by rfl) : Frame F s₀ (s.candidate x) :=
  hF.goes hG (.ite (.refl _) (.ite (.updSeq (.commitWalk (.refl _))) (.refl _)))

theorem Frame.tryIssue {x : Nest} {hostFail : List Nat} (hF : Frame F s₀ s)
    (hG : Within [.hostMem, .gddr, .scratch, .plans, .kv, .chutes, .halter, .sequencers, .loft, .free] F := by rfl)
    : Frame F s₀ (s.tryIssue x hostFail) := by
  refine hF.goes hG ?_
  unfold State.tryIssue
  split
  · dsimp only
    split
    · exact .runRecipe (.refl _)
    · split
      · exact .receive (.refl _)
      · exact .ite (.voidPair (.refl _)) (.ite (.skipPair (.refl _)) (.semWait (.updSeq (.refl _))))
  · dsimp only
    split
    · exact .runRecipe (.refl _)
    · split
      · exact .receive (.refl _)
      · exact .ite (.voidPair (.refl _)) (.ite (.skipPair (.refl _)) (.ite (.holdIssue (.refl _)) (.issue
          (.holdIssue (.refl _)))))

theorem Frame.iterationIssue {core : Nat} {hostFail : List Nat} (hF : Frame F s₀ s)
    (hG : Within [.hostMem, .gddr, .scratch, .plans, .kv, .chutes, .halter, .sequencers, .loft, .free] F := by rfl)
    : Frame F s₀ (iterationIssue s core hostFail) := by
  refine hF.goes hG ?_
  unfold Machine.iterationIssue
  split
  · exact .refl _
  · refine .ite (.refl _) ?_
    split
    · dsimp only
      split
      · exact .readStart (.refl _)
      · refine .ite (.readStart (.refl _)) (.ite (.fetchWait (.readStart (.refl _))) ?_)
        split
        · exact .candidate (.readStart (.refl _))
        · exact .ite (.tryIssue (.candidate (.readStart (.refl _)))) (.candidate (.readStart (.refl _)))
    · dsimp only
      split
      · exact .refl _
      · refine .ite (.refl _) (.ite (.fetchWait (.refl _)) ?_)
        split
        · exact .candidate (.refl _)
        · exact .ite (.tryIssue (.candidate (.refl _))) (.candidate (.refl _))

theorem Frame.nextDesc {x : Nest} (hF : Frame F s₀ s) (hG : Within [.sequencers] F := by rfl) :
    Frame F s₀ (s.nextDesc x) := by
  refine hF.goes hG ?_
  unfold State.nextDesc
  refine .ite (.setFld (.setFld (.updSeq (.refl _)))) ?_
  split
  · exact .setFld (.withSequencers (.refl _))
  · exact .setFld (.setFld (.updSeq (.refl _)))

theorem Frame.post {x : Nest} (hF : Frame F s₀ s) (hG : Within [.halter] F := by rfl) :
    Frame F s₀ (s.post x) := by
  refine hF.goes hG ?_
  unfold State.post
  split
  · exact .halterSend (.refl _)
  · exact .signal (.refl _)
  · exact .refl _

theorem Frame.endNest {x : Nest} {hostFail : List Nat} (hF : Frame F s₀ s)
    (hG : Within [.hostMem, .gddr, .scratch, .plans, .chutes, .halter, .sequencers, .loft, .free] F := by rfl)
    : Frame F s₀ (s.endNest x hostFail) :=
  hF.goes hG (.ite (.foldl (.refl _) fun _ _ => .bump (.refl _)) (.ite (.updSeq (.dropReads (.foldl
    (.refl _) fun _ _ => .flushHeld (.refl _)))) (.nextDesc (.post (.ite (.ite (.updSeq (.dropReads (.foldl
    (.refl _) fun _ _ => .flushHeld (.refl _)))) (.commitWalk (.updSeq (.dropReads (.foldl (.refl _)
    fun _ _ => .flushHeld (.refl _)))))) (.bump (.ite (.updSeq (.dropReads (.foldl (.refl _) fun _ _ =>
    .flushHeld (.refl _)))) (.commitWalk (.updSeq (.dropReads (.foldl (.refl _) fun _ _ => .flushHeld
    (.refl _))))))))))))

theorem Frame.nestPost {core : Nat} {hostFail : List Nat} (hF : Frame F s₀ s)
    (hG : Within [.hostMem, .gddr, .scratch, .plans, .chutes, .halter, .sequencers, .loft, .free] F := by rfl)
    : Frame F s₀ (nestPost s core hostFail) := by
  refine hF.goes hG ?_
  unfold Machine.nestPost
  split
  · exact .refl _
  · refine .ite (.refl _) (.ite (.endNest (.refl _)) ?_)
    split
    · dsimp only
      split
      · exact .readStart (.refl _)
      · exact .ite (.readStart (.refl _)) (.endNest (.readStart (.refl _)))
    · dsimp only
      split
      · exact .refl _
      · exact .ite (.refl _) (.endNest (.refl _))

/-! ### The Halter -/

theorem Frame.chuteSend {p plan k : Nat} (hF : Frame F s₀ s) (hG : Within [.chutes] F := by rfl) :
    Frame F s₀ (chuteSend s p plan k) := by
  refine hF.goes hG ?_
  unfold Machine.chuteSend
  split
  · exact .refl _
  · split
    · dsimp only
      split
      · exact .refl _
      · exact .ite (.refl _) (.bump (.setChute (.refl _)))
    · dsimp only
      split
      · exact .refl _
      · exact .ite (.refl _) (.setChute (.refl _))

theorem Frame.chuteLand {p plan k ce ue : Nat} (hF : Frame F s₀ s)
    (hG : Within [.plans, .chutes] F := by rfl) : Frame F s₀ (chuteLand s p plan k ce ue) := by
  refine hF.goes hG ?_
  unfold Machine.chuteLand
  split
  · exact .refl _
  · extract_lets c
    split
    · exact .refl _
    · extract_lets it landed ready counted corrected arrived
      have hcounted : Frame [.plans, .chutes] s counted := .bump (.setRecvWait (.setChute (.refl s)))
      have hcorrected : Frame [.plans, .chutes] s corrected := .ite hcounted (.bump hcounted)
      have harrived : Frame [.plans, .chutes] s arrived :=
        .ite (.ite hcorrected (.bump hcorrected)) (.setChute (.refl s))
      exact .ite harrived (.stepFault harrived)

theorem Frame.creditReturn {p plan k : Nat} (hF : Frame F s₀ s) (hG : Within [.chutes] F := by rfl) :
    Frame F s₀ (creditReturn s p plan k) := by
  refine hF.goes hG ?_
  unfold Machine.creditReturn
  split
  · exact .refl _
  · dsimp only
    split
    · exact .refl _
    · exact .setChute (.refl _)

theorem Frame.setSem {k : Nat} {x : Sem} (hF : Frame F s₀ s) (hG : Within [.halter] F := by rfl) :
    Frame F s₀ (s.setSem k x) := hF.goes hG (.withHalter (.refl _))

theorem Frame.setBar {k : Nat} {x : Bar} (hF : Frame F s₀ s) (hG : Within [.halter] F := by rfl) :
    Frame F s₀ (s.setBar k x) := hF.goes hG (.withHalter (.refl _))

theorem Frame.release {p : Nat} {w : Waiter} (hF : Frame F s₀ s) (hG : Within [.halter] F := by rfl) :
    Frame F s₀ (s.release p w) := hF.goes hG (.withHalter (.refl _))

theorem Frame.latMax {c cc : Nat} (hF : Frame F s₀ s) : Frame F s₀ (s.latMax c cc) := .setFld hF

theorem Frame.serveSem {k : Nat} {x : Sem} (hF : Frame F s₀ s) (hG : Within [.halter] F := by rfl) :
    Frame F s₀ (s.serveSem k x) := hF.goes hG (.foldl (.setSem (.refl _)) fun _ _ => .release (.refl _))

theorem Frame.semSignal {p id n cc : Nat} (hF : Frame F s₀ s) (hG : Within [.plans, .halter] F := by rfl) :
    Frame F s₀ (s.semSignal p id n cc) := by
  refine hF.goes hG ?_
  unfold State.semSignal
  split
  · exact .stepReset (.refl _)
  · exact .serveSem (.ite (.stepFault (.bump (.setFld (.latMax (.refl _))))) (.latMax (.refl _)))

theorem Frame.semQueue {p id : Nat} {w : Waiter} {n cc : Nat} (hF : Frame F s₀ s)
    (hG : Within [.plans, .halter] F := by rfl) : Frame F s₀ (s.semQueue p id w n cc) := by
  refine hF.goes hG ?_
  unfold State.semQueue
  split
  · exact .release (.stepReset (.refl _))
  · exact .serveSem (.latMax (.refl _))

theorem Frame.barArrive {p id cc : Nat} (hF : Frame F s₀ s) (hG : Within [.plans, .halter] F := by rfl) :
    Frame F s₀ (s.barArrive p id cc) := by
  refine hF.goes hG ?_
  unfold State.barArrive
  split
  · exact .stepReset (.refl _)
  · exact .ite (.setBar (.latMax (.refl _))) (.foldl (.setBar (.latMax (.refl _))) fun _ _ => .release
      (.refl _))

theorem Frame.barQueue {p id core n cc : Nat} (hF : Frame F s₀ s)
    (hG : Within [.plans, .halter] F := by rfl) : Frame F s₀ (s.barQueue p id core n cc) := by
  refine hF.goes hG ?_
  unfold State.barQueue
  split
  · exact .release (.stepReset (.refl _))
  · exact .ite (.release (.latMax (.refl _))) (.setBar (.latMax (.refl _)))

theorem Frame.halterTake {ks : List Nat} (hF : Frame F s₀ s) (hG : Within [.halter] F := by rfl) :
    Frame F s₀ (s.halterTake ks) := hF.goes hG (.withHalter (.refl _))

theorem Frame.halterArrive {p k cc : Nat} (hF : Frame F s₀ s) (hG : Within [.plans, .halter] F := by rfl) :
    Frame F s₀ (halterArrive s p k cc) := by
  refine hF.goes hG ?_
  unfold Machine.halterArrive
  split
  · exact .barArrive (.halterTake (.refl _))
  · exact .refl _

theorem Frame.halterSignal {p k cc : Nat} (hF : Frame F s₀ s) (hG : Within [.plans, .halter] F := by rfl) :
    Frame F s₀ (halterSignal s p k cc) := by
  refine hF.goes hG ?_
  unfold Machine.halterSignal
  split
  · exact .semSignal (.halterTake (.refl _))
  · exact .refl _

theorem Frame.markLate {w : Waiter} (hF : Frame F s₀ s) (hG : Within [.sequencers] F := by rfl) :
    Frame F s₀ (s.markLate w) := by
  refine hF.goes hG ?_
  unfold State.markLate
  split
  · split
    · exact .ite (.updSeq (.refl _)) (.refl _)
    · exact .refl _
  · exact .refl _

theorem Frame.halterApply {p cc : Nat} {m : HalterMsg} (hF : Frame F s₀ s)
    (hG : Within [.plans, .halter, .sequencers] F := by rfl) : Frame F s₀ (s.halterApply p cc m) := by
  refine hF.goes hG ?_
  unfold State.halterApply
  split
  · exact .barArrive (.refl _)
  · exact .semSignal (.refl _)
  · exact .barQueue (.refl _)
  · exact .markLate (.semQueue (.refl _))

theorem Frame.halterWait {p : Nat} {ks : List Nat} {cc : Nat} (hF : Frame F s₀ s)
    (hG : Within [.plans, .halter, .sequencers] F := by rfl) : Frame F s₀ (halterWait s p ks cc) :=
  hF.goes hG (.ite (.refl _) (.foldl (.halterTake (.refl _)) fun _ _ => .halterApply (.refl _)))

theorem Frame.wakeWaiter {p : Nat} {w : Waiter} (hF : Frame F s₀ s)
    (hG : Within [.plans, .sequencers, .drovers, .loft] F := by rfl) : Frame F s₀ (s.wakeWaiter p w) := by
  refine hF.goes hG ?_
  unfold State.wakeWaiter
  split
  · exact .ite (.beginNest (.linkLate (.refl _))) (.refl _)
  · exact .ite (.updSeq (.refl _)) (.refl _)
  · exact .withDrovers (.refl _)
  · exact .updStep (.refl _)
  · exact .collReady (.refl _)

theorem Frame.halterRelease {k cc : Nat} (hF : Frame F s₀ s)
    (hG : Within [.plans, .halter, .sequencers, .drovers, .loft] F := by rfl) :
    Frame F s₀ (halterRelease s k cc) := by
  refine hF.goes hG ?_
  unfold Machine.halterRelease
  split
  · exact .refl _
  · refine .ite (.refl _) (.wakeWaiter ?_)
    split
    · exact .latMax (.withHalter (.refl _))
    · exact .withHalter (.refl _)

theorem Frame.feed {x : Nest} (hF : Frame F s₀ s) (hG : Within [.chutes] F := by rfl) :
    Frame F s₀ (s.feed x) := by
  refine hF.goes hG ?_
  unfold State.feed
  refine .ite (.foldl (.refl _) fun _ _ => ?_) (.refl _)
  split
  · exact .ite (.setChute (.refl _)) (.refl _)
  · exact .refl _

theorem Frame.feedDrover {d : Drove} (hF : Frame F s₀ s) (hG : Within [.chutes] F := by rfl) :
    Frame F s₀ (s.feedDrover d) := by
  refine hF.goes hG ?_
  unfold State.feedDrover
  split
  · exact .refl _
  · split
    · exact .ite (.setChute (.refl _)) (.refl _)
    · exact .refl _

theorem Frame.endWaits {c : Nat} (hF : Frame F s₀ s) (hG : Within [.halter] F := by rfl) :
    Frame F s₀ (s.endWaits c) :=
  hF.goes hG (.foldl (.foldl (.foldl (.withHalter (.refl _)) fun _ _ => .release (.refl _)) fun _ _ => .ite
    (.refl _) (.serveSem (.foldl (.refl _) fun _ _ => .release (.refl _)))) fun _ _ => .ite (.refl _)
    (.setBar (.foldl (.refl _) fun _ _ => .release (.refl _))))

theorem Frame.watchdogFire {c : Nat} (hF : Frame F s₀ s)
    (hG : Within [.plans, .chutes, .halter] F := by rfl) : Frame F s₀ (watchdogFire s c) := by
  refine hF.goes hG ?_
  unfold Machine.watchdogFire
  refine .ite (.refl _) ?_
  dsimp only
  split
  · exact .stepFault (.endWaits (.foldl (.foldl (.bump (.setFld (.refl _))) fun _ _ => .feed (.refl _))
      fun _ _ => .feedDrover (.refl _)))
  · exact .endWaits (.foldl (.foldl (.bump (.setFld (.refl _))) fun _ _ => .feed (.refl _)) fun _ _ =>
      .feedDrover (.refl _))

/-! ### Service -/

theorem Frame.partDue {k score : Nat} (hF : Frame F s₀ s)
    (hG : Within [.gddr, .loft, .farrier, .board] F := by rfl) : Frame F s₀ (s.partDue k score) :=
  hF.goes hG (.ite (.refl _) (.ite (.farLog (.setFld (.withFar (.refl _)))) (.alertCheck (.setFld (.setFld
    (.setFld (.farLog (.setFld (.withFar (.refl _))))))))))

theorem Frame.farrierHourly (hF : Frame F s₀ s) (hG : Within [.gddr, .loft, .farrier, .board] F := by rfl) :
    Frame F s₀ (farrierHourly s) :=
  hF.goes hG (.ite (.refl _) (.withFar (.foldl (.refl _) fun _ _ => .ite (.partDue (.withFar (.refl _)))
    (.withFar (.refl _)))))

theorem Frame.farApply {val : Word} (hF : Frame F s₀ s)
    (hG : Within [.gddr, .scratch, .gddrs, .loft, .links, .farrier, .board] F := by rfl) :
    Frame F s₀ (farApply s val) := hF.goes hG (.ite (.spareSwaps (.withFar (.refl _))) (.refl _))

theorem Frame.coreFail {core : Nat} (hF : Frame F s₀ s)
    (hG : Within [.gddr, .scratch, .plans, .chutes, .halter, .sequencers, .drovers, .loft, .farrier, .board] F :=
        by rfl)
    : Frame F s₀ (coreFail s core) :=
  hF.goes hG (.ite (.loseCluster (.spareOut (.clearPart (.refl _)))) (.swapCore (.clusterReset (.clearPart
    (.refl _)))))

theorem Frame.mgmtFail {n : Nat} {ps : List Nat} (hF : Frame F s₀ s)
    (hG : Within [.gddr, .loft, .free, .farrier, .board] F := by rfl) : Frame F s₀ (mgmtFail s n ps) :=
  hF.goes hG (.ite (.spareIn (.setFld (.refl _))) (.internalRecord (.farLog (.spareOut (.withFar
    (.refl _))))))

theorem Frame.partFailure {kind n : Nat} {ps : List Nat} (hF : Frame F s₀ s)
    (hG : Within [.hostMem, .gddr, .scratch, .plans, .chutes, .halter, .sequencers, .drovers, .gddrs, .loft,
        .free, .links, .yardTime, .muster, .clocks, .farrier, .board] F := by rfl)
    : Frame F s₀ (partFailure s kind n ps) := by
  refine hF.goes hG ?_
  unfold Machine.partFailure
  refine .ite (.refl _) ?_
  split
  · exact .ite (.coreFail (.refl _)) (.refl _)
  · exact .ite (.wayFail (.refl _)) (.refl _)
  · exact .ite (.laneFail (.refl _)) (.refl _)
  · exact .ite (.swapRow (.refl _)) (.refl _)
  · exact .ite (.retireBlock (.refl _)) (.refl _)
  · exact .ite (.lockLoss (.refl _)) (.refl _)
  · exact .ite (.mgmtFail (.refl _)) (.refl _)
  · exact .refl _

theorem Frame.dayCtrlWrite {fn : Nat} {val : Word} (hF : Frame F s₀ s) :
    Frame F s₀ (dayCtrlWrite s fn val) :=
  .ite (.setFld (.setFld hF)) (.ite hF (.ite (.setFld hF) (.setFld (.setFld (.setReg64 (.setReg64 hF))))))

theorem Frame.replayArm {f : Flight} (hF : Frame F s₀ s) (hG : Within [.descriptors, .plans] F := by rfl) :
    Frame F s₀ (replayArm s f) := by
  refine hF.goes hG ?_
  unfold Machine.replayArm
  split
  · exact .failDesc (.refl _)
  · split
    · dsimp only
      split
      · exact .failDesc (.refl _)
      · exact .finish (.refl _)
    · dsimp only
      split
      · exact .failDesc (.refl _)
      · exact .finish (.setFld (.setFld (.setFld (.withYard (.refl _)))))

/-! ### Steps -/

theorem Frame.abandonMigrations {p : Nat} (hF : Frame F s₀ s) (hG : Within [.gddr, .loft] F := by rfl) :
    Frame F s₀ (s.abandonMigrations p) :=
  hF.goes hG (.foldl (.refl _) fun _ _ => .dayRecord (.bump (.refl _)))

theorem Frame.schedule {f : Flight} {pl : Plan} {args : List (Nat × Nat)} (hF : Frame F s₀ s)
    (hG : Within [.gddr, .descriptors, .plans, .loft, .runs] F := by rfl) :
    Frame F s₀ (s.schedule f pl args) := by
  refine hF.goes hG ?_
  unfold State.schedule
  dsimp only
  split
  · split <;> exact .withSteps (.abandonMigrations (.updFlight (.refl _)))
  · exact .withSteps (.abandonMigrations (.updFlight (.refl _)))

theorem Frame.planRun {f : Flight} (hF : Frame F s₀ s)
    (hG : Within [.gddr, .descriptors, .plans, .loft, .runs] F := by rfl) : Frame F s₀ (planRun s f) := by
  refine hF.goes hG ?_
  unfold Machine.planRun
  split
  · exact .failDesc (.refl _)
  · exact .failDesc (.refl _)
  · refine .ite ?_ ?_
    · dsimp only
      split
      · exact .schedule (.refl _)
      · exact .failDesc (.refl _)
    · split
      · exact .refl _
      · refine .ite (.finish (.refl _)) (.ite (.finish (.touch (.refl _))) ?_)
        dsimp only
        split
        · exact .schedule (.touch (.refl _))
        · exact .failDesc (.touch (.refl _))

theorem Frame.setHalter {pl : Plan} (hF : Frame F s₀ s) (hG : Within [.halter] F := by rfl) :
    Frame F s₀ (s.setHalter pl) :=
  hF.goes hG (.foldl (.foldl (.refl _) fun _ _ => .ite (.refl _) (.setSem (.refl _))) fun _ _ => .ite
    (.refl _) (.setBar (.refl _)))

theorem Frame.setUcode {p : Nat} {pl : Plan} (hF : Frame F s₀ s) (hG : Within [.plans] F := by rfl) :
    Frame F s₀ (s.setUcode p pl) :=
  hF.goes hG (.foldl (.ite (.foldl (.refl _) fun _ _ => .ite (.refl _) (.withYard (.refl _))) (.refl _))
    fun _ _ => .setFld (.refl _))

theorem Frame.mendChutes {p id : Nat} {pl : Plan} (hF : Frame F s₀ s) (hG : Within [.chutes] F := by rfl) :
    Frame F s₀ (s.mendChutes p id pl) :=
  hF.goes hG (.foldl (.foldl (.refl _) fun _ _ => .setFld (.refl _)) fun _ _ => .ite (.withChutes (.refl _))
    (.refl _))

theorem Frame.setSeqs {p : Nat} {pl : Plan} (hF : Frame F s₀ s)
    (hG : Within [.plans, .sequencers] F := by rfl) : Frame F s₀ (s.setSeqs p pl) :=
  hF.goes hG (.foldl (.refl _) fun _ _ => .ite (.stepReset (.refl _)) (.withSequencers (.refl _)))

theorem Frame.setDrovers {p id : Nat} {pl : Plan} (hF : Frame F s₀ s)
    (hG : Within [.plans, .halter, .drovers] F := by rfl) : Frame F s₀ (s.setDrovers p id pl) :=
  hF.goes hG (.foldl (.refl _) fun _ _ => .ite (.stepReset (.refl _)) (.ite (.semWait (.withDrovers
    (.refl _))) (.withDrovers (.refl _))))

theorem Frame.replayMap {p id : Nat} {pl : Plan} {imported : Bool} {begin_ : Nat} (hF : Frame F s₀ s)
    (hG : Within [.plans] F := by rfl) : Frame F s₀ (s.replayMap p id pl imported begin_) := by
  refine hF.goes hG ?_
  unfold State.replayMap
  split
  · dsimp only
    split
    · exact .refl _
    · exact .foldl (.refl _) fun _ _ => .withYard (.refl _)
  · dsimp only
    split
    · exact .refl _
    · exact .foldl (.refl _) fun _ _ => .withYard (.refl _)

theorem Frame.beginRecord {p : Nat} {st : Step} {pl : Plan} (hF : Frame F s₀ s)
    (hG : Within [.gddr, .loft] F := by rfl) : Frame F s₀ (s.beginRecord p st pl) :=
  hF.goes hG (.dayRecord (.refl _))

theorem Frame.ageColls {p : Nat} (hF : Frame F s₀ s) (hG : Within [.plans] F := by rfl) :
    Frame F s₀ (s.ageColls p) := hF.goes hG (.withYard (.refl _))

theorem Frame.stepStart {p : Nat} (hF : Frame F s₀ s)
    (hG : Within [.hostMem, .gddr, .scratch, .descriptors, .plans, .chutes, .halter, .sequencers, .drovers,
        .loft, .muster, .runs] F := by rfl)
    : Frame F s₀ (stepStart s p) := by
  refine hF.goes hG ?_
  unfold Machine.stepStart
  split
  · refine .ite (.refl _) (.fireSlots (.ite (.setDrovers (.setSeqs (.updStep_starts ?_))) (.gnfFinal
      (.setDrovers (.setSeqs (.updStep_starts ?_))))))
    · split
      · exact .withMus (.setHalter (.showChutes (.mendChutes (.setUcode (.ageColls (.clearFlags
          (.beginRecord (.replayMap (.updFlight (.refl _))))))))))
      · exact .withMus (.setHalter (.showChutes (.mendChutes (.setUcode (.ageColls (.clearFlags
          (.beginRecord (.updFlight (.refl _)))))))))
    · split
      · exact .withMus (.setHalter (.showChutes (.mendChutes (.setUcode (.ageColls (.clearFlags
          (.beginRecord (.replayMap (.updFlight (.refl _))))))))))
      · exact .withMus (.setHalter (.showChutes (.mendChutes (.setUcode (.ageColls (.clearFlags
          (.beginRecord (.updFlight (.refl _)))))))))
  · exact .refl _

theorem Frame.replayEnd {p : Nat} {st : Step} {status : Nat} (hF : Frame F s₀ s)
    (hG : Within [.gddr, .plans, .loft] F := by rfl) : Frame F s₀ (s.replayEnd p st status) := by
  refine hF.goes hG ?_
  unfold State.replayEnd
  split
  · refine .ite (.disarm (.ite (.bump (.dayRecord (.refl _))) (.raise (.setFld (.bump (.dayRecord
      (.refl _))))))) (.setFld ?_)
    split
    · split
      · exact .withArmed (.bump (.dayRecord (.refl _)))
      · exact .withArmed (.raise (.setFld (.bump (.dayRecord (.refl _)))))
    · split
      · exact .withArmed (.bump (.dayRecord (.refl _)))
      · exact .withArmed (.raise (.setFld (.bump (.dayRecord (.refl _)))))
  · exact .refl _

theorem Frame.clearStep {p : Nat} (hF : Frame F s₀ s)
    (hG : Within [.plans, .halter, .sequencers, .drovers, .runs] F := by rfl) :
    Frame F s₀ (s.clearStep p) :=
  hF.goes hG (.withStep (.foldl (.foldl (.refl _) fun _ _ => .setFld (.setFld (.setFld (.refl _))))
    fun _ _ => .ite (.setFld (.refl _)) (.refl _)))

theorem Frame.stepComplete {p : Nat} (hF : Frame F s₀ s)
    (hG : Within [.gddr, .descriptors, .plans, .chutes, .halter, .sequencers, .drovers, .loft, .runs] F := by rfl)
    : Frame F s₀ (stepComplete s p) := by
  refine hF.goes hG ?_
  unfold Machine.stepComplete
  split
  · refine .ite (.refl _) ?_
    split
    · dsimp only
      split
      · exact .finish (.ite (.unloadPlan (.setFld (.clearStep (.cancelPf (.ite (.replayEnd (.dayRecord
          (.refl _))) (.bump (.replayEnd (.dayRecord (.refl _))))))))) (.setFld (.clearStep (.cancelPf (.ite
          (.replayEnd (.dayRecord (.refl _))) (.bump (.replayEnd (.dayRecord (.refl _)))))))))
      · exact .setFld (.clearStep (.cancelPf (.ite (.replayEnd (.dayRecord (.refl _))) (.bump (.replayEnd
          (.dayRecord (.refl _)))))))
  · exact .refl _

/-! ### Video -/

theorem Frame.setV {x st : Nat} (hF : Frame F s₀ s) : Frame F s₀ (s.setV x st) := .setFld hF

theorem Frame.updV {x : Nat} {f : VCtx → VCtx} (hF : Frame F s₀ s) (hG : Within [.video] F := by rfl) :
    Frame F s₀ (s.updV x f) := by
  refine hF.goes hG ?_
  unfold State.updV
  split
  · exact .refl _
  · exact .withVid (.refl _)

theorem Frame.vRaise {x : Nat} (hF : Frame F s₀ s) : Frame F s₀ (s.vRaise x) := .raise hF

theorem Frame.vTouch {x addr n : Nat} (hF : Frame F s₀ s) (hG : Within [.loft] F := by rfl) :
    Frame F s₀ (s.vTouch x addr n) := by
  refine hF.goes hG ?_
  unfold State.vTouch
  split
  · exact .touch (.refl _)
  · exact .refl _

theorem Frame.vTouchWord {x o : Nat} (hF : Frame F s₀ s) (hG : Within [.loft] F := by rfl) :
    Frame F s₀ (s.vTouchWord x o) := hF.goes hG (.vTouch (.refl _))

theorem Frame.setVWord {x o v : Nat} (hF : Frame F s₀ s)
    (hG : Within [.hostMem, .gddr, .scratch, .loft] F := by rfl) : Frame F s₀ (s.setVWord x o v) := by
  refine hF.goes hG ?_
  unfold State.setVWord
  split
  · exact .writeAt (.refl _)
  · exact .refl _

theorem Frame.vcdErr {x code : Nat} (hF : Frame F s₀ s) : Frame F s₀ (s.vcdErr x code) :=
  .setFld (.setFld hF)

theorem Frame.vcdEnable {x : Nat} (hF : Frame F s₀ s)
    (hG : Within [.hostMem, .gddr, .scratch, .loft, .video] F := by rfl) : Frame F s₀ (vcdEnable s x) := by
  refine hF.goes hG ?_
  unfold Machine.vcdEnable
  refine .ite (.refl _) ?_
  split
  · exact .vcdErr (.refl _)
  · dsimp only
    split
    · exact .vcdErr (.touch (.refl _))
    · exact .setV (.setFld (.setVWord (.setVWord (.foldl (.withVid (.touch (.refl _))) fun _ _ => .setReg
        (.refl _)))))

theorem Frame.vIdleNow {x : Nat} (hF : Frame F s₀ s) : Frame F s₀ (s.vIdleNow x) := .setV (.setFld hF)

theorem Frame.vSettle {x : Nat} (hF : Frame F s₀ s) : Frame F s₀ (s.vSettle x) := by
  refine hF.goes (G := []) rfl ?_
  unfold State.vSettle
  split
  · exact .refl _
  · exact .ite (.vIdleNow (.refl _)) (.refl _)

theorem Frame.vcdStop {x : Nat} (hF : Frame F s₀ s) (hG : Within [.video] F := by rfl) :
    Frame F s₀ (vcdStop s x) := hF.goes hG (.ite (.refl _) (.vSettle (.setV (.updV (.refl _)))))

theorem Frame.vcdCtrlWrite {fn : Nat} {val : Word} (hF : Frame F s₀ s)
    (hG : Within [.hostMem, .gddr, .scratch, .loft, .video] F := by rfl) :
    Frame F s₀ (vcdCtrlWrite s fn val) :=
  hF.goes hG (.ite (.refl _) (.ite (.vcdStop (.ite (.vcdEnable (.refl _)) (.refl _))) (.ite (.vcdEnable
    (.refl _)) (.refl _))))

theorem Frame.vViol {x code value : Nat} (hF : Frame F s₀ s) : Frame F s₀ (s.vViol x code value) :=
  .setFld (.ite (.bump hF) (.setFld (.setFld (.bump hF))))

theorem Frame.vRec {x : Nat} {r : VRec} (hF : Frame F s₀ s) (hG : Within [.video] F := by rfl) :
    Frame F s₀ (s.vRec x r) := hF.goes hG (.updV (.refl _))

theorem Frame.videoRecord {x : Nat} (hF : Frame F s₀ s)
    (hG : Within [.hostMem, .gddr, .scratch, .loft, .video] F := by rfl) :
    Frame F s₀ (videoRecord s x) := by
  refine hF.goes hG ?_
  unfold Machine.videoRecord
  split
  · exact .refl _
  · split
    · exact .refl _
    · refine .ite (.refl _) (.vSettle (.ite (.vRaise (.updV ?_)) (.updV ?_)))
      · split
        · exact .writeAt (.refl _)
        · exact .refl _
      · split
        · exact .writeAt (.refl _)
        · exact .refl _

theorem Frame.noBuffer {x : Nat} {c : VCtx} {f : VFrame} (hF : Frame F s₀ s)
    (hG : Within [.video] F := by rfl) : Frame F s₀ (s.noBuffer x c f) :=
  hF.goes hG (.ite (.vRaise (.setV (.updV (.refl _)))) (.vRaise (.setV (.bump (.refl _)))))

theorem Frame.pipeTake {k : Nat} (hF : Frame F s₀ s) (hG : Within [.video] F := by rfl) :
    Frame F s₀ (s.pipeTake k) := by
  refine hF.goes hG ?_
  unfold State.pipeTake
  refine .ite (.refl _) ?_
  split
  · exact .refl _
  · split
    · exact .refl _
    · split
      · exact .noBuffer (.refl _)
      · exact .setFld (.updV (.refl _))

theorem Frame.pipesTake (hF : Frame F s₀ s) (hG : Within [.video] F := by rfl) :
    Frame F s₀ s.pipesTake := hF.goes hG (.foldl (.refl _) fun _ _ => .pipeTake (.refl _))

theorem Frame.vReady {x : Nat} {fs : List VFrame} (hF : Frame F s₀ s) (hG : Within [.video] F := by rfl) :
    Frame F s₀ (s.vReady x fs) := hF.goes hG (.ite (.refl _) (.pipesTake (.withVid (.updV (.refl _)))))

theorem Frame.tailPoll {x : Nat} (hF : Frame F s₀ s) (hG : Within [.loft, .video] F := by rfl) :
    Frame F s₀ (tailPoll s x) := by
  refine hF.goes hG ?_
  unfold Machine.tailPoll
  split
  · exact .refl _
  · exact .ite (.refl _) (.ite (.updV (.vTouchWord (.refl _))) (.vViol (.vTouchWord (.refl _))))

theorem Frame.vConsume {x : Nat} (hF : Frame F s₀ s)
    (hG : Within [.hostMem, .gddr, .scratch, .loft, .video] F := by rfl) : Frame F s₀ (s.vConsume x) := by
  refine hF.goes hG ?_
  unfold State.vConsume
  split
  · dsimp only
    split
    · exact .tailPoll (.setVWord (.updV (.vTouch (.refl _))))
    · exact .updV (.vTouch (.refl _))
  · dsimp only
    split
    · exact .tailPoll (.setVWord (.updV (.refl _)))
    · exact .updV (.refl _)

theorem Frame.vEntryRec {x : Nat} {e : List Byte} {status : Nat} (hF : Frame F s₀ s)
    (hG : Within [.video] F := by rfl) : Frame F s₀ (s.vEntryRec x e status) := hF.goes hG (.vRec (.refl _))

theorem Frame.vFrames {x : Nat} {e : List Byte} {ds : List Decoded} {bad : Bool} (hF : Frame F s₀ s)
    (hG : Within [.video] F := by rfl) : Frame F s₀ (s.vFrames x e ds bad) :=
  hF.goes hG (.vReady (.foldl (.refl _) fun _ _ => .vRec (.bump (.refl _))))

theorem Frame.videoAu {x : Nat} {ds : List Decoded} {resyncs : Nat} (hF : Frame F s₀ s)
    (hG : Within [.hostMem, .gddr, .scratch, .loft, .video] F := by rfl) :
    Frame F s₀ (videoAu s x ds resyncs) := by
  refine hF.goes hG ?_
  unfold Machine.videoAu
  split
  · exact .refl _
  · refine .ite (.vConsume (.vEntryRec (.vViol (.refl _)))) (.ite (.refl _) (.ite (.vConsume (.vEntryRec
      (.refl _))) (.ite (.vConsume (.vEntryRec (.refl _))) ?_)))
    split
    · exact .vConsume (.vEntryRec (.vViol (.refl _)))
    · exact .vConsume (.vFrames (.vEntryRec (.ite (.touch (.refl _)) (.bump (.touch (.refl _))))))

theorem Frame.videoFlush {x : Nat} {ds : List Decoded} (hF : Frame F s₀ s)
    (hG : Within [.hostMem, .gddr, .scratch, .loft, .video] F := by rfl) :
    Frame F s₀ (videoFlush s x ds) := by
  refine hF.goes hG ?_
  unfold Machine.videoFlush
  split
  · exact .refl _
  · exact .ite (.refl _) (.vConsume (.vFrames (.vEntryRec (.refl _))))

theorem Frame.videoRelease {x : Nat} (hF : Frame F s₀ s)
    (hG : Within [.hostMem, .gddr, .scratch, .loft, .video] F := by rfl) :
    Frame F s₀ (videoRelease s x) := by
  refine hF.goes hG ?_
  unfold Machine.videoRelease
  dsimp only
  split
  · exact .refl _
  · exact .ite (.refl _) (.ite (.pipesTake (.vConsume (.ite (.setV (.updV (.refl _))) (.updV (.refl _)))))
      (.vConsume (.vEntryRec (.vViol (.refl _)))))

theorem Frame.videoFrame {x : Nat} (hF : Frame F s₀ s)
    (hG : Within [.hostMem, .gddr, .scratch, .loft, .video] F := by rfl) : Frame F s₀ (videoFrame s x) := by
  refine hF.goes hG ?_
  unfold Machine.videoFrame
  split
  · exact .refl _
  · refine .ite (.refl _) (.ite (.vConsume (.vEntryRec (.refl _))) ?_)
    split
    · exact .vConsume (.vEntryRec (.vViol (.refl _)))
    · exact .vConsume (.vReady (.vEntryRec (.refl _)))

theorem Frame.frameDone {k : Nat} {planes : List Byte} {ref : Bool} {unref : List Nat} (hF : Frame F s₀ s)
    (hG : Within [.hostMem, .gddr, .scratch, .loft, .video] F := by rfl) :
    Frame F s₀ (frameDone s k planes ref unref) := by
  refine hF.goes hG ?_
  unfold Machine.frameDone
  split
  · exact .pipeTake (.refl _)
  · split
    · exact .refl _
    · extract_lets b fn stored counted concealed marked decode recorded patched
      have hstored : Frame [.hostMem, .gddr, .scratch, .loft, .video] s stored := by
        unfold stored
        split
        · exact .ite (.writeAt (.refl s)) (.refl s)
        · exact .refl s
      have hcounted : Frame [.hostMem, .gddr, .scratch, .loft, .video] s counted := .setFld (.bump hstored)
      have hmarked : Frame [.hostMem, .gddr, .scratch, .loft, .video] s marked :=
        .updV (.ite (.bump hcounted) hcounted)
      have hrecorded : Frame [.hostMem, .gddr, .scratch, .loft, .video] s recorded := .ite (.vRec hmarked) hmarked
      have hpatched : Frame [.hostMem, .gddr, .scratch, .loft, .video] s patched :=
        .ite (.updV hrecorded) hrecorded
      exact .pipesTake (.vSettle (.ite (.setV hpatched) hpatched))

theorem Frame.tokensWrite {x w h : Nat} {rgb : List Word} (hF : Frame F s₀ s)
    (hG : Within [.hostMem, .gddr, .scratch, .loft, .video] F := by rfl) :
    Frame F s₀ (tokensWrite s x w h rgb) := by
  refine hF.goes hG ?_
  unfold Machine.tokensWrite
  split
  · exact .refl _
  · split
    · exact .refl _
    · refine .ite (.ite (.vViol (.refl _)) (.refl _)) (.vRec (.setVWord (.updV (.foldl (.ite (.vViol
        (.refl _)) (.refl _)) fun _ _ => ?_))))
      split
      · dsimp only
        split
        · exact .writeAt (.refl _)
        · exact .refl _
      · dsimp only
        split
        · exact .writeAt (.refl _)
        · exact .refl _

theorem Frame.sliceDone {x : Nat} {bytes : List Byte} {last : Bool} (hF : Frame F s₀ s)
    (hG : Within [.hostMem, .gddr, .scratch, .loft, .video] F := by rfl) :
    Frame F s₀ (sliceDone s x bytes last) := by
  refine hF.goes hG ?_
  unfold Machine.sliceDone
  split
  · exact .refl _
  · split
    · exact .refl _
    · refine .ite (.refl _) (.vRec (.updV (.ite ?_ ?_)))
      · dsimp only
        split
        · refine .writeAt ?_
          split
          · exact .writeAt (.refl _)
          · exact .refl _
        · split
          · exact .writeAt (.refl _)
          · exact .refl _
      · dsimp only
        split
        · exact .writeAt (.refl _)
        · exact .refl _

theorem Frame.vcdOwnerWrite {x : Nat} {val : Word} (hF : Frame F s₀ s) :
    Frame F s₀ (vcdOwnerWrite s x val) := .ite hF (.setFld hF)

theorem Frame.videoReset {p : Nat} (hF : Frame F s₀ s) (hG : Within [.video] F := by rfl) :
    Frame F s₀ (s.videoReset p) := hF.goes hG (.withVid (.dropRegs (.refl _)))

/-! ### Resets of units -/

theorem Frame.hciReset {fn : Nat} (hF : Frame F s₀ s) (hG : Within [.descriptors] F := by rfl) :
    Frame F s₀ (s.hciReset fn) := hF.goes hG (.withDescriptors (.dropRegs (.refl _)))

theorem Frame.countersReset {p : Nat} (hF : Frame F s₀ s) : Frame F s₀ (s.countersReset p) := by
  refine hF.goes (G := []) rfl ?_
  unfold State.countersReset
  exact .dropRegs (.refl _)

theorem Frame.dropDeferrals {p : Nat} (hF : Frame F s₀ s) (hG : Within [.plans] F := by rfl) :
    Frame F s₀ (s.dropDeferrals p) := hF.goes hG (.withYard (.setFld (.bump (.refl _))))

theorem Frame.unloadPlans {p : Nat} (hF : Frame F s₀ s) (hG : Within [.plans, .chutes] F := by rfl) :
    Frame F s₀ (s.unloadPlans p) := hF.goes hG (.foldl (.refl _) fun _ _ => .unloadPlan (.refl _))

theorem Frame.dropUnstarted {p : Nat} (hF : Frame F s₀ s) (hG : Within [.plans, .runs] F := by rfl) :
    Frame F s₀ (s.dropUnstarted p) := hF.goes hG (.withSteps (.refl _))

theorem Frame.functionReset {fn : Nat} (hF : Frame F s₀ s)
    (hG : Within [.gddr, .descriptors, .plans, .kv, .chutes, .loft, .muster, .video, .runs] F := by rfl) :
    Frame F s₀ (s.functionReset fn) := by
  refine hF.goes hG ?_
  unfold State.functionReset
  split
  · exact .dropRegs (.bellReset (.hciReset (.refl _)))
  · exact .videoReset (.kvReset (.unloadPlans (.withMus (.dropDeferrals (.disarm (.countersReset
      (.dropUnstarted (.dropRegs (.bellReset (.hciReset (.refl _)))))))))))

theorem Frame.prtRelease {p : Nat} (hF : Frame F s₀ s)
    (hG : Within [.gddr, .descriptors, .plans, .kv, .chutes, .loft, .muster, .partitions, .video, .runs] F := by rfl)
    : Frame F s₀ (prtRelease s p) :=
  hF.goes hG (.ite (.prtErr (.refl _)) (.withParts (.setFld (.setFld (.functionReset (.refl _))))))

theorem Frame.prtCtrlWrite {p : Nat} {val : Word} (hF : Frame F s₀ s)
    (hG : Within [.gddr, .descriptors, .plans, .kv, .chutes, .gddrs, .loft, .free, .muster, .partitions, .video,
        .runs] F := by rfl)
    : Frame F s₀ (prtCtrlWrite s p val) :=
  hF.goes hG (.ite (.prtRelease (.refl _)) (.ite (.prtEnable (.ite (.prtRelease (.prtWhistle (.refl _)))
    (.prtWhistle (.refl _)))) (.ite (.prtRelease (.prtWhistle (.refl _))) (.prtWhistle (.refl _)))))

theorem Frame.faultLog {code : Nat} (hF : Frame F s₀ s)
    (hG : Within [.gddr, .loft, .free, .farrier] F := by rfl) : Frame F s₀ (s.faultLog code) :=
  hF.goes hG (.farLog (.free (.refl _)))

theorem Frame.parityFault {f : Flight} (hF : Frame F s₀ s)
    (hG : Within [.gddr, .descriptors, .plans, .chutes, .shed, .loft, .free, .farrier, .runs] F := by rfl) :
    Frame F s₀ (parityFault s f) := by
  refine hF.goes hG ?_
  unfold Machine.parityFault
  extract_lets p id r plans d u
  have hr : Frame [.gddr, .descriptors, .plans, .chutes, .shed, .loft, .free, .farrier, .runs] s r :=
    .internalRecord (.faultLog (.refl s))
  have hd : Frame [.gddr, .descriptors, .plans, .chutes, .shed, .loft, .free, .farrier, .runs] s d :=
    .dropScheduled hr
  have hu : Frame [.gddr, .descriptors, .plans, .chutes, .shed, .loft, .free, .farrier, .runs] s u :=
    .ite (.unloadPlan hd) hd
  clear_value u
  exact .ite (.updStep hr) (.finish (.withShed hu))

theorem Frame.internalFault {code fn sq idx core : Nat} {ps : List Nat} (hF : Frame F s₀ s)
    (hG : Within [.hostMem, .gddr, .scratch, .descriptors, .plans, .chutes, .halter, .shed, .gddrs, .loft, .free,
        .links, .yardTime, .muster, .clocks, .farrier, .board, .runs] F := by rfl)
    : Frame F s₀ (internalFault s code fn sq idx core ps) := by
  refine hF.goes hG ?_
  unfold Machine.internalFault
  split
  · exact .lockLoss (.lockLoss (.refl _))
  · exact .ite (.mgmtFail (.refl _)) (.refl _)
  · split
    · exact .parityFault (.refl _)
    · exact .refl _
  · exact .internalRecord (.faultLog (.withFar (.refl _)))
  · exact .refl _

/-! ### Register accesses -/

theorem Frame.throughBar {fn off : Nat} {isWrite : Bool} (hs : Frame F s t) (ht : Frame F s u) :
    Frame F s (throughBar t fn off isWrite u) :=
  .ite hs (.ite ht (.hostViolation hs))

theorem Frame.regLoRead {fn off : Nat} (hF : Frame F s₀ s) : Frame F s₀ (regLoRead s fn off) := by
  refine hF.goes (G := []) rfl ?_
  unfold Machine.regLoRead
  split
  · split
    · exact .withHost (.refl _)
    · split
      · exact .withHost (.refl _)
      · split <;> exact .withHost (.refl _)
  · split
    · exact .withHost (.refl _)
    · split
      · exact .withHost (.refl _)
      · split <;> exact .withHost (.refl _)

theorem Frame.selErr {fn off : Nat} (hF : Frame F s₀ s) : Frame F s₀ (s.selErr fn off) :=
  .ite (.setFld hF) (.ite (.setFld hF) (.ite (.setFld hF) (.ite (.setFld hF) (.ite (.setFld hF) (.ite
    (.setFld hF) hF)))))

theorem Frame.selectWrite {fn off : Nat} {val : Word} (hF : Frame F s₀ s) :
    Frame F s₀ (selectWrite s fn off val) := by
  refine hF.goes (G := []) rfl ?_
  unfold Machine.selectWrite
  refine .ite (.refl _) (.ite (.selErr (.refl _)) (.writeRw ?_))
  split <;> exact .withHost (.refl _)

theorem Frame.regLoWrite {fn off : Nat} {val : Word} (hF : Frame F s₀ s) :
    Frame F s₀ (regLoWrite s fn off val) := by
  refine hF.goes (G := []) rfl ?_
  unfold Machine.regLoWrite
  split
  · exact .refl _
  · exact .ite (.refl _) (.withHost (.refl _))

theorem Frame.pairRefused {fn lo inst : Nat} (hF : Frame F s₀ s) :
    Frame F s₀ (s.pairRefused fn lo inst) := by
  refine hF.goes (G := []) rfl ?_
  unfold State.pairRefused
  split
  · exact .setupErr (.refl _)
  · exact .ostErr (.refl _)
  · exact .vcdErr (.refl _)
  · exact .refl _

theorem Frame.commitPair {fn lo inst : Nat} {v w : Word} (hF : Frame F s₀ s) :
    Frame F s₀ (commitPair s fn lo inst v w) := .ite (.writeRw (.writeRw hF)) (.pairRefused hF)

theorem Frame.regHiWrite {fn off : Nat} {val : Word} (hF : Frame F s₀ s) :
    Frame F s₀ (regHiWrite s fn off val) := by
  refine hF.goes (G := []) rfl ?_
  unfold Machine.regHiWrite
  dsimp only
  split
  · exact .refl _
  · exact .ite (.refl _) (.commitPair (.withHost (.refl _)))

theorem Frame.plainWrite {off inst : Nat} {val devSet : Word} (hF : Frame F s₀ s) :
    Frame F s₀ (plainWrite s off inst val devSet) := by
  refine hF.goes (G := []) rfl ?_
  unfold Machine.plainWrite
  split
  · exact .refl _
  · exact .setReg (.refl _)

theorem Frame.belWrite {fn off : Nat} {val devSet : Word} (hF : Frame F s₀ s) :
    Frame F s₀ (belWrite s fn off val devSet) :=
  .ite (.belCompleteWrite hF) (.ite (.belPendingWrite hF) (.ite (.setReg hF) (.ite (.setReg hF) (.ite
    (.setReg hF) (.ite (.ite (.plainWrite hF) hF) (.plainWrite hF))))))

theorem Frame.hlkModuleWrite {off : Nat} {val : Word} (hF : Frame F s₀ s) :
    Frame F s₀ (hlkModuleWrite s off val) :=
  .ite (.ite hF (.writeRw hF)) (.ite (.setFld (.ite (.setFld (.ite (.setFld hF) hF)) (.ite (.setFld hF)
    hF))) (.ite (.setFld (.ite (.setFld hF) hF)) (.ite (.setFld hF) hF)))

theorem Frame.ostWrite {fn off : Nat} {val devSet : Word} (hF : Frame F s₀ s)
    (hG : Within [.hostMem, .gddr, .scratch, .kv, .loft] F := by rfl) :
    Frame F s₀ (ostWrite s fn off val devSet) := by
  refine hF.goes hG ?_
  unfold Machine.ostWrite
  refine .ite (.ostCtrlWrite (.refl _)) (.ite (.poolFramesWrite (.refl _)) (.ite (.poolFramesWrite
    (.refl _)) (.ite (.ostConfigWrite (.showSizes (.plainWrite (.refl _)))) (.ite (.ostConfigWrite
    (.plainWrite (.refl _))) (.ite (.pedKeyWrite (.refl _)) (.ite ?_ (.plainWrite (.refl _))))))))
  split
  · exact .partFramesWrite (.refl _)
  · exact .partNodesWrite (.refl _)
  · exact .plainWrite (.refl _)

theorem Frame.regWrite {fn off : Nat} {val devSet : Word} (hF : Frame F s₀ s)
    (hG : Within Piece.all F := by rfl) : Frame F s₀ (regWrite s fn off val devSet) := by
  refine hF.goes hG ?_
  unfold Machine.regWrite
  extract_lets i plain plain' n
  have hplain : Frame Piece.all s plain' := .ite (.plainWrite (.plainWrite (.refl s))) (.plainWrite (.refl s))
  clear_value plain'
  refine .ite (.refl s) (.ite (.selectWrite (.refl s)) (.ite (.regLoWrite (.refl s)) (.ite (.regHiWrite
    (.refl s)) ?_)))
  split
  · exact .ite (.ite (.sqEnable (.refl s)) (.sqDisable (.refl s))) (.ite (.ite (.cqEnable (.refl s))
      (.cqDisable (.refl s))) hplain)
  · exact .belWrite (.refl s)
  · exact .ite (.clkCtrlWrite (.refl s)) (.ite (.clkSscWrite (.refl s)) (.ite (.clkBoundsWrite (.refl s)) hplain))
  · exact .ite (.bootCtrlWrite (.refl s)) (.ite (.refl s) (.ite (.bootSave (.refl s)) (.ite (.unitResetGo
      (.refl s)) hplain)))
  · exact .ite (.isolateWrite (.refl s)) (.ite (.prtConfigWrite (.refl s)) (.ite (.windowWrite (.refl s))
      (.ite (.prtCtrlWrite (.refl s)) hplain)))
  · exact .ite (.ytmCtrlWrite (.refl s)) hplain
  · exact .ite (.hlkCtrlWrite (.refl s)) (.ite (.hlkModuleWrite (.refl s)) hplain)
  · exact .ite (.musCancel (.refl s)) hplain
  · exact .ite (.marginStart (.refl s)) hplain
  · exact .ostWrite (.refl s)
  · exact .ite (.farApply (.refl s)) (.ite (.spareSwaps hplain) hplain)
  · exact .ite (.dayCtrlWrite (.refl s)) (.ite hplain (.refl s))
  · exact .ite (.vcdCtrlWrite (.refl s)) (.ite (.vcdOwnerWrite (.refl s)) hplain)
  · exact .ite (.mbsCtrlWrite (.refl s)) hplain
  · exact hplain

theorem Frame.registerWrite {fn : Nat} {sp : RegSpace} {off : Nat} {val devSet : Word} (hF : Frame F s₀ s)
    (hG : Within Piece.all F := by rfl) : Frame F s₀ (registerWrite s fn sp off val devSet) := by
  refine hF.goes hG ?_
  unfold Machine.registerWrite
  split
  · exact .throughBar (.refl _) (.ite (.alertCheck (.regWrite (.refl _))) (.regWrite (.refl _)))
  · exact .whenLive (.refl _) (.msixTableWrite (.refl _))
  · exact .whenLive (.refl _) (.msixControlWrite (.refl _))

/-! ### Plan boundaries and prefetches -/

theorem Frame.yardRecord {p plan event expert value : Nat} (hF : Frame F s₀ s)
    (hG : Within [.gddr, .loft] F := by rfl) : Frame F s₀ (s.yardRecord p plan event expert value) :=
  hF.goes hG (.dayRecord (.refl _))

theorem Frame.setExpert {p id e : Nat} {x : Expert} (hF : Frame F s₀ s) (hG : Within [.plans] F := by rfl) :
    Frame F s₀ (s.setExpert p id e x) := hF.goes hG (.withYard (.refl _))

theorem Frame.migrate {p id e kind chunks : Nat} (hF : Frame F s₀ s) (hG : Within [.plans] F := by rfl) :
    Frame F s₀ (s.migrate p id e kind chunks) := hF.goes hG (.withYard (.refl _))

theorem Frame.yardClamp {p id event e value : Nat} (hF : Frame F s₀ s)
    (hG : Within [.gddr, .loft] F := by rfl) : Frame F s₀ (s.yardClamp p id event e value) := by
  refine hF.goes hG ?_
  unfold State.yardClamp
  refine .yardRecord (.setFld ?_)
  split <;> exact .bump (.refl _)

theorem Frame.scoreExperts {p id : Nat} {pl : Plan} {others : List Nat} (hF : Frame F s₀ s)
    (hG : Within [.plans] F := by rfl) : Frame F s₀ (s.scoreExperts p id pl others) :=
  hF.goes hG (.foldl (.refl _) fun _ _ => .setExpert (.refl _))

theorem Frame.wishExperts {p id : Nat} {pl : Plan} {sum : Nat} (hF : Frame F s₀ s)
    (hG : Within [.gddr, .plans, .loft] F := by rfl) : Frame F s₀ (s.wishExperts p id pl sum) :=
  hF.goes hG (.foldl (.refl _) fun _ _ => .setExpert (.ite (.yardClamp (.refl _)) (.ite (.yardClamp
    (.refl _)) (.refl _))))

theorem Frame.addReplicas {p id : Nat} {pl : Plan} (hF : Frame F s₀ s)
    (hG : Within [.gddr, .plans, .loft] F := by rfl) : Frame F s₀ (s.addReplicas p id pl) :=
  hF.goes hG (.foldl (.refl _) fun _ _ => .ite (.yardClamp (.refl _)) (.migrate (.refl _)))

theorem Frame.dropReplicas {p id : Nat} {pl : Plan} (hF : Frame F s₀ s)
    (hG : Within [.gddr, .plans, .loft] F := by rfl) : Frame F s₀ (s.dropReplicas p id pl) :=
  hF.goes hG (.foldl (.refl _) fun _ _ => .ite (.refl _) (.ite (.yardRecord (.setExpert (.refl _))) (.ite
    (.migrate (.refl _)) (.refl _))))

theorem Frame.mapRecord {p id : Nat} {pl : Plan} (hF : Frame F s₀ s)
    (hG : Within [.gddr, .loft] F := by rfl) : Frame F s₀ (s.mapRecord p id pl) :=
  hF.goes hG (.dayRecord (.refl _))

theorem Frame.expertMap {p id : Nat} {pl : Plan} {others : List Nat} (hF : Frame F s₀ s)
    (hG : Within [.gddr, .plans, .loft] F := by rfl) : Frame F s₀ (s.expertMap p id pl others) :=
  hF.goes hG (.mapRecord (.ite (.dropReplicas (.addReplicas (.wishExperts (.withYard (.scoreExperts
    (.refl _)))))) (.withYard (.scoreExperts (.refl _)))))

theorem Frame.planBoundary {p watts : Nat} {fails : List Nat} {others : List (Nat × List Nat)}
    (hF : Frame F s₀ s)
    (hG : Within [.hostMem, .gddr, .scratch, .plans, .halter, .gddrs, .loft, .links, .yardTime, .muster,
        .partitions, .clocks, .farrier, .board] F := by rfl)
    : Frame F s₀ (planBoundary s p watts fails others) := by
  refine hF.goes hG ?_
  unfold Machine.planBoundary
  refine .ite (.refl _) (.foldl (.setFld (.ite (.withParts (.foldl (.clockBoundary (.releaseYtCtrl
    (.spareSwaps (.setFld (.foldl (.withYard (.refl _)) fun _ _ => ?_))))) fun _ _ => .storeWindow
    (.refl _))) (.spareSwaps (.setFld (.foldl (.withYard (.refl _)) fun _ _ => ?_))))) fun _ _ => .ite
    (.restorePoint (.powerLoop (.refl _))) (.refl _))
  · split
    · exact .expertMap (.refl _)
    · exact .refl _
  · split
    · exact .expertMap (.refl _)
    · exact .refl _

theorem Frame.switchExpert {m : Migration} {pl : Plan} (hF : Frame F s₀ s)
    (hG : Within [.gddr, .plans, .loft] F := by rfl) : Frame F s₀ (s.switchExpert m pl) :=
  hF.goes hG (.yardRecord (.bump (.setExpert (.refl _))))

theorem Frame.migrationChunk {p : Nat} (hF : Frame F s₀ s) (hG : Within [.gddr, .plans, .loft] F := by rfl)
    : Frame F s₀ (migrationChunk s p) := by
  refine hF.goes hG ?_
  unfold Machine.migrationChunk
  split
  · exact .refl _
  · refine .ite (.refl _) ?_
    split
    · exact .refl _
    · exact .setFld (.ite (.switchExpert (.withYard (.withYard (.refl _)))) (.withYard (.withYard
        (.refl _))))

theorem Frame.demandFetch {p id e beats : Nat} (hF : Frame F s₀ s)
    (hG : Within [.gddr, .plans, .loft] F := by rfl) : Frame F s₀ (demandFetch s p id e beats) := by
  refine hF.goes hG ?_
  unfold Machine.demandFetch
  split
  · exact .refl _
  · exact .ite (.refl _) (.yardRecord (.bump (.setExpert (.foldl (.refl _) fun _ _ => .bump (.bump
      (.refl _))))))

theorem Frame.prefetchLine {x : Nest} {l mask : Nat} {due : Option Nat} (hF : Frame F s₀ s)
    (hG : Within [.plans, .loft] F := by rfl) : Frame F s₀ (s.prefetchLine x l mask due) :=
  hF.goes hG (.ite (.refl _) (.bump64 (.withYard (.request (.refl _)))))

theorem Frame.prefetchIssue {core : Nat} (hF : Frame F s₀ s) (hG : Within [.plans, .loft] F := by rfl) :
    Frame F s₀ (prefetchIssue s core) := by
  refine hF.goes hG ?_
  unfold Machine.prefetchIssue
  split
  · exact .refl _
  · refine .ite (.refl _) (.foldl (.refl _) fun _ _ => ?_)
    split
    · dsimp only
      split
      · exact .foldl (.refl _) fun _ _ => .prefetchLine (.refl _)
      · exact .refl _
    · dsimp only
      split
      · exact .foldl (.refl _) fun _ _ => .prefetchLine (.refl _)
      · exact .refl _

theorem Frame.updFetch {p k : Nat} {f : Fetch → Fetch} (hF : Frame F s₀ s)
    (hG : Within [.plans] F := by rfl) : Frame F s₀ (s.updFetch p k f) := hF.goes hG (.updStep (.refl _))

theorem Frame.failPages {p t bytes : Nat} {fails : List (Nat × Nat)} (hF : Frame F s₀ s)
    (hG : Within [.hostMem, .gddr, .scratch, .plans, .loft] F := by rfl) :
    Frame F s₀ (s.failPages p t bytes fails) := by
  refine hF.goes hG ?_
  unfold State.failPages
  refine .foldl (.refl _) fun _ _ => ?_
  dsimp only
  split
  · exact .ite (.refl _) (.stepFault (.failPage (.refl _)))
  · exact .refl _

theorem Frame.fetchComplete {p k : Nat} {fails : List (Nat × Nat)} {past : Bool} (hF : Frame F s₀ s)
    (hG : Within [.hostMem, .gddr, .scratch, .plans, .loft] F := by rfl) :
    Frame F s₀ (fetchComplete s p k fails past) := by
  refine hF.goes hG ?_
  unfold Machine.fetchComplete
  split
  · split
    · exact .refl _
    · exact .ite (.ite (.failPages (.updFetch (.earlyEnds (.refl _)))) (.updFetch (.earlyEnds (.refl _))))
        (.fetchRecord (.foldl (.ite (.failPages (.updFetch (.earlyEnds (.refl _)))) (.updFetch (.earlyEnds
        (.refl _)))) fun _ _ => .ite (.bump (.bump (.refl _))) (.bump (.bump (.refl _)))))
  · exact .refl _

theorem Frame.fetchDeadlineMiss {p k : Nat} (hF : Frame F s₀ s)
    (hG : Within [.gddr, .plans, .loft] F := by rfl) : Frame F s₀ (fetchDeadlineMiss s p k) := by
  refine hF.goes hG ?_
  unfold Machine.fetchDeadlineMiss
  split
  · split
    · exact .refl _
    · exact .ite (.refl _) (.ite (.recomputeFetch (.earlyEnds (.refl _))) (.updFetch (.earlyEnds
        (.refl _))))
  · exact .refl _

/-! ### Drovers -/

theorem Frame.updDrove {k : Nat} {f : Drove → Drove} (hF : Frame F s₀ s)
    (hG : Within [.drovers] F := by rfl) : Frame F s₀ (s.updDrove k f) := by
  refine hF.goes hG ?_
  unfold State.updDrove
  split
  · exact .refl _
  · exact .withDrovers (.refl _)

theorem Frame.droverFault {x : Droving} {code : Nat} (hF : Frame F s₀ s) (hG : Within [.plans] F := by rfl)
    : Frame F s₀ (s.droverFault x code) :=
  hF.goes hG (.stepFault (.bump (.setFld (.ite (.refl _) (.setFld (.setFld (.refl _)))))))

theorem Frame.droverCount {x : Droving} {rows bytes : Nat} (hF : Frame F s₀ s) :
    Frame F s₀ (s.droverCount x rows bytes) :=
  .bump (.ite (.ite hF (.bump64 hF)) (.bump64 (.ite hF (.bump64 hF))))

theorem Frame.gatherStream {x : Droving} {sid : Nat} (hF : Frame F s₀ s) (hG : Within [.plans] F := by rfl)
    : Frame F s₀ (s.gatherStream x sid).2.2 := by
  refine hF.goes hG ?_
  unfold State.gatherStream
  dsimp only
  split
  · exact .touchStream (.refl _)
  · exact .kvFault (.touchStream (.refl _))

theorem Frame.lengthWord {x : Droving} {k v : Nat} (hF : Frame F s₀ s)
    (hG : Within [.hostMem, .gddr, .scratch, .plans, .loft] F := by rfl) :
    Frame F s₀ (s.lengthWord x k v) := by
  refine hF.goes hG ?_
  unfold State.lengthWord
  dsimp only
  split
  · exact .droverFault (.refl _)
  · exact .ite (.droverFault (.refl _)) (.setTensorWord (.refl _))

theorem Frame.countTokens {x : Droving} {n : Nat} (hF : Frame F s₀ s) (hG : Within [.plans] F := by rfl) :
    Frame F s₀ (s.countTokens x n) := by
  refine hF.goes hG ?_
  unfold State.countTokens
  split
  · exact .refl _
  · exact .ite (.refl _) (.withYard (.refl _))

theorem Frame.droverEnd {k : Nat} (hF : Frame F s₀ s) (hG : Within [.drovers] F := by rfl) :
    Frame F s₀ (s.droverEnd k) := by
  refine hF.goes hG ?_
  unfold State.droverEnd
  split
  · exact .refl _
  · exact .ite (.setFld (.updDrove (.refl _))) (.refl _)

theorem Frame.droverStart {k : Nat} {fails : List Nat} (hF : Frame F s₀ s)
    (hG : Within [.hostMem, .gddr, .scratch, .plans, .halter, .drovers, .loft] F := by rfl) :
    Frame F s₀ (droverStart s k fails) := by
  refine hF.goes hG ?_
  unfold Machine.droverStart
  split
  · exact .refl s
  · next x _ =>
    refine .ite (.refl s) (.ite (.fetchWait (.refl s)) ?_)
    extract_lets p a b word
    have hb : Frame [.hostMem, .gddr, .scratch, .plans, .halter, .drovers, .loft] s b :=
      .setFld (.setFld (.earlyEnd (.refl s)))
    have hword : ∀ (u : State) t i j, Frame [.hostMem, .gddr, .scratch, .plans, .halter, .drovers, .loft] u
        (word u t i j).2 := fun _ _ _ _ => .tookWord (.refl _)
    clear_value b word
    split
    next n c hn =>
    have hc : Frame [.hostMem, .gddr, .scratch, .plans, .halter, .drovers, .loft] s c := by
      refine .snd hn ?_
      split
      · exact hb.trans (.snd ‹_› (hword ..))
      · exact .droverFault (hb.trans (.snd ‹_› (hword ..)))
    split
    next pages marks d hm =>
    have hd : Frame [.hostMem, .gddr, .scratch, .plans, .halter, .drovers, .loft] s d := by
      refine .snd₂ hm (.iteOn (fun r : _ × _ × State => r.2.2) hc
        (.foldlOn (fun r : _ × _ × State => r.2.2) hc fun _ _ => ?_))
      split
      · exact .lengthWord (.gatherStream (.snd ‹_› (hword ..)))
      · exact .lengthWord (.droverFault (.snd ‹_› (hword ..)))
    have he : Frame [.hostMem, .gddr, .scratch, .plans, .halter, .drovers, .loft] s
        (if x.n.dMode = 1 then d.lengthWord x 0 n else d) := .ite (.lengthWord hd) hd
    exact .droverEnd (.signal (.updDrove (.countTokens (.ite (.lengthWord he) he))))

theorem Frame.tookRows {p : Nat} {b : BaleRead} {rows : List Nat} (hF : Frame F s₀ s)
    (hG : Within [.plans, .loft] F := by rfl) : Frame F s₀ (s.tookRows p b rows) :=
  hF.goes hG (.readCause (.foldl (.refl _) fun _ _ => .touch (.refl _)))

theorem Frame.gatherRow {g : Gather} {x : Droving} {i t : Nat} (hF : Frame F s₀ g.s)
    (hG : Within [.plans, .loft] F := by rfl) : Frame F s₀ (g.row x i t).s := by
  refine hF.goes hG ?_
  unfold Gather.row
  extract_lets p s add bad w s'
  have hw : Frame [.plans, .loft] g.s s' := .ite (.tookWord (.refl _)) (.refl _)
  clear_value w s'
  have hbad : ∀ {u} c b, Frame [.plans, .loft] g.s u → Frame [.plans, .loft] g.s (bad u c b).s := fun _ _ h =>
    .ite (.droverFault h) h
  split
  · exact hbad _ _ hw
  · refine .iteOn Gather.s (.ite (.bump hw) hw) (.iteOn Gather.s (hbad _ _ hw) ?_)
    split
    · exact hbad _ _ hw
    · refine .iteOn Gather.s (.stepReset hw) (.iteOn Gather.s (hbad _ _ (.touch hw)) ?_)
      exact .iteOn Gather.s (hbad _ _ hw) (.iteOn Gather.s (.stepReset hw) (.tookRows hw))

theorem Frame.rowsBale {x : Droving} (hF : Frame F s₀ s) (hG : Within [.plans, .loft] F := by rfl) :
    Frame F s₀ (s.rowsBale x).2.2.2 := by
  refine hF.goes hG ?_
  unfold State.rowsBale
  exact .foldlOn Gather.s (.refl s) fun _ _ => .gatherRow (.refl _)

theorem Frame.pageBale {x : Droving} (hF : Frame F s₀ s) (hG : Within [.plans, .loft] F := by rfl) :
    Frame F s₀ (s.pageBale x).2.2.2 := by
  refine hF.goes hG ?_
  unfold State.pageBale
  split
  · exact .refl _
  · split
    · exact .refl _
    · split
      · exact .stepReset (.refl _)
      · split
        · dsimp only
          split
          · exact .droverFault (.stepFault (.touch (.refl _)))
          · exact .stepFault (.touch (.refl _))
        · dsimp only
          split
          · exact .droverFault (.touch (.refl _))
          · exact .touch (.refl _)

theorem Frame.droverDeliver {k : Nat} (hF : Frame F s₀ s)
    (hG : Within [.plans, .chutes, .drovers, .loft] F := by rfl) : Frame F s₀ (droverDeliver s k) := by
  refine hF.goes hG ?_
  unfold Machine.droverDeliver
  split
  · exact .refl s
  · next x _ =>
    extract_lets p c ts a
    have hb : Frame [.plans, .chutes, .drovers, .loft] s
        (if x.n.dMode = 1 then a.rowsBale x else a.pageBale x).2.2.2 :=
      .iteOn (fun r : _ × _ × _ × State => r.2.2.2) (.rowsBale (.earlyEnd (.refl s)))
          (.pageBale (.earlyEnd (.refl s)))
    exact .ite (.refl s) (.ite (.fetchWait (.refl s))
      (.droverEnd (.updDrove (.droverCount (.ite hb (.setChute hb))))))

theorem Frame.scatterRows {x : Droving} {j t rows : Nat} (hF : Frame F s₀ s)
    (hG : Within [.plans, .loft] F := by rfl) : Frame F s₀ (s.scatterRows x j t rows).2 := by
  refine hF.goes hG ?_
  unfold State.scatterRows
  refine .foldlOn Prod.snd (.refl _) fun _ _ => ?_
  split
  · dsimp only
    split
    · exact .refl _
    · split
      · exact .droverFault (.tookWord (.refl _))
      · split
        · exact .bump (.tookWord (.refl _))
        · split
          · exact .droverFault (.tookWord (.refl _))
          · exact .tookWord (.refl _)
  · dsimp only
    split
    · exact .refl _
    · split
      · exact .refl _
      · split
        · exact .refl _
        · split <;> exact .refl _

theorem Frame.writeRows {p : Nat} {pl : Place} {b : Bale} {dirty : Bool} {rows : List Nat}
    (hF : Frame F s₀ s) (hG : Within [.hostMem, .gddr, .scratch, .plans, .loft] F := by rfl) :
    Frame F s₀ (s.writeRows p pl b dirty rows) :=
  hF.goes hG (.markBale (.updStep (.foldl (.refl _) fun _ _ => .writeAt (.refl _))))

theorem Frame.scatterInto {x : Droving} {b : Bale} {dirty : Bool} {t group : Nat} {rows : List (Nat × Nat)}
    (hF : Frame F s₀ s) (hG : Within [.hostMem, .gddr, .scratch, .plans, .loft] F := by rfl) :
    Frame F s₀ (s.scatterInto x b dirty t group rows).2 := by
  refine hF.goes hG ?_
  unfold State.scatterInto
  split
  · exact .droverFault (.refl _)
  · dsimp only
    split
    · exact .stepReset (.refl _)
    · split
      · exact .droverFault (.touch (.refl _))
      · split
        · exact .droverFault (.refl _)
        · split
          · exact .stepReset (.refl _)
          · exact .writeRows (.tookRows (.refl _))

theorem Frame.payOwed {x : Droving} (hF : Frame F s₀ s) (hG : Within [.halter, .sequencers] F := by rfl) :
    Frame F s₀ (s.payOwed x) := by
  refine hF.goes hG ?_
  unfold State.payOwed
  split
  · exact .refl _
  · exact .updSeq (.foldl (.refl _) fun _ _ => .signal (.refl _))

theorem Frame.droverScatter {k : Nat} (hF : Frame F s₀ s)
    (hG : Within [.hostMem, .gddr, .scratch, .plans, .chutes, .halter, .sequencers, .drovers, .loft] F := by rfl)
    : Frame F s₀ (droverScatter s k) := by
  refine hF.goes hG ?_
  unfold Machine.droverScatter
  split
  · exact .refl _
  · split
    · dsimp only
      split <;> exact .refl _
    · dsimp only
      split
      · exact .refl _
      · refine .ite (.fetchWait (.refl _)) (.droverEnd (.payOwed (.updDrove (.droverCount ?_))))
        split
        · exact .droverFault (.setChute (.earlyEnd (.refl _)))
        · exact .foldlOn Prod.snd (.scatterRows (.setChute (.earlyEnd (.refl _)))) fun _ _ => .scatterInto
            (.refl _)

end Sys2Proof.Machine

namespace Sys2Proof

open Machine

/-- Whether a command may change a part of the module: the lists of Safety.lean. -/
def Instr.mayChange (c : Instr) : Piece → Bool
  | .hostMem => c.storesHost
  | .gddr => c.storesGddr
  | .scratch => c.storesScratch
  | .shedData => c.storesShed
  | .descriptors => c.movesDescriptors
  | .messages => c.sendsMsix
  | .plans => c.changesPlans
  | .kv => c.changesKv
  | .chutes => c.movesBales
  | .halter => c.usesHalter
  | .sequencers => c.movesSequencers
  | .drovers => c.changesDrovers
  | .shed => c.changesShed
  | .gddrs => c.changesGddrs
  | .loft => c.touchesLoft
  | .free => c.drawsFree
  | .links => c.changesLinks
  | .yardTime => c.changesYardTime
  | .ethernet => c.changesEthernet
  | .muster => c.changesMuster
  | .partitions => c.changesPartitions
  | .clocks => c.changesClocks
  | .flash => c.changesFlash
  | .farrier => c.changesFarrier
  | .video => c.changesVideo
  | .board => c.changesBoard
  | .runs => c.changesPlans

/-- The parts that a command may change: every part where it resets the module. -/
def Instr.touches (c : Instr) : List Piece :=
  if c.resetsModule then Piece.all else Piece.all.filter c.mayChange

theorem Instr.not_touches {c : Instr} (hr : c.resetsModule = false) {k : Piece} (hk : c.mayChange k = false) :
    c.touches.contains k = false := by
  simp [Instr.touches, hr, hk]

namespace Machine

variable {s t : State}

/-- Every command is carried out, and changes only the parts it is listed for. -/
theorem exec_frames (c : Instr) (s : State) : Frames c.touches s (exec c s) := by
  cases c
  case regLoWrite => exact .next (.ite (.throughBar (.refl _) (.regLoWrite (.refl _))) (.refl _))
  case regHiWrite => exact .next (.ite (.throughBar (.refl _) (.regHiWrite (.refl _))) (.refl _))
  case regLoRead => exact .next (.throughBar (.refl _) (.regLoRead (.refl _)))
  case selectWrite => exact .next (.ite (.throughBar (.refl _) (.selectWrite (.refl _))) (.refl _))
  case registerWrite => exact .next (.registerWrite (.refl _))
  case vfForbiddenAccess => exact .next (.ite (.refl _) (.hostViolation (.ite (.refl _) (.withHost
      (.refl _)))))
  case functionLevelReset => exact .next (.functionReset (.refl _))
  case sqEnable => exact .next (.whenLive (.refl _) (.sqEnable (.refl _)))
  case sqDisable => exact .next (.whenLive (.refl _) (.sqDisable (.refl _)))
  case cqEnable => exact .next (.whenLive (.refl _) (.cqEnable (.refl _)))
  case cqDisable => exact .next (.whenLive (.refl _) (.cqDisable (.refl _)))
  case tailDoorbell => exact .next (.throughPage (.hostStores (.refl _)) (.tailDoorbell (.hostStores
      (.refl _))))
  case headDoorbell => exact .next (.throughPage (.refl _) (.headDoorbell (.refl _)))
  case doorbellBadWrite => exact .next (.ite (.hostViolation (.refl _)) (.refl _))
  case descriptorFetch => exact .next (.descriptorFetch (.refl _))
  case nop =>
    unfold exec execNop
    exact .runDesc fun _ => .failDesc (.refl _)
  case planLoad =>
    unfold exec execPlanLoad
    exact .runDesc fun _ => .ite (.meeting (.refl _) fun _ => .planLoad (.refl _)) (.refl _)
  case planRun =>
    unfold exec execPlanRun
    exact .runDesc fun _ => .ite (.meeting (.refl _) fun _ => .planRun (.refl _)) (.refl _)
  case baleCopy =>
    unfold exec execBaleCopy
    exact .runDesc fun _ => .ite (.refl _) (.meeting (.refl _) fun _ => .baleCopy (.refl _))
  case baleCopyRaw =>
    unfold exec execBaleCopyRaw
    exact .runDesc fun _ => .ite (.meeting (.refl _) fun _ => .rawCopy (.refl _)) (.refl _)
  case shedRead =>
    unfold exec execShedRead
    exact .runDesc fun _ => .shedStart (.refl _)
  case shedWrite =>
    unfold exec execShedWrite
    exact .runDesc fun _ => .shedStart (.refl _)
  case fenceRing =>
    unfold exec execFenceRing
    exact .runDesc fun _ => .ite (.refl _) (.fenceStart (.refl _))
  case fenceFunction =>
    unfold exec execFenceFunction
    exact .runDesc fun _ => .ite (.fenceStart (.refl _)) (.refl _)
  case fenceRelease => exact (execFenceRelease_frames ..).mono rfl
  case cancel => exact (execCancel_frames ..).mono rfl
  case timeSetCounter =>
    unfold exec execTimeSetCounter
    exact .runDesc fun _ => .ite (.timeSet (.refl _)) (.refl _)
  case timeSetPeriod =>
    unfold exec execTimeSetPeriod
    exact .runDesc fun _ => .ite (.timeSet (.refl _)) (.refl _)
  case timeSetEmpty =>
    unfold exec execTimeSetEmpty
    exact .runDesc fun _ => .ite (.timeSet (.refl _)) (.refl _)
  case replayArm =>
    unfold exec execReplayArm
    exact .runDesc fun _ => .replayArm (.refl _)
  case reservedOpcode => exact (execReservedOpcode_frames ..).mono rfl
  case kvOpen =>
    unfold exec execKvOpen
    exact .kvOp rfl fun _ _ _ _ => .kvOpen (.refl _)
  case kvFlush =>
    unfold exec execKvFlush
    exact .kvOp rfl fun _ _ _ _ => .kvFlushOp (.refl _)
  case kvCommit =>
    unfold exec execKvCommit
    exact .kvOp rfl fun _ _ _ _ => .kvCommitOp (.refl _)
  case kvClose =>
    unfold exec execKvClose
    exact .kvOp rfl fun _ _ _ _ => .finish (.closeStream (.refl _))
  case kvFork =>
    unfold exec execKvFork
    exact .kvOp rfl fun _ _ _ _ => .kvFork (.refl _)
  case pedInsert =>
    unfold exec execPedInsert
    exact .kvOp rfl fun _ _ _ _ => .pedInsert (.refl _)
  case pedMatch =>
    unfold exec execPedMatch
    exact .kvOp rfl fun _ _ _ _ => .pedMatch (.refl _)
  case kvOpReserved =>
    unfold exec execKvOpReserved
    exact .runDesc fun _ => .ite (.failDesc (.refl _)) (.refl _)
  case completionRecordWrite => exact .next (.writeRecord (.refl _))
  case stepStart => exact .next (.stepStart (.refl _))
  case stepComplete => exact .next (.stepComplete (.refl _))
  case planBoundary => exact .next (.planBoundary (.refl _))
  case migrationChunk => exact .next (.migrationChunk (.refl _))
  case nestStart => exact .next (.ite (.refl _) (.meeting (.refl _) fun _ => .nestStart (.refl _)))
  case iterationIssue => exact .next (.ite (.refl _) (.meeting (.refl _) fun _ => .iterationIssue
      (.refl _)))
  case stallRetry => exact .next (.retryStalls (.refl _))
  case gnfFinal => exact .next (.gnfFinal (.refl _))
  case nestPost => exact .next (.nestPost (.refl _))
  case chuteBaleSend => exact .next (.chuteSend (.refl _))
  case chuteBaleLand => exact .next (.chuteLand (.refl _))
  case chuteCreditReturn => exact .next (.creditReturn (.refl _))
  case halterArrive => exact .next (.halterArrive (.refl _))
  case halterSignal => exact .next (.halterSignal (.refl _))
  case halterWait => exact .next (.halterWait (.refl _))
  case halterRelease => exact .next (.halterRelease (.refl _))
  case watchdogFire => exact .next (.watchdogFire (.refl _))
  case yardBeat => exact .next (.yardBeat (.refl _))
  case beatDelivery => exact .next (.beatDelivery (.refl _))
  case fetchComplete => exact .next (.fetchComplete (.refl _))
  case fetchDeadlineMiss => exact .next (.fetchDeadlineMiss (.refl _))
  case pathLimitAdmit => exact .next (.pathAdmit (.refl _))
  case loftAccess => exact .next (.loftAccess (.refl _))
  case loftFill => exact .next (.loftFill (.refl _))
  case loftWayFail => exact .next (.wayFail (.refl _))
  case droverStreamStart => exact .next (.ite (.refl _) (.meeting (.refl _) fun _ => .droverStart
      (.refl _)))
  case droverBaleDeliver => exact .next (.ite (.refl _) (.meeting (.refl _) fun _ => .droverDeliver
      (.refl _)))
  case droverScatterBale => exact .next (.ite (.refl _) (.meeting (.refl _) fun _ => .droverScatter
      (.refl _)))
  case prefetchIssue => exact .next (.prefetchIssue (.refl _))
  case demandFetch => exact .next (.demandFetch (.refl _))
  case gddrRefresh => exact .next (.refl _)
  case gddrPatrolScrub => exact .next (.patrolScrub (.refl _))
  case gddrTempPoll => exact .next (.tempPoll (.refl _))
  case rowRemapSwitch => exact .next (.remapSwitch (.refl _))
  case marginStart => exact .next (.marginStart (.refl _))
  case marginSweepDone => exact .next (.marginDone (.refl _))
  case shedPageReadDone => exact (execShedPageReadDone_frames ..).mono rfl
  case shedPageWriteDone => exact (execShedPageWriteDone_frames ..).mono rfl
  case shedRelocate => exact .next (.shedRelocate (.refl _))
  case flashBusyTimeout => exact .next (.ite (.refl _) (.shedReset (.memEvent (.refl _))))
  case linkTrainDone => exact .next (.linkTrainDone (.refl _))
  case linkTrainTimeout => exact .next (.linkTrainTimeout (.refl _))
  case linkDown => exact .next (.ite (.refl _) (.ite (.foldl (.linkRetrain (.refl _)) fun _ _ => .land
      (.refl _)) (.linkRetrain (.refl _))))
  case linkReset => exact .next (.ite (.hlkCtrlWrite (.refl _)) (.refl _))
  case linkEnableWrite => exact .next (.ite (.refl _) (.hlkCtrlWrite (.refl _)))
  case laneFail => exact .next (.laneFail (.refl _))
  case linkPacketSend => exact .next (.linkPacketSend (.refl _))
  case linkPacketReceive => exact .next (.linkPacketReceive (.refl _))
  case linkAckReceive => exact .next (.linkAck (.refl _))
  case linkNakReceive => exact .next (.linkNak (.refl _))
  case linkCreditReturn => exact .next (.ite (.refl _) (.updLink (.refl _)))
  case dropNoticeReceive => exact .next (.loseTransfer (.refl _))
  case linkDelayMeasure => exact .next (.ite (.updLink (.setFld (.refl _))) (.refl _))
  case transferSend => exact .next (.meeting (.refl _) fun _ => .transferSend (.refl _))
  case transferLand => exact .next (.transferLand (.refl _))
  case timeFrameReceive => exact .next (.ite (.refl _) (.ite (.takeFrame (.bump64 (.refl _))) (.bump64
      (.refl _))))
  case markerFrameReceive => exact .next (.ite (.takeFrame (.refl _)) (.refl _))
  case ptpMessageReceive => exact .next (.ptpMessage (.refl _))
  case referenceLost => exact .next (.referenceLost (.refl _))
  case referenceRateCheck => exact .next (.rateCheck (.refl _))
  case referenceReturn => exact .next (.ite (.refl _) (.ytReturn (.refl _)))
  case referenceQualified => exact .next (.referenceQualified (.refl _))
  case holdoverExpiry => exact .next (.holdoverExpiry (.refl _))
  case ytmCtrlWrite => exact .next (.ytmCtrlWrite (.refl _))
  case ethFrameReceive => exact .next (.ethFrame (.refl _))
  case roceRequest => exact .next (.roceRequest (.refl _))
  case contributionSend => exact .next (.meeting (.refl _) fun _ => .contribute (.refl _))
  case childSumReceive => exact .next (.childSum (.refl _))
  case parentClose => exact .next (.parentClose (.refl _))
  case collectiveResultReceive => exact .next (.resultArrives (.refl _))
  case a2aRowsReceive => exact .next (.a2aReceive (.refl _))
  case whistleMessageReceive => exact .next (.whistleReceive (.refl _))
  case musCancel => exact .next (.ite (.refl _) (.musCancel (.refl _)))
  case resetMarkReceive => exact .next (.collReset (.refl _))
  case ostEnable => exact .next (.ite (.whenLive (.refl _) (.ostCtrlWrite (.refl _))) (.refl _))
  case ostDisable => exact .next (.ite (.refl _) (.whenLive (.refl _) (.ostCtrlWrite (.refl _))))
  case poolFramesWrite => exact .next (.whenLive (.refl _) (.poolFramesWrite (.refl _)))
  case ostPartFramesWrite => exact .next (.partFramesWrite (.refl _))
  case pedPartNodesWrite => exact .next (.partNodesWrite (.refl _))
  case pedKeyWrite => exact .next (.pedKeyWrite (.refl _))
  case prtEnable => exact .next (.prtCtrlWrite (.refl _))
  case prtRelease => exact .next (.prtCtrlWrite (.refl _))
  case releaseScrub => exact .next (.ite (.scrub (.refl _)) (.refl _))
  case releaseDone => exact .next (.releaseDone (.refl _))
  case prtWhistleWrite => exact .next (.prtCtrlWrite (.refl _))
  case prtConfigWrite => exact .next (.prtConfigWrite (.refl _))
  case isolateWrite => exact .next (.isolateWrite (.refl _))
  case windowMapWrite => exact .next (.windowWrite (.refl _))
  case clkCtrlWrite => exact .next (.clkCtrlWrite (.refl _))
  case clkSscWrite => exact .next (.clkSscWrite (.refl _))
  case clkBoundsWrite => exact .next (.clkBoundsWrite (.refl _))
  case clockRefFault => exact .next (.refFault (.refl _))
  case loopLockLoss => exact .next (.lockLoss (.refl _))
  case clockGate => exact .next (.withClk (.refl _))
  case thermalSample => exact .next (.thermalSample (.refl _))
  case emergencyThrottle => exact .next (.ite (.withClk (.refl _)) (.refl _))
  case emergencyEnd => exact .next (.emergencyEnd (.refl _))
  case vinSample => exact .next (.vinSample (.refl _))
  case vinHoldupEnd => exact .next (.vinHoldupEnd (.refl _))
  case vinRecovery => exact .next (.ite (.moduleReset (.refl _)) (.refl _))
  case bellDecision => exact .next (.bellDecide (.refl _))
  case bellCommit => exact .next (.bellCommit (.refl _))
  case belComplete => exact .next (.whenLive (.refl _) (.belCompleteWrite (.refl _)))
  case belPendingWrite => exact .next (.whenLive (.refl _) (.belPendingWrite (.refl _)))
  case bellDoorbellRaise => exact .next (.bellDoorbellWrite (.refl _))
  case bellDoorbellComplete => exact .next (.bellDoorbellWrite (.refl _))
  case latchRaise => exact .next (.latchRaise (.refl _))
  case powerOn => exact .next (.powerOn (.refl _))
  case perstAssert => exact .next (.ite (.refl _) (.moduleReset (.withMbs (.refl _))))
  case moduleReset => exact .next (.bootCtrlWrite (.refl _))
  case nynikWatchdog => exact .next (.ite (.refl _) (.moduleReset (.refl _)))
  case startup => exact .next (.startup (.refl _))
  case confirm => exact .next (.bootCtrlWrite (.refl _))
  case fwInstallStart => exact .next (.installStart (.refl _))
  case fwInstallComplete => exact .next (.installComplete (.refl _))
  case bootSave => exact .next (.bootSave (.refl _))
  case settingsCompaction => exact .next (.compaction (.refl _))
  case unitResetGo => exact .next (.unitResetGo (.refl _))
  case unitResetExit => exact .next (.unitResetExit (.refl _))
  case farrierHourly => exact .next (.farrierHourly (.refl _))
  case farApply => exact .next (.farApply (.refl _))
  case partFailure => exact .next (.partFailure (.refl _))
  case internalFault => exact .next (.internalFault (.refl _))
  case dayEnable => exact .next (.whenLive (.refl _) (.dayCtrlWrite (.refl _)))
  case vcdEnable => exact .next (.whenLive (.refl _) (.vcdCtrlWrite (.refl _)))
  case vcdStop => exact .next (.whenLive (.refl _) (.vcdCtrlWrite (.refl _)))
  case videoTailPoll => exact .next (.tailPoll (.hostStores (.refl _)))
  case videoAu => exact .next (.meeting (.refl _) fun _ => .videoAu (.refl _))
  case videoRelease => exact .next (.videoRelease (.refl _))
  case videoFlush => exact .next (.videoFlush (.refl _))
  case videoFrame => exact .next (.videoFrame (.refl _))
  case videoFrameDone => exact .next (.frameDone (.refl _))
  case videoTokensWrite => exact .next (.tokensWrite (.refl _))
  case videoSliceDone => exact .next (.sliceDone (.refl _))
  case videoRecordWrite => exact .next (.videoRecord (.refl _))
  case smbStatus => exact .next (.smbStatusRead (.refl _))
  case smbTempMax => exact .next (.smbRead (.refl _))
  case smbPower => exact .next (.ite (.answer (.refl _)) (.smbRead (.setFld (.refl _))))
  case smbVin => exact .next (.smbRead (.refl _))
  case smbCoolant => exact .next (.ite (.answer (.refl _)) (.smbRead (.setFld (.setFld (.refl _)))))
  case smbBoardCapRead => exact .next (.smbRead (.refl _))
  case smbBoardCapWrite => exact .next (.boardCapWrite (.refl _))
  case smbIdentity => exact .next (.smbRead (.refl _))
  case smbReservedCommand => exact .next (.ite (.refl _) (.ite (.mbsViol (.answer (.refl _))) (.answer
      (.refl _))))
  case sclTimeout => exact .next (.sclTimeout (.refl _))
  case controllerNackRetry => exact .next (.nackRetry (.refl _))
  case busRecovery => exact .next (.ite (.refl _) (.recoverySet (.refl _)))
  case busRetry => exact .next (.mbsCtrlWrite (.refl _))
  case jtagIdcode => exact .next (.answer (.setIr (.refl _)))
  case jtagSamplePreload => exact .next (.withMbs (.setIr (.refl _)))
  case jtagExtest => exact .next (.perstOnly (.refl _))
  case jtagClamp => exact .next (.perstOnly (.refl _))
  case jtagHighz => exact .next (.perstOnly (.refl _))
  case jtagBypass => exact .next (.jtagBypass (.refl _))
  case clockRefReady => exact .next (.refReady (.refl _))
  case ethPortLinkChange => exact .next (.ite (.setFld (.setFld (.refl _))) (.setFld (.refl _)))

theorem exec_frame {c : Instr} (h : exec c s = .next t) : Frame c.touches s t := by
  obtain ⟨u, e, hu⟩ := exec_frames c s
  obtain rfl : t = u := by simpa [h] using e
  exact hu

/-- A part that a command is not listed for is as it was. -/
theorem exec_same {c : Instr} (h : exec c s = .next t) (hr : c.resetsModule = false) (k : Piece)
    (hk : c.mayChange k = false) : k.Same s t :=
  (exec_frame h).same k (Instr.not_touches hr hk)

theorem exec_memWf {c : Instr} (h : exec c s = .next t) (hs : s.memWf) : t.memWf := (exec_frame h).wf hs

/-- Settles O3, by the frame of every function that a command's meaning calls. -/
theorem commandsChangeOnlyTheirUnits : Obligations.CommandsChangeOnlyTheirUnits := by
  unfold Obligations.CommandsChangeOnlyTheirUnits
  intro c s t h hr
  have same := exec_same h hr
  exact ⟨same .hostMem, same .gddr, same .scratch, same .shedData, same .descriptors, same .messages, same .plans,
    same .kv, same .chutes, same .halter, same .sequencers, same .drovers, same .shed, same .gddrs, same .loft,
    same .free, same .links, same .yardTime, same .ethernet, same .muster, same .partitions, same .clocks,
    same .flash, same .farrier, same .video, same .board⟩

/-- Settles O4: an idle step changes nothing, and every command keeps the memories canonical. -/
theorem stepKeepsMemoriesCanonical : Obligations.StepKeepsMemoriesCanonical := by
  unfold Obligations.StepKeepsMemoriesCanonical
  intro s t hs h
  unfold step at h
  split at h
  · cases h
    exact hs
  · exact exec_memWf h hs

/-- Settles O5. -/
theorem resetMemoriesCanonical : Obligations.ResetMemoriesCanonical := State.memWf_reset

end Machine

end Sys2Proof

namespace Sys2Proof.Machine

/-! ## Register accesses -/

/-- A live function's access that its chapters allow passes. -/
theorem throughBar_pass {s t : State} {fn off : Nat} {w : Bool} (hl : s.fnLive fn = true)
    (ha : s.mayAccess fn off w = true) : throughBar s fn off w t = t := by
  simp [throughBar, hl, ha]

/-- The RW bits of a register as `writeRw` leaves them. -/
theorem State.reg_writeRw_same {s : State} {off inst : Nat} {v : Word} {r : RegRow} (hr : rowOf off = some r) :
    (s.writeRw off inst v).reg off inst = (s.reg off inst &&& ~~~accMask r .rw) ||| (v &&& accMask r .rw) := by
  simp [State.writeRw, hr]

/-- `writeRw` leaves every other register. -/
theorem State.reg_writeRw_ne {s : State} {off inst o j : Nat} {v : Word} (h : regKey off inst ≠ regKey o j) :
    (s.writeRw off inst v).reg o j = s.reg o j := by
  unfold State.writeRw
  split
  · rfl
  · exact s.reg_setReg_ne _ h

/-! ### Registers without rules of their own (R8, R9) -/

/-- The registers of RegisterWriteByFieldType: none has a rule of its own. -/
def plainRegs : List Nat :=
  [HCI_STATUS, BEL_STATUS, BEL_CTRL, CLU_WIN_STATUS, CLU_HLT_STATUS, CLU_HLT_WDOG_LIMIT, SEQ_STATUS,
    COR_ATT_STATUS, TEN_OPT_STATUS, LFT_STATUS, LFT_CFG, OST_STATUS, YMS_STATUS, YMS_CFG, YMS_WORK_MIB,
    YMS_EXPERT_BUDGET, YMS_MIG_LIMIT, YMS_SHED_PAGE, YMS_SHED_PAGES, MUS_STATUS, DAY_STATUS]

/-- No plain register is a select register, half of a pair, or a status word with a SEL_ERR per function. -/
theorem plainRegs_no_rule : ∀ off ∈ plainRegs, isSelect off = false ∧ isLo off = false ∧ isHi off = false ∧
    ¬(off = GDR_STATUS ∨ off = VCD_STATUS) := by
  decide

/-- A virtual function's write to a plain register that the map lists reaches the rule of field types. -/
theorem regWrite_plain {off fn : Nat} (s : State) (val devSet : Word) (hfn : fn ≠ 0) (hoff : off ∈ plainRegs)
    (hr : (rowOf off).isNone = false) :
    regWrite s fn off val devSet = plainWrite s off (s.regInst fn off) val devSet := by
  obtain ⟨hsel, hlo, hhi, hst⟩ := plainRegs_no_rule off hoff
  have hb : ownerBlind fn off = false := by simp [ownerBlind, hfn]
  unfold regWrite
  simp only [hb, hr, hsel, hlo, hhi, if_neg hst, Bool.or_self, Bool.false_eq_true, if_false]
  clear hr hsel hlo hhi hst hb
  revert hoff off
  simp only [plainRegs, List.forall_mem_cons]
  simp only [List.not_mem_nil, false_imp_iff, implies_true, and_true]
  repeat' apply And.intro
  all_goals rfl

/-- Settles O9: each of these registers is routed to the write by field types, which sets one register. -/
theorem registerWriteByFieldType : Obligations.RegisterWriteByFieldType := by
  unfold Obligations.RegisterWriteByFieldType
  intro fn off val devSet r s hfn hoff hr hl ha i
  have ht : registerWrite s fn .bar0 off val devSet = plainWrite s off i val devSet := by
    simp only [registerWrite, if_neg hfn]
    rw [throughBar_pass hl ha, regWrite_plain s val devSet hfn hoff (by rw [hr]; rfl)]
  refine ⟨plainWrite s off i val devSet, congrArg Host.Outcome.next ht, ?_⟩
  simp only [plainWrite, hr]
  exact ⟨s.reg_setReg_same .., fun o j h => s.reg_setReg_ne _ h, rfl, rfl⟩

/-! ### Select registers (R11, R12) -/

theorem selectWrite_inRange {s : State} {fn off : Nat} {val : Word} (hb : ownerBlind fn off = false)
    (hin : s.selInRange fn off val = true) :
    ∃ caps, selectWrite s fn off val =
      { s with host := { s.host with capHi := caps } }.writeRw off (s.regInst fn off) val :=
  ⟨_, by simp only [selectWrite, hb, hin, Bool.not_true, Bool.false_eq_true, if_false]; rfl⟩

theorem selectWrite_outOfRange {s : State} {fn off : Nat} {val : Word} (hb : ownerBlind fn off = false)
    (hin : s.selInRange fn off val = false) : selectWrite s fn off val = s.selErr fn off := by
  simp [selectWrite, hb, hin]

/-- The selects that R12 gives a range. -/
def rangedSelects : List Nat := [CLUSTER_SEL, GDR_SEL, LINK_SEL, BEL_SEL, VCD_CTX_SEL, OST_STREAM_ADDR]

/-- Only a select with a range can be out of it. -/
theorem State.selInRange_eq_false {s : State} {fn off : Nat} {val : Word} (h : s.selInRange fn off val = false) :
    off ∈ rangedSelects := by
  by_contra hn
  simp only [rangedSelects, List.mem_cons, List.not_mem_nil, or_false, not_or] at hn
  obtain ⟨hc, hg, hl, hb, hv, ho⟩ := hn
  simp [State.selInRange, hc, hg, hl, hb, hv, ho] at h

theorem State.reg_setFld_off (s : State) {f : Field} {o i j : Nat} (x : Nat) (hi : i < 1048576) (hj : j < 1048576)
    (h : f.off ≠ o) : (s.setFld f i x).reg o j = s.reg o j :=
  s.reg_setReg_off _ hi hj (.inl h)

/-- A refused select keeps its value: SEL_ERR stands in another register. -/
theorem State.reg_selErr {s : State} {off : Nat} (fn : Fn)
    (hoff : off ∈ rangedSelects) :
    (s.selErr fn off).reg off (s.regInst fn off) = s.reg off (s.regInst fn off) := by
  have hfn := fn.isLt
  have hlink : s.fld LINK_SEL_LINK fn < 1048576 := lt_of_lt_of_le (Nat.mod_lt _ (by decide)) (by decide)
  revert off
  simp only [rangedSelects, List.forall_mem_cons, List.not_mem_nil, false_imp_iff, implies_true, and_true]
  refine ⟨?_, ?_, ?_, ?_, ?_, ?_⟩
  · exact s.reg_setFld_off (i := fn) (j := fn) _ (by omega) (by omega) (by decide)
  · exact s.reg_setFld_off (i := 32 + fn) (j := fn) _ (by omega) (by omega) (by decide)
  · exact s.reg_setFld_off (j := fn) _ hlink (by omega) (by decide)
  · exact s.reg_setFld_off (i := fn) (j := fn) _ (by omega) (by omega) (by decide)
  · exact s.reg_setFld_off (i := 256 + fn) (j := fn) _ (by omega) (by omega) (by decide)
  · exact s.reg_setFld_off (i := fn - 1) (j := fn - 1) _ (by omega) (by omega) (by decide)

/-- Settles O8: SEL_ERR stands in another register than the select that is refused. -/
theorem selectWriteInRangeOrRefused : Obligations.SelectWriteInRangeOrRefused := by
  unfold Obligations.SelectWriteInRangeOrRefused
  intro fn off val r s hs hr hb hl ha i
  have ht : exec (.selectWrite fn off val) s = .next (selectWrite s fn off val) := by
    simp only [exec, execSelectWrite, if_pos hs]
    rw [throughBar_pass hl ha]
  refine ⟨_, ht, fun hin => ?_, fun hin => ?_⟩
  · obtain ⟨caps, e⟩ := selectWrite_inRange hb hin
    rw [e]
    exact State.reg_writeRw_same hr
  · rw [selectWrite_outOfRange hb hin]
    exact ⟨State.reg_selErr fn (State.selInRange_eq_false hin), rfl⟩

/-! ### Writes of a pair -/

theorem State.host_writeRw (s : State) (off inst : Nat) (v : Word) : (s.writeRw off inst v).host = s.host := by
  unfold State.writeRw
  split <;> rfl

theorem State.host_setupErr (s : State) (fn code ring : Nat) (isCq : Bool) :
    (s.setupErr fn code ring isCq).host = s.host := by
  unfold State.setupErr
  dsimp only
  rw [State.host_setFld]
  split <;> rfl

theorem State.host_ostErr (s : State) (p code : Nat) : (s.ostErr p code).host = s.host := by
  unfold State.ostErr
  dsimp only
  rw [State.host_setFld]
  split <;> rfl

theorem State.host_pairRefused (s : State) (fn lo inst : Nat) : (s.pairRefused fn lo inst).host = s.host := by
  unfold State.pairRefused
  split
  · exact s.host_setupErr ..
  · exact s.host_ostErr ..
  · rfl
  · rfl

theorem commitPair_host (s : State) (fn lo inst : Nat) (v w : Word) : (commitPair s fn lo inst v w).host
    = s.host := by
  unfold commitPair
  split
  · rw [State.host_writeRw, State.host_writeRw]
  · exact s.host_pairRefused ..

theorem isHi_add_four {off : Nat} : isHi (off + 4) = isLo off := by
  simp [isHi, isLo]

/-- The two registers of a pair have distinct keys. -/
theorem regKey_pair_ne (lo i : Nat) : regKey lo i ≠ regKey (lo + 4) i := by
  unfold regKey
  omega

/-- A pair that may change takes both halves, and no other register changes. -/
theorem commitPair_open {s : State} {fn lo i : Nat} {v w : Word} {r q : RegRow} (hr : rowOf lo = some r)
    (hq : rowOf (lo + 4) = some q) (ho : s.pairOpen fn lo i = true) :
    (commitPair s fn lo i v w).reg lo i = (s.reg lo i &&& ~~~accMask r .rw) ||| (v &&& accMask r .rw) ∧
      (commitPair s fn lo i v w).reg (lo + 4) i =
        (s.reg (lo + 4) i &&& ~~~accMask q .rw) ||| (w &&& accMask q .rw) ∧
      ∀ o j, regKey lo i ≠ regKey o j → regKey (lo + 4) i ≠ regKey o j →
        (commitPair s fn lo i v w).reg o j = s.reg o j := by
  have hne := regKey_pair_ne lo i
  simp only [commitPair, ho, if_true]
  refine ⟨?_, ?_, fun o j h h' => ?_⟩
  · rw [State.reg_writeRw_ne hne.symm, State.reg_writeRw_same hr]
  · rw [State.reg_writeRw_same hq, State.reg_writeRw_ne hne]
  · rw [State.reg_writeRw_ne h', State.reg_writeRw_ne h]

/-- A write to a _LO register that has RW bits is held. -/
theorem regLoWrite_eq {s : State} {fn off : Nat} {val : Word} {r : RegRow} (hr : rowOf off = some r)
    (hw : accMask r .rw ≠ 0) (hb : ownerBlind fn off = false) :
    regLoWrite s fn off val = { s with host := { s.host with
      pendLo := tabPut s.host.pendLo (pendKey fn off (s.regInst fn off)) val } } := by
  simp only [regLoWrite, hr, hb, beq_eq_false_iff_ne.2 hw, Bool.or_self, Bool.false_eq_true, if_false]

/-- What a _HI register's write commits, its own pending half taken. -/
theorem regHiWrite_eq {s : State} {fn lo : Nat} {val : Word} {r : RegRow} (hr : rowOf lo = some r)
    (hw : accMask r .rw ≠ 0) (hb : ownerBlind fn (lo + 4) = false) :
    regHiWrite s fn (lo + 4) val =
      commitPair { s with host := { s.host with
        pendLo := tabDel s.host.pendLo (pendKey fn lo (s.regInst fn lo)) } } fn lo (s.regInst fn lo)
        ((tabFind s.host.pendLo (pendKey fn lo (s.regInst fn lo))).getD (s.reg lo (s.regInst fn lo))) val := by
  simp only [regHiWrite, Nat.add_sub_cancel, hr, hb, beq_eq_false_iff_ne.2 hw, Bool.or_self, Bool.false_eq_true,
    if_false]

/-! ### Reads of a pair -/

/-- Keys put one after another into a table each hold their value. -/
theorem tabFind_foldl_capture (f : Nat → Word) (fn k : Nat) (l : List Nat) (t : Tab Word) (h : k ∈ l) :
    tabFind (l.foldl (fun t k => tabPut t (capKey fn k) (f k)) t) (capKey fn k) = some (f k) := by
  induction l using List.reverseRecOn with
  | nil => cases h
  | append_singleton l x ih =>
    rw [List.foldl_append, List.foldl_cons, List.foldl_nil, tabFind_tabPut]
    split
    · next e => rw [Nat.add_left_cancel e]
    · next e =>
      refine ih ((List.mem_append.1 h).resolve_right fun hx => e ?_)
      rw [List.mem_singleton.1 hx]

/-- A register's value depends on nothing that a read changes. -/
theorem State.readReg_of_none {s : State} {fn off : Nat} (hl : s.fnLive fn = true)
    (ha : s.mayAccess fn off false = true) (hb : ownerBlind fn off = false)
    (hc : isLo off = false → tabFind s.host.capHi (capKey fn off) = none) :
    s.readReg fn off = s.regNow fn off := by
  cases hlo : isLo off <;> simp [State.readReg, hl, ha, hb, hlo, hc]

theorem State.readReg_of_capture {s : State} {fn off : Nat} {v : Word} (hl : s.fnLive fn = true)
    (ha : s.mayAccess fn off false = true) (hb : ownerBlind fn off = false) (hlo : isLo off = false)
    (hc : tabFind s.host.capHi (capKey fn off) = some v) : s.readReg fn off = v := by
  simp [State.readReg, hl, ha, hb, hlo, hc]

/-- A read of a _LO register holds the upper half for the function's read of it. -/
theorem regLoRead_captures {s : State} {fn off : Nat} (hlo : isLo off = true) (hb : ownerBlind fn off = false) :
    tabFind (regLoRead s fn off).host.capHi (capKey fn (off + 4)) = some (s.regNow fn (off + 4)) := by
  simp only [regLoRead, hb, hlo, if_true, Bool.false_eq_true, if_false]
  exact tabFind_foldl_capture (s.regNow fn) fn (off + 4) _ _ (by simp)

/-- A read of a _HI register lets go of what was captured of it. -/
theorem regLoRead_releases {s : State} {fn off : Nat} (hlo : isLo off = false) (hhi : isHi off = true)
    (hb : ownerBlind fn off = false) : tabFind (regLoRead s fn off).host.capHi (capKey fn off) = none := by
  simp [regLoRead, hb, hlo, hhi, tabFind_tabDel]

theorem exec_regLoRead {s : State} {fn : Fn} {off : Nat} (hl : s.fnLive fn = true)
    (ha : s.mayAccess fn off false = true) : exec (.regLoRead fn off) s = .next (regLoRead s fn off) :=
  congrArg _ (throughBar_pass hl ha)

theorem exec_regLoWrite {s : State} {fn : Fn} {off : Nat} {val : Word} (hlo : isLo off = true)
    (hl : s.fnLive fn = true) (ha : s.mayAccess fn off true = true) :
    exec (.regLoWrite fn off val) s = .next (regLoWrite s fn off val) := by
  simp only [exec, execRegLoWrite, if_pos hlo]
  rw [throughBar_pass hl ha]

theorem exec_regHiWrite {s : State} {fn : Fn} {off : Nat} {val : Word} (hhi : isHi off = true)
    (hl : s.fnLive fn = true) (ha : s.mayAccess fn off true = true) :
    exec (.regHiWrite fn off val) s = .next (regHiWrite s fn off val) := by
  simp only [exec, execRegHiWrite, if_pos hhi]
  rw [throughBar_pass hl ha]

/-- Settles O7: the pending halves and the captured halves are tables, read after one entry is put or removed. -/
theorem pairHalvesCommitTogether : Obligations.PairHalvesCommitTogether := by
  unfold Obligations.PairHalvesCommitTogether
  refine ⟨fun fn off val r s hlo hr hw hb hl ha => ?_, fun fn lo val r q s hhi hr hq hw hb hl ha _ => ?_,
    fun fn off s hlo hb hl ha => ?_⟩
  · refine ⟨_, exec_regLoWrite hlo hl ha, ?_⟩
    rw [regLoWrite_eq hr hw hb]
    exact ⟨rfl, by rw [tabFind_tabPut, if_pos rfl], fun k hk => by rw [tabFind_tabPut, if_neg hk.symm]⟩
  · refine ⟨_, exec_regHiWrite hhi hl ha, ?_⟩
    rw [regHiWrite_eq hr hw hb, commitPair_host]
    exact ⟨by rw [tabFind_tabDel, if_pos rfl], fun ho => commitPair_open hr hq ho,
      fun ho => if_neg (Bool.eq_false_iff.1 ho)⟩
  · have hv : s.readReg fn off = s.regNow fn off :=
      State.readReg_of_none hl ha hb fun h => absurd hlo (Bool.eq_false_iff.1 h)
    refine ⟨_, exec_regLoRead hl ha, rfl, congrArg (fun v : Word => [v.toNat]) hv, fun ha' hb' => ?_⟩
    have hv' : (regLoRead s fn off).readReg fn (off + 4) = s.regNow fn (off + 4) := by
      cases h : isLo (off + 4)
      · exact State.readReg_of_capture hl ha' hb' h (regLoRead_captures hlo hb)
      · exact State.readReg_of_none hl ha' hb' fun h' => absurd h (Bool.eq_false_iff.1 h')
    exact ⟨hv', _, exec_regLoRead hl ha', rfl, congrArg (fun v : Word => [v.toNat]) hv',
      State.readReg_of_none hl ha' hb' fun h => regLoRead_releases h (isHi_add_four.trans hlo) hb'⟩

end Sys2Proof.Machine

namespace Sys2Proof.Machine

variable {F G : List Piece} {s t u : State}

/-! ## Steps -/

/-! ### The partitions' cores -/

/-- The PRT registers of the partitions (R413) read the same in two states. -/
structure SamePrt (s t : State) : Prop where
  reg : ∀ o, 0x400100 ≤ o → o < 0x400900 → t.reg o = s.reg o

theorem SamePrt.refl (s : State) : SamePrt s s := ⟨fun _ _ _ => rfl⟩

theorem SamePrt.trans (h : SamePrt s t) (h' : SamePrt t u) : SamePrt s u :=
  ⟨fun o hl hh => (h'.reg o hl hh).trans (h.reg o hl hh)⟩

theorem SamePrt.of_regs (h : t.regs = s.regs) : SamePrt s t :=
  ⟨fun o _ _ => by simp [State.reg, h]⟩

theorem SamePrt.foldl {β : Type} {g : State → β → State} (l : List β) (hg : ∀ t x, SamePrt t (g t x)) :
    SamePrt s (l.foldl g s) := by
  induction l generalizing s with
  | nil => exact .refl s
  | cons x l ih => exact (hg s x).trans ih

theorem SamePrt.ite {c : Prop} [Decidable c] (ht : SamePrt s t) (hu : SamePrt s u) :
    SamePrt s (if c then t else u) := by
  split <;> assumption

/-- A partition has the same cores where the PRT registers read the same. -/
theorem SamePrt.coresOf (h : SamePrt s t) (p : Part) : t.coresOf p = s.coresOf p := by
  have hp := p.isLt
  have hs : t.reg (0x400104 + 0x40 * p) = s.reg (0x400104 + 0x40 * p) := h.reg _ (by omega) (by omega)
  have hc : t.reg (0x400108 + 0x40 * p) = s.reg (0x400108 + 0x40 * p) := h.reg _ (by omega) (by omega)
  simp [State.coresOf, State.hasCluster, State.prtState, State.fld, hs, hc]

/-- A register of a block above PRT, whatever its index, is none of PRT's. -/
theorem State.setReg_samePrt {o : Nat} (s : State) (i : Nat) (v : Word) (ho : 0x400900 ≤ o) :
    SamePrt s (s.setReg o i v) :=
  ⟨fun o' _ hh => s.reg_setReg_ne v (by unfold regKey; omega)⟩

theorem State.setFld_samePrt {f : Field} (s : State) (i x : Nat) (ho : 0x400900 ≤ f.off) :
    SamePrt s (s.setFld f i x) := s.setReg_samePrt i _ ho

theorem State.bump_samePrt {f : Field} (s : State) (i n : Nat) (ho : 0x400900 ≤ f.off) :
    SamePrt s (s.bump f i n) := s.setFld_samePrt i _ ho

theorem State.setReg64_samePrt {o : Nat} (s : State) (i v : Nat) (ho : 0x400900 ≤ o) :
    SamePrt s (s.setReg64 o i v) :=
  (s.setReg_samePrt i _ ho).trans (State.setReg_samePrt _ i _ (by omega))

theorem State.bump64_samePrt {o : Nat} (s : State) (i n : Nat) (ho : 0x400900 ≤ o) :
    SamePrt s (s.bump64 o i n) := s.setReg64_samePrt i _ ho

/-- A register of a block below PRT is none of PRT's, where indices fit the key. -/
theorem State.setFld_samePrt_below {f : Field} (s : State) {i : Nat} (x : Nat) (ho : f.off < 0x400100)
    (hi : i < 1048576) : SamePrt s (s.setFld f i x) :=
  ⟨fun o' hl _ => s.reg_setFld_ne x (by unfold regKey; omega)⟩

/-- A source raised, where its index fits the key. -/
theorem State.bellRaise_samePrt (s : State) {fn src : Nat} (hi : bellInst fn src < 1048576) :
    SamePrt s (s.bellRaise fn src) := by
  have hfn : fn < 1048576 := lt_of_le_of_lt (by unfold bellInst; omega) hi
  have hb : ∀ b, SamePrt s (s.setBellP fn src b) := fun b =>
    s.setFld_samePrt_below (f := ⟨BEL_PENDING, src % 32, 1⟩) _ (show BEL_PENDING < _ by decide) hi
  unfold State.bellRaise
  refine .ite (.refl s) (.ite ?_ (.ite (hb true) (.ite (hb true) ?_)))
  · exact s.setFld_samePrt_below _ (by decide) hfn
  · exact s.setFld_samePrt_below _ (by decide) hfn

theorem State.raise_samePrt (s : State) {fn src : Nat} (hi : bellInst fn src < 1048576) :
    SamePrt s (s.raise fn src) := by
  unfold State.raise
  exact .ite (.of_regs rfl) (s.bellRaise_samePrt hi)

theorem State.countGddr_samePrt (s : State) (chan n : Nat) (write : Bool) : SamePrt s (s.countGddr chan n write) := by
  unfold State.countGddr
  refine .ite (.refl s) (s.bump64_samePrt chan n ?_)
  split <;> decide

theorem State.writeBack_samePrt (s : State) (c : Nat) (l : LoftLine) : SamePrt s (s.writeBack c l) := by
  unfold State.writeBack
  have h : SamePrt s (if (sectorsOf l.dirty).length = 0 then s
      else s.bump LFT_WRITEBACKS_COUNT c (sectorsOf l.dirty).length) :=
    .ite (.refl s) (s.bump_samePrt c _ (by decide))
  refine .trans ?_ (State.countGddr_samePrt ..)
  exact h.trans (.of_regs rfl)

theorem State.evict_samePrt (s : State) (c set way cls : Nat) : SamePrt s (s.evict c set way cls) := by
  unfold State.evict
  split
  · exact .refl s
  · next l _ =>
    have h : ∀ ls, SamePrt s ((s.writeBack c l).setLoftLines c set ls) := fun ls =>
      (s.writeBack_samePrt c l).trans (.of_regs rfl)
    dsimp only
    split
    · exact (h _).trans (State.bump_samePrt _ c 1 (by decide))
    · exact (h _).trans (State.bump_samePrt _ c 1 (by decide))
    · exact (h _).trans (State.bump_samePrt _ c 1 (by decide))
    · exact h _

theorem State.allocate_samePrt {c set line : Nat} {due : Option Nat} (h : s.allocate c set line due = some t) :
    SamePrt s t := by
  unfold State.allocate at h
  split at h
  · cases h
  · cases h
    exact (s.evict_samePrt ..).trans (.of_regs rfl)

theorem State.keepStale_samePrt (s : State) (owner off : Nat) : SamePrt s (s.keepStale owner off) := by
  unfold State.keepStale
  exact .ite (.refl s) (.of_regs rfl)

theorem State.staleFills_samePrt (s : State) (line sec : Nat) : SamePrt s (s.staleFills line sec) :=
  .of_regs rfl

theorem State.loftWrite_samePrt (s : State) (p off : Nat) (hint : Option Nat) :
    SamePrt s (s.loftWrite p off hint) := by
  have hold : ∀ t : State, SamePrt t (t.keepStale (p + 1) off) := fun t => t.keepStale_samePrt ..
  have around : ∀ c l sec ch, SamePrt s
      (((s.bump LFT_WRITE_AROUND_COUNT c).staleFills l sec).countGddr ch 1 true) := fun c _ _ _ =>
    ((s.bump_samePrt c 1 (by decide)).trans (State.staleFills_samePrt ..)).trans (State.countGddr_samePrt ..)
  unfold State.loftWrite
  dsimp only
  refine .ite ((hold s).trans (.of_regs rfl)) ?_
  split
  · exact around ..
  · split
    · next t ht => exact ((State.allocate_samePrt ht).trans (hold t)).trans (.of_regs rfl)
    · exact ((hold s).trans (State.bump_samePrt (f := LFT_SET_BUSY_COUNT) _ _ 1 (by decide))).trans (.of_regs rfl)

theorem State.writeMem_samePrt (s : State) (owner off : Nat) (bs : List Byte) (hint : Option Nat) :
    SamePrt s (s.writeMem owner off bs hint) := by
  unfold State.writeMem
  refine .trans (.foldl _ fun t o => .ite (t.countGddr_samePrt ..) (t.loftWrite_samePrt ..)) (.of_regs rfl)

theorem State.dayRecord_samePrt (s : State) (fn type plan step : Nat) (body ext : List Byte) :
    SamePrt s (s.dayRecord fn type plan step body ext) := by
  have hblocks : ∀ (t : State) n bs, SamePrt t (t.dayWriteBlocks fn n bs) := fun t n bs =>
    .foldl _ fun u k => u.writeMem_samePrt ..
  unfold State.dayRecord
  refine .ite (.refl s) ?_
  dsimp only
  refine .trans ?_ (State.bump64_samePrt _ fn 1 (by decide))
  refine .trans ?_ (State.setReg64_samePrt _ fn _ (by decide))
  refine .trans ?_ (hblocks ..)
  refine .trans ?_ (State.setReg64_samePrt _ fn _ (by decide))
  exact .ite (.refl s) (s.setFld_samePrt fn 1 (by decide))

theorem State.disarm_samePrt (s : State) (p : Nat) : SamePrt s (s.disarm p) := by
  refine .trans (.trans ?_ (State.setFld_samePrt _ (p + 1) 0 (by decide)))
      (State.setFld_samePrt _ (p + 1) 0 (by decide))
  exact .of_regs rfl

theorem State.replayEnd_samePrt (s : State) (p : Part) (st : Step) (status : Nat) :
    SamePrt s (s.replayEnd p st status) := by
  have hp := p.isLt
  unfold State.replayEnd
  split
  · extract_lets rs old good seq r v left y w
    have hr : SamePrt s r := s.dayRecord_samePrt ..
    have hv : SamePrt s v := by
      refine .ite (hr.trans (State.bump_samePrt _ (p + 1) 1 (by decide))) ?_
      refine .trans ?_ (State.raise_samePrt _ (by unfold bellInst; omega))
      refine .trans ?_ (State.setFld_samePrt _ (p + 1) 1 (by decide))
      exact hr.trans (State.bump_samePrt _ (p + 1) 1 (by decide))
    have hw : SamePrt v w := .of_regs rfl
    exact .ite (hv.trans (State.disarm_samePrt ..))
      ((hv.trans hw).trans (State.setFld_samePrt _ (p + 1) _ (by decide)))
  · exact .refl s

theorem State.cancelPf_samePrt (s : State) (q : Prefetch → Bool) : SamePrt s (s.cancelPf q) := by
  unfold State.cancelPf
  refine .ite (.refl s) (.trans ?_ (.foldl _ fun t g => t.bump_samePrt (f := YMS_PF_CANCELLED_COUNT) _ 1 (by decide)))
  exact .of_regs rfl

/-! ### What the end of a step leaves -/

theorem Frame.yard_eq (h : Frame F s t) (hF : F.contains .plans = false) : t.yard = s.yard := h.same .plans hF

theorem Frame.drovers_eq (h : Frame F s t) (hF : F.contains .drovers = false) : t.drovers = s.drovers :=
  h.same .drovers hF

theorem Frame.seqs_eq (h : Frame F s t) (hF : F.contains .sequencers = false) : t.seqs = s.seqs :=
  (h.same .sequencers hF).1

theorem Frame.flights_eq (h : Frame F s t) (hF : F.contains .descriptors = false) :
    t.host.flights = s.host.flights :=
  (h.same .descriptors hF).1

theorem State.steps_dayRecord (s : State) (fn type plan step : Nat) (body ext : List Byte) :
    (s.dayRecord fn type plan step body ext).yard.steps = s.yard.steps := by
  rw [Frame.yard_eq (F := [.gddr, .loft]) (.dayRecord (.refl s)) rfl]

theorem State.steps_disarm (s : State) (p : Nat) : (s.disarm p).yard.steps = s.yard.steps := by
  unfold State.disarm
  rw [State.yard_setFld, State.yard_setFld]

theorem State.steps_replayEnd (s : State) (p : Nat) (st : Step) (status : Nat) :
    (s.replayEnd p st status).yard.steps = s.yard.steps := by
  unfold State.replayEnd
  split
  · extract_lets rs old good seq r v left y w
    have hr : r.yard.steps = s.yard.steps := s.steps_dayRecord ..
    have hv : v.yard = r.yard :=
      Frame.yard_eq (F := []) (.ite (.bump (.refl r)) (.raise (.setFld (.bump (.refl r))))) rfl
    have hw : v.yard.steps = s.yard.steps := by rw [hv, hr]
    clear_value v
    split
    · exact (v.steps_disarm p).trans hw
    · rw [State.yard_setFld]
      exact hw
  · rfl

theorem State.steps_cancelPf (s : State) (q : Prefetch → Bool) :
    (s.cancelPf q).yard.steps = s.yard.steps := by
  unfold State.cancelPf
  extract_lets gone mark y l w
  have hw : (gone.foldl (fun (s : State) g => s.bump YMS_PF_CANCELLED_COUNT g.part) w).yard = w.yard :=
    Frame.yard_eq (F := []) (.foldl (.refl w) fun _ _ => .bump (.refl _)) rfl
  split
  · rfl
  · exact (congrArg YardSide.steps hw).trans rfl

/-- The end of a step empties its partition's cores and drovers, and leaves every other partition's step. -/
theorem State.clearStep_clears (s : State) (p : Nat) :
    (s.clearStep p).stepOf p = none ∧ (∀ c ∈ s.coresOf p, (s.clearStep p).seq c = none) ∧
      (∀ d ∈ (s.clearStep p).drovers, d.2.part ≠ p) ∧ ∀ q, q ≠ p → (s.clearStep p).stepOf q = s.stepOf q := by
  unfold State.clearStep
  extract_lets cores a b
  have ha : Frame [] s a := .foldl (.refl s) fun _ _ => .setFld (.setFld (.setFld (.refl _)))
  have hb : b.yard.steps = s.yard.steps :=
    congrArg YardSide.steps
      (Frame.yard_eq (F := []) (.foldl ha fun _ _ => .ite (.setFld (.refl _)) (.refl _)) rfl)
  refine ⟨?_, fun c hc => ?_, fun d hd => ?_, fun q hq => ?_⟩
  · simp [State.stepOf, tabFind_tabDel]
  · simp only [State.seq, tabFind_tabDrop]
    rw [if_pos (by simpa using hc)]
  · simpa using (List.mem_filter.1 hd).2
  · simp only [State.stepOf, tabFind_tabDel, if_neg hq.symm, hb]

theorem State.yard_unloadPlan (s : State) (p id : Nat) : (s.unloadPlan p id).yard = (s.forgetPlan p id).yard :=
  Frame.yard_eq (F := []) (.setFld (.hideChutes (.refl _))) rfl

theorem State.steps_forgetPlan (s : State) (p id : Nat) : (s.forgetPlan p id).yard.steps = s.yard.steps := by
  unfold State.forgetPlan
  extract_lets k held rest a b y
  have hb : b.yard.steps = s.yard.steps :=
    congrArg YardSide.steps ((State.yard_setFld ..).trans (State.yard_setFld ..))
  clear_value b
  exact hb

theorem State.steps_unloadPlan (s : State) (p id : Nat) : (s.unloadPlan p id).yard.steps = s.yard.steps := by
  rw [State.yard_unloadPlan, State.steps_forgetPlan]

theorem State.planOf_unloadPlan (s : State) (p id : Nat) : (s.unloadPlan p id).planOf p id = none := by
  simp only [State.planOf, State.yard_unloadPlan, State.forgetPlan, tabFind_tabDel, if_true]

/-! ### The status of a step (R16) -/

/-- The higher of two statuses: the first where they are equal. -/
def higher (a b : Nat × Nat) : Nat × Nat := if a.1 < b.1 then b else a

theorem stepStatus_eq (st : Step) : stepStatus st = (stepStatuses st).foldl higher (stOK, 0) := rfl

/-- A fold of `higher` is one of the statuses met, and none met is above it. -/
theorem foldl_higher (l : List (Nat × Nat)) (a : Nat × Nat) :
    l.foldl higher a ∈ a :: l ∧ ∀ x ∈ a :: l, x.1 ≤ (l.foldl higher a).1 := by
  induction l generalizing a with
  | nil => simp
  | cons b l ih =>
    obtain ⟨hmem, hmax⟩ := ih (higher a b)
    have hab : higher a b = a ∨ higher a b = b := by unfold higher; split <;> simp
    have ha : a.1 ≤ (higher a b).1 ∧ b.1 ≤ (higher a b).1 := by unfold higher; split <;> omega
    have htop := hmax _ (List.mem_cons_self ..)
    refine ⟨?_, fun x hx => ?_⟩
    · rcases List.mem_cons.1 hmem with h | h
      · rw [List.foldl_cons, h]
        rcases hab with h' | h' <;> simp [h']
      · simp [h]
    · rcases List.mem_cons.1 hx with rfl | hx
      · exact ha.1.trans htop
      · rcases List.mem_cons.1 hx with rfl | hx
        · exact ha.2.trans htop
        · exact hmax x (List.mem_cons_of_mem _ hx)

theorem stepStatus_mem (st : Step) : stepStatus st ∈ stepStatuses st := by
  rcases List.mem_cons.1 (foldl_higher (stepStatuses st) (stOK, 0)).1 with h | h
  · rw [stepStatus_eq, h]
    simp [stepStatuses]
  · exact h

theorem le_stepStatus {st : Step} {x : Nat × Nat} (hx : x ∈ stepStatuses st) : x.1 ≤ (stepStatus st).1 :=
  (foldl_higher _ _).2 x (List.mem_cons_of_mem _ hx)

/-! ### GNF -/

/-- A loop leaves what each turn leaves. -/
theorem foldl_keeps {α β : Type} (π : State → α) {g : State → β → State} (hg : ∀ s x, π (g s x) = π s)
    (l : List β) (s : State) : π (l.foldl g s) = π s := by
  induction l generalizing s with
  | nil => rfl
  | cons x l ih => exact (ih _).trans (hg s x)

theorem State.stepOf_updStep_same {p : Nat} {st : Step} (f : Step → Step) (h : s.stepOf p = some st) :
    (s.updStep p f).stepOf p = some (f st) := by
  simp only [State.updStep, h]
  simp only [State.stepOf, tabFind_tabPut, if_true]

theorem State.stepOf_setFld (s : State) (f : Field) (i x p : Nat) : (s.setFld f i x).stepOf p = s.stepOf p := by
  unfold State.stepOf
  rw [State.yard_setFld]

theorem State.host_updStep (s : State) (p : Nat) (f : Step → Step) : (s.updStep p f).host = s.host := by
  unfold State.updStep
  split <;> rfl

theorem State.mem_updStep (s : State) (p : Nat) (f : Step → Step) : (s.updStep p f).mem = s.mem := by
  unfold State.updStep
  split <;> rfl

theorem State.updStep_samePrt (s : State) (p : Nat) (f : Step → Step) : SamePrt s (s.updStep p f) := by
  unfold State.updStep
  split
  · exact .refl s
  · exact .of_regs rfl

/-- A collective of gradients of the step that is still open. -/
def gradOpen (st : Step) (pl : Plan) : Bool :=
  st.colls.any fun r => !r.done && ((pl.colls[r.coll]?).map (·.grad)).getD false

theorem gradOpen_eq_true {st : Step} {pl : Plan} : gradOpen st pl = true ↔
    ∃ r ∈ st.colls, r.done = false ∧ ((pl.colls[r.coll]?).map (·.grad)).getD false = true := by
  simp [gradOpen]

theorem gnfFinal_idle {p : Nat} {st : Step} {pl : Plan} (hst : s.stepOf p = some st)
    (hpl : s.stepPlan p = some pl) (h : st.gnfFinal = true ∨ st.running = false ∨ gradOpen st pl = true) :
    gnfFinal s p = s := by
  have hc : (st.gnfFinal || !st.running || gradOpen st pl) = true := by
    rcases h with h | h | h <;> simp [h]
  simp only [gnfFinal, hst, hpl]
  exact if_pos hc

/-- GNF as a core shows it once it is final. -/
def showGnf (gnf byLocal : Bool) (s : State) (c : Nat) : State :=
  let s := (s.setFld TEN_OPT_STATUS_GNF c gnf.toNat).setFld TEN_OPT_STATUS_GNF_FINAL c 1
  if byLocal then s.setFld TEN_OPT_STATUS_GUARD_SRC c (s.fld TEN_OPT_STATUS_GUARD_SRC c ||| 2) else s

theorem showGnf_flags (g b : Bool) (s : State) (c : Nat) :
    (showGnf g b s c).flag TEN_OPT_STATUS_GNF_FINAL c = true ∧ (showGnf g b s c).flag TEN_OPT_STATUS_GNF c = g := by
  let t := (s.setFld TEN_OPT_STATUS_GNF c g.toNat).setFld TEN_OPT_STATUS_GNF_FINAL c 1
  have hf : t.fld TEN_OPT_STATUS_GNF_FINAL c = 1 := State.fld_setFld_same _ _ c 1 (by decide)
  have hg : t.fld TEN_OPT_STATUS_GNF c = g.toNat := by
    refine (State.fld_setFld_beside (f := TEN_OPT_STATUS_GNF_FINAL) (g := TEN_OPT_STATUS_GNF) _ c 1
        (by decide) rfl (by decide)).trans ?_
    refine (State.fld_setFld_same _ _ c _ (by decide)).trans ?_
    cases g <;> rfl
  have hbit : (g.toNat == 1) = g := by cases g <;> rfl
  simp only [State.flag]
  cases b
  · exact ⟨congrArg (· == 1) hf, (congrArg (· == 1) hg).trans hbit⟩
  · refine ⟨congrArg (· == 1) (.trans ?_ hf), (congrArg (· == 1) (.trans ?_ hg)).trans hbit⟩
    · exact State.fld_setFld_beside t c _ (by decide) rfl (by decide)
    · exact State.fld_setFld_beside t c _ (by decide) rfl (by decide)

/-- What one core shows of GNF, no other core shows. -/
theorem showGnf_reg_ne (g b : Bool) (s : State) {c d : Nat} (h : c ≠ d) :
    (showGnf g b s c).reg TEN_OPT_STATUS d = s.reg TEN_OPT_STATUS d := by
  have hne : regKey TEN_OPT_STATUS c ≠ regKey TEN_OPT_STATUS d := by unfold regKey; omega
  have hset : ∀ (s : State) {f : Field} x, f.off = TEN_OPT_STATUS →
      (s.setFld f c x).reg TEN_OPT_STATUS d = s.reg TEN_OPT_STATUS d := fun s f x ho =>
    s.reg_setFld_ne x (by rw [ho]; exact hne)
  unfold showGnf
  dsimp only
  split
  · rw [hset _ _ rfl, hset _ _ rfl, hset _ _ rfl]
  · rw [hset _ _ rfl, hset _ _ rfl]

/-- Once every core of a list has been shown GNF, every one shows it. -/
theorem foldl_showGnf_flags (g b : Bool) (l : List Nat) (s : State) : ∀ c ∈ l,
    (l.foldl (showGnf g b) s).flag TEN_OPT_STATUS_GNF_FINAL c = true ∧
      (l.foldl (showGnf g b) s).flag TEN_OPT_STATUS_GNF c = g := by
  induction l using List.reverseRecOn with
  | nil => simp
  | append_singleton l d ih =>
    intro c hc
    rw [List.foldl_append, List.foldl_cons, List.foldl_nil]
    by_cases hd : d = c
    · subst hd
      exact showGnf_flags ..
    · obtain ⟨hf, hg⟩ := ih c (by simpa [Ne.symm hd] using hc)
      have hr := showGnf_reg_ne g b (l.foldl (showGnf g b) s) hd
      exact ⟨(congrArg (getBits · 1 1 == 1) hr).trans hf, (congrArg (getBits · 0 1 == 1) hr).trans hg⟩

/-- An OPT_STEP node that is skipped is counted in its core. -/
def countSkip {α : Type} (pl : Plan) (s : State) (x : Nat × α) : State :=
  match pl.coreOf x.1 with
  | some c => s.bump TEN_OPT_SKIPPED_COUNT c
  | none => s

theorem countSkip_cases {α : Type} (pl : Plan) (s : State) (x : Nat × α) :
    countSkip pl s x = s ∨ ∃ c, countSkip pl s x = s.bump TEN_OPT_SKIPPED_COUNT c := by
  unfold countSkip
  split
  · exact .inr ⟨_, rfl⟩
  · exact .inl rfl

theorem countSkip_samePrt {α : Type} (pl : Plan) (s : State) (x : Nat × α) : SamePrt s (countSkip pl s x) := by
  rcases countSkip_cases pl s x with h | ⟨c, h⟩ <;> rw [h]
  · exact .refl s
  · exact s.bump_samePrt c 1 (by decide)

/-- The OPT_STEP nodes that a final GNF skips. -/
def State.gnfSkips (s : State) (p : Nat) (st : Step) (pl : Plan) : List (Nat × NodeEnt) :=
  pl.optNodes.filter fun x => st.gnf || (x.2.optLocal && s.localNf p)

/-- The step as a final GNF leaves it. -/
def Step.withGnf (skip : List (Nat × NodeEnt)) (st : Step) : Step :=
  { st with gnfFinal := true, optSkip := skip.map (·.1), skipped := st.skipped || !skip.isEmpty }

/-- GNF made final: the step's record and the skipped nodes' counts, before the cores show it. -/
def State.gnfCounted (s : State) (p : Nat) (st : Step) (pl : Plan) : State :=
  (s.gnfSkips p st pl).foldl (countSkip pl) (s.updStep p (Step.withGnf (s.gnfSkips p st pl)))

theorem gnfFinal_eq {p : Nat} {st : Step} {pl : Plan} (hst : s.stepOf p = some st)
    (hpl : s.stepPlan p = some pl) (hg : st.gnfFinal = false) (hr : st.running = true)
    (ho : gradOpen st pl = false) : gnfFinal s p = ((s.gnfCounted p st pl).coresOf p).foldl
      (showGnf st.gnf (s.localNf p && (s.gnfSkips p st pl).any fun x => x.2.optLocal)) (s.gnfCounted p st pl) := by
  have hc : ¬(st.gnfFinal || !st.running || gradOpen st pl) = true := by simp [hg, hr, ho]
  simp only [gnfFinal, hst, hpl]
  exact if_neg hc

theorem gnfCounted_keeps {α : Type} (π : State → α) (hb : ∀ (s : State) c, π (s.bump TEN_OPT_SKIPPED_COUNT c) = π s)
    (s : State) (p : Nat) (st : Step) (pl : Plan) :
    π (s.gnfCounted p st pl) = π (s.updStep p (Step.withGnf (s.gnfSkips p st pl))) :=
  foldl_keeps π (fun s x => by rcases countSkip_cases pl s x with h | ⟨c, h⟩ <;> simp [h, hb]) _ _

theorem showGnf_keeps {α : Type} (π : State → α) (hf : ∀ (s : State) f i x, π (s.setFld f i x) = π s) (g b : Bool)
    (s : State) (c : Nat) : π (showGnf g b s c) = π s := by
  unfold showGnf
  dsimp only
  split <;> simp only [hf]

/-- A part of the state that neither a register's write nor a step's update changes, a final GNF leaves. -/
theorem gnfFinal_keeps {α : Type} (π : State → α) (hf : ∀ (s : State) f i x, π (s.setFld f i x) = π s)
    (hu : ∀ (s : State) p f, π (s.updStep p f) = π s) {p : Nat} {st : Step} {pl : Plan}
    (hst : s.stepOf p = some st) (hpl : s.stepPlan p = some pl) (hg : st.gnfFinal = false)
    (hr : st.running = true) (ho : gradOpen st pl = false) : π (gnfFinal s p) = π s := by
  rw [gnfFinal_eq hst hpl hg hr ho, foldl_keeps π (showGnf_keeps π hf _ _),
    gnfCounted_keeps π (fun s c => hf s _ c _), hu]

theorem gnfFinal_stepOf {p : Nat} {st : Step} {pl : Plan} (hst : s.stepOf p = some st)
    (hpl : s.stepPlan p = some pl) (hg : st.gnfFinal = false) (hr : st.running = true)
    (ho : gradOpen st pl = false) :
    (gnfFinal s p).stepOf p = some (st.withGnf (s.gnfSkips p st pl)) := by
  rw [gnfFinal_eq hst hpl hg hr ho,
    foldl_keeps (·.stepOf p) (showGnf_keeps (·.stepOf p) (fun s f i x => s.stepOf_setFld f i x p) _ _),
    gnfCounted_keeps (·.stepOf p) (fun s c => s.stepOf_setFld _ c _ p), State.stepOf_updStep_same _ hst]

theorem gnfFinal_flags {p : Part} {st : Step} {pl : Plan} (hst : s.stepOf p = some st)
    (hpl : s.stepPlan p = some pl) (hg : st.gnfFinal = false) (hr : st.running = true)
    (ho : gradOpen st pl = false) : ∀ c ∈ s.coresOf p, (gnfFinal s p).flag TEN_OPT_STATUS_GNF_FINAL c = true ∧
      (gnfFinal s p).flag TEN_OPT_STATUS_GNF c = st.gnf := by
  have h : SamePrt s (s.gnfCounted p st pl) :=
    (s.updStep_samePrt p _).trans (.foldl _ fun t x => countSkip_samePrt pl t x)
  rw [gnfFinal_eq hst hpl hg hr ho, h.coresOf p]
  exact foldl_showGnf_flags _ _ _ _

/-! ### The start of a step -/

theorem Frame.runs_eq (h : Frame F s t) (hF : F.contains .runs = false) (p : Nat) :
    (t.stepOf p).map Step.run = (s.stepOf p).map Step.run :=
  congrFun (h.same .runs hF) p

/-- The parts that change before a started step runs, and those that change once it runs. -/
def beforeRun : List Piece := [.gddr, .descriptors, .plans, .chutes, .halter, .loft, .muster]
def whileRunning : List Piece :=
  [.hostMem, .gddr, .scratch, .plans, .halter, .sequencers, .drovers, .loft, .muster]

/-- A scheduled step is started: from then on it runs, and keeps its plan, step number, seed and start beat. -/
theorem stepStart_run {p : Nat} {st : Step} {pl : Plan} (hst : s.stepOf p = some st) (hpl : s.stepPlan p = some pl)
    (hr : st.running = false) (hb : st.startBeat ≤ s.beat) (hv : s.flag CLK_STATUS_VIN_WARN = false) :
    ((stepStart s p).stepOf p).map Step.run =
      some (st.seq, st.plan, st.step, st.seed, st.startBeat, true) := by
  have hc : ¬(st.running || decide (s.beat < st.startBeat) || s.flag CLK_STATUS_VIN_WARN) = true := by
    simp [hr, hb, hv]
  unfold stepStart
  rw [hst, hpl]
  dsimp -zeta only
  rw [if_neg hc]
  extract_lets a imp b c d runs m e f g h
  have ha : Frame beforeRun s a := .updFlight (.refl s)
  have hb : Frame beforeRun s b := by
    unfold b
    split
    · exact .replayMap ha
    · exact ha
  have hc : Frame beforeRun s c := .ageColls (.clearFlags (.beginRecord hb))
  have hd : Frame beforeRun s d := .setHalter (.showChutes (.mendChutes (.setUcode hc)))
  have he : Frame beforeRun s e := .withMus hd
  have hg : Frame whileRunning f g := .setDrovers (.setSeqs (.refl f))
  have hh : Frame whileRunning f h := .ite hg (.gnfFinal hg)
  have hi : Frame whileRunning f (h.fireSlots p) := .fireSlots hh
  rw [hi.runs_eq rfl]
  have hrun := he.runs_eq rfl p
  rw [hst] at hrun
  obtain ⟨st', hst', hkeeps⟩ := Option.map_eq_some_iff.1 hrun
  rw [show f.stepOf p = _ from State.stepOf_updStep_same _ hst']
  simp only [Step.run, Prod.mk.injEq] at hkeeps
  simp [Step.run, hkeeps]

theorem stepStart_idle {p : Nat} {st : Step} {pl : Plan} (hst : s.stepOf p = some st) (hpl : s.stepPlan p = some pl)
    (h : s.beat < st.startBeat ∨ st.running = true ∨ s.flag CLK_STATUS_VIN_WARN = true) : stepStart s p = s := by
  have hc : (st.running || decide (s.beat < st.startBeat) || s.flag CLK_STATUS_VIN_WARN) = true := by
    rcases h with h | h | h <;> simp [h]
  simp only [stepStart, hst, hpl]
  exact if_pos hc

/-! ### The end of a step -/

theorem stepComplete_goesOn {p : Nat} {st : Step} {pl : Plan} (hst : s.stepOf p = some st)
    (hpl : s.stepPlan p = some pl) (h : s.stepEnded p st pl = false) : stepComplete s p = s := by
  simp only [stepComplete, hst, hpl, h, Bool.not_false, if_true]

/-- The status of a step's record: INTERNAL while an internal fault stands (R463). -/
def State.endStatus (s : State) (p : Nat) (st : Step) : Nat × Nat :=
  match s.internalAux (p + 1) with
  | some c => (stInternal, c)
  | none => stepStatus st

/-- The parts that change at the end of a step before its record. -/
def endOfStep : List Piece := [.gddr, .plans, .halter, .sequencers, .drovers, .loft, .runs]

/-- The state before a step's record: it has nothing left, and its plan is gone where the step was muted. -/
theorem stepComplete_ends {p : Part} {st : Step} {pl : Plan} {f : Flight} (hst : s.stepOf p = some st)
    (hpl : s.stepPlan p = some pl) (hf : (s.host.flights.find? fun f => f.seq == st.seq) = some f)
    (he : s.stepEnded p st pl = true) : ∃ u : State,
      stepComplete s p = u.finish f (s.endStatus p st).1 (s.endStatus p st).2 0 ∧
      u.stepOf p = none ∧ (∀ c ∈ s.coresOf p, u.seq c = none) ∧ (∀ d ∈ u.drovers, d.2.part ≠ p) ∧
      (∀ q : Part, q ≠ p → u.stepOf q = s.stepOf q) ∧ (f.muted = true → u.planOf p st.plan = none) := by
  have hc : ¬(!s.stepEnded p st pl) = true := by simp [he]
  unfold stepComplete
  rw [hst, hpl]
  dsimp -zeta only
  rw [if_neg hc]
  extract_lets a b late c d
  have hda : Frame endOfStep s a := .dayRecord (.refl s)
  have hdb : Frame endOfStep s b := .replayEnd hda
  have hdc : Frame endOfStep s c := .ite hdb (.bump hdb)
  have hdd : Frame endOfStep s d := .setFld (.clearStep (.cancelPf hdc))
  have hsteps : (c.cancelPf fun g => g.part == p).yard.steps = s.yard.steps := by
    have hcb : c.yard = b.yard := Frame.yard_eq (F := []) (.ite (.refl b) (.bump (.refl b))) rfl
    rw [State.steps_cancelPf, hcb, State.steps_replayEnd, State.steps_dayRecord]
  have hcores : (c.cancelPf fun g => g.part == p).coresOf p = s.coresOf p := by
    have hb : SamePrt s b := (State.dayRecord_samePrt ..).trans (State.replayEnd_samePrt ..)
    have hc : SamePrt s c := .ite hb (hb.trans (State.bump_samePrt _ 0 _ (by decide)))
    exact (hc.trans (State.cancelPf_samePrt ..)).coresOf p
  obtain ⟨hgone, hseqs, hdrovers, hothers⟩ := State.clearStep_clears (c.cancelPf fun g => g.part == p) p
  have hdy : d.stepOf = ((c.cancelPf fun g => g.part == p).clearStep p).stepOf := by
    funext q
    exact State.stepOf_setFld ..
  rw [hdd.flights_eq rfl, hf]
  dsimp only
  refine ⟨_, rfl, ?_⟩
  generalize hu : (if (f.muted || decide (st.internal = some 3)) = true then d.unloadPlan p st.plan else d) = u
  have hud : Frame [.plans, .chutes] d u := hu ▸ .ite (.unloadPlan (.refl d)) (.refl d)
  have husteps : ∀ q, u.stepOf q = d.stepOf q := fun q => by
    rw [← hu]
    split
    · simp only [State.stepOf, State.steps_unloadPlan]
    · rfl
  refine ⟨?_, fun c hc => ?_, fun x hx => ?_, fun q hq => ?_, fun hm => ?_⟩
  · rw [husteps, hdy, hgone]
  · rw [State.seq, hud.seqs_eq rfl]
    exact hseqs c (hcores ▸ hc)
  · rw [hud.drovers_eq rfl] at hx
    exact hdrovers x hx
  · rw [husteps, hdy, hothers q (by simpa [Fin.ext_iff] using hq)]
    simp only [State.stepOf, hsteps]
  · rw [← hu, hm]
    exact State.planOf_unloadPlan ..

theorem State.finish_keeps (s : State) (f : Flight) (status aux detail : Nat) :
    (s.finish f status aux detail).yard = s.yard ∧ (s.finish f status aux detail).seqs = s.seqs ∧
      (s.finish f status aux detail).drovers = s.drovers :=
  have h : Frame [.descriptors] s (s.finish f status aux detail) := .finish (.refl s)
  ⟨h.yard_eq rfl, h.seqs_eq rfl, h.drovers_eq rfl⟩

/-- Nothing but OK applies to the step. -/
def Step.clean (st : Step) : Prop :=
  st.skipped = false ∧ st.part = false ∧ st.recomputed = 0 ∧ st.reset = false ∧ st.cause = 0 ∧ st.link = none ∧
    st.internal = none

/-- A status other than OK applies to a step that is not clean. -/
theorem exists_pos_of_not_clean {st : Step} (h : ¬st.clean) : ∃ x ∈ stepStatuses st, 0 < x.1 := by
  by_contra hn
  have no : ∀ x ∈ stepStatuses st, x.1 = 0 := fun x hx => by
    by_contra h0
    exact hn ⟨x, hx, Nat.pos_of_ne_zero h0⟩
  refine h ⟨?_, ?_, ?_, ?_, ?_, ?_, ?_⟩ <;> by_contra hs
  · exact absurd (no (stOkSkipped, 0) (by simp [stepStatuses, hs])) (by simp)
  · exact absurd (no (stOkPartial, st.left) (by simp [stepStatuses, hs])) (by simp)
  · exact absurd (no (stOkRecomputed, st.recomputed) (by simp [stepStatuses, hs])) (by simp)
  · exact absurd (no (stTargetReset, 0) (by simp [stepStatuses, hs])) (by simp)
  · exact absurd (no (stDataError, st.cause + 256 * min st.poisoned 0xFFFFFF) (by simp [stepStatuses, hs]))
      (by simp)
  · obtain ⟨a, ha⟩ := Option.ne_none_iff_exists'.1 hs
    exact absurd (no (stLinkError, a) (by simp [stepStatuses, ha])) (by simp)
  · obtain ⟨a, ha⟩ := Option.ne_none_iff_exists'.1 hs
    exact absurd (no (stInternal, a) (by simp [stepStatuses, ha])) (by simp)

theorem stepStatus_eq_zero_iff (st : Step) : (stepStatus st).1 = 0 ↔ st.clean := by
  constructor
  · intro h
    by_contra hn
    obtain ⟨x, hx, hpos⟩ := exists_pos_of_not_clean hn
    have := le_stepStatus hx
    omega
  · rintro ⟨hskip, hpart, hrec, hreset, hcause, hlink, hint⟩
    simp [stepStatus, stepStatuses, hskip, hpart, hrec, hreset, hcause, hlink, hint]

/-- Settles O33: the start, the final GNF and the end of a step by what each leaves of it, the status as the
highest of a list. -/
theorem stepLifecycle : Obligations.StepLifecycle := by
  unfold Obligations.StepLifecycle
  refine ⟨fun p st pl s hst hpl => ⟨fun hr hb hv => ?_, fun h => ?_⟩, fun p st pl s hst hpl h => ?_,
    fun p st pl s hst hpl hg hr ho => ?_, fun p st pl f s hst hpl hf => ⟨fun he => ?_, fun he => ?_⟩,
    fun st => ⟨fun x hx => le_stepStatus hx, stepStatus_mem st, stepStatus_eq_zero_iff st⟩⟩
  · obtain ⟨u, hu, hrun⟩ := Option.map_eq_some_iff.1 (stepStart_run hst hpl hr hb hv)
    simp only [Step.run, Prod.mk.injEq] at hrun
    obtain ⟨hseq, hplan, hstep, hseed, hbeat, hruns⟩ := hrun
    exact ⟨_, u, rfl, hu, hruns, hseq, hplan, hstep, hseed, hbeat⟩
  · exact congrArg Host.Outcome.next (stepStart_idle hst hpl h)
  · exact congrArg Host.Outcome.next (gnfFinal_idle hst hpl (h.imp_right (Or.imp_right gradOpen_eq_true.2)))
  · have ho : gradOpen st pl = false := by simpa [gradOpen, or_iff_not_imp_left] using ho
    exact ⟨_, _, rfl, gnfFinal_stepOf hst hpl hg hr ho, rfl, rfl,
      gnfFinal_keeps (·.mem) State.mem_setFld State.mem_updStep hst hpl hg hr ho,
      gnfFinal_keeps (·.host) State.host_setFld State.host_updStep hst hpl hg hr ho,
      gnfFinal_flags hst hpl hg hr ho⟩
  · exact congrArg Host.Outcome.next (stepComplete_goesOn hst hpl he)
  · obtain ⟨u, hu, hnone, hseqs, hdrovers, hothers, hplan⟩ := stepComplete_ends hst hpl hf he
    obtain ⟨hy, hq, hd⟩ := u.finish_keeps f (s.endStatus p st).1 (s.endStatus p st).2 0
    refine ⟨_, u, congrArg Host.Outcome.next hu, fun hi => by rw [State.endStatus, hi],
      fun c hi => by rw [State.endStatus, hi], ?_⟩
    simp only [State.stepOf, State.seq, State.planOf, hy, hq, hd]
    exact ⟨hnone, hseqs, hdrovers, hothers, hplan⟩

end Sys2Proof.Machine

namespace Sys2Proof.Machine

variable {s t u : State}

/-! ## Host rings: registers -/

/-! ### Registers of the blocks above an offset -/

/-- The registers at offsets below `B` read the same in two states. -/
structure SameBelow (B : Nat) (s t : State) : Prop where
  find : ∀ k < B * 1048576, tabFind t.regs k = tabFind s.regs k

namespace SameBelow

variable {B : Nat}

theorem refl (s : State) : SameBelow B s s := ⟨fun _ _ => rfl⟩

theorem trans (h : SameBelow B s t) (h' : SameBelow B t u) : SameBelow B s u :=
  ⟨fun k hk => (h'.find k hk).trans (h.find k hk)⟩

theorem of_regs (h : t.regs = s.regs) : SameBelow B s t := ⟨fun _ _ => by rw [h]⟩

theorem mono {C : Nat} (h : SameBelow C s t) (hB : B ≤ C) : SameBelow B s t :=
  ⟨fun k hk => h.find k (lt_of_lt_of_le hk (Nat.mul_le_mul_right _ hB))⟩

theorem ite {c : Prop} [Decidable c] (ht : SameBelow B s t) (hu : SameBelow B s u) :
    SameBelow B s (if c then t else u) := by
  split <;> assumption

theorem foldl {β : Type} {g : State → β → State} (l : List β) (hg : ∀ t x, SameBelow B t (g t x)) :
    SameBelow B s (l.foldl g s) := by
  induction l generalizing s with
  | nil => exact .refl s
  | cons x l ih => exact (hg s x).trans ih

theorem reg (h : SameBelow B s t) {o j : Nat} (ho : o < B) (hj : j < 1048576) : t.reg o j = s.reg o j := by
  unfold State.reg
  rw [h.find _ (by unfold regKey; omega)]

theorem fld (h : SameBelow B s t) {f : Field} {j : Nat} (ho : f.off < B) (hj : j < 1048576) :
    t.fld f j = s.fld f j := by
  unfold State.fld
  rw [h.reg ho hj]

theorem flag (h : SameBelow B s t) {f : Field} {j : Nat} (ho : f.off < B) (hj : j < 1048576) :
    t.flag f j = s.flag f j := by
  unfold State.flag
  rw [h.fld ho hj]

end SameBelow

/-- What a table holds under a key after a value is set where an unlisted key reads as a default. -/
theorem tabFind_tabSet_ne {α : Type} [DecidableEq α] (d : α) (t : Tab α) {k k' : Nat} (v : α) (h : k ≠ k') :
    tabFind (tabSet d t k v) k' = tabFind t k' := by
  unfold tabSet
  split
  · rw [tabFind_tabDel, if_neg h]
  · rw [tabFind_tabPut, if_neg h]

section

variable {B : Nat} (s : State)

theorem State.setReg_sameBelow {o : Nat} (i : Nat) (v : Word) (ho : B ≤ o) : SameBelow B s (s.setReg o i v) :=
  ⟨fun k hk => tabFind_tabSet_ne _ _ _ (by unfold regKey; omega)⟩

theorem State.setFld_sameBelow {f : Field} (i x : Nat) (ho : B ≤ f.off) : SameBelow B s (s.setFld f i x) :=
  s.setReg_sameBelow i _ ho

theorem State.bump_sameBelow {f : Field} (i n : Nat) (ho : B ≤ f.off) : SameBelow B s (s.bump f i n) :=
  s.setFld_sameBelow i _ ho

theorem State.setReg64_sameBelow {o : Nat} (i v : Nat) (ho : B ≤ o) : SameBelow B s (s.setReg64 o i v) :=
  (s.setReg_sameBelow i _ ho).trans (State.setReg_sameBelow _ i _ (by omega))

theorem State.bump64_sameBelow {o : Nat} (i n : Nat) (ho : B ≤ o) : SameBelow B s (s.bump64 o i n) :=
  s.setReg64_sameBelow i _ ho

theorem State.dropRegs_sameBelow {p : Nat → Nat → Bool} (hp : ∀ o i, o < B → p o i = false) :
    SameBelow B s (s.dropRegs p) :=
  ⟨fun k hk => by
    rw [State.dropRegs, tabFind_tabDrop, hp _ _ (by omega), if_neg Bool.false_ne_true]⟩

/-- A raised source is recorded in the Bell. -/
theorem State.raise_sameBelow (fn src : Nat) : SameBelow 0x100000 s (s.raise fn src) := by
  have hp : ∀ b, SameBelow 0x100000 s (s.setBellP fn src b) := fun b =>
    s.setFld_sameBelow _ _ (show 0x100000 ≤ BEL_PENDING by decide)
  unfold State.raise
  refine .ite ?_ ?_
  · exact .of_regs rfl
  · unfold State.bellRaise
    refine .ite (.refl s) (.ite (s.bump_sameBelow _ _ (by decide)) (.ite (hp true) (.ite (hp true) ?_)))
    exact s.bump_sameBelow _ _ (by decide)

end

end Sys2Proof.Machine

namespace Sys2Proof.Machine

variable {s t u : State}

/-! ### Fields after a write -/

section

variable (s : State)

theorem State.flag_setFld_same {f : Field} (i : Nat) (b : Bool) (h : f.lo + f.w ≤ 32) (hw : f.w = 1) :
    (s.setFld f i b.toNat).flag f i = b := by
  unfold State.flag
  rw [s.fld_setFld_same f i _ h, hw]
  cases b <;> rfl

/-- A field of another register keeps its value. -/
theorem State.fld_setFld_off {f g : Field} {i j : Nat} (x : Nat) (hi : i < 1048576) (hj : j < 1048576)
    (h : f.off ≠ g.off ∨ i ≠ j) : (s.setFld f i x).fld g j = s.fld g j :=
  congrArg (getBits · g.lo g.w) (s.reg_setReg_off _ hi hj h)

theorem State.flag_setFld_off {f g : Field} {i j : Nat} (x : Nat) (hi : i < 1048576) (hj : j < 1048576)
    (h : f.off ≠ g.off ∨ i ≠ j) : (s.setFld f i x).flag g j = s.flag g j :=
  congrArg (· == 1) (s.fld_setFld_off x hi hj h)

theorem State.flag_setFld_beside {f g : Field} (i x : Nat) (h : f.lo + f.w ≤ 32) (ho : f.off = g.off)
    (hd : g.lo + g.w ≤ f.lo ∨ f.lo + f.w ≤ g.lo) : (s.setFld f i x).flag g i = s.flag g i :=
  congrArg (· == 1) (s.fld_setFld_beside i x h ho hd)

theorem State.fld_setReg_off {o i j : Nat} {g : Field} (v : Word) (hi : i < 1048576) (hj : j < 1048576)
    (h : o ≠ g.off ∨ i ≠ j) : (s.setReg o i v).fld g j = s.fld g j :=
  congrArg (getBits · g.lo g.w) (s.reg_setReg_off v hi hj h)

theorem State.flag_setReg_off {o i j : Nat} {g : Field} (v : Word) (hi : i < 1048576) (hj : j < 1048576)
    (h : o ≠ g.off ∨ i ≠ j) : (s.setReg o i v).flag g j = s.flag g j :=
  congrArg (· == 1) (s.fld_setReg_off v hi hj h)

/-! ### A violation (R62) -/

/-- A raised source changes nothing that no register write and no latch changes. -/
theorem State.raise_keeps {α : Type} (π : State → α) (hf : ∀ (s : State) f i x, π (s.setFld f i x) = π s)
    (hb : ∀ (s : State) b, π { s with bell := b } = π s) (fn src : Nat) : π (s.raise fn src) = π s := by
  unfold State.raise State.bellRaise
  split
  · exact hb ..
  split
  · rfl
  split
  · exact hf ..
  split
  · exact hf ..
  split
  · exact hf ..
  · exact hf ..

/-- A violation changes nothing that no register write and no latch changes. -/
theorem State.hostViolation_keeps {α : Type} (π : State → α) (hf : ∀ (s : State) f i x, π (s.setFld f i x) = π s)
    (hb : ∀ (s : State) b, π { s with bell := b } = π s) (fn code value : Nat) :
    π (s.hostViolation fn code value) = π s := by
  have hc : π (s.bump HCI_VIOL_COUNT_COUNT fn) = π s := hf ..
  unfold State.hostViolation
  dsimp only
  rw [State.raise_keeps _ π hf hb, hf]
  split
  · exact hc
  · rw [hf, hf, hc]

@[simp] theorem State.host_raise (fn src : Nat) : (s.raise fn src).host = s.host :=
  s.raise_keeps (·.host) State.host_setFld (fun _ _ => rfl) ..

@[simp] theorem State.host_hostViolation (fn code value : Nat) : (s.hostViolation fn code value).host = s.host :=
  s.hostViolation_keeps (·.host) State.host_setFld (fun _ _ => rfl) ..

@[simp] theorem State.mem_hostViolation (fn code value : Nat) : (s.hostViolation fn code value).mem = s.mem :=
  s.hostViolation_keeps (·.mem) State.mem_setFld (fun _ _ => rfl) ..

/-- The registers in which a violation is recorded. -/
def violRegs : List Nat := [HCI_STATUS, HCI_VIOL_CODE, HCI_VIOL_VALUE, HCI_VIOL_COUNT]

/-- A violation leaves the registers of the host interface but those that record it. -/
theorem State.reg_hostViolation_off {fn code value o j : Nat} (hfn : fn < 1048576) (hj : j < 1048576)
    (ho : o < 0x100000) (hn : o ∉ violRegs) : (s.hostViolation fn code value).reg o j = s.reg o j := by
  simp only [violRegs, List.mem_cons, List.not_mem_nil, or_false, not_or] at hn
  obtain ⟨hst, hcode, hval, hcount⟩ := hn
  have hb : (s.bump HCI_VIOL_COUNT_COUNT fn).reg o j = s.reg o j := s.reg_setReg_off _ hfn hj (.inl (Ne.symm hcount))
  unfold State.hostViolation
  dsimp only
  rw [(State.raise_sameBelow _ fn 64).reg ho hj, State.reg_setFld_off _ _ hfn hj (Ne.symm hst)]
  split
  · exact hb
  · rw [State.reg_setFld_off _ _ hfn hj (Ne.symm hval), State.reg_setFld_off _ _ hfn hj (Ne.symm hcode), hb]

theorem State.fld_hostViolation_off {fn code value j : Nat} {g : Field} (hfn : fn < 1048576) (hj : j < 1048576)
    (ho : g.off < 0x100000) (hn : g.off ∉ violRegs) : (s.hostViolation fn code value).fld g j = s.fld g j :=
  congrArg (getBits · g.lo g.w) (s.reg_hostViolation_off hfn hj ho hn)

theorem State.flag_hostViolation_off {fn code value j : Nat} {g : Field} (hfn : fn < 1048576) (hj : j < 1048576)
    (ho : g.off < 0x100000) (hn : g.off ∉ violRegs) : (s.hostViolation fn code value).flag g j = s.flag g j :=
  congrArg (· == 1) (s.fld_hostViolation_off hfn hj ho hn)

/-- A violation sets VIOL. -/
theorem State.viol_hostViolation {fn : Nat} (code value : Nat) (hfn : fn < 1048576) :
    (s.hostViolation fn code value).flag HCI_STATUS_VIOL fn = true := by
  unfold State.hostViolation
  dsimp only
  rw [(State.raise_sameBelow _ fn 64).flag (by decide) hfn]
  exact State.flag_setFld_same _ fn true (by decide) rfl

/-- A violation is counted. -/
theorem State.violCount_hostViolation {fn : Nat} (code value : Nat) (hfn : fn < 1048576) :
    (s.hostViolation fn code value).fld HCI_VIOL_COUNT_COUNT fn =
      min (s.fld HCI_VIOL_COUNT_COUNT fn + 1) 0xFFFFFFFF := by
  have hb : (s.bump HCI_VIOL_COUNT_COUNT fn).fld HCI_VIOL_COUNT_COUNT fn =
      min (s.fld HCI_VIOL_COUNT_COUNT fn + 1) 0xFFFFFFFF := s.fld_bump_same HCI_VIOL_COUNT_COUNT fn 1 (by decide)
  unfold State.hostViolation
  dsimp only
  rw [(State.raise_sameBelow _ fn 64).fld (by decide) hfn, State.fld_setFld_off _ _ hfn hfn (.inl (by decide))]
  split
  · exact hb
  · rw [State.fld_setFld_off _ _ hfn hfn (.inl (by decide)), State.fld_setFld_off _ _ hfn hfn (.inl (by decide)), hb]

/-- The first violation since VIOL was cleared is kept with its value. -/
theorem State.firstViol_hostViolation {fn code value : Nat} (hfn : fn < 1048576)
    (hv : s.flag HCI_STATUS_VIOL fn = false) :
    (s.hostViolation fn code value).fld HCI_VIOL_CODE_CODE fn = code % 2 ^ 8 ∧
      (s.hostViolation fn code value).fld HCI_VIOL_VALUE_VALUE fn = value % 2 ^ 32 := by
  have hv' : (s.bump HCI_VIOL_COUNT_COUNT fn).flag HCI_STATUS_VIOL fn = false := by
    rw [State.bump, s.flag_setFld_off _ hfn hfn (.inl (by decide)), hv]
  unfold State.hostViolation
  dsimp only
  rw [if_neg (Bool.eq_false_iff.1 hv')]
  constructor
  · rw [(State.raise_sameBelow _ fn 64).fld (by decide) hfn, State.fld_setFld_off _ _ hfn hfn (.inl (by decide)),
      State.fld_setFld_off _ _ hfn hfn (.inl (by decide))]
    exact State.fld_setFld_same _ HCI_VIOL_CODE_CODE fn code (by decide)
  · rw [(State.raise_sameBelow _ fn 64).fld (by decide) hfn, State.fld_setFld_off _ _ hfn hfn (.inl (by decide))]
    exact State.fld_setFld_same _ HCI_VIOL_VALUE_VALUE fn value (by decide)

end

/-- Settles O10: either way the access is one violation 0x09. -/
theorem forbiddenAccessIsLogged : Obligations.ForbiddenAccessIsLogged := by
  unfold Obligations.ForbiddenAccessIsLogged
  intro fn off isWrite val devSet s hl ha
  have hfn : (fn : Nat) < 1048576 := by omega
  have ht : exec (.vfForbiddenAccess fn off isWrite) s = .next (State.hostViolation
      (if isWrite then s else { s with host := { s.host with lastRead := [0] } }) fn 9 off) := by
    simp [exec, execVfForbiddenAccess, hl, ha]
  generalize hr : (if isWrite then s else { s with host := { s.host with lastRead := [0] } } : State) = r at ht
  have hregs : r.regs = s.regs := by rw [← hr]; split <;> rfl
  have hhost : r.mem = s.mem ∧ r.host.flights = s.host.flights := by rw [← hr]; split <;> exact ⟨rfl, rfl⟩
  refine ⟨fun hw => ?_, _, ht, r.viol_hostViolation 9 off hfn, ?_, fun hv => ?_, ?_, ?_, fun hw => ?_⟩
  · subst hw
    simp [State.readReg, ha]
  · rw [r.violCount_hostViolation 9 off hfn, State.fld_congr hregs]
  · exact r.firstViol_hostViolation hfn (by rw [State.flag_congr hregs, hv])
  · rw [State.mem_hostViolation, hhost.1]
  · rw [State.host_hostViolation, hhost.2]
  · subst hw
    rw [← hr, if_pos rfl]
    simp [exec, execRegisterWrite, registerWrite, throughBar, hl, ha]

/-! ### Reset values -/

/-- What a row of the register map gives at reset, whatever the index. -/
def rowDefault (off : Nat) : Word :=
  match rowOf off with
  | some r => BitVec.ofNat 32 (rowReset r)
  | none => 0

/-- The registers whose reset value is not their row's alone. -/
def variedDefaults : List Nat := [HCI_ID, BEL_MASK, FAR_LIMIT 0, FAR_LIMIT 1, FAR_LIMIT 2, FAR_LIMIT 3]

theorem regDefault_eq_rowDefault {off : Nat} (inst : Nat) (h : off ∉ variedDefaults) :
    regDefault off inst = rowDefault off := by
  simp only [variedDefaults, List.mem_cons, List.not_mem_nil, or_false, not_or] at h
  obtain ⟨h1, h2, h3, h4, h5, h6⟩ := h
  rw [regDefault, if_neg h1, if_neg h2, if_neg (by simp [h3, h4]), if_neg h5, if_neg h6]
  rfl

theorem State.reg_reset (off inst : Nat) : State.reset.reg off inst = regDefault off inst := rfl

theorem State.reg_reset_row {off : Nat} (inst : Nat) (h : off ∉ variedDefaults) :
    State.reset.reg off inst = rowDefault off := by
  rw [State.reg_reset, regDefault_eq_rowDefault inst h]

theorem rowDefault_congr {off off' : Nat} (h : canonicalOff off = canonicalOff off') :
    rowDefault off = rowDefault off' := by
  unfold rowDefault rowOf
  rw [h]

/-- A register of a submission ring, at reset, is that of ring 0. -/
theorem State.reg_reset_sq {n r : Nat} (inst : Nat) (hn : n < 64) (hr : r < 0x40) :
    State.reset.reg (0x1000 + r + 0x40 * n) inst = rowDefault (0x1000 + r) := by
  rw [State.reg_reset_row]
  · refine rowDefault_congr ?_
    simp only [canonicalOff]
    rw [if_pos (by omega), if_pos (by omega)]
    omega
  · simp only [variedDefaults, HCI_ID, BEL_MASK, FAR_LIMIT, List.mem_cons, List.not_mem_nil, or_false]
    omega

/-- A register of a completion ring, at reset, is that of ring 0. -/
theorem State.reg_reset_cq {n r : Nat} (inst : Nat) (hn : n < 64) (hr : r < 0x40) :
    State.reset.reg (0x2000 + r + 0x40 * n) inst = rowDefault (0x2000 + r) := by
  rw [State.reg_reset_row]
  · refine rowDefault_congr ?_
    simp only [canonicalOff]
    rw [if_neg (by omega), if_pos (by omega), if_neg (by omega), if_pos (by omega)]
    omega
  · simp only [variedDefaults, HCI_ID, BEL_MASK, FAR_LIMIT, List.mem_cons, List.not_mem_nil, or_false]
    omega

/-- A register of a partition, at reset, is that of partition 0. -/
theorem State.reg_reset_prt {p r : Nat} (inst : Nat) (hp : p < 32) (hr : r < 0x40) :
    State.reset.reg (0x400100 + r + 0x40 * p) inst = rowDefault (0x400100 + r) := by
  have hc : ∀ o, 0x400100 ≤ o → o < 0x400900 → canonicalOff o = 0x400100 + (o - 0x400100) % 0x40 := by
    intro o hl hh
    unfold canonicalOff
    iterate 8 rw [if_neg (by omega)]
    rw [if_pos (by omega)]
  rw [State.reg_reset_row]
  · refine rowDefault_congr ?_
    rw [hc _ (by omega) (by omega), hc _ (by omega) (by omega)]
    omega
  · simp only [variedDefaults, HCI_ID, BEL_MASK, FAR_LIMIT, List.mem_cons, List.not_mem_nil, or_false]
    omega

/-- Settles O6: an unlisted register holds its row's reset value. -/
theorem resetRegisterValues : Obligations.ResetRegisterValues := by
  unfold Obligations.ResetRegisterValues
  refine ⟨fun fn n => ⟨?_, ?_, ?_, ?_⟩, fun p => ?_, fun core => ?_, fun fn g => ⟨?_, ?_⟩, ?_, rfl⟩
  · rw [State.flag, State.fld, State.reg_reset_sq (r := 0x08) fn n.isLt (by decide)]
    change (getBits (rowDefault 0x1008) 0 1 == 1) = false
    decide
  · rw [State.flag, State.fld, State.reg_reset_cq (r := 0x08) fn n.isLt (by decide)]
    change (getBits (rowDefault 0x2008) 0 1 == 1) = false
    decide
  · rw [State.reg_reset_sq (r := 0x10) fn n.isLt (by decide)]
    decide
  · rw [State.flag, State.fld, State.reg_reset_sq (r := 0x14) fn n.isLt (by decide)]
    change (getBits (rowDefault 0x1014) 0 1 == 1) = true
    decide
  · rw [State.prtState, State.fld, State.reg_reset_prt (r := 0x04) 0 p.isLt (by decide)]
    change getBits (rowDefault 0x400104) 0 2 = 0
    decide
  · rw [State.fld, State.reg_reset_row core (by decide)]
    decide
  · rw [State.reg_reset_row _ (by decide)]
    decide
  · rw [State.reg_reset_row _ (by decide)]
    decide
  · decide

end Sys2Proof.Machine

namespace Sys2Proof.Machine

variable {s t u : State}

/-! ## Rings are enabled and disabled (R35, R36) -/

/-! ### A refused write (R35) -/

section

variable (s : State)

@[simp] theorem State.mem_setupErr (fn code ring : Nat) (isCq : Bool) : (s.setupErr fn code ring isCq).mem = s.mem := by
  unfold State.setupErr
  dsimp only
  rw [State.mem_setFld]
  split
  · rfl
  · rw [State.mem_setFld, State.mem_setFld, State.mem_setFld]

/-- A refusal leaves every register but those that record it. -/
theorem State.reg_setupErr_off {fn code ring o j : Nat} {isCq : Bool} (hfn : fn < 1048576) (hj : j < 1048576)
    (hst : o ≠ HCI_STATUS) (hcode : o ≠ HCI_SETUP_ERR_CODE) :
    (s.setupErr fn code ring isCq).reg o j = s.reg o j := by
  unfold State.setupErr
  dsimp only
  rw [State.reg_setFld_off _ _ hfn hj (Ne.symm hst)]
  split
  · rfl
  · rw [State.reg_setFld_off _ _ hfn hj (Ne.symm hcode), State.reg_setFld_off _ _ hfn hj (Ne.symm hcode),
      State.reg_setFld_off _ _ hfn hj (Ne.symm hcode)]

theorem State.fld_setupErr_off {fn code ring j : Nat} {isCq : Bool} {g : Field} (hfn : fn < 1048576)
    (hj : j < 1048576) (hst : g.off ≠ HCI_STATUS) (hcode : g.off ≠ HCI_SETUP_ERR_CODE) :
    (s.setupErr fn code ring isCq).fld g j = s.fld g j :=
  congrArg (getBits · g.lo g.w) (s.reg_setupErr_off hfn hj hst hcode)

/-- A refusal sets SETUP_ERR. -/
theorem State.setupErr_sets (fn code ring : Nat) (isCq : Bool) :
    (s.setupErr fn code ring isCq).flag HCI_STATUS_SETUP_ERR fn = true := by
  unfold State.setupErr
  exact State.flag_setFld_same _ fn true (by decide) rfl

/-- The first refusal since SETUP_ERR was cleared is recorded: its cause and its ring. -/
def State.firstRefusal (s : State) (fn code ring : Nat) (isCq : Bool) : Prop :=
  s.fld HCI_SETUP_ERR_CODE_CODE fn = code ∧ s.fld HCI_SETUP_ERR_CODE_RING fn = ring ∧
    s.fld HCI_SETUP_ERR_CODE_IS_CQ fn = isCq.toNat

theorem State.setupErr_first {fn code ring : Nat} {isCq : Bool} (hfn : fn < 1048576)
    (he : s.flag HCI_STATUS_SETUP_ERR fn = false) (hc : code < 16) (hr : ring < 64) :
    (s.setupErr fn code ring isCq).firstRefusal fn code ring isCq := by
  have hq : isCq.toNat < 2 := by cases isCq <;> decide
  unfold State.setupErr State.firstRefusal
  dsimp only
  rw [if_neg (Bool.eq_false_iff.1 he)]
  refine ⟨?_, ?_, ?_⟩
  · rw [State.fld_setFld_off (f := HCI_STATUS_SETUP_ERR) _ _ hfn hfn (.inl (by decide)),
      State.fld_setFld_beside (f := HCI_SETUP_ERR_CODE_IS_CQ) _ _ _ (by decide) (by rfl) (by decide),
      State.fld_setFld_beside (f := HCI_SETUP_ERR_CODE_RING) _ _ _ (by decide) (by rfl) (by decide),
      State.fld_setFld_same _ _ _ _ (by decide)]
    exact Nat.mod_eq_of_lt hc
  · rw [State.fld_setFld_off (f := HCI_STATUS_SETUP_ERR) _ _ hfn hfn (.inl (by decide)),
      State.fld_setFld_beside (f := HCI_SETUP_ERR_CODE_IS_CQ) _ _ _ (by decide) (by rfl) (by decide),
      State.fld_setFld_same _ _ _ _ (by decide)]
    exact Nat.mod_eq_of_lt hr
  · rw [State.fld_setFld_off (f := HCI_STATUS_SETUP_ERR) _ _ hfn hfn (.inl (by decide)),
      State.fld_setFld_same _ _ _ _ (by decide)]
    exact Nat.mod_eq_of_lt hq

/-- What a refusal reads at its cause and ring stands through a write to another register. -/
theorem State.firstRefusal.of_reg {fn code ring : Nat} {isCq : Bool} {s t : State}
    (h : s.firstRefusal fn code ring isCq) (hr : t.reg HCI_SETUP_ERR_CODE fn = s.reg HCI_SETUP_ERR_CODE fn) :
    t.firstRefusal fn code ring isCq := by
  obtain ⟨hc, hn, hq⟩ := h
  refine ⟨?_, ?_, ?_⟩
  · exact (congrArg (getBits · 0 4) hr).trans hc
  · exact (congrArg (getBits · 4 6) hr).trans hn
  · exact (congrArg (getBits · 10 1) hr).trans hq

end

/-! ### The words of CTRL (R34) -/

theorem getBits_lt (v : Word) (lo w : Nat) : getBits v lo w < 2 ^ w := Nat.mod_lt _ (by positivity)

theorem getBits_congr {v x : Word} {lo w : Nat} (h : ∀ i < w, v.getLsbD (lo + i) = x.getLsbD (lo + i)) :
    getBits v lo w = getBits x lo w := by
  refine Nat.eq_of_testBit_eq fun i => ?_
  simp only [getBits, Nat.testBit_mod_two_pow, Nat.testBit_div_two_pow]
  by_cases hi : i < w
  · have := h i hi
    simp only [BitVec.getLsbD] at this
    simp [hi, Nat.add_comm i lo, this]
  · simp [hi]

/-- A field that the mask covers keeps its value. -/
theorem getBits_keepFields_kept {mask old v : Word} {lo w : Nat} (h : ∀ i < w, mask.getLsbD (lo + i) = true) :
    getBits (keepFields mask old v) lo w = getBits old lo w :=
  getBits_congr fun i hi => by simp [keepFields, h i hi]

/-- A field beside the mask takes the written value. -/
theorem getBits_keepFields_written {mask old v : Word} {lo w : Nat} (h : ∀ i < w, mask.getLsbD (lo + i) = false)
    (hw : lo + w ≤ 32) : getBits (keepFields mask old v) lo w = getBits v lo w :=
  getBits_congr fun i hi => by
    simp only [keepFields, BitVec.getLsbD_or, BitVec.getLsbD_and, BitVec.getLsbD_not, h i hi]
    simp [show lo + i < 32 by omega]

theorem ctrlSize_keep_sq (old v : Word) : ctrlSize (keepFields sqFields old v) = getBits old 4 5 :=
  getBits_keepFields_kept (by decide)

theorem ctrlCq_keep_sq (old v : Word) : ctrlCq (keepFields sqFields old v) = getBits old 16 6 :=
  getBits_keepFields_kept (by decide)

theorem ctrlPrio_keep_sq (old v : Word) : ctrlPrio (keepFields sqFields old v) = ctrlPrio v :=
  getBits_keepFields_written (by decide) (by decide)

theorem ctrlIrq_keep_cq (old v : Word) : ctrlIrq (keepFields cqFields old v) = ctrlIrq v :=
  getBits_keepFields_written (by decide) (by decide)

/-- The word that `storeSqCtrl` stores. -/
def sqCtrlWord (v : Word) (en : Bool) : Word :=
  BitVec.ofNat 32 (en.toNat + ctrlSize v * 2 ^ 4 + ctrlCq v * 2 ^ 16 + ctrlPrio v * 2 ^ 24)

theorem State.storeSqCtrl_eq (s : State) (fn n : Nat) (v : Word) (en : Bool) :
    s.storeSqCtrl fn n v en = s.setReg (HCI_SQ_CTRL n) fn (sqCtrlWord v en) := rfl

theorem getBits_sqCtrlWord (v : Word) (en : Bool) :
    getBits (sqCtrlWord v en) 0 1 = en.toNat ∧ getBits (sqCtrlWord v en) 4 5 = ctrlSize v ∧
      getBits (sqCtrlWord v en) 16 6 = ctrlCq v ∧ getBits (sqCtrlWord v en) 24 2 = ctrlPrio v := by
  have he : en.toNat < 2 := by cases en <;> decide
  have hs : ctrlSize v < 32 := getBits_lt v 4 5
  have hc : ctrlCq v < 64 := getBits_lt v 16 6
  have hp : ctrlPrio v < 4 := getBits_lt v 24 2
  simp only [getBits, sqCtrlWord, BitVec.toNat_ofNat]
  omega

/-- The word that `storeCqCtrl` stores. -/
def cqCtrlWord (v : Word) (en : Bool) : Word :=
  BitVec.ofNat 32 (en.toNat + ctrlSize v * 2 ^ 4 + ctrlIrq v * 2 ^ 12)

theorem State.storeCqCtrl_eq (s : State) (fn m : Nat) (v : Word) (en : Bool) :
    s.storeCqCtrl fn m v en = s.setReg (HCI_CQ_CTRL m) fn (cqCtrlWord v en) := rfl

theorem getBits_cqCtrlWord (v : Word) (en : Bool) :
    getBits (cqCtrlWord v en) 0 1 = en.toNat ∧ getBits (cqCtrlWord v en) 4 5 = ctrlSize v ∧
      getBits (cqCtrlWord v en) 12 1 = ctrlIrq v := by
  have he : en.toNat < 2 := by cases en <;> decide
  have hs : ctrlSize v < 32 := getBits_lt v 4 5
  have hi : ctrlIrq v < 2 := getBits_lt v 12 1
  simp only [getBits, cqCtrlWord, BitVec.toNat_ofNat]
  omega

end Sys2Proof.Machine

namespace Sys2Proof.Machine

variable {s t u : State}

/-! ### Submission rings -/

@[simp] theorem State.reg_forgetRing (s : State) (fn n o i : Nat) : (s.forgetRing fn n).reg o i = s.reg o i := rfl

@[simp] theorem State.flights_forgetRing (s : State) (fn n : Nat) :
    (s.forgetRing fn n).host.flights = s.host.flights := rfl

@[simp] theorem State.mem_forgetRing (s : State) (fn n : Nat) : (s.forgetRing fn n).mem = s.mem := rfl

theorem State.host_refreshDrained (s : State) (fn n : Nat) : (s.refreshDrained fn n).host = s.host := rfl

theorem State.mem_refreshDrained (s : State) (fn n : Nat) : (s.refreshDrained fn n).mem = s.mem := rfl

/-- DRAINED is refreshed in STATUS alone. -/
theorem State.reg_refreshDrained_off (s : State) {fn n o j : Nat} (hfn : fn < 1048576) (hj : j < 1048576)
    (h : HCI_SQ_STATUS n ≠ o) : (s.refreshDrained fn n).reg o j = s.reg o j :=
  s.reg_setFld_off _ hfn hj h

theorem State.drained_refreshDrained (s : State) (fn n : Nat) :
    (s.refreshDrained fn n).flag (HCI_SQ_STATUS_DRAINED n) fn =
      (!(s.flag (HCI_SQ_CTRL_ENABLE n) fn) && !s.host.flights.any fun f => f.fn == fn && f.sq == n && !f.muted) :=
  s.flag_setFld_same fn _ (by simp) rfl

/-- The fields of a ring's CTRL. -/
structure State.SqCtrl (s : State) (fn n : Nat) (en : Bool) (size cq prio : Nat) : Prop where
  enable : s.flag (HCI_SQ_CTRL_ENABLE n) fn = en
  size : s.fld (HCI_SQ_CTRL_SIZE_LOG2 n) fn = size
  cq : s.fld (HCI_SQ_CTRL_CQ_ID n) fn = cq
  prio : s.fld (HCI_SQ_CTRL_PRIO n) fn = prio

theorem State.SqCtrl.of_reg {fn n : Nat} {en : Bool} {size cq prio : Nat} (h : s.SqCtrl fn n en size cq prio)
    (hr : t.reg (HCI_SQ_CTRL n) fn = s.reg (HCI_SQ_CTRL n) fn) : t.SqCtrl fn n en size cq prio :=
  ⟨(congrArg (getBits · 0 1 == 1) hr).trans h.enable, (congrArg (getBits · 4 5) hr).trans h.size,
    (congrArg (getBits · 16 6) hr).trans h.cq, (congrArg (getBits · 24 2) hr).trans h.prio⟩

theorem State.SqCtrl.of_word {fn n : Nat} {v : Word} {en : Bool}
    (hr : t.reg (HCI_SQ_CTRL n) fn = sqCtrlWord v en) :
    t.SqCtrl fn n en (ctrlSize v) (ctrlCq v) (ctrlPrio v) := by
  obtain ⟨he, hs, hc, hp⟩ := getBits_sqCtrlWord v en
  refine ⟨?_, (congrArg (getBits · 4 5) hr).trans hs, (congrArg (getBits · 16 6) hr).trans hc,
    (congrArg (getBits · 24 2) hr).trans hp⟩
  refine (congrArg (getBits · 0 1 == 1) hr).trans ?_
  simp only [he]
  cases en <;> rfl

theorem State.storeSqCtrl_stores (s : State) (fn n : Nat) (v : Word) (en : Bool) :
    (s.storeSqCtrl fn n v en).reg (HCI_SQ_CTRL n) fn = sqCtrlWord v en := s.reg_setReg_same ..

@[simp] theorem State.host_storeSqCtrl (s : State) (fn n : Nat) (v : Word) (en : Bool) :
    (s.storeSqCtrl fn n v en).host = s.host := by
  unfold State.storeSqCtrl
  rw [State.host_setReg]

@[simp] theorem State.mem_storeSqCtrl (s : State) (fn n : Nat) (v : Word) (en : Bool) :
    (s.storeSqCtrl fn n v en).mem = s.mem := by
  unfold State.storeSqCtrl
  rw [State.mem_setReg]

/-- The ring as an accepted enable starts it, its STATUS not yet refreshed. -/
def State.startSq (s : State) (fn n : Nat) (v : Word) : State :=
  (((s.storeSqCtrl fn n v true).forgetRing fn n).setReg (HCI_SQ_HEAD n) fn 0).setReg (HCI_SQ_TAIL n) fn 0

theorem sqEnableOpen_accepted {fn n : Nat} {v : Word} (he : s.flag (HCI_SQ_CTRL_ENABLE n) fn = false)
    (hc : s.sqCause fn v = none) :
    sqEnableOpen s fn n v = ((s.startSq fn n v).setFld (HCI_SQ_STATUS_HALTED n) fn 0).refreshDrained fn n := by
  rw [sqEnableOpen, if_neg (Bool.eq_false_iff.1 he), hc]
  rfl

theorem State.startSq_indices (s : State) {fn n : Nat} {v : Word} (hfn : fn < 1048576) :
    (s.startSq fn n v).reg (HCI_SQ_CTRL n) fn = sqCtrlWord v true ∧
      (s.startSq fn n v).reg (HCI_SQ_HEAD n) fn = 0 ∧ (s.startSq fn n v).reg (HCI_SQ_TAIL n) fn = 0 := by
  unfold State.startSq
  refine ⟨?_, ?_, ?_⟩
  · rw [State.reg_setReg_off _ _ hfn hfn (.inl (by simp)), State.reg_setReg_off _ _ hfn hfn (.inl (by simp)),
      State.reg_forgetRing, State.storeSqCtrl_stores]
  · rw [State.reg_setReg_off _ _ hfn hfn (.inl (by simp)), State.reg_setReg_same]
  · rw [State.reg_setReg_same]

theorem State.flights_startSq (s : State) (fn n : Nat) (v : Word) :
    (s.startSq fn n v).host.flights = s.host.flights := by
  rw [State.startSq, State.host_setReg, State.host_setReg, State.flights_forgetRing, State.host_storeSqCtrl]

theorem State.mem_startSq (s : State) (fn n : Nat) (v : Word) : (s.startSq fn n v).mem = s.mem := by
  rw [State.startSq, State.mem_setReg, State.mem_setReg, State.mem_forgetRing, State.mem_storeSqCtrl]

/-- The ring of an accepted enable: its CTRL word, its indices at 0, neither halted nor drained. -/
theorem sqEnableOpen_starts {fn n : Nat} {v : Word} (hfn : fn < 1048576)
    (he : s.flag (HCI_SQ_CTRL_ENABLE n) fn = false) (hc : s.sqCause fn v = none) :
    (sqEnableOpen s fn n v).SqCtrl fn n true (ctrlSize v) (ctrlCq v) (ctrlPrio v) ∧
      (sqEnableOpen s fn n v).reg (HCI_SQ_HEAD n) fn = 0 ∧ (sqEnableOpen s fn n v).reg (HCI_SQ_TAIL n) fn = 0 ∧
      (sqEnableOpen s fn n v).flag (HCI_SQ_STATUS_HALTED n) fn = false ∧
      (sqEnableOpen s fn n v).flag (HCI_SQ_STATUS_DRAINED n) fn = false ∧
      (sqEnableOpen s fn n v).host.flights = s.host.flights ∧ (sqEnableOpen s fn n v).mem = s.mem := by
  rw [sqEnableOpen_accepted he hc]
  obtain ⟨hctrl, hhead, htail⟩ := s.startSq_indices (n := n) (v := v) hfn
  have hflights := s.flights_startSq fn n v
  have hmem := s.mem_startSq fn n v
  generalize s.startSq fn n v = r at hctrl hhead htail hflights hmem
  have hkeep : ∀ o, HCI_SQ_STATUS n ≠ o →
      ((r.setFld (HCI_SQ_STATUS_HALTED n) fn 0).refreshDrained fn n).reg o fn = r.reg o fn := fun o ho => by
    rw [State.reg_refreshDrained_off _ hfn hfn ho, State.reg_setFld_off _ _ hfn hfn ho]
  refine ⟨.of_word ((hkeep _ (by simp)).trans hctrl), (hkeep _ (by simp)).trans hhead,
    (hkeep _ (by simp)).trans htail, ?_, ?_, ?_, ?_⟩
  · rw [State.refreshDrained, State.flag_setFld_beside _ fn _ (by simp) (by rfl) (by simp)]
    exact State.flag_setFld_same _ fn false (by simp) rfl
  · have hen : (r.setFld (HCI_SQ_STATUS_HALTED n) fn 0).flag (HCI_SQ_CTRL_ENABLE n) fn = true := by
      rw [State.flag_setFld_off _ _ hfn hfn (.inl (by simp))]
      exact (State.SqCtrl.of_word hctrl).enable
    rw [State.drained_refreshDrained, hen, Bool.not_true, Bool.false_and]
  · rw [State.host_refreshDrained, State.host_setFld, hflights]
  · rw [State.mem_refreshDrained, State.mem_setFld, hmem]

/-- An enable that is refused stores the word with ENABLE clear, and records its cause. -/
theorem sqEnableOpen_refused {fn n c : Nat} {v : Word} (he : s.flag (HCI_SQ_CTRL_ENABLE n) fn = false)
    (hc : s.sqCause fn v = some c) :
    sqEnableOpen s fn n v = (s.storeSqCtrl fn n v false).setupErr fn c n false := by
  rw [sqEnableOpen, if_neg (Bool.eq_false_iff.1 he), hc]

/-- An enabled ring takes PRIO alone. -/
theorem sqEnableOpen_enabled {fn n : Nat} {v : Word} (he : s.flag (HCI_SQ_CTRL_ENABLE n) fn = true) :
    sqEnableOpen s fn n v = s.setFld (HCI_SQ_CTRL_PRIO n) fn (ctrlPrio v) := if_pos he

theorem sqCtrl_open {act : State → Nat → Nat → Word → State} {fn n : Nat} {v : Word}
    (h : (s.sqLocked fn n && s.sqChanges fn n v) = false) : sqCtrl act s fn n v = act s fn n v :=
  if_neg (Bool.eq_false_iff.1 h)

theorem sqCtrl_locked {act : State → Nat → Nat → Word → State} {fn n : Nat} {v : Word}
    (h : (s.sqLocked fn n && s.sqChanges fn n v) = true) : sqCtrl act s fn n v =
      (act s fn n (keepFields sqFields (s.reg (HCI_SQ_CTRL n) fn) v)).setupErr fn 0x4 n false := if_pos h

/-- A refusal leaves the rings' registers. -/
theorem State.reg_setupErr_ring (s : State) {fn code ring o : Nat} {isCq : Bool} (hfn : fn < 1048576)
    (ho : 0x1000 ≤ o) : (s.setupErr fn code ring isCq).reg o fn = s.reg o fn :=
  s.reg_setupErr_off hfn hfn (by simp only [HCI_STATUS]; omega) (by simp only [HCI_SETUP_ERR_CODE]; omega)

theorem State.setFld_prio_ctrl (s : State) {fn n x : Nat} (hx : x < 4) :
    (s.setFld (HCI_SQ_CTRL_PRIO n) fn x).SqCtrl fn n (s.flag (HCI_SQ_CTRL_ENABLE n) fn)
      (s.fld (HCI_SQ_CTRL_SIZE_LOG2 n) fn) (s.fld (HCI_SQ_CTRL_CQ_ID n) fn) x where
  enable := s.flag_setFld_beside fn _ (by simp) rfl (.inl (by simp))
  size := s.fld_setFld_beside fn _ (by simp) rfl (.inl (by simp))
  cq := s.fld_setFld_beside fn _ (by simp) rfl (.inl (by simp))
  prio := (s.fld_setFld_same _ fn x (by simp)).trans (Nat.mod_eq_of_lt hx)

/-- A write that would change a locked SIZE_LOG2 or CQ_ID leaves both, whatever else it does. -/
theorem sqEnableOpen_keeps {fn n : Nat} {v : Word} (hfn : fn < 1048576) :
    (sqEnableOpen s fn n (keepFields sqFields (s.reg (HCI_SQ_CTRL n) fn) v)).fld (HCI_SQ_CTRL_SIZE_LOG2 n) fn =
        s.fld (HCI_SQ_CTRL_SIZE_LOG2 n) fn ∧
      (sqEnableOpen s fn n (keepFields sqFields (s.reg (HCI_SQ_CTRL n) fn) v)).fld (HCI_SQ_CTRL_CQ_ID n) fn =
        s.fld (HCI_SQ_CTRL_CQ_ID n) fn := by
  have hsize := ctrlSize_keep_sq (s.reg (HCI_SQ_CTRL n) fn) v
  have hcq := ctrlCq_keep_sq (s.reg (HCI_SQ_CTRL n) fn) v
  generalize keepFields sqFields (s.reg (HCI_SQ_CTRL n) fn) v = w at hsize hcq ⊢
  cases he : s.flag (HCI_SQ_CTRL_ENABLE n) fn with
  | true =>
    rw [sqEnableOpen_enabled he]
    have h := s.setFld_prio_ctrl (fn := fn) (n := n) (getBits_lt w 24 2)
    exact ⟨h.size, h.cq⟩
  | false =>
    cases hc : s.sqCause fn w with
    | none =>
      have h := (sqEnableOpen_starts hfn he hc).1
      exact ⟨h.size.trans hsize, h.cq.trans hcq⟩
    | some c =>
      rw [sqEnableOpen_refused he hc]
      have h := State.SqCtrl.of_word (t := (s.storeSqCtrl fn n w false).setupErr fn c n false)
        ((State.reg_setupErr_ring _ hfn (by simp only [HCI_SQ_CTRL]; omega)).trans (s.storeSqCtrl_stores fn n w false))
      exact ⟨h.size.trans hsize, h.cq.trans hcq⟩

theorem exec_sqEnable {fn : Fn} {n : Ring} {v : Word} (hl : s.fnLive fn = true) :
    exec (.sqEnable fn n v) s = .next (sqEnable s fn n v) := congrArg _ (if_pos hl)

theorem exec_sqDisable {fn : Fn} {n : Ring} {v : Word} (hl : s.fnLive fn = true) :
    exec (.sqDisable fn n v) s = .next (sqDisable s fn n v) := congrArg _ (if_pos hl)

theorem exec_cqEnable {fn : Fn} {m : Ring} {v : Word} (hl : s.fnLive fn = true) :
    exec (.cqEnable fn m v) s = .next (cqEnable s fn m v) := congrArg _ (if_pos hl)

theorem exec_cqDisable {fn : Fn} {m : Ring} {v : Word} (hl : s.fnLive fn = true) :
    exec (.cqDisable fn m v) s = .next (cqDisable s fn m v) := congrArg _ (if_pos hl)

end Sys2Proof.Machine

namespace Sys2Proof.Machine

variable {s t u : State}

theorem State.sqCause_some {fn c : Nat} {v : Word} (h : s.sqCause fn v = some c) :
    (c = 1 ↔ ctrlSize v = 0) ∧ (c = 2 ↔ (1 ≤ ctrlSize v ∧ ctrlSize v < 4) ∨ 16 < ctrlSize v) ∧
      (c = 3 → s.flag (HCI_CQ_CTRL_ENABLE (ctrlCq v)) fn = false) ∧ c < 16 := by
  unfold State.sqCause sizeCause at h
  by_cases h0 : ctrlSize v = 0
  · rw [if_pos h0] at h
    cases h
    omega
  · rw [if_neg h0] at h
    by_cases h1 : ctrlSize v < 4 ∨ 16 < ctrlSize v
    · rw [if_pos h1] at h
      cases h
      omega
    · rw [if_neg h1] at h
      cases he : s.flag (HCI_CQ_CTRL_ENABLE (ctrlCq v)) fn with
      | true => simp [he] at h
      | false =>
        simp only [he, Bool.false_eq_true, if_false, Option.some.injEq] at h
        subst h
        exact ⟨by omega, by omega, fun _ => rfl, by decide⟩

theorem sizeCause_some {k c : Nat} (h : sizeCause k = some c) : (c = 1 ↔ k = 0) ∧ (c = 2 ↔ k ≠ 0) ∧ c < 16 := by
  unfold sizeCause at h
  by_cases h0 : k = 0
  · rw [if_pos h0] at h
    cases h
    omega
  · rw [if_neg h0] at h
    split at h
    · cases h
      omega
    · cases h

theorem State.sqLocked_of_enabled {fn n : Nat} (he : s.flag (HCI_SQ_CTRL_ENABLE n) fn = true) :
    s.sqLocked fn n = true := by
  simp [State.sqLocked, he]

/-- A write with ENABLE = 1 to an enabled submission ring: PRIO, and the refusal of a change. -/
theorem sqEnable_enabled {fn n : Nat} {v : Word} (he : s.flag (HCI_SQ_CTRL_ENABLE n) fn = true) :
    sqEnable s fn n v = if s.sqChanges fn n v then
      (s.setFld (HCI_SQ_CTRL_PRIO n) fn (ctrlPrio v)).setupErr fn 4 n false
      else s.setFld (HCI_SQ_CTRL_PRIO n) fn (ctrlPrio v) := by
  unfold sqEnable
  cases hch : s.sqChanges fn n v with
  | true =>
    rw [sqCtrl_locked (by rw [State.sqLocked_of_enabled he, hch]; rfl), sqEnableOpen_enabled he, ctrlPrio_keep_sq]
    rfl
  | false =>
    rw [sqCtrl_open (by rw [hch, Bool.and_false]), sqEnableOpen_enabled he]
    rfl

/-- What a write with ENABLE = 1 leaves of an enabled submission ring. -/
theorem sqEnable_enabled_keeps {fn n : Nat} {v : Word} (hfn : fn < 1048576)
    (he : s.flag (HCI_SQ_CTRL_ENABLE n) fn = true) :
    (sqEnable s fn n v).SqCtrl fn n true (s.fld (HCI_SQ_CTRL_SIZE_LOG2 n) fn) (s.fld (HCI_SQ_CTRL_CQ_ID n) fn)
        (getBits v 24 2) ∧
      (sqEnable s fn n v).reg (HCI_SQ_HEAD n) fn = s.reg (HCI_SQ_HEAD n) fn ∧
      (sqEnable s fn n v).reg (HCI_SQ_TAIL n) fn = s.reg (HCI_SQ_TAIL n) fn ∧
      (sqEnable s fn n v).host = s.host := by
  have hctrl := s.setFld_prio_ctrl (fn := fn) (n := n) (getBits_lt v 24 2)
  rw [he] at hctrl
  have hidx : ∀ o, HCI_SQ_CTRL n ≠ o →
      (s.setFld (HCI_SQ_CTRL_PRIO n) fn (ctrlPrio v)).reg o fn = s.reg o fn := fun o ho =>
    s.reg_setFld_off _ hfn hfn ho
  rw [sqEnable_enabled he]
  split
  · have hr : ∀ o, 0x1000 ≤ o → ((s.setFld (HCI_SQ_CTRL_PRIO n) fn (ctrlPrio v)).setupErr fn 4 n false).reg o fn =
        (s.setFld (HCI_SQ_CTRL_PRIO n) fn (ctrlPrio v)).reg o fn := fun o ho =>
      State.reg_setupErr_ring _ hfn ho
    refine ⟨hctrl.of_reg (hr _ ?_), (hr _ ?_).trans (hidx _ ?_), (hr _ ?_).trans (hidx _ ?_), ?_⟩
    · simp only [HCI_SQ_CTRL]; omega
    · simp only [HCI_SQ_HEAD]; omega
    · simp
    · simp only [HCI_SQ_TAIL]; omega
    · simp
    · rw [State.host_setupErr, State.host_setFld]
  · exact ⟨hctrl, hidx _ (by simp), hidx _ (by simp), s.host_setFld ..⟩

/-! ### Completion rings -/

/-- The fields of a completion ring's CTRL. -/
structure State.CqCtrl (s : State) (fn m : Nat) (en : Bool) (size irq : Nat) : Prop where
  enable : s.flag (HCI_CQ_CTRL_ENABLE m) fn = en
  size : s.fld (HCI_CQ_CTRL_SIZE_LOG2 m) fn = size
  irq : s.fld (HCI_CQ_CTRL_IRQ_EN m) fn = irq

theorem State.CqCtrl.of_reg {fn m : Nat} {en : Bool} {size irq : Nat} (h : s.CqCtrl fn m en size irq)
    (hr : t.reg (HCI_CQ_CTRL m) fn = s.reg (HCI_CQ_CTRL m) fn) : t.CqCtrl fn m en size irq :=
  ⟨(congrArg (getBits · 0 1 == 1) hr).trans h.enable, (congrArg (getBits · 4 5) hr).trans h.size,
    (congrArg (getBits · 12 1) hr).trans h.irq⟩

theorem State.CqCtrl.of_word {fn m : Nat} {v : Word} {en : Bool}
    (hr : t.reg (HCI_CQ_CTRL m) fn = cqCtrlWord v en) : t.CqCtrl fn m en (ctrlSize v) (ctrlIrq v) := by
  obtain ⟨he, hs, hi⟩ := getBits_cqCtrlWord v en
  refine ⟨?_, (congrArg (getBits · 4 5) hr).trans hs, (congrArg (getBits · 12 1) hr).trans hi⟩
  refine (congrArg (getBits · 0 1 == 1) hr).trans ?_
  simp only [he]
  cases en <;> rfl

theorem State.storeCqCtrl_stores (s : State) (fn m : Nat) (v : Word) (en : Bool) :
    (s.storeCqCtrl fn m v en).reg (HCI_CQ_CTRL m) fn = cqCtrlWord v en := s.reg_setReg_same ..

@[simp] theorem State.host_storeCqCtrl (s : State) (fn m : Nat) (v : Word) (en : Bool) :
    (s.storeCqCtrl fn m v en).host = s.host := by
  rw [State.storeCqCtrl, State.host_setReg]

@[simp] theorem State.mem_storeCqCtrl (s : State) (fn m : Nat) (v : Word) (en : Bool) :
    (s.storeCqCtrl fn m v en).mem = s.mem := by
  rw [State.storeCqCtrl, State.mem_setReg]

/-- A completion ring as an accepted enable starts it, its STATUS not yet cleared. -/
def State.startCq (s : State) (fn m : Nat) (v : Word) : State :=
  ((s.storeCqCtrl fn m v true).setReg (HCI_CQ_TAIL m) fn 0).setReg (HCI_CQ_HEAD m) fn 0

theorem cqEnableOpen_accepted {fn m : Nat} {v : Word} (he : s.flag (HCI_CQ_CTRL_ENABLE m) fn = false)
    (hc : sizeCause (ctrlSize v) = none) : cqEnableOpen s fn m v =
      ((s.startCq fn m v).setFld (HCI_CQ_STATUS_FULL m) fn 0).setFld (HCI_CQ_STATUS_HALTED m) fn 0 := by
  rw [cqEnableOpen, if_neg (Bool.eq_false_iff.1 he), hc]
  rfl

theorem State.startCq_indices (s : State) {fn m : Nat} {v : Word} (hfn : fn < 1048576) :
    (s.startCq fn m v).reg (HCI_CQ_CTRL m) fn = cqCtrlWord v true ∧
      (s.startCq fn m v).reg (HCI_CQ_TAIL m) fn = 0 ∧ (s.startCq fn m v).reg (HCI_CQ_HEAD m) fn = 0 := by
  unfold State.startCq
  refine ⟨?_, ?_, ?_⟩
  · rw [State.reg_setReg_off _ _ hfn hfn (.inl (by simp)), State.reg_setReg_off _ _ hfn hfn (.inl (by simp)),
      State.storeCqCtrl_stores]
  · rw [State.reg_setReg_off _ _ hfn hfn (.inl (by simp)), State.reg_setReg_same]
  · rw [State.reg_setReg_same]

theorem State.host_startCq (s : State) (fn m : Nat) (v : Word) : (s.startCq fn m v).host = s.host := by
  rw [State.startCq, State.host_setReg, State.host_setReg, State.host_storeCqCtrl]

theorem State.mem_startCq (s : State) (fn m : Nat) (v : Word) : (s.startCq fn m v).mem = s.mem := by
  rw [State.startCq, State.mem_setReg, State.mem_setReg, State.mem_storeCqCtrl]

theorem cqEnableOpen_starts {fn m : Nat} {v : Word} (hfn : fn < 1048576)
    (he : s.flag (HCI_CQ_CTRL_ENABLE m) fn = false) (hc : sizeCause (ctrlSize v) = none) :
    (cqEnableOpen s fn m v).CqCtrl fn m true (ctrlSize v) (ctrlIrq v) ∧
      (cqEnableOpen s fn m v).reg (HCI_CQ_TAIL m) fn = 0 ∧ (cqEnableOpen s fn m v).reg (HCI_CQ_HEAD m) fn = 0 ∧
      (cqEnableOpen s fn m v).flag (HCI_CQ_STATUS_HALTED m) fn = false ∧
      (cqEnableOpen s fn m v).host = s.host ∧ (cqEnableOpen s fn m v).mem = s.mem := by
  rw [cqEnableOpen_accepted he hc]
  obtain ⟨hctrl, htail, hhead⟩ := s.startCq_indices (m := m) (v := v) hfn
  have hhost := s.host_startCq fn m v
  have hmem := s.mem_startCq fn m v
  generalize s.startCq fn m v = r at hctrl hhead htail hhost hmem
  have hkeep : ∀ o, HCI_CQ_STATUS m ≠ o →
      ((r.setFld (HCI_CQ_STATUS_FULL m) fn 0).setFld (HCI_CQ_STATUS_HALTED m) fn 0).reg o fn = r.reg o fn :=
    fun o ho => by rw [State.reg_setFld_off _ _ hfn hfn ho, State.reg_setFld_off _ _ hfn hfn ho]
  refine ⟨.of_word ((hkeep _ (by simp)).trans hctrl), (hkeep _ (by simp)).trans htail,
    (hkeep _ (by simp)).trans hhead, State.flag_setFld_same _ fn false (by simp) rfl, ?_, ?_⟩
  · rw [State.host_setFld, State.host_setFld, hhost]
  · rw [State.mem_setFld, State.mem_setFld, hmem]

theorem cqEnableOpen_refused {fn m c : Nat} {v : Word} (he : s.flag (HCI_CQ_CTRL_ENABLE m) fn = false)
    (hc : sizeCause (ctrlSize v) = some c) :
    cqEnableOpen s fn m v = (s.storeCqCtrl fn m v false).setupErr fn c m true := by
  rw [cqEnableOpen, if_neg (Bool.eq_false_iff.1 he), hc]

theorem cqCtrl_open {act : State → Nat → Nat → Word → State} {fn m : Nat} {v : Word}
    (h : s.flag (HCI_CQ_CTRL_ENABLE m) fn = true → ctrlSize v = s.fld (HCI_CQ_CTRL_SIZE_LOG2 m) fn) :
    cqCtrl act s fn m v = act s fn m v := by
  refine if_neg fun hc => ?_
  simp only [Bool.and_eq_true, bne_iff_ne] at hc
  exact hc.2 (h hc.1)

theorem cqCtrl_locked {act : State → Nat → Nat → Word → State} {fn m : Nat} {v : Word}
    (he : s.flag (HCI_CQ_CTRL_ENABLE m) fn = true) (h : ctrlSize v ≠ s.fld (HCI_CQ_CTRL_SIZE_LOG2 m) fn) :
    cqCtrl act s fn m v =
      act (s.setupErr fn 0x4 m true) fn m (keepFields cqFields (s.reg (HCI_CQ_CTRL m) fn) v) :=
  if_pos (by simp [he, h])

/-- A refusal leaves a completion ring's CTRL. -/
theorem State.cqCtrl_setupErr (s : State) {fn code ring m : Nat} {isCq : Bool} (hfn : fn < 1048576) :
    (s.setupErr fn code ring isCq).reg (HCI_CQ_CTRL m) fn = s.reg (HCI_CQ_CTRL m) fn :=
  State.reg_setupErr_ring _ hfn (by simp only [HCI_CQ_CTRL]; omega)

/-- A write with ENABLE = 1 to an enabled completion ring: IRQ_EN, and the refusal of a change. -/
theorem cqEnable_enabled {fn m : Nat} {v : Word} (hfn : fn < 1048576)
    (he : s.flag (HCI_CQ_CTRL_ENABLE m) fn = true) :
    cqEnable s fn m v =
      (if ctrlSize v = s.fld (HCI_CQ_CTRL_SIZE_LOG2 m) fn then s else s.setupErr fn 4 m true).setFld
        (HCI_CQ_CTRL_IRQ_EN m) fn (ctrlIrq v) := by
  unfold cqEnable
  split
  · next h => rw [cqCtrl_open fun _ => h, cqEnableOpen, if_pos he]
  · next h =>
    have he' : (s.setupErr fn 4 m true).flag (HCI_CQ_CTRL_ENABLE m) fn = true :=
      (congrArg (getBits · 0 1 == 1) (s.cqCtrl_setupErr hfn)).trans he
    rw [cqCtrl_locked he h, cqEnableOpen, if_pos he', ctrlIrq_keep_cq]

theorem State.setFld_irq_ctrl (s : State) {fn m x : Nat} (hx : x < 2) :
    (s.setFld (HCI_CQ_CTRL_IRQ_EN m) fn x).CqCtrl fn m (s.flag (HCI_CQ_CTRL_ENABLE m) fn)
      (s.fld (HCI_CQ_CTRL_SIZE_LOG2 m) fn) x where
  enable := s.flag_setFld_beside fn _ (by simp) rfl (.inl (by simp))
  size := s.fld_setFld_beside fn _ (by simp) rfl (.inl (by simp))
  irq := (s.fld_setFld_same _ fn x (by simp)).trans (Nat.mod_eq_of_lt hx)

end Sys2Proof.Machine

namespace Sys2Proof.Machine

variable {s t u : State}

/-! ### What the statements say of a ring's CTRL writes -/

theorem State.fld_setupErr_ring (s : State) {fn code ring : Nat} {isCq : Bool} {g : Field} (hfn : fn < 1048576)
    (ho : 0x1000 ≤ g.off) : (s.setupErr fn code ring isCq).fld g fn = s.fld g fn :=
  congrArg (getBits · g.lo g.w) (s.reg_setupErr_ring hfn ho)

theorem State.flag_setupErr_ring (s : State) {fn code ring : Nat} {isCq : Bool} {g : Field} (hfn : fn < 1048576)
    (ho : 0x1000 ≤ g.off) : (s.setupErr fn code ring isCq).flag g fn = s.flag g fn :=
  congrArg (· == 1) (s.fld_setupErr_ring hfn ho)

/-- An accepted enable of a submission ring. -/
theorem sqEnable_starts {fn n : Nat} {v : Word} (hfn : fn < 1048576)
    (he : s.flag (HCI_SQ_CTRL_ENABLE n) fn = false) (hk : (s.sqLocked fn n && s.sqChanges fn n v) = false)
    (hc : s.sqCause fn v = none) :
    (sqEnable s fn n v).SqCtrl fn n true (ctrlSize v) (ctrlCq v) (ctrlPrio v) ∧
      (sqEnable s fn n v).reg (HCI_SQ_HEAD n) fn = 0 ∧ (sqEnable s fn n v).reg (HCI_SQ_TAIL n) fn = 0 ∧
      (sqEnable s fn n v).flag (HCI_SQ_STATUS_HALTED n) fn = false ∧
      (sqEnable s fn n v).flag (HCI_SQ_STATUS_DRAINED n) fn = false ∧
      (sqEnable s fn n v).host.flights = s.host.flights ∧ (sqEnable s fn n v).mem = s.mem := by
  unfold sqEnable
  rw [sqCtrl_open hk]
  exact sqEnableOpen_starts hfn he hc

/-- A refused enable of a submission ring. -/
theorem sqEnable_refused {fn n c : Nat} {v : Word} (hfn : fn < 1048576) (hn : n < 64)
    (he : s.flag (HCI_SQ_CTRL_ENABLE n) fn = false) (hk : (s.sqLocked fn n && s.sqChanges fn n v) = false)
    (hc : s.sqCause fn v = some c) :
    (sqEnable s fn n v).flag (HCI_SQ_CTRL_ENABLE n) fn = false ∧
      (sqEnable s fn n v).flag HCI_STATUS_SETUP_ERR fn = true ∧
      (s.flag HCI_STATUS_SETUP_ERR fn = false → (sqEnable s fn n v).firstRefusal fn c n false) := by
  obtain ⟨-, -, -, hc16⟩ := State.sqCause_some hc
  unfold sqEnable
  rw [sqCtrl_open hk, sqEnableOpen_refused he hc]
  refine ⟨?_, State.setupErr_sets .., fun hs => State.setupErr_first _ hfn ?_ hc16 hn⟩
  · have hr : ((s.storeSqCtrl fn n v false).setupErr fn c n false).reg (HCI_SQ_CTRL n) fn = sqCtrlWord v false :=
      (State.reg_setupErr_ring _ hfn (by simp only [HCI_SQ_CTRL]; omega)).trans (s.storeSqCtrl_stores ..)
    exact (State.SqCtrl.of_word hr).enable
  · rw [State.storeSqCtrl, State.flag_setReg_off _ _ hfn hfn (.inl (by simp only [HCI_SQ_CTRL]; omega)), hs]

/-- A write that would change a locked field of a submission ring. -/
theorem sqEnable_locked {fn n : Nat} {v : Word} (hfn : fn < 1048576)
    (hk : (s.sqLocked fn n && s.sqChanges fn n v) = true) :
    (sqEnable s fn n v).flag HCI_STATUS_SETUP_ERR fn = true ∧
      (sqEnable s fn n v).fld (HCI_SQ_CTRL_SIZE_LOG2 n) fn = s.fld (HCI_SQ_CTRL_SIZE_LOG2 n) fn ∧
      (sqEnable s fn n v).fld (HCI_SQ_CTRL_CQ_ID n) fn = s.fld (HCI_SQ_CTRL_CQ_ID n) fn := by
  obtain ⟨hsize, hcq⟩ := sqEnableOpen_keeps (s := s) (n := n) (v := v) hfn
  unfold sqEnable
  rw [sqCtrl_locked hk]
  refine ⟨State.setupErr_sets .., ?_, ?_⟩
  · rw [State.fld_setupErr_ring _ hfn (Nat.le_add_right_of_le (by decide)), hsize]
  · rw [State.fld_setupErr_ring _ hfn (Nat.le_add_right_of_le (by decide)), hcq]

/-- An accepted enable of a completion ring. -/
theorem cqEnable_starts {fn m : Nat} {v : Word} (hfn : fn < 1048576)
    (he : s.flag (HCI_CQ_CTRL_ENABLE m) fn = false) (hc : sizeCause (ctrlSize v) = none) :
    (cqEnable s fn m v).CqCtrl fn m true (ctrlSize v) (ctrlIrq v) ∧
      (cqEnable s fn m v).reg (HCI_CQ_TAIL m) fn = 0 ∧ (cqEnable s fn m v).reg (HCI_CQ_HEAD m) fn = 0 ∧
      (cqEnable s fn m v).flag (HCI_CQ_STATUS_HALTED m) fn = false ∧
      (cqEnable s fn m v).host = s.host ∧ (cqEnable s fn m v).mem = s.mem := by
  unfold cqEnable
  rw [cqCtrl_open fun h => absurd h (Bool.eq_false_iff.1 he)]
  exact cqEnableOpen_starts hfn he hc

/-- A refused enable of a completion ring. -/
theorem cqEnable_refused {fn m c : Nat} {v : Word} (hfn : fn < 1048576) (hm : m < 64)
    (he : s.flag (HCI_CQ_CTRL_ENABLE m) fn = false) (hc : sizeCause (ctrlSize v) = some c) :
    (cqEnable s fn m v).flag (HCI_CQ_CTRL_ENABLE m) fn = false ∧
      (cqEnable s fn m v).flag HCI_STATUS_SETUP_ERR fn = true ∧
      (s.flag HCI_STATUS_SETUP_ERR fn = false → (cqEnable s fn m v).firstRefusal fn c m true) := by
  obtain ⟨-, -, hc16⟩ := sizeCause_some hc
  unfold cqEnable
  rw [cqCtrl_open fun h => absurd h (Bool.eq_false_iff.1 he), cqEnableOpen_refused he hc]
  refine ⟨?_, State.setupErr_sets .., fun hs => State.setupErr_first _ hfn ?_ hc16 hm⟩
  · exact (State.CqCtrl.of_word ((State.cqCtrl_setupErr _ hfn).trans (s.storeCqCtrl_stores fn m v false))).enable
  · rw [State.storeCqCtrl, State.flag_setReg_off _ _ hfn hfn (.inl (by simp only [HCI_CQ_CTRL]; omega)), hs]

/-- What a write with ENABLE = 1 leaves of an enabled completion ring. -/
theorem cqEnable_enabled_keeps {fn m : Nat} {v : Word} (hfn : fn < 1048576) (hm : m < 64)
    (he : s.flag (HCI_CQ_CTRL_ENABLE m) fn = true) :
    (cqEnable s fn m v).CqCtrl fn m true (s.fld (HCI_CQ_CTRL_SIZE_LOG2 m) fn) (ctrlIrq v) ∧
      (cqEnable s fn m v).reg (HCI_CQ_TAIL m) fn = s.reg (HCI_CQ_TAIL m) fn ∧ (cqEnable s fn m v).host = s.host ∧
      (ctrlSize v ≠ s.fld (HCI_CQ_CTRL_SIZE_LOG2 m) fn → (cqEnable s fn m v).flag HCI_STATUS_SETUP_ERR fn = true ∧
        (s.flag HCI_STATUS_SETUP_ERR fn = false → (cqEnable s fn m v).firstRefusal fn 4 m true)) := by
  have hirq : ctrlIrq v < 2 := getBits_lt v 12 1
  rw [cqEnable_enabled hfn he]
  obtain ⟨r, hr⟩ : ∃ r, (if ctrlSize v = s.fld (HCI_CQ_CTRL_SIZE_LOG2 m) fn then s else s.setupErr fn 4 m true) = r :=
    ⟨_, rfl⟩
  have hregs : ∀ o, 0x1000 ≤ o → r.reg o fn = s.reg o fn := fun o ho => by
    rw [← hr]
    split
    · rfl
    · exact State.reg_setupErr_ring _ hfn ho
  have hctrl : r.reg (HCI_CQ_CTRL m) fn = s.reg (HCI_CQ_CTRL m) fn := hregs _ (by simp only [HCI_CQ_CTRL]; omega)
  have hq : (r.setFld (HCI_CQ_CTRL_IRQ_EN m) fn (ctrlIrq v)).CqCtrl fn m true
      (s.fld (HCI_CQ_CTRL_SIZE_LOG2 m) fn) (ctrlIrq v) := by
    have h := r.setFld_irq_ctrl (fn := fn) (m := m) hirq
    have hen : r.flag (HCI_CQ_CTRL_ENABLE m) fn = true := (congrArg (getBits · 0 1 == 1) hctrl).trans he
    have hsz : r.fld (HCI_CQ_CTRL_SIZE_LOG2 m) fn = s.fld (HCI_CQ_CTRL_SIZE_LOG2 m) fn :=
      congrArg (getBits · 4 5) hctrl
    rwa [hen, hsz] at h
  have hlow : ∀ o, o < 0x1000 → (r.setFld (HCI_CQ_CTRL_IRQ_EN m) fn (ctrlIrq v)).reg o fn = r.reg o fn := fun o ho =>
    State.reg_setFld_off _ _ hfn hfn (by simp; omega)
  rw [hr]
  refine ⟨hq, ?_, ?_, fun hch => ?_⟩
  · rw [State.reg_setFld_off _ _ hfn hfn (by simp), hregs _ (by simp only [HCI_CQ_TAIL]; omega)]
  · rw [State.host_setFld, ← hr]
    split
    · rfl
    · exact State.host_setupErr ..
  · rw [if_neg hch] at hr
    refine ⟨?_, fun hs => ?_⟩
    · refine (congrArg (getBits · 0 1 == 1) (hlow HCI_STATUS (by decide))).trans ?_
      rw [← hr]
      exact State.setupErr_sets ..
    · refine (State.firstRefusal.of_reg (s := r) ?_ (hlow HCI_SETUP_ERR_CODE (by decide)))
      rw [← hr]
      exact State.setupErr_first _ hfn hs (by decide) hm

/-- Settles O12: the enables accepted, refused and locked, each by its ring's words after the write. -/
theorem ringEnableStartsOrRefuses : Obligations.RingEnableStartsOrRefuses := by
  unfold Obligations.RingEnableStartsOrRefuses
  have hb : ∀ fn : Fn, (fn : Nat) < 1048576 := fun fn => by omega
  refine ⟨⟨fun fn n val s hl he hk hc => ?_, fun fn m val s hl he hc => ?_⟩,
    ⟨fun fn n val c s hl he hk hc => ?_, fun fn m val c s hl he hc => ?_⟩,
    fun fn n val s hl he => ?_, fun fn n val s hl hk => ?_, fun fn m val s hl he => ?_, fun fn n val s hl => ?_⟩
  · obtain ⟨hctrl, hhead, htail, hhalt, hdrain, hfl, hmem⟩ := sqEnable_starts (hb fn) he hk hc
    exact ⟨_, exec_sqEnable hl, hctrl.enable, hctrl.size, hctrl.cq, hctrl.prio, hhead, htail, hhalt, hdrain, hfl, hmem⟩
  · obtain ⟨hctrl, htail, hhead, hhalt, hhost, hmem⟩ := cqEnable_starts (hb fn) he hc
    exact ⟨_, exec_cqEnable hl, hctrl.enable, hctrl.size, hctrl.irq, htail, hhead, hhalt, hhost, hmem⟩
  · obtain ⟨hen, herr, hfirst⟩ := sqEnable_refused (hb fn) n.isLt he hk hc
    obtain ⟨h1, h2, h3, -⟩ := State.sqCause_some hc
    exact ⟨_, exec_sqEnable hl, hen, herr, hfirst, h1, h2, h3⟩
  · obtain ⟨hen, herr, hfirst⟩ := cqEnable_refused (hb fn) m.isLt he hc
    obtain ⟨h1, h2, -⟩ := sizeCause_some hc
    exact ⟨_, exec_cqEnable hl, hen, herr, hfirst, h1, h2⟩
  · obtain ⟨hctrl, hhead, htail, hhost⟩ := sqEnable_enabled_keeps (n := n) (v := val) (hb fn) he
    refine ⟨_, exec_sqEnable hl, hctrl.enable, hctrl.prio, hctrl.size, hctrl.cq, hhead, htail, hhost, fun hch => ?_⟩
    rw [sqEnable_enabled he, if_pos hch]
    refine ⟨State.setupErr_sets .., fun hs => State.setupErr_first _ (hb fn) ?_ (by decide) n.isLt⟩
    rw [State.flag_setFld_off _ _ (hb fn) (hb fn) (.inl (by dsimp only; omega)), hs]
  · exact ⟨_, exec_sqEnable hl, sqEnable_locked (hb fn) hk⟩
  · obtain ⟨hctrl, htail, hhost, hch⟩ := cqEnable_enabled_keeps (v := val) (hb fn) m.isLt he
    exact ⟨_, exec_cqEnable hl, hctrl.enable, hctrl.irq, hctrl.size, htail, hhost, hch⟩
  · have hn : ¬s.fnLive fn = true := Bool.eq_false_iff.1 hl
    exact ⟨congrArg _ (if_neg hn), congrArg _ (if_neg hn)⟩

end Sys2Proof.Machine

namespace Sys2Proof.Machine

variable {s t u : State}

/-! ### Disabling (R36) -/

/-- A disabled submission ring as it stands before DRAINED is refreshed. -/
theorem sqDisableOpen_eq (s : State) (fn n : Nat) (v : Word) :
    sqDisableOpen s fn n v = ((s.storeSqCtrl fn n v false).forgetRing fn n).refreshDrained fn n := rfl

theorem State.marks_forgetRing (s : State) (fn n : Nat) :
    (s.forgetRing fn n).host.marks = s.host.marks.filter fun m => !(m.fn == fn && m.sq == n) := rfl

/-- No unmuted descriptor of the ring is in flight. -/
theorem ring_idle_iff (fs : List Flight) (fn n : Nat) :
    (!fs.any fun f => f.fn == fn && f.sq == n && !f.muted) = true ↔
      ∀ f ∈ fs, f.fn = fn → f.sq = n → f.muted = true := by
  simp only [Bool.not_eq_true', List.any_eq_false, Bool.and_eq_true, beq_iff_eq, not_and, and_imp,
    Bool.not_eq_false]

/-- What the disable of a submission ring leaves: its CTRL word with ENABLE clear, its descriptors in flight, and
none of its doorbells. -/
theorem sqDisableOpen_stops {fn n : Nat} {v : Word} (hfn : fn < 1048576) :
    (sqDisableOpen s fn n v).SqCtrl fn n false (ctrlSize v) (ctrlCq v) (ctrlPrio v) ∧
      (sqDisableOpen s fn n v).host.flights = s.host.flights ∧
      (∀ m ∈ (sqDisableOpen s fn n v).host.marks, ¬(m.fn = fn ∧ m.sq = n)) ∧
      ((sqDisableOpen s fn n v).flag (HCI_SQ_STATUS_DRAINED n) fn = true ↔
        ∀ f ∈ s.host.flights, f.fn = fn → f.sq = n → f.muted = true) := by
  have hw : ((s.storeSqCtrl fn n v false).forgetRing fn n).reg (HCI_SQ_CTRL n) fn = sqCtrlWord v false := by
    rw [State.reg_forgetRing, State.storeSqCtrl_stores]
  rw [sqDisableOpen_eq]
  refine ⟨.of_word ?_, ?_, fun m hm ⟨hf, hq⟩ => ?_, ?_⟩
  · rw [State.reg_refreshDrained_off _ hfn hfn (by simp), hw]
  · rw [State.host_refreshDrained, State.flights_forgetRing, State.host_storeSqCtrl]
  · rw [State.host_refreshDrained, State.marks_forgetRing] at hm
    simpa [hf, hq] using (List.mem_filter.1 hm).2
  · rw [State.drained_refreshDrained, (State.SqCtrl.of_word hw).enable, Bool.not_false, Bool.true_and,
      ring_idle_iff, State.flights_forgetRing, State.host_storeSqCtrl]

/-- A write with ENABLE = 0 that would change a locked field of a submission ring. -/
theorem sqDisable_locked {fn n : Nat} {v : Word} (hfn : fn < 1048576)
    (hk : (s.sqLocked fn n && s.sqChanges fn n v) = true) :
    (sqDisable s fn n v).SqCtrl fn n false (s.fld (HCI_SQ_CTRL_SIZE_LOG2 n) fn) (s.fld (HCI_SQ_CTRL_CQ_ID n) fn)
        (ctrlPrio v) ∧
      (sqDisable s fn n v).host.flights = s.host.flights ∧
      (sqDisable s fn n v).flag HCI_STATUS_SETUP_ERR fn = true := by
  obtain ⟨hctrl, hfl, -⟩ := sqDisableOpen_stops (s := s) (n := n)
    (v := keepFields sqFields (s.reg (HCI_SQ_CTRL n) fn) v) hfn
  rw [ctrlSize_keep_sq, ctrlCq_keep_sq, ctrlPrio_keep_sq] at hctrl
  unfold sqDisable
  rw [sqCtrl_locked hk]
  refine ⟨hctrl.of_reg (State.reg_setupErr_ring _ hfn (by simp only [HCI_SQ_CTRL]; omega)), ?_,
    State.setupErr_sets ..⟩
  rw [State.host_setupErr, hfl]

/-- A refusal leaves which completion rings enabled submission rings name. -/
theorem State.cqNamed_setupErr (s : State) {fn code ring m : Nat} {isCq : Bool} (hfn : fn < 1048576) :
    (s.setupErr fn code ring isCq).cqNamed fn m = s.cqNamed fn m := by
  unfold State.cqNamed
  congr 1
  funext n
  rw [s.flag_setupErr_ring hfn (by dsimp only; omega), s.fld_setupErr_ring hfn (by dsimp only; omega)]

theorem cqDisableOpen_free {fn m : Nat} {v : Word} (h : s.cqNamed fn m = false) :
    cqDisableOpen s fn m v = s.storeCqCtrl fn m v false := if_neg (by simp [h])

/-- A completion ring that no enabled submission ring names is disabled. -/
theorem cqDisable_free {fn m : Nat} {v : Word} (hfn : fn < 1048576) (he : s.flag (HCI_CQ_CTRL_ENABLE m) fn = true)
    (h : s.cqNamed fn m = false) :
    (cqDisable s fn m v).flag (HCI_CQ_CTRL_ENABLE m) fn = false ∧ (cqDisable s fn m v).host = s.host := by
  unfold cqDisable
  by_cases hsize : ctrlSize v = s.fld (HCI_CQ_CTRL_SIZE_LOG2 m) fn
  · rw [cqCtrl_open fun _ => hsize, cqDisableOpen_free h]
    exact ⟨(State.CqCtrl.of_word (s.storeCqCtrl_stores ..)).enable, State.host_storeCqCtrl ..⟩
  · rw [cqCtrl_locked he hsize, cqDisableOpen_free (by rw [State.cqNamed_setupErr _ hfn, h])]
    refine ⟨(State.CqCtrl.of_word (State.storeCqCtrl_stores ..)).enable, ?_⟩
    rw [State.host_storeCqCtrl, State.host_setupErr]

/-- One that is named stays enabled, with cause 0x5. -/
theorem cqDisable_named {fn m : Nat} {v : Word} (he : s.flag (HCI_CQ_CTRL_ENABLE m) fn = true)
    (h : s.cqNamed fn m = true) (hsize : ctrlSize v = s.fld (HCI_CQ_CTRL_SIZE_LOG2 m) fn) :
    cqDisable s fn m v = s.setupErr fn 5 m true := by
  rw [cqDisable, cqCtrl_open fun _ => hsize, cqDisableOpen, if_pos (by simp [he, h])]

/-- Settles O13: the words of CTRL that a disable stores, and what the ring forgets. -/
theorem ringDisableStopsFetching : Obligations.RingDisableStopsFetching := by
  unfold Obligations.RingDisableStopsFetching
  have hb : ∀ fn : Fn, (fn : Nat) < 1048576 := fun fn => by omega
  refine ⟨fun fn n val s hl hk => ?_, fun fn n val s hl hk => ?_, fun fn m val s hl he =>
    ⟨fun h => ?_, fun h hsize => ?_⟩⟩
  · obtain ⟨hctrl, hfl, hmarks, hdrain⟩ := sqDisableOpen_stops (s := s) (n := n) (v := val) (hb fn)
    refine ⟨_, exec_sqDisable hl, ?_⟩
    unfold sqDisable
    rw [sqCtrl_open hk]
    exact ⟨hctrl.enable, hfl, hmarks, hdrain⟩
  · obtain ⟨hctrl, hfl, herr⟩ := sqDisable_locked (hb fn) hk
    exact ⟨_, exec_sqDisable hl, hctrl.enable, hfl, herr, hctrl.size, hctrl.cq⟩
  · exact ⟨_, exec_cqDisable hl, cqDisable_free (hb fn) he h⟩
  · refine ⟨_, exec_cqDisable hl, ?_⟩
    rw [cqDisable_named he h hsize]
    refine ⟨?_, State.setupErr_sets .., State.host_setupErr .., fun hs =>
      State.setupErr_first _ (hb fn) hs (by decide) m.isLt⟩
    rw [State.flag_setupErr_ring _ (hb fn) (by dsimp only; omega), he]

end Sys2Proof.Machine

namespace Sys2Proof.Machine

variable {s t u : State}

/-! ## Doorbells (R32, R33, R37, R39) -/

/-- What software stores before it acts changes no register. -/
theorem State.regs_hostStores (s : State) (st : List HostStore) : (s.hostStores st).regs = s.regs := by
  unfold State.hostStores
  refine foldl_keeps (·.regs) (fun s x => ?_) st s
  exact s.regs_writeHost x.addr x.bytes

theorem State.fnLive_congr (h : t.regs = s.regs) (fn : Nat) : t.fnLive fn = s.fnLive fn := by
  simp only [State.fnLive, State.prtState, State.fld_congr h]

theorem State.isolated_congr (h : t.regs = s.regs) : t.isolated = s.isolated := State.flag_congr h _ _

/-- A doorbell write that reaches its page acts. -/
theorem throughPage_reach {fn page : Nat} {viol : Option (Nat × Nat)} (hl : s.fnLive fn = true)
    (hp : fn = pageFn page ∨ fn = 0 ∧ s.isolated = false) : throughPage s fn page viol t = t := by
  rcases hp with hp | ⟨h0, hi⟩
  · simp [throughPage, hl, ← hp]
  · subst h0
    simp [throughPage, hl, hi]

/-- The owner's doorbell write to a partition's page while isolation mode is on: what is wrong with it is logged
before that the page is isolated. -/
theorem throughPage_isolated {page c v : Nat} {viol : Option (Nat × Nat)} (hp : page ≠ 32) (hi : s.isolated = true)
    (hv : viol.getD (0x0A, page) = (c, v)) : throughPage s 0 page viol t = s.hostViolation 0 c v := by
  have hpage : (0 : Nat) ≠ pageFn page := by
    rw [pageFn, if_neg hp]
    omega
  unfold throughPage
  rw [if_neg (by simp [State.fnLive]), if_neg hpage, if_neg (by simp), if_pos hi]
  cases viol <;> cases hv <;> rfl

/-! ### Tail doorbells -/

/-- R37 accepts a tail: it leaves at most the ring's size outstanding and is not behind the accepted one. -/
def State.tailFits (s : State) (g n : Nat) (tail : Word) : Prop :=
  (tail - s.reg (HCI_SQ_HEAD n) g).toNat ≤ 2 ^ s.fld (HCI_SQ_CTRL_SIZE_LOG2 n) g ∧
    (tail - s.reg (HCI_SQ_TAIL n) g).toNat ≤ (tail - s.reg (HCI_SQ_HEAD n) g).toNat

theorem State.tailViolation_noRing {g n : Nat} {tail : Word}
    (h : 64 ≤ n ∨ s.flag (HCI_SQ_CTRL_ENABLE n) g = false) : s.tailViolation g n tail = some (2, n) :=
  if_pos (by simpa using h)

theorem State.tailViolation_fits {g n : Nat} {tail : Word} (hn : n < 64)
    (he : s.flag (HCI_SQ_CTRL_ENABLE n) g = true) (h : s.tailFits g n tail) : s.tailViolation g n tail = none := by
  unfold State.tailViolation
  rw [if_neg (by simp [he, hn])]
  exact if_pos h

theorem State.tailViolation_beyond {g n : Nat} {tail : Word} (hn : n < 64)
    (he : s.flag (HCI_SQ_CTRL_ENABLE n) g = true) (h : ¬s.tailFits g n tail) :
    s.tailViolation g n tail = some (1, tail.toNat) := by
  unfold State.tailViolation
  rw [if_neg (by simp [he, hn])]
  exact if_neg h

theorem tailDoorbell_violates {fn g n c v : Nat} {tail : Word} (h : s.tailViolation g n tail = some (c, v)) :
    tailDoorbell s fn g n tail = s.hostViolation fn c v := by
  simp only [tailDoorbell, h]

/-- A tail that is accepted already has no effect. -/
theorem tailDoorbell_same {fn g n : Nat} {tail : Word} (h : s.tailViolation g n tail = none)
    (he : tail = s.reg (HCI_SQ_TAIL n) g) : tailDoorbell s fn g n tail = s := by
  simp only [tailDoorbell, h]
  exact if_pos he

/-- An accepted tail is the ring's TAIL, and no other register changes. -/
theorem tailDoorbell_accepts {fn g n : Nat} {tail : Word} (h : s.tailViolation g n tail = none) :
    (tailDoorbell s fn g n tail).reg (HCI_SQ_TAIL n) g = tail ∧
      (∀ o j, regKey (HCI_SQ_TAIL n) g ≠ regKey o j → (tailDoorbell s fn g n tail).reg o j = s.reg o j) ∧
      (tailDoorbell s fn g n tail).host.mem = s.host.mem := by
  by_cases he : tail = s.reg (HCI_SQ_TAIL n) g
  · rw [tailDoorbell_same h he]
    exact ⟨he.symm, fun _ _ _ => rfl, rfl⟩
  · simp only [tailDoorbell, h]
    rw [if_neg he]
    exact ⟨s.reg_setReg_same .., fun o j ho => s.reg_setReg_ne _ ho, rfl⟩

theorem exec_tailDoorbell {fn page : Fn} {ring : Nat} {tail : Word} {stores : List HostStore}
    (hl : s.fnLive fn = true) (hp : (fn : Nat) = pageFn page ∨ (fn : Nat) = 0 ∧ s.isolated = false) :
    exec (.tailDoorbell fn page ring tail stores) s =
      .next (tailDoorbell (s.hostStores stores) fn (pageFn page) ring tail) := by
  have hr := s.regs_hostStores stores
  refine congrArg _ (throughPage_reach ?_ (hp.imp_right fun h => ⟨h.1, ?_⟩))
  · rw [State.fnLive_congr hr, hl]
  · rw [State.isolated_congr hr, h.2]

/-- A doorbell's verdict depends on the registers alone. -/
theorem State.tailViolation_congr (h : t.regs = s.regs) (g n : Nat) (tail : Word) :
    t.tailViolation g n tail = s.tailViolation g n tail := by
  simp only [State.tailViolation, State.reg_congr h, State.fld_congr h, State.flag_congr h]

/-- Settles O14: the verdict of R37 on the offered tail, and what each verdict does. -/
theorem tailDoorbellAcceptsWithinRing : Obligations.TailDoorbellAcceptsWithinRing := by
  unfold Obligations.TailDoorbellAcceptsWithinRing
  refine ⟨fun fn page n tail stores s hl hp => ?_, fun fn page ring tail stores s hl hp hring => ?_⟩
  · have hr := s.regs_hostStores stores
    intro g old head fits
    refine ⟨_, exec_tailDoorbell hl hp, ?_⟩
    have hv := State.tailViolation_congr hr g n tail
    have hold : (s.hostStores stores).reg (HCI_SQ_TAIL n) g = old := State.reg_congr hr _ _
    cases he : s.flag (HCI_SQ_CTRL_ENABLE n) g with
    | false =>
      have hviol := tailDoorbell_violates (fn := fn) (hv.trans (State.tailViolation_noRing (.inr he)))
      change tailDoorbell (s.hostStores stores) fn g n tail = _ at hviol
      rw [hviol, State.host_hostViolation]
      exact ⟨rfl, by simp, by simp, by simp, fun _ => rfl⟩
    | true =>
      by_cases hf : fits
      · have hnone := hv.trans (State.tailViolation_fits n.isLt he hf)
        obtain ⟨htail, hregs, hmem⟩ := tailDoorbell_accepts (fn := fn) hnone
        exact ⟨hmem, fun _ _ => ⟨htail, fun o j ho => (hregs o j ho).trans (State.reg_congr hr o j)⟩,
          fun _ _ ht => tailDoorbell_same hnone (ht.trans hold.symm), fun _ h => absurd hf h, by simp⟩
      · have hviol := tailDoorbell_violates (fn := fn) (hv.trans (State.tailViolation_beyond n.isLt he hf))
        change tailDoorbell (s.hostStores stores) fn g n tail = _ at hviol
        rw [hviol, State.host_hostViolation]
        exact ⟨rfl, fun _ h => absurd h hf, fun _ h => absurd h hf, fun _ _ => rfl, by simp⟩
  · rw [exec_tailDoorbell hl hp, tailDoorbell_violates (State.tailViolation_noRing (.inl hring))]

/-! ### Head doorbells -/

theorem State.headViolation_noRing {g m : Nat} {head : Word}
    (h : 64 ≤ m ∨ s.flag (HCI_CQ_CTRL_ENABLE m) g = false) : s.headViolation g m head = some (2, m) :=
  if_pos (by simpa using h)

/-- R39 accepts a head: it is within the outstanding records. -/
def State.headFits (s : State) (g m : Nat) (head : Word) : Prop :=
  (head - s.reg (HCI_CQ_HEAD m) g).toNat ≤ (s.reg (HCI_CQ_TAIL m) g - s.reg (HCI_CQ_HEAD m) g).toNat

theorem State.headViolation_fits {g m : Nat} {head : Word} (hm : m < 64)
    (he : s.flag (HCI_CQ_CTRL_ENABLE m) g = true) (h : s.headFits g m head) : s.headViolation g m head = none := by
  unfold State.headViolation
  rw [if_neg (by simp [he, hm])]
  exact if_pos h

theorem State.headViolation_beyond {g m : Nat} {head : Word} (hm : m < 64)
    (he : s.flag (HCI_CQ_CTRL_ENABLE m) g = true) (h : ¬s.headFits g m head) :
    s.headViolation g m head = some (4, head.toNat) := by
  unfold State.headViolation
  rw [if_neg (by simp [he, hm])]
  exact if_neg h

theorem headDoorbell_violates {fn g m c v : Nat} {head : Word} (h : s.headViolation g m head = some (c, v)) :
    headDoorbell s fn g m head = s.hostViolation fn c v := by
  simp only [headDoorbell, h]

/-- An accepted head is the ring's HEAD; FULL is refreshed. -/
theorem headDoorbell_accepts {fn g m : Nat} {head : Word} (hg : g < 1048576) (h : s.headViolation g m head = none) :
    (headDoorbell s fn g m head).reg (HCI_CQ_HEAD m) g = head ∧ (headDoorbell s fn g m head).host = s.host := by
  simp only [headDoorbell, h]
  unfold State.refreshFull
  exact ⟨by rw [State.reg_setFld_off _ _ hg hg (by simp), State.reg_setReg_same],
    by rw [State.host_setFld, State.host_setReg]⟩

theorem exec_headDoorbell {fn page : Fn} {ring : Nat} {head : Word} (hl : s.fnLive fn = true)
    (hp : (fn : Nat) = pageFn page ∨ (fn : Nat) = 0 ∧ s.isolated = false) :
    exec (.headDoorbell fn page ring head) s = .next (headDoorbell s fn (pageFn page) ring head) :=
  congrArg _ (throughPage_reach hl hp)

/-- The codes of a doorbell's violations are below that of an isolated page's. -/
theorem State.tailViolation_code {g n c v : Nat} {tail : Word} (h : s.tailViolation g n tail = some (c, v)) :
    c < 10 := by
  unfold State.tailViolation at h
  dsimp only at h
  split at h
  · cases h
    decide
  · split at h
    · cases h
    · cases h
      decide

theorem State.headViolation_code {g m c v : Nat} {head : Word} (h : s.headViolation g m head = some (c, v)) :
    c < 10 := by
  unfold State.headViolation at h
  dsimp only at h
  split at h
  · cases h
    decide
  · split at h
    · cases h
    · cases h
      decide

theorem pageFn_lt (page : Fn) : pageFn page < 1048576 := by
  unfold pageFn
  split <;> omega

/-- Settles O15: the verdict of R39, and the writes that ring nothing. -/
theorem headAndBadDoorbells : Obligations.HeadAndBadDoorbells := by
  unfold Obligations.HeadAndBadDoorbells
  refine ⟨fun fn page m head s hl hp => ?_, fun fn page ring v s hl hp hring => ⟨?_, ?_⟩,
    fun fn page off size s hl hp hbad => ?_, fun page ring v s hp hi => ?_⟩
  · intro g old fits
    refine ⟨_, exec_headDoorbell hl hp, ?_⟩
    cases he : s.flag (HCI_CQ_CTRL_ENABLE m) g with
    | false =>
      have hviol := headDoorbell_violates (fn := fn) (s.headViolation_noRing (head := head) (.inr he))
      change headDoorbell s fn g m head = _ at hviol
      rw [hviol, State.host_hostViolation]
      exact ⟨rfl, by simp, by simp, fun _ => rfl⟩
    | true =>
      by_cases hf : fits
      · obtain ⟨hhead, hhost⟩ := headDoorbell_accepts (fn := fn) (pageFn_lt page)
          (State.headViolation_fits m.isLt he hf)
        exact ⟨hhost, fun _ _ => hhead, fun _ h => absurd hf h, by simp⟩
      · have hviol := headDoorbell_violates (fn := fn) (State.headViolation_beyond m.isLt he hf)
        change headDoorbell s fn g m head = _ at hviol
        rw [hviol, State.host_hostViolation]
        exact ⟨rfl, fun _ h => absurd h hf, fun _ _ => rfl, by simp⟩
  · rw [exec_headDoorbell hl (.inl hp), headDoorbell_violates (State.headViolation_noRing (.inl hring))]
  · rw [exec_tailDoorbell hl (.inl hp)]
    exact congrArg _ (tailDoorbell_violates (State.tailViolation_noRing (.inl hring)))
  · refine congrArg _ (if_pos ?_)
    simp only [hbad, hl, Bool.and_self, Bool.true_and, Bool.or_eq_true, beq_iff_eq]
    exact hp.symm
  · refine ⟨fun h => ?_, fun h => ?_, fun c x h => ⟨State.headViolation_code h, ?_⟩,
      fun c x h => ⟨State.tailViolation_code h, ?_⟩⟩ <;>
      exact congrArg Host.Outcome.next (throughPage_isolated hp hi (congrArg (Option.getD · _) h))

end Sys2Proof.Machine

namespace Sys2Proof.Machine

variable {s t u : State}

/-! ## The end of a descriptor (R28, R59, R61) -/

/-- The record that the end of a descriptor makes on a module without an internal fault (R59). -/
def State.endRec (s : State) (f : Flight) (status aux detail : Nat) : Rec :=
  { fn := f.fn, cq := s.fld (HCI_SQ_CTRL_CQ_ID f.sq) f.fn, sq := f.sq, seq := some f.seq
    tag := fieldAt f.bytes 4 4, status := status, opcode := fieldAt f.bytes 0 1
    detail := detail, endBeat := s.endBeat, aux := aux, irq := (fieldAt f.bytes 1 1).testBit 1 }

/-- The descriptor is finished and its record waits. -/
def State.queueEnd (s : State) (f : Flight) (r : Rec) : State :=
  let u := s.updFlight f.seq fun g => { g with taken := true, started := true, finished := true }
  { u with host := { u.host with waiting := u.host.waiting ++ [r] } }

theorem State.finish_muted {f : Flight} (h : f.muted = true) (status aux detail : Nat) :
    s.finish f status aux detail = (s.dropFlight f.seq).refreshDrained f.fn f.sq := if_pos h

/-- A descriptor that no reset muted ends with one record, of its ring's completion ring. -/
theorem State.finish_unmuted {f : Flight} (h : f.muted = false) (status aux detail : Nat) :
    ∃ st au, s.finish f status aux detail =
        (s.queueEnd f (s.endRec f st au detail)).refreshFull f.fn (s.fld (HCI_SQ_CTRL_CQ_ID f.sq) f.fn) ∧
      (s.internalAux f.fn = none → st = status ∧ au = aux) := by
  unfold State.finish
  rw [if_neg (by simp [h])]
  cases s.internalAux f.fn with
  | none => exact ⟨status, aux, rfl, fun _ => ⟨rfl, rfl⟩⟩
  | some c => exact ⟨stInternal, c, rfl, nofun⟩

theorem State.host_refreshFull (s : State) (fn m : Nat) : (s.refreshFull fn m).host = s.host := by
  unfold State.refreshFull
  rw [State.host_setFld]

theorem State.mem_refreshFull (s : State) (fn m : Nat) : (s.refreshFull fn m).mem = s.mem := by
  unfold State.refreshFull
  rw [State.mem_setFld]

/-- FULL is refreshed in STATUS alone. -/
theorem State.reg_refreshFull_off (s : State) {fn m o j : Nat} (hfn : fn < 1048576) (hj : j < 1048576)
    (h : HCI_CQ_STATUS m ≠ o) : (s.refreshFull fn m).reg o j = s.reg o j :=
  s.reg_setFld_off _ hfn hj h

theorem State.fld_lt (s : State) (f : Field) (i : Nat) : s.fld f i < 2 ^ f.w := by
  unfold State.fld getBits
  exact Nat.mod_lt _ (Nat.two_pow_pos _)

/-- The end of a descriptor writes the STATUS of its ring or of its completion ring, and no other register. -/
theorem State.reg_finish_off (s : State) {f : Flight} (status aux detail : Nat) {o j : Nat} (hfn : f.fn < 1048576)
    (hj : j < 1048576) (hsq : HCI_SQ_STATUS f.sq ≠ o) (hcq : ∀ m < 64, HCI_CQ_STATUS m ≠ o) :
    (s.finish f status aux detail).reg o j = s.reg o j := by
  cases h : f.muted with
  | true => rw [State.finish_muted h, State.reg_refreshDrained_off _ hfn hj hsq]; rfl
  | false =>
    obtain ⟨st, au, he, -⟩ := s.finish_unmuted h status aux detail
    rw [he, State.reg_refreshFull_off _ hfn hj (hcq _ (s.fld_lt _ _))]
    rfl

theorem State.mem_finish (s : State) (f : Flight) (status aux detail : Nat) :
    (s.finish f status aux detail).mem = s.mem := by
  cases h : f.muted with
  | true => rw [State.finish_muted h, State.mem_refreshDrained, State.mem_dropFlight]
  | false =>
    obtain ⟨st, au, he, -⟩ := s.finish_unmuted h status aux detail
    rw [he, State.mem_refreshFull]
    rfl

theorem State.hostMem_finish (s : State) (f : Flight) (status aux detail : Nat) :
    (s.finish f status aux detail).host.mem = s.host.mem := by
  cases h : f.muted with
  | true => rw [State.finish_muted h, State.host_refreshDrained, State.mem_dropFlight']
  | false =>
    obtain ⟨st, au, he, -⟩ := s.finish_unmuted h status aux detail
    rw [he, State.host_refreshFull]
    rfl

theorem State.withdrawn_finish (s : State) (f : Flight) (status aux detail : Nat) :
    (s.finish f status aux detail).host.withdrawn = s.host.withdrawn := by
  cases h : f.muted with
  | true => rw [State.finish_muted h, State.host_refreshDrained]; rfl
  | false =>
    obtain ⟨st, au, he, -⟩ := s.finish_unmuted h status aux detail
    rw [he, State.host_refreshFull]
    rfl

/-- Without an internal fault the record of a descriptor that no reset muted joins those that wait. -/
theorem State.waiting_finish {f : Flight} (h : f.muted = false) (hi : s.internalAux f.fn = none)
    (status aux detail : Nat) :
    (s.finish f status aux detail).host.waiting = s.host.waiting ++ [s.endRec f status aux detail] := by
  obtain ⟨st, au, he, hsa⟩ := s.finish_unmuted h status aux detail
  obtain ⟨rfl, rfl⟩ := hsa hi
  rw [he, State.host_refreshFull]
  rfl

/-! ## Fetching (R37, R38, R40) -/

/-- The descriptor that a good fetch puts in flight. -/
def State.fetched (s : State) (fn n : Nat) : Flight :=
  { fn := fn, sq := n, idx := (s.reg (HCI_SQ_HEAD n) fn).toNat, seq := s.host.nextSeq
    bell := (takeMark fn n s.host.marks).1, bytes := s.readHost (s.slotAddr fn n (s.reg (HCI_SQ_HEAD n) fn)) 64
    taken := false, started := false, ran := false, finished := false, muted := false }

/-- The slot that HEAD names, as a CANCEL would withdraw it. -/
def State.headSlot (s : State) (fn n : Nat) : Nat × Nat × Nat := (fn, n, (s.reg (HCI_SQ_HEAD n) fn).toNat)

/-- A good fetch, before the ring's HEAD and DRAINED follow it. -/
def State.takeFlight (s : State) (fn n : Nat) : State :=
  let u := s.countTurn fn n
  { u with host := { u.host with
    flights := s.host.flights ++ [s.fetched fn n], marks := (takeMark fn n s.host.marks).2
    nextSeq := s.host.nextSeq + 1, withdrawn := s.host.withdrawn.filter (· != s.headSlot fn n) } }

/-- A good fetch, the withdrawal of its slot aside. -/
def State.fetchGood (s : State) (fn n : Nat) : State :=
  ((s.takeFlight fn n).setReg (HCI_SQ_HEAD n) fn (s.reg (HCI_SQ_HEAD n) fn + 1)).refreshDrained fn n

theorem descriptorFetch_idle {fn n : Nat} {ok : Bool} (h : s.mayFetch fn n = false ∨ s.fetchTurn fn n = false) :
    descriptorFetch s fn n ok = s := if_pos (by simpa using h)

theorem descriptorFetch_good {fn n : Nat} (hm : s.mayFetch fn n = true) (ht : s.fetchTurn fn n = true) :
    descriptorFetch s fn n true = if s.host.withdrawn.contains (s.headSlot fn n) then
      (s.fetchGood fn n).finish (s.fetched fn n) stCancelled 0 0 else s.fetchGood fn n := by
  unfold descriptorFetch
  rw [if_neg (by simp [hm, ht])]
  rfl

theorem State.host_fetchGood (s : State) (fn n : Nat) : (s.fetchGood fn n).host = (s.takeFlight fn n).host := by
  unfold State.fetchGood
  rw [State.host_refreshDrained, State.host_setReg]

theorem State.head_fetchGood (s : State) {fn n : Nat} (hfn : fn < 1048576) :
    (s.fetchGood fn n).reg (HCI_SQ_HEAD n) fn = s.reg (HCI_SQ_HEAD n) fn + 1 := by
  unfold State.fetchGood
  rw [State.reg_refreshDrained_off _ hfn hfn (by simp), State.reg_setReg_same]

/-- The record of a failed fetch (R62). -/
def State.fetchRec (s : State) (fn n : Nat) : Rec :=
  { fn := fn, cq := s.fld (HCI_SQ_CTRL_CQ_ID n) fn, sq := n, seq := none, tag := 0xFFFFFFFF, status := stDataError
    opcode := 0xFF, detail := 0, endBeat := s.endBeat, aux := 0x0E, irq := false }

/-- A ring halted by a failed fetch, its record aside. -/
def State.fetchHalt (s : State) (fn n : Nat) : State :=
  ((s.countTurn fn n).setFld (HCI_SQ_STATUS_HALTED n) fn 1).hostViolation fn 0x07 (s.reg (HCI_SQ_HEAD n) fn).toNat

theorem descriptorFetch_bad {fn n : Nat} (hm : s.mayFetch fn n = true) (ht : s.fetchTurn fn n = true) :
    descriptorFetch s fn n false = { s.fetchHalt fn n with host := { (s.fetchHalt fn n).host with
      waiting := (s.fetchHalt fn n).host.waiting ++ [(s.fetchHalt fn n).fetchRec fn n] } } := by
  unfold descriptorFetch
  rw [if_neg (by simp [hm, ht])]
  rfl

theorem not_mem_violRegs {o : Nat} (h : 0x28 < o) : o ∉ violRegs := fun hm => by
  have : ∀ x ∈ violRegs, x ≤ 0x28 := by decide
  exact absurd (this o hm) (not_le.2 h)

theorem State.reg_countTurn (s : State) (fn n o i : Nat) : (s.countTurn fn n).reg o i = s.reg o i := rfl

/-- A failed fetch writes STATUS of its ring, beside the violation. -/
theorem State.reg_fetchHalt_off (s : State) {fn n o : Nat} (hfn : fn < 1048576) (ho : o < 0x100000)
    (hn : o ∉ violRegs) (hs : HCI_SQ_STATUS n ≠ o) : (s.fetchHalt fn n).reg o fn = s.reg o fn := by
  unfold State.fetchHalt
  rw [State.reg_hostViolation_off _ hfn hfn ho hn, State.reg_setFld_off _ _ hfn hfn hs, State.reg_countTurn]

theorem State.halted_fetchHalt (s : State) {fn n : Nat} (hfn : fn < 1048576) (hn : n < 64) :
    (s.fetchHalt fn n).flag (HCI_SQ_STATUS_HALTED n) fn = true := by
  unfold State.fetchHalt
  rw [State.flag_hostViolation_off _ hfn hfn (by dsimp only; omega) (not_mem_violRegs (by dsimp only; omega))]
  exact State.flag_setFld_same _ fn true (by simp) rfl

theorem State.firstViol_fetchHalt (s : State) {fn n : Nat} (hfn : fn < 1048576)
    (hv : s.flag HCI_STATUS_VIOL fn = false) :
    (s.fetchHalt fn n).fld HCI_VIOL_CODE_CODE fn = 7 ∧
      (s.fetchHalt fn n).fld HCI_VIOL_VALUE_VALUE fn = (s.reg (HCI_SQ_HEAD n) fn).toNat := by
  have h := State.firstViol_hostViolation (s := (s.countTurn fn n).setFld (HCI_SQ_STATUS_HALTED n) fn 1)
    (code := 7) (value := (s.reg (HCI_SQ_HEAD n) fn).toNat) hfn
    (by rw [State.flag_setFld_off _ _ hfn hfn (.inl (by dsimp only; omega))]; exact hv)
  rwa [Nat.mod_eq_of_lt (BitVec.isLt _)] at h

theorem State.host_fetchHalt (s : State) (fn n : Nat) : (s.fetchHalt fn n).host = (s.countTurn fn n).host := by
  unfold State.fetchHalt
  rw [State.host_hostViolation, State.host_setFld]

/-- Settles O16: a good fetch, a withdrawn slot, a failed fetch, and a ring that fetches nothing. -/
theorem descriptorFetchTakesHeadSlot : Obligations.DescriptorFetchTakesHeadSlot := by
  unfold Obligations.DescriptorFetchTakesHeadSlot
  refine ⟨fun fn n s hm ht => ?_, fun fn n ok s h => congrArg _ (descriptorFetch_idle h)⟩
  have hfn : (fn : Nat) < 1048576 := by omega
  have hgood := descriptorFetch_good hm ht
  intro slot gone
  refine ⟨fun hw => ?_, fun hw hi => ?_, ?_⟩
  · rw [if_neg (by simpa using show s.headSlot fn n ∉ _ from hw)] at hgood
    refine ⟨_, s.fetched fn n, congrArg Host.Outcome.next hgood, ?_⟩
    rw [State.host_fetchGood]
    exact ⟨rfl, rfl, rfl, rfl, rfl, rfl, rfl, rfl, rfl, s.head_fetchGood hfn⟩
  · rw [if_pos (by simpa using show s.headSlot fn n ∈ _ from hw)] at hgood
    have hi' : (s.fetchGood fn n).internalAux fn = none := hi
    refine ⟨_, (s.fetchGood fn n).endRec (s.fetched fn n) stCancelled 0 0, congrArg Host.Outcome.next hgood, ?_⟩
    rw [State.waiting_finish rfl hi', State.withdrawn_finish, State.host_fetchGood,
      State.reg_finish_off _ _ _ _ hfn hfn (by simp [State.fetched])
        (fun m hm => by simp only [HCI_CQ_STATUS, HCI_SQ_HEAD]; omega),
      s.head_fetchGood hfn]
    refine ⟨rfl, rfl, rfl, rfl, rfl, fun hmem => ?_, rfl⟩
    exact absurd rfl (bne_iff_ne.1 (List.mem_filter.1 hmem).2)
  · have hkeep := fun o => s.reg_fetchHalt_off (n := n) (o := o) hfn
    refine ⟨_, (s.fetchHalt fn n).fetchRec fn n, congrArg Host.Outcome.next (descriptorFetch_bad hm ht), ?_⟩
    refine ⟨congrArg (·.waiting ++ _) (s.host_fetchHalt fn n), rfl, rfl, rfl, ?_, s.halted_fetchHalt hfn n.isLt, ?_,
      congrArg (·.flights) (s.host_fetchHalt fn n), fun hv => s.firstViol_fetchHalt hfn hv⟩
    · exact congrArg (getBits · 16 6) (hkeep (HCI_SQ_CTRL n) (by simp only [HCI_SQ_CTRL]; omega)
        (not_mem_violRegs (by simp only [HCI_SQ_CTRL]; omega)) (by simp))
    · exact hkeep (HCI_SQ_HEAD n) (by simp only [HCI_SQ_HEAD]; omega)
        (not_mem_violRegs (by simp only [HCI_SQ_HEAD]; omega)) (by simp)

end Sys2Proof.Machine

namespace Sys2Proof.Machine

variable {s t u : State}

/-! ## Completion records (R39, R59 to R62) -/

theorem length_leBytes (n v : Nat) : (leBytes n v).length = n := by
  induction n generalizing v with
  | zero => rfl
  | succ n ih => rw [leBytes, List.length_cons, ih]

theorem length_recBytes (r : Rec) (head phase : Nat) : (recBytes r head phase).length = 32 := by
  simp only [recBytes, List.length_append, length_leBytes]

/-- The record that is written next is one of its completion ring. -/
theorem State.nextRec_some {fn m : Nat} {r : Rec} (h : s.nextRec fn m = some r) : r.fn = fn ∧ r.cq = m := by
  simpa using List.find?_some h

/-- A descriptor's leave of the flights touches neither host memory nor the records. -/
theorem State.host_retire (s : State) (r : Rec) :
    (s.retire r).host.mem = s.host.mem ∧ (s.retire r).host.waiting = s.host.waiting := by
  unfold State.retire
  split <;> rw [State.host_refreshDrained] <;> exact ⟨rfl, rfl⟩

theorem State.reg_retire_off (s : State) {r : Rec} {o j : Nat} (hfn : r.fn < 1048576) (hj : j < 1048576)
    (h : HCI_SQ_STATUS r.sq ≠ o) : (s.retire r).reg o j = s.reg o j := by
  unfold State.retire
  split <;> rw [State.reg_refreshDrained_off _ hfn hj h]
  rfl

/-- The submission rings' STATUS lies beside a completion ring's TAIL, and below its STATUS for rings there are. -/
theorem sqStatus_ne_cqTail (n m : Nat) : HCI_SQ_STATUS n ≠ HCI_CQ_TAIL m := by
  simp only [HCI_SQ_STATUS, HCI_CQ_TAIL]
  omega

/-- The records that wait once the first of a completion ring is taken. -/
def State.takeRec (s : State) (fn m : Nat) : State :=
  { s with host := { s.host with waiting := dropRec fn m s.host.waiting } }

/-- The slot of a completion ring's TAIL. -/
def State.tailSlot (s : State) (fn m : Nat) : Nat :=
  s.reg64 (HCI_CQ_BASE_LO m) fn +
    32 * ((s.reg (HCI_CQ_TAIL m) fn).toNat % 2 ^ s.fld (HCI_CQ_CTRL_SIZE_LOG2 m) fn)

/-- The record as it is written at TAIL. -/
def State.tailBytes (s : State) (fn m : Nat) (r : Rec) : List Byte :=
  recBytes r (s.reg (HCI_SQ_HEAD r.sq) fn).toNat
    (phaseOf (s.reg (HCI_CQ_TAIL m) fn).toNat (s.fld (HCI_CQ_CTRL_SIZE_LOG2 m) fn))

/-- The record lies at TAIL's slot, waits no longer, and TAIL is past it. -/
def State.storeRec (s : State) (fn m : Nat) (r : Rec) : State :=
  let u := s.writeHost (s.tailSlot fn m) (s.tailBytes fn m r)
  let v := { u with host := { u.host with waiting := dropRec fn m s.host.waiting } }
  v.setReg (HCI_CQ_TAIL m) fn (s.reg (HCI_CQ_TAIL m) fn + 1)

/-- The ring's stalls, the descriptor, FULL and the interrupt follow a written record. -/
def State.settleRec (s : State) (fn m : Nat) (r : Rec) : State :=
  let u := if s.cqFull fn m then s.bump (HCI_CQ_STATUS_FULL_STALLS m) fn else s
  let v := (u.retire r).refreshFull fn m
  if r.irq && v.flag (HCI_CQ_CTRL_IRQ_EN m) fn then v.raise fn m else v

/-- The ring may take its next record: it is enabled, not full, and the input is not failing. -/
structure State.MayWrite (s : State) (fn m : Nat) (r : Rec) : Prop where
  next : s.nextRec fn m = some r
  enabled : s.flag (HCI_CQ_CTRL_ENABLE m) fn = true
  power : s.flag CLK_STATUS_VIN_WARN = false

theorem writeRecord_idle {fn m : Nat} {ok : Bool} (h : s.nextRec fn m = none ∨
    s.flag (HCI_CQ_CTRL_ENABLE m) fn = false ∨ s.flag CLK_STATUS_VIN_WARN = true) :
    writeRecord s fn m ok = s := by
  unfold writeRecord
  cases hr : s.nextRec fn m with
  | none => rfl
  | some r =>
    rw [hr] at h
    exact if_pos (by simpa using h)

theorem writeRecord_full {fn m : Nat} {ok : Bool} {r : Rec} (h : s.MayWrite fn m r)
    (hf : s.cqFull fn m = true) : writeRecord s fn m ok = s.setFld (HCI_CQ_STATUS_FULL m) fn 1 := by
  simp only [writeRecord, h.next]
  rw [if_neg (by simp [h.enabled, h.power]), if_pos hf]

theorem writeRecord_halted {fn m : Nat} {ok : Bool} {r : Rec} (h : s.MayWrite fn m r)
    (hf : s.cqFull fn m = false) (hh : s.flag (HCI_CQ_STATUS_HALTED m) fn = true) :
    writeRecord s fn m ok = (s.takeRec fn m).retire r := by
  simp only [writeRecord, h.next]
  rw [if_neg (by simp [h.enabled, h.power]), if_neg (by simp [hf]), if_pos hh]
  rfl

theorem writeRecord_good {fn m : Nat} {r : Rec} (h : s.MayWrite fn m r) (hf : s.cqFull fn m = false)
    (hh : s.flag (HCI_CQ_STATUS_HALTED m) fn = false) :
    writeRecord s fn m true = (s.storeRec fn m r).settleRec fn m r := by
  unfold writeRecord
  rw [h.next]
  exact (if_neg (by simp [h.enabled, h.power])).trans ((if_neg (by simp [hf])).trans
    ((if_neg (by simp [hh])).trans (if_pos rfl)))

theorem writeRecord_bad {fn m : Nat} {r : Rec} (h : s.MayWrite fn m r) (hf : s.cqFull fn m = false)
    (hh : s.flag (HCI_CQ_STATUS_HALTED m) fn = false) :
    writeRecord s fn m false = (((s.takeRec fn m).setFld (HCI_CQ_STATUS_HALTED m) fn 1).retire r).hostViolation fn
      0x08 (s.reg (HCI_CQ_TAIL m) fn).toNat := by
  unfold writeRecord
  rw [h.next]
  exact (if_neg (by simp [h.enabled, h.power])).trans ((if_neg (by simp [hf])).trans
    ((if_neg (by simp [hh])).trans (if_neg Bool.false_ne_true)))

/-- What follows a written record leaves host memory, the records and the ring's TAIL. -/
theorem State.settleRec_keeps (s : State) {fn m : Nat} {r : Rec} (hr : r.fn = fn) (hfn : fn < 1048576)
    (hm : m < 64) : (s.settleRec fn m r).host.mem = s.host.mem ∧
      (s.settleRec fn m r).host.waiting = s.host.waiting ∧
      (s.settleRec fn m r).reg (HCI_CQ_TAIL m) fn = s.reg (HCI_CQ_TAIL m) fn := by
  unfold State.settleRec
  set u := if s.cqFull fn m then s.bump (HCI_CQ_STATUS_FULL_STALLS m) fn else s with hu
  have huHost : u.host = s.host := by
    rw [hu]
    split
    · rw [State.host_bump]
    · rfl
  have huTail : u.reg (HCI_CQ_TAIL m) fn = s.reg (HCI_CQ_TAIL m) fn := by
    rw [hu]
    split
    · exact s.reg_setReg_off _ hfn hfn (.inl (by simp))
    · rfl
  obtain ⟨hmem, hwait⟩ := u.host_retire r
  set v := (u.retire r).refreshFull fn m with hv
  have hvHost : v.host = (u.retire r).host := by rw [hv, State.host_refreshFull]
  have hvTail : v.reg (HCI_CQ_TAIL m) fn = s.reg (HCI_CQ_TAIL m) fn := by
    rw [hv, State.reg_refreshFull_off _ hfn hfn (by simp),
      State.reg_retire_off _ (hr ▸ hfn) hfn (sqStatus_ne_cqTail _ _), huTail]
  dsimp only
  split
  · rw [State.host_raise, hvHost, hmem, hwait, huHost,
      (v.raise_sameBelow fn m).reg (by simp only [HCI_CQ_TAIL]; omega) hfn, hvTail]
    exact ⟨rfl, rfl, rfl⟩
  · rw [hvHost, hmem, hwait, huHost, hvTail]
    exact ⟨rfl, rfl, rfl⟩

theorem State.host_storeRec (s : State) (fn m : Nat) (r : Rec) :
    (s.storeRec fn m r).host.mem = (s.writeHost (s.tailSlot fn m) (s.tailBytes fn m r)).host.mem ∧
      (s.storeRec fn m r).host.waiting = dropRec fn m s.host.waiting := by
  unfold State.storeRec
  rw [State.host_setReg]
  exact ⟨rfl, rfl⟩

theorem State.readHost_congr (h : t.host.mem = s.host.mem) (a n : Nat) : t.readHost a n = s.readHost a n := by
  unfold State.readHost
  rw [h]

/-- A good write: the record lies at TAIL's slot and nowhere else, waits no longer, and TAIL is past it. -/
theorem writeRecord_good_spec {fn m : Nat} {r : Rec} (h : s.MayWrite fn m r) (hf : s.cqFull fn m = false)
    (hh : s.flag (HCI_CQ_STATUS_HALTED m) fn = false) (hfn : fn < 1048576) (hm : m < 64) :
    (writeRecord s fn m true).reg (HCI_CQ_TAIL m) fn = s.reg (HCI_CQ_TAIL m) fn + 1 ∧
      (writeRecord s fn m true).readHost (s.tailSlot fn m) 32 = s.tailBytes fn m r ∧
      (∀ a, a < s.tailSlot fn m ∨ s.tailSlot fn m + 32 ≤ a →
        (writeRecord s fn m true).readHost a 1 = s.readHost a 1) ∧
      (writeRecord s fn m true).host.waiting = dropRec fn m s.host.waiting := by
  rw [writeRecord_good h hf hh]
  obtain ⟨hmem, hwait, htail⟩ := (s.storeRec fn m r).settleRec_keeps (State.nextRec_some h.next).1 hfn hm
  obtain ⟨hsmem, hswait⟩ := s.host_storeRec fn m r
  have hlen : (s.tailBytes fn m r).length = 32 := length_recBytes ..
  have hread : ∀ a n, ((s.storeRec fn m r).settleRec fn m r).readHost a n =
      (s.writeHost (s.tailSlot fn m) (s.tailBytes fn m r)).readHost a n :=
    State.readHost_congr (hmem.trans hsmem)
  refine ⟨htail.trans (State.reg_setReg_same ..), ?_, fun a ha => ?_, hwait.trans hswait⟩
  · have := s.readHost_writeHost (s.tailSlot fn m) (s.tailBytes fn m r)
    rwa [hlen, ← hread] at this
  · rw [hread]
    exact s.readHost_writeHost_outside _ _ _ (by rwa [hlen])

/-- A failed write halts the ring and loses the record. -/
theorem writeRecord_bad_spec {fn m : Nat} {r : Rec} (h : s.MayWrite fn m r) (hf : s.cqFull fn m = false)
    (hh : s.flag (HCI_CQ_STATUS_HALTED m) fn = false) (hfn : fn < 1048576) (hm : m < 64) (hsq : r.sq < 64) :
    (writeRecord s fn m false).flag (HCI_CQ_STATUS_HALTED m) fn = true ∧
      (writeRecord s fn m false).reg (HCI_CQ_TAIL m) fn = s.reg (HCI_CQ_TAIL m) fn ∧
      (writeRecord s fn m false).host.waiting = dropRec fn m s.host.waiting ∧
      (writeRecord s fn m false).host.mem = s.host.mem := by
  rw [writeRecord_bad h hf hh]
  have hr : r.fn < 1048576 := (State.nextRec_some h.next).1 ▸ hfn
  obtain ⟨hmem, hwait⟩ := State.host_retire ((s.takeRec fn m).setFld (HCI_CQ_STATUS_HALTED m) fn 1) r
  rw [State.host_hostViolation, hmem, hwait, State.host_setFld]
  refine ⟨?_, ?_, rfl, rfl⟩
  · rw [State.flag_hostViolation_off _ hfn hfn (by dsimp only; omega) (not_mem_violRegs (by dsimp only; omega))]
    refine (congrArg (getBits · 1 1 == 1) (State.reg_retire_off _ hr hfn ?_)).trans
      (State.flag_setFld_same _ fn true (by simp) rfl)
    simp only [HCI_SQ_STATUS]
    omega
  · rw [State.reg_hostViolation_off _ hfn hfn (by simp only [HCI_CQ_TAIL]; omega)
        (not_mem_violRegs (by simp only [HCI_CQ_TAIL]; omega)),
      State.reg_retire_off _ hr hfn (sqStatus_ne_cqTail _ _), State.reg_setFld_off _ _ hfn hfn (by simp)]
    rfl

/-- Settles O18: the branches of the record's write. -/
theorem completionRecordIsWrittenAtTail : Obligations.CompletionRecordIsWrittenAtTail := by
  unfold Obligations.CompletionRecordIsWrittenAtTail
  refine ⟨fun fn m ok s => ⟨fun h => congrArg Host.Outcome.next (writeRecord_idle h), fun r hr he hv => ?_⟩,
    fun fn m r s hr he hv hf hh hsq => ?_⟩
  · have hfn : (fn : Nat) < 1048576 := by omega
    have hw : s.MayWrite fn m r := ⟨hr, he, hv⟩
    obtain ⟨hrfn, -⟩ := State.nextRec_some hr
    refine ⟨fun hf => ⟨_, congrArg Host.Outcome.next (writeRecord_full hw hf), s.host_setFld .., ?_, ?_⟩,
      fun hf hh => ⟨_, congrArg Host.Outcome.next (writeRecord_halted hw hf hh), ?_, ?_, ?_⟩⟩
    · exact s.flag_setFld_same fn true (by simp) rfl
    · exact s.reg_setFld_off _ hfn hfn (by simp)
    · exact (State.host_retire _ r).1
    · exact (State.host_retire _ r).2
    · exact State.reg_retire_off _ (hrfn ▸ hfn) hfn (sqStatus_ne_cqTail _ _)
  · have hw : s.MayWrite fn m r := ⟨hr, he, hv⟩
    exact ⟨⟨_, rfl, writeRecord_good_spec hw hf hh (by omega) m.isLt⟩,
      ⟨_, rfl, writeRecord_bad_spec hw hf hh (by omega) m.isLt hsq⟩⟩

end Sys2Proof.Machine

namespace Sys2Proof.Machine

variable {s t u : State}

/-! ## Descriptors that run (R41, R58) -/

/-- The flight that a descriptor command names is one of its ring. -/
theorem State.ready_some {fn sq idx op : Nat} {f : Flight} (h : s.ready fn sq idx op = some f) :
    f.fn = fn ∧ f.sq = sq ∧ f.idx = idx := by
  have hm := (List.mem_filter.1 (List.mem_of_find?_eq_some h)).2
  simpa [and_assoc] using hm

theorem State.runDesc_ready {fn sq idx op : Nat} {f : Flight} {k : State → Flight → State}
    (h : s.ready fn sq idx op = some f) : s.runDesc fn sq idx op k = .next (k s f) := by
  simp only [State.runDesc, h]

theorem State.failDesc_nil (s : State) (f : Flight) : s.failDesc f [] = s.finish f stOK 0 0 := rfl

/-- One failed check that is REFUSED and logs a violation. -/
theorem State.failDesc_viol (s : State) (f : Flight) (c v : Nat) :
    s.failDesc f [⟨stRefused, 0, some (c, v)⟩] = (s.hostViolation f.fn c v).finish f stRefused 0 0 := rfl

/-- One failed check that is REFUSED and logs nothing. -/
theorem State.failDesc_quiet (s : State) (f : Flight) (aux : Nat) :
    s.failDesc f [⟨stRefused, aux, none⟩] = s.finish f stRefused aux 0 := rfl

theorem checkReserved_none {f : Flight} {used bits : List (Nat × Nat)} (h : reservedByte f.bytes used bits = none) :
    checkReserved f used bits = [] := by
  simp only [checkReserved, h]

theorem checkReserved_some {f : Flight} {used bits : List (Nat × Nat)} {k : Nat}
    (h : reservedByte f.bytes used bits = some k) :
    checkReserved f used bits = [⟨stRefused, 0, some (0x06, k)⟩] := by
  simp only [checkReserved, h]

/-! ### NOP, FENCE and CANCEL (R42, R43, R51, R52) -/

theorem exec_nop {fn : Fn} {n : Ring} {idx : Word} {f : Flight} (h : s.ready fn n idx.toNat 0 = some f) :
    exec (.nop fn n idx) s = .next (s.failDesc f (checkReserved f [] [])) :=
  State.runDesc_ready (k := fun s f => s.failDesc f (checkReserved f [] [])) h

theorem exec_reservedOpcode {fn : Fn} {n : Ring} {idx : Word} {f : Flight}
    (h : ((s.flightsAt fn n idx.toNat).find? fun f => s.mayBegin f && decide (0x0B ≤ f.opcode)) = some f) :
    exec (.reservedOpcode fn n idx) s = .next ((s.hostViolation f.fn 5 f.opcode).finish f 0x30 0 0) := by
  change execReservedOpcode fn n idx s = _
  unfold execReservedOpcode
  simp only [h, State.failDesc_viol]

theorem fenceStart_waits {f : Flight} (h : fenceChecks f = []) :
    fenceStart s f = s.updFlight f.seq fun g => { g with taken := true } := by
  simp only [fenceStart, h]

theorem exec_fenceRing {fn : Fn} {n : Ring} {idx : Word} {f : Flight} (h : s.ready fn n idx.toNat 7 = some f)
    (hs : fieldAt f.bytes 8 1 ≠ 1) : exec (.fenceRing fn n idx) s = .next (fenceStart s f) :=
  (State.runDesc_ready (k := fun s f => if fieldAt f.bytes 8 1 = 1 then s else fenceStart s f) h).trans
    (congrArg Host.Outcome.next (if_neg hs))

theorem exec_fenceFunction {fn : Fn} {n : Ring} {idx : Word} {f : Flight} (h : s.ready fn n idx.toNat 7 = some f)
    (hs : fieldAt f.bytes 8 1 = 1) : exec (.fenceFunction fn n idx) s = .next (fenceStart s f) :=
  (State.runDesc_ready (k := fun s f => if fieldAt f.bytes 8 1 = 1 then fenceStart s f else s) h).trans
    (congrArg Host.Outcome.next (if_pos hs))

/-- A search of a list whose one value is known. -/
theorem find?_of_forall_eq {α : Type} {l : List α} {a : α} (ha : a ∈ l) (h : ∀ b ∈ l, b = a) (p : α → Bool) :
    l.find? p = if p a then some a else none := by
  cases hp : p a with
  | false => exact List.find?_eq_none.2 fun b hb => by simp [h b hb, hp]
  | true =>
    obtain ⟨b, hb⟩ := Option.isSome_iff_exists.1 (List.find?_isSome.2 ⟨a, ha, hp⟩)
    rw [hb, h b (List.mem_of_find?_eq_some hb)]
    rfl

/-- A FENCE that waits is released where its waits are met, and stays otherwise. -/
theorem exec_fenceRelease {fn : Fn} {n : Ring} {idx : Word} {f : Flight} (hf : f ∈ s.flightsAt fn n idx.toNat)
    (huniq : ∀ g ∈ s.flightsAt fn n idx.toNat, g = f) (hop : f.opcode = 7) (ht : f.taken = true)
    (hfin : f.finished = false) :
    exec (.fenceRelease fn n idx) s = .next (if s.fenceMet f then s.finish f stOK 0 0 else s) := by
  change execFenceRelease fn n idx s = _
  unfold execFenceRelease
  rw [find?_of_forall_eq hf huniq]
  simp only [hop, ht, hfin]
  cases s.fenceMet f <;> rfl

theorem exec_fenceRelease_met {fn : Fn} {n : Ring} {idx : Word} {f : Flight} (hf : f ∈ s.flightsAt fn n idx.toNat)
    (huniq : ∀ g ∈ s.flightsAt fn n idx.toNat, g = f) (hop : f.opcode = 7) (ht : f.taken = true)
    (hfin : f.finished = false) (hm : s.fenceMet f = true) :
    exec (.fenceRelease fn n idx) s = .next (s.finish f 0 0 0) := by
  rw [exec_fenceRelease hf huniq hop ht hfin, if_pos hm]

theorem exec_fenceRelease_waits {fn : Fn} {n : Ring} {idx : Word} {f : Flight}
    (hf : f ∈ s.flightsAt fn n idx.toNat) (huniq : ∀ g ∈ s.flightsAt fn n idx.toNat, g = f) (hop : f.opcode = 7)
    (ht : f.taken = true) (hfin : f.finished = false) (hm : ¬s.fenceMet f = true) :
    exec (.fenceRelease fn n idx) s = .next s := by
  rw [exec_fenceRelease hf huniq hop ht hfin, if_neg hm]

/-- The waits of a FENCE of SCOPE 0. -/
theorem State.fenceMet_ring {f : Flight} (hs : fieldAt f.bytes 8 1 = 0) : s.fenceMet f = true ↔
    (∀ g ∈ s.host.flights, g.fn = f.fn → g.sq = f.sq → g.seq < f.seq → g.muted = true) ∧
      (fieldAt f.bytes 16 8 = 0 ∨ fieldAt f.bytes 16 8 ≤ s.beat) := by
  simp [State.fenceMet, hs, State.earlier]

/-- The waits of a FENCE of SCOPE 1. -/
theorem State.fenceMet_function {f : Flight} (hs : fieldAt f.bytes 8 1 = 1) : s.fenceMet f = true ↔
    (∀ g ∈ s.host.flights, g.fn = f.fn → g.seq < f.seq → g.muted = true) ∧
      (fieldAt f.bytes 16 8 = 0 ∨ fieldAt f.bytes 16 8 ≤ s.beat) := by
  simp [State.fenceMet, hs]

/-- A FENCE whose BEAT is still to come waits. -/
theorem State.fenceMet_early {f : Flight} (h0 : fieldAt f.bytes 16 8 ≠ 0) (hb : s.beat < fieldAt f.bytes 16 8) :
    s.fenceMet f = false := by
  simp [State.fenceMet, h0, hb]

theorem exec_cancel_fails {fn : Fn} {n : Ring} {idx : Word} {f : Flight} {same : Bool} {x : Failed}
    {xs : List Failed} (h : s.ready fn n idx.toNat 8 = some f) (hc : cancelChecks s f = x :: xs) :
    exec (.cancel fn n idx same) s = .next (s.failDesc f (x :: xs)) := by
  change execCancel fn n idx same s = _
  unfold execCancel
  simp only [State.runDesc_ready h, hc]

theorem exec_cancel_acts {fn : Fn} {n : Ring} {idx : Word} {f : Flight} {same : Bool}
    (h : s.ready fn n idx.toNat 8 = some f) (hc : cancelChecks s f = []) :
    exec (.cancel fn n idx same) s = .next (cancelTarget s f same) := by
  change execCancel fn n idx same s = _
  unfold execCancel
  simp only [State.runDesc_ready h, hc]

/-- The descriptor in flight that a CANCEL names. -/
def State.cancelFlight (s : State) (f : Flight) : Option Flight :=
  s.host.flights.find? fun g => g.fn == f.fn && g.sq == fieldAt f.bytes 8 1 && !g.muted && g.seq != f.seq &&
    fieldAt g.bytes 4 4 == fieldAt f.bytes 12 4

/-- The index not yet fetched that a CANCEL names. -/
def State.cancelSlot (s : State) (f : Flight) : Option Word :=
  (s.unfetched f.fn (fieldAt f.bytes 8 1)).find? fun i =>
    fieldAt (s.readHost (s.slotAddr f.fn (fieldAt f.bytes 8 1) i) 64) 4 4 == fieldAt f.bytes 12 4

theorem cancelTarget_flight {f g : Flight} {same : Bool} (h : s.cancelFlight f = some g) :
    cancelTarget s f same = if g.started || g.finished || same then s.finish f stTooLate 0 0
      else ((s.dropScheduled g.seq).finish g stCancelled 0 0).finish f stOK 0 0 := by
  unfold State.cancelFlight at h
  simp only [cancelTarget, h]

theorem cancelTarget_none {f : Flight} {same : Bool} (h : s.cancelFlight f = none) (hs : s.cancelSlot f = none) :
    cancelTarget s f same = s.finish f stTooLate 0 0 := by
  unfold State.cancelFlight at h
  unfold State.cancelSlot at hs
  simp only [cancelTarget, h, hs]

/-- The index is withdrawn before its fetch. -/
def State.withdraw (s : State) (x : Nat × Nat × Nat) : State :=
  { s with host := { s.host with withdrawn := x :: s.host.withdrawn } }

theorem cancelTarget_slot {f : Flight} {same : Bool} {i : Word} (h : s.cancelFlight f = none)
    (hs : s.cancelSlot f = some i) : cancelTarget s f same =
      if s.host.withdrawn.contains (f.fn, fieldAt f.bytes 8 1, i.toNat) then s.finish f stTooLate 0 0
      else (s.withdraw (f.fn, fieldAt f.bytes 8 1, i.toNat)).finish f stOK 0 0 := by
  unfold State.cancelFlight at h
  unfold State.cancelSlot at hs
  simp only [cancelTarget, h, hs]
  rfl

/-- Settles O19: each descriptor by its checks, a FENCE by its waits, a CANCEL by its target. -/
theorem nopFenceAndCancel : Obligations.NopFenceAndCancel := by
  unfold Obligations.NopFenceAndCancel
  refine ⟨⟨fun fn n idx f s h => ⟨fun hr => ?_, fun k hr => ?_⟩, fun fn n idx f s h => exec_reservedOpcode h⟩,
    ⟨fun fn n idx f s h => ⟨fun hc => ⟨fun hs => ?_, fun hs => ?_⟩, fun x xs hc => ⟨fun hs => ?_, fun hs => ?_⟩⟩,
      fun fn n idx f s hf hu hop ht hfin => ?_⟩, fun fn n idx f same s h => ⟨fun x xs hc => ?_, fun hc => ?_⟩⟩
  · rw [exec_nop h, checkReserved_none hr, State.failDesc_nil]
  · rw [exec_nop h, checkReserved_some hr, State.failDesc_viol]
  · rw [exec_fenceRing h (by omega), fenceStart_waits hc]
  · rw [exec_fenceFunction h hs, fenceStart_waits hc]
  · rw [exec_fenceRing h hs]
    simp only [fenceStart, hc]
  · rw [exec_fenceFunction h hs]
    simp only [fenceStart, hc]
  · have met := exec_fenceRelease_met hf hu hop ht hfin
    have unmet := exec_fenceRelease_waits hf hu hop ht hfin
    refine ⟨fun hs => ⟨fun hw => met ((State.fenceMet_ring hs).2 hw), fun ⟨g, hg, hfn, hsq, hseq, hm⟩ =>
        unmet fun hmet => ?_⟩,
      fun hs => ⟨fun hw => met ((State.fenceMet_function hs).2 hw), fun ⟨g, hg, hfn, hseq, hm⟩ =>
        unmet fun hmet => ?_⟩,
      fun h0 hb => unmet (by rw [State.fenceMet_early h0 hb]; exact Bool.false_ne_true)⟩
    · exact absurd (((State.fenceMet_ring hs).1 hmet).1 g hg hfn hsq hseq) (by simp [hm])
    · exact absurd (((State.fenceMet_function hs).1 hmet).1 g hg hfn hseq) (by simp [hm])
  · exact exec_cancel_fails h hc
  · rw [exec_cancel_acts h hc]
    intro sq tag target
    refine ⟨fun g hg => ⟨fun hst hfin hsame => ?_, fun hst => ?_⟩, fun ht => ?_⟩
    · exact congrArg _ ((cancelTarget_flight hg).trans (if_neg (by simp [hst, hfin, hsame])))
    · exact congrArg _ ((cancelTarget_flight hg).trans (if_pos (by simpa [or_assoc] using hst)))
    · intro slot
      refine ⟨fun hs => congrArg _ (cancelTarget_none ht hs), fun i hi => ⟨fun hw => ?_, fun hw => ?_⟩⟩
      · exact congrArg _ ((cancelTarget_slot ht hi).trans (if_pos (by simpa using hw)))
      · exact ⟨_, s.withdraw (f.fn, sq, i.toNat),
          congrArg _ ((cancelTarget_slot ht hi).trans (if_neg (by simpa using hw))), rfl, rfl, rfl, rfl⟩

end Sys2Proof.Machine

namespace Sys2Proof.Machine

variable {s t u : State}

/-! ## TIME_SET (R53, R345, R353) -/

theorem exec_timeSetCounter {fn : Fn} {n : Ring} {idx : Word} {f : Flight} (h : s.ready fn n idx.toNat 9 = some f) :
    exec (.timeSetCounter fn n idx) s =
      .next (if (fieldAt f.bytes 8 1).testBit 0 then timeSet s f else s) :=
  State.runDesc_ready (k := fun s f => if (fieldAt f.bytes 8 1).testBit 0 then timeSet s f else s) h

theorem exec_timeSetPeriod {fn : Fn} {n : Ring} {idx : Word} {f : Flight} (h : s.ready fn n idx.toNat 9 = some f) :
    exec (.timeSetPeriod fn n idx) s = .next (if fieldAt f.bytes 8 1 % 4 = 2 then timeSet s f else s) :=
  State.runDesc_ready (k := fun s f => if fieldAt f.bytes 8 1 % 4 = 2 then timeSet s f else s) h

theorem exec_timeSetEmpty {fn : Fn} {n : Ring} {idx : Word} {f : Flight} (h : s.ready fn n idx.toNat 9 = some f) :
    exec (.timeSetEmpty fn n idx) s = .next (if fieldAt f.bytes 8 1 % 4 = 0 then timeSet s f else s) :=
  State.runDesc_ready (k := fun s f => if fieldAt f.bytes 8 1 % 4 = 0 then timeSet s f else s) h

/-- A new count, under a new time epoch. -/
def State.setCount (s : State) (v : Nat) : State :=
  ({ s with yt := { s.yt with nextCount := some v } }).setFld YTM_PERIOD_EPOCH 0
    ((s.fld YTM_PERIOD_EPOCH + 1) % 256)

/-- A new period. -/
def State.setPeriod (s : State) (v : Nat) : State := { s with yt := { s.yt with nextPeriod := some v } }

/-- What a TIME_SET that passes its checks sets. -/
def State.timeApplied (s : State) (f : Flight) : State :=
  let u := if (fieldAt f.bytes 8 1).testBit 0 then s.setCount (fieldAt f.bytes 16 8) else s
  if (fieldAt f.bytes 8 1).testBit 1 then u.setPeriod (fieldAt f.bytes 10 2) else u

theorem timeSet_fails {f : Flight} {x : Failed} {xs : List Failed} (h : timeSetChecks s f = x :: xs) :
    timeSet s f = s.failDesc f (x :: xs) := by
  simp only [timeSet, h]

theorem timeSet_acts {f : Flight} (h : timeSetChecks s f = []) : timeSet s f =
    (s.timeApplied f).finish f (if fieldAt f.bytes 8 1 = 0 then stOkEmpty else stOK) 0 0 := by
  simp only [timeSet, h]
  rfl

theorem State.setCount_spec (s : State) (v : Nat) : (s.setCount v).host = s.host ∧ (s.setCount v).mem = s.mem ∧
    (s.setCount v).yt = { s.yt with nextCount := some v } ∧
    (s.setCount v).fld YTM_PERIOD_EPOCH = (s.fld YTM_PERIOD_EPOCH + 1) % 256 ∧
    ∀ o j, regKey YTM_PERIOD_EPOCH.off 0 ≠ regKey o j → (s.setCount v).reg o j = s.reg o j := by
  unfold State.setCount
  refine ⟨by rw [State.host_setFld], by rw [State.mem_setFld], by rw [State.yt_setFld], ?_, fun o j ho => ?_⟩
  · rw [State.fld_setFld_same _ _ _ _ (by decide)]
    exact Nat.mod_mod _ _
  · exact State.reg_setFld_ne _ _ ho

theorem State.timeApplied_counter {f : Flight} (h : (fieldAt f.bytes 8 1).testBit 0 = true) :
    (s.timeApplied f).host = s.host ∧ (s.timeApplied f).mem = s.mem ∧
      (s.timeApplied f).yt = { s.yt with
        nextCount := some (fieldAt f.bytes 16 8)
        nextPeriod := if (fieldAt f.bytes 8 1).testBit 1 then some (fieldAt f.bytes 10 2) else s.yt.nextPeriod } ∧
      (s.timeApplied f).fld YTM_PERIOD_EPOCH = (s.fld YTM_PERIOD_EPOCH + 1) % 256 ∧
      ∀ o j, regKey YTM_PERIOD_EPOCH.off 0 ≠ regKey o j → (s.timeApplied f).reg o j = s.reg o j := by
  obtain ⟨hhost, hmem, hyt, hepoch, hregs⟩ := s.setCount_spec (fieldAt f.bytes 16 8)
  unfold State.timeApplied
  rw [if_pos h]
  generalize s.setCount (fieldAt f.bytes 16 8) = u at hhost hmem hyt hepoch hregs
  cases (fieldAt f.bytes 8 1).testBit 1 with
  | false => exact ⟨hhost, hmem, hyt, hepoch, hregs⟩
  | true =>
    refine ⟨hhost, hmem, ?_, hepoch, hregs⟩
    change ({ u.yt with nextPeriod := some (fieldAt f.bytes 10 2) } : YtSide) = _
    rw [hyt]
    rfl

theorem State.timeApplied_period {f : Flight} (h : fieldAt f.bytes 8 1 = 2) :
    s.timeApplied f = s.setPeriod (fieldAt f.bytes 10 2) := by
  rw [State.timeApplied, h]
  rfl

theorem State.timeApplied_empty {f : Flight} (h : fieldAt f.bytes 8 1 = 0) : s.timeApplied f = s := by
  rw [State.timeApplied, h]
  rfl

/-- The end of a descriptor of a ring there is leaves the registers of the blocks above the host interface. -/
theorem State.reg_finish_above (s : State) {f : Flight} (status aux detail : Nat) {o j : Nat} (hfn : f.fn < 1048576)
    (hsq : f.sq < 64) (hj : j < 1048576) (ho : 0x4000 ≤ o) :
    (s.finish f status aux detail).reg o j = s.reg o j :=
  s.reg_finish_off _ _ _ hfn hj (by simp only [HCI_SQ_STATUS]; omega)
    fun m hm => by simp only [HCI_CQ_STATUS]; omega

/-! ## REPLAY_ARM (R54, R474) -/

theorem exec_replayArm {fn : Fn} {n : Ring} {idx : Word} {f : Flight} (h : s.ready fn n idx.toNat 0xA = some f) :
    exec (.replayArm fn n idx) s = .next (replayArm s f) := State.runDesc_ready (k := replayArm) h

/-- The replay of a partition is armed, and shows it. -/
def State.armed (s : State) (f : Flight) (begins : List Nat) : State :=
  let u := { s with yard := { s.yard with
    armed := tabPut s.yard.armed (f.fn - 1) ⟨armPlan f, begins, armImport f⟩ } }
  ((u.setFld DAY_STATUS_ARMED f.fn 1).setFld DAY_REPLAY_PLAN_PLAN f.fn (armPlan f)).setFld
    DAY_REPLAY_LEFT_COUNT f.fn begins.length

/-- The check of R474 on the records that a REPLAY_ARM names. -/
def State.armResult (s : State) (f : Flight) : Except Nat (List Nat) :=
  s.armCheck (f.fn - 1) (armPlan f) (armSeq f) (armCount f) (armImport f)

theorem replayArm_fails {f : Flight} {x : Failed} {xs : List Failed} (h : armFields f = x :: xs) :
    replayArm s f = s.failDesc f (x :: xs) := by
  simp only [replayArm, h]

theorem replayArm_refused {f : Flight} {c : Nat} (h : armFields f = []) (hc : s.armResult f = .error c) :
    replayArm s f = s.finish f stRefused c 0 := by
  unfold State.armResult at hc
  simp only [replayArm, h, hc, State.failDesc_quiet]

theorem replayArm_good {f : Flight} {begins : List Nat} (h : armFields f = []) (hc : s.armResult f = .ok begins) :
    replayArm s f = if armCount f = 0 then s.finish f stOkEmpty 0 0 else (s.armed f begins).finish f stOK 0 0 := by
  unfold State.armResult at hc
  simp only [replayArm, h, hc]
  rfl

/-- A REPLAY_ARM that passes its checks names a plan there is. -/
theorem armPlan_lt {f : Flight} (h : armFields f = []) : armPlan f < 16 := by
  by_contra hn
  simp [armFields, rangeIf, Nat.le_of_not_lt hn] at h

theorem State.armed_spec (s : State) {f : Flight} {begins : List Nat} (hfn : f.fn < 1048576)
    (hplan : armPlan f < 16) : (s.armed f begins).host = s.host ∧ (s.armed f begins).mem = s.mem ∧
      tabFind (s.armed f begins).yard.armed (f.fn - 1) = some ⟨armPlan f, begins, armImport f⟩ ∧
      (s.armed f begins).yard.plans = s.yard.plans ∧ (s.armed f begins).flag DAY_STATUS_ARMED f.fn = true ∧
      (s.armed f begins).fld DAY_REPLAY_PLAN_PLAN f.fn = armPlan f ∧
      (s.armed f begins).fld DAY_REPLAY_LEFT_COUNT f.fn = begins.length % 2 ^ 32 := by
  unfold State.armed
  refine ⟨?_, ?_, ?_, ?_, ?_, ?_, State.fld_setFld_same _ _ _ _ (by decide)⟩
  · rw [State.host_setFld, State.host_setFld, State.host_setFld]
  · rw [State.mem_setFld, State.mem_setFld, State.mem_setFld]
  · rw [State.yard_setFld, State.yard_setFld, State.yard_setFld, tabFind_tabPut, if_pos rfl]
  · rw [State.yard_setFld, State.yard_setFld, State.yard_setFld]
  · rw [State.flag_setFld_off _ _ hfn hfn (.inl (by decide)), State.flag_setFld_off _ _ hfn hfn (.inl (by decide))]
    exact State.flag_setFld_same _ f.fn true (by decide) rfl
  · rw [State.fld_setFld_off _ _ hfn hfn (.inl (by decide)), State.fld_setFld_same _ _ _ _ (by decide)]
    exact Nat.mod_eq_of_lt hplan

/-- The command that runs a TIME_SET of the descriptor's APPLY. -/
def timeSetInstr (fn : Fn) (n : Ring) (idx : Word) (f : Flight) : Instr :=
  if (fieldAt f.bytes 8 1).testBit 0 then .timeSetCounter fn n idx
  else if fieldAt f.bytes 8 1 % 4 = 2 then .timeSetPeriod fn n idx else .timeSetEmpty fn n idx

theorem exec_timeSetInstr {fn : Fn} {n : Ring} {idx : Word} {f : Flight} (h : s.ready fn n idx.toNat 9 = some f) :
    exec (timeSetInstr fn n idx f) s = .next (timeSet s f) := by
  unfold timeSetInstr
  by_cases h0 : (fieldAt f.bytes 8 1).testBit 0 = true
  · rw [if_pos h0, exec_timeSetCounter h, if_pos h0]
  · rw [if_neg h0]
    by_cases h2 : fieldAt f.bytes 8 1 % 4 = 2
    · rw [if_pos h2, exec_timeSetPeriod h, if_pos h2]
    · rw [Nat.testBit_zero, decide_eq_true_eq] at h0
      rw [if_neg h2, exec_timeSetEmpty h, if_pos (by omega)]

/-- What the end of a descriptor leaves of what a TIME_SET of the counter has set. -/
theorem State.finish_timeApplied {f : Flight} (hfn : f.fn < 1048576) (hsq : f.sq < 64)
    (h : (fieldAt f.bytes 8 1).testBit 0 = true) :
    ((s.timeApplied f).finish f stOK 0 0).yt = { s.yt with
        nextCount := some (fieldAt f.bytes 16 8)
        nextPeriod := if (fieldAt f.bytes 8 1).testBit 1 then some (fieldAt f.bytes 10 2) else s.yt.nextPeriod } ∧
      ((s.timeApplied f).finish f stOK 0 0).fld YTM_PERIOD_EPOCH = (s.fld YTM_PERIOD_EPOCH + 1) % 256 := by
  obtain ⟨-, -, hyt, hepoch, -⟩ := State.timeApplied_counter (s := s) h
  have hF : Frame [.descriptors] (s.timeApplied f) ((s.timeApplied f).finish f stOK 0 0) := .finish (.refl _)
  refine ⟨Eq.trans (hF.same .yardTime rfl) hyt, (congrArg (getBits · 8 8) ?_).trans hepoch⟩
  exact State.reg_finish_above _ _ _ _ hfn hsq (by decide) (by decide)

/-- What the end of a descriptor leaves of an armed replay. -/
theorem State.finish_armed (s : State) {f : Flight} {begins : List Nat} (hfn : f.fn < 1048576) (hsq : f.sq < 64)
    (hplan : armPlan f < 16) :
    tabFind ((s.armed f begins).finish f stOK 0 0).yard.armed (f.fn - 1) = some ⟨armPlan f, begins, armImport f⟩ ∧
      ((s.armed f begins).finish f stOK 0 0).yard.plans = s.yard.plans ∧
      ((s.armed f begins).finish f stOK 0 0).flag DAY_STATUS_ARMED f.fn = true ∧
      ((s.armed f begins).finish f stOK 0 0).fld DAY_REPLAY_PLAN_PLAN f.fn = armPlan f ∧
      ((s.armed f begins).finish f stOK 0 0).fld DAY_REPLAY_LEFT_COUNT f.fn = begins.length % 2 ^ 32 := by
  obtain ⟨-, -, harmed, hplans, hflag, hfld, hleft⟩ := s.armed_spec (begins := begins) hfn hplan
  have hkeep : ∀ o, 0x4000 ≤ o →
      ((s.armed f begins).finish f stOK 0 0).reg o f.fn = (s.armed f begins).reg o f.fn := fun o =>
    State.reg_finish_above _ _ _ _ hfn hsq hfn
  rw [((s.armed f begins).finish_keeps f stOK 0 0).1]
  exact ⟨harmed, hplans, (congrArg (getBits · 3 1 == 1) (hkeep DAY_STATUS (by decide))).trans hflag,
    (congrArg (getBits · 0 4) (hkeep DAY_REPLAY_PLAN (by decide))).trans hfld,
    (congrArg (getBits · 0 32) (hkeep DAY_REPLAY_LEFT (by decide))).trans hleft⟩

/-- Settles O23: a TIME_SET by its APPLY, a REPLAY_ARM by its check. -/
theorem timeSetAndReplayArm : Obligations.TimeSetAndReplayArm := by
  unfold Obligations.TimeSetAndReplayArm
  refine ⟨fun fn n idx f s h => ?_, fun fn n idx f s h => ⟨fun ha => ?_, fun ha => ?_, fun ha => ?_⟩,
    fun fn n idx f s h => ?_⟩
  · obtain ⟨hfn, hsq, -⟩ := State.ready_some h
    intro apply c
    refine ⟨fun x xs hc => ?_, fun hc => ⟨fun h0 => ?_, fun ha => ?_, fun ha => ?_⟩⟩
    · exact (exec_timeSetInstr h).trans (congrArg _ (timeSet_fails hc))
    · obtain ⟨hhost, hmem, -, -, hregs⟩ := State.timeApplied_counter (s := s) h0
      obtain ⟨hyt, hepoch⟩ := State.finish_timeApplied (s := s) (f := f) (by omega) (by omega) h0
      have hne : apply ≠ 0 := fun h => by simp [h] at h0
      refine ⟨_, s.timeApplied f, ?_, rfl, hhost, hmem, hyt, hepoch, hregs⟩
      rw [exec_timeSetCounter h, if_pos h0, timeSet_acts hc, if_neg hne]
    · rw [exec_timeSetPeriod h, if_pos (by omega), timeSet_acts hc, if_neg (by omega), State.timeApplied_period ha]
      rfl
    · rw [exec_timeSetEmpty h, if_pos (by omega), timeSet_acts hc, if_pos ha, State.timeApplied_empty ha]
  · exact (exec_timeSetCounter h).trans (congrArg _ (if_neg (by rw [Nat.testBit_zero, decide_eq_true_eq]; omega)))
  · exact (exec_timeSetPeriod h).trans (congrArg _ (if_neg ha))
  · exact (exec_timeSetEmpty h).trans (congrArg _ (if_neg ha))
  · obtain ⟨hfn, hsq, -⟩ := State.ready_some h
    rw [exec_replayArm h]
    refine ⟨fun x xs hc => congrArg _ (replayArm_fails hc), fun hc => ?_⟩
    intro p check
    refine ⟨fun c hk => congrArg _ (replayArm_refused hc hk), fun begins hk => ⟨fun h0 => ?_, fun h0 => ?_⟩⟩
    · rw [replayArm_good hc hk, if_pos h0]
    · obtain ⟨hhost, hmem, -⟩ := s.armed_spec (f := f) (begins := begins) (by omega) (armPlan_lt hc)
      obtain ⟨harmed, hplans, hflag, hplan, hleft⟩ :=
        s.finish_armed (f := f) (begins := begins) (by omega) (by omega) (armPlan_lt hc)
      exact ⟨_, s.armed f begins, congrArg _ ((replayArm_good hc hk).trans (if_neg h0)), rfl, harmed, hplans, hflag,
        hplan, hleft, hhost, hmem⟩

end Sys2Proof.Machine

namespace Sys2Proof.Machine

/-! ## A SHED_WRITE whose own count of NAND writes moves its page (R302, R304) -/

/-- The bytes staged for the page. -/
def strayBytes : List Byte := List.replicate pageSize 0

/-- An operation of a function there is not, whose PRT_SHED_FIRST is the high half of the count of NAND writes;
its one page is at step 2 of R302. -/
def strayOp : ShedOp :=
  { seq := 0, fn := 0x14001, write := true, first := 0, count := 1, addr := 0, left := [0], out := 0
    staged := [(0, 2, strayBytes)], moved := 0, failed := none, deadline := 0, reset := false }

/-- The descriptor of the operation. -/
def strayFlight : Flight :=
  { fn := 0, sq := 0, idx := 0, seq := 0, bell := 0, bytes := [], taken := true, started := true, ran := false
    finished := false, muted := false }

/-- The module after reset but for the operation, its descriptor, channel 0 out of reset, and a count of NAND writes
about to carry. -/
def strayState : State :=
  { State.reset with
    regs := [(regKey SHD_STATUS 0, 2), (regKey SHD_NAND_WRITES_LO 0, 0xFFFFFFFF)]
    host := { State.reset.host with flights := [strayFlight] }
    shed := { State.reset.shed with ops := [strayOp] } }

/-- The maps after a command. -/
def mapAfter (o : Out) (q : Nat) : Option Nat :=
  match o with
  | .next t => tabFind t.shed.maps q
  | _ => none

theorem strayOp_commits_beside : strayState.opPage strayOp 0 = 0 ∧
    mapAfter (exec (.shedPageWriteDone 0 0 0 0 0 6 0 false []) strayState) 1 = some 0 :=
  ⟨by decide +kernel, by decide +kernel⟩

/-- Refutes O22: the count of NAND writes carries into the register that places the operation's pages, so that the
page committed is not the page named. -/
theorem not_shedOperationsMovePages : ¬ Obligations.ShedOperationsMovePages := by
  unfold Obligations.ShedOperationsMovePages
  rintro ⟨-, -, -, -, hwrite⟩
  obtain ⟨hpg, hmap⟩ := strayOp_commits_beside
  obtain ⟨-, hgo⟩ := hwrite 0 0 0 0 0 6 false strayOp strayState rfl (by decide +kernel) (by decide +kernel)
    (List.mem_singleton.2 rfl)
  obtain ⟨t, ht, -, -, hsix, -⟩ := hgo 0 strayBytes (by decide) (.inr ⟨by decide, rfl, List.length_replicate⟩)
  obtain ⟨-, hmaps, -⟩ := hsix rfl (.inl (by decide))
  have h1 := hmaps 1 (by rw [hpg]; decide)
  rw [ht] at hmap
  have h0 : tabFind strayState.shed.maps 1 = none := rfl
  exact absurd (hmap.symm.trans (h1.trans h0)) (by simp)

end Sys2Proof.Machine

namespace Sys2Proof.Machine

variable {s t u : State}

/-! ## What traffic of the memories leaves -/

/-- A step that starts from other parts of the state. -/
theorem SameBelow.from_regs {B : Nat} (h : SameBelow B t u) (hr : t.regs = s.regs) : SameBelow B s u :=
  (SameBelow.of_regs hr).trans h

/-! ### GDDR and the Lofts (R264 to R269) -/

/-- A step of the memories' traffic: no register below those of GDDR and the Lofts changes, nor which sectors of a
Loft the command under way found uncorrectable. -/
structure LoftStep (s t : State) : Prop where
  low : SameBelow 0x800000 s t
  hurt : t.loft.hurt = s.loft.hurt

namespace LoftStep

theorem refl (s : State) : LoftStep s s := ⟨.refl s, rfl⟩

theorem trans (h : LoftStep s t) (h' : LoftStep t u) : LoftStep s u := ⟨h.low.trans h'.low, h'.hurt.trans h.hurt⟩

theorem of_parts (hr : t.regs = s.regs) (hl : t.loft.hurt = s.loft.hurt) : LoftStep s t := ⟨.of_regs hr, hl⟩

theorem ite {c : Prop} [Decidable c] (ht : LoftStep s t) (hu : LoftStep s u) :
    LoftStep s (if c then t else u) := by
  split <;> assumption

theorem foldl {β : Type} {g : State → β → State} (l : List β) (hg : ∀ t x, LoftStep t (g t x)) :
    LoftStep s (l.foldl g s) := by
  induction l generalizing s with
  | nil => exact .refl s
  | cons x l ih => exact (hg s x).trans ih

end LoftStep

theorem State.setFld_loftStep (s : State) {f : Field} (i x : Nat) (ho : 0x800000 ≤ f.off) :
    LoftStep s (s.setFld f i x) :=
  ⟨s.setFld_sameBelow i x ho, congrArg (·.hurt) (s.loft_setFld f i x)⟩

theorem State.bump_loftStep (s : State) {f : Field} (i n : Nat) (ho : 0x800000 ≤ f.off) :
    LoftStep s (s.bump f i n) :=
  ⟨s.bump_sameBelow i n ho, congrArg (·.hurt) (s.loft_bump f i n)⟩

theorem State.bump64_loftStep (s : State) {o : Nat} (i n : Nat) (ho : 0x800000 ≤ o) :
    LoftStep s (s.bump64 o i n) :=
  ⟨s.bump64_sameBelow i n ho, congrArg (·.hurt) (s.loft_bump64 o i n)⟩

theorem State.countGddr_loftStep (s : State) (chan n : Nat) (write : Bool) :
    LoftStep s (s.countGddr chan n write) := by
  unfold State.countGddr
  refine .ite (.refl s) (s.bump64_loftStep chan n ?_)
  split <;> decide

theorem State.writeBack_loftStep (s : State) (c : Nat) (l : LoftLine) :
    LoftStep s (s.writeBack c l) := by
  unfold State.writeBack
  have h : LoftStep s (if (sectorsOf l.dirty).length = 0 then s
      else s.bump LFT_WRITEBACKS_COUNT c (sectorsOf l.dirty).length) :=
    .ite (.refl s) (s.bump_loftStep c _ (by decide))
  refine .trans ?_ (State.countGddr_loftStep ..)
  exact h.trans (.of_parts rfl rfl)

theorem State.evict_loftStep (s : State) (c set way cls : Nat) : LoftStep s (s.evict c set way cls) := by
  unfold State.evict
  split
  · exact .refl s
  · next l _ =>
    have h : ∀ ls, LoftStep s ((s.writeBack c l).setLoftLines c set ls) := fun ls =>
      (s.writeBack_loftStep c l).trans (.of_parts rfl rfl)
    dsimp only
    split
    · exact (h _).trans (State.bump_loftStep _ c 1 (by decide))
    · exact (h _).trans (State.bump_loftStep _ c 1 (by decide))
    · exact (h _).trans (State.bump_loftStep _ c 1 (by decide))
    · exact h _

theorem State.allocate_loftStep {c set line : Nat} {due : Option Nat} (h : s.allocate c set line due = some t) :
    LoftStep s t := by
  unfold State.allocate at h
  split at h
  · cases h
  · cases h
    exact (s.evict_loftStep ..).trans (.of_parts rfl rfl)

theorem State.keepStale_loftStep (s : State) (owner off : Nat) :
    LoftStep s (s.keepStale owner off) := by
  unfold State.keepStale
  exact .ite (.refl s) (.of_parts rfl rfl)

theorem State.fillLine_loftStep (s : State) (c set line mask : Nat) (due : Option Nat) (dirty : Bool) :
    LoftStep s (s.fillLine c set line mask due dirty) := .of_parts rfl rfl

theorem State.setWait_loftStep (s : State) (ws : List SetWait) :
    LoftStep s { s with loft := { s.loft with setWait := ws } } := .of_parts rfl rfl

theorem State.waitSet_loftStep (s : State) (c : Nat) (w : SetWait) : LoftStep s (s.waitSet c w) :=
  (s.bump_loftStep (f := LFT_SET_BUSY_COUNT) c 1 (by decide)).trans (State.setWait_loftStep ..)

theorem State.staleFills_loftStep (s : State) (line sec : Nat) : LoftStep s (s.staleFills line sec) :=
  .of_parts rfl rfl

theorem State.loftWrite_loftStep (s : State) (p off : Nat) (hint : Option Nat) :
    LoftStep s (s.loftWrite p off hint) := by
  have dirty : ∀ (t : State) c set line mask due,
      LoftStep t ((t.keepStale (p + 1) off).fillLine c set line mask due true) := fun t _ _ _ _ _ =>
    (t.keepStale_loftStep ..).trans (State.fillLine_loftStep ..)
  have around : ∀ c l sec ch, LoftStep s
      (((s.bump LFT_WRITE_AROUND_COUNT c).staleFills l sec).countGddr ch 1 true) := fun c _ _ _ =>
    ((s.bump_loftStep (f := LFT_WRITE_AROUND_COUNT) c 1 (by decide)).trans (State.staleFills_loftStep ..)).trans
      (State.countGddr_loftStep ..)
  unfold State.loftWrite
  dsimp only
  refine .ite (dirty ..) ?_
  split
  · exact around ..
  · split
    · next t ht => exact (State.allocate_loftStep ht).trans (dirty ..)
    · exact (s.keepStale_loftStep ..).trans (State.waitSet_loftStep ..)

theorem State.writeMem_loftStep (s : State) (owner off : Nat) (bs : List Byte) (hint : Option Nat) :
    LoftStep s (s.writeMem owner off bs hint) := by
  unfold State.writeMem
  exact .trans (.foldl _ fun t o => .ite (t.countGddr_loftStep ..) (t.loftWrite_loftStep ..)) (.of_parts rfl rfl)

theorem State.countEcc_loftStep (s : State) (chan owner ce ue : Nat) :
    LoftStep s (s.countEcc chan owner ce ue) := by
  unfold State.countEcc
  extract_lets t u
  have ht : LoftStep s t := .ite (.refl s) (s.bump_loftStep chan ce (by decide))
  have hu : LoftStep t u := .ite (.refl t)
    ((t.bump_loftStep (f := GDR_ECC_UE) chan ue (by decide)).trans (State.setFld_loftStep _ chan 1 (by decide)))
  exact (ht.trans hu).trans (.of_parts rfl rfl)

theorem State.readSectors_loftStep (s : State) (owner l mask : Nat) :
    LoftStep s (s.readSectors owner l mask) := by
  unfold State.readSectors
  extract_lets chan t ue
  have ht : LoftStep s t := s.countGddr_loftStep ..
  exact .ite ht (ht.trans (State.countEcc_loftStep ..))

theorem State.readLine_loftStep (s : State) (p l mask : Nat) (hint : Option Nat) :
    LoftStep s (s.readLine p l mask hint) := by
  unfold State.readLine
  extract_lets line
  split
  extract_lets valid hits miss s₁ s₂ s₃
  have h₁ : LoftStep s s₁ := .ite (.refl s) (s.bump64_loftStep _ _ (by decide))
  have h₂ : LoftStep s s₂ := h₁.trans (s₁.bump64_loftStep _ _ (by decide))
  have h₃ : LoftStep s s₃ := h₂.trans (s₂.readSectors_loftStep ..)
  refine .ite (h₁.trans (State.fillLine_loftStep ..)) ?_
  refine .ite (h₃.trans (State.fillLine_loftStep ..)) ?_
  split
  · next t ht => exact (h₃.trans (State.allocate_loftStep ht)).trans (State.fillLine_loftStep ..)
  · exact h₃.trans (State.waitSet_loftStep ..)

theorem State.touch_loftStep (s : State) (fn : Nat) (pl : Place) (n : Nat) (hint : Option Nat) :
    LoftStep s (s.touch fn pl n hint) := by
  unfold State.touch
  split
  · exact .foldl _ fun t x => .ite (t.readSectors_loftStep ..) (t.readLine_loftStep ..)
  · exact .refl s

theorem State.writeAt_loftStep (s : State) (fn : Nat) (pl : Place) (bs : List Byte) :
    LoftStep s (s.writeAt fn pl bs) := by
  cases pl with
  | host a => exact .of_parts rfl rfl
  | gddr o => exact s.writeMem_loftStep ..
  | scratch c o => exact .of_parts rfl rfl

/-! ### The KV pools -/

theorem State.regs_setStream (s : State) (p sid : Nat) (x : Stream) : (s.setStream p sid x).regs = s.regs := rfl

theorem State.setPageWord_sameBelow (s : State) (p sid w : Nat) (f : Option Nat) :
    SameBelow 0x100000 s (s.setPageWord p sid w f) := by
  unfold State.setPageWord
  extract_lets off word t
  have h : SameBelow 0x100000 s t := (s.writeMem_loftStep (p + 1) off (leBytes 4 word) none).low.mono (by decide)
  clear_value t
  split
  · exact h
  · exact h.trans (.of_regs (State.regs_setStream ..))

theorem State.refreshPool_sameBelow (s : State) (p : Nat) : SameBelow 0x100000 s (s.refreshPool p) :=
  .trans (.trans (.trans (s.setFld_sameBelow p _ (by decide)) (State.setFld_sameBelow _ p _ (by decide)))
    (State.setFld_sameBelow _ p _ (by decide))) (State.setFld_sameBelow _ p _ (by decide))

theorem State.closeStream_sameBelow (s : State) (p sid : Nat) : SameBelow 0x100000 s (s.closeStream p sid) := by
  unfold State.closeStream
  split
  · exact .refl s
  · next x _ =>
    extract_lets t k u
    have ht : SameBelow 0x100000 s t := .foldl _ fun v e =>
      (State.setPageWord_sameBelow (v.dropRef p e.2) p sid e.1 none).from_regs rfl
    have hu : u.regs = t.regs := by simp only [u]
    exact (ht.trans (.of_regs hu)).trans (State.refreshPool_sameBelow ..)

theorem State.poolOff_sameBelow (s : State) (p : Nat) : SameBelow 0x100000 s (s.poolOff p) := by
  unfold State.poolOff
  extract_lets k t
  have ht : SameBelow 0x100000 s t := .of_regs rfl
  clear_value t
  exact ((ht.trans (State.refreshPool_sameBelow ..)).trans (State.setFld_sameBelow _ p _ (by decide))).trans
    (State.setFld_sameBelow _ p _ (by decide))

theorem State.kvReset_sameBelow (s : State) (p : Nat) : SameBelow 0x100000 s (s.kvReset p) := by
  unfold State.kvReset
  extract_lets t
  have ht : SameBelow 0x100000 s t := .foldl _ fun u x => u.closeStream_sameBelow ..
  clear_value t
  exact ht.trans (t.poolOff_sameBelow p)

/-! ### Plans -/

theorem State.forgetPlan_sameBelow (s : State) (p id : Nat) : SameBelow 0x100000 s (s.forgetPlan p id) :=
  .trans (.trans (s.bump_sameBelow p _ (by decide)) (State.setFld_sameBelow _ p _ (by decide))) (.of_regs rfl)

theorem State.hideChutes_sameBelow (s : State) (p : Nat) : SameBelow 0x100000 s (s.hideChutes p) := by
  refine .foldl _ fun t c => .trans (.trans (t.setFld_sameBelow c _ (by decide))
    (State.setFld_sameBelow _ c _ (by decide))) (.foldl _ fun u q => ?_)
  have above : ∀ (v : State) (f : Field), 0x100000 ≤ f.off → SameBelow 0x100000 v (v.setFld f c 0) :=
    fun v f ho => v.setFld_sameBelow c 0 ho
  refine .trans (.trans (.trans (.trans (above _ _ ?_) (above _ _ ?_)) (above _ _ ?_)) (above _ _ ?_))
    (above _ _ ?_) <;> (dsimp only; omega)

theorem State.unloadPlan_sameBelow (s : State) (p id : Nat) : SameBelow 0x100000 s (s.unloadPlan p id) :=
  ((s.forgetPlan_sameBelow p id).trans (State.hideChutes_sameBelow ..)).trans
    (State.setFld_sameBelow _ p _ (by decide))

end Sys2Proof.Machine

namespace Sys2Proof.Machine

variable {s t u : State}

/-! ## Function-level reset (R28) -/

/-- A function's reset up to the plans of its partition. -/
def State.quietFn (s : State) (p : Nat) : State :=
  let u := ((s.hciReset (p + 1)).bellReset (p + 1)).dropRegs fun off i => dayCounter off && i == p + 1
  let v := (((u.dropUnstarted p).countersReset p).disarm p).dropDeferrals p
  { v with mus := { v.mus with withdraw := v.mus.withdraw.filter fun w => w.1 != p } }

theorem State.functionReset_succ (s : State) (p : Nat) :
    s.functionReset (p + 1) = (((s.quietFn p).unloadPlans p).kvReset p).videoReset p := rfl

/-! ### Registers -/

theorem State.bellReset_sameBelow (s : State) (fn : Nat) : SameBelow 0x100000 s (s.bellReset fn) := by
  unfold State.bellReset
  extract_lets mine u
  have hu : SameBelow 0x100000 s u := s.dropRegs_sameBelow fun o i ho => by
    simp only [Bool.and_eq_false_iff, decide_eq_false_iff_not]
    exact .inl (by omega)
  exact hu.trans (.of_regs rfl)

theorem State.countersReset_sameBelow (s : State) (p : Nat) : SameBelow 0x100000 s (s.countersReset p) := by
  unfold State.countersReset
  refine s.dropRegs_sameBelow fun o i ho => ?_
  have hcore : coreCounter o = false := by
    simp only [coreCounter, Bool.or_eq_false_iff, Bool.and_eq_false_iff, decide_eq_false_iff_not]
    omega
  have hcluster : clusterCounter o = false := by
    simp only [clusterCounter, Bool.or_eq_false_iff, Bool.and_eq_false_iff, decide_eq_false_iff_not]
    omega
  have hpart : partCounter o = false := by
    simp only [partCounter, Bool.or_eq_false_iff, decide_eq_false_iff_not]
    omega
  simp only [hcore, hcluster, hpart, Bool.false_and, Bool.or_self]

theorem State.disarm_sameBelow (s : State) (p : Nat) : SameBelow 0x100000 s (s.disarm p) := by
  unfold State.disarm
  extract_lets y u
  have hu : SameBelow 0x100000 s u := .of_regs rfl
  exact (hu.trans (u.setFld_sameBelow (p + 1) 0 (by decide))).trans (State.setFld_sameBelow _ (p + 1) 0 (by decide))

theorem State.dropDeferrals_sameBelow (s : State) (p : Nat) : SameBelow 0x100000 s (s.dropDeferrals p) := by
  unfold State.dropDeferrals
  extract_lets u
  have hu : SameBelow 0x100000 s u := s.bump_sameBelow p _ (by decide)
  exact (hu.trans (u.setFld_sameBelow p 0 (by decide))).trans (.of_regs rfl)

theorem State.regs_dropUnstarted (s : State) (p : Nat) : (s.dropUnstarted p).regs = s.regs := rfl

theorem State.quietFn_sameBelow (s : State) (p : Nat) : SameBelow 0x100000 (s.hciReset (p + 1)) (s.quietFn p) := by
  unfold State.quietFn
  extract_lets u v m
  have hu : SameBelow 0x100000 (s.hciReset (p + 1)) u := by
    refine (State.bellReset_sameBelow _ _).trans (State.dropRegs_sameBelow _ fun o i ho => ?_)
    simp only [dayCounter, Bool.and_eq_false_iff, decide_eq_false_iff_not]
    exact .inl (by omega)
  have hv : SameBelow 0x100000 u v :=
    (((State.countersReset_sameBelow _ p).from_regs (u.regs_dropUnstarted p)).trans
      (State.disarm_sameBelow ..)).trans (State.dropDeferrals_sameBelow ..)
  clear_value v
  exact (hu.trans hv).trans (.of_regs rfl)

theorem State.videoReset_sameBelow (s : State) (p : Nat) : SameBelow 0x100000 s (s.videoReset p) := by
  unfold State.videoReset
  extract_lets xs u v
  have hu : SameBelow 0x100000 s u := s.dropRegs_sameBelow fun o i ho => by
    simp only [Bool.and_eq_false_iff, decide_eq_false_iff_not]
    exact .inl (by omega)
  exact hu.trans (.of_regs rfl)

theorem State.unloadPlans_sameBelow (s : State) (p : Nat) : SameBelow 0x100000 s (s.unloadPlans p) :=
  .foldl _ fun t id => t.unloadPlan_sameBelow p id

/-- A virtual function's reset leaves of its host interface what its own part of the reset does. -/
theorem State.functionReset_sameBelow (s : State) (p : Nat) :
    SameBelow 0x100000 (s.hciReset (p + 1)) (s.functionReset (p + 1)) := by
  rw [State.functionReset_succ]
  exact (((s.quietFn_sameBelow p).trans (State.unloadPlans_sameBelow ..)).trans
    (State.kvReset_sameBelow ..)).trans (State.videoReset_sameBelow ..)

theorem State.reg_hciReset (s : State) {fn o : Nat} (ho : o < 0x100000) (hfn : fn < 1048576) :
    (s.hciReset fn).reg o fn = regDefault o fn := by
  refine (s.reg_dropRegs (fun off i => decide (off < 0x100000) && i == fn) hfn).trans (if_pos ?_)
  simp [ho]

/-! ### Descriptors -/

theorem Frame.quietFn (s : State) (p : Nat) :
    Frame [.plans, .runs, .muster] (s.hciReset (p + 1)) (s.quietFn p) :=
  .withMus (.dropDeferrals (.disarm (.countersReset (.dropUnstarted (.dropRegs (.bellReset (.refl _)))))))

/-- What follows the reset of the host interface leaves the descriptors. -/
theorem Frame.functionReset_host (s : State) (p : Nat) :
    Frame [.gddr, .plans, .kv, .chutes, .loft, .muster, .video, .runs] (s.hciReset (p + 1))
      (s.functionReset (p + 1)) := by
  rw [State.functionReset_succ]
  exact .videoReset (.kvReset (.unloadPlans ((Frame.quietFn s p).mono rfl)))

theorem State.mem_flights_hciReset {f : Flight} {fn : Nat} : f ∈ (s.hciReset fn).host.flights ↔
    ∃ g ∈ s.host.flights, (g.fn ≠ fn ∨ g.started = true ∧ g.finished = false) ∧
      f = if g.fn = fn then { g with muted := true } else g := by
  constructor
  · intro h
    obtain ⟨g, hg, rfl⟩ := List.mem_map.1 h
    obtain ⟨hm, hk⟩ := List.mem_filter.1 hg
    exact ⟨g, hm, by simpa using hk, by simp only [beq_iff_eq]⟩
  · rintro ⟨g, hm, hk, rfl⟩
    exact List.mem_map.2 ⟨g, List.mem_filter.2 ⟨hm, by simpa using hk⟩, by simp only [beq_iff_eq]⟩

/-- The function's own descriptors in flight have started, and are muted. -/
theorem State.flights_hciReset_own {f : Flight} {fn : Nat} (h : f ∈ (s.hciReset fn).host.flights) (hf : f.fn = fn) :
    f.started = true ∧ f.finished = false ∧ f.muted = true := by
  obtain ⟨g, -, hg, rfl⟩ := State.mem_flights_hciReset.1 h
  by_cases he : g.fn = fn
  · rw [if_pos he]
    obtain ⟨hst, hfin⟩ := hg.resolve_left (not_not.2 he)
    exact ⟨hst, hfin, rfl⟩
  · rw [if_neg he] at hf
    exact absurd hf he

theorem State.flights_hciReset_other {f : Flight} {fn : Nat} (hf : f.fn ≠ fn) :
    f ∈ (s.hciReset fn).host.flights ↔ f ∈ s.host.flights := by
  rw [State.mem_flights_hciReset]
  constructor
  · rintro ⟨g, hg, -, rfl⟩
    by_cases he : g.fn = fn
    · rw [if_pos he] at hf
      exact absurd he hf
    · rwa [if_neg he]
  · exact fun h => ⟨f, h, .inl hf, (if_neg hf).symm⟩

/-! ### Plans -/

theorem tabFind_filter_none {α : Type} (l : Tab α) (q : Nat × α → Bool) {k : Nat} (h : tabFind l k = none) :
    tabFind (l.filter q) k = none := by
  induction l with
  | nil => rfl
  | cons e l ih =>
    obtain ⟨a, v⟩ := e
    by_cases hk : a = k
    · simp [tabFind, hk] at h
    · have hl : tabFind l k = none := by simpa [tabFind, hk] using h
      rw [List.filter_cons]
      split
      · simpa [tabFind, hk] using ih hl
      · exact ih hl

/-- The steps of the partition are among those there were. -/
theorem State.steps_quietFn (s : State) (p : Nat) : (s.quietFn p).yard.steps = s.yard.steps.filter fun e =>
    e.1 != p || (s.hciReset (p + 1)).host.flights.any fun f => f.seq == e.2.seq := by
  unfold State.quietFn
  extract_lets u v m
  have hv : v.yard.steps = (u.dropUnstarted p).yard.steps := by
    have hc : ((u.dropUnstarted p).countersReset p).yard = (u.dropUnstarted p).yard :=
      Frame.yard_eq (F := []) (.countersReset (.refl _)) rfl
    simp only [v, State.dropDeferrals, State.disarm, State.yard_setFld, State.yard_bump, hc]
  exact hv

theorem State.stepOf_quietFn {p : Nat} (h : s.stepOf p = none) : (s.quietFn p).stepOf p = none := by
  unfold State.stepOf
  rw [State.steps_quietFn]
  exact tabFind_filter_none _ _ h

theorem State.plans_forgetPlan (s : State) (p id : Nat) :
    (s.forgetPlan p id).yard.plans = tabDel s.yard.plans (p * 16 + id) := by
  unfold State.forgetPlan
  extract_lets k held rest a b y
  have hb : b.yard = s.yard := (State.yard_setFld ..).trans (State.yard_bump ..)
  exact congrArg (fun y : YardSide => tabDel y.plans k) hb

theorem State.planOf_unloadPlan_none {p id id' : Nat} (h : s.planOf p id = none) :
    (s.unloadPlan p id').planOf p id = none := by
  unfold State.planOf at h ⊢
  rw [State.yard_unloadPlan, State.plans_forgetPlan, tabFind_tabDel, h, ite_self]

/-- Unloading a list of plans leaves none of them loaded. -/
theorem State.planOf_foldl_unloadPlan {p id : Nat} (ids : List Nat) (h : id ∈ ids ∨ s.planOf p id = none) :
    (ids.foldl (fun (s : State) id => s.unloadPlan p id) s).planOf p id = none := by
  induction ids generalizing s with
  | nil => exact h.resolve_left List.not_mem_nil
  | cons k ids ih =>
    refine ih ?_
    by_cases hk : id = k
    · exact .inr (hk ▸ s.planOf_unloadPlan p id)
    · exact (h.imp_left fun hm => (List.mem_cons.1 hm).resolve_left hk).imp_right State.planOf_unloadPlan_none

theorem State.planOf_unloadPlans {p : Nat} (h : s.stepOf p = none) (id : Fin 16) :
    (s.unloadPlans p).planOf p id = none := by
  refine State.planOf_foldl_unloadPlan _ (.inl (List.mem_filter.2 ⟨List.mem_range.2 id.isLt, ?_⟩))
  rw [h]
  rfl

/-- Settles O11: the reset of the host interface, and what the rest of the reset leaves of it. -/
theorem functionResetDropsUnstartedWork : Obligations.FunctionResetDropsUnstartedWork := by
  unfold Obligations.FunctionResetDropsUnstartedWork
  intro p s
  have hp : (p : Nat) + 1 < 1048576 := by omega
  have hF := Frame.functionReset_host s p
  have hfl : (s.functionReset (p + 1)).host.flights = (s.hciReset (p + 1)).host.flights := hF.flights_eq rfl
  obtain ⟨-, hw, -⟩ : _ ∧ (s.functionReset (p + 1)).host.waiting = (s.hciReset (p + 1)).host.waiting ∧ _ :=
    hF.same .descriptors rfl
  refine ⟨s.functionReset (p + 1), rfl, fun off ho => ?_, fun f hf hfn => ?_, fun r hr => ?_, fun f hf => ?_,
    fun hstep id => ?_⟩
  · rw [(s.functionReset_sameBelow p).reg ho hp, s.reg_hciReset ho hp]
  · exact State.flights_hciReset_own (hfl ▸ hf) hfn
  · rw [hw] at hr
    simpa using (List.mem_filter.1 hr).2
  · rw [hfl]
    exact State.flights_hciReset_other hf
  · have hq : ((s.quietFn p).unloadPlans p).planOf p id = none :=
      State.planOf_unloadPlans (State.stepOf_quietFn hstep) id
    have hrest : Frame [.gddr, .kv, .loft, .video] ((s.quietFn p).unloadPlans p) (s.functionReset (p + 1)) := by
      rw [State.functionReset_succ]
      exact .videoReset (.kvReset (.refl _))
    unfold State.planOf at hq ⊢
    rwa [hrest.yard_eq rfl]

end Sys2Proof.Machine

namespace Sys2Proof.Machine

variable {s t u : State}

/-! ## Bytes at a place (R44) -/

/-- The space of a place. -/
def Place.space : Place → Nat
  | .host _ => 0
  | .gddr _ => 1
  | .scratch _ _ => 2

/-- A byte from a place of a function. -/
def State.byteAt (s : State) (fn : Nat) : Place → Nat → Byte
  | .host a, i => (tabFind s.host.mem (a + i)).getD 0
  | .gddr o, i => (tabFind s.mem.gddr (gddrKey fn o + i)).getD (s.gddrDefault fn (gddrKey fn o + i))
  | .scratch c o, i => (tabFind s.mem.scratch (scratchKey c o + i)).getD 0

theorem readBytes_eq_map (d : Nat → Byte) (m : List Host.Cell) (a n : Nat) :
    readBytes d m a n = (List.range n).map fun i => (tabFind m (a + i)).getD (d (a + i)) := by
  induction n generalizing a with
  | zero => rfl
  | succ n ih =>
    rw [readBytes, ih, List.range_succ_eq_map, List.map_cons, List.map_map, Nat.add_zero]
    congr 1
    refine List.map_congr_left fun i _ => ?_
    rw [Function.comp_apply, Nat.succ_eq_add_one, show a + 1 + i = a + (i + 1) by omega]

theorem State.readAt_eq_map (s : State) (fn : Nat) (pl : Place) (n : Nat) :
    s.readAt fn pl n = (List.range n).map (s.byteAt fn pl) := by
  cases pl <;> exact readBytes_eq_map ..

theorem State.length_readAt (s : State) (fn : Nat) (pl : Place) (n : Nat) : (s.readAt fn pl n).length = n := by
  rw [State.readAt_eq_map, List.length_map, List.length_range]

theorem State.byteAt_placeAdd (s : State) (fn : Nat) (pl : Place) (k i : Nat) :
    s.byteAt fn (placeAdd pl k) i = s.byteAt fn pl (k + i) := by
  cases pl <;> simp only [placeAdd, State.byteAt, gddrKey, scratchKey, Nat.add_assoc]

theorem space_placeAdd (pl : Place) (k : Nat) : (placeAdd pl k).space = pl.space := by
  cases pl <;> rfl

/-- Bytes at places are those of the memories, under the keys of the partitions. -/
theorem State.byteAt_congr (hh : t.host.mem = s.host.mem) (hg : t.mem.gddr = s.mem.gddr)
    (hs : t.mem.scratch = s.mem.scratch) (hp : t.parts = s.parts) (fn : Nat) (pl : Place) (i : Nat) :
    t.byteAt fn pl i = s.byteAt fn pl i := by
  cases pl with
  | host a => rw [State.byteAt, State.byteAt, hh]
  | gddr o => rw [State.byteAt, State.byteAt, hg, State.gddrDefault, State.gddrDefault, hp]
  | scratch c o => rw [State.byteAt, State.byteAt, hs]

/-- A frame without the memories leaves the bytes at places. -/
theorem Frame.byteAt_eq {F : List Piece} (h : Frame F s t)
    (hF : ∀ k ∈ [Piece.hostMem, .gddr, .scratch, .partitions], F.contains k = false) (fn : Nat) (pl : Place) (i : Nat) :
    t.byteAt fn pl i = s.byteAt fn pl i :=
  State.byteAt_congr (h.same .hostMem (hF _ (by simp))) (h.same .gddr (hF _ (by simp))).1
    (h.same .scratch (hF _ (by simp))).1 (h.same .partitions (hF _ (by simp))) fn pl i

theorem getD_tabFind_writeListed (m : List Host.Cell) (a k : Nat) (bs : List Byte) {d : Byte}
    (hd : k < 2 ^ 48 → d = 0) : (tabFind (writeListed m a bs) k).getD d =
      if a ≤ k ∧ k < a + bs.length then (bs[k - a]?).getD 0 else (tabFind m k).getD d := by
  induction bs generalizing m a with
  | nil => simp [writeListed]
  | cons b bs ih =>
    rw [writeListed, ih]
    by_cases h : a = k
    · subst h
      have hin : a ≤ a ∧ a < a + (b :: bs).length := ⟨le_refl a, by simp⟩
      rw [if_neg (show ¬(a + 1 ≤ a ∧ a < a + 1 + bs.length) by omega), if_pos hin, Nat.sub_self]
      by_cases hk : a < 2 ^ 48
      · have hset := tabGet_tabSet (0 : Byte) m a a b
        rw [if_pos hk, hd hk]
        simpa [tabGet] using hset
      · rw [if_neg hk, tabFind_tabPut, if_pos rfl]
        rfl
    · have hm : tabFind (if a < 2 ^ 48 then tabSet 0 m a b else tabPut m a b) k = tabFind m k := by
        split
        · exact tabFind_tabSet_ne _ _ _ h
        · rw [tabFind_tabPut, if_neg h]
      rw [hm, List.length_cons]
      by_cases hin : a + 1 ≤ k ∧ k < a + 1 + bs.length
      · rw [if_pos hin, if_pos (by omega), show k - a = k - (a + 1) + 1 by omega, List.getElem?_cons_succ]
      · rw [if_neg hin, if_neg (by omega)]

/-- Memories that read the same are the same. -/
theorem Frame.mem_eq {F : List Piece} (h : Frame F s t) (hg : F.contains .gddr = false)
    (hs : F.contains .scratch = false) : t.mem = s.mem := by
  obtain ⟨hgddr, hbad⟩ : _ ∧ _ := h.same .gddr hg
  obtain ⟨hscratch, hsbad⟩ : _ ∧ _ := h.same .scratch hs
  cases ht : t.mem
  cases hv : s.mem
  simp_all

/-- What a GDDR write leaves behind, its Loft traffic aside. -/
theorem State.writeMem_bytes (s : State) (fn o : Nat) (bs : List Byte) :
    (s.writeMem fn o bs).host.mem = s.host.mem ∧ (s.writeMem fn o bs).parts = s.parts ∧
      (s.writeMem fn o bs).mem = (s.writeGddr fn o bs).mem := by
  unfold State.writeMem
  extract_lets secs u
  have hF : Frame [.loft] s u := .foldl (.refl _) fun _ _ => .ite (.countGddr (.refl _)) (.loftWrite (.refl _))
  have hmem : u.mem = s.mem := hF.mem_eq rfl rfl
  refine ⟨hF.same .hostMem rfl, hF.same .partitions rfl, ?_⟩
  unfold State.writeGddr
  rw [hmem]

/-- A write at a place sets the bytes it covers, and no others of that place. -/
theorem State.byteAt_writeAt_same (s : State) (fn : Nat) (pl : Place) (k i : Nat) (bs : List Byte) :
    (s.writeAt fn (placeAdd pl k) bs).byteAt fn pl i =
      if k ≤ i ∧ i < k + bs.length then (bs[i - k]?).getD 0 else s.byteAt fn pl i := by
  cases pl with
  | host a =>
    refine (getD_tabFind_writeBytes s.host.mem (a + k) bs (a + i)).trans (if_congr (by omega) ?_ rfl)
    rw [show a + i - (a + k) = i - k by omega]
  | gddr o =>
    obtain ⟨-, hparts, hmem⟩ := s.writeMem_bytes fn (o + k) bs
    have hdef : (s.writeMem fn (o + k) bs).gddrDefault fn = s.gddrDefault fn := by
      funext x
      rw [State.gddrDefault, State.gddrDefault, hparts]
    have hzero : gddrKey fn o + i < 2 ^ 48 → s.gddrDefault fn (gddrKey fn o + i) = 0 := fun hk => by
      rw [State.gddrDefault, if_pos]
      unfold gddrKey at hk
      omega
    simp only [placeAdd, State.writeAt, State.byteAt]
    rw [hdef, hmem]
    refine (getD_tabFind_writeListed s.mem.gddr (gddrKey fn (o + k)) _ bs hzero).trans (if_congr ?_ ?_ rfl)
    · unfold gddrKey
      omega
    · rw [show gddrKey fn o + i - gddrKey fn (o + k) = i - k by unfold gddrKey; omega]
  | scratch c o =>
    refine (getD_tabFind_writeBytes s.mem.scratch (scratchKey c (o + k)) bs (scratchKey c o + i)).trans
      (if_congr (by unfold scratchKey; omega) ?_ rfl)
    rw [show scratchKey c o + i - scratchKey c (o + k) = i - k by unfold scratchKey; omega]

/-- A write at a place leaves the bytes of places in other spaces. -/
theorem State.byteAt_writeAt_other (s : State) (fn : Nat) {pa pb : Place} (h : pa.space ≠ pb.space) (i : Nat)
    (bs : List Byte) : (s.writeAt fn pb bs).byteAt fn pa i = s.byteAt fn pa i := by
  cases pb with
  | host b =>
    cases pa with
    | host a => exact absurd rfl h
    | gddr o => rfl
    | scratch c o => rfl
  | gddr b =>
    obtain ⟨hhost, -, hmem⟩ := s.writeMem_bytes fn b bs
    cases pa with
    | host a => simp only [State.writeAt, State.byteAt, hhost]
    | gddr o => exact absurd rfl h
    | scratch c o =>
      simp only [State.writeAt, State.byteAt, hmem]
      rfl
  | scratch c b =>
    cases pa with
    | host a => rfl
    | gddr o => rfl
    | scratch c o => exact absurd rfl h

/-! ### Poison at a place (R270, R290, R519) -/

/-- The sectors of a range are those its bytes lie in. -/
theorem mem_unitsOf {key n u : Nat} : u ∈ unitsOf key n ↔ n ≠ 0 ∧ key / 64 ≤ u ∧ u ≤ (key + n - 1) / 64 := by
  unfold unitsOf
  split
  · simp [*]
  · next hn =>
    simp only [List.mem_map, List.mem_range]
    constructor
    · rintro ⟨x, hx, rfl⟩
      omega
    · rintro ⟨-, hl, hh⟩
      exact ⟨u - key / 64, by omega, by omega⟩

/-- Good data stays good from one state to another. -/
structure StaysGood (s t : State) : Prop where
  gddr : ∀ u, tabFind s.mem.bad u = none → tabFind t.mem.bad u = none
  scratch : ∀ u, tabFind s.mem.scratchBad u = none → tabFind t.mem.scratchBad u = none
  hurt : t.loft.hurt = s.loft.hurt

theorem StaysGood.refl (s : State) : StaysGood s s := ⟨fun _ => id, fun _ => id, rfl⟩

theorem StaysGood.trans (h : StaysGood s t) (h' : StaysGood t u) : StaysGood s u :=
  ⟨fun x hx => h'.gddr x (h.gddr x hx), fun x hx => h'.scratch x (h.scratch x hx), h'.hurt.trans h.hurt⟩

/-- A range of a place is good where the sectors of its bytes are. -/
theorem StaysGood.badAt (h : StaysGood s t) {fn n m k : Nat} {pl : Place} (hk : k + m ≤ n)
    (hg : s.badAt fn pl n = false) : t.badAt fn (placeAdd pl k) m = false := by
  have hsub : ∀ {key x : Nat}, x ∈ unitsOf (key + k) m → x ∈ unitsOf key n := fun hx => by
    rw [mem_unitsOf] at hx ⊢
    omega
  cases pl with
  | host a => rfl
  | gddr o =>
    simp only [placeAdd, State.badAt, State.gddrBad, List.any_eq_false, Bool.or_eq_true, Option.isSome_iff_ne_none,
      ne_eq, not_or, not_not] at hg ⊢
    intro x hx
    rw [show gddrKey fn (o + k) = gddrKey fn o + k by unfold gddrKey; omega] at hx
    obtain ⟨hbad, hhurt⟩ := hg x (hsub hx)
    exact ⟨h.gddr x hbad, h.hurt ▸ hhurt⟩
  | scratch c o =>
    simp only [placeAdd, State.badAt, List.any_eq_false, Option.isSome_iff_ne_none, ne_eq, not_not] at hg ⊢
    intro x hx
    rw [show scratchKey c (o + k) = scratchKey c o + k by unfold scratchKey; omega] at hx
    exact h.scratch x (hg x (hsub hx))

/-- A write of whole bytes makes no data bad. -/
theorem State.writeAt_staysGood (s : State) (fn : Nat) (pl : Place) (bs : List Byte) :
    StaysGood s (s.writeAt fn pl bs) := by
  have hhurt := (s.writeAt_loftStep fn pl bs).hurt
  cases pl with
  | host a => exact ⟨fun _ => id, fun _ => id, hhurt⟩
  | gddr o =>
    obtain ⟨-, -, hmem⟩ := s.writeMem_bytes fn o bs
    refine ⟨fun x hx => ?_, fun x hx => ?_, hhurt⟩
    · rw [State.writeAt, hmem]
      exact tabFind_filter_none _ _ hx
    · rw [State.writeAt, hmem]
      exact hx
  | scratch c o => exact ⟨fun _ => id, fun x hx => tabFind_filter_none _ _ hx, hhurt⟩

theorem State.touch_staysGood (s : State) (fn : Nat) (pl : Place) (n : Nat) : StaysGood s (s.touch fn pl n) := by
  have hm : (s.touch fn pl n).mem = s.mem := Frame.mem_eq (F := [.loft]) (.touch (.refl s)) rfl rfl
  exact ⟨fun x hx => hm ▸ hx, fun x hx => hm ▸ hx, (s.touch_loftStep ..).hurt⟩

end Sys2Proof.Machine

namespace Sys2Proof.Machine

variable {s t u : State}

/-! ## Raw copies (R48) -/

/-- One block of a raw copy of good data. -/
def State.moveBlock (s : State) (fn : Nat) (pa pb : Place) (k : Nat) : State :=
  (s.touch fn (placeAdd pa (64 * k)) 64).writeAt fn (placeAdd pb (64 * k)) (s.readAt fn (placeAdd pa (64 * k)) 64)

/-- The first blocks of a raw copy of good data. -/
def State.moveBlocks (s : State) (fn : Nat) (pa pb : Place) (k : Nat) : State :=
  (List.range k).foldl (fun (s : State) k => s.moveBlock fn pa pb k) s

theorem State.moveBlocks_succ (s : State) (fn : Nat) (pa pb : Place) (k : Nat) :
    s.moveBlocks fn pa pb (k + 1) = (s.moveBlocks fn pa pb k).moveBlock fn pa pb k := by
  rw [State.moveBlocks, List.range_succ, List.foldl_append]
  rfl

theorem rawBlock_good {fn k : Nat} {pa pb : Place} {r : CopyRun}
    (h : r.st.badAt fn (placeAdd pa (64 * k)) 64 = false) :
    rawBlock fn pa pb r k = { r with st := r.st.moveBlock fn pa pb k, moved := r.moved + 64 } := by
  unfold rawBlock
  simp only [h, Bool.false_eq_true, and_false, if_false]
  cases pb <;> rfl

theorem State.moveBlock_staysGood (s : State) (fn : Nat) (pa pb : Place) (k : Nat) :
    StaysGood s (s.moveBlock fn pa pb k) := (s.touch_staysGood ..).trans (State.writeAt_staysGood ..)

theorem State.moveBlocks_staysGood (s : State) (fn : Nat) (pa pb : Place) (k : Nat) :
    StaysGood s (s.moveBlocks fn pa pb k) := by
  induction k with
  | zero => exact .refl s
  | succ k ih =>
    rw [State.moveBlocks_succ]
    exact ih.trans (State.moveBlock_staysGood ..)

/-- A raw copy of good data moves its blocks, and ends with no cause. -/
theorem foldl_rawBlock {fn n : Nat} {pa pb : Place} (h : s.badAt fn pa (64 * n) = false) {k : Nat} (hk : k ≤ n) :
    (List.range k).foldl (rawBlock fn pa pb) ⟨s, 0, 0, 0, [], none, false⟩ =
      ⟨s.moveBlocks fn pa pb k, 64 * k, 0, 0, [], none, false⟩ := by
  induction k with
  | zero => rfl
  | succ k ih =>
    have hgood := (s.moveBlocks_staysGood fn pa pb k).badAt (k := 64 * k) (m := 64) (by omega) h
    rw [List.range_succ, List.foldl_append, ih (by omega), List.foldl_cons, List.foldl_nil, rawBlock_good hgood,
      ← State.moveBlocks_succ]
    rfl

theorem State.byteAt_touch (s : State) (fn : Nat) (pl : Place) (n : Nat) (pl' : Place) (i : Nat) :
    (s.touch fn pl n).byteAt fn pl' i = s.byteAt fn pl' i :=
  Frame.byteAt_eq (F := [.loft]) (.touch (.refl s)) (by decide) fn pl' i

/-- Between different spaces the source stays, and the blocks moved read at the destination as there. -/
theorem State.byteAt_moveBlocks (s : State) (fn : Nat) {pa pb : Place} (h : pa.space ≠ pb.space) (k i : Nat) :
    (s.moveBlocks fn pa pb k).byteAt fn pa i = s.byteAt fn pa i ∧
      (i < 64 * k → (s.moveBlocks fn pa pb k).byteAt fn pb i = s.byteAt fn pa i) := by
  induction k generalizing i with
  | zero => exact ⟨rfl, fun hi => by omega⟩
  | succ k ih =>
    rw [State.moveBlocks_succ]
    have hsp : pa.space ≠ (placeAdd pb (64 * k)).space := by rwa [space_placeAdd]
    refine ⟨?_, fun hi => ?_⟩
    · rw [State.moveBlock, State.byteAt_writeAt_other _ _ hsp, State.byteAt_touch, (ih i).1]
    · rw [State.moveBlock, State.byteAt_writeAt_same, State.length_readAt, State.byteAt_touch]
      by_cases hlow : i < 64 * k
      · rw [if_neg (by omega), (ih i).2 hlow]
      · rw [if_pos (by omega), State.readAt_eq_map, List.getElem?_map,
          List.getElem?_range (show i - 64 * k < 64 by omega)]
        simp only [Option.map_some, Option.getD_some]
        rw [State.byteAt_placeAdd, (ih _).1, show 64 * k + (i - 64 * k) = i by omega]

/-- What a raw copy to host memory leaves: the memories of the module, the host bytes outside its destination, the
registers below those of the memories, and all but host memory and the Lofts' traffic. -/
structure CopiedOut (s t : State) (dst len : Nat) : Prop where
  mem : t.mem = s.mem
  host : ∀ a, a < dst ∨ dst + len ≤ a → t.readHost a 1 = s.readHost a 1
  low : SameBelow 0x800000 s t
  frame : Frame [.hostMem, .loft] s t

theorem State.moveBlocks_copiedOut (s : State) (fn : Nat) (pa : Place) (dst k : Nat) :
    CopiedOut s (s.moveBlocks fn pa (.host dst) k) dst (64 * k) := by
  induction k with
  | zero => exact ⟨rfl, fun _ _ => rfl, .refl s, .refl s⟩
  | succ k ih =>
    rw [State.moveBlocks_succ]
    generalize s.moveBlocks fn pa (.host dst) k = v at ih
    have hF : Frame [.loft] v (v.touch fn (placeAdd pa (64 * k)) 64) := .touch (.refl v)
    refine ⟨(hF.mem_eq rfl rfl).trans ih.mem, fun a ha => ?_,
      ih.low.trans ((v.touch_loftStep ..).trans (State.writeAt_loftStep ..)).low,
      ih.frame.trans (.writeHost (hF.mono rfl))⟩
    refine (State.readHost_writeHost_outside _ _ _ _ ?_).trans ?_
    · rw [State.length_readAt]
      omega
    · exact (State.readHost_congr (hF.same .hostMem rfl) a 1).trans (ih.host a (by omega))

/-! ### The record of a copy -/

theorem SameBelow.setFld {B : Nat} (h : SameBelow B s t) {f : Field} {i x y : Nat} (ho : f.off < B)
    (hi : i < 1048576) (hxy : x = y) : SameBelow B (s.setFld f i x) (t.setFld f i y) := by
  subst hxy
  refine ⟨fun k hk => ?_⟩
  unfold State.setFld
  rw [h.reg ho hi]
  by_cases he : regKey f.off i = k
  · subst he
    unfold State.setReg tabSet
    split <;> simp [tabFind_tabDel, tabFind_tabPut]
  · exact (tabFind_tabSet_ne _ _ _ he).trans ((h.find k hk).trans (tabFind_tabSet_ne _ _ _ he).symm)

/-- FULL once the record of a descriptor's end has been added to those of its completion ring. -/
theorem State.refreshFull_queueEnd (s : State) (f : Flight) (st au detail : Nat) :
    (s.queueEnd f (s.endRec f st au detail)).refreshFull f.fn (s.fld (HCI_SQ_CTRL_CQ_ID f.sq) f.fn) =
      (s.queueEnd f (s.endRec f st au detail)).setFld (HCI_CQ_STATUS_FULL (s.fld (HCI_SQ_CTRL_CQ_ID f.sq) f.fn)) f.fn
        (s.cqFull f.fn (s.fld (HCI_SQ_CTRL_CQ_ID f.sq) f.fn)).toNat := by
  have held : ((s.queueEnd f (s.endRec f st au detail)).host.waiting.any fun x =>
      x.fn == f.fn && x.cq == s.fld (HCI_SQ_CTRL_CQ_ID f.sq) f.fn) = true :=
    List.any_eq_true.2 ⟨_, List.mem_append_right _ (List.mem_singleton.2 rfl), by simp [State.endRec]⟩
  unfold State.refreshFull
  simp only [held, Bool.and_true]
  rfl

/-- Two states end a descriptor alike: the registers of the host interface, the descriptors and the internal faults
are the same. -/
theorem SameBelow.finish {B : Nat} (h : SameBelow B s t) (hF : Frame [.hostMem, .loft] s t) (hB : 0x4000 ≤ B)
    {f : Flight} (hfn : f.fn < 1048576) (hsq : f.sq < 64) (status aux detail : Nat) :
    SameBelow B (s.finish f status aux detail) (t.finish f status aux detail) := by
  have hfl := hF.flights_eq rfl
  cases hm : f.muted with
  | true =>
    rw [State.finish_muted hm, State.finish_muted hm]
    refine SameBelow.setFld ?_ (by dsimp only; omega) hfn ?_
    · exact ⟨h.find⟩
    · have hen : t.flag (HCI_SQ_CTRL_ENABLE f.sq) f.fn = s.flag (HCI_SQ_CTRL_ENABLE f.sq) f.fn :=
        h.flag (by dsimp only; omega) hfn
      have hs : ∀ v : State, (v.dropFlight f.seq).flag (HCI_SQ_CTRL_ENABLE f.sq) f.fn =
          v.flag (HCI_SQ_CTRL_ENABLE f.sq) f.fn := fun v => rfl
      rw [hs, hs, hen]
      simp only [State.dropFlight, hfl]
  | false =>
    obtain ⟨st, au, hs, -⟩ := s.finish_unmuted hm status aux detail
    obtain ⟨st', au', ht, -⟩ := t.finish_unmuted hm status aux detail
    have hcq : t.fld (HCI_SQ_CTRL_CQ_ID f.sq) f.fn = s.fld (HCI_SQ_CTRL_CQ_ID f.sq) f.fn :=
      h.fld (by dsimp only; omega) hfn
    have hm64 : s.fld (HCI_SQ_CTRL_CQ_ID f.sq) f.fn < 64 := s.fld_lt _ _
    rw [hs, ht, State.refreshFull_queueEnd, State.refreshFull_queueEnd, hcq]
    generalize s.fld (HCI_SQ_CTRL_CQ_ID f.sq) f.fn = m at hm64
    have hq : SameBelow B (s.queueEnd f (s.endRec f st au detail)) (t.queueEnd f (t.endRec f st' au' detail)) :=
      ⟨h.find⟩
    refine hq.setFld (by dsimp only; omega) hfn ?_
    unfold State.cqFull
    rw [h.reg (o := HCI_CQ_TAIL m) (by simp only [HCI_CQ_TAIL]; omega) hfn,
      h.reg (o := HCI_CQ_HEAD m) (by simp only [HCI_CQ_HEAD]; omega) hfn,
      h.fld (f := HCI_CQ_CTRL_SIZE_LOG2 m) (by dsimp only; omega) hfn]

/-! ### The copies that run -/

theorem exec_baleCopyRaw {fn : Fn} {n : Ring} {idx : Word} {f : Flight} (h : s.ready fn n idx.toNat 3 = some f)
    (hr : copyRaw f = true) : exec (.baleCopyRaw fn n idx []) s = .next (rawCopy s f) :=
  (State.runDesc_ready (k := fun s f => if copyRaw f then s.meeting fn [] fun s => rawCopy s f else s) h).trans
    (congrArg Host.Outcome.next (if_pos hr))

theorem exec_baleCopy {fn : Fn} {n : Ring} {idx : Word} {f : Flight} (h : s.ready fn n idx.toNat 3 = some f)
    (hr : copyRaw f = false) : exec (.baleCopy fn n idx []) s = .next (baleCopy s f) :=
  (State.runDesc_ready (k := fun s f => if copyRaw f then s else s.meeting fn [] fun s => baleCopy s f) h).trans
    (congrArg Host.Outcome.next (if_neg (by simp [hr])))

theorem rawCopy_fails {f : Flight} {pa pb : Place} {x : Failed} {xs : List Failed}
    (ha : s.place f.fn (copySrc f) (64 * copyCount f) = .ok pa)
    (hb : s.place f.fn (copyDst f) (64 * copyCount f) = .ok pb)
    (hc : copyChecks f ++ s.destFailed f.fn pb (64 * copyCount f) = x :: xs) :
    rawCopy s f = s.failDesc f (x :: xs) := by
  simp only [rawCopy, ha, hb, hc]

theorem rawCopy_acts {f : Flight} {pa pb : Place} (ha : s.place f.fn (copySrc f) (64 * copyCount f) = .ok pa)
    (hb : s.place f.fn (copyDst f) (64 * copyCount f) = .ok pb) (hc : copyChecks f = [])
    (hd : s.destFailed f.fn pb (64 * copyCount f) = []) :
    rawCopy s f = if 64 * copyCount f = 0 then s.finish f stOkEmpty 0 0
      else if s.placeDown f.fn pa (64 * copyCount f) || s.placeDown f.fn pb (64 * copyCount f) then
        s.finish f stTargetReset 0 0
      else copyEnd f ((List.range (copyCount f)).foldl (rawBlock f.fn pa pb) ⟨s, 0, 0, 0, [], none, false⟩) := by
  simp only [rawCopy, ha, hb, hc, hd, List.append_nil]

/-- A raw copy of good data between places that are not in reset moves its blocks and ends OK. -/
theorem rawCopy_good {f : Flight} {pa pb : Place} (ha : s.place f.fn (copySrc f) (64 * copyCount f) = .ok pa)
    (hb : s.place f.fn (copyDst f) (64 * copyCount f) = .ok pb) (hc : copyChecks f = [])
    (hd : s.destFailed f.fn pb (64 * copyCount f) = []) (h0 : copyCount f ≠ 0)
    (hpa : s.placeDown f.fn pa (64 * copyCount f) = false) (hpb : s.placeDown f.fn pb (64 * copyCount f) = false)
    (hgood : s.badAt f.fn pa (64 * copyCount f) = false) :
    rawCopy s f = (s.moveBlocks f.fn pa pb (copyCount f)).finish f stOK 0 (64 * copyCount f) := by
  rw [rawCopy_acts ha hb hc hd, if_neg (by omega), if_neg (by simp [hpa, hpb]), foldl_rawBlock hgood (le_refl _)]
  rfl

/-- An address's place lies in the space the address names. -/
theorem State.space_place {fn addr n : Nat} {pl : Place} (h : s.place fn addr n = .ok pl) :
    pl.space = addr / 2 ^ 60 := by
  unfold State.place placeOr at h
  dsimp only at h
  split at h
  · split at h
    · cases h
    · cases h
      exact Eq.symm ‹_›
  · split at h
    · split at h
      · cases h
        exact Eq.symm ‹_›
      · cases h
    · split at h
      · split at h
        · cases h
          exact Eq.symm ‹_›
        · cases h
      · cases h

theorem State.byteAt_finish (s : State) (f : Flight) (status aux detail fn : Nat) (pl : Place) (i : Nat) :
    (s.finish f status aux detail).byteAt fn pl i = s.byteAt fn pl i :=
  Frame.byteAt_eq (F := [.descriptors]) (.finish (.refl s)) (by decide) fn pl i

/-- Between different spaces the destination of a raw copy reads as its source did. -/
theorem State.readAt_moveBlocks (s : State) {f : Flight} (fn : Nat) {pa pb : Place} (h : pa.space ≠ pb.space)
    (k status aux detail : Nat) :
    ((s.moveBlocks fn pa pb k).finish f status aux detail).readAt fn pb (64 * k) = s.readAt fn pa (64 * k) := by
  rw [State.readAt_eq_map, State.readAt_eq_map]
  refine List.map_congr_left fun i hi => ?_
  rw [State.byteAt_finish, (s.byteAt_moveBlocks fn h k i).2 (List.mem_range.1 hi)]

/-- The run of bales of a copy, from its first. -/
def State.baleRun (s : State) (f : Flight) : CopyRun :=
  copyBales f.fn (copySrc f) (copyDst f) (copyStride f) (copyCount f) (copyCount f) 0 0 ⟨s, 0, 0, 0, [], none, false⟩

section

variable {f : Flight} {a b : Place} (hc : copyChecks f = []) (ha : s.place f.fn (copySrc f) 0 = .ok a)
  (hb : s.place f.fn (copyDst f) 0 = .ok b)

include hc ha hb

theorem baleCopy_empty (h0 : copyCount f = 0) : baleCopy s f = s.finish f stOkEmpty 0 0 := by
  simp only [baleCopy, hc, ha, hb, List.append_nil]
  exact if_pos h0

/-- A run that no check stopped ends as its bales went. -/
theorem baleCopy_ends (h0 : copyCount f ≠ 0) (hx : (s.baleRun f).checks = []) :
    baleCopy s f = copyEnd f (s.baleRun f) := by
  unfold State.baleRun at hx ⊢
  simp only [baleCopy, hc, ha, hb, List.append_nil, if_neg h0, hx]

theorem baleCopy_refused (h0 : copyCount f ≠ 0) {x : Failed} {xs : List Failed} (hx : (s.baleRun f).checks = x :: xs)
    (hcause : (s.baleRun f).cause = 0) : baleCopy s f = s.failDesc f (x :: xs) := by
  unfold State.baleRun at hx hcause
  simp only [baleCopy, hc, ha, hb, List.append_nil, if_neg h0, hx, if_pos hcause]

end

theorem copyEnd_data {f : Flight} {r : CopyRun} (hc : r.cause ≠ 0) :
    copyEnd f r = r.st.finish f stDataError (r.cause + min r.poisoned 0xFFFFFF * 256) r.moved := if_pos hc

theorem copyEnd_header {f : Flight} {r : CopyRun} {k x : Nat} (hc : r.cause = 0) (hh : r.badHdr = some (k, x)) :
    copyEnd f r = r.st.finish f stRefused x k := by
  rw [copyEnd, if_neg (not_not.2 hc), hh]

theorem copyEnd_done {f : Flight} {r : CopyRun} (hc : r.cause = 0) (hh : r.badHdr = none) :
    copyEnd f r = if r.down then r.st.finish f stTargetReset 0 r.moved else r.st.finish f stOK 0 r.moved := by
  rw [copyEnd, if_neg (not_not.2 hc), hh]

/-! ### One bale from GDDR to host memory -/

/-- The bytes of a bale of good data lie in host memory. -/
def State.moveBale (s : State) (fn src dst n : Nat) : State :=
  (s.touch fn (.gddr src) n).writeHost dst (s.readGddr fn src n)

theorem State.moveBale_spec (s : State) (fn src dst n : Nat) :
    (s.moveBale fn src dst n).readHost dst n = s.readGddr fn src n ∧ (s.moveBale fn src dst n).mem = s.mem ∧
      ∀ a, a < dst ∨ dst + n ≤ a → (s.moveBale fn src dst n).readHost a 1 = s.readHost a 1 := by
  have hF : Frame [.loft] s (s.touch fn (.gddr src) n) := .touch (.refl s)
  have hlen : (s.readGddr fn src n).length = n := s.length_readAt fn (.gddr src) n
  refine ⟨?_, hF.mem_eq rfl rfl, fun a ha => ?_⟩
  · have := State.readHost_writeHost (s.touch fn (.gddr src) n) dst (s.readGddr fn src n)
    rwa [hlen] at this
  · exact (State.readHost_writeHost_outside _ _ _ _ (by rwa [hlen])).trans
      (State.readHost_congr (hF.same .hostMem rfl) a 1)

end Sys2Proof.Machine

namespace Sys2Proof.Machine

variable {s t u : State}

/-- What is known of one bale from GDDR to host memory: its places, its header, and that nothing keeps it from
moving. -/
structure State.BaleMoves (s : State) (f : Flight) (src dst n : Nat) : Prop where
  header : copyHdrBad f.fn (readHdr (s.readGddr f.fn src 64)) = none
  size : (readHdr (s.readGddr f.fn src 64)).size = n
  start : s.place f.fn (copySrc f) 64 = .ok (.gddr src)
  source : s.place f.fn (copySrc f) n = .ok (.gddr src)
  dest : s.place f.fn (copyDst f) n = .ok (.host dst)
  free : s.destFailed f.fn (.host dst) n = []
  up : s.placeDown f.fn (.gddr src) 64 = false
  allUp : s.placeDown f.fn (.gddr src) n = false
  good : s.gddrBad f.fn src n = false

/-- The bale is marked poisoned. -/
def State.balePoison (s : State) (fn src : Nat) : Bool := (readHdr (s.readGddr fn src 64)).flags % 2 == 1

/-- The run of a copy after its one bale. -/
def State.oneBale (s : State) (fn src dst n : Nat) : CopyRun :=
  { st := s.moveBale fn src dst n, moved := n, poisoned := if s.balePoison fn src then 1 else 0
    cause := if s.balePoison fn src then 0x0B else 0, checks := [], badHdr := none, down := false }

theorem copyOne_moves {f : Flight} {src dst n : Nat} (h : s.BaleMoves f src dst n) :
    copyOne ⟨s, 0, 0, 0, [], none, false⟩ f.fn (copySrc f) (copyDst f) 0 = (s.oneBale f.fn src dst n, n) := by
  have hread : s.readAt f.fn (.gddr src) 64 = s.readGddr f.fn src 64 := rfl
  have hbad : s.badAt f.fn (.gddr src) n = false := h.good
  have hhost : s.placeDown f.fn (.host dst) n = false := rfl
  simp only [copyOne, h.start, h.up, hread, h.header, h.size, h.source, h.dest, h.free, h.allUp, hbad, hhost,
    Bool.false_eq_true, if_false, Bool.or_self, Bool.false_or, ne_eq, not_true_eq_false, Nat.zero_add]
  rfl

theorem baleRun_one {f : Flight} {src dst n : Nat} (h : s.BaleMoves f src dst n) (hn : n ≠ 0)
    (hc : copyCount f = 1) : s.baleRun f = s.oneBale f.fn src dst n := by
  unfold State.baleRun
  rw [hc]
  simp only [copyBales, Nat.add_zero, copyOne_moves h]
  rw [if_neg (by decide), if_neg hn]

theorem copyEnd_oneBale (s : State) (f : Flight) (src dst n : Nat) :
    copyEnd f (s.oneBale f.fn src dst n) =
      if s.balePoison f.fn src then (s.moveBale f.fn src dst n).finish f stDataError (0x0B + 256) n
      else (s.moveBale f.fn src dst n).finish f stOK 0 n := by
  cases hp : s.balePoison f.fn src with
  | false =>
    rw [copyEnd_done (by simp [State.oneBale, hp]) rfl]
    rfl
  | true =>
    have hmin : min 1 0xFFFFFF = 1 := by decide
    rw [copyEnd_data (by simp [State.oneBale, hp])]
    simp only [State.oneBale, hp, if_true, hmin]

/-- Settles O21: a raw copy by its blocks, a copy of bales by its run. -/
theorem baleCopies : Obligations.BaleCopies := by
  unfold Obligations.BaleCopies
  refine ⟨fun fn n idx f pa pb s h hraw => ?_, fun fn n idx f a b s h hraw hc ha hb => ?_,
    fun fn n idx f src dst src' dst' s h hraw hc hcount ha hb hstart => ?_⟩
  · obtain ⟨hfn, hsq, -⟩ := State.ready_some h
    intro len c ha hb
    have hexec : exec c s = .next (rawCopy s f) := exec_baleCopyRaw h hraw
    refine ⟨fun x xs hx => ?_, fun hc hd => ⟨fun h0 => ?_, fun h0 hdown => ?_, fun h0 hpa hpb hgood => ?_⟩⟩
    · rw [hexec, rawCopy_fails ha hb hx]
    · rw [hexec, rawCopy_acts ha hb hc hd, if_pos (by omega)]
    · rw [hexec, rawCopy_acts ha hb hc hd, if_neg (by omega), if_pos (by simpa using hdown)]
    · refine ⟨_, s.moveBlocks f.fn pa pb (copyCount f),
        hexec.trans (congrArg _ (rawCopy_good ha hb hc hd h0 hpa hpb hgood)), rfl, fun hsp => ?_, fun dst hdst => ?_⟩
      · refine s.readAt_moveBlocks f.fn ?_ (copyCount f) _ _ _
        rwa [State.space_place ha, State.space_place hb]
      · subst hdst
        have hout := s.moveBlocks_copiedOut f.fn pa dst (copyCount f)
        refine ⟨(State.mem_finish ..).trans hout.mem, fun a ha => ?_, fun o j ho hj => ?_⟩
        · exact (State.readHost_congr (State.hostMem_finish ..) a 1).trans (hout.host a ha)
        · exact (hout.low.finish hout.frame (by decide) (by omega) (by omega) _ _ _).reg ho hj
  · intro c
    have hexec : exec c s = .next (baleCopy s f) := exec_baleCopy h hraw
    rw [hexec]
    refine ⟨fun h0 => congrArg _ (baleCopy_empty hc ha hb h0), fun h0 => ?_⟩
    intro r
    have hends : r.checks = [] → baleCopy s f = copyEnd f r := baleCopy_ends hc ha hb h0
    refine ⟨fun x xs hx hcause => congrArg _ (baleCopy_refused hc ha hb h0 hx hcause),
      fun hx hcause hhdr hdown => ?_, fun hx hcause hhdr hdown => ?_, fun k x hx hcause hhdr => ?_, fun hx hcause => ?_⟩
    · rw [hends hx, copyEnd_done hcause hhdr, if_neg (by simp [hdown])]
    · rw [hends hx, copyEnd_done hcause hhdr, if_pos hdown]
    · rw [hends hx, copyEnd_header hcause hhdr]
    · rw [hends hx, copyEnd_data hcause]
  · intro h' hhdr hsize hsrc hdst hfree hup hall hgood
    have hm : s.BaleMoves f src dst h'.size := ⟨hhdr, rfl, hstart, hsrc, hdst, hfree, hup, hall, hgood⟩
    have hone := baleRun_one hm hsize hcount
    have hrun : baleCopy s f = copyEnd f (s.oneBale f.fn src dst h'.size) := by
      rw [baleCopy_ends hc ha hb (by omega) (by rw [hone]; rfl), hone]
    obtain ⟨hread, hmem, hout⟩ := s.moveBale_spec f.fn src dst h'.size
    have hend : ∀ status aux, ((s.moveBale f.fn src dst h'.size).finish f status aux h'.size).readHost dst h'.size =
          s.readGddr f.fn src h'.size ∧
        ((s.moveBale f.fn src dst h'.size).finish f status aux h'.size).mem = s.mem ∧
        ∀ a, a < dst ∨ dst + h'.size ≤ a →
          ((s.moveBale f.fn src dst h'.size).finish f status aux h'.size).readHost a 1 = s.readHost a 1 :=
      fun status aux => ⟨(State.readHost_congr (State.hostMem_finish ..) _ _).trans hread,
        (State.mem_finish ..).trans hmem,
        fun a ha => (State.readHost_congr (State.hostMem_finish ..) a 1).trans (hout a ha)⟩
    refine ⟨_, s.moveBale f.fn src dst h'.size, (exec_baleCopy h hraw).trans (congrArg _ hrun), ?_⟩
    rw [copyEnd_oneBale]
    by_cases hp : h'.flags % 2 = 1
    · have hpoison : s.balePoison f.fn src = true := beq_iff_eq.2 hp
      rw [if_pos hpoison, if_pos hp]
      exact ⟨rfl, hend ..⟩
    · have hpoison : ¬s.balePoison f.fn src = true := fun hq => hp (beq_iff_eq.1 hq)
      rw [if_neg hpoison, if_neg hp]
      exact ⟨rfl, hend ..⟩

end Sys2Proof.Machine

namespace Sys2Proof.Machine

/-! ## A chute whose credits register is the count of issued iterations (R83, R150)

`Plan.bindEdges` gives a sending end a port below 4, and nothing in the state holds a loaded plan to it: the credits
registers of a core's ports lie 0x20 apart, and the one of port 126 is SEQ_ISSUED_LO. -/

/-- Operand 0 of a PIPE_RECV node: one FP32 element that leaves by a chute. -/
def strayPortOperand : Operand :=
  { role := 5, port := 0, format := 1, shape := 0, rows := 1, cols := 1, rowLevel := 7, colLevel := 7, tensor := 0
    pad := 0, strides := [0, 0, 0, 0, 0, 0], offset := 0, hint := 0, rowBase := 0, colBase := 0 }

/-- The descriptor of a nest of one iteration, without PRE, ITER and POST. -/
def strayPortDesc : Desc :=
  { order := [0, 1, 2, 3, 4, 5], node := 0, next := 0xFFFF, preKind := 0, postKind := 0, iterKind := 0, preRef := 0
    postRef := 0, iterSem := 0, amount := 0, levels := List.replicate 6 ⟨1, 1, 0, 0, 0, 0⟩, ops := [strayPortOperand] }

/-- Its PIPE_RECV node. -/
def strayPortNode : NodeEnt :=
  { kind := 10, numerics := 0, vop := 0, program := 0, params := [], record := [], expert := 0xFFFFFFFF }

/-- The plan of that nest; its one edge is bound to port 126 of core 0. -/
def strayPortPlan : Plan :=
  { crc := 0, programs := [0], descs := [strayPortDesc], tensors := [], nodes := [strayPortNode]
    edges := [{ srcNode := 0, dstNode := 1, srcOp := 0, dstOp := 0, rxUnits := 5 }], syncs := [], ucode := []
    table := [], intents := [], slots := [], period := 0, elastic := false, alignLog2 := 0, stepBeats := 0
    recipes := [], ranks := [], colls := [], ownRank := none, cores := [(0, 0)], drovers := [], homes := []
    bound := [{ srcCore := 0, srcPort := 126, dstCore := 1, dstPort := 0, rxUnits := 5, srcNode := 0, dstNode := 1 }]
    sems := [], bars := [] }

/-- The step runs, and the bale of the iteration has landed. -/
def strayPortStep : Step :=
  { newStep strayFlight 0 [] none with
    running := true
    pipes := [{ node := 0, buf := 0, mb := 0, item := ⟨(zeroBale 1 0 1 1).bytes, [], none, false, 0⟩ }] }

/-- The iteration is the candidate. -/
def strayPortSeq : Seq :=
  { newSeq 0 0 [] with
    phase := .run, words := [0, 0, 0, 0, 0, 0], idx := some zeros6, cand := true, live := [1, 1, 1, 1, 1, 1],
    beff := [1, 1, 1, 1, 1, 1] }

/-- The module after reset but for partition 0, ACTIVE with cluster 0, whose core 0 runs that nest. -/
def strayPortState : State :=
  { State.reset with
    regs := [(regKey (PRT_STATE 0) 0, 1), (regKey (PRT_CLUSTERS 0) 0, 1)]
    seqs := [(0, strayPortSeq)]
    yard := { State.reset.yard with plans := [(0, strayPortPlan)], steps := [(0, strayPortStep)] } }

/-- The nest of core 0. -/
def strayPortNest : Nest := ⟨0, 0, strayPortStep, strayPortPlan, strayPortSeq, strayPortDesc, strayPortNode⟩

/-- Its only iteration. -/
def strayPortIter : Iter := ⟨zeros6, [1, 1, 1, 1, 1, 1], [1, 1, 1, 1, 1, 1]⟩

theorem nest_strayPortState : strayPortState.nest 0 = some strayPortNest := by decide +kernel

/-- Nothing holds the candidate. -/
theorem strayPort_issues :
    strayPortState.droverFirst strayPortNest = false ∧
    strayPortNest.inVoid 6 ⟨strayPortIter.idx, strayPortIter.live, strayPortIter.beff, 0, 0, [], []⟩ = false ∧
    strayPortState.recipeDue strayPortNest = none ∧ strayPortNest.skipped strayPortIter none = false ∧
    (strayPortState.holdIssue strayPortNest strayPortIter).1 = false := by
  decide +kernel

/-- The iterations that core 0 has issued after a command. -/
def issuedAfter : Out → Option Nat
  | .next t => some (t.reg64 SEQ_ISSUED_LO 0)
  | _ => none

/-- The first iteration of the core is counted on top of the chute's five credits. -/
theorem issuedAfter_strayPort : COR_CHUTE_CREDITS 126 = SEQ_ISSUED_LO ∧
    strayPortState.reg64 SEQ_ISSUED_LO 0 = 0 ∧
    issuedAfter (exec (.iterationIssue 0 [] []) strayPortState) = some 6 :=
  ⟨rfl, by decide +kernel, by decide +kernel⟩

/-- Refutes O38: an iteration whose bale leaves by port 126 is not counted once, for the chute's credits have been
put into the count before it. -/
theorem not_nestIterations : ¬ Obligations.NestIterations := by
  unfold Obligations.NestIterations
  rintro ⟨-, hissue, -⟩
  obtain ⟨hdrover, hvoid, hrecipe, hskip, hhold⟩ := strayPort_issues
  obtain ⟨-, hbefore, hafter⟩ := issuedAfter_strayPort
  obtain ⟨-, hruns⟩ := hissue 0 [] strayPortNest strayPortState nest_strayPortState
  obtain ⟨-, hcand⟩ := hruns rfl (by decide) hdrover (by decide)
  obtain ⟨-, -, hpasses⟩ := hcand rfl
  obtain ⟨-, hside⟩ := hpasses hvoid hrecipe
  obtain ⟨-, hgoes⟩ := hside none rfl
  obtain ⟨-, hgranted⟩ := hgoes hskip
  obtain ⟨-, hfree⟩ := hgranted (by decide)
  obtain ⟨-, -, hcounts⟩ := hfree hhold
  obtain ⟨t, q, ht, -, -, -, -, -, hcount⟩ := hcounts (by decide) (by decide)
  rw [ht] at hafter
  have h6 : t.reg64 SEQ_ISSUED_LO 0 = 6 := Option.some.inj hafter
  have h1 : t.reg64 SEQ_ISSUED_LO 0 = min (0 + 1) (2 ^ 64 - 1) := hbefore ▸ hcount
  omega

end Sys2Proof.Machine

namespace Sys2Proof.Machine

variable {s t : State}

/-! ## Rules of an executing step and of raised sources -/

theorem Frame.chutes_eq {F : List Piece} (h : Frame F s t) (hF : F.contains .chutes = false) : t.chutes = s.chutes :=
  h.same .chutes hF

theorem Frame.halter_eq {F : List Piece} (h : Frame F s t) (hF : F.contains .halter = false) : t.halter = s.halter :=
  h.same .halter hF

theorem State.stepOf_congr (h : t.yard = s.yard) (p : Nat) : t.stepOf p = s.stepOf p :=
  congrArg (fun y : YardSide => tabFind y.steps p) h

theorem State.yard_raise (s : State) (fn src : Nat) : (s.raise fn src).yard = s.yard :=
  s.raise_keeps (·.yard) State.yard_setFld (fun _ _ => rfl) ..

theorem State.stepOf_raise (s : State) (fn src p : Nat) : (s.raise fn src).stepOf p = s.stepOf p :=
  State.stepOf_congr (s.yard_raise fn src) p

/-- The step has a cause of DATA_ERROR after a fault (R461). -/
theorem State.stepOf_stepFault {p code : Nat} {st : Step} (h : s.stepOf p = some st) (hc : code ≠ 0) :
    ∃ u, (s.stepFault p code).stepOf p = some u ∧ u.cause ≠ 0 := by
  unfold State.stepFault State.stepCause
  rw [State.stepOf_raise]
  refine ⟨_, State.stepOf_updStep_same _ h, ?_⟩
  split
  · exact hc
  · assumption

/-! ## Chutes (R148 to R156) -/

theorem State.chutes_setChute (s : State) (p plan : Nat) (e : Nat × BoundEdge) (c : Chute) :
    (s.setChute p plan e c).chutes = tabPut s.chutes (chuteKey p plan e.1) c := by
  unfold State.setChute
  extract_lets u m b off
  split <;> rfl

/-- A chute put in place is read back, and no other chute changes. -/
theorem State.chute_put {p plan k : Nat} {c : Chute} (h : t.chutes = tabPut s.chutes (chuteKey p plan k) c) (rx : Nat) :
    t.chute p plan k rx = c ∧ ∀ j, j ≠ chuteKey p plan k → tabFind t.chutes j = tabFind s.chutes j := by
  refine ⟨?_, fun j hj => ?_⟩
  · rw [State.chute, h, tabGet, tabFind_tabPut, if_pos rfl, Option.getD_some]
  · rw [h, tabFind_tabPut, if_neg (Ne.symm hj)]

section

variable {p plan k : Nat} {pl : Plan} {e : BoundEdge} {it : Item} {rest : List Item}

theorem chuteSend_empty (h : s.edge p plan k = some (pl, e)) (hh : (s.chute p plan k e.rxUnits).half = []) :
    chuteSend s p plan k = s := by
  simp only [chuteSend, h, hh]

theorem chuteSend_stays (h : s.edge p plan k = some (pl, e)) (hh : (s.chute p plan k e.rxUnits).half = it :: rest)
    (hc : (s.chute p plan k e.rxUnits).broken = true ∨ (s.chute p plan k e.rxUnits).credits < it.units) :
    chuteSend s p plan k = s := by
  simp only [chuteSend, h, hh, if_pos hc]

theorem chutes_chuteSend (h : s.edge p plan k = some (pl, e)) (hh : (s.chute p plan k e.rxUnits).half = it :: rest)
    (hb : (s.chute p plan k e.rxUnits).broken = false) (hc : it.units ≤ (s.chute p plan k e.rxUnits).credits) :
    (chuteSend s p plan k).chutes = tabPut s.chutes (chuteKey p plan k) { s.chute p plan k e.rxUnits with
      half := rest, flying := (s.chute p plan k e.rxUnits).flying ++ [it]
      credits := (s.chute p plan k e.rxUnits).credits - it.units } := by
  have hgo : ¬((s.chute p plan k e.rxUnits).broken = true ∨ (s.chute p plan k e.rxUnits).credits < it.units) := by
    rw [hb]
    rintro (h | h)
    · exact absurd h Bool.false_ne_true
    · omega
  simp only [chuteSend, h, hh, if_neg hgo]
  split
  · rw [State.chutes_bump, State.chutes_setChute]
  · rw [State.chutes_setChute]

theorem chuteLand_empty (h : s.edge p plan k = some (pl, e)) (hf : (s.chute p plan k e.rxUnits).flying = [])
    (ce ue : Nat) : chuteLand s p plan k ce ue = s := by
  simp only [chuteLand, h, hf]

/-- The item that joins the ring: the one sent, or a poisoned zero bale where a flit is uncorrectable (R155). -/
def Plan.landed (pl : Plan) (p k ue : Nat) (it : Item) : Item := if ue = 0 then it else pl.edgeZero p k it.units

theorem Plan.edgeZero_poisoned (pl : Plan) (p k units : Nat) :
    (pl.edgeZero p k units).units = units ∧ (pl.edgeZero p k units).dirty = true := by
  unfold Plan.edgeZero
  split <;> exact ⟨rfl, rfl⟩

/-- The receiving core counts a landing (R169). -/
def State.countLanding (s : State) (e : BoundEdge) (ce ue : Nat) : State :=
  if e.dstCore < 256 then
    let s := (s.setRecvWait e.dstCore e.dstPort false).bump (COR_CHUTE_RX_BALES_COUNT e.dstPort) e.dstCore
    let s := if ce = 0 then s else s.bump (COR_CHUTE_ERR_CE e.dstPort) e.dstCore ce
    if ue = 0 then s else s.bump (COR_CHUTE_ERR_UE e.dstPort) e.dstCore ue
  else s

theorem State.countLanding_frame (s : State) (e : BoundEdge) (ce ue : Nat) : Frame [] s (s.countLanding e ce ue) := by
  unfold State.countLanding
  extract_lets counted corrected
  have hcounted : Frame [] s counted := .bump (.setRecvWait (.refl s))
  have hcorrected : Frame [] s corrected := .ite hcounted (.bump hcounted)
  exact .ite (.ite hcorrected (.bump hcorrected)) (.refl s)

/-- A bale that landed is in its ring, and the receiver has counted it. -/
def State.landBale (s : State) (p plan k ce ue : Nat) (pl : Plan) (e : BoundEdge) (it : Item) (rest : List Item) :
    State :=
  (s.setChute p plan (k, e) { s.chute p plan k e.rxUnits with
    flying := rest, ring := (s.chute p plan k e.rxUnits).ring ++ [pl.landed p k ue it] }).countLanding e ce ue

theorem chuteLand_eq (h : s.edge p plan k = some (pl, e)) (hf : (s.chute p plan k e.rxUnits).flying = it :: rest)
    (ce ue : Nat) : chuteLand s p plan k ce ue =
      if ue = 0 then s.landBale p plan k ce ue pl e it rest
      else (s.landBale p plan k ce ue pl e it rest).stepFault p 0x0A := by
  simp only [chuteLand, h, hf]
  rfl

theorem State.landBale_yard (s : State) (ce ue : Nat) : (s.landBale p plan k ce ue pl e it rest).yard = s.yard :=
  ((State.countLanding_frame ..).yard_eq rfl).trans (Frame.yard_eq (F := [.chutes]) (.setChute (.refl s)) rfl)

theorem State.landBale_chutes (s : State) (ce ue : Nat) : (s.landBale p plan k ce ue pl e it rest).chutes =
    tabPut s.chutes (chuteKey p plan k) { s.chute p plan k e.rxUnits with
      flying := rest, ring := (s.chute p plan k e.rxUnits).ring ++ [pl.landed p k ue it] } :=
  ((State.countLanding_frame ..).chutes_eq rfl).trans (s.chutes_setChute ..)

theorem creditReturn_empty (h : s.edge p plan k = some (pl, e)) (hr : (s.chute p plan k e.rxUnits).returns = []) :
    creditReturn s p plan k = s := by
  simp only [creditReturn, h, hr]

theorem chutes_creditReturn {n : Nat} {ns : List Nat} (h : s.edge p plan k = some (pl, e))
    (hr : (s.chute p plan k e.rxUnits).returns = n :: ns) :
    (creditReturn s p plan k).chutes = tabPut s.chutes (chuteKey p plan k) { s.chute p plan k e.rxUnits with
      returns := ns, credits := (s.chute p plan k e.rxUnits).credits + n } := by
  simp only [creditReturn, h, hr]
  exact s.chutes_setChute ..

end

/-- Settles O39: a send, a landing and a return each put one chute in place. -/
theorem chutesKeepOrderAndCredits : Obligations.ChutesKeepOrderAndCredits := by
  unfold Obligations.ChutesKeepOrderAndCredits
  intro p id k pl e s h
  dsimp only
  refine ⟨fun it rest hh => ⟨fun hb hc => ?_, fun hc => congrArg _ (chuteSend_stays h hh hc)⟩,
    fun it rest ce ue hf => ?_, fun n rest hr => ?_, fun hh => congrArg _ (chuteSend_empty h hh),
    fun hf ce ue => congrArg _ (chuteLand_empty h hf ce ue), fun hr => congrArg _ (creditReturn_empty h hr)⟩
  · exact ⟨_, rfl, State.chute_put (chutes_chuteSend h hh hb hc) _⟩
  · refine ⟨chuteLand s p id k ce ue, pl.landed p k ue it, rfl, ?_⟩
    rw [chuteLand_eq h hf]
    obtain ⟨hc, hj⟩ := State.chute_put (s.landBale_chutes (pl := pl) (it := it) (rest := rest) ce ue) e.rxUnits
    have hyard : (s.landBale p id k ce ue pl e it rest).yard = s.yard := s.landBale_yard ce ue
    by_cases h0 : ue = 0
    · rw [if_pos h0]
      exact ⟨hc, fun _ => ⟨if_pos h0, hyard⟩, fun hne => absurd h0 hne, hj⟩
    · have hfault : ((s.landBale p id k ce ue pl e it rest).stepFault p 0x0A).chutes =
          (s.landBale p id k ce ue pl e it rest).chutes := Frame.chutes_eq (F := [.plans]) (.stepFault (.refl _)) rfl
      obtain ⟨hunits, hdirty⟩ := pl.edgeZero_poisoned p k it.units
      have hland : pl.landed p k ue it = pl.edgeZero p k it.units := if_neg h0
      rw [if_neg h0, State.chute, hfault]
      refine ⟨hc, fun he => absurd he h0, fun _ => ?_, hj⟩
      rw [hland]
      exact ⟨hunits, hdirty, fun st hst =>
        State.stepOf_stepFault ((State.stepOf_congr hyard p).trans hst) (by decide)⟩
  · exact ⟨_, rfl, State.chute_put (chutes_creditReturn h hr) _⟩

end Sys2Proof.Machine

namespace Sys2Proof.Machine

variable {s t : State}

/-! ## The Halter's counters (R158 to R161) -/

/-! ### What a queue is served -/

/-- A semaphore serves the head of its queue, whole amounts only, and stops before the first wait that wants more
than is left (R161). -/
theorem serve_spec (v : Nat) (q : List (Nat × Waiter × Nat)) : ∃ k : Nat,
    (serve v q).2.1 = (q.take k).map (fun e => (e.1, e.2.1)) ∧ (serve v q).2.2 = q.drop k ∧
    (serve v q).1 + ((q.take k).map fun e => e.2.2).sum = v ∧ ∀ e ∈ (q.drop k).head?, (serve v q).1 < e.2.2 := by
  induction q generalizing v with
  | nil => exact ⟨0, rfl, rfl, rfl, by simp⟩
  | cons e q ih =>
    obtain ⟨p, w, n⟩ := e
    by_cases hn : n ≤ v
    · obtain ⟨k, hout, hrest, hsum, hhead⟩ := ih (v - n)
      simp only [serve, if_pos hn]
      refine ⟨k + 1, by simp [hout], by simp [hrest], ?_, by simpa using hhead⟩
      simp only [List.take_succ_cons, List.map_cons, List.sum_cons]
      omega
    · simp only [serve, if_neg hn]
      exact ⟨0, rfl, rfl, rfl, by simpa using hn⟩

/-- What waits on was waiting. -/
theorem mem_of_mem_serve {v : Nat} {q : List (Nat × Waiter × Nat)} {e : Nat × Waiter × Nat}
    (h : e ∈ (serve v q).2.2) : e ∈ q := by
  obtain ⟨k, -, hrest, -⟩ := serve_spec v q
  exact List.mem_of_mem_drop (hrest ▸ h)

/-! ### Rules of the Halter's state -/

/-- Several waits are satisfied, one after another. -/
def State.releases (s : State) (out : List (Nat × Waiter)) : State :=
  { s with halter := { s.halter with released := s.halter.released ++ out } }

theorem foldl_release {α : Type} (f : α → Nat × Waiter) (l : List α) (s : State) :
    l.foldl (fun (s : State) x => s.release (f x).1 (f x).2) s = s.releases (l.map f) := by
  induction l generalizing s with
  | nil => simp [State.releases]
  | cons x l ih =>
    rw [List.foldl_cons, ih]
    simp [State.releases, State.release]

theorem State.serveSem_eq (s : State) (k : Nat) (x : Sem) : s.serveSem k x =
    (s.setSem k ⟨(serve x.value x.queue).1, (serve x.value x.queue).2.2⟩).releases (serve x.value x.queue).2.1 := by
  unfold State.serveSem
  exact (foldl_release id _ _).trans (by rw [List.map_id])

/-- What `halterTake` keeps of the message at a place, where the message at place `j` is taken. -/
def keepUnless {α : Type} (j : Nat) (m : Nat × α) : Option α := if [j].contains m.1 then none else some m.2

theorem filterMap_keepUnless_past {α : Type} (l : List α) {a j : Nat} (h : j < a) :
    ((List.range' a l.length).zip l).filterMap (keepUnless j) = l := by
  induction l generalizing a with
  | nil => rfl
  | cons x l ih =>
    have hx : keepUnless j (a, x) = some x := if_neg (by simp; omega)
    rw [List.length_cons, List.range'_succ, List.zip_cons_cons, List.filterMap_cons_some hx, ih (by omega)]

theorem filterMap_keepUnless {α : Type} (l : List α) (a k : Nat) :
    ((List.range' a l.length).zip l).filterMap (keepUnless (a + k)) = l.eraseIdx k := by
  induction l generalizing a k with
  | nil => rfl
  | cons x l ih =>
    rw [List.length_cons, List.range'_succ, List.zip_cons_cons]
    cases k with
    | zero =>
      have hx : keepUnless (a + 0) (a, x) = none := if_pos (by simp)
      rw [List.filterMap_cons_none hx, filterMap_keepUnless_past l (by omega), List.eraseIdx_cons_zero]
    | succ k =>
      have hx : keepUnless (a + (k + 1)) (a, x) = some x := if_neg (by simp)
      rw [List.filterMap_cons_some hx, show a + (k + 1) = a + 1 + k by omega, ih, List.eraseIdx_cons_succ]

theorem State.halterTake_one (s : State) (k : Nat) :
    s.halterTake [k] = { s with halter := { s.halter with flying := s.halter.flying.eraseIdx k } } := by
  have h := filterMap_keepUnless s.halter.flying 0 k
  rw [Nat.zero_add, ← List.range_eq_range'] at h
  exact congrArg (fun f => { s with halter := { s.halter with flying := f } }) h

end Sys2Proof.Machine

namespace Sys2Proof.Machine

variable {s t : State}

/-! ### Rules of the step a message belongs to -/

@[simp] theorem State.regs_updStep (s : State) (p : Nat) (f : Step → Step) : (s.updStep p f).regs = s.regs := by
  unfold State.updStep
  split <;> rfl

@[simp] theorem State.halter_updStep (s : State) (p : Nat) (f : Step → Step) : (s.updStep p f).halter = s.halter := by
  unfold State.updStep
  split <;> rfl

/-- An update of a step that leaves the number of its plan leaves the plan. -/
theorem State.stepPlan_updStep (s : State) (p : Nat) {f : Step → Step} (hf : ∀ st, (f st).plan = st.plan) :
    (s.updStep p f).stepPlan p = s.stepPlan p := by
  cases h : s.stepOf p with
  | none => rw [State.updStep, h]
  | some st =>
    have hpl : (s.updStep p f).planOf p (f st).plan = s.planOf p st.plan := by
      rw [hf, State.updStep, h]
      rfl
    simp only [State.stepPlan, State.stepOf_updStep_same f h, h, hpl]

theorem State.stepPlan_congr (h : t.yard = s.yard) (p : Nat) : t.stepPlan p = s.stepPlan p := by
  unfold State.stepPlan State.stepOf State.planOf
  rw [h]

theorem State.stepPlan_stepFault (s : State) (p code : Nat) : (s.stepFault p code).stepPlan p = s.stepPlan p := by
  unfold State.stepFault State.stepCause
  rw [State.stepPlan_congr (State.yard_raise ..)]
  refine s.stepPlan_updStep p fun st => ?_
  split <;> rfl

/-- A raised source leaves the registers above the Bell, where indices fit the key. -/
theorem State.reg_raise_off (s : State) {fn src o j : Nat} (hi : bellInst fn src < 1048576) (hj : j < 1048576)
    (ho : 0x200000 ≤ o) : (s.raise fn src).reg o j = s.reg o j := by
  have hfn : fn < 1048576 := lt_of_le_of_lt (by unfold bellInst; omega) hi
  have hoff : ∀ {f : Field} {i : Nat} x, f.off < 0x200000 → i < 1048576 → (s.setFld f i x).reg o j = s.reg o j :=
    fun x hf hi => s.reg_setReg_off _ hi hj (.inl (by omega))
  have hpend : ∀ b, (s.setBellP fn src b).reg o j = s.reg o j := fun b =>
    hoff _ (show BEL_PENDING < _ by decide) hi
  unfold State.raise State.bellRaise
  split
  · rfl
  split
  · rfl
  split
  · exact hoff _ (by decide) hfn
  split
  · exact hpend true
  split
  · exact hpend true
  · exact hoff _ (by decide) hfn

/-- A fault of a partition's step leaves the fields above the Bell. -/
theorem State.fld_stepFault_off (s : State) {p code j : Nat} {g : Field} (hp : p < 32) (hj : j < 1048576)
    (ho : 0x200000 ≤ g.off) : (s.stepFault p code).fld g j = s.fld g j := by
  have hreg : (s.stepFault p code).reg g.off j = s.reg g.off j :=
    ((s.stepCause p code).reg_raise_off (by unfold bellInst; omega) hj ho).trans
      (State.reg_congr (s.regs_updStep p _) ..)
  exact congrArg (getBits · g.lo g.w) hreg

/-! ### A message whose home was reset (R283) -/

theorem bind_pair_eq_none {α : Type} {o : Option Nat} {f : Nat → Option α} (h : o.bind f = none) :
    (o.bind fun k => (f k).map fun x => (k, x)) = none := by
  cases o with
  | none => rfl
  | some k => exact Option.map_eq_none_iff.2 h

section

variable {p id : Nat}

theorem State.semSignal_lost (h : (s.semKey p id).bind (tabFind s.halter.sems) = none) (n cc : Nat) :
    s.semSignal p id n cc = s.stepReset p := by
  simp only [State.semSignal, bind_pair_eq_none h]

theorem State.semQueue_lost (h : (s.semKey p id).bind (tabFind s.halter.sems) = none) (w : Waiter) (n cc : Nat) :
    s.semQueue p id w n cc = (s.stepReset p).releases [(p, w)] := by
  simp only [State.semQueue, bind_pair_eq_none h]
  rfl

theorem State.barArrive_lost (h : (s.barKey p id).bind (tabFind s.halter.bars) = none) (cc : Nat) :
    s.barArrive p id cc = s.stepReset p := by
  simp only [State.barArrive, bind_pair_eq_none h]

theorem State.barQueue_lost (h : (s.barKey p id).bind (tabFind s.halter.bars) = none) (core n cc : Nat) :
    s.barQueue p id core n cc = (s.stepReset p).releases [(p, .pre core)] := by
  simp only [State.barQueue, bind_pair_eq_none h]
  rfl

/-! ### Semaphores -/

/-- A delivery's time is noted in the cluster's registers alone (R169). -/
theorem State.latMax_frame (s : State) (c cc : Nat) : Frame [] s (s.latMax c cc) := .latMax (.refl s)

/-- An event of a cluster sets its flag and is counted. -/
def State.noteEvent (s : State) (flag count : Field) (c : Nat) : State := (s.setFld flag c 1).bump count c

theorem State.noteEvent_frame (s : State) (f g : Field) (c : Nat) : Frame [] s (s.noteEvent f g c) :=
  .bump (.setFld (.refl s))

theorem State.noteEvent_regs (s : State) {f g : Field} {c : Nat} (hc : c < 1048576) (hf : f.lo + f.w ≤ 32)
    (hg : g.lo + g.w ≤ 32) (hne : f.off ≠ g.off) : (s.noteEvent f g c).fld f c = 1 % 2 ^ f.w ∧
      (s.noteEvent f g c).fld g c = min (s.fld g c + 1) (2 ^ g.w - 1) := by
  unfold State.noteEvent
  constructor
  · rw [State.bump, State.fld_setFld_off _ _ hc hc (.inl hne.symm), State.fld_setFld_same _ _ _ _ hf]
  · rw [State.fld_bump_same _ _ _ _ hg, State.fld_setFld_off _ _ hc hc (.inl hne)]

/-- What a SIGNAL at a home leaves in the cluster's registers and its step, the sum being `v` (R161, R169). -/
def State.noteSignal (s : State) (p c cc v : Nat) : State :=
  if 65535 < v then
    ((s.latMax c cc).noteEvent CLU_HLT_STATUS_SEM_OVF CLU_SEM_OVF_COUNT_COUNT c).stepFault p 0x0C
  else s.latMax c cc

theorem State.noteSignal_frame (s : State) (p c cc v : Nat) : Frame [.plans] s (s.noteSignal p c cc v) :=
  .ite (.stepFault (.bump (.setFld (.latMax (.refl s))))) (.latMax (.refl s))

theorem State.stepPlan_noteSignal (s : State) (p c cc v : Nat) : (s.noteSignal p c cc v).stepPlan p = s.stepPlan p := by
  have hlat : (s.latMax c cc).stepPlan p = s.stepPlan p := State.stepPlan_congr ((s.latMax_frame c cc).yard_eq rfl) p
  unfold State.noteSignal
  split
  · rw [State.stepPlan_stepFault, State.stepPlan_congr ((State.noteEvent_frame ..).yard_eq rfl), hlat]
  · exact hlat

/-- A sum too large sets SEM_OVF and is counted, and the step has a cause of DATA_ERROR. -/
theorem State.noteSignal_overflow (s : State) {p c v : Nat} (cc : Nat) (hp : p < 32) (hc : c < 32) (hv : 65535 < v) :
    (s.noteSignal p c cc v).flag CLU_HLT_STATUS_SEM_OVF c = true ∧
      (s.noteSignal p c cc v).fld CLU_SEM_OVF_COUNT_COUNT c =
        min (s.fld CLU_SEM_OVF_COUNT_COUNT c + 1) 0xFFFFFFFF ∧
      ∀ st, s.stepOf p = some st → ∃ u, (s.noteSignal p c cc v).stepOf p = some u ∧ u.cause ≠ 0 := by
  have hj : c < 1048576 := by omega
  obtain ⟨hflag, hcount⟩ := (s.latMax c cc).noteEvent_regs (f := CLU_HLT_STATUS_SEM_OVF)
    (g := CLU_SEM_OVF_COUNT_COUNT) hj (by decide) (by decide) (by decide)
  have hlat : (s.latMax c cc).fld CLU_SEM_OVF_COUNT_COUNT c = s.fld CLU_SEM_OVF_COUNT_COUNT c :=
    s.fld_setFld_off _ hj hj (.inl (by decide))
  have hyard : ((s.latMax c cc).noteEvent CLU_HLT_STATUS_SEM_OVF CLU_SEM_OVF_COUNT_COUNT c).yard = s.yard :=
    ((State.noteEvent_frame ..).yard_eq rfl).trans ((s.latMax_frame c cc).yard_eq rfl)
  rw [State.noteSignal, if_pos hv, State.flag, State.fld_stepFault_off _ hp hj (by decide),
    State.fld_stepFault_off _ hp hj (by decide), hflag, hcount, hlat]
  exact ⟨rfl, rfl, fun st hst => State.stepOf_stepFault ((State.stepOf_congr hyard p).trans hst) (by decide)⟩

variable {key : Nat} {x : Sem}

theorem State.semSignal_found (hk : s.semKey p id = some key) (hx : tabFind s.halter.sems key = some x) (n cc : Nat) :
    s.semSignal p id n cc = (s.noteSignal p (key / 4096) cc (x.value + n)).serveSem key
      { x with value := min 65535 (x.value + n) } := by
  simp only [State.semSignal, hk, hx, Option.bind_some, Option.map_some]
  rfl

theorem State.semQueue_found (hk : s.semKey p id = some key) (hx : tabFind s.halter.sems key = some x) (w : Waiter)
    (n cc : Nat) : s.semQueue p id w n cc =
      (s.latMax (key / 4096) cc).serveSem key { x with queue := x.queue ++ [(p, w, n)] } := by
  simp only [State.semQueue, hk, hx, Option.bind_some, Option.map_some]

theorem State.halter_serveSem (s : State) (k : Nat) (x : Sem) : (s.serveSem k x).halter = { s.halter with
    sems := tabPut s.halter.sems k ⟨(serve x.value x.queue).1, (serve x.value x.queue).2.2⟩
    released := s.halter.released ++ (serve x.value x.queue).2.1 } := by
  rw [State.serveSem_eq]
  rfl

theorem State.find_serveSem (s : State) (k : Nat) (x : Sem) : tabFind (s.serveSem k x).halter.sems k =
    some ⟨(serve x.value x.queue).1, (serve x.value x.queue).2.2⟩ := by
  rw [State.halter_serveSem, tabFind_tabPut, if_pos rfl]

theorem State.halter_semSignal (hk : s.semKey p id = some key) (hx : tabFind s.halter.sems key = some x) (n cc : Nat) :
    (s.semSignal p id n cc).halter = { s.halter with
      sems := tabPut s.halter.sems key ⟨(serve (min 65535 (x.value + n)) x.queue).1,
        (serve (min 65535 (x.value + n)) x.queue).2.2⟩
      released := s.halter.released ++ (serve (min 65535 (x.value + n)) x.queue).2.1 } := by
  rw [State.semSignal_found hk hx, State.halter_serveSem, (State.noteSignal_frame ..).halter_eq rfl]

theorem State.halter_semQueue (hk : s.semKey p id = some key) (hx : tabFind s.halter.sems key = some x) (w : Waiter)
    (n cc : Nat) : (s.semQueue p id w n cc).halter = { s.halter with
      sems := tabPut s.halter.sems key ⟨(serve x.value (x.queue ++ [(p, w, n)])).1,
        (serve x.value (x.queue ++ [(p, w, n)])).2.2⟩
      released := s.halter.released ++ (serve x.value (x.queue ++ [(p, w, n)])).2.1 } := by
  rw [State.semQueue_found hk hx, State.halter_serveSem]
  rfl

/-- A SIGNAL leaves which counters the step's identifiers name. -/
theorem State.semKey_semSignal (s : State) (p id n cc : Nat) : (s.semSignal p id n cc).semKey p = s.semKey p := by
  have hplan : (s.semSignal p id n cc).stepPlan p = s.stepPlan p := by
    unfold State.semSignal
    split
    · exact s.stepPlan_updStep p fun _ => rfl
    · rw [State.serveSem_eq]
      exact s.stepPlan_noteSignal ..
  funext i
  rw [State.semKey, State.semKey, hplan]

end

/-! ### Barriers -/

section

variable {p id key : Nat} {x : Bar}

theorem State.barArrive_counts (hk : s.barKey p id = some key) (hx : tabFind s.halter.bars key = some x)
    (h : x.count + 1 < x.target) (cc : Nat) :
    s.barArrive p id cc = (s.latMax (key / 512) cc).setBar key { x with count := x.count + 1 } := by
  simp only [State.barArrive, hk, hx, Option.bind_some, Option.map_some, if_pos h]

/-- The waits of a completion are satisfied, the others wait on (R160). -/
theorem State.barArrive_completes (hk : s.barKey p id = some key) (hx : tabFind s.halter.bars key = some x)
    (h : x.target ≤ x.count + 1) (cc : Nat) : s.barArrive p id cc =
      ((s.latMax (key / 512) cc).setBar key { x with
        count := 0, done := x.done + 1, waits := x.waits.filter fun w => decide (x.done + 1 < w.2) }).releases
      ((x.waits.filter fun w => decide (w.2 ≤ x.done + 1)).map fun w => (p, .pre w.1)) := by
  simp only [State.barArrive, hk, hx, Option.bind_some, Option.map_some, if_neg (Nat.not_lt.2 h)]
  exact foldl_release (fun w : Nat × Nat => (p, Waiter.pre w.1)) ..

theorem State.barQueue_past (hk : s.barKey p id = some key) (hx : tabFind s.halter.bars key = some x) {n : Nat}
    (h : n ≤ x.done) (core cc : Nat) :
    s.barQueue p id core n cc = (s.latMax (key / 512) cc).releases [(p, .pre core)] := by
  simp only [State.barQueue, hk, hx, Option.bind_some, Option.map_some, if_pos h]
  rfl

theorem State.barQueue_waits (hk : s.barKey p id = some key) (hx : tabFind s.halter.bars key = some x) {n : Nat}
    (h : x.done < n) (core cc : Nat) : s.barQueue p id core n cc =
      (s.latMax (key / 512) cc).setBar key { x with waits := x.waits ++ [(core, n)] } := by
  simp only [State.barQueue, hk, hx, Option.bind_some, Option.map_some, if_neg (Nat.not_le.2 h)]

end

/-! ### Deliveries -/

section

variable {p k cc : Nat} {m : HalterMsg}

theorem halterWait_one (h : s.halterAt p k = some m) (hw : m.op.isWait = true) :
    halterWait s p [k] cc = (s.halterTake [k]).halterApply p cc m := by
  simp [halterWait, List.eraseDups_cons, h, hw]

/-- A SIGNAL of the same core clock is applied before the WAIT (R161). -/
theorem halterWait_two {j : Nat} {r : HalterMsg} (h : s.halterAt p k = some m) (hw : m.op.isWait = true) (hj : j ≠ k)
    (hr : s.halterAt p j = some r) (hn : r.op.isWait = false) :
    halterWait s p [k, j] cc = ((s.halterTake [k, j]).halterApply p cc r).halterApply p cc m := by
  have hd : ([k, j] : List Nat).eraseDups = [k, j] := by simp [List.eraseDups_cons, hj]
  simp [halterWait, hd, h, hw, hr, hn]

theorem halterWait_none {ks : List Nat} (h : ∀ j ∈ ks, ∀ m, s.halterAt p j = some m → m.op.isWait = false) :
    halterWait s p ks cc = s := by
  refine if_pos ?_
  simp only [Bool.not_eq_true', List.any_eq_false, List.mem_filterMap, Option.map_eq_some_iff]
  rintro _ ⟨j, hj, m, hm, rfl⟩
  simp [h j (List.mem_eraseDups.1 hj) m hm]

theorem State.markLate_frame (s : State) (w : Waiter) : Frame [.sequencers] s (s.markLate w) := .markLate (.refl s)

end

end Sys2Proof.Machine

namespace Sys2Proof.Machine

variable {s t : State}

/-! ### What the statements say of a delivery -/

section

variable {p : Part} {k cc id n : Nat}

theorem State.halterApply_signal (s : State) (p cc id n : Nat) :
    s.halterApply p cc ⟨p, id, .signal n⟩ = s.semSignal p id n cc := rfl

theorem State.halterApply_semWait (s : State) (p cc id n : Nat) (w : Waiter) :
    s.halterApply p cc ⟨p, id, .semWait w n⟩ = (s.semQueue p id w n cc).markLate w := rfl

theorem exec_halterArrive (h : s.halterAt p k = some ⟨p, id, .arrive⟩) :
    exec (.halterArrive p k cc) s = .next ((s.halterTake [k]).barArrive p id cc) :=
  congrArg Host.Outcome.next (by simp only [halterArrive, h])

theorem exec_halterSignal (h : s.halterAt p k = some ⟨p, id, .signal n⟩) :
    exec (.halterSignal p k cc) s = .next ((s.halterTake [k]).semSignal p id n cc) :=
  congrArg Host.Outcome.next (by simp only [halterSignal, h])

theorem exec_halterWait_bar {core : Nat} (h : s.halterAt p k = some ⟨p, id, .barWait core n⟩) :
    exec (.halterWait p [k] cc) s = .next ((s.halterTake [k]).barQueue p id core n cc) :=
  congrArg Host.Outcome.next (halterWait_one h rfl)

theorem exec_halterWait_sem {w : Waiter} (h : s.halterAt p k = some ⟨p, id, .semWait w n⟩) :
    exec (.halterWait p [k] cc) s = .next (((s.halterTake [k]).semQueue p id w n cc).markLate w) :=
  congrArg Host.Outcome.next (halterWait_one h rfl)

theorem exec_halterWait_signal {w : Waiter} {j m : Nat} (h : s.halterAt p k = some ⟨p, id, .semWait w n⟩) (hj : j ≠ k)
    (hm : s.halterAt p j = some ⟨p, id, .signal m⟩) : exec (.halterWait p [k, j] cc) s =
      .next ((((s.halterTake [k, j]).semSignal p id m cc).semQueue p id w n cc).markLate w) :=
  congrArg Host.Outcome.next ((halterWait_two h rfl hj hm rfl).trans
    (by rw [State.halterApply_signal, State.halterApply_semWait]))

theorem halterArrive_none (h : ∀ m, s.halterAt p k = some m → m.op ≠ .arrive) : halterArrive s p k cc = s := by
  unfold halterArrive
  split
  · next hm => exact absurd rfl (h _ hm)
  · rfl

theorem halterSignal_none (h : ∀ m, s.halterAt p k = some m → ∀ n, m.op ≠ .signal n) : halterSignal s p k cc = s := by
  unfold halterSignal
  split
  · next hm => exact absurd rfl (h _ hm _)
  · rfl

end

section

variable {p k cc id n : Nat}

/-- A message whose home was reset is lost (R283): the step is owed TARGET_RESET, and the waits `w` end. -/
def State.Lost (s t : State) (p k : Nat) (w : List (Nat × Waiter)) : Prop :=
  t.halter = { s.halter with flying := s.halter.flying.eraseIdx k, released := s.halter.released ++ w } ∧
    ∀ st, s.stepOf p = some st → t.stepOf p = some { st with reset := true }

theorem State.lost_of_reset (s : State) (p k : Nat) (w : List (Nat × Waiter)) :
    s.Lost (((s.halterTake [k]).stepReset p).releases w) p k w := by
  refine ⟨?_, fun st hst => State.stepOf_updStep_same (s := s.halterTake [k]) _ hst⟩
  have h : ((s.halterTake [k]).stepReset p).halter = (s.halterTake [k]).halter := State.halter_updStep ..
  rw [State.releases, h, State.halterTake_one]

theorem State.Lost.of_parts {u : State} {w : List (Nat × Waiter)} (h : s.Lost t p k w) (hh : u.halter = t.halter)
    (hy : u.yard = t.yard) : s.Lost u p k w := by
  obtain ⟨hhalter, hstep⟩ := h
  exact ⟨hh.trans hhalter, fun st hst => (State.stepOf_congr hy p).trans (hstep st hst)⟩

/-- A message that releases nothing is lost. -/
theorem State.lost_stepReset (s : State) (p k : Nat) : s.Lost ((s.halterTake [k]).stepReset p) p k [] :=
  (s.lost_of_reset p k []).of_parts (by simp [State.releases]) rfl

/-! ### Messages that find their home -/

theorem State.find_semSignal {key : Nat} {x : Sem} (hk : s.semKey p id = some key)
    (hx : tabFind s.halter.sems key = some x) (cc : Nat) : tabFind (s.semSignal p id n cc).halter.sems key =
      some ⟨(serve (min 65535 (x.value + n)) x.queue).1, (serve (min 65535 (x.value + n)) x.queue).2.2⟩ := by
  rw [State.semSignal_found hk hx, State.find_serveSem]

theorem State.find_semQueue {key : Nat} {x : Sem} {w : Waiter} (hk : s.semKey p id = some key)
    (hx : tabFind s.halter.sems key = some x) (cc : Nat) : tabFind (s.semQueue p id w n cc).halter.sems key =
      some ⟨(serve x.value (x.queue ++ [(p, w, n)])).1, (serve x.value (x.queue ++ [(p, w, n)])).2.2⟩ := by
  rw [State.semQueue_found hk hx, State.find_serveSem]

theorem State.released_semSignal {key : Nat} {x : Sem} (hk : s.semKey p id = some key)
    (hx : tabFind s.halter.sems key = some x) (cc : Nat) : (s.semSignal p id n cc).halter.released =
      s.halter.released ++ (serve (min 65535 (x.value + n)) x.queue).2.1 := by
  rw [State.halter_semSignal hk hx]

theorem State.released_semQueue {key : Nat} {x : Sem} {w : Waiter} (hk : s.semKey p id = some key)
    (hx : tabFind s.halter.sems key = some x) (cc : Nat) : (s.semQueue p id w n cc).halter.released =
      s.halter.released ++ (serve x.value (x.queue ++ [(p, w, n)])).2.1 := by
  rw [State.halter_semQueue hk hx]

/-- That a wait may be late marks its core alone. -/
theorem State.halter_markLate (s : State) (w : Waiter) : (s.markLate w).halter = s.halter :=
  (s.markLate_frame w).halter_eq rfl

theorem State.find_setBar (s : State) (k : Nat) (x : Bar) : tabFind (s.setBar k x).halter.bars k = some x := by
  rw [State.setBar, tabFind_tabPut, if_pos rfl]

theorem State.flying_halterTake (s : State) (k : Nat) :
    (s.halterTake [k]).halter.flying = s.halter.flying.eraseIdx k := by
  rw [State.halterTake_one]

end

/-- Settles O40: a queue is served from its head; each delivery by what its message does at its home. -/
theorem halterServesInOrder : Obligations.HalterServesInOrder := by
  unfold Obligations.HalterServesInOrder
  refine ⟨serve_spec, fun p k cc id n key x s hm hk hx => ?_, fun p k cc id n key w x s hm hk hx => ?_,
    fun p k cc id key x s hk hx => ⟨fun hm => ?_, fun core n hm => ?_⟩,
    fun p k cc id op s hm => ⟨?_, ?_, ?_, ?_⟩, fun p k cc s => ⟨?_, ?_, ?_⟩⟩
  · have hk' : (s.halterTake [k]).semKey p id = some key := hk
    have hx' : tabFind (s.halterTake [k]).halter.sems key = some x := hx
    refine ⟨_, exec_halterSignal hm, State.find_semSignal hk' hx' cc, State.released_semSignal hk' hx' cc, ?_,
      Frame.mem_eq (F := [.plans, .halter]) (.semSignal (.halterTake (.refl s))) rfl rfl, fun hv hkey => ?_⟩
    · rw [State.halter_semSignal hk' hx']
      exact s.flying_halterTake k
    · rw [State.semSignal_found hk' hx', State.serveSem_eq]
      exact (s.halterTake [k]).noteSignal_overflow cc p.isLt (show key / 4096 < 32 by omega) hv
  · refine ⟨?_, fun j m hj hr => ?_⟩
    · have hk' : (s.halterTake [k]).semKey p id = some key := hk
      have hx' : tabFind (s.halterTake [k]).halter.sems key = some x := hx
      refine ⟨_, exec_halterWait_sem hm, ?_⟩
      rw [State.halter_markLate]
      refine ⟨?_, State.find_semQueue hk' hx' cc, State.released_semQueue hk' hx' cc⟩
      rw [State.halter_semQueue hk' hx']
      exact s.flying_halterTake k
    · have hk' : (s.halterTake [k, j]).semKey p id = some key := hk
      have hx' : tabFind (s.halterTake [k, j]).halter.sems key = some x := hx
      have hk2 := (congrFun (State.semKey_semSignal (s.halterTake [k, j]) p id m cc) id).trans hk'
      have hx2 := State.find_semSignal (n := m) hk' hx' cc
      refine ⟨_, exec_halterWait_signal hm hj hr, ?_⟩
      rw [State.halter_markLate]
      refine ⟨State.find_semQueue hk2 hx2 cc, ?_⟩
      rw [State.released_semQueue hk2 hx2, State.released_semSignal hk' hx']
      rfl
  · have hk' : (s.halterTake [k]).barKey p id = some key := hk
    have hx' : tabFind (s.halterTake [k]).halter.bars key = some x := hx
    refine ⟨_, exec_halterArrive hm, ?_⟩
    rcases Nat.lt_or_ge (x.count + 1) x.target with hlt | hle
    · rw [State.barArrive_counts hk' hx' hlt]
      exact ⟨s.flying_halterTake k, fun _ => ⟨State.find_setBar .., rfl⟩, fun h => absurd hlt (Nat.not_lt.2 h)⟩
    · rw [State.barArrive_completes hk' hx' hle]
      refine ⟨s.flying_halterTake k, fun h => absurd h (Nat.not_lt.2 hle), fun _ =>
        ⟨_, State.find_setBar .., rfl, rfl, fun w hw => of_decide_eq_true (List.mem_filter.1 hw).2, fun w hw hd => ?_⟩⟩
      exact List.mem_append_right _ (List.mem_map.2 ⟨w, List.mem_filter.2 ⟨hw, decide_eq_true hd⟩, rfl⟩)
  · have hk' : (s.halterTake [k]).barKey p id = some key := hk
    have hx' : tabFind (s.halterTake [k]).halter.bars key = some x := hx
    refine ⟨_, exec_halterWait_bar hm, fun hle => ?_, fun hlt => ?_⟩
    · rw [State.barQueue_past hk' hx' hle]
      exact ⟨rfl, hx⟩
    · rw [State.barQueue_waits hk' hx' hlt]
      exact ⟨rfl, State.find_setBar ..⟩
  · rintro rfl hb
    exact ⟨_, (exec_halterArrive hm).trans
      (congrArg Host.Outcome.next (State.barArrive_lost (s := s.halterTake [k]) hb cc)), s.lost_stepReset p k⟩
  · rintro n rfl hs
    exact ⟨_, (exec_halterSignal hm).trans
      (congrArg Host.Outcome.next (State.semSignal_lost (s := s.halterTake [k]) hs n cc)), s.lost_stepReset p k⟩
  · rintro w n rfl hs
    have hq := State.semQueue_lost (s := s.halterTake [k]) hs w n cc
    have hlate := ((s.halterTake [k]).semQueue p id w n cc).markLate_frame w
    exact ⟨_, exec_halterWait_sem hm, (s.lost_of_reset p k _).of_parts
      ((hlate.halter_eq rfl).trans (congrArg _ hq)) ((hlate.yard_eq rfl).trans (congrArg _ hq))⟩
  · rintro core n rfl hb
    exact ⟨_, (exec_halterWait_bar hm).trans
      (congrArg Host.Outcome.next (State.barQueue_lost (s := s.halterTake [k]) hb core n cc)), s.lost_of_reset p k _⟩
  · exact fun h => congrArg _ (halterArrive_none h)
  · exact fun h => congrArg _ (halterSignal_none h)
  · exact fun ks h => congrArg _ (halterWait_none h)

end Sys2Proof.Machine

namespace Sys2Proof.Machine

variable {s t : State}

/-! ## Releases (R157, R163) -/

/-! ### What a nest is read from -/

theorem hasCluster_sameBelow {B p : Nat} (h : SameBelow B s t) (hB : 0x400900 ≤ B) (hp : p < 32) (c : Nat) :
    t.hasCluster p c = s.hasCluster p c := by
  have hstate : t.prtState p = s.prtState p :=
    h.fld (show 0x400104 + 0x40 * p < B by omega) (by decide)
  have hmask : t.reg (PRT_CLUSTERS p) = s.reg (PRT_CLUSTERS p) :=
    h.reg (show 0x400108 + 0x40 * p < B by omega) (by decide)
  rw [State.hasCluster, State.hasCluster, hstate, hmask]

theorem partOfCluster_sameBelow {B : Nat} (h : SameBelow B s t) (hB : 0x400900 ≤ B) (c : Nat) :
    t.partOfCluster c = s.partOfCluster c :=
  List.find?_congr fun _ hp => hasCluster_sameBelow h hB (List.mem_range.1 hp) c

theorem State.partOfCluster_lt {c p : Nat} (h : s.partOfCluster c = some p) : p < 32 :=
  List.mem_range.1 (List.mem_of_find?_eq_some h)

/-- What a core that runs a nest shows. -/
structure State.NestOf (s : State) (core : Nat) (x : Nest) : Prop where
  part : s.partOfCore core = some x.p
  seq : s.seq core = some x.q
  step : s.stepOf x.p = some x.st
  plan : s.planOf x.p x.st.plan = some x.pl
  desc : x.pl.desc x.q.desc = some x.d
  node : x.pl.node x.d.node = some x.n
  running : x.st.running = true
  power : s.flag CLK_STATUS_VIN_WARN = false
  core : x.core = core

theorem State.nestOf_of_nest {core : Nat} {x : Nest} (h : s.nest core = some x) : s.NestOf core x := by
  unfold State.nest at h
  split at h
  case h_2 => cases h
  next p q hp hq =>
  split at h
  case h_1 => cases h
  next st hst =>
  split at h
  case h_1 => cases h
  next pl hpl =>
  split at h
  case h_1 => cases h
  next d hd =>
  split at h
  case h_1 => cases h
  next n hn =>
  split at h
  case isFalse => cases h
  next hrun =>
  cases h
  simp only [Bool.and_eq_true, Bool.not_eq_true'] at hrun
  exact ⟨hp, hq, hst, hpl, hd, hn, hrun.1, hrun.2, rfl⟩

theorem State.NestOf.nest {core : Nat} {x : Nest} (h : s.NestOf core x) : s.nest core = some x := by
  obtain ⟨hpart, hseq, hstep, hplan, hdesc, hnode, hrun, hpow, rfl⟩ := h
  have hq : tabFind s.seqs x.core = some x.q := hseq
  simp only [State.nest, hpart, hq, hstep, hplan, hdesc, hnode, hrun, hpow]
  rfl

/-- A core still runs its nest where the registers below the clusters' and the Yardmaster are as they were, and its
sequencer is at the same descriptor. -/
theorem State.nest_goesOn {core : Nat} {x : Nest} {q : Seq} (h : s.nest core = some x) (hr : SameBelow 0x1001000 s t)
    (hy : t.yard = s.yard) (hq : t.seq core = some q) (hd : q.desc = x.q.desc) :
    t.nest core = some { x with q := q } := by
  obtain ⟨hpart, -, hstep, hplan, hdesc, hnode, hrun, hpow, hcore⟩ := State.nestOf_of_nest h
  refine State.NestOf.nest ⟨(partOfCluster_sameBelow hr (by decide) _).trans hpart, hq,
    (State.stepOf_congr hy _).trans hstep, ?_, (congrArg x.pl.desc hd).trans hdesc, hnode, hrun,
    (hr.flag (by decide) (by decide)).trans hpow, hcore⟩
  rw [State.planOf, hy]
  exact hplan

/-! ### A nest goes on -/

section

variable {core : Nat} {q : Seq}

theorem State.seq_congr (h : t.seqs = s.seqs) (core : Nat) : t.seq core = s.seq core :=
  congrArg (tabFind · core) h

theorem State.seq_updSeq_same (f : Seq → Seq) (h : s.seq core = some q) : (s.updSeq core f).seq core = some (f q) := by
  have hq : tabFind s.seqs core = some q := h
  simp only [State.updSeq, hq, State.seq, tabFind_tabPut, if_true]

theorem State.regs_updSeq (s : State) (core : Nat) (f : Seq → Seq) : (s.updSeq core f).regs = s.regs := by
  unfold State.updSeq
  split <;> rfl

/-- Reading its words leaves a sequencer's phase and descriptor. -/
theorem State.seq_readStart (h : s.seq core = some q) :
    ∃ r, (s.readStart core).seq core = some r ∧ r.phase = q.phase ∧ r.desc = q.desc := by
  unfold State.readStart
  split
  · exact ⟨q, h, rfl, rfl⟩
  next x _ =>
  split
  · have hs : (s.fetchWait x.p core x.wordTensors).seqs = s.seqs :=
      Frame.seqs_eq (F := [.plans]) (.fetchWait (.refl s)) rfl
    exact ⟨q, (State.seq_congr hs core).trans h, rfl, rfl⟩
  · have hw : ((s.earlyEnd x.p core).nestWords x).2.seqs = s.seqs :=
      Frame.seqs_eq (F := [.plans, .loft]) (.nestWords (.earlyEnd (.refl s))) rfl
    generalize (s.earlyEnd x.p core).nestWords x = r at hw
    have hq := State.seq_updSeq_same (fun q => { q with words := r.1 }) ((State.seq_congr hw core).trans h)
    exact ⟨_, (State.seq_congr (Frame.seqs_eq (F := [.plans, .loft]) (.readTables (.refl _)) rfl) core).trans hq,
      rfl, rfl⟩

/-- A nest whose PRE is done runs. -/
theorem State.seq_beginNest {x : Nest} (h : s.nest core = some x) :
    ∃ r, (s.beginNest core).seq core = some r ∧ r.phase = .run ∧ r.desc = x.q.desc := by
  obtain ⟨-, hseq, -⟩ := State.nestOf_of_nest h
  unfold State.beginNest
  split
  case h_1 hn => exact absurd (hn.symm.trans h) nofun
  next y hy =>
  obtain rfl : y = x := Option.some.inj (hy.symm.trans h)
  extract_lets u v
  have hu : u.seqs = s.seqs := Frame.seqs_eq (F := [.plans, .loft]) (.cancelPf (.refl s)) rfl
  have hv : v.seq core = some _ := State.seq_updSeq_same _ ((State.seq_congr hu core).trans hseq)
  clear_value u v
  split
  · exact ⟨_, hv, rfl, rfl⟩
  · exact State.seq_readStart hv

/-- The end of a wait on a link is counted, and leaves the sequencer's descriptor. -/
theorem State.seq_linkLate (h : s.seq core = some q) :
    ∃ r, (s.linkLate core).seq core = some r ∧ r.desc = q.desc := by
  unfold State.linkLate
  split
  · exact ⟨q, h, rfl⟩
  · extract_lets u v
    have hv : v.seqs = s.seqs := (State.seqs_bump ..).trans (State.seqs_bump ..)
    exact ⟨_, State.seq_updSeq_same _ ((State.seq_congr hv core).trans h), rfl⟩

theorem State.linkLate_sameBelow (s : State) (core : Nat) : SameBelow 0x1001000 s (s.linkLate core) := by
  unfold State.linkLate
  split
  · exact .refl s
  · extract_lets u v
    have hu : SameBelow 0x1001000 s u := s.bump_sameBelow _ _ (by decide)
    have hv : SameBelow 0x1001000 u v := u.bump_sameBelow _ _ (by decide)
    exact (hu.trans hv).trans (.of_regs (State.regs_updSeq ..))

/-- A release that reaches a nest in PRE lets it run (R163). -/
theorem State.wakeWaiter_pre {x : Nest} (p : Nat) (h : s.nest core = some x) (hp : x.q.phase = .waitPre) :
    ∃ r, (s.wakeWaiter p (.pre core)).seq core = some r ∧ r.phase = .run ∧ r.desc = x.q.desc := by
  obtain ⟨-, hseq, -⟩ := State.nestOf_of_nest h
  obtain ⟨r, hr, hd⟩ := State.seq_linkLate hseq
  have hnest := State.nest_goesOn h (s.linkLate_sameBelow core)
    (Frame.yard_eq (F := [.sequencers]) (.linkLate (.refl s)) rfl) hr hd
  obtain ⟨r', hr', hrun, hd'⟩ := State.seq_beginNest hnest
  have hwake : s.wakeWaiter p (.pre core) = (s.linkLate core).beginNest core := by
    simp [State.wakeWaiter, hseq, hp]
  exact ⟨r', hwake ▸ hr', hrun, hd'.trans hd⟩

theorem State.wakeWaiter_iter (p : Nat) (h : s.seq core = some q) (hp : q.phase = .waitIter) :
    (s.wakeWaiter p (.iter core)).seq core = some { q with phase := .run, granted := true } := by
  have hwake : s.wakeWaiter p (.iter core) = s.updSeq core fun q => { q with phase := .run, granted := true } := by
    simp [State.wakeWaiter, h, hp]
  rw [hwake, State.seq_updSeq_same _ h]

/-- A core that does not wait stays as it is. -/
theorem State.wakeWaiter_pre_none (p : Nat) (h : s.seq core = some q) (hp : q.phase ≠ .waitPre) :
    s.wakeWaiter p (.pre core) = s := by
  simp [State.wakeWaiter, h, hp]

theorem State.wakeWaiter_iter_none (p : Nat) (h : s.seq core = some q) (hp : q.phase ≠ .waitIter) :
    s.wakeWaiter p (.iter core) = s := by
  simp [State.wakeWaiter, h, hp]

end

/-! ### A collective goes on -/

theorem State.collRun_congr (h : t.yard = s.yard) (p k : Nat) : t.collRun p k = s.collRun p k := by
  rw [State.collRun, State.collRun, State.stepOf_congr h]

theorem State.collRun_updColl {p k : Nat} {r : CollRun} {f : CollRun → CollRun} (hf : ∀ r, (f r).coll = r.coll)
    (h : s.collRun p k = some r) : (s.updColl p k f).collRun p k = some (f r) := by
  obtain ⟨st, hst, hr⟩ := Option.bind_eq_some_iff.1 h
  have hk : (r.coll == k) = true := List.find?_some (p := fun q : CollRun => q.coll == k) hr
  have hsame : (fun q : CollRun => q.coll == k) ∘ (fun q => if q.coll == k then f q else q) = fun q => q.coll == k := by
    funext q
    simp only [Function.comp_apply]
    split
    · rw [hf]
    · rfl
  rw [State.collRun, State.updColl, State.stepOf_updStep_same _ hst, Option.bind_some, List.find?_map, hsame, hr,
    Option.map_some, if_pos hk]

/-- A member that goes on has its semaphore (R384). -/
theorem State.collRun_collReady {p k : Nat} {r : CollRun} {x : CollCtx} (hr : s.collRun p k = some r)
    (hx : s.collCtx p k = some x) : ∃ q, (s.collReady p k).collRun p k = some q ∧ q.semOk = true := by
  unfold State.collReady
  split
  case h_2 hnone => exact (hnone _ _ hr hx).elim
  next r' x' hr' hx' =>
  obtain rfl : r' = r := Option.some.inj (hr'.symm.trans hr)
  extract_lets u cs v
  have hu : u.collRun p k = some { r' with semOk := true } := State.collRun_updColl (fun _ => rfl) hr
  have hv : v.yard = u.yard :=
    Frame.yard_eq (F := [.loft]) (.ite (.refl u) (.foldl (.refl u) fun _ _ => .tookWord (.refl _))) rfl
  split
  · exact ⟨_, hu, rfl⟩
  · exact ⟨_, State.collRun_updColl (fun _ => rfl) ((State.collRun_congr hv p k).trans hu), rfl⟩

/-! ### Drover streams and transfers go on -/

/-- The streams of a drover node have their semaphore (R272). -/
theorem State.semOk_wakeDrover (s : State) (p j : Nat) : ∀ d ∈ (s.wakeWaiter p (.drover j)).drovers,
    d.2.part = p → d.2.node = j → d.2.semOk = true := by
  intro d hd hp hj
  obtain ⟨r, -, rfl⟩ := List.mem_map.1 hd
  by_cases hr : r.2.part = p ∧ r.2.node = j
  · rw [if_pos hr]
  · rw [if_neg hr] at hp hj
    exact absurd ⟨hp, hj⟩ hr

/-- The TRANSFER of a slot has its semaphore (R359). -/
theorem State.semOk_wakeSlot {p j : Nat} {st : Step} (h : s.stepOf p = some st) :
    ∃ u, (s.wakeWaiter p (.slot j)).stepOf p = some u ∧ ∀ x ∈ u.transfers, x.slot = j → x.semOk = true := by
  refine ⟨_, State.stepOf_updStep_same _ h, fun x hx hj => ?_⟩
  obtain ⟨y, -, rfl⟩ := List.mem_map.1 hx
  by_cases hy : y.slot = j
  · rw [if_pos hy]
  · rw [if_neg hy] at hj
    exact absurd hj hy

/-! ### A release is delivered -/

/-- The k-th release is no longer under way. -/
def State.takeRelease (s : State) (k : Nat) : State :=
  { s with halter := { s.halter with released := s.halter.released.eraseIdx k } }

section

variable {k cc p : Nat} {w : Waiter}

theorem halterRelease_none (h : s.halter.released[k]? = none) : halterRelease s k cc = s := by
  simp only [halterRelease, h]

/-- The core that a waiter is. -/
def Waiter.core? : Waiter → Option Nat
  | .pre c => some c
  | .iter c => some c
  | _ => none

theorem halterRelease_eq (h : s.halter.released[k]? = some (p, w)) : halterRelease s k cc =
    if s.flag CLK_STATUS_VIN_WARN ∧ w.core?.isSome then s
    else (match w.core? with
      | some c => (s.takeRelease k).latMax (c / 8) cc
      | none => s.takeRelease k).wakeWaiter p w := by
  simp only [halterRelease, h]
  rfl

theorem halterRelease_held {c : Nat} (h : s.halter.released[k]? = some (p, w)) (hw : w.core? = some c)
    (hv : s.flag CLK_STATUS_VIN_WARN = true) : halterRelease s k cc = s := by
  rw [halterRelease_eq h, if_pos ⟨hv, hw ▸ rfl⟩]

theorem halterRelease_core {c : Nat} (h : s.halter.released[k]? = some (p, w)) (hw : w.core? = some c)
    (hv : s.flag CLK_STATUS_VIN_WARN = false) :
    halterRelease s k cc = ((s.takeRelease k).latMax (c / 8) cc).wakeWaiter p w := by
  rw [halterRelease_eq h, if_neg fun hc => Bool.false_ne_true (hv.symm.trans hc.1), hw]

theorem halterRelease_other (h : s.halter.released[k]? = some (p, w)) (hw : w.core? = none) :
    halterRelease s k cc = (s.takeRelease k).wakeWaiter p w := by
  rw [halterRelease_eq h, hw, if_neg fun hc => absurd hc.2 nofun]

/-- What a waiter does when a release reaches it leaves the releases under way. -/
theorem State.halter_wakeWaiter (s : State) (p : Nat) (w : Waiter) : (s.wakeWaiter p w).halter = s.halter :=
  Frame.halter_eq (F := [.plans, .sequencers, .drovers, .loft]) (.wakeWaiter (.refl s)) rfl

theorem State.released_wakeCore (s : State) (k c cc p : Nat) (w : Waiter) :
    (((s.takeRelease k).latMax (c / 8) cc).wakeWaiter p w).halter.released = s.halter.released.eraseIdx k := by
  rw [State.halter_wakeWaiter]
  rfl

theorem State.takeRelease_sameBelow (s : State) (k c cc : Nat) :
    SameBelow 0x1001000 s ((s.takeRelease k).latMax c cc) := by
  have h : SameBelow 0x1001000 (s.takeRelease k) ((s.takeRelease k).latMax c cc) :=
    State.setFld_sameBelow _ _ _ (by decide)
  exact h.from_regs rfl

theorem State.nest_takeRelease {core : Nat} {x : Nest} (h : s.nest core = some x) (k cc : Nat) :
    ((s.takeRelease k).latMax (core / 8) cc).nest core = some x := by
  obtain ⟨-, hseq, -⟩ := State.nestOf_of_nest h
  exact State.nest_goesOn h (s.takeRelease_sameBelow ..) rfl hseq rfl

end

end Sys2Proof.Machine

namespace Sys2Proof.Machine

variable {s t : State}

/-! ## The watchdog (R168) -/

/-! ### The waits of a cluster end -/

/-- What a table holds after a value is put under a key. -/
theorem mem_tabPut_ne {α : Type} {t : Tab α} {k : Nat} {v : α} {e : Nat × α} (hwf : tabWf t) (h : e ∈ tabPut t k v) :
    e = (k, v) ∨ e ∈ t ∧ e.1 ≠ k := by
  induction t with
  | nil => exact .inl (List.mem_singleton.1 h)
  | cons x t ih =>
    obtain ⟨a, w⟩ := x
    obtain ⟨hlow, hwf'⟩ := List.pairwise_cons.1 hwf
    unfold tabPut at h
    split at h
    · rcases List.mem_cons.1 h with h | h
      · exact .inl h
      · have ha : a ≤ e.1 := by
          rcases List.mem_cons.1 h with rfl | h'
          · exact le_rfl
          · exact (hlow e h').le
        exact .inr ⟨h, by omega⟩
    · split at h
      · rcases List.mem_cons.1 h with h | h
        · exact .inl h
        · have ha : a < e.1 := hlow e h
          exact .inr ⟨List.mem_cons_of_mem _ h, by omega⟩
      · rcases List.mem_cons.1 h with rfl | h
        · exact .inr ⟨List.mem_cons_self, fun h => absurd h.symm ‹_›⟩
        · exact (ih hwf' h).imp id fun ⟨hm, hk⟩ => ⟨List.mem_cons_of_mem _ hm, hk⟩

@[simp] theorem State.regs_release (s : State) (p : Nat) (w : Waiter) : (s.release p w).regs = s.regs := rfl

@[simp] theorem State.sems_release (s : State) (p : Nat) (w : Waiter) :
    (s.release p w).halter.sems = s.halter.sems := rfl

section

variable {mine : Nat → Waiter → Bool}

/-- No wait in a semaphore's queue is among those that end. -/
def Sem.Clear (mine : Nat → Waiter → Bool) (x : Sem) : Prop := ∀ w ∈ x.queue, mine w.1 w.2.1 = false

/-- The waits of one semaphore that are among those that end. -/
def State.endSem (mine : Nat → Waiter → Bool) (s : State) (e : Nat × Sem) : State :=
  let out := e.2.queue.filter fun q => mine q.1 q.2.1
  if out.isEmpty then s
  else
    let s := out.foldl (fun (s : State) q => s.release q.1 q.2.1) s
    s.serveSem e.1 { e.2 with queue := e.2.queue.filter fun q => !mine q.1 q.2.1 }

/-- A semaphore whose waits end is clear, and no other changes. -/
theorem State.endSem_clears (hwf : tabWf s.halter.sems) (e : Nat × Sem) :
    tabWf (s.endSem mine e).halter.sems ∧
      ∀ y ∈ (s.endSem mine e).halter.sems, y.2.Clear mine ∨ y ∈ s.halter.sems ∧ y ≠ e := by
  unfold State.endSem
  extract_lets out u
  split
  · next hout =>
    refine ⟨hwf, fun y hy => ?_⟩
    by_cases hye : y = e
    · subst hye
      refine .inl fun w hw => Bool.eq_false_iff.2 fun hm => ?_
      have : w ∈ out := List.mem_filter.2 ⟨hw, hm⟩
      rw [List.isEmpty_iff.1 hout] at this
      exact absurd this List.not_mem_nil
    · exact .inr ⟨hy, hye⟩
  · have hu : u.halter.sems = s.halter.sems := by
      rw [show u = _ from foldl_release (fun q : Nat × Waiter × Nat => (q.1, q.2.1)) out s]
      rfl
    rw [State.halter_serveSem, hu]
    refine ⟨tabWf_tabPut _ _ hwf, fun y hy => ?_⟩
    rcases mem_tabPut_ne hwf hy with rfl | ⟨hm, hk⟩
    · exact .inl (fun w hw => by simpa using (List.mem_filter.1 (mem_of_mem_serve hw)).2)
    · exact .inr ⟨hm, fun h => hk (congrArg Prod.fst h)⟩

theorem State.foldl_endSem_clears (l : List (Nat × Sem)) (s : State) (hwf : tabWf s.halter.sems)
    (h : ∀ y ∈ s.halter.sems, y.2.Clear mine ∨ y ∈ l) :
    ∀ y ∈ (l.foldl (State.endSem mine) s).halter.sems, y.2.Clear mine := by
  induction l generalizing s with
  | nil => exact fun y hy => (h y hy).resolve_right List.not_mem_nil
  | cons e l ih =>
    obtain ⟨hwf', hclears⟩ := State.endSem_clears (mine := mine) hwf e
    refine ih _ hwf' fun y hy => ?_
    rcases hclears y hy with hc | ⟨hm, hne⟩
    · exact .inl hc
    · exact (h y hm).imp id fun hl => (List.mem_cons.1 hl).resolve_left hne

end

/-- The waits of one barrier that are of a cluster end. -/
def State.endBar (c : Nat) (s : State) (e : Nat × Bar) : State :=
  let out := e.2.waits.filter fun w => w.1 / 8 == c
  if out.isEmpty then s
  else
    let s := out.foldl (fun (s : State) w => s.release ((s.partOfCore w.1).getD 0) (.pre w.1)) s
    s.setBar e.1 { e.2 with waits := e.2.waits.filter fun w => w.1 / 8 != c }

/-- The end of a barrier's waits changes nothing that no barrier and no release changes. -/
theorem State.endBar_keeps {α : Type} (π : State → α) (hr : ∀ (s : State) p w, π (s.release p w) = π s)
    (hb : ∀ (s : State) k x, π (s.setBar k x) = π s) (c : Nat) (s : State) (e : Nat × Bar) :
    π (s.endBar c e) = π s := by
  unfold State.endBar
  extract_lets out u
  have hu : π u = π s := foldl_keeps π (fun _ _ => hr ..) ..
  split
  · rfl
  · exact (hb ..).trans hu

/-- The messages of a cluster's waits are lost, then its waits at each semaphore end, then those at each barrier. -/
theorem State.endWaits_eq (s : State) (c : Nat) : ∃ u : State, u.halter.sems = s.halter.sems ∧ u.regs = s.regs ∧
    s.endWaits c = (u.halter.sems.foldl (State.endSem (s.waitsIn c)) u).halter.bars.foldl (State.endBar c)
      (u.halter.sems.foldl (State.endSem (s.waitsIn c)) u) := by
  unfold State.endWaits
  extract_lets mine of_ sent y u v w
  exact ⟨v, foldl_keeps (·.halter.sems) (fun r _ => r.sems_release ..) ..,
    foldl_keeps (·.regs) (fun r _ => r.regs_release ..) .., rfl⟩

/-- No semaphore has a wait of the cluster after its waits end. -/
theorem State.endWaits_clears (hwf : tabWf s.halter.sems) (c : Nat) :
    ∀ y ∈ (s.endWaits c).halter.sems, y.2.Clear (s.waitsIn c) := by
  obtain ⟨u, hu, -, heq⟩ := s.endWaits_eq c
  rw [heq, foldl_keeps (·.halter.sems) (State.endBar_keeps (·.halter.sems) (fun _ _ _ => rfl) (fun _ _ _ => rfl) c)]
  exact State.foldl_endSem_clears _ u (hu ▸ hwf) fun y hy => .inr hy

theorem State.regs_endSem (mine : Nat → Waiter → Bool) (s : State) (e : Nat × Sem) :
    (s.endSem mine e).regs = s.regs := by
  unfold State.endSem
  extract_lets out u
  have hu : u.regs = s.regs := foldl_keeps (·.regs) (fun r _ => r.regs_release ..) ..
  split
  · rfl
  · rw [State.serveSem_eq]
    exact hu

theorem State.regs_endWaits (s : State) (c : Nat) : (s.endWaits c).regs = s.regs := by
  obtain ⟨u, -, hu, heq⟩ := s.endWaits_eq c
  rw [heq, foldl_keeps (·.regs) (State.endBar_keeps (·.regs) (fun _ _ _ => rfl) (fun _ _ _ => rfl) c),
    foldl_keeps (·.regs) (State.regs_endSem _), hu]

/-! ### Pending receives are fed -/

/-- A chute's registers are its cores' own. -/
theorem State.setChute_sameBelow (s : State) (p plan : Nat) (e : Nat × BoundEdge) (c : Chute) :
    SameBelow 0x1002000 s (s.setChute p plan e c) := by
  unfold State.setChute
  extract_lets u m b off
  have hu : SameBelow 0x1002000 s u := .of_regs rfl
  refine .ite ?_ hu
  exact (hu.trans (u.setFld_sameBelow _ _ (show 0x1002000 ≤ 0x1002048 + 0x20 * e.2.srcPort by omega))).trans
    (State.setFld_sameBelow _ _ _ (by decide))

theorem State.feed_sameBelow (s : State) (x : Nest) : SameBelow 0x1002000 s (s.feed x) := by
  unfold State.feed
  refine .ite ?_ (.refl s)
  refine .foldl _ fun t o => ?_
  split
  · exact .ite (t.setChute_sameBelow ..) (.refl t)
  · exact .refl t

theorem State.feedDrover_sameBelow (s : State) (d : Drove) : SameBelow 0x1002000 s (s.feedDrover d) := by
  unfold State.feedDrover
  split
  · exact .refl s
  split
  · exact .ite (s.setChute_sameBelow ..) (.refl s)
  · exact .refl s

/-- The pending receives of a cluster's cores and drovers are fed. -/
def State.feedCluster (s : State) (c : Nat) (ns : List Nest) : State :=
  let s := ns.foldl (fun (s : State) x => s.feed x) s
  (s.drovers.filter fun d => d.1 / 4 == c).foldl (fun (s : State) d => s.feedDrover d.2) s

theorem State.feedCluster_sameBelow (s : State) (c : Nat) (ns : List Nest) :
    SameBelow 0x1002000 s (s.feedCluster c ns) :=
  (SameBelow.foldl ns fun t x => t.feed_sameBelow x).trans (.foldl _ fun t d => t.feedDrover_sameBelow d.2)

theorem State.feedCluster_frame (s : State) (c : Nat) (ns : List Nest) : Frame [.chutes] s (s.feedCluster c ns) :=
  .foldl (.foldl (.refl s) fun _ _ => .feed (.refl _)) fun _ _ => .feedDrover (.refl _)

/-! ### The watchdog fires -/

theorem watchdogFire_idle {c : Nat} (h : s.fld CLU_HLT_WDOG_LIMIT_LIMIT c = 0 ∨ s.nestsOf c = [] ∨
    (s.nestsOf c).all s.stuck = false) : watchdogFire s c = s := by
  refine if_pos ?_
  simp only [List.isEmpty_iff, Bool.not_eq_true']
  rcases h with h | h | h
  · exact .inr (.inl h)
  · exact .inl h
  · exact .inr (.inr h)

/-- The fire is noted in the cluster's registers. -/
def State.noteWdog (s : State) (c : Nat) : State := s.noteEvent CLU_HLT_STATUS_WDOG CLU_WDOG_COUNT_COUNT c

/-- The cluster once its watchdog has fired, before its step is told. -/
def State.wdogEnd (s : State) (c : Nat) : State := ((s.noteWdog c).feedCluster c (s.nestsOf c)).endWaits c

theorem watchdogFire_fires {c : Nat} (hl : s.fld CLU_HLT_WDOG_LIMIT_LIMIT c ≠ 0) (hn : s.nestsOf c ≠ [])
    (hs : (s.nestsOf c).all s.stuck = true) : watchdogFire s c =
      match (s.wdogEnd c).partOfCluster c with
      | some p => (s.wdogEnd c).stepFault p 0x0D
      | none => s.wdogEnd c := by
  refine if_neg ?_
  simp [hl, hn, hs]

section

variable {c : Nat}

/-- From the noted fire to the end of the waits, no register below the cores' changes. -/
theorem State.wdogEnd_sameBelow (s : State) (c : Nat) : SameBelow 0x1002000 (s.noteWdog c) (s.wdogEnd c) :=
  ((s.noteWdog c).feedCluster_sameBelow c _).trans (.of_regs (State.regs_endWaits ..))

theorem State.partOfCluster_wdogEnd (s : State) (c d : Nat) : (s.wdogEnd c).partOfCluster d = s.partOfCluster d := by
  have hnote : SameBelow 0x1001000 s (s.noteWdog c) :=
    (s.setFld_sameBelow _ _ (by decide)).trans (State.bump_sameBelow _ _ _ (by decide))
  exact partOfCluster_sameBelow (hnote.trans ((s.wdogEnd_sameBelow c).mono (by decide))) (by decide) d

theorem State.wdogEnd_regs (s : State) (hc : c < 1048576) :
    (s.wdogEnd c).fld CLU_HLT_STATUS_WDOG c = 1 ∧
      (s.wdogEnd c).fld CLU_WDOG_COUNT_COUNT c = min (s.fld CLU_WDOG_COUNT_COUNT c + 1) 0xFFFFFFFF := by
  have h := s.wdogEnd_sameBelow c
  rw [h.fld (by decide) hc, h.fld (by decide) hc]
  exact s.noteEvent_regs hc (by decide) (by decide) (by decide)

theorem State.wdogEnd_frame (s : State) (c : Nat) : Frame [.chutes, .halter] s (s.wdogEnd c) :=
  .endWaits (((s.noteEvent_frame ..).mono rfl).trans ((State.feedCluster_frame ..).mono rfl))

theorem State.waitsIn_congr (h : t.drovers = s.drovers) (c : Nat) : t.waitsIn c = s.waitsIn c := by
  funext p w
  cases w <;> simp only [State.waitsIn, h]

/-- After the fire no semaphore has a wait of the cluster. -/
theorem State.wdogEnd_clears (hwf : tabWf s.halter.sems) (c : Nat) :
    ∀ y ∈ (s.wdogEnd c).halter.sems, y.2.Clear (s.waitsIn c) := by
  have hfed : Frame [.chutes] s ((s.noteWdog c).feedCluster c (s.nestsOf c)) :=
    ((s.noteEvent_frame ..).mono rfl).trans (State.feedCluster_frame ..)
  rw [← State.waitsIn_congr (hfed.drovers_eq rfl) c]
  exact State.endWaits_clears (by rwa [hfed.halter_eq rfl]) c

/-- The step of the cluster's partition, if one holds it, is told; the rest is as it was. -/
theorem watchdogFire_tells (hl : s.fld CLU_HLT_WDOG_LIMIT_LIMIT c ≠ 0) (hn : s.nestsOf c ≠ [])
    (hs : (s.nestsOf c).all s.stuck = true) (hc : c < 1048576) :
    Frame [.plans] (s.wdogEnd c) (watchdogFire s c) ∧
      (∀ g : Field, 0x200000 ≤ g.off → (watchdogFire s c).fld g c = (s.wdogEnd c).fld g c) ∧
      ∀ p st, s.partOfCluster c = some p → (s.wdogEnd c).stepOf p = some st →
        ∃ u, (watchdogFire s c).stepOf p = some u ∧ u.cause ≠ 0 := by
  rw [watchdogFire_fires hl hn hs, State.partOfCluster_wdogEnd]
  cases hp : s.partOfCluster c with
  | none => exact ⟨.refl _, fun _ _ => rfl, fun _ _ h => absurd h nofun⟩
  | some q =>
    refine ⟨.stepFault (.refl _), fun g hg => State.fld_stepFault_off _ (State.partOfCluster_lt hp) hc hg,
      fun p st h hst => ?_⟩
    obtain rfl := Option.some.inj h
    exact State.stepOf_stepFault hst (by decide)

end

/-- Settles O41: a release by its waiter, the watchdog by what its fire leaves of the cluster. -/
theorem halterReleasesAndWatchdog : Obligations.HalterReleasesAndWatchdog := by
  unfold Obligations.HalterReleasesAndWatchdog
  refine ⟨fun k cc p core x s _ hx hv => ?_, fun k cc p core s hv hr => ?_,
    fun k cc s hr => congrArg _ (halterRelease_none hr), fun k cc p j s => ⟨fun hr => ?_, fun st hr hst => ?_,
      fun r x hr hrun hctx => ?_⟩, fun c s => ⟨fun h => congrArg _ (watchdogFire_idle h), fun hl hn hs hwf => ?_⟩⟩
  · have hnest := State.nest_takeRelease hx k cc
    obtain ⟨-, hseq, -⟩ := State.nestOf_of_nest hnest
    refine ⟨fun hr hp => ?_, fun hr hp => ?_, ?_⟩
    · obtain ⟨q, hq, hrun, hdesc⟩ := State.wakeWaiter_pre p hnest hp
      exact ⟨_, q, congrArg Host.Outcome.next (halterRelease_core hr rfl hv), hq, hrun, hdesc, s.released_wakeCore ..⟩
    · exact ⟨_, congrArg Host.Outcome.next (halterRelease_core hr rfl hv), State.wakeWaiter_iter p hseq hp,
        s.released_wakeCore ..⟩
    · rintro (⟨hr, hp⟩ | ⟨hr, hp⟩)
      · exact ⟨_, congrArg Host.Outcome.next ((halterRelease_core hr rfl hv).trans
          (State.wakeWaiter_pre_none p hseq hp)), rfl, rfl⟩
      · exact ⟨_, congrArg Host.Outcome.next ((halterRelease_core hr rfl hv).trans
          (State.wakeWaiter_iter_none p hseq hp)), rfl, rfl⟩
  · rcases hr with hr | hr
    · exact congrArg _ (halterRelease_held hr rfl hv)
    · exact congrArg _ (halterRelease_held hr rfl hv)
  · exact ⟨_, congrArg Host.Outcome.next (halterRelease_other hr rfl), State.semOk_wakeDrover _ p j⟩
  · obtain ⟨u, hu, hsem⟩ := State.semOk_wakeSlot (s := s.takeRelease k) (j := j) hst
    exact ⟨_, u, congrArg Host.Outcome.next (halterRelease_other hr rfl), hu, hsem⟩
  · obtain ⟨q, hq, hsem⟩ := State.collRun_collReady (s := s.takeRelease k) hrun hctx
    exact ⟨_, q, congrArg Host.Outcome.next (halterRelease_other hr rfl), hq, hsem⟩
  · have hc : (c : Nat) < 1048576 := by have := c.isLt; omega
    obtain ⟨hflag, hcount⟩ := s.wdogEnd_regs hc
    obtain ⟨hframe, hfld, hcause⟩ := watchdogFire_tells hl hn hs hc
    have hdrovers : (watchdogFire s c).drovers = s.drovers :=
      (hframe.drovers_eq rfl).trans ((s.wdogEnd_frame c).drovers_eq rfl)
    have hyard : (s.wdogEnd c).yard = s.yard := (s.wdogEnd_frame c).yard_eq rfl
    refine ⟨_, rfl, ?_, (hfld _ (by decide)).trans hcount, fun e he => ?_, fun p st hp hst =>
      hcause p st hp ((State.stepOf_congr hyard p).trans hst)⟩
    · rw [State.flag, hfld _ (by decide), hflag]
      rfl
    · rw [State.waitsIn_congr hdrovers]
      exact s.wdogEnd_clears hwf c e (hframe.halter_eq rfl ▸ he)

end Sys2Proof.Machine

namespace Sys2Proof.Machine

variable {s : State}

/-! ## The pool's registers (R200, R201) -/

/-! ### Rules of the pool's state -/

section

variable (s : State)

/-- The registers that follow the pool are written; nothing that no register write changes is. -/
theorem State.refreshPool_keeps {α : Type} (π : State → α) (hf : ∀ (s : State) f i x, π (s.setFld f i x) = π s)
    (p : Nat) : π (s.refreshPool p) = π s := by
  unfold State.refreshPool
  dsimp only
  rw [hf, hf, hf, hf]

@[simp] theorem State.kv_refreshPool (p : Nat) : (s.refreshPool p).kv = s.kv :=
  s.refreshPool_keeps (·.kv) State.kv_setFld p
@[simp] theorem State.mem_refreshPool (p : Nat) : (s.refreshPool p).mem = s.mem :=
  s.refreshPool_keeps (·.mem) State.mem_setFld p
@[simp] theorem State.host_refreshPool (p : Nat) : (s.refreshPool p).host = s.host :=
  s.refreshPool_keeps (·.host) State.host_setFld p

/-- The registers that follow the pool. -/
def poolViewRegs : List Nat := [OST_STATUS, OST_FREE_FRAMES, OST_HOST_USED, PED_NODES]

/-- A field of a register that does not follow the pool keeps its value. -/
theorem State.fld_refreshPool_off {p j : Nat} {g : Field} (hp : p < 1048576) (hj : j < 1048576)
    (hg : g.off ∉ poolViewRegs) : (s.refreshPool p).fld g j = s.fld g j := by
  simp only [poolViewRegs, List.mem_cons, List.not_mem_nil, or_false, not_or] at hg
  obtain ⟨hstatus, hfree, hused, hnodes⟩ := hg
  unfold State.refreshPool
  dsimp only
  rw [State.fld_setFld_off _ _ hp hj (.inl (Ne.symm hstatus)), State.fld_setFld_off _ _ hp hj (.inl (Ne.symm hnodes)),
    State.fld_setFld_off _ _ hp hj (.inl (Ne.symm hused)), State.fld_setFld_off _ _ hp hj (.inl (Ne.symm hfree))]

/-- STALLED stands beside ENABLED. -/
theorem State.kvOn_refreshPool {p : Nat} (hp : p < 1048576) : (s.refreshPool p).kvOn p = s.kvOn p := by
  unfold State.kvOn State.refreshPool
  dsimp only
  rw [State.flag_setFld_beside _ _ _ (by decide) (by rfl) (by decide), State.flag_setFld_off _ _ hp hp (.inl (by decide)),
    State.flag_setFld_off _ _ hp hp (.inl (by decide)), State.flag_setFld_off _ _ hp hp (.inl (by decide))]

/-- A write to a register other than OST_STATUS leaves the pool enabled or disabled. -/
theorem State.kvOn_setFld_off {f : Field} {p : Nat} (x : Nat) (hp : p < 1048576) (hf : f.off ≠ OST_STATUS) :
    (s.setFld f p x).kvOn p = s.kvOn p :=
  s.flag_setFld_off x hp hp (.inl hf)

/-- ENABLED is what was written. -/
theorem State.kvOn_setFld_enabled (p : Nat) (b : Bool) : (s.setFld OST_STATUS_ENABLED p b.toNat).kvOn p = b :=
  s.flag_setFld_same p b (by decide) rfl

/-! ### A refused enable or write (R200, R201) -/

@[simp] theorem State.kv_ostErr (p code : Nat) : (s.ostErr p code).kv = s.kv := by
  unfold State.ostErr
  dsimp only
  rw [State.kv_setFld]
  split <;> rfl

/-- A refusal leaves every field but those of the registers that record it. -/
theorem State.fld_ostErr_off {p code j : Nat} {g : Field} (hp : p < 1048576) (hj : j < 1048576)
    (hst : g.off ≠ OST_STATUS) (hcode : g.off ≠ OST_SETUP_ERR_CODE) : (s.ostErr p code).fld g j = s.fld g j := by
  unfold State.ostErr
  dsimp only
  rw [State.fld_setFld_off _ _ hp hj (.inl (Ne.symm hst))]
  split
  · rfl
  · exact s.fld_setFld_off _ hp hj (.inl (Ne.symm hcode))

/-- SETUP_ERR stands beside ENABLED. -/
theorem State.kvOn_ostErr {p : Nat} (code : Nat) (hp : p < 1048576) : (s.ostErr p code).kvOn p = s.kvOn p := by
  unfold State.ostErr State.kvOn
  dsimp only
  rw [State.flag_setFld_beside _ _ _ (by decide) (by rfl) (by decide)]
  split
  · rfl
  · exact s.flag_setFld_off _ hp hp (.inl (by decide))

/-- A refusal sets SETUP_ERR. -/
theorem State.ostErr_sets (p code : Nat) : (s.ostErr p code).flag OST_STATUS_SETUP_ERR p = true := by
  unfold State.ostErr
  exact State.flag_setFld_same _ p true (by decide) rfl

/-- The first refusal since SETUP_ERR was cleared is recorded with its cause. -/
theorem State.ostErr_first {p code : Nat} (hp : p < 1048576) (hc : code < 16)
    (he : s.flag OST_STATUS_SETUP_ERR p = false) : (s.ostErr p code).fld OST_SETUP_ERR_CODE_CODE p = code := by
  unfold State.ostErr
  dsimp only
  rw [if_neg (Bool.eq_false_iff.1 he), State.fld_setFld_off _ _ hp hp (.inl (by decide)),
    State.fld_setFld_same _ _ _ _ (by decide)]
  exact Nat.mod_eq_of_lt hc

/-- What a write of a pool's registers refused with a cause leaves. -/
def State.poolRefused (t : State) (p code : Nat) : Prop :=
  t.kv = s.kv ∧ t.kvOn p = s.kvOn p ∧ t.flag OST_STATUS_SETUP_ERR p = true ∧
    (s.flag OST_STATUS_SETUP_ERR p = false → t.fld OST_SETUP_ERR_CODE_CODE p = code)

theorem State.poolRefused_ostErr {p code : Nat} (hp : p < 1048576) (hc : code < 16) :
    s.poolRefused (s.ostErr p code) p code :=
  ⟨s.kv_ostErr .., s.kvOn_ostErr code hp, s.ostErr_sets .., s.ostErr_first hp hc⟩

end

/-! ### The sizes of a page and of a manger buffer (R199) -/

/-- A half bale of a format and head dimension that an enable accepts is below 64 KiB. -/
theorem halfBytes_lt {format d : Nat} (hf : 2 ≤ format ∧ format ≤ 5) (hd : d = 32 ∨ d = 64 ∨ d = 96 ∨ d = 128) :
    halfBytes format d < 65536 := by
  obtain ⟨hlo, hhi⟩ := hf
  rcases hd with rfl | rfl | rfl | rfl <;> interval_cases format <;> decide

theorem frameBytes_lt {format d groups : Nat} (hf : 2 ≤ format ∧ format ≤ 5)
    (hd : d = 32 ∨ d = 64 ∨ d = 96 ∨ d = 128) (hg : groups ≤ 64) : frameBytes format d groups < 2 ^ 32 := by
  have hhalf : groups * 4 * halfBytes format d ≤ 64 * 4 * 65536 :=
    Nat.mul_le_mul (Nat.mul_le_mul_right 4 hg) (halfBytes_lt hf hd).le
  unfold frameBytes roundUp
  omega

/-- The manger's format of a pool format is a pool format. -/
theorem mangerFormat_mem {format : Nat} (hf : 2 ≤ format ∧ format ≤ 5) :
    2 ≤ mangerFormat format ∧ mangerFormat format ≤ 5 := by
  unfold mangerFormat
  split
  · decide
  · exact hf

/-- The format, head dimension and groups of a configuration that an enable accepts. -/
theorem State.kvShape_of_ostCause {p : Nat} (h : s.ostCause p = none) :
    (2 ≤ s.kvFormat p ∧ s.kvFormat p ≤ 5) ∧
      (s.kvD p = 32 ∨ s.kvD p = 64 ∨ s.kvD p = 96 ∨ s.kvD p = 128) ∧ s.kvGroups p ≤ 64 := by
  unfold State.ostCause at h
  dsimp only at h
  split at h
  · cases h
  · split at h
    · cases h
    · split at h
      · cases h
      · next hf hd hg => exact ⟨not_not.1 hf, not_not.1 hd, by omega⟩

theorem State.pageBytes_lt {p : Nat} (h : s.ostCause p = none) : s.pageBytes p < 2 ^ 32 :=
  let ⟨hf, hd, hg⟩ := State.kvShape_of_ostCause h
  frameBytes_lt hf hd hg

theorem State.mangerBytes_lt {p : Nat} (h : s.ostCause p = none) : s.mangerBytes p < 2 ^ 32 :=
  let ⟨hf, hd, hg⟩ := State.kvShape_of_ostCause h
  frameBytes_lt (mangerFormat_mem hf) hd hg

/-- Every cause of a refused enable fits its register. -/
theorem State.ostCause_lt {p c : Nat} (h : s.ostCause p = some c) : c < 16 := by
  unfold State.ostCause at h
  dsimp only at h
  repeat' split at h
  all_goals cases h
  all_goals decide

/-! ### The enable (R200) -/

/-- The pool enabled, its sizes not shown yet. -/
def State.poolUp (s : State) (p : Nat) : State := (s.setFld OST_STATUS_ENABLED p 1).setFld OST_CTRL_ENABLE p 1

theorem ostEnable_accepts {p : Nat} (hoff : s.kvOn p = false) (hc : s.ostCause p = none) :
    ostEnable s p = ((s.poolUp p).showSizes p).refreshPool p := by
  unfold ostEnable
  rw [if_neg (Bool.eq_false_iff.1 hoff), hc]
  rfl

theorem ostEnable_refuses {p c : Nat} (hoff : s.kvOn p = false) (hc : s.ostCause p = some c) :
    ostEnable s p = s.ostErr p c := by
  unfold ostEnable
  rw [if_neg (Bool.eq_false_iff.1 hoff), hc]

/-- The enable leaves the configuration. -/
theorem State.kvCfg_poolUp (s : State) {p : Nat} (hp : p < 1048576) :
    (s.poolUp p).reg OST_KV_CFG p = s.reg OST_KV_CFG p := by
  unfold State.poolUp
  rw [State.reg_setFld_off _ _ hp hp (by decide), State.reg_setFld_off _ _ hp hp (by decide)]

theorem State.pageBytes_poolUp (s : State) {p : Nat} (hp : p < 1048576) :
    (s.poolUp p).pageBytes p = s.pageBytes p := by
  simp only [State.pageBytes, State.kvFormat, State.kvD, State.kvGroups, State.fld, s.kvCfg_poolUp hp]

theorem State.mangerBytes_poolUp (s : State) {p : Nat} (hp : p < 1048576) :
    (s.poolUp p).mangerBytes p = s.mangerBytes p := by
  simp only [State.mangerBytes, State.kvFormat, State.kvD, State.kvGroups, State.fld, s.kvCfg_poolUp hp]

/-- The sizes that the configuration gives are shown, to their 32 bits. -/
theorem State.showSizes_shows (s : State) {p : Nat} (hp : p < 1048576) :
    (s.showSizes p).fld OST_PAGE_BYTES_BYTES p = s.pageBytes p % 2 ^ 32 ∧
      (s.showSizes p).fld OST_MANGER_BYTES_BYTES p = s.mangerBytes p % 2 ^ 32 :=
  ⟨(State.fld_setFld_off _ _ hp hp (.inl (by decide))).trans (s.fld_setFld_same OST_PAGE_BYTES_BYTES p _ (by decide)),
    State.fld_setFld_same _ OST_MANGER_BYTES_BYTES p _ (by decide)⟩

/-- The pool that an accepted enable leaves: ENABLED, with its sizes shown. -/
theorem ostEnable_shows {p : Nat} (hp : p < 1048576) (hoff : s.kvOn p = false) (hc : s.ostCause p = none) :
    (ostEnable s p).kvOn p = true ∧ (ostEnable s p).fld OST_PAGE_BYTES_BYTES p = s.pageBytes p ∧
      (ostEnable s p).fld OST_MANGER_BYTES_BYTES p = s.mangerBytes p := by
  rw [ostEnable_accepts hoff hc]
  obtain ⟨hpage, hmanger⟩ := (s.poolUp p).showSizes_shows hp
  refine ⟨?_, ?_, ?_⟩
  · rw [State.kvOn_refreshPool _ hp, State.showSizes, State.kvOn_setFld_off _ _ hp (by decide),
      State.kvOn_setFld_off _ _ hp (by decide), State.poolUp, State.kvOn_setFld_off _ _ hp (by decide)]
    exact s.kvOn_setFld_enabled p true
  · rw [State.fld_refreshPool_off _ hp hp (by decide), hpage, s.pageBytes_poolUp hp,
      Nat.mod_eq_of_lt (State.pageBytes_lt hc)]
  · rw [State.fld_refreshPool_off _ hp hp (by decide), hmanger, s.mangerBytes_poolUp hp,
      Nat.mod_eq_of_lt (State.mangerBytes_lt hc)]

/-- An accepted enable writes registers only. -/
theorem ostEnable_keeps {α : Type} (π : State → α) (hf : ∀ (s : State) f i x, π (s.setFld f i x) = π s) {p : Nat}
    (hoff : s.kvOn p = false) (hc : s.ostCause p = none) : π (ostEnable s p) = π s := by
  rw [ostEnable_accepts hoff hc, State.refreshPool_keeps _ π hf, State.showSizes, hf, hf, State.poolUp, hf, hf]

/-! ### The disable (R200, R223) -/

theorem ostDisable_accepts {p : Nat} (hon : s.kvOn p = true) (ho : s.openStreams p = []) :
    ostDisable s p = s.poolOff p := by
  simp [ostDisable, hon, ho]

theorem ostDisable_refuses {p : Nat} (hon : s.kvOn p = true) (ho : s.openStreams p ≠ []) :
    ostDisable s p = s.ostErr p 8 := by
  simp [ostDisable, hon, ho]

theorem State.kvOn_poolOff (s : State) {p : Nat} (hp : p < 1048576) : (s.poolOff p).kvOn p = false :=
  (State.kvOn_setFld_off _ _ hp (by decide)).trans (State.kvOn_setFld_enabled _ p false)

/-- A disable writes registers and the pool's nodes and references; nothing else changes. -/
theorem State.poolOff_keeps {α : Type} (π : State → α) (hf : ∀ (s : State) f i x, π (s.setFld f i x) = π s)
    (hk : ∀ (s : State) k, π { s with kv := k } = π s) (s : State) (p : Nat) : π (s.poolOff p) = π s := by
  unfold State.poolOff
  dsimp only
  rw [hf, hf, State.refreshPool_keeps _ π hf, hk]

/-- A pool that is disabled has no node. -/
theorem State.nodesOf_poolOff (s : State) (p : Nat) : (s.poolOff p).nodesOf p = [] := by
  have hnodes : (s.poolOff p).kv.nodes = tabDrop s.kv.nodes fun k => k / 2 ^ 24 == p := by
    unfold State.poolOff
    dsimp only
    rw [State.kv_setFld, State.kv_setFld, State.kv_refreshPool]
  simp [State.nodesOf, hnodes, tabDrop]

/-! ### A frame count (R201) -/

/-- The register of a frame count: of the host reserve, or of the pool's GDDR. -/
def framesField (host : Bool) : Field := if host then OST_HOST_FRAMES_COUNT else OST_POOL_FRAMES_COUNT

section

variable {p fn : Nat} {host : Bool} {val : Word}

/-- A pool without a stalled stream retries none. -/
theorem State.retryStalls_of_none (h : ∀ x ∈ s.kv.stalls, x.1 ≠ p) : s.retryStalls p = s := by
  have hnil : s.kv.stalls.filter (·.1 == p) = [] := List.filter_eq_nil_iff.2 fun x hx => by simpa using h x hx
  rw [State.retryStalls, hnil, List.foldl_nil]

theorem poolFramesWrite_off (hfn : fn = p + 1) (hoff : s.kvOn p = false) :
    poolFramesWrite s fn host val = s.setFld (framesField host) p (getBits val 0 23) := by
  subst hfn
  simp [poolFramesWrite, framesField, hoff]

theorem poolFramesWrite_refuses (hfn : fn = p + 1) (hon : s.kvOn p = true)
    (h : getBits val 0 23 < s.fld (framesField host) p ∨
      (s.setFld (framesField host) p (getBits val 0 23)).overQuota p = true ∨
      (s.setFld (framesField host) p (getBits val 0 23)).regionsBad p = true) :
    poolFramesWrite s fn host val = s.ostErr p 8 := by
  subst hfn
  unfold framesField at h
  simp only [poolFramesWrite, Nat.add_one_ne_zero, if_false, Nat.add_sub_cancel, hon, Bool.not_true,
    Bool.false_eq_true, if_pos h]

theorem poolFramesWrite_adds (hfn : fn = p + 1) (hon : s.kvOn p = true)
    (hn : s.fld (framesField host) p ≤ getBits val 0 23)
    (hq : (s.setFld (framesField host) p (getBits val 0 23)).overQuota p = false)
    (hr : (s.setFld (framesField host) p (getBits val 0 23)).regionsBad p = false)
    (hs : ∀ x ∈ s.kv.stalls, x.1 ≠ p) :
    poolFramesWrite s fn host val = (s.setFld (framesField host) p (getBits val 0 23)).refreshPool p := by
  subst hfn
  unfold framesField at hn hq hr
  simp only [poolFramesWrite, Nat.add_one_ne_zero, if_false, Nat.add_sub_cancel, hon, Bool.not_true,
    Bool.false_eq_true, hq, hr, or_false, if_neg (Nat.not_lt.2 hn)]
  exact State.retryStalls_of_none (by rwa [State.kv_refreshPool, State.kv_setFld])

/-- A frame count that is stored reads as its 23 bits. -/
theorem State.fld_setFrames (s : State) (p : Nat) (host : Bool) (val : Word) :
    (s.setFld (framesField host) p (getBits val 0 23)).fld (framesField host) p = getBits val 0 23 := by
  have hw : (framesField host).lo + (framesField host).w ≤ 32 ∧ (framesField host).w = 23 := by
    cases host <;> decide
  rw [s.fld_setFld_same _ p _ hw.1, hw.2]
  exact Nat.mod_eq_of_lt (getBits_lt val 0 23)

/-- A frame count stands apart from the registers that a refusal or the pool's view writes. -/
theorem framesField_off (host : Bool) : (framesField host).off ≠ OST_STATUS ∧
    (framesField host).off ≠ OST_SETUP_ERR_CODE ∧ (framesField host).off ∉ poolViewRegs := by
  cases host <;> decide

end

/-! ### The commands -/

section

variable {fn : Fn} {p : Nat} {val : Word}

theorem exec_ostEnable (hfn : (fn : Nat) = p + 1) (hl : s.fnLive fn = true) (hv : bitOf val 0 = true) :
    exec (.ostEnable fn val) s = .next (ostEnable s p) := by
  simp only [exec, execOstEnable, whenLive, ostCtrlWrite, hl, hv, if_true]
  rw [if_neg (by omega), hfn, Nat.add_sub_cancel]

theorem exec_ostDisable (hfn : (fn : Nat) = p + 1) (hl : s.fnLive fn = true) (hv : bitOf val 0 = false) :
    exec (.ostDisable fn val) s = .next (ostDisable s p) := by
  simp only [exec, execOstDisable, whenLive, ostCtrlWrite, hl, hv, if_true, Bool.false_eq_true, if_false]
  rw [if_neg (by omega), hfn, Nat.add_sub_cancel]

theorem exec_poolFramesWrite {host : Bool} (hl : s.fnLive fn = true) :
    exec (.poolFramesWrite fn host val) s = .next (poolFramesWrite s fn host val) := by
  simp [exec, execPoolFramesWrite, whenLive, hl]

end

/-- Settles O28: each write of a pool's registers by what it stores, or by its refusal. -/
theorem poolRegisters : Obligations.PoolRegisters := by
  unfold Obligations.PoolRegisters
  intro p fn val s hfn hl
  have hp : (p : Nat) < 1048576 := by have := p.isLt; omega
  refine ⟨fun hv hoff => ⟨fun hc => ?_, fun c hc => ?_⟩, fun hv hon => ⟨fun ho => ?_, fun ho => ?_⟩, fun host =>
    ⟨fun hoff => ?_, fun hon h => ?_, fun hon hn hq hr hs => ?_⟩⟩
  · obtain ⟨hon, hpage, hmanger⟩ := ostEnable_shows hp hoff hc
    exact ⟨_, exec_ostEnable hfn hl hv, hon, hpage, hmanger, ostEnable_keeps (·.kv) State.kv_setFld hoff hc,
      ostEnable_keeps (·.mem) State.mem_setFld hoff hc, ostEnable_keeps (·.host) State.host_setFld hoff hc⟩
  · exact ⟨_, (exec_ostEnable hfn hl hv).trans (congrArg _ (ostEnable_refuses hoff hc)),
      s.poolRefused_ostErr hp (State.ostCause_lt hc)⟩
  · exact ⟨_, (exec_ostDisable hfn hl hv).trans (congrArg _ (ostDisable_accepts hon ho)), s.kvOn_poolOff hp,
      s.nodesOf_poolOff p, State.poolOff_keeps (·.mem) State.mem_setFld (fun _ _ => rfl) s p,
      State.poolOff_keeps (·.host) State.host_setFld (fun _ _ => rfl) s p⟩
  · exact ⟨_, (exec_ostDisable hfn hl hv).trans (congrArg _ (ostDisable_refuses hon ho)),
      s.poolRefused_ostErr hp (by decide)⟩
  · exact ⟨_, (exec_poolFramesWrite hl).trans (congrArg _ (poolFramesWrite_off hfn hoff)),
      s.fld_setFrames p host val, s.kv_setFld ..⟩
  · obtain ⟨hst, hcode, -⟩ := framesField_off host
    exact ⟨_, (exec_poolFramesWrite hl).trans (congrArg _ (poolFramesWrite_refuses hfn hon h)),
      s.fld_ostErr_off hp hp hst hcode, s.poolRefused_ostErr hp (by decide)⟩
  · obtain ⟨hst, -, hview⟩ := framesField_off host
    exact ⟨_, (exec_poolFramesWrite hl).trans (congrArg _ (poolFramesWrite_adds hfn hon hn hq hr hs)),
      (State.fld_refreshPool_off _ hp hp hview).trans (s.fld_setFrames p host val),
      (State.kv_refreshPool ..).trans (s.kv_setFld ..),
      (State.kvOn_refreshPool _ hp).trans ((s.kvOn_setFld_off _ hp hst).trans hon)⟩

end Sys2Proof.Machine

namespace Sys2Proof.Machine

/-! ## The owner's quotas (R233) -/

/-- A sum over every number but one is the sum over every number with that one's term left out. -/
theorem foldl_ne_eq_sum_others {n : Nat} (g : Nat → Nat) (p : Fin n) :
    ((List.range n).filter (· != (p : Nat))).foldl (fun m k => m + g k) 0 =
      ((List.finRange n).map fun k => if k = p then 0 else g k).sum := by
  have hsum : ∀ l : List (Fin n), ∀ m, ((l.map Fin.val).filter (· != (p : Nat))).foldl (fun m k => m + g k) m =
      m + (l.map fun k => if k = p then 0 else g k).sum := by
    intro l
    induction l with
    | nil => simp
    | cons k l ih =>
      intro m
      by_cases hk : k = p
      · simp [hk, ih]
      · simp [hk, Fin.val_ne_of_ne hk, ih, Nat.add_assoc]
  rw [← List.map_coe_finRange_eq_range, hsum, Nat.zero_add]

section

variable (s : State)

/-- A value stored in a field is read back, and no other register changes. -/
theorem State.setFld_stores {f : Field} {x : Nat} (h : f.lo + f.w ≤ 32) (hx : x < 2 ^ f.w) :
    (s.setFld f 0 x).fld f = x ∧ ∀ o j, regKey f.off 0 ≠ regKey o j → (s.setFld f 0 x).reg o j = s.reg o j :=
  ⟨(s.fld_setFld_same f 0 x h).trans (Nat.mod_eq_of_lt hx), fun _ _ ho => s.reg_setFld_ne x ho⟩

/-- A refused quota sets QUOTA_ERR, and no other register changes. -/
theorem State.quotaErr_sets (p : Part) :
    (s.setFld (OST_PART_STATUS_QUOTA_ERR p) 0 1).flag (OST_PART_STATUS_QUOTA_ERR p) = true ∧
      ∀ o j, regKey (OST_PART_STATUS_QUOTA_ERR p).off 0 ≠ regKey o j →
        (s.setFld (OST_PART_STATUS_QUOTA_ERR p) 0 1).reg o j = s.reg o j :=
  ⟨s.flag_setFld_same 0 true (show 0 + 1 ≤ 32 by decide) rfl, fun _ _ ho => s.reg_setFld_ne 1 ho⟩

/-- The frame quotas of the other partitions. -/
def State.otherFrames (p : Part) : Nat :=
  ((List.finRange 32).map fun k : Part => if k = p then 0 else s.fld (OST_PART_FRAMES_QUOTA k)).sum

/-- The node quotas of the other partitions. -/
def State.otherNodes (p : Part) : Nat :=
  ((List.finRange 32).map fun k : Part => if k = p then 0 else s.fld (PED_PART_NODES_QUOTA k)).sum

/-- The frames that an enabled pool has. -/
def State.usedFrames (p : Nat) : Nat :=
  if s.kvOn p then s.fld OST_POOL_FRAMES_COUNT p + s.fld OST_HOST_FRAMES_COUNT p else 0

theorem partFramesWrite_eq (p : Part) (val : Word) :
    partFramesWrite s p val =
      if 4194304 < s.otherFrames p + getBits val 0 23 ∨ getBits val 0 23 < s.usedFrames p then
        s.setFld (OST_PART_STATUS_QUOTA_ERR p) 0 1
      else s.setFld (OST_PART_FRAMES_QUOTA p) 0 (getBits val 0 23) := by
  rw [State.otherFrames, ← foldl_ne_eq_sum_others fun k => s.fld (OST_PART_FRAMES_QUOTA k)]
  rfl

theorem partNodesWrite_eq (p : Part) (val : Word) :
    partNodesWrite s p val =
      if 1048576 < s.otherNodes p + getBits val 0 21 then s.setFld (OST_PART_STATUS_QUOTA_ERR p) 0 1
      else s.setFld (PED_PART_NODES_QUOTA p) 0 (getBits val 0 21) := by
  rw [State.otherNodes, ← foldl_ne_eq_sum_others fun k => s.fld (PED_PART_NODES_QUOTA k)]
  rfl

end

end Sys2Proof.Machine

namespace Sys2Proof.Machine

/-! ## Pedigree keys (R226, R233) -/

/-! ### A partition's nodes are dropped -/

section

variable (s : State)

/-- A page whose node goes changes in memory alone. -/
theorem State.kv_unmarkPage (p f : Nat) : (s.unmarkPage p f).kv = s.kv :=
  (Frame.unmarkPage (F := [.hostMem, .gddr, .scratch, .loft]) (.refl s)).same .kv rfl

theorem State.nodes_dropNode (p id : Nat) :
    (s.dropNode p id).kv.nodes = tabDel s.kv.nodes (p * 2 ^ 24 + id) := by
  unfold State.dropNode
  split
  · dsimp only
    rw [State.kv_unmarkPage]
  · rfl

theorem State.keys_dropNode (p id : Nat) : (s.dropNode p id).kv.keys = s.kv.keys := by
  unfold State.dropNode
  split
  · dsimp only
    rw [State.kv_unmarkPage]
  · rfl

/-- The nodes that stay when those of a list are dropped. -/
theorem State.mem_nodes_dropList {p : Nat} {e : Nat × PedNode} (l : List (Nat × PedNode))
    (h : e ∈ (l.foldl (fun (s : State) n => s.dropNode p n.1) s).kv.nodes) :
    e ∈ s.kv.nodes ∧ ∀ n ∈ l, e.1 ≠ p * 2 ^ 24 + n.1 := by
  induction l generalizing s with
  | nil => exact ⟨h, fun _ hn => absurd hn List.not_mem_nil⟩
  | cons n l ih =>
    obtain ⟨hmem, hne⟩ := ih (s.dropNode p n.1) h
    rw [State.nodes_dropNode] at hmem
    obtain ⟨hs, hn⟩ := List.mem_filter.1 hmem
    exact ⟨hs, List.forall_mem_cons.2 ⟨by simpa using hn, hne⟩⟩

theorem State.keys_dropList (p : Nat) (l : List (Nat × PedNode)) :
    (l.foldl (fun (s : State) n => s.dropNode p n.1) s).kv.keys = s.kv.keys := by
  induction l generalizing s with
  | nil => rfl
  | cons n l ih => rw [List.foldl_cons, ih, State.keys_dropNode]

theorem State.keys_dropNodes (p : Nat) : (s.dropNodes p).kv.keys = s.kv.keys := by
  rw [State.dropNodes, State.kv_refreshPool, State.keys_dropList]

/-- A node's key is its partition's base and its identifier, so none of the partition's stays. -/
theorem State.nodesOf_dropNodes (p : Nat) : (s.dropNodes p).nodesOf p = [] := by
  rw [State.nodesOf, State.dropNodes, State.kv_refreshPool, List.map_eq_nil_iff, List.filter_eq_nil_iff]
  intro e he hp
  obtain ⟨hs, hne⟩ := s.mem_nodes_dropList (s.nodesOf p) he
  have hnode : (e.1 % 2 ^ 24, e.2) ∈ s.nodesOf p := List.mem_map.2 ⟨e, List.mem_filter.2 ⟨hs, hp⟩, rfl⟩
  have hkey : e.1 / 2 ^ 24 = p := beq_iff_eq.1 hp
  exact hne _ hnode (by dsimp only; omega)

end

/-! ### The words of a key -/

section

variable {s : State} {p w : Nat} {val : Word}

/-- A word of a partition's key is held. -/
def State.holdWord (s : State) (p w : Nat) (val : Word) : State :=
  { s with kv := { s.kv with keyWords := tabPut s.kv.keyWords (p * 4 + w) val } }

/-- The key of a partition's four held words, the first lowest. -/
def State.heldKey (s : State) (p : Nat) : Nat :=
  (List.range 4).foldl (fun n k => n + (tabGet 0 s.kv.keyWords (p * 4 + k)).toNat * 2 ^ (32 * k)) 0

/-- The held words of a partition's key become its key. -/
def State.commitKey (s : State) (p : Nat) : State :=
  { s with kv := { s.kv with keys := tabPut s.kv.keys p (s.heldKey p) } }

theorem pedKeyWrite_isolated (hi : s.isolated = true) : pedKeyWrite s p w val = s := if_pos hi

theorem pedKeyWrite_holds (hi : s.isolated = false) (hw : w ≠ 3) : pedKeyWrite s p w val = s.holdWord p w val := by
  unfold pedKeyWrite
  rw [if_neg (Bool.eq_false_iff.1 hi)]
  exact if_pos hw

theorem pedKeyWrite_commits (hi : s.isolated = false) :
    pedKeyWrite s p 3 val = ((s.holdWord p 3 val).commitKey p).dropNodes p := by
  unfold pedKeyWrite
  rw [if_neg (Bool.eq_false_iff.1 hi)]
  exact if_neg (not_not.2 rfl)

/-- A held word is found under its number. -/
theorem State.keyWords_holdWord (s : State) (p w k : Nat) (val : Word) :
    tabFind (s.holdWord p w val).kv.keyWords (p * 4 + k) =
      if w = k then some val else tabFind s.kv.keyWords (p * 4 + k) := by
  simp [State.holdWord, tabFind_tabPut]

/-- Word 3 of the key is the one written, the others are those held before. -/
theorem State.heldKey_holdWord (s : State) (p : Nat) (val : Word) :
    (s.holdWord p 3 val).heldKey p = (tabGet 0 s.kv.keyWords (p * 4 + 0)).toNat +
      2 ^ 32 * (tabGet 0 s.kv.keyWords (p * 4 + 1)).toNat + 2 ^ 64 * (tabGet 0 s.kv.keyWords (p * 4 + 2)).toNat +
      2 ^ 96 * val.toNat := by
  have hlist : List.range 4 = [0, 1, 2, 3] := rfl
  have hlow : ∀ k ≠ 3, tabGet 0 (s.holdWord p 3 val).kv.keyWords (p * 4 + k) = tabGet 0 s.kv.keyWords (p * 4 + k) :=
    fun k hk => by rw [tabGet, State.keyWords_holdWord, if_neg hk.symm, tabGet]
  have hlast : tabGet 0 (s.holdWord p 3 val).kv.keyWords (p * 4 + 3) = val := by
    rw [tabGet, State.keyWords_holdWord, if_pos rfl, Option.getD_some]
  rw [State.heldKey, hlist, List.foldl_cons, List.foldl_cons, List.foldl_cons, List.foldl_cons, List.foldl_nil,
    hlow 0 (by decide), hlow 1 (by decide), hlow 2 (by decide), hlast]
  ring

end

/-- Settles O29: a quota by its bound, a key's word by isolation and by its number. -/
theorem ownerQuotasAndPedigreeKeys : Obligations.OwnerQuotasAndPedigreeKeys := by
  unfold Obligations.OwnerQuotasAndPedigreeKeys
  intro p val s
  refine ⟨⟨fun hsum hused => ?_, fun h => ?_⟩, ⟨fun hsum => ?_, fun h => ?_⟩, fun w =>
    ⟨fun hi => congrArg Host.Outcome.next (pedKeyWrite_isolated hi), fun hi hw => ?_, fun hi hw => ?_⟩⟩
  · exact ⟨_, congrArg Host.Outcome.next ((partFramesWrite_eq s p val).trans
      (if_neg (not_or.2 ⟨Nat.not_lt.2 hsum, Nat.not_lt.2 hused⟩))),
      s.setFld_stores (show 0 + 23 ≤ 32 by decide) (getBits_lt val 0 23)⟩
  · exact ⟨_, congrArg Host.Outcome.next ((partFramesWrite_eq s p val).trans (if_pos h)), s.quotaErr_sets p⟩
  · exact ⟨_, congrArg Host.Outcome.next ((partNodesWrite_eq s p val).trans (if_neg (Nat.not_lt.2 hsum))),
      s.setFld_stores (show 0 + 21 ≤ 32 by decide) (getBits_lt val 0 21)⟩
  · exact ⟨_, congrArg Host.Outcome.next ((partNodesWrite_eq s p val).trans (if_pos h)), s.quotaErr_sets p⟩
  · exact ⟨_, congrArg Host.Outcome.next (pedKeyWrite_holds hi hw), rfl,
      (s.keyWords_holdWord p w w val).trans (if_pos rfl), rfl, rfl⟩
  · obtain rfl : w = 3 := Fin.ext hw
    refine ⟨_, congrArg Host.Outcome.next (pedKeyWrite_commits hi), State.nodesOf_dropNodes _ p, ?_⟩
    rw [State.keys_dropNodes, State.commitKey, tabFind_tabPut, if_pos rfl, State.heldKey_holdWord]

end Sys2Proof.Machine

namespace Sys2Proof.Machine

variable {s t : State}

/-! ## Transfers: where a tensor lies (R288, R401) -/

/-- A partition has the same channels where the PRT registers read the same. -/
theorem SamePrt.channelsOf (h : SamePrt s t) (p : Part) : t.channelsOf p = s.channelsOf p := by
  have hp := p.isLt
  have hs : t.reg (0x400104 + 0x40 * p) = s.reg (0x400104 + 0x40 * p) := h.reg _ (by omega) (by omega)
  have hc : t.reg (0x40010C + 0x40 * p) = s.reg (0x40010C + 0x40 * p) := h.reg _ (by omega) (by omega)
  simp [State.channelsOf, State.hasChannel, State.prtState, State.fld, hs, hc]

/-- A partition has the same clusters where the PRT registers read the same. -/
theorem SamePrt.hasCluster (h : SamePrt s t) (p : Part) (c : Nat) : t.hasCluster p c = s.hasCluster p c := by
  have hp := p.isLt
  have hs : t.reg (0x400104 + 0x40 * p) = s.reg (0x400104 + 0x40 * p) := h.reg _ (by omega) (by omega)
  have hc : t.reg (0x400108 + 0x40 * p) = s.reg (0x400108 + 0x40 * p) := h.reg _ (by omega) (by omega)
  simp [State.hasCluster, State.prtState, State.fld, hs, hc]

/-- A partition's address names the same place where the PRT registers read the same. -/
theorem SamePrt.place (h : SamePrt s t) (p : Part) (addr n : Nat) :
    t.place (p + 1) addr n = s.place (p + 1) addr n := by
  have hp := p.isLt
  have hl : t.reg (0x400114 + 0x40 * p) = s.reg (0x400114 + 0x40 * p) := h.reg _ (by omega) (by omega)
  have hsize : t.gddrSize (p + 1) = s.gddrSize (p + 1) := by
    simp [State.gddrSize, State.fld, hl, h.channelsOf p]
  have hcore : ∀ c, t.reachesCore (p + 1) c = s.reachesCore (p + 1) c := fun c => by
    simp [State.reachesCore, h.hasCluster p]
  simp only [State.place, hsize, hcore]

/-- Requests of a partition meet the same resets where PRT, the channels' states and the clusters in reset read the
same. -/
theorem SamePrt.placeDown (h : SamePrt s t) (hg : ∀ n, t.reg GDR_STATUS n = s.reg GDR_STATUS n)
    (hb : t.reg BOOT_INRESET_CLU = s.reg BOOT_INRESET_CLU) (p : Part) (pl : Place) (n : Nat) :
    t.placeDown (p + 1) pl n = s.placeDown (p + 1) pl n := by
  cases pl with
  | host a => rfl
  | gddr o =>
    simp only [State.placeDown, State.gddrDown, State.chanDown, State.flag, State.fld, State.channelOf,
      State.ownerChans, State.clusterDown, State.homeOf, State.clustersOf, Nat.add_sub_cancel, hg, hb, h.channelsOf p,
      h.hasCluster p]
  | scratch c o => simp only [State.placeDown, State.clusterDown, hb]

theorem State.tensorAddr_congr (h : t.yard = s.yard) (p id : Nat) : t.tensorAddr p id = s.tensorAddr p id := by
  simp only [State.tensorAddr, State.stepOf, State.planOf, h]

/-- An update of a step that leaves its arguments and its plan leaves where its tensors are. -/
theorem State.tensorAddr_updStep (s : State) (p id : Nat) {f : Step → Step} (ha : ∀ st, (f st).args = st.args)
    (hp : ∀ st, (f st).plan = st.plan) : (s.updStep p f).tensorAddr p id = s.tensorAddr p id := by
  cases h : s.stepOf p with
  | none => rw [State.updStep, h]
  | some st =>
    have hpl : (s.updStep p f).planOf p (f st).plan = s.planOf p st.plan := by
      rw [hp, State.updStep, h]
      rfl
    simp only [State.tensorAddr, State.stepOf_updStep_same f h, h, ha, hpl]

theorem SamePrt.tensorPlace (h : SamePrt s t) {p : Part} {id : Nat} (ha : t.tensorAddr p id = s.tensorAddr p id)
    (off n : Nat) : t.tensorPlace p id off n = s.tensorPlace p id off n := by
  simp only [State.tensorPlace, ha, h.place p]

/-! ## Transfers: the parts of sending one (R359, R360) -/

/-- A sending after its beat is counted. -/
def State.countLate (s : State) (late : Bool) : State := if late then s.bump YTM_SLOT_LATE_COUNT 0 else s

section

variable (s : State) (late : Bool)

/-- What a counter leaves, the late count leaves. -/
theorem State.countLate_keeps {α : Type} (π : State → α) (hb : ∀ f i n, π (s.bump f i n) = π s) :
    π (s.countLate late) = π s := by
  unfold State.countLate
  split
  · exact hb ..
  · rfl

theorem State.yard_countLate : (s.countLate late).yard = s.yard := s.countLate_keeps late (·.yard) s.yard_bump

theorem State.reg_countLate {o j : Nat} (h : regKey YTM_SLOT_LATE 0 ≠ regKey o j) :
    (s.countLate late).reg o j = s.reg o j := by
  unfold State.countLate
  split
  · exact s.reg_bump_ne 1 h
  · rfl

theorem State.countLate_samePrt : SamePrt s (s.countLate late) :=
  .ite (s.bump_samePrt 0 1 (by decide)) (.refl s)

theorem State.tensorPlace_countLate (p : Part) (id off n : Nat) :
    (s.countLate late).tensorPlace p id off n = s.tensorPlace p id off n :=
  (s.countLate_samePrt late).tensorPlace (State.tensorAddr_congr (s.yard_countLate late) p id) off n

theorem State.badAt_countLate (fn : Nat) (pl : Place) (n : Nat) :
    (s.countLate late).badAt fn pl n = s.badAt fn pl n :=
  s.countLate_keeps late (·.badAt fn pl n) fun _ _ _ => by cases pl <;> rfl

theorem State.transferBytes_countLate (p : Part) (x : Transfer) (sl : Slot) :
    (s.countLate late).transferBytes p x sl = s.transferBytes p x sl := by
  have hdown : ∀ pl n, (s.countLate late).placeDown (p + 1) pl n = s.placeDown (p + 1) pl n :=
    (s.countLate_samePrt late).placeDown
      (fun n => s.reg_countLate late (show 0x500038 * 1048576 + 0 ≠ 0x800004 * 1048576 + n by omega))
      (s.reg_countLate late (by decide)) p
  have hlost : ∀ pl n, (s.countLate late).lostAt p pl n = s.lostAt p pl n := fun pl n => by
    rw [State.lostAt, State.stepOf_congr (s.yard_countLate late), State.lostAt]
  have hread : ∀ pl n, (s.countLate late).readAt (p + 1) pl n = s.readAt (p + 1) pl n := fun pl n =>
    s.countLate_keeps late (·.readAt (p + 1) pl n) fun _ _ _ => by cases pl <;> rfl
  simp only [State.transferBytes, s.tensorPlace_countLate late p, hdown, hlost, hread]

end

/-- Where a transfer that serves no pipe and moves bytes reads them. -/
def State.sourcePlace (s : State) (p : Nat) (x : Transfer) (sl : Slot) : Option Place :=
  if x.bale.isNone && sl.length != 0 then s.tensorPlace p sl.subject sl.srcOffset sl.length else none

/-- A transfer's source passes the home Lofts, and what is uncorrectable in it is a fault of the step. -/
def State.takeSource (s : State) (p : Nat) (x : Transfer) (sl : Slot) : State :=
  match s.sourcePlace p x sl with
  | some at_ =>
    if s.badAt (p + 1) at_ sl.length then
      (s.touch (p + 1) at_ sl.length).stepFault p (s.badCode (p + 1) at_ sl.length)
    else s.touch (p + 1) at_ sl.length
  | none => s

/-- The bytes of a transfer as they go out: poisoned bales where the source is uncorrectable and no WORDS. -/
def State.sourceBytes (s : State) (p : Nat) (x : Transfer) (sl : Slot) (words : Bool) (bs : List Byte) : List Byte :=
  match s.sourcePlace p x sl with
  | some at_ => if s.badAt (p + 1) at_ sl.length && !words then poisonBales bs else bs
  | none => bs

/-- The source of a transfer is read and holds uncorrectable data. -/
def State.sourceBad (s : State) (p : Nat) (x : Transfer) (sl : Slot) : Prop :=
  ∃ at_, s.sourcePlace p x sl = some at_ ∧ s.badAt (p + 1) at_ sl.length = true

theorem State.sourceBad_iff {p : Nat} {x : Transfer} {sl : Slot} : s.sourceBad p x sl ↔
    (x.bale = none ∧ sl.length ≠ 0) ∧ ∃ at_, s.tensorPlace p sl.subject sl.srcOffset sl.length = some at_ ∧
      s.badAt (p + 1) at_ sl.length = true := by
  unfold State.sourceBad State.sourcePlace
  split <;> simp_all

theorem State.sourceBad_countLate (s : State) (late : Bool) (p : Part) (x : Transfer) (sl : Slot) :
    (s.countLate late).sourceBad p x sl ↔ s.sourceBad p x sl := by
  simp only [State.sourceBad, State.sourcePlace, s.tensorPlace_countLate late p, State.badAt_countLate]

theorem State.sourceBytes_of_not_bad {p : Nat} {x : Transfer} {sl : Slot} (h : ¬s.sourceBad p x sl) (words : Bool)
    (bs : List Byte) : s.sourceBytes p x sl words bs = bs := by
  unfold State.sourceBytes
  split
  · next at_ hat =>
    have hgood : s.badAt (p + 1) at_ sl.length = false := Bool.eq_false_iff.2 fun hb => h ⟨at_, hat, hb⟩
    simp [hgood]
  · rfl

theorem State.badCode_ne_zero (s : State) (fn : Nat) (pl : Place) (n : Nat) : s.badCode fn pl n ≠ 0 := by
  cases pl with
  | host a => exact (by decide : 8 ≠ 0)
  | gddr o =>
    unfold State.badCode
    dsimp only
    split <;> decide
  | scratch c o => exact (by decide : 15 ≠ 0)

theorem State.yard_touch (s : State) (fn : Nat) (pl : Place) (n : Nat) : (s.touch fn pl n).yard = s.yard :=
  Frame.yard_eq (F := [.loft]) (.touch (.refl s)) rfl

/-- A fault of the step leaves its transfers. -/
theorem State.transfers_stepFault {p code : Nat} {st u : Step} (h : s.stepOf p = some st)
    (hu : (s.stepFault p code).stepOf p = some u) : u.transfers = st.transfers := by
  rw [State.stepFault, State.stepOf_raise, State.stepCause, State.stepOf_updStep_same _ h] at hu
  cases hu
  split <;> rfl

/-- Once the source is read, the step has its transfers, and a cause of DATA_ERROR if the source is bad. -/
theorem State.stepOf_takeSource {p : Nat} {st : Step} (h : s.stepOf p = some st) (x : Transfer) (sl : Slot) :
    ∃ u, (s.takeSource p x sl).stepOf p = some u ∧ u.transfers = st.transfers ∧
      (s.sourceBad p x sl → u.cause ≠ 0) := by
  unfold State.takeSource State.sourceBad
  split
  · next at_ hat =>
    have htouch : (s.touch (p + 1) at_ sl.length).stepOf p = some st :=
      (State.stepOf_congr (s.yard_touch ..) p).trans h
    split
    · obtain ⟨u, hu, hc⟩ := State.stepOf_stepFault htouch (s.badCode_ne_zero (p + 1) at_ sl.length)
      exact ⟨u, hu, State.transfers_stepFault htouch hu, fun _ => hc⟩
    · next hgood =>
      refine ⟨st, htouch, rfl, fun ⟨b, hb, hbad⟩ => ?_⟩
      obtain rfl : at_ = b := Option.some.inj (hat.symm.trans hb)
      exact absurd hbad hgood
  · next hat => exact ⟨st, h, rfl, fun ⟨b, hb, _⟩ => absurd (hat.symm.trans hb) nofun⟩

/-- Reading the source leaves the registers above the Bell and below those of GDDR and the Lofts. -/
theorem State.reg_takeSource (s : State) (p : Part) (x : Transfer) (sl : Slot) {o j : Nat} (hl : 0x200000 ≤ o)
    (hh : o < 0x800000) (hj : j < 1048576) : (s.takeSource p x sl).reg o j = s.reg o j := by
  unfold State.takeSource
  split
  · next at_ _ =>
    have htouch := (s.touch_loftStep (p + 1) at_ sl.length none).low.reg hh hj
    split
    · refine (State.reg_raise_off _ (by unfold bellInst; omega) hj hl).trans ?_
      exact (State.reg_congr (State.regs_updStep ..) o j).trans htouch
    · exact htouch
  · rfl

/-! ### The first link (R339, R341) -/

/-- The route to a module of this domain begins with a link that is down. -/
def State.firstLinkDown (s : State) (w : Nat) : Bool :=
  w / 8192 == s.ownAddr / 8192 && match nextLink s.dims (s.fld HLK_ADDR_RANK) (w % 8192) false with
    | some l => !s.flag HLK_STATUS_UP l
    | none => false

theorem State.firstLinkDown_eq_false {w : Nat} : s.firstLinkDown w = false ↔
    (w / 8192 = s.ownAddr / 8192 → ∀ l,
      nextLink s.dims (s.fld HLK_ADDR_RANK) (w % 8192) false = some l → s.flag HLK_STATUS_UP l = true) := by
  unfold State.firstLinkDown
  split <;> simp_all

/-- Links are numbered 0 to 11 (R20). -/
theorem nextLink_lt {dims : Nat × Nat × Nat} {r dest l : Nat} {odd : Bool} (h : nextLink dims r dest odd = some l) :
    l < 12 := by
  have hxor : rankP r ^^^ rankP dest < 2 ^ 2 :=
    Nat.xor_lt_two_pow (Nat.mod_lt _ (by decide)) (Nat.mod_lt _ (by decide))
  have hodd := odd.toNat_le
  unfold nextLink at h
  dsimp only at h
  split at h
  · cases h
    omega
  split at h
  · cases h
    split <;> decide
  split at h
  · cases h
    split <;> decide
  split at h
  · cases h
    split <;> decide
  · cases h

/-- A first link is as down as the registers of the links say. -/
theorem State.firstLinkDown_congr (h : ∀ o j, 0x600000 ≤ o → o < 0x800000 → j < 1048576 → t.reg o j = s.reg o j)
    (w : Nat) : t.firstLinkDown w = s.firstLinkDown w := by
  have haddr : t.reg HLK_ADDR = s.reg HLK_ADDR := h _ _ (by decide) (by decide) (by decide)
  have hdims : t.reg HLK_DIMS = s.reg HLK_DIMS := h _ _ (by decide) (by decide) (by decide)
  have hrank : t.fld HLK_ADDR_RANK = s.fld HLK_ADDR_RANK := congrArg (getBits · _ _) haddr
  have hd : t.dims = s.dims := by simp only [State.dims, State.fld, hdims]
  simp only [State.firstLinkDown, State.ownAddr, haddr, hrank, hd]
  cases hn : nextLink s.dims (s.fld HLK_ADDR_RANK) (w % 8192) false with
  | none => rfl
  | some l =>
    have hup : t.reg HLK_STATUS l = s.reg HLK_STATUS l :=
      h _ _ (by decide) (by decide) (lt_trans (nextLink_lt hn) (by decide))
    simp only [State.flag, State.fld, hup]

/-- The late count and the reading of a source leave the first links. -/
theorem State.firstLinkDown_takeSource (s : State) (late : Bool) (p : Part) (x : Transfer) (sl : Slot) (w : Nat) :
    ((s.countLate late).takeSource p x sl).firstLinkDown w = s.firstLinkDown w := by
  refine State.firstLinkDown_congr (fun o j hl hh hj => ?_) w
  rw [State.reg_takeSource _ p x sl (by omega) hh hj]
  exact s.reg_countLate late (show 0x500038 * 1048576 + 0 ≠ o * 1048576 + j by omega)

/-- A late sending is counted, and the reading of its source leaves the count. -/
theorem State.slotLate_takeSource (s : State) (p : Part) (x : Transfer) (sl : Slot) :
    ((s.countLate true).takeSource p x sl).fld YTM_SLOT_LATE_COUNT =
      min (s.fld YTM_SLOT_LATE_COUNT + 1) 0xFFFFFFFF := by
  have hreg := State.reg_takeSource (s.countLate true) p x sl (o := YTM_SLOT_LATE) (j := 0) (by decide) (by decide)
    (by decide)
  have hcount : (s.countLate true).fld YTM_SLOT_LATE_COUNT = min (s.fld YTM_SLOT_LATE_COUNT + 1) 0xFFFFFFFF :=
    s.fld_bump_same YTM_SLOT_LATE_COUNT 0 1 (by decide)
  exact (congrArg (getBits · 0 32) hreg).trans hcount

end Sys2Proof.Machine

namespace Sys2Proof.Machine

variable {s : State}

/-! ## Transfers that end without landing (R283, R339, R362) -/

/-- A transfer that is lost is the step's no more, and the step is owed TARGET_RESET or LINK_ERROR. -/
theorem State.stepOf_loseTransfer {p k : Nat} {st : Step} (h : s.stepOf p = some st)
    (hk : ∃ x ∈ st.transfers, x.slot = k) (reset : Bool) :
    ∃ u, (s.loseTransfer p k reset).stepOf p = some u ∧ u.transfers = st.transfers.filter (·.slot != k) ∧
      u.cause = st.cause ∧ (if reset then u.reset = true else u.link.isSome = true) := by
  have hany : st.transfers.any (·.slot == k) = true := by simpa using hk
  have hdrop := State.stepOf_updStep_same
    (fun st : Step => { st with transfers := st.transfers.filter (·.slot != k) }) h
  simp only [State.loseTransfer, h, hany, if_true]
  cases reset with
  | true => exact ⟨_, State.stepOf_updStep_same _ hdrop, rfl, rfl, rfl⟩
  | false =>
    refine ⟨_, State.stepOf_updStep_same _ hdrop, ?_⟩
    simp only [Bool.false_eq_true, if_false]
    split
    · exact ⟨rfl, rfl, ‹_›⟩
    · exact ⟨rfl, rfl, rfl⟩

/-- A slot without a transfer of the step loses none. -/
theorem State.loseTransfer_none {p k : Nat} {st : Step} (h : s.stepOf p = some st)
    (hk : st.transfers.find? (·.slot == k) = none) (reset : Bool) : s.loseTransfer p k reset = s := by
  have hany : st.transfers.any (·.slot == k) = false := by simpa using hk
  simp only [State.loseTransfer, h, hany, Bool.false_eq_true, if_false]

theorem State.regs_loseTransfer (s : State) (p k : Nat) (reset : Bool) :
    (s.loseTransfer p k reset).regs = s.regs := by
  have hdrop := s.regs_updStep p fun st : Step => { st with transfers := st.transfers.filter (·.slot != k) }
  unfold State.loseTransfer
  split
  · rfl
  split
  · split
    · exact (State.regs_updStep ..).trans hdrop
    · exact (State.regs_updStep ..).trans hdrop
  · rfl

theorem slot_ne_of_mem_filter {ts us : List Transfer} {k : Nat} (h : us = ts.filter (·.slot != k)) :
    ∀ x ∈ us, x.slot ≠ k := by
  rintro x hx rfl
  simp [h] at hx

/-! ## Transfers are sent (R253, R359, R360) -/

/-- A transfer of a slot does not go out yet: it has, its semaphore or its source is not ready, the module holds its
work for the input voltage, or an earlier one of the step is before it on its first link. -/
def State.sendHeld (s : State) (p : Nat) (pl : Plan) (st : Step) (k : Nat) (sl : Slot) (x : Transfer) : Bool :=
  x.sent || !x.semOk || ((pl.pipeOf kindPipeSend k).isSome && x.bale.isNone) || s.flag CLK_STATUS_VIN_WARN ||
    (x.bale.isNone && sl.length != 0 && s.fetching p sl.subject) || s.behind pl st k sl

theorem State.sendHeld_iff {p k : Nat} {pl : Plan} {st : Step} {sl : Slot} {x : Transfer} :
    s.sendHeld p pl st k sl x = true ↔ x.sent = true ∨ x.semOk = false ∨
      (pl.pipeOf kindPipeSend k).isSome = true ∧ x.bale = none ∨ s.flag CLK_STATUS_VIN_WARN = true ∨
      (x.bale = none ∧ sl.length ≠ 0) ∧ s.fetching p sl.subject = true ∨ s.behind pl st k sl = true := by
  simp [State.sendHeld, or_assoc]

/-- The transfer of a slot has its bytes and is on its way. -/
def Transfer.goOut (k : Nat) (late : Bool) (bs : List Byte) (x : Transfer) : Transfer :=
  if x.slot = k then { x with sent := true, late := late, bale := some bs } else x

theorem Transfer.goOut_sent {k : Nat} {late : Bool} {bs : List Byte} {ts : List Transfer} {x : Transfer}
    (hx : x ∈ ts.map (Transfer.goOut k late bs)) (hk : x.slot = k) : x.sent = true ∧ x.bale = some bs := by
  obtain ⟨y, -, rfl⟩ := List.mem_map.1 hx
  unfold Transfer.goOut at hk ⊢
  split
  · exact ⟨rfl, rfl⟩
  · next hy => exact absurd (by rwa [if_neg hy] at hk) hy

/-- The bytes of a transfer of a slot go out on its first link, or the transfer is lost where that is down. -/
def State.putOut (s : State) (p k w : Nat) (late : Bool) (bs : List Byte) : State :=
  if s.firstLinkDown w then s.loseTransfer p k false
  else s.updStep p fun st => { st with transfers := st.transfers.map (Transfer.goOut k late bs) }

theorem State.regs_putOut (s : State) (p k w : Nat) (late : Bool) (bs : List Byte) :
    (s.putOut p k w late bs).regs = s.regs := by
  unfold State.putOut
  split
  · exact s.regs_loseTransfer p k false
  · exact s.regs_updStep p _

theorem State.stepOf_putOut {p k w : Nat} {st : Step} (h : s.stepOf p = some st)
    (hk : ∃ x ∈ st.transfers, x.slot = k) (late : Bool) (bs : List Byte) :
    ∃ u, (s.putOut p k w late bs).stepOf p = some u ∧ u.cause = st.cause ∧
      (s.firstLinkDown w = false → ∀ x ∈ u.transfers, x.slot = k → x.sent = true ∧ x.bale = some bs) ∧
      (s.firstLinkDown w = true → u.link.isSome = true ∧ ∀ x ∈ u.transfers, x.slot ≠ k) := by
  unfold State.putOut
  cases s.firstLinkDown w with
  | true =>
    obtain ⟨u, hu, hts, hc, hl⟩ := State.stepOf_loseTransfer h hk false
    exact ⟨u, hu, hc, nofun, fun _ => ⟨hl, slot_ne_of_mem_filter hts⟩⟩
  | false =>
    exact ⟨_, State.stepOf_updStep_same _ h, rfl, fun _ x hx hk => Transfer.goOut_sent hx hk, nofun⟩

section

variable {p k : Nat} {st : Step} {pl : Plan} {sl : Slot} {x : Transfer}

theorem State.slotOf_eq (hpl : s.stepPlan p = some pl) (hsl : pl.slots[k]? = some sl) : s.slotOf p k = some sl := by
  rw [State.slotOf, hpl, Option.bind_some, hsl]

theorem transferSend_idle (h : s.stepOf p = none ∨ s.stepPlan p = none ∨ s.slotOf p k = none) :
    transferSend s p k = s := by
  unfold transferSend
  split
  · simp_all
  · rfl

theorem transferSend_none (hst : s.stepOf p = some st) (hx : st.transfers.find? (·.slot == k) = none) :
    transferSend s p k = s := by
  unfold transferSend
  split
  · next st' _ _ hst' _ _ =>
    obtain rfl : st = st' := Option.some.inj (hst.symm.trans hst')
    simp only [hx]
  · rfl

variable (hst : s.stepOf p = some st) (hpl : s.stepPlan p = some pl) (hsl : pl.slots[k]? = some sl)
  (hx : st.transfers.find? (·.slot == k) = some x)

include hst hpl hsl hx

theorem transferSend_held (hh : s.sendHeld p pl st k sl x = true) : transferSend s p k = s := by
  simp only [transferSend, hst, hpl, State.slotOf_eq hpl hsl, hx]
  exact if_pos hh

/-- A transfer whose source is in reset is lost, after it is counted if its beat is past. -/
theorem transferSend_lost (hh : s.sendHeld p pl st k sl x = false)
    (hb : (s.countLate (x.late || decide (st.startBeat + sl.beat < s.beat))).transferBytes p x sl = none) :
    transferSend s p k = (s.countLate (x.late || decide (st.startBeat + sl.beat < s.beat))).loseTransfer p k true := by
  simp only [transferSend, hst, hpl, State.slotOf_eq hpl hsl, hx]
  refine (if_neg (Bool.eq_false_iff.1 hh)).trans ?_
  unfold State.countLate at hb ⊢
  simp only [hb]

theorem transferSend_sends {bs : List Byte} {late : Bool} {v : State} (hh : s.sendHeld p pl st k sl x = false)
    (hl : late = (x.late || decide (st.startBeat + sl.beat < s.beat))) (hv : v = s.countLate late)
    (hb : v.transferBytes p x sl = some bs) :
    transferSend s p k = (v.takeSource p x sl).putOut p k ((pl.ranks[sl.peer]?).getD 0) late
      (v.sourceBytes p x sl (((pl.tensor sl.subject).map (·.words)).getD false) bs) := by
  simp only [transferSend, hst, hpl, State.slotOf_eq hpl hsl, hx]
  refine (if_neg (Bool.eq_false_iff.1 hh)).trans ?_
  rw [← hl]
  unfold State.countLate at hv
  simp only [← hv, hb, State.takeSource, State.sourceBytes, State.sourcePlace]
  cases v.tensorPlace p sl.subject sl.srcOffset sl.length with
  | none =>
    simp only [ite_self]
    rfl
  | some at_ =>
    cases x.bale.isNone && sl.length != 0 with
    | false => rfl
    | true => rfl

end

end Sys2Proof.Machine

namespace Sys2Proof.Machine

variable {s t : State}

/-! ## Transfers land (R253, R359) -/

/-! ### What landing leaves of the step's transfers -/

/-- The transfers of a partition's step. -/
def State.transfersOf (s : State) (p : Nat) : Option (List Transfer) := (s.stepOf p).map (·.transfers)

theorem State.transfersOf_eq_some {p : Nat} {ts : List Transfer} (h : s.transfersOf p = some ts) :
    ∃ u, s.stepOf p = some u ∧ u.transfers = ts := Option.map_eq_some_iff.1 h

theorem State.transfersOf_congr (h : t.yard = s.yard) (p : Nat) : t.transfersOf p = s.transfersOf p :=
  congrArg (Option.map _) (State.stepOf_congr h p)

section

variable (s : State) (p : Nat)

theorem State.transfersOf_updStep {f : Step → Step} (hf : ∀ st, (f st).transfers = st.transfers) :
    (s.updStep p f).transfersOf p = s.transfersOf p := by
  cases h : s.stepOf p with
  | none => rw [State.updStep, h]
  | some st => simp only [State.transfersOf, State.stepOf_updStep_same f h, h, Option.map_some, hf]

theorem State.transfersOf_stepCause (code : Nat) : (s.stepCause p code).transfersOf p = s.transfersOf p :=
  s.transfersOf_updStep p fun st => by split <;> rfl

theorem State.transfersOf_markBale (pl : Place) (b : Bale) (dirty : Bool) :
    (s.markBale p pl b dirty).transfersOf p = s.transfersOf p := by
  unfold State.markBale
  extract_lets u
  have hu : u.transfersOf p = s.transfersOf p := s.transfersOf_updStep p fun _ => rfl
  split
  · exact (u.transfersOf_stepCause p _).trans hu
  · exact hu

theorem State.transfersOf_regain (pl : Place) (n : Nat) : (s.regain p pl n).transfersOf p = s.transfersOf p :=
  s.transfersOf_updStep p fun _ => rfl

theorem State.host_markBale (pl : Place) (b : Bale) (dirty : Bool) : (s.markBale p pl b dirty).host = s.host := by
  unfold State.markBale
  extract_lets u
  have hu : u.host = s.host := s.host_updStep p _
  split
  · exact (u.host_updStep p _).trans hu
  · exact hu

/-- The bales of bytes that have landed at a place are noted. -/
def State.markLanded (at_ : Place) (bs : List (Nat × Bale)) (poison : Bool) : State :=
  bs.foldl (fun (s : State) b => s.markBale p (placeAdd at_ b.1) b.2 poison) s

theorem State.landTensor_some {pl : Plan} {x : Landing} {at_ : Place}
    (h : s.tensorPlace p x.tensor x.off x.data.length = some at_) :
    s.landTensor p pl x = ((s.writeAt (p + 1) at_ x.data).regain p at_ x.data.length).markLanded p at_
      (if ((pl.tensor x.tensor).map (·.words)).getD false then [] else balesIn x.data (x.data.length / 64) 0)
      x.poison := by
  simp only [State.landTensor, h]
  rfl

theorem State.landTensor_none {pl : Plan} {x : Landing}
    (h : s.tensorPlace p x.tensor x.off x.data.length = none) : s.landTensor p pl x = s := by
  simp only [State.landTensor, h]

theorem State.transfersOf_landTensor (pl : Plan) (x : Landing) :
    (s.landTensor p pl x).transfersOf p = s.transfersOf p := by
  cases h : s.tensorPlace p x.tensor x.off x.data.length with
  | none => rw [s.landTensor_none p h]
  | some at_ =>
    have hwrite : (s.writeAt (p + 1) at_ x.data).yard = s.yard :=
      Frame.yard_eq (F := [.hostMem, .gddr, .scratch, .loft]) (.writeAt (.refl s)) rfl
    rw [s.landTensor_some p h, State.markLanded,
      foldl_keeps (·.transfersOf p) (fun u b => u.transfersOf_markBale p ..) _ _, State.transfersOf_regain,
      State.transfersOf_congr hwrite]

/-! ### Bytes in a tensor -/

theorem State.readAt_writeAt (fn : Nat) (at_ : Place) (bs : List Byte) :
    (s.writeAt fn at_ bs).readAt fn at_ bs.length = bs := by
  have hbyte : ∀ i < bs.length, (s.writeAt fn at_ bs).byteAt fn at_ i = (bs[i]?).getD 0 := fun i hi => by
    have h := s.byteAt_writeAt_same fn at_ 0 i bs
    rwa [show placeAdd at_ 0 = at_ by cases at_ <;> rfl, if_pos ⟨i.zero_le, by omega⟩] at h
  rw [State.readAt_eq_map]
  refine List.ext_getElem (by simp) fun i hi hb => ?_
  rw [List.getElem_map, List.getElem_range, hbyte i hb, List.getElem?_eq_getElem hb, Option.getD_some]

/-- What lands in a tensor reads there as it came. -/
theorem State.readAt_landTensor {pl : Plan} {x : Landing} {at_ : Place}
    (h : s.tensorPlace p x.tensor x.off x.data.length = some at_) :
    (s.landTensor p pl x).readAt (p + 1) at_ x.data.length = x.data := by
  have hF : Frame [.plans] (s.writeAt (p + 1) at_ x.data) (s.landTensor p pl x) := by
    rw [s.landTensor_some p h]
    exact .foldl (.regain (.refl _)) fun _ _ => .markBale (.refl _)
  rw [State.readAt_eq_map, List.map_congr_left fun i _ => hF.byteAt_eq (by decide) (p + 1) at_ i,
    ← State.readAt_eq_map, State.readAt_writeAt]

theorem State.host_countGddr (chan n : Nat) (write : Bool) : (s.countGddr chan n write).host = s.host := by
  unfold State.countGddr
  split
  · rfl
  · exact State.host_bump64 ..

theorem State.host_keepStale (owner off : Nat) : (s.keepStale owner off).host = s.host := by
  unfold State.keepStale
  dsimp only
  split <;> rfl

theorem State.host_evict (c set way cls : Nat) : (s.evict c set way cls).host = s.host := by
  have hback : ∀ l, (s.writeBack c l).host = s.host := fun l => by
    unfold State.writeBack
    dsimp only
    rw [State.host_countGddr]
    dsimp only
    split
    · rfl
    · exact State.host_bump ..
  unfold State.evict
  split
  · rfl
  · next l _ =>
    have hset : ∀ ls, ((s.writeBack c l).setLoftLines c set ls).host = s.host := fun _ => hback l
    split
    · exact (State.host_bump ..).trans (hset _)
    · exact (State.host_bump ..).trans (hset _)
    · exact (State.host_bump ..).trans (hset _)
    · exact hset _

theorem State.host_allocate {c set line : Nat} {due : Option Nat} {t : State}
    (h : s.allocate c set line due = some t) : t.host = s.host := by
  unfold State.allocate at h
  split at h
  · cases h
  · cases h
    exact s.host_evict ..

theorem State.host_withSetWait (ws : List SetWait) :
    ({ s with loft := { s.loft with setWait := ws } } : State).host = s.host := rfl

theorem State.host_waitSet (c : Nat) (w : SetWait) : (s.waitSet c w).host = s.host :=
  (State.host_withSetWait (s.bump LFT_SET_BUSY_COUNT c) _).trans (s.host_bump ..)

theorem State.host_staleFills (line sec : Nat) : (s.staleFills line sec).host = s.host := rfl

theorem State.host_loftWrite (off : Nat) (hint : Option Nat) : (s.loftWrite p off hint).host = s.host := by
  have hfill : ∀ (t : State) c set line mask due dirty,
      ((t.keepStale (p + 1) off).fillLine c set line mask due dirty).host = t.host := fun t _ _ _ _ _ _ =>
    t.host_keepStale ..
  unfold State.loftWrite
  dsimp only
  split
  · exact hfill ..
  split
  · rw [State.host_countGddr, State.host_staleFills, State.host_bump]
  split
  · next t ht => exact (hfill t ..).trans (s.host_allocate ht)
  · exact (State.host_waitSet ..).trans (s.host_keepStale ..)

theorem State.host_writeMem (owner off : Nat) (bs : List Byte) (hint : Option Nat) :
    (s.writeMem owner off bs hint).host = s.host := by
  refine foldl_keeps (·.host) (fun t o => ?_) _ s
  split
  · exact t.host_countGddr ..
  · exact t.host_loftWrite ..

/-- A landing in GDDR leaves the host side. -/
theorem State.host_landTensor {pl : Plan} {x : Landing} {o : Nat}
    (h : s.tensorPlace p x.tensor x.off x.data.length = some (.gddr o)) : (s.landTensor p pl x).host = s.host := by
  rw [s.landTensor_some p h, State.markLanded, foldl_keeps (·.host) (fun u b => u.host_markBale p ..) _ _,
    State.regain, State.host_updStep]
  exact s.host_writeMem ..

end

/-! ### A landing in a tensor -/

theorem State.halter_landTensor (s : State) (p : Nat) (pl : Plan) (x : Landing) :
    (s.landTensor p pl x).halter = s.halter :=
  Frame.halter_eq (F := [.hostMem, .gddr, .scratch, .plans, .loft]) (.landTensor (.refl s)) rfl

section

variable {p : Nat} {st : Step} {pl : Plan} {x : Landing}

theorem State.land_idle (h : s.stepOf p = none) (x : Landing) (lost : Bool) : s.land p x lost = s := by
  simp only [State.land, h]

theorem State.land_tensor (hst : s.stepOf p = some st) (hpl : s.stepPlan p = some pl) (hx : x.pipe = none) :
    s.land p x false = (s.landTensor p pl x).signal p x.sem := by
  simp only [State.land, hst, hpl, hx, Bool.false_eq_true, if_false]

theorem State.flying_land_tensor (hst : s.stepOf p = some st) (hpl : s.stepPlan p = some pl) (hx : x.pipe = none) :
    (s.land p x false).halter.flying = s.halter.flying ++ [⟨p, x.sem, .signal 1⟩] := by
  rw [State.land_tensor hst hpl hx, State.signal, State.halterSend, State.halter_landTensor]

theorem State.readGddr_land_tensor (hst : s.stepOf p = some st) (hpl : s.stepPlan p = some pl) (hx : x.pipe = none)
    {o : Nat} (ho : s.tensorPlace p x.tensor x.off x.data.length = some (.gddr o)) :
    (s.land p x false).readGddr (p + 1) o x.data.length = x.data := by
  rw [State.land_tensor hst hpl hx]
  exact s.readAt_landTensor p ho

/-! ### A landing in its buffer (R253) -/

theorem State.land_pipe {q : Nat × Nat} (hst : s.stepOf p = some st) (hpl : s.stepPlan p = some pl)
    (hx : x.pipe = some q) : s.land p x false = (s.landTry p (x, false, none)).landWaiting p := by
  simp only [State.land, hst, hpl, hx]

theorem State.mem_land_pipe {q : Nat × Nat} (hst : s.stepOf p = some st) (hpl : s.stepPlan p = some pl)
    (hx : x.pipe = some q) : (s.land p x false).mem = s.mem := by
  rw [State.land_pipe hst hpl hx]
  exact Frame.mem_eq (F := [.plans, .halter]) (.landWaiting (.landTry (.refl s))) rfl rfl

theorem State.landTry_free {node mb : Nat} {lost : Bool} {began : Option Nat} (hst : s.stepOf p = some st)
    (hpl : s.stepPlan p = some pl) (hx : x.pipe = some (node, mb)) (hf : st.pipeTurn pl node mb = .free) :
    s.landTry p (x, lost, began) = s.landPipe p pl node mb x lost began := by
  simp only [State.landTry, hst, hpl, hx, hf]

/-- A landing joins those that wait. -/
def State.holdLanding (s : State) (p : Nat) (e : Landing × Bool × Option Nat) : State :=
  s.updStep p fun st => { st with landings := st.landings ++ [e] }

theorem State.stepOf_holdLanding (hst : s.stepOf p = some st) (e : Landing × Bool × Option Nat) :
    (s.holdLanding p e).stepOf p = some { st with landings := st.landings ++ [e] } :=
  State.stepOf_updStep_same _ hst

theorem State.stepPlan_holdLanding (s : State) (p : Nat) (e : Landing × Bool × Option Nat) :
    (s.holdLanding p e).stepPlan p = s.stepPlan p := s.stepPlan_updStep p fun _ => rfl

theorem State.halter_holdLanding (s : State) (p : Nat) (e : Landing × Bool × Option Nat) :
    (s.holdLanding p e).halter = s.halter := s.halter_updStep p _

/-- No landing of a step waits while those that did are tried. -/
def State.takeLandings (s : State) (p : Nat) : State := s.updStep p fun st => { st with landings := [] }

theorem State.stepOf_takeLandings (hst : s.stepOf p = some st) :
    (s.takeLandings p).stepOf p = some { st with landings := [] } := State.stepOf_updStep_same _ hst

theorem State.stepPlan_takeLandings (s : State) (p : Nat) : (s.takeLandings p).stepPlan p = s.stepPlan p :=
  s.stepPlan_updStep p fun _ => rfl

theorem State.halter_takeLandings (s : State) (p : Nat) : (s.takeLandings p).halter = s.halter := s.halter_updStep p _

/-- A landing whose buffer is not free goes on waiting. -/
theorem State.landTry_held {node mb : Nat} {lost : Bool} {began : Option Nat} (hst : s.stepOf p = some st)
    (hpl : s.stepPlan p = some pl) (hx : x.pipe = some (node, mb)) (hf : st.pipeTurn pl node mb ≠ .free) :
    ∃ b, s.landTry p (x, lost, began) = s.holdLanding p (x, lost, b) := by
  simp only [State.landTry, hst, hpl, hx]
  cases hturn : st.pipeTurn pl node mb with
  | early => exact ⟨began, rfl⟩
  | busy => exact ⟨_, rfl⟩
  | free => exact absurd hturn hf

theorem State.landWaiting_of_none (hst : s.stepOf p = some st) (hl : st.landings = []) : s.landWaiting p = s := by
  simp only [State.landWaiting, hst, Option.map_some, hl]
  rfl

/-- A landing that alone waits is tried once. -/
theorem State.landWaiting_of_one {e : Landing × Bool × Option Nat} (hst : s.stepOf p = some st)
    (hl : st.landings = [e]) :
    s.landWaiting p = (s.takeLandings p).landTry p e := by
  simp only [State.landWaiting, hst, Option.map_some, hl]
  rw [Option.getD_some, List.length_singleton, State.landHeld, hst]
  simp only [Option.map_some, hl]
  rfl

/-- The landing buffer of a micro-batch with the bale that landed. -/
def landedBuf (pl : Plan) (node mb : Nat) (x : Landing) : PipeBuf :=
  ⟨node, mb % pl.buffersOf node, mb, ⟨x.data, [], none, x.poison, 0⟩⟩

/-- A landing in a free buffer fills it, and signals LAND_SEM of its node. -/
theorem State.landPipe_fills (hst : s.stepOf p = some st) (node mb : Nat) (began : Option Nat) :
    ∃ u, (s.landPipe p pl node mb x false began).stepOf p = some u ∧ u.landings = st.landings ∧
      u.pipes = st.pipes ++ [landedBuf pl node mb x] ∧
      (s.landPipe p pl node mb x false began).halter.flying = s.halter.flying ++
        [⟨p, ((pl.node node).map fun nd => fieldAt nd.record 16 4).getD x.sem, .signal 1⟩] := by
  unfold State.landPipe
  extract_lets o item core b u waited v w
  obtain ⟨f, hu, hland, hpipe⟩ : ∃ f, u.stepOf p = some f ∧ f.landings = st.landings ∧ f.pipes = st.pipes ++ [b] :=
    ⟨_, State.stepOf_updStep_same _ hst, rfl, rfl⟩
  have huh : u.halter = s.halter := s.halter_updStep p _
  have hw : w.stepOf p = some f ∧ w.halter = s.halter := by
    simp only [w, v, Bool.false_eq_true, if_false]
    split
    · exact ⟨hu, huh⟩
    · exact ⟨(State.stepOf_setFld ..).trans hu, (State.halter_bump ..).trans huh⟩
  exact ⟨f, hw.1, hland, hpipe, congrArg (·.flying ++ _) hw.2⟩

/-- A landing that finds its buffer free is the step's, and the others that wait are tried after it. -/
theorem State.land_free {node mb : Nat} (hst : s.stepOf p = some st) (hpl : s.stepPlan p = some pl)
    (hx : x.pipe = some (node, mb)) (hl : st.landings = []) (hf : st.pipeTurn pl node mb = .free) :
    ∃ u, (s.land p x false).stepOf p = some u ∧ u.landings = [] ∧ u.pipes = st.pipes ++ [landedBuf pl node mb x] ∧
      (s.land p x false).halter.flying = s.halter.flying ++
        [⟨p, ((pl.node node).map fun nd => fieldAt nd.record 16 4).getD x.sem, .signal 1⟩] := by
  obtain ⟨u, hu, hul, hup, hfly⟩ := State.landPipe_fills (x := x) (pl := pl) hst node mb none
  rw [State.land_pipe hst hpl hx, State.landTry_free hst hpl hx hf, State.landWaiting_of_none hu (hul.trans hl)]
  exact ⟨u, hu, hul.trans hl, hup, hfly⟩

/-- A landing whose buffer is not free waits. -/
theorem State.land_held {node mb : Nat} (hst : s.stepOf p = some st) (hpl : s.stepPlan p = some pl)
    (hx : x.pipe = some (node, mb)) (hl : st.landings = []) (hf : st.pipeTurn pl node mb ≠ .free) :
    ∃ u, (s.land p x false).stepOf p = some u ∧ u.pipes = st.pipes ∧
      u.landings.map (fun e => (e.1, e.2.1)) = [(x, false)] ∧ (s.land p x false).halter = s.halter := by
  obtain ⟨a, ha⟩ := State.landTry_held (lost := false) (began := none) hst hpl hx hf
  have hheld := State.stepOf_holdLanding hst (x, false, a)
  have htaken := State.stepOf_takeLandings hheld
  have hplan : ((s.holdLanding p (x, false, a)).takeLandings p).stepPlan p = some pl := by
    rw [State.stepPlan_takeLandings, State.stepPlan_holdLanding, hpl]
  obtain ⟨b, hb⟩ := State.landTry_held (lost := false) (began := a) htaken hplan hx hf
  rw [State.land_pipe hst hpl hx, ha, State.landWaiting_of_one hheld (by rw [hl]; rfl), hb]
  refine ⟨_, State.stepOf_holdLanding htaken (x, false, b), rfl, rfl, ?_⟩
  rw [State.halter_holdLanding, State.halter_takeLandings, State.halter_holdLanding]

end

/-! ### Landings and the step's transfers -/

section

variable (s : State) (p : Nat)

theorem State.transfersOf_stepReset : (s.stepReset p).transfersOf p = s.transfersOf p :=
  s.transfersOf_updStep p fun _ => rfl

theorem State.transfersOf_landPipe (pl : Plan) (node mb : Nat) (x : Landing) (lost : Bool) (began : Option Nat) :
    (s.landPipe p pl node mb x lost began).transfersOf p = s.transfersOf p := by
  unfold State.landPipe
  extract_lets o item core b u waited v w
  have hu : u.transfersOf p = s.transfersOf p := s.transfersOf_updStep p fun _ => rfl
  have hbump : ∀ (r : State) f i n, (r.bump f i n).transfersOf p = r.transfersOf p := fun r f i n =>
    State.transfersOf_congr (r.yard_bump f i n) p
  have hv : v.transfersOf p = u.transfersOf p := by
    simp only [v]
    split
    · exact (State.transfersOf_stepReset ..).trans (hbump ..)
    · rfl
  have hw : w.transfersOf p = v.transfersOf p := by
    simp only [w]
    split
    · rfl
    · exact hbump ..
  exact hw.trans (hv.trans hu)

theorem State.transfersOf_landTry (e : Landing × Bool × Option Nat) :
    (s.landTry p e).transfersOf p = s.transfersOf p := by
  have hwait : ∀ e, (s.holdLanding p e).transfersOf p = s.transfersOf p := fun e =>
    s.transfersOf_updStep p fun _ => rfl
  unfold State.landTry
  dsimp only
  split
  · split
    · exact hwait _
    · exact hwait _
    · exact s.transfersOf_landPipe ..
  · rfl

theorem State.transfersOf_landHeld (n : Nat) : (s.landHeld p n).transfersOf p = s.transfersOf p := by
  induction n generalizing s with
  | zero => rfl
  | succ n ih =>
    rw [State.landHeld, ih, foldl_keeps (·.transfersOf p) (fun u e => u.transfersOf_landTry p e)]
    exact s.transfersOf_updStep p fun _ => rfl

/-- A landing leaves the transfers of the step. -/
theorem State.transfersOf_land (x : Landing) : (s.land p x false).transfersOf p = s.transfersOf p := by
  unfold State.land
  split
  · exact (State.transfersOf_landHeld ..).trans (s.transfersOf_landTry ..)
  · exact s.transfersOf_landTensor ..
  · rfl

end

end Sys2Proof.Machine

namespace Sys2Proof.Machine

variable {s : State}

/-! ## The transfers of a slot, as the commands carry them out -/

theorem exec_transferSend (s : State) (p : Part) (k : Nat) :
    exec (.transferSend p k []) s = .next (transferSend s p k) := rfl

theorem exec_transferLand (s : State) (p : Part) (k : Option Nat) (x : Option Landing) :
    exec (.transferLand p k x) s = .next (transferLand s p k x) := rfl

theorem exec_dropNoticeReceive (s : State) (p : Part) (k : Nat) :
    exec (.dropNoticeReceive p k) s = .next (s.loseTransfer p k false) := rfl

theorem exists_slot_of_find {ts : List Transfer} {k : Nat} {x : Transfer} (h : ts.find? (·.slot == k) = some x) :
    ∃ y ∈ ts, y.slot = k :=
  ⟨x, List.mem_of_find?_eq_some h, by simpa using List.find?_some h⟩

section

variable {p : Part} {k : Nat} {st : Step} {pl : Plan} {sl : Slot} {x : Transfer} (hst : s.stepOf p = some st)
  (hpl : s.stepPlan p = some pl) (hsl : pl.slots[k]? = some sl)

include hst hpl hsl

/-- A transfer whose source is in reset ends. -/
theorem transferSend_resets (hx : st.transfers.find? (·.slot == k) = some x)
    (hh : s.sendHeld p pl st k sl x = false) (hb : s.transferBytes p x sl = none) :
    ∃ u, (transferSend s p k).stepOf p = some u ∧ u.reset = true ∧ ∀ y ∈ u.transfers, y.slot ≠ k := by
  have hlate := s.transferBytes_countLate (x.late || decide (st.startBeat + sl.beat < s.beat)) p x sl
  rw [transferSend_lost hst hpl hsl hx hh (hlate.trans hb)]
  obtain ⟨u, hu, hts, -, hr⟩ := State.stepOf_loseTransfer
    ((State.stepOf_congr (s.yard_countLate _) p).trans hst) (exists_slot_of_find hx) true
  exact ⟨u, hu, hr, slot_ne_of_mem_filter hts⟩

/-- What the sending of a transfer leaves: its bytes on the way, the count of late ones, the cause that its source
gives, and LINK_ERROR where its first link is down. -/
theorem transferSend_out {bs : List Byte} (hx : st.transfers.find? (·.slot == k) = some x)
    (hh : s.sendHeld p pl st k sl x = false) (hb : s.transferBytes p x sl = some bs) :
    ∃ u, (transferSend s p k).stepOf p = some u ∧
      (st.startBeat + sl.beat < s.beat → (transferSend s p k).fld YTM_SLOT_LATE_COUNT =
        min (s.fld YTM_SLOT_LATE_COUNT + 1) 0xFFFFFFFF) ∧
      (s.sourceBad p x sl → u.cause ≠ 0) ∧
      (s.firstLinkDown ((pl.ranks[sl.peer]?).getD 0) = false → ∀ y ∈ u.transfers, y.slot = k →
        y.sent = true ∧ (¬s.sourceBad p x sl → y.bale = some bs)) ∧
      (s.firstLinkDown ((pl.ranks[sl.peer]?).getD 0) = true → u.link.isSome = true ∧
        ∀ y ∈ u.transfers, y.slot ≠ k) := by
  obtain ⟨late, hlate⟩ : ∃ l, l = (x.late || decide (st.startBeat + sl.beat < s.beat)) := ⟨_, rfl⟩
  have hbytes := (s.transferBytes_countLate late p x sl).trans hb
  have hbad := s.sourceBad_countLate late p x sl
  rw [transferSend_sends hst hpl hsl hx hh hlate rfl hbytes]
  obtain ⟨f, hf, hts, hcause⟩ := State.stepOf_takeSource
    ((State.stepOf_congr (s.yard_countLate late) p).trans hst) x sl
  obtain ⟨u, hu, huc, hup, hdown⟩ := State.stepOf_putOut (w := (pl.ranks[sl.peer]?).getD 0) hf
    (hts ▸ exists_slot_of_find hx) late _
  rw [State.firstLinkDown_takeSource] at hup hdown
  refine ⟨u, hu, fun hpast => ?_, fun h => huc ▸ hcause (hbad.2 h), fun hl y hy hk => ?_, hdown⟩
  · obtain rfl : late = true := by simp [hlate, hpast]
    rw [State.fld_congr (State.regs_putOut ..), State.slotLate_takeSource]
  · obtain ⟨hsent, hbale⟩ := hup hl y hy hk
    exact ⟨hsent, fun h => by rw [hbale, State.sourceBytes_of_not_bad (mt hbad.1 h)]⟩

end

/-! ### A slot whose last byte is visible (R359) -/

/-- The transfer of a slot is done. -/
def State.endTransfer (s : State) (p k : Nat) : State :=
  s.updStep p fun st => { st with transfers := st.transfers.filter (·.slot != k) }

theorem transferLand_none {p k : Nat} {st : Step} (hst : s.stepOf p = some st)
    (hx : st.transfers.find? (·.slot == k) = none) : transferLand s p (some k) none = s := by
  have hsent : (st.transfers.find? fun t => t.slot == k && t.sent) = none := by
    simp only [List.find?_eq_none, Bool.and_eq_true, not_and] at hx ⊢
    exact fun y hy hk => absurd hk (hx y hy)
  simp only [transferLand, hst]
  cases s.slotOf p k with
  | none => rfl
  | some sl => simp only [hsent]

/-- A slot's transfer as it lands at its own module. -/
def Slot.landing (sl : Slot) (pl : Plan) (k : Nat) (x : Transfer) : Landing :=
  ⟨sl.dstTensor, sl.dstOffset, pl.pipeOf kindPipeRecv k, sl.landSem, x.bale.getD [], true, 0⟩

theorem State.stepPlan_endTransfer (s : State) (p k : Nat) : (s.endTransfer p k).stepPlan p = s.stepPlan p :=
  s.stepPlan_updStep p fun _ => rfl

theorem State.transfersOf_endTransfer {p k : Nat} {st : Step} (hst : s.stepOf p = some st) :
    (s.endTransfer p k).transfersOf p = some (st.transfers.filter (·.slot != k)) := by
  rw [State.transfersOf, State.endTransfer, State.stepOf_updStep_same _ hst]
  rfl

theorem State.tensorPlace_endTransfer (s : State) (p : Part) (k id off n : Nat) :
    (s.endTransfer p k).tensorPlace p id off n = s.tensorPlace p id off n := by
  have hprt : SamePrt s (s.endTransfer p k) := s.updStep_samePrt p _
  exact hprt.tensorPlace (s.tensorAddr_updStep p id (fun _ => rfl) fun _ => rfl) off n

theorem transferLand_sent {p k : Nat} {st : Step} {pl : Plan} {sl : Slot} {x : Transfer}
    (hst : s.stepOf p = some st) (hpl : s.stepPlan p = some pl) (hsl : pl.slots[k]? = some sl)
    (hx : (st.transfers.find? fun t => t.slot == k && t.sent) = some x) :
    transferLand s p (some k) none =
      if pl.ranks[sl.peer]? = some s.ownAddr then (s.endTransfer p k).land p (sl.landing pl k x) false
      else s.endTransfer p k := by
  have hplan : (s.endTransfer p k).stepPlan p = some pl := (s.stepPlan_endTransfer p k).trans hpl
  have hpeer : (s.endTransfer p k).peerOf p k = pl.ranks[sl.peer]? := by
    rw [State.peerOf, hplan, Option.bind_some, hsl, Option.bind_some]
  have hown : (s.endTransfer p k).ownAddr = s.ownAddr :=
    congrArg (fun v : Word => v.toNat % 2 ^ 17) (State.reg_congr (s.regs_updStep p _) HLK_ADDR 0)
  simp only [transferLand, hst, State.slotOf_eq hpl hsl, hx]
  rw [← State.endTransfer, hpeer, hown, hplan]
  rfl

/-! ### What the statement says of a landing -/

section

variable {p : Part} {st : Step} {pl : Plan} (hst : s.stepOf p = some st) (hpl : s.stepPlan p = some pl)

include hst hpl

/-- A slot's transfer at its last byte is done, and lands where it is one to this module (R359). -/
theorem transferLand_done {k : Nat} {sl : Slot} {x : Transfer} (hsl : pl.slots[k]? = some sl)
    (hx : (st.transfers.find? fun t => t.slot == k && t.sent) = some x) :
    ∃ u, (transferLand s p (some k) none).stepOf p = some u ∧ u.transfers = st.transfers.filter (·.slot != k) ∧
      (pl.ranks[sl.peer]? ≠ some s.ownAddr → (transferLand s p (some k) none).mem = s.mem ∧
        (transferLand s p (some k) none).halter = s.halter) ∧
      (pl.ranks[sl.peer]? = some s.ownAddr → pl.pipeOf kindPipeRecv k = none →
        (transferLand s p (some k) none).halter.flying = s.halter.flying ++ [⟨p, sl.landSem, .signal 1⟩] ∧
        ∀ o, s.tensorPlace p sl.dstTensor sl.dstOffset (x.bale.getD []).length = some (.gddr o) →
          (transferLand s p (some k) none).readGddr (p + 1) o (x.bale.getD []).length = x.bale.getD []) := by
  have hend : (s.endTransfer p k).stepOf p = some { st with transfers := st.transfers.filter (·.slot != k) } :=
    State.stepOf_updStep_same _ hst
  rw [transferLand_sent hst hpl hsl hx]
  split
  · next hown =>
    obtain ⟨u, hu, hts⟩ := State.transfersOf_eq_some
      (((s.endTransfer p k).transfersOf_land p (sl.landing pl k x)).trans (State.transfersOf_endTransfer hst))
    have hplan := (s.stepPlan_endTransfer p k).trans hpl
    refine ⟨u, hu, hts, fun h => absurd hown h, fun _ hpipe => ⟨?_, fun o ho => ?_⟩⟩
    · rw [State.flying_land_tensor hend hplan hpipe, State.endTransfer, State.halter_updStep]
      rfl
    · exact State.readGddr_land_tensor hend hplan hpipe ((s.tensorPlace_endTransfer p k ..).trans ho)
  · next hown => exact ⟨_, hend, rfl, fun _ => ⟨s.mem_updStep p _, s.halter_updStep p _⟩, fun h => absurd h hown⟩

/-- A peer's transfer lands in its tensor and signals LAND_SEM (R359). -/
theorem State.land_tensor_leaves {x : Landing} (hx : x.pipe = none) :
    (s.land p x false).halter.flying = s.halter.flying ++ [⟨p, x.sem, .signal 1⟩] ∧
      (∀ o, s.tensorPlace p x.tensor x.off x.data.length = some (.gddr o) →
        (s.land p x false).readGddr (p + 1) o x.data.length = x.data ∧ (s.land p x false).host = s.host) ∧
      (s.tensorPlace p x.tensor x.off x.data.length = none →
        (s.land p x false).mem = s.mem ∧ (s.land p x false).host = s.host) := by
  refine ⟨State.flying_land_tensor hst hpl hx, fun o ho => ⟨State.readGddr_land_tensor hst hpl hx ho, ?_⟩, fun ho => ?_⟩
  · rw [State.land_tensor hst hpl hx]
    exact s.host_landTensor p ho
  · rw [State.land_tensor hst hpl hx, s.landTensor_none p ho]
    exact ⟨rfl, rfl⟩

/-- A peer's transfer to a pipe lands in its buffer when that is free, and waits otherwise (R253). -/
theorem State.land_pipe_leaves {x : Landing} {node mb : Nat} (hx : x.pipe = some (node, mb)) (hl : st.landings = []) :
    ∃ u, (s.land p x false).stepOf p = some u ∧
      (st.pipeTurn pl node mb = .free → u.landings = [] ∧ u.pipes = st.pipes ++ [landedBuf pl node mb x] ∧
        (s.land p x false).halter.flying = s.halter.flying ++
          [⟨p, ((pl.node node).map fun nd => fieldAt nd.record 16 4).getD x.sem, .signal 1⟩]) ∧
      (st.pipeTurn pl node mb ≠ .free → u.pipes = st.pipes ∧
        u.landings.map (fun e => (e.1, e.2.1)) = [(x, false)] ∧ (s.land p x false).halter = s.halter) := by
  by_cases hf : st.pipeTurn pl node mb = .free
  · obtain ⟨u, hu, hsays⟩ := State.land_free hst hpl hx hl hf
    exact ⟨u, hu, fun _ => hsays, fun h => absurd hf h⟩
  · obtain ⟨u, hu, hsays⟩ := State.land_held hst hpl hx hl hf
    exact ⟨u, hu, fun h => absurd h hf, fun _ => hsays⟩

end

/-- Settles O45: each command of a transfer by the parts it is made of. -/
theorem transfersGoOutAndLand : Obligations.TransfersGoOutAndLand := by
  unfold Obligations.TransfersGoOutAndLand
  refine ⟨fun p k s => ⟨fun h => ?_, fun st hst hx => ⟨?_, ?_, ?_⟩⟩,
    fun p k st pl sl x s hst hpl hsl hx => ?_, fun p k st pl sl x s hst hpl hsl hx => ?_,
    fun p x s => ⟨fun h => ?_, rfl, fun st pl hst hpl => ⟨fun hx => ?_, fun node mb hx hl => ?_⟩⟩,
    fun p k st s hst hk => ?_⟩
  · rw [exec_transferSend, transferSend_idle h]
  · rw [exec_transferSend, transferSend_none hst hx]
  · rw [exec_dropNoticeReceive, State.loseTransfer_none hst hx]
  · rw [exec_transferLand, transferLand_none hst hx]
  · intro source hold w up bad
    have hheld : s.sendHeld p pl st k sl x = true ↔ hold := State.sendHeld_iff
    have hfree : ¬hold → s.sendHeld p pl st k sl x = false := fun h => Bool.eq_false_iff.2 (mt hheld.1 h)
    have hbad : s.sourceBad p x sl ↔ bad := State.sourceBad_iff
    have hup : s.firstLinkDown w = false ↔ up := State.firstLinkDown_eq_false
    refine ⟨fun h => ?_, fun h hb => ?_, fun bs h hb => ?_⟩
    · rw [exec_transferSend, transferSend_held hst hpl hsl hx (hheld.2 h)]
    · obtain ⟨u, hu⟩ := transferSend_resets hst hpl hsl hx (hfree h) hb
      exact ⟨_, u, rfl, hu⟩
    · obtain ⟨u, hu, hlate, hcause, hsent, hdown⟩ := transferSend_out hst hpl hsl hx (hfree h) hb
      have hmem : (transferSend s p k).mem = s.mem :=
        Frame.mem_eq (F := [.plans, .loft]) (.transferSend (.refl s)) rfl rfl
      rw [hbad] at hcause hsent
      exact ⟨_, u, rfl, hu, hmem, hlate, hcause, fun hl => hsent (hup.2 hl),
        fun hl => hdown (Bool.eq_true_of_not_eq_false (mt hup.1 hl))⟩
  · obtain ⟨u, hsays⟩ := transferLand_done hst hpl hsl hx
    exact ⟨_, u, rfl, hsays⟩
  · rw [exec_transferLand]
    exact congrArg _ (State.land_idle h x false)
  · exact ⟨_, rfl, State.land_tensor_leaves hst hpl hx⟩
  · obtain ⟨u, hu, hsays⟩ := State.land_pipe_leaves hst hpl hx hl
    exact ⟨_, u, rfl, hu, State.mem_land_pipe hst hpl hx, hsays⟩
  · obtain ⟨u, hu, hts, -, hl⟩ := State.stepOf_loseTransfer hst hk false
    exact ⟨_, u, rfl, hu, hts, hl⟩

end Sys2Proof.Machine

namespace Sys2Proof.Machine

/-! ## Memory tiers: what a command leaves of a register or of a line of a Loft -/

/-- A field after a command. -/
def fldAfter (o : Out) (f : Field) (i : Nat := 0) : Option Nat :=
  match o with
  | .next t => some (t.fld f i)
  | _ => none

/-- What a line of a Loft holds after a command. -/
def validAfter (o : Out) (c set line : Nat) : Option Nat :=
  match o with
  | .next t => ((t.loftLines c set).find? fun x => x.line == line).map (·.valid)
  | _ => none

/-! ## A late fetch with a reader in a cluster there is not (R281) -/

/-- A gather of rows of tensor 0. -/
def gatherNode : NodeEnt :=
  { kind := 11, numerics := 0, vop := 0, program := 0, params := [], record := [], expert := 0xFFFFFFFF }

/-- A plan of nothing but gathers of tensor 0 by these drovers. -/
def gatherPlan (drovers : List Nat) : Plan :=
  { crc := 0, programs := [], descs := [], tensors := [], nodes := [gatherNode], edges := [], syncs := [], ucode := []
    table := [], intents := [], slots := [], period := 0, elastic := true, alignLog2 := 0, stepBeats := 0
    recipes := [], ranks := [], colls := [], ownRank := none, cores := [], drovers := drovers.map fun k => (0, k)
    homes := [], bound := [⟨256, 0, 0, 0, 0, 0, 0⟩], sems := [], bars := [] }

/-- A step of plan 0 that runs, with these fetches. -/
def runningStep (fetches : List Fetch) : Step :=
  { newStep strayFlight 0 [] none with running := true, fetches := fetches }

/-- The module after reset but for a partition that runs a step of a plan. -/
def runningState (p : Nat) (st : Step) (pl : Plan) : State :=
  { State.reset with yard := { State.reset.yard with plans := [(p * 16, pl)], steps := [(p, st)] } }

/-- A fetch from the shed into tensor 0 that missed its deadline. -/
def lateFetch : Fetch :=
  { slot := 0, tensor := 0, tier := 3, landed := false, withdrawn := false, late := true, deadline := 0, held := false }

/-- The readers of tensor 0 are a drover of cluster 0 and one of cluster 4 × 2^20, whose CLU_STALL_SHED_EVENTS is the
CLU_STALL_SHED_BEATS of cluster 0. -/
def farReaders : Plan := gatherPlan [0, 4 * (4 * 1048576)]

/-- The fetch is all that the step of partition 0 waits for. -/
def farReaderState : State := runningState 0 (runningStep [lateFetch]) farReaders

theorem farReaders_clusters : farReaders.readerClusters 0 = [0, 4 * 1048576] := by decide +kernel

/-- The one beat waited is counted, and with it the event of the other cluster. -/
theorem lateFetch_counts_beside : farReaderState.beat = 0 ∧ farReaderState.fld CLU_STALL_SHED_BEATS_COUNT 0 = 0 ∧
    fldAfter (exec (.fetchComplete 0 0 [] false) farReaderState) CLU_STALL_SHED_BEATS_COUNT = some 2 :=
  ⟨by decide +kernel, by decide +kernel, by decide +kernel⟩

/-- Refutes O35: the statement bounds each reader's cluster only where it speaks of it, and the event of a reader in
cluster 4 × 2^20 is counted among the beats of cluster 0. -/
theorem not_fetchesAndPrefetches : ¬ Obligations.FetchesAndPrefetches := by
  unfold Obligations.FetchesAndPrefetches
  rintro ⟨hends, -⟩
  obtain ⟨hbeat, hbefore, hafter⟩ := lateFetch_counts_beside
  obtain ⟨-, hopen⟩ := hends 0 0 false (runningStep [lateFetch]) farReaders farReaderState rfl rfl
  obtain ⟨⟨t, u, ht, -, -, -, -, -, -, hlate⟩, -⟩ := hopen lateFetch rfl
  obtain ⟨hshed, -⟩ := hlate rfl (by rw [show lateFetch.tensor = 0 from rfl, farReaders_clusters]; decide) 0
    (by rw [show lateFetch.tensor = 0 from rfl, farReaders_clusters]; decide) (by decide)
  obtain ⟨-, hbeats⟩ := hshed ⟨rfl, rfl⟩
  rw [ht, fldAfter, Option.some_inj, hbeats, hbefore, hbeat] at hafter
  exact absurd hafter (by decide)

/-! ## A stream of a partition there is not (R273) -/

/-- A partition whose function's count of dropped raises is the DRV_STATUS of drover 0. -/
def strayPart : Nat := (DRV_STATUS 0 - BEL_DROPPED) * 1048576 - 1

/-- The stream of drover 0, its START_WAIT satisfied. -/
def strayDrove : Drove :=
  { part := strayPart, plan := 0, node := 0, semOk := true, started := false, n := 0, pos := 0, pages := [], marks := []
    ended := false }

/-- The partition runs a step whose one node drover 0 serves. -/
def strayDroveState : State :=
  { runningState strayPart (runningStep []) (gatherPlan [0]) with drovers := [(0, strayDrove)] }

/-- The work of drover 0. -/
def strayDroving : Droving :=
  { k := 0, d := strayDrove, st := runningStep [], pl := gatherPlan [0], n := gatherNode
    e := (0, ⟨256, 0, 0, 0, 0, 0, 0⟩) }

/-- The stream starts under a fault, and the raise of the step fault, dropped and counted, takes FAULT away. -/
theorem strayDrove_drops_fault : strayDroveState.droving 0 = some strayDroving ∧
    strayDroveState.flag CLK_STATUS_VIN_WARN = false ∧
    fldAfter (exec (.droverStreamStart 0 [0] []) strayDroveState) (DRV_STATUS_FAULT 0) = some 0 :=
  ⟨by decide +kernel, by decide +kernel, by decide +kernel⟩

/-- Refutes O42: the stream's partition is any number, and the dropped step-fault raise of one is counted in the status
register of the drover, where it carries through BUSY and FAULT. -/
theorem not_droverStreamsMoveBales : ¬ Obligations.DroverStreamsMoveBales := by
  unfold Obligations.DroverStreamsMoveBales
  rintro ⟨-, hwork⟩
  obtain ⟨hd, hvin, hafter⟩ := strayDrove_drops_fault
  obtain ⟨-, hstart, -⟩ := hwork 0 strayDroving strayDroveState hd
  obtain ⟨-, hgo⟩ := hstart [0] rfl rfl hvin
  obtain ⟨t, r, ht, -, -, -, -, hfails, -⟩ := hgo (by decide +kernel)
  obtain ⟨-, hflag⟩ := hfails (.inl (by decide))
  rw [ht, fldAfter, Option.some_inj] at hafter
  rw [State.flag, show ((0 : DroverId) : Nat) % 4 = 0 from rfl, show ((0 : DroverId) : Nat) / 4 = 0 from rfl, hafter]
    at hflag
  exact absurd hflag (by decide)

/-! ## A fill for an owner there is not (R290) -/

/-- A partition whose STATE, CLUSTERS and CHANNELS are GDR_STATUS, GDR_ECC and GDR_CRC_RETRY. -/
def strayOwner : Nat := (GDR_ECC - PRT_CLUSTERS 0) / 0x40

/-- A fill for sector 0 of the first line of that partition. -/
def strayFill : Fill :=
  { line := lineKey (strayOwner + 1) 0, mask := 1, due := none, prefetch := false, stale := false, cancelled := false
    step := false, epoch := 0 }

/-- The line that waits for it. -/
def strayLine : LoftLine := { way := 0, line := strayFill.line, valid := 0, dirty := 0, due := none }

/-- The module after reset but for channel 0 TRAINED with one uncorrectable sector counted, no cluster in reset, the
fill on its way to its line in cluster 16, and its sector uncorrectable. -/
def strayFillState : State :=
  { State.reset with
    regs := [(regKey BOOT_INRESET_CLU 0, 0), (regKey GDR_STATUS 0, 2), (regKey GDR_ECC 0, 0x10000)]
    mem := { State.reset.mem with bad := [(sectorKey strayFill.line 0, false)] }
    loft := { State.reset.loft with fills := [strayFill], sets := [(16 * 1024, [strayLine])] } }

/-- The home of a fill's line. -/
def State.fillHome (s : State) (f : Fill) : Nat × Nat := s.homeOf (f.line / 2 ^ 38 - 1) (f.line % 2 ^ 38)

/-- The second uncorrectable sector counted moves the line's home from cluster 16 to cluster 17. -/
theorem strayFill_misses_line : strayFillState.fillHome strayFill = (16, 0) ∧
    validAfter (exec (.loftFill 0 0 0 0 false) strayFillState) 16 0 strayFill.line = some 0 :=
  ⟨by decide +kernel, by decide +kernel⟩

/-- Refutes O36: the line of a fill is any number, and where its partition's CLUSTERS register is the channel's count of
uncorrectable sectors, reading the sector moves the line's home, so that nothing is installed in the line that waits. -/
theorem not_loftAccessesAndFills : ¬ Obligations.LoftAccessesAndFills := by
  unfold Obligations.LoftAccessesAndFills
  rintro ⟨-, -, -, -, hfill, -, -⟩
  obtain ⟨hhome, hafter⟩ := strayFill_misses_line
  obtain ⟨hlands, -⟩ := hfill 0 strayFill strayFillState rfl rfl rfl (by decide +kernel) (by decide +kernel) rfl
  obtain ⟨t, ht, -, -, hline⟩ := hlands strayLine (by decide +kernel) (by decide +kernel) (by decide +kernel)
    (by decide +kernel)
  change (t.loftLines (strayFillState.fillHome strayFill).1 (strayFillState.fillHome strayFill).2).find? _ = _ at hline
  rw [hhome] at hline
  rw [ht, validAfter, hline] at hafter
  exact absurd hafter (by decide)

end Sys2Proof.Machine

namespace Sys2Proof.Machine

/-! ## A sector that the Farrier's record is written over (R290, R470) -/

/-- The module after reset but for channel 0, TRAINED and out of reset, with the one line of partition 0 on it, and the
owner's enabled day book ring, whose base lies 2^48 bytes into the owner's space. -/
def farRingState : State :=
  { State.reset with
    regs := [(regKey (PRT_STATE 0) 0, 1), (regKey (PRT_CHANNELS 0) 0, 1), (regKey (PRT_GDDR_LINES 0) 0, 1),
      (regKey GDR_STATUS 0, 2), (regKey DAY_STATUS 0, 1), (regKey DAY_BASE_HI 0, 0x10000), (regKey DAY_MIB 0, 1)] }

/-- The ring's first block and the partition's first sector are the same bytes. -/
theorem farRing_at_partition : gddrKey 0 (farRingState.dayAddr 0 0) = gddrKey 1 0 := by decide +kernel

/-- The record of the row's replacement leaves the sector written whole, so that its error is not counted. -/
theorem scrub_counts_nothing : farRingState.fld GDR_ECC_UE 0 = 0 ∧
    fldAfter (exec (.gddrPatrolScrub 0 (some (1, 0)) 0 (some .uncorrectable)) farRingState) GDR_ECC_UE = some 0 :=
  ⟨by decide +kernel, by decide +kernel⟩

/-- Refutes O37: the base of the owner's ring is any number, and where the ring lies over the sector that the scrub
finds uncorrectable, the record of its row's replacement overwrites the sector before it is counted. -/
theorem not_controllersActOnTheirOwn : ¬ Obligations.ControllersActOnTheirOwn := by
  unfold Obligations.ControllersActOnTheirOwn
  rintro ⟨-, hscrub, -⟩
  obtain ⟨hbefore, hafter⟩ := scrub_counts_nothing
  obtain ⟨-, hruns⟩ := hscrub 0 (some (1, 0)) 0 (some .uncorrectable) farRingState
  obtain ⟨-, -, -, hown⟩ := hruns (by decide +kernel) (by decide +kernel)
  obtain ⟨⟨t, ht, hcounts⟩, -⟩ := hown 1 0 (by decide +kernel) (by decide +kernel) rfl rfl
  obtain ⟨-, -, hue⟩ := hcounts (.inl (by decide))
  change t.fld GDR_ECC_UE 0 = min (farRingState.fld GDR_ECC_UE 0 + 1) _ at hue
  rw [ht, fldAfter, Option.some_inj, hue, hbefore] at hafter
  exact absurd hafter (by decide)

end Sys2Proof.Machine

namespace Sys2Proof.Machine

variable {s t : State}

/-! ## Alerts, and the loss of what is volatile (R443, R505) -/

theorem State.regs_alertCheck (s : State) : s.alertCheck.regs = s.regs := by
  unfold State.alertCheck
  dsimp only
  split <;> rfl

theorem State.clk_alertCheck (s : State) : s.alertCheck.clk = s.clk := by
  unfold State.alertCheck
  dsimp only
  split <;> rfl

theorem State.clk_raise (s : State) (fn src : Nat) : (s.raise fn src).clk = s.clk :=
  s.raise_keeps (·.clk) State.clk_setFld (fun _ _ => rfl) fn src

/-- What an owner's source raises leaves the registers above the Bell. -/
theorem State.reg_raise_owner (s : State) {src o j : Nat} (hsrc : src < 1048576) (hj : j < 1048576)
    (ho : 0x200000 ≤ o) :
    (s.raise 0 src).reg o j = s.reg o j :=
  s.reg_raise_off (by unfold bellInst; omega) hj ho

/-! ## Heat (R426, R427) -/

/-- A table after a value is put under each of some keys. -/
theorem tabFind_foldl_tabPut {α : Type} (g : Nat → α) (l : List Nat) (t : Tab α) (k : Nat) :
    tabFind (l.foldl (fun t d => tabPut t d (g d)) t) k = if k ∈ l then some (g k) else tabFind t k := by
  induction l generalizing t with
  | nil => rfl
  | cons x l ih =>
    rw [List.foldl_cons, ih, tabFind_tabPut]
    by_cases hx : x = k
    · subst hx
      simp
    · simp [hx, Ne.symm hx]

/-- A table with a default after a value is set under each of some keys. -/
theorem tabGet_foldl_tabSet {α : Type} [DecidableEq α] (a : α) (g : Nat → α) (l : List Nat) (t : Tab α)
    (k : Nat) :
    tabGet a (l.foldl (fun t d => tabSet a t d (g d)) t) k = if k ∈ l then g k else tabGet a t k := by
  induction l generalizing t with
  | nil => rfl
  | cons x l ih =>
    rw [List.foldl_cons, ih, tabGet_tabSet]
    by_cases hx : x = k
    · subst hx
      simp
    · simp [hx, Ne.symm hx]

/-- The point of a die is what its write put there. -/
theorem State.diePoint_setPoint_same (s : State) {d : Nat} (x : Nat) (hd : d < 4) :
    (s.setPoint d x).diePoint d = x % 32 := by
  unfold State.diePoint State.setPoint
  rw [State.reg_setReg_same, getBits_setBits _ _ (by omega)]
  rfl

/-- The point of one die is beside that of another. -/
theorem State.diePoint_setPoint_ne (s : State) {d e : Nat} (x : Nat) (hd : d < 4) (he : d ≠ e) :
    (s.setPoint d x).diePoint e = s.diePoint e := by
  unfold State.diePoint State.setPoint
  rw [State.reg_setReg_same]
  rcases Nat.lt_or_gt_of_ne he with h | h
  · exact getBits_setBits_above _ _ (by omega) (by omega)
  · exact getBits_setBits_below _ _ (by omega) (by omega)

theorem State.diePoint_of_reg (h : t.reg CLK_DIE_POINT = s.reg CLK_DIE_POINT) (d : Nat) : t.diePoint d = s.diePoint d :=
  congrArg (getBits · (8 * d) 5) h

/-- The IO die has no point. -/
theorem State.diePoint_io (s : State) : s.diePoint 4 = 0 := by
  have := (s.reg CLK_DIE_POINT).isLt
  unfold State.diePoint getBits
  omega

/-! ### An emergency begins -/

/-- The events of an emergency that begins: counted, raised and reported. -/
def State.emergencyShown (s : State) : State :=
  ((((s.setFld CLK_STATUS_EMERG 0 1).setFld CLK_STATUS_EMERG_EVENT 0 1).bump CLK_EMERG_COUNT_COUNT 0).raise 0
    67).alertCheck

/-- A die that is in emergency stays as it is. -/
theorem State.emergency_again {d : Nat} (h : (tabFind s.clk.emerg d).isSome = true) : s.emergency d = s := by
  unfold State.emergency
  rw [if_pos h]

/-- A die that comes into emergency goes to point 0, and the event is shown. -/
theorem State.emergency_new {d : Nat} (h : tabFind s.clk.emerg d = none) : s.emergency d =
    (if d < 4 then ({ s with clk := { s.clk with
        emerg := tabPut s.clk.emerg d 1, restore := tabDel s.clk.restore d } }).setPoint d 0
      else { s with clk := { s.clk with
        emerg := tabPut s.clk.emerg d 1, restore := tabDel s.clk.restore d } }).emergencyShown := by
  unfold State.emergency State.emergencyShown
  exact if_neg (by simp [h])

theorem State.clk_emergencyShown (s : State) : s.emergencyShown.clk = s.clk := by
  unfold State.emergencyShown
  rw [State.clk_alertCheck, State.clk_raise, State.clk_bump, State.clk_setFld, State.clk_setFld]

theorem State.reg_emergencyShown (s : State) {o : Nat} (ho : 0x200000 ≤ o) (h₁ : o ≠ CLK_STATUS)
    (h₂ : o ≠ CLK_EMERG_COUNT) : s.emergencyShown.reg o = s.reg o := by
  have hset : ∀ (t : State) (f : Field) x, f.off ≠ o → (t.setFld f 0 x).reg o = t.reg o := fun t f x hf =>
    t.reg_setReg_off _ (by decide) (by decide) (.inl hf)
  unfold State.emergencyShown
  rw [State.reg_congr (State.regs_alertCheck _), State.reg_raise_owner _ (by decide) (by decide) ho]
  exact (hset _ _ _ h₂.symm).trans ((hset _ _ _ h₁.symm).trans (hset _ _ _ h₁.symm))

theorem State.flag_emergencyShown (s : State) : s.emergencyShown.flag CLK_STATUS_EMERG = true := by
  have hraise : ∀ t : State, (t.raise 0 67).alertCheck.flag CLK_STATUS_EMERG = t.flag CLK_STATUS_EMERG := fun t => by
    rw [State.flag_congr (State.regs_alertCheck _)]
    exact congrArg (fun w => getBits w 10 1 == 1)
      (t.reg_raise_owner (o := CLK_STATUS) (by decide) (by decide) (by decide))
  unfold State.emergencyShown
  rw [hraise, State.bump, State.flag_setFld_off _ _ (by decide) (by decide) (.inl (by decide))]
  have hset : (s.setFld CLK_STATUS_EMERG 0 1).flag CLK_STATUS_EMERG = true :=
    s.flag_setFld_same (f := CLK_STATUS_EMERG) 0 true (by decide) rfl
  rw [← hset]
  exact State.flag_setFld_beside _ _ _ (by decide) rfl (by decide)

/-- A die is in emergency after one begins on it; the others' emergencies stay. -/
theorem State.emerg_emergency (s : State) (d e : Nat) : tabFind (s.emergency d).clk.emerg e =
    if d = e ∧ tabFind s.clk.emerg e = none then some 1 else tabFind s.clk.emerg e := by
  cases h : tabFind s.clk.emerg d with
  | some n =>
    rw [State.emergency_again (by simp [h])]
    refine (if_neg ?_).symm
    rintro ⟨rfl, hn⟩
    simp [h] at hn
  | none =>
    have hclk : (s.emergency d).clk.emerg = tabPut s.clk.emerg d 1 := by
      rw [State.emergency_new h, State.clk_emergencyShown]
      split <;> rfl
    rw [hclk, tabFind_tabPut]
    by_cases hd : d = e
    · subst hd
      simp [h]
    · simp [hd]

/-- An emergency that begins puts its die at point 0. -/
theorem State.diePoint_emergency (s : State) {d e : Nat} : (s.emergency d).diePoint e =
    if d = e ∧ d < 4 ∧ tabFind s.clk.emerg e = none then 0 else s.diePoint e := by
  cases h : tabFind s.clk.emerg d with
  | some n =>
    rw [State.emergency_again (by simp [h])]
    refine (if_neg ?_).symm
    rintro ⟨rfl, -, hn⟩
    simp [h] at hn
  | none =>
    rw [State.emergency_new h, State.diePoint_of_reg (State.reg_emergencyShown _ (by decide) (by decide) (by decide))]
    by_cases hd : d < 4
    · rw [if_pos hd]
      by_cases he : d = e
      · subst he
        rw [State.diePoint_setPoint_same _ _ hd, if_pos ⟨rfl, hd, h⟩]
      · rw [State.diePoint_setPoint_ne _ _ hd he, if_neg (by simp [he])]
        rfl
    · rw [if_neg hd, if_neg (by simp [hd])]
      rfl

/-- EMERG is shown once an emergency has begun, and stays shown. -/
theorem State.flag_emergency (s : State) (d : Nat)
    (h : tabFind s.clk.emerg d = none ∨ s.flag CLK_STATUS_EMERG = true) :
    (s.emergency d).flag CLK_STATUS_EMERG = true := by
  cases hd : tabFind s.clk.emerg d with
  | some n =>
    rw [State.emergency_again (by simp [hd])]
    exact h.resolve_left (by simp [hd])
  | none =>
    rw [State.emergency_new hd]
    exact State.flag_emergencyShown _

/-- What every emergency leaves of the state. -/
theorem State.emergency_keeps {α : Type} (π : State → α) (hf : ∀ (s : State) f i x, π (s.setFld f i x) = π s)
    (hp : ∀ (s : State) d x, π (s.setPoint d x) = π s) (hb : ∀ (s : State) b, π { s with bell := b } = π s)
    (hm : ∀ (s : State) m, π { s with mbs := m } = π s)
    (hc : ∀ (s : State) x y, π { s with clk := { s.clk with emerg := x, restore := y } } = π s)
    (s : State) (d : Nat) :
    π (s.emergency d) = π s := by
  have ha : ∀ t : State, π t.alertCheck = π t := fun t => by
    unfold State.alertCheck
    dsimp only
    split
    · rfl
    · exact hm _ _
  have hshown : ∀ t : State, π t.emergencyShown = π t := fun t => by
    unfold State.emergencyShown
    rw [ha, State.raise_keeps _ π hf hb, State.bump, hf, hf, hf]
  cases h : tabFind s.clk.emerg d with
  | some n => rw [State.emergency_again (by simp [h])]
  | none =>
    rw [State.emergency_new h, hshown]
    split
    · exact (hp _ _ _).trans (hc _ _ _)
    · exact hc _ _ _

/-! ### Emergencies of several dies -/

/-- Every one of some dies comes into emergency. -/
abbrev State.emergencies (s : State) (l : List Nat) : State := l.foldl (fun (s : State) d => s.emergency d) s

theorem State.emerg_emergencies (s : State) (l : List Nat) (e : Nat) : tabFind (s.emergencies l).clk.emerg e =
    if e ∈ l ∧ tabFind s.clk.emerg e = none then some 1 else tabFind s.clk.emerg e := by
  induction l generalizing s with
  | nil => simp
  | cons d l ih =>
    rw [State.emergencies, List.foldl_cons]
    refine (ih _).trans ?_
    rw [State.emerg_emergency]
    by_cases hd : d = e
    · subst hd
      by_cases hn : tabFind s.clk.emerg d = none <;> simp [hn]
    · simp [hd, Ne.symm hd]

theorem State.diePoint_emergencies (s : State) (l : List Nat) (e : Nat) : (s.emergencies l).diePoint e =
    if e ∈ l ∧ e < 4 ∧ tabFind s.clk.emerg e = none then 0 else s.diePoint e := by
  induction l generalizing s with
  | nil => simp
  | cons d l ih =>
    rw [State.emergencies, List.foldl_cons]
    refine (ih _).trans ?_
    rw [State.emerg_emergency, State.diePoint_emergency]
    by_cases hd : d = e
    · subst hd
      by_cases hn : tabFind s.clk.emerg d = none <;> simp [hn]
    · simp [hd, Ne.symm hd]

theorem State.flag_emergencies {l : List Nat} {e : Nat} (h : e ∈ l ∧ tabFind s.clk.emerg e = none ∨
    s.flag CLK_STATUS_EMERG = true) : (s.emergencies l).flag CLK_STATUS_EMERG = true := by
  induction l generalizing s with
  | nil => exact h.resolve_left (by simp)
  | cons d l ih =>
    rw [State.emergencies, List.foldl_cons]
    refine ih ?_
    rcases h with ⟨he, hn⟩ | hshown
    · by_cases hd : d = e
      · exact .inr (s.flag_emergency d (.inl (hd ▸ hn)))
      · exact .inl ⟨(List.mem_cons.1 he).resolve_left (Ne.symm hd), by
          rw [State.emerg_emergency, if_neg (by simp [hd]), hn]⟩
    · exact .inr (s.flag_emergency d (.inr hshown))

/-! ### The junction samples -/

/-- The junction temperature of a die as a sample shows it. -/
def junction (temps : List Nat) (d : Nat) : Nat := min (temps.getD d 0) 255

/-- The state once the junction temperatures are shown. -/
def State.withJunctions (s : State) (temps : List Nat) : State :=
  let s := { s with clk := { s.clk with
    temps := (List.range 5).foldl (fun t d => tabPut t d (junction temps d)) s.clk.temps
    hot := (List.range 5).foldl (fun t d => tabSet false t d (decide (95 ≤ junction temps d))) s.clk.hot } }
  (s.setReg CLK_TEMP 0 (BitVec.ofNat 32 (junction temps 0 + 256 * junction temps 1 + 65536 * junction temps 2 +
    16777216 * junction temps 3))).setFld CLK_TEMP_IO_DEG_C 0 (junction temps 4)

section

variable {temps : List Nat}

/-- A die at 115 °C trips the module. -/
theorem thermalSample_trip {d : Nat} (hoff : s.clk.off = false)
    (h : (List.range 5).find? (fun d => decide (115 ≤ junction temps d)) = some d) : thermalSample s temps =
    ({ s.withJunctions temps with clk := { (s.withJunctions temps).clk with trip := some d } } : State).powerCut := by
  unfold thermalSample
  rw [if_neg (by simp [hoff])]
  change (match (List.range 5).find? (fun d => decide (115 ≤ junction temps d)) with
    | some d => _
    | none => _) = _
  rw [h]
  rfl

/-- Below 115 °C the dies from 105 °C come into emergency, but for the sequence of R429. -/
theorem thermalSample_below (hoff : s.clk.off = false) (h : ∀ d, d < 5 → junction temps d < 115) :
    thermalSample s temps = if s.flag CLK_STATUS_VIN_WARN = true then s.withJunctions temps
      else (s.withJunctions temps).emergencies ((List.range 5).filter fun d => decide (105 ≤ junction temps d)) := by
  have hnone : (List.range 5).find? (fun d => decide (115 ≤ junction temps d)) = none := by
    rw [List.find?_eq_none]
    intro d hd
    have := h d (List.mem_range.1 hd)
    simp
    omega
  have hflag : (s.withJunctions temps).flag CLK_STATUS_VIN_WARN = s.flag CLK_STATUS_VIN_WARN :=
    (State.flag_setFld_off _ _ (by decide) (by decide) (.inl (by decide))).trans
      (State.flag_setReg_off _ _ (by decide) (by decide) (.inl (by decide)))
  rw [← hflag]
  unfold thermalSample
  rw [if_neg (by simp [hoff])]
  change (match (List.range 5).find? (fun d => decide (115 ≤ junction temps d)) with
    | some d => _
    | none => _) = _
  rw [hnone]
  rfl

theorem State.fld_withJunctions (s : State) : (s.withJunctions temps).fld CLK_TEMP_IO_DEG_C = junction temps 4 := by
  unfold State.withJunctions
  rw [State.fld_setFld_same _ _ _ _ (by decide)]
  exact Nat.mod_eq_of_lt (show junction temps 4 < 256 by unfold junction; omega)

theorem State.hot_withJunctions (s : State) (d : Fin 5) :
    tabGet false (s.withJunctions temps).clk.hot d = decide (95 ≤ junction temps d) := by
  refine (tabGet_foldl_tabSet false (fun d => decide (95 ≤ junction temps d)) _ _ _).trans (if_pos ?_)
  exact List.mem_range.2 d.isLt

theorem State.temps_withJunctions (s : State) (d : Fin 5) :
    tabFind (s.withJunctions temps).clk.temps d = some (junction temps d) := by
  refine (tabFind_foldl_tabPut (junction temps) _ _ _).trans (if_pos ?_)
  exact List.mem_range.2 d.isLt

theorem State.emerg_withJunctions (s : State) : (s.withJunctions temps).clk.emerg = s.clk.emerg := rfl

theorem State.diePoint_withJunctions (s : State) (d : Nat) : (s.withJunctions temps).diePoint d = s.diePoint d :=
  State.diePoint_of_reg ((State.reg_setReg_off _ _ (by decide) (by decide) (.inl (by decide))).trans
    (State.reg_setReg_off _ _ (by decide) (by decide) (.inl (by decide)))) d

end

end Sys2Proof.Machine

namespace Sys2Proof.Machine

variable {s t : State}

section

variable {temps : List Nat}

/-! ### What the statement says of a sample -/

theorem junction_trips {d : Nat} (hd : d < 5) (h : 115 ≤ junction temps d)
    (hlow : ∀ e, e < d → junction temps e < 115) :
    (List.range 5).find? (fun d => decide (115 ≤ junction temps d)) = some d := by
  rw [List.find?_range_eq_some]
  exact ⟨by simpa using h, List.mem_range.2 hd, fun e he => by simpa using hlow e he⟩

/-- At a trip everything volatile is gone, and the die stays recorded. -/
theorem thermalSample_powerCut {d : Nat} (hoff : s.clk.off = false) (hd : d < 5) (h : 115 ≤ junction temps d)
    (hlow : ∀ e, e < d → junction temps e < 115) :
    (thermalSample s temps).clk.off = true ∧ (thermalSample s temps).clk.trip = some d ∧
      (thermalSample s temps).mem = State.reset.mem ∧ (thermalSample s temps).host.flights = [] := by
  rw [thermalSample_trip hoff (junction_trips hd h hlow)]
  exact ⟨rfl, rfl, rfl, rfl⟩

/-- During the sequence of R429 a sample begins no emergency. -/
theorem thermalSample_held (hoff : s.clk.off = false) (h : ∀ d, d < 5 → junction temps d < 115)
    (hvin : s.flag CLK_STATUS_VIN_WARN = true) :
    (thermalSample s temps).fld CLK_TEMP_IO_DEG_C = junction temps 4 ∧
      (thermalSample s temps).clk.emerg = s.clk.emerg ∧
      ∀ d : Fin 5, tabGet false (thermalSample s temps).clk.hot d = decide (95 ≤ junction temps d) := by
  rw [thermalSample_below hoff h, if_pos hvin]
  exact ⟨s.fld_withJunctions, s.emerg_withJunctions, s.hot_withJunctions⟩

theorem State.fld_emergency (s : State) (d : Nat) :
    (s.emergency d).fld CLK_TEMP_IO_DEG_C = s.fld CLK_TEMP_IO_DEG_C := by
  cases h : tabFind s.clk.emerg d with
  | some n => rw [State.emergency_again (by simp [h])]
  | none =>
    have hreg : ∀ t : State, t.emergencyShown.reg CLK_TEMP_IO = t.reg CLK_TEMP_IO := fun t =>
      t.reg_emergencyShown (by decide) (by decide) (by decide)
    have hpoint : ∀ (t : State) x, (t.setPoint d x).reg CLK_TEMP_IO = t.reg CLK_TEMP_IO := fun t x =>
      t.reg_setReg_off _ (by decide) (by decide) (.inl (by decide))
    rw [State.emergency_new h]
    refine congrArg (getBits · 0 8) ((hreg _).trans ?_)
    split
    · exact (hpoint _ _).trans rfl
    · rfl

/-- Beside an emergency on each die from 105 °C, a sample leaves the dies as it shows them. -/
theorem thermalSample_emergencies (hoff : s.clk.off = false) (h : ∀ d, d < 5 → junction temps d < 115)
    (hvin : s.flag CLK_STATUS_VIN_WARN = false) :
    (thermalSample s temps).fld CLK_TEMP_IO_DEG_C = junction temps 4 ∧
      ∀ d : Fin 5, tabGet false (thermalSample s temps).clk.hot d = decide (95 ≤ junction temps d) ∧
        tabFind (thermalSample s temps).clk.temps d = some (junction temps d) ∧
        (105 ≤ junction temps d → (tabFind (thermalSample s temps).clk.emerg d).isSome = true ∧
          (tabFind s.clk.emerg d = none → (thermalSample s temps).flag CLK_STATUS_EMERG = true ∧
            ((d : Nat) < 4 → (thermalSample s temps).diePoint d = 0))) ∧
        (junction temps d < 105 → tabFind (thermalSample s temps).clk.emerg d = tabFind s.clk.emerg d ∧
          (thermalSample s temps).diePoint d = s.diePoint d) := by
  rw [thermalSample_below hoff h, if_neg (by simp [hvin])]
  generalize hl : (List.range 5).filter (fun d => decide (105 ≤ junction temps d)) = l
  have hmem : ∀ d : Fin 5, (d : Nat) ∈ l ↔ 105 ≤ junction temps d := fun d => by
    rw [← hl, List.mem_filter, List.mem_range]
    simp
  have hhot : ((s.withJunctions temps).emergencies l).clk.hot = (s.withJunctions temps).clk.hot :=
    foldl_keeps (·.clk.hot) (State.emergency_keeps (·.clk.hot) (fun _ _ _ _ => rfl) (fun _ _ _ => rfl)
      (fun _ _ => rfl) (fun _ _ => rfl) fun _ _ _ => rfl) l _
  have htemps : ((s.withJunctions temps).emergencies l).clk.temps = (s.withJunctions temps).clk.temps :=
    foldl_keeps (·.clk.temps) (State.emergency_keeps (·.clk.temps) (fun _ _ _ _ => rfl) (fun _ _ _ => rfl)
      (fun _ _ => rfl) (fun _ _ => rfl) fun _ _ _ => rfl) l _
  refine ⟨(foldl_keeps (·.fld CLK_TEMP_IO_DEG_C) State.fld_emergency l _).trans s.fld_withJunctions, fun d => ?_⟩
  rw [hhot, htemps, State.emerg_emergencies, State.diePoint_emergencies, State.emerg_withJunctions,
    State.diePoint_withJunctions]
  refine ⟨s.hot_withJunctions d, s.temps_withJunctions d, fun hd => ⟨?_, fun hn => ⟨?_, fun h4 => ?_⟩⟩,
    fun hd => ⟨?_, ?_⟩⟩
  · by_cases hn : tabFind s.clk.emerg d = none
    · simp [hn, (hmem d).2 hd]
    · simp [hn, Option.isSome_iff_ne_none]
  · exact State.flag_emergencies (.inl ⟨(hmem d).2 hd, hn⟩)
  · exact if_pos ⟨(hmem d).2 hd, h4, hn⟩
  · exact if_neg fun ⟨hin, _⟩ => absurd ((hmem d).1 hin) (by omega)
  · exact if_neg fun ⟨hin, _⟩ => absurd ((hmem d).1 hin) (by omega)

end

/-! ### An emergency ends (R427) -/

/-- A table whose only entries are under one key is empty once that key's are removed. -/
theorem tabDel_eq_nil {α : Type} {t : Tab α} {k : Nat} (h : ∀ j, j ≠ k → tabFind t j = none) :
    tabDel t k = [] := by
  refine List.eq_nil_iff_forall_not_mem.2 fun e he => ?_
  obtain ⟨he, hne⟩ := List.mem_filter.1 he
  have hk : e.1 ≠ k := by simpa using hne
  have hfind : ∀ u : Tab α, e ∈ u → tabFind u e.1 ≠ none := fun u hu => by
    induction u with
    | nil => cases hu
    | cons x u ih =>
      obtain ⟨a, w⟩ := x
      unfold tabFind
      split
      · exact Option.some_ne_none w
      · next ha => exact ih ((List.mem_cons.1 hu).resolve_left fun he => ha (by rw [he]))
  exact hfind t he (h _ hk)

/-- The state of a die whose emergency has ended, EMERG cleared with the last. -/
def State.calmed (s : State) (d : Nat) : State :=
  let s := { s with clk := { s.clk with emerg := tabDel s.clk.emerg d } }
  if s.clk.emerg.isEmpty then (s.setFld CLK_STATUS_EMERG 0 0).alertCheck else s

theorem emergencyEnd_ends {d : Nat} (h : (tabFind s.clk.emerg d).isSome = true) (hcool : tabGet 0 s.clk.temps d < 95) :
    emergencyEnd s d = if d < 4 then ({ s.calmed d with clk := { (s.calmed d).clk with
        restore := tabPut (s.calmed d).clk.restore d true } } : State).restorePoint d
      else s.calmed d := by
  unfold emergencyEnd
  exact if_neg (by simp [Option.isSome_iff_ne_none.1 h]; omega)

theorem State.clk_calmed (s : State) (d : Nat) :
    (s.calmed d).clk = { s.clk with emerg := tabDel s.clk.emerg d } := by
  unfold State.calmed
  dsimp only
  split
  · rw [State.clk_alertCheck, State.clk_setFld]
  · rfl

theorem State.reg_calmed (s : State) (d : Nat) {o : Nat} (ho : o ≠ CLK_STATUS) : (s.calmed d).reg o = s.reg o := by
  unfold State.calmed
  dsimp only
  split
  · rw [State.reg_congr (State.regs_alertCheck _)]
    exact State.reg_setReg_off _ _ (by decide) (by decide) (.inl ho.symm)
  · rfl

theorem State.flag_calmed {d : Nat} (h : ∀ k, k ≠ d → tabFind s.clk.emerg k = none) :
    (s.calmed d).flag CLK_STATUS_EMERG = false := by
  unfold State.calmed
  dsimp only
  rw [tabDel_eq_nil h, if_pos (c := ([] : Tab Nat).isEmpty = true) rfl, State.flag_congr (State.regs_alertCheck _)]
  exact State.flag_setFld_same _ 0 false (by decide) rfl

/-- The partitions with clusters on a die are the same where the PRT registers read the same. -/
theorem SamePrt.partsOnDie (h : SamePrt s t) (d : Nat) : t.partsOnDie d = s.partsOnDie d := by
  unfold State.partsOnDie
  refine List.filter_congr fun p hp => congrArg (List.any · _) (List.filter_congr fun c _ => ?_)
  have hp' := List.mem_range.1 hp
  have hs : t.reg (0x400104 + 0x40 * p) = s.reg (0x400104 + 0x40 * p) := h.reg _ (by omega) (by omega)
  have hc : t.reg (0x400108 + 0x40 * p) = s.reg (0x400108 + 0x40 * p) := h.reg _ (by omega) (by omega)
  simp [State.hasCluster, State.prtState, State.fld, hs, hc]

/-- A die whose emergency has ended returns to its point where its partitions are at a boundary, and waits for one
otherwise. -/
theorem State.restorePoint_cases {d : Nat} (hd : d < 4) (h : tabGet false s.clk.restore d = true) :
    if (s.partsOnDie d).all s.atBoundary then (s.restorePoint d).diePoint d = s.heldPoint d % 32
    else s.restorePoint d = s := by
  unfold State.restorePoint
  by_cases hb : (s.partsOnDie d).all s.atBoundary = true
  · rw [if_pos hb, if_pos (by simp [h, hb])]
    exact State.diePoint_setPoint_same _ _ hd
  · rw [if_neg hb, if_neg (by simp [hb])]

theorem State.emerg_restorePoint (s : State) (d : Nat) : (s.restorePoint d).clk.emerg = s.clk.emerg := by
  unfold State.restorePoint
  split <;> rfl

theorem State.flag_restorePoint (s : State) (d : Nat) :
    (s.restorePoint d).flag CLK_STATUS_EMERG = s.flag CLK_STATUS_EMERG := by
  unfold State.restorePoint
  split
  · exact State.flag_setReg_off _ _ (by decide) (by decide) (.inl (by decide))
  · rfl

/-- A die whose point waits for a boundary. -/
def State.restoring (s : State) (d : Nat) : State :=
  { s with clk := { s.clk with restore := tabPut s.clk.restore d true } }

/-- What the end of an emergency leaves: none on the die, EMERG with the last one, and the die's point where it goes. -/
theorem emergencyEnd_cools {d : Nat} (h : (tabFind s.clk.emerg d).isSome = true)
    (hcool : tabGet 0 s.clk.temps d < 95) :
    tabFind (emergencyEnd s d).clk.emerg d = none ∧
      ((∀ k, k ≠ d → tabFind s.clk.emerg k = none) → (emergencyEnd s d).flag CLK_STATUS_EMERG = false) ∧
      (d < 4 → if (s.partsOnDie d).all s.atBoundary then (emergencyEnd s d).diePoint d = s.heldPoint d % 32
        else (emergencyEnd s d).diePoint d = s.diePoint d ∧
          tabGet false (emergencyEnd s d).clk.restore d = true) := by
  have hnone : tabFind (s.calmed d).clk.emerg d = none := by
    rw [State.clk_calmed, tabFind_tabDel, if_pos rfl]
  by_cases hd : d < 4
  · have he : emergencyEnd s d = ((s.calmed d).restoring d).restorePoint d := by
      rw [emergencyEnd_ends h hcool, if_pos hd]
      rfl
    have hclk : ((s.calmed d).restoring d).clk =
        { s.clk with emerg := tabDel s.clk.emerg d, restore := tabPut s.clk.restore d true } := by
      unfold State.restoring
      rw [State.clk_calmed]
    have hwait : tabGet false ((s.calmed d).restoring d).clk.restore d = true := by
      rw [hclk]
      simp [tabGet, tabFind_tabPut]
    have hparts : ((s.calmed d).restoring d).partsOnDie d = s.partsOnDie d :=
      SamePrt.partsOnDie ⟨fun o ho _ => s.reg_calmed d (show o ≠ 0x200000 by omega)⟩ d
    have hbound : ((s.calmed d).restoring d).atBoundary = s.atBoundary := by
      have hflights : (s.calmed d).host = s.host := by
        unfold State.calmed State.alertCheck
        dsimp only
        split
        · split <;> rfl
        · rfl
      funext p
      exact congrArg (fun hs : HostSide => hs.flights.all fun f => f.fn != p + 1 || !f.ran) hflights
    have hheld : ((s.calmed d).restoring d).heldPoint d = s.heldPoint d := by
      unfold State.heldPoint
      rw [hclk]
    have hcases := State.restorePoint_cases hd hwait
    rw [hparts, hbound, hheld] at hcases
    rw [he]
    refine ⟨by rw [State.emerg_restorePoint]; exact hnone, fun hk => ?_, fun _ => ?_⟩
    · exact (State.flag_restorePoint _ _).trans (State.flag_calmed hk)
    · split at hcases
      · next hb => rwa [if_pos hb]
      · next hb =>
        rw [if_neg hb, hcases]
        exact ⟨State.diePoint_of_reg (s.reg_calmed d (by decide)) d, hwait⟩
  · rw [emergencyEnd_ends h hcool, if_neg hd]
    exact ⟨hnone, State.flag_calmed, fun h4 => absurd h4 hd⟩

/-! ## The 48 V input (R429) -/

/-- The sequence of R429 shows VIN_WARN and changes nothing of the clocks' state. -/
theorem State.flag_vinWarn (s : State) : s.vinWarn.flag CLK_STATUS_VIN_WARN = true := by
  unfold State.vinWarn
  rw [State.flag_congr (State.regs_alertCheck _)]
  refine (congrArg (fun w => getBits w 12 1 == 1)
    (State.reg_raise_owner _ (o := CLK_STATUS) (by decide) (by decide) (by decide))).trans ?_
  exact s.flag_setFld_same (f := CLK_STATUS_VIN_WARN) 0 true (by decide) rfl

theorem State.clk_vinWarn (s : State) : s.vinWarn.clk = s.clk := by
  unfold State.vinWarn
  rw [State.clk_alertCheck, State.clk_raise, State.clk_setFld]

theorem State.reg_vinWarn (s : State) {o : Nat} (ho : 0x200000 < o) : s.vinWarn.reg o = s.reg o := by
  unfold State.vinWarn
  rw [State.reg_congr (State.regs_alertCheck _), State.reg_raise_owner _ (by decide) (by decide) (by omega)]
  exact s.reg_setReg_off _ (by decide) (by decide) (.inl (Nat.ne_of_lt ho))

/-- Samples in a row below 38.00 V, and above 62.00 V, with one more. -/
def State.lowRun (s : State) (v : Nat) : Nat := if v < 3800 then s.clk.vinLow + 1 else 0
def State.highRun (s : State) (v : Nat) : Nat := if 6200 < v then s.clk.vinHigh + 1 else 0

/-- A sample of VIN is shown, and a dip that ends with it is counted. -/
def State.vinDipped (s : State) (v : Nat) : State :=
  if s.lowRun v = 0 ∧ s.clk.vinLow ≠ 0 then (s.setFld CLK_VIN_VOLTS 0 v).bump CLK_VIN_DIP_COUNT_COUNT
  else s.setFld CLK_VIN_VOLTS 0 v

/-- The state once a sample of VIN is shown and counted. -/
def State.vinCounted (s : State) (v : Nat) : State :=
  { s.vinDipped v with clk := { (s.vinDipped v).clk with vinLow := s.lowRun v, vinHigh := s.highRun v } }

theorem State.flag_vinShown (s : State) (v : Nat) :
    (s.setFld CLK_VIN_VOLTS 0 v).flag CLK_STATUS_VIN_WARN = s.flag CLK_STATUS_VIN_WARN :=
  State.flag_setFld_off _ _ (by decide) (by decide) (.inl (by decide))

/-- A field of another register than the count of dips. -/
theorem State.fld_vinDipped (s : State) (v : Nat) {f : Field} (h : CLK_VIN_DIP_COUNT ≠ f.off) :
    (s.vinDipped v).fld f = (s.setFld CLK_VIN_VOLTS 0 v).fld f := by
  unfold State.vinDipped
  split
  · exact State.fld_setFld_off _ _ (by decide) (by decide) (.inl h)
  · rfl

theorem State.clk_vinDipped (s : State) (v : Nat) : (s.vinDipped v).clk = s.clk := by
  unfold State.vinDipped
  split
  · rw [State.clk_bump, State.clk_setFld]
  · rw [State.clk_setFld]

/-- Once VIN_WARN is shown, a sample is shown and no more. -/
theorem vinSample_warned {v : Nat} (hoff : s.clk.off = false) (h : s.flag CLK_STATUS_VIN_WARN = true) :
    vinSample s v = s.setFld CLK_VIN_VOLTS 0 v := by
  unfold vinSample
  rw [if_neg (by simp [hoff])]
  exact if_pos ((s.flag_vinShown v).trans h)

/-- Before it, a sample is counted, and the tenth in a row above 62.00 V or the twentieth below 38.00 V begins the
sequence. -/
theorem vinSample_counts {v : Nat} (hoff : s.clk.off = false) (h : s.flag CLK_STATUS_VIN_WARN = false) :
    vinSample s v = if 10 ≤ s.highRun v then ({ s.vinCounted v with clk := { (s.vinCounted v).clk with
        disconnected := true } } : State).vinWarn
      else if 20 ≤ s.lowRun v then (s.vinCounted v).vinWarn
      else s.vinCounted v := by
  unfold vinSample
  rw [if_neg (by simp [hoff])]
  exact if_neg (by rw [State.flag_vinShown, h]; simp)

theorem State.clk_vinCounted (s : State) (v : Nat) :
    (s.vinCounted v).clk = { s.clk with vinLow := s.lowRun v, vinHigh := s.highRun v } := by
  unfold State.vinCounted
  rw [State.clk_vinDipped]

theorem State.fld_vinCounted (s : State) (v : Nat) : (s.vinCounted v).fld CLK_VIN_VOLTS = v % 65536 :=
  (s.fld_vinDipped v (by decide)).trans (s.fld_setFld_same CLK_VIN_VOLTS 0 v (by decide))

theorem State.flag_vinCounted (s : State) (v : Nat) :
    (s.vinCounted v).flag CLK_STATUS_VIN_WARN = s.flag CLK_STATUS_VIN_WARN :=
  (congrArg (· == 1) (s.fld_vinDipped v (by decide))).trans (s.flag_vinShown v)

/-- A dip that a sample ends is counted. -/
theorem State.dips_vinCounted (s : State) {v : Nat} (h : s.lowRun v = 0) :
    (s.vinCounted v).fld CLK_VIN_DIP_COUNT_COUNT =
      min (s.fld CLK_VIN_DIP_COUNT_COUNT + if s.clk.vinLow = 0 then 0 else 1) 0xFFFFFFFF := by
  have hshown : (s.setFld CLK_VIN_VOLTS 0 v).fld CLK_VIN_DIP_COUNT_COUNT = s.fld CLK_VIN_DIP_COUNT_COUNT :=
    State.fld_setFld_off _ _ (by decide) (by decide) (.inl (by decide))
  have hlt : s.fld CLK_VIN_DIP_COUNT_COUNT < 2 ^ 32 := s.fld_lt CLK_VIN_DIP_COUNT_COUNT 0
  change (s.vinDipped v).fld CLK_VIN_DIP_COUNT_COUNT = _
  unfold State.vinDipped
  by_cases hz : s.clk.vinLow = 0
  · rw [if_pos hz, Nat.add_zero, Nat.min_eq_left (by omega), if_neg (by simp [hz]), hshown]
  · rw [if_neg hz, if_pos ⟨h, hz⟩, State.fld_bump_same _ _ _ _ (by decide), hshown]
    rfl

/-- What a sample leaves before the sequence: the runs of samples, and VIN_WARN once one is long enough. -/
theorem vinSample_runs {v : Nat} (hoff : s.clk.off = false) (h : s.flag CLK_STATUS_VIN_WARN = false) :
    (vinSample s v).fld CLK_VIN_VOLTS = v % 65536 ∧ (vinSample s v).clk.vinLow = s.lowRun v ∧
      (vinSample s v).clk.vinHigh = s.highRun v ∧
      (vinSample s v).flag CLK_STATUS_VIN_WARN = decide (10 ≤ s.highRun v ∨ 20 ≤ s.lowRun v) ∧
      (vinSample s v).reg CLK_VIN_DIP_COUNT = (s.vinCounted v).reg CLK_VIN_DIP_COUNT := by
  have hclk := s.clk_vinCounted v
  have hvolts := s.fld_vinCounted v
  rw [vinSample_counts hoff h]
  split
  · next hh =>
    refine ⟨?_, ?_, ?_, by simp [hh, State.flag_vinWarn], State.reg_vinWarn _ (by decide)⟩
    · exact (congrArg (getBits · 0 16) (State.reg_vinWarn _ (o := CLK_VIN) (by decide))).trans hvolts
    · rw [State.clk_vinWarn, hclk]
    · rw [State.clk_vinWarn, hclk]
  · next hh =>
    split
    · next hl =>
      refine ⟨?_, ?_, ?_, by simp [hl, State.flag_vinWarn], State.reg_vinWarn _ (by decide)⟩
      · exact (congrArg (getBits · 0 16) (State.reg_vinWarn _ (o := CLK_VIN) (by decide))).trans hvolts
      · rw [State.clk_vinWarn, hclk]
      · rw [State.clk_vinWarn, hclk]
    · next hl =>
      refine ⟨hvolts, by rw [hclk], by rw [hclk], ?_, rfl⟩
      rw [State.flag_vinCounted, h, eq_comm, decide_eq_false_iff_not]
      exact fun ho => ho.elim hh hl

/-! ### What the statement says of a sample of VIN -/

theorem vinSample_shows {v : Nat} (hoff : s.clk.off = false) :
    (vinSample s v).fld CLK_VIN_VOLTS = v % 65536 ∧
      (s.flag CLK_STATUS_VIN_WARN = true → (vinSample s v).clk = s.clk) ∧
      (s.flag CLK_STATUS_VIN_WARN = false →
        (v < 3800 → (vinSample s v).clk.vinLow = s.clk.vinLow + 1 ∧
          (vinSample s v).flag CLK_STATUS_VIN_WARN = decide (20 ≤ s.clk.vinLow + 1)) ∧
        (6200 < v → (vinSample s v).clk.vinHigh = s.clk.vinHigh + 1 ∧
          (vinSample s v).flag CLK_STATUS_VIN_WARN = decide (10 ≤ s.clk.vinHigh + 1)) ∧
        (3800 ≤ v → v ≤ 6200 → (vinSample s v).flag CLK_STATUS_VIN_WARN = false ∧
          (vinSample s v).clk.vinLow = 0 ∧
          (vinSample s v).clk.vinHigh = 0 ∧ (vinSample s v).fld CLK_VIN_DIP_COUNT_COUNT =
            min (s.fld CLK_VIN_DIP_COUNT_COUNT + if s.clk.vinLow = 0 then 0 else 1) 0xFFFFFFFF)) := by
  cases h : s.flag CLK_STATUS_VIN_WARN with
  | true =>
    rw [vinSample_warned hoff h]
    exact ⟨s.fld_setFld_same CLK_VIN_VOLTS 0 v (by decide), fun _ => rfl, nofun⟩
  | false =>
    obtain ⟨hvolts, hlow, hhigh, hwarn, hdips⟩ := vinSample_runs (v := v) hoff h
    refine ⟨hvolts, nofun, fun _ => ⟨fun hv => ?_, fun hv => ?_, fun hl hh => ?_⟩⟩
    · have hl : s.lowRun v = s.clk.vinLow + 1 := if_pos hv
      have hh : s.highRun v = 0 := if_neg (by omega)
      rw [hlow, hwarn, hl, hh]
      exact ⟨rfl, by simp⟩
    · have hl : s.lowRun v = 0 := if_neg (by omega)
      have hh : s.highRun v = s.clk.vinHigh + 1 := if_pos hv
      rw [hhigh, hwarn, hl, hh]
      exact ⟨rfl, by simp⟩
    · have hl' : s.lowRun v = 0 := if_neg (by omega)
      have hh' : s.highRun v = 0 := if_neg (by omega)
      rw [hlow, hhigh, hwarn, hl', hh']
      exact ⟨by simp, rfl, rfl, (congrArg (getBits · 0 32) hdips).trans (s.dips_vinCounted hl')⟩

/-! ## The end of the hold-up, and the return of the input (R303, R429) -/

/-- What every regulator off leaves. -/
theorem vinHoldupEnd_cuts (h : s.flag CLK_STATUS_VIN_WARN = true) (hoff : s.clk.off = false) :
    (vinHoldupEnd s).clk.off = true ∧ (vinHoldupEnd s).flag CLK_STATUS_VIN_WARN = true ∧
      (vinHoldupEnd s).mem = State.reset.mem ∧ (vinHoldupEnd s).shed.bytes = s.commitStaged.shed.bytes ∧
      (vinHoldupEnd s).shed.maps = s.commitStaged.shed.maps ∧ (vinHoldupEnd s).shed.ops = [] := by
  have he : vinHoldupEnd s = s.commitStaged.powerCut.setFld CLK_STATUS_VIN_WARN 0 1 := if_neg (by simp [h, hoff])
  rw [he]
  exact ⟨rfl, State.flag_setFld_same _ 0 true (by decide) rfl, rfl, rfl, rfl, rfl⟩

end Sys2Proof.Machine

namespace Sys2Proof.Machine

variable {s t : State}

/-! ## A module reset (R443) -/

/-- A check of ALERT# leaves what is neither ALERT# nor what it watches. -/
theorem State.alertCheck_keeps {α : Type} (π : State → α)
    (hm : ∀ (s : State) a w, π { s with mbs := { s.mbs with alert := a, watched := w } } = π s) (s : State) :
    π s.alertCheck = π s := by
  unfold State.alertCheck
  dsimp only
  split
  · rfl
  · exact hm _ _ _

/-- The state once a module reset of a cause has shown it. -/
def State.lastShown (s : State) (cause : Nat) : State :=
  s.commitStaged.blank.setReg BOOT_LAST 0
    (BitVec.ofNat 32 (cause + (if cause = 6 then 16 else 0) + (if cause = 5 then s.clk.trip.getD 0 else 0) * 32))

/-- What neither the registers nor the board hold is as the cleared state has it. -/
theorem State.moduleReset_keeps {α : Type} (π : State → α) (hf : ∀ (s : State) f i x, π (s.setFld f i x) = π s)
    (hm : ∀ (s : State) a w, π { s with mbs := { s.mbs with alert := a, watched := w } } = π s)
    (s : State) (cause : Nat) : π (s.moduleReset cause) = π (s.lastShown cause) :=
  (State.alertCheck_keeps π hm _).trans (hf _ _ _ _)

theorem State.reg_moduleReset (s : State) (cause : Nat) : (s.moduleReset cause).reg BOOT_LAST = BitVec.ofNat 32
    (cause + (if cause = 6 then 16 else 0) + (if cause = 5 then s.clk.trip.getD 0 else 0) * 32) :=
  calc (s.moduleReset cause).reg BOOT_LAST
    _ = ((s.lastShown cause).setFld MBS_TARGET_ADDR 0 _).reg BOOT_LAST := State.reg_congr (State.regs_alertCheck _) _ _
    _ = (s.lastShown cause).reg BOOT_LAST := State.reg_setReg_off _ _ (by decide) (by decide) (.inl (by decide))
    _ = _ := State.reg_setReg_same _ _ _ _

/-- BOOT_LAST shows the cause. -/
theorem State.cause_moduleReset (s : State) {cause : Nat} (h : cause < 16) :
    (s.moduleReset cause).fld BOOT_LAST_CAUSE = cause := by
  unfold State.fld
  rw [State.reg_moduleReset]
  simp only [getBits, BitVec.toNat_ofNat]
  split <;> omega

/-- After a trip BOOT_LAST shows the die. -/
theorem State.die_moduleReset {d : Nat} (h : s.clk.trip = some d) (hd : d < 5) :
    (s.moduleReset 5).fld BOOT_LAST_TRIP_DIE = d := by
  unfold State.fld
  rw [State.reg_moduleReset, h]
  rw [if_pos rfl, if_neg (by decide), Option.getD_some]
  simp only [getBits, BitVec.toNat_ofNat]
  omega

/-- The commands that carry staged pages through leave what is no part of the shed. -/
theorem State.commitStaged_frame (s : State) : Frame [.shedData, .shed] s s.commitStaged := .commitStaged (.refl s)

/-- A module in reset after a cause, the flash and fuses as `c` has them, what else survives as `s` has it. -/
structure FreshFrom (c s t : State) (cause : Nat) : Prop where
  inReset : t.boot.inReset = true
  cause_eq : t.fld BOOT_LAST_CAUSE = cause
  on : t.clk.off = false
  mem : t.mem = State.reset.mem
  flights : t.host.flights = []
  yard : t.yard = State.reset.yard
  hostMem : t.host.mem = s.host.mem
  slotA : t.boot.slotA = c.boot.slotA
  slotB : t.boot.slotB = c.boot.slotB
  fusedMin : t.boot.fusedMin = c.boot.fusedMin
  shed : t.shed.bytes = s.commitStaged.shed.bytes
  scores : t.far.scores = s.far.scores
  identity : t.mbs.identity = s.mbs.identity
  pending : t.pending = s.pending

theorem State.moduleReset_fresh (s : State) {cause : Nat} (h : cause < 16) :
    FreshFrom s s (s.moduleReset cause) cause := by
  have hF := s.commitStaged_frame
  have hflash : s.commitStaged.boot = s.boot := hF.same .flash rfl
  have hfar : s.commitStaged.far = s.far := hF.same .farrier rfl
  have hboard : s.commitStaged.mbs = s.mbs := hF.same .board rfl
  have hboot : (s.moduleReset cause).boot = { s.boot with inReset := true, install := none } :=
    (State.moduleReset_keeps (·.boot) State.boot_setFld (fun _ _ _ => rfl) s cause).trans
      (show { s.commitStaged.boot with inReset := true, install := none } = _ by rw [hflash])
  have hhost : (s.moduleReset cause).host = { State.reset.host with
      mem := s.commitStaged.host.mem, msgs := s.commitStaged.host.msgs, lastRead := s.commitStaged.host.lastRead } :=
    State.moduleReset_keeps (·.host) State.host_setFld (fun _ _ _ => rfl) s cause
  have hscores : (s.moduleReset cause).far.scores = s.commitStaged.far.scores :=
    State.moduleReset_keeps (·.far.scores) (fun _ _ _ _ => rfl) (fun _ _ _ => rfl) s cause
  have hid : (s.moduleReset cause).mbs.identity = s.commitStaged.mbs.identity :=
    State.moduleReset_keeps (·.mbs.identity) (fun _ _ _ _ => rfl) (fun _ _ _ => rfl) s cause
  exact
    { inReset := by rw [hboot]
      cause_eq := s.cause_moduleReset h
      on := State.moduleReset_keeps (·.clk.off) (fun _ _ _ _ => rfl) (fun _ _ _ => rfl) s cause
      mem := State.moduleReset_keeps (·.mem) State.mem_setFld (fun _ _ _ => rfl) s cause
      flights := by rw [hhost]; rfl
      yard := State.moduleReset_keeps (·.yard) State.yard_setFld (fun _ _ _ => rfl) s cause
      hostMem := by rw [hhost]; exact hF.same .hostMem rfl
      slotA := by rw [hboot]
      slotB := by rw [hboot]
      fusedMin := by rw [hboot]
      shed := State.moduleReset_keeps (·.shed.bytes) (fun _ _ _ _ => rfl) (fun _ _ _ => rfl) s cause
      scores := by rw [hscores, hfar]
      identity := by rw [hid, hboard]
      pending := (State.moduleReset_keeps (·.pending) State.pending_setFld (fun _ _ _ => rfl) s cause).trans
        hF.pending }

end Sys2Proof.Machine

namespace Sys2Proof.Machine

/-! ## Heat and the 48 V input, as the commands carry them out -/

/-- Settles O52: each command by what it leaves, a sample by the run it makes or the dies it finds hot. -/
theorem heatAndInputPower : Obligations.HeatAndInputPower := by
  unfold Obligations.HeatAndInputPower
  intro s
  refine ⟨fun hoff => ⟨fun temps => ?_, fun v => ?_, ?_⟩, fun hoff => ?_, fun temps hoff => ⟨?_, ?_, ?_⟩,
    fun die => ⟨?_, ?_, ?_, ?_⟩,
    fun v hoff => ?_, fun hvin hoff => ?_, fun hvin hoff => ?_, fun hvin => ⟨?_, ?_⟩⟩
  · exact congrArg Host.Outcome.next (if_pos hoff)
  · exact congrArg Host.Outcome.next (if_pos hoff)
  · exact congrArg Host.Outcome.next (if_pos (by simp [hoff]))
  · exact congrArg Host.Outcome.next (if_neg (by simp [hoff]))
  · exact fun h hvin => ⟨_, rfl, thermalSample_held hoff h hvin⟩
  · exact fun h hvin => ⟨_, rfl, thermalSample_emergencies hoff h hvin⟩
  · exact fun d hd h hlow => ⟨_, rfl, thermalSample_powerCut hoff hd h hlow⟩
  · rintro hone hhot
    refine ⟨_, congrArg Host.Outcome.next (if_pos ⟨by rw [tabGet, hone]; rfl, hhot⟩), ?_, rfl⟩
    exact (tabFind_tabPut _ _ _ _).trans (if_pos rfl)
  · refine fun h => congrArg Host.Outcome.next (if_neg fun ⟨hone, hhot⟩ => ?_)
    rcases h with h | h
    · cases hf : tabFind s.clk.emerg die with
      | none => simp [tabGet, hf] at hone
      | some n => exact h (by simpa [tabGet, hf] using hone)
    · omega
  · exact fun h hcool => ⟨_, rfl, emergencyEnd_cools h hcool⟩
  · exact fun h => congrArg Host.Outcome.next (if_pos (by simpa using h))
  · exact ⟨_, rfl, vinSample_shows hoff⟩
  · exact ⟨_, rfl, vinHoldupEnd_cuts hvin hoff⟩
  · have hfresh := s.moduleReset_fresh (cause := 2) (by decide)
    exact ⟨_, congrArg Host.Outcome.next (if_pos (by simp [hvin, hoff])), hfresh.inReset,
      hfresh.cause_eq, hfresh.on⟩
  · exact congrArg Host.Outcome.next (if_pos (by simp [hvin]))
  · exact congrArg Host.Outcome.next (if_neg (by simp [hvin]))

end Sys2Proof.Machine

namespace Sys2Proof.Machine

variable {s₀ s t u : State}

/-! ## Registers that stay while a unit is reset

Of the registers, a reset of a unit (R458) writes those of its own in BOOT and the STATUS of its channel. What else it
does, and what the Farrier reports of it, leaves the blocks CLK and BOOT and those STATUS registers. -/

/-- The keys of the registers of CLK and BOOT, of GDR_STATUS and of SHD_STATUS. -/
def Steady (k : Nat) : Prop :=
  (0x200000 * 1048576 ≤ k ∧ k < 0x400000 * 1048576) ∨
    (GDR_STATUS * 1048576 ≤ k ∧ k < (GDR_STATUS + 1) * 1048576) ∨
    (SHD_STATUS * 1048576 ≤ k ∧ k < (SHD_STATUS + 1) * 1048576)

/-- Registers, by their keys, that no traffic of memory and no day book writes: none of the counters of a channel
(R290), none of the Lofts, the day books and the clusters. -/
structure Untold where
  /-- The keys. -/
  keys : Nat → Prop
  low : ∀ k, keys k → k < 0xD00000 * 1048576
  counters : ∀ k, keys k → ∀ o n, k = regKey o n →
    o = GDR_RD_LO ∨ o = GDR_RD_LO + 4 ∨ o = GDR_WR_LO ∨ o = GDR_WR_LO + 4 → 24 ≤ n

/-- Some registers read the same in two states. -/
structure Keeps (R : Untold) (s t : State) : Prop where
  find : ∀ k, R.keys k → tabFind t.regs k = tabFind s.regs k

/-- An offset at which no steady register lies. -/
abbrev Loose (o : Nat) : Prop := (o < 0x200000 ∨ 0x400000 ≤ o) ∧ o ≠ GDR_STATUS ∧ o ≠ SHD_STATUS

theorem Loose.not_steady {o i : Nat} (h : Loose o) (hi : i < 1048576) : ¬ Steady (regKey o i) := by
  obtain ⟨hblock, hgdr, hshd⟩ := h
  unfold Steady regKey
  simp only [GDR_STATUS, SHD_STATUS] at *
  omega

/-- Above SHD_STATUS no register is steady, whatever its index. -/
theorem not_steady_above {o : Nat} (i : Nat) (h : SHD_STATUS < o) : ¬ Steady (regKey o i) := by
  unfold Steady regKey
  simp only [GDR_STATUS, SHD_STATUS] at *
  omega

/-- The steady registers. -/
def steady : Untold where
  keys := Steady
  low k h := by
    unfold Steady at h
    simp only [GDR_STATUS, SHD_STATUS] at h
    omega
  counters k h o n hk ho := by
    by_contra hn
    have hloose : Loose o := by rcases ho with rfl | rfl | rfl | rfl <;> decide
    exact hloose.not_steady (by omega) (hk ▸ h)

/-- FAR_STATUS. -/
def farStatus : Untold where
  keys k := k = regKey FAR_STATUS 0
  low k h := by subst h; decide
  counters k h o n hk ho := by
    subst h
    unfold regKey at hk
    simp only [FAR_STATUS, GDR_RD_LO, GDR_WR_LO] at *
    omega

/-- The steady registers read the same in two states. -/
abbrev Quiet (s t : State) : Prop := Keeps steady s t

namespace Keeps

variable {R : Untold}

theorem refl (s : State) : Keeps R s s := ⟨fun _ _ => rfl⟩

theorem trans (h : Keeps R s t) (h' : Keeps R t u) : Keeps R s u :=
  ⟨fun k hk => (h'.find k hk).trans (h.find k hk)⟩

/-- What writes no register. -/
theorem on (h : Keeps R s₀ s) (hr : t.regs = s.regs) : Keeps R s₀ t := ⟨fun k hk => by rw [hr, h.find k hk]⟩

theorem ite {c : Prop} [Decidable c] (ht : Keeps R s t) (hu : Keeps R s u) : Keeps R s (if c then t else u) := by
  split <;> assumption

theorem foldl_mem {β : Type} {g : State → β → State} {l : List β} (h : Keeps R s t)
    (hg : ∀ t, ∀ x ∈ l, Keeps R t (g t x)) : Keeps R s (l.foldl g t) := by
  induction l generalizing t with
  | nil => exact h
  | cons x l ih =>
    exact ih (h.trans (hg t x List.mem_cons_self)) fun t y hy => hg t y (List.mem_cons_of_mem x hy)

theorem foldl {β : Type} {g : State → β → State} {l : List β} (h : Keeps R s t)
    (hg : ∀ t x, Keeps R t (g t x)) : Keeps R s (l.foldl g t) := h.foldl_mem fun t x _ => hg t x

theorem setReg (h : Keeps R s₀ s) {o i : Nat} {v : Word} (hk : ¬ R.keys (regKey o i)) :
    Keeps R s₀ (s.setReg o i v) :=
  h.trans ⟨fun _ hs => tabFind_tabSet_ne _ _ _ fun e => hk (e ▸ hs)⟩

/-! ### The registers of the Lofts, of the day books and of the clusters -/

theorem setRegHigh (h : Keeps R s₀ s) {o i : Nat} {v : Word} (ho : 0xD00000 ≤ o) : Keeps R s₀ (s.setReg o i v) :=
  h.setReg fun hk => by
    have := R.low _ hk
    unfold regKey at this
    omega

theorem setFldHigh (h : Keeps R s₀ s) {f : Field} {i x : Nat} (ho : 0xD00000 ≤ f.off := by decide) :
    Keeps R s₀ (s.setFld f i x) := h.setRegHigh ho

theorem bumpHigh (h : Keeps R s₀ s) {f : Field} {i n : Nat} (ho : 0xD00000 ≤ f.off := by decide) :
    Keeps R s₀ (s.bump f i n) := h.setFldHigh ho

theorem setReg64High (h : Keeps R s₀ s) {o i v : Nat} (ho : 0xD00000 ≤ o := by decide) :
    Keeps R s₀ (s.setReg64 o i v) := (h.setRegHigh ho).setRegHigh (by omega)

theorem bump64High (h : Keeps R s₀ s) {o i n : Nat} (ho : 0xD00000 ≤ o := by decide) :
    Keeps R s₀ (s.bump64 o i n) := h.setReg64High ho

end Keeps

/-- The channel of a line is one of the 24. -/
theorem State.channelOf_lt (s : State) (owner l : Nat) : s.channelOf owner l < 24 := by
  have hall : ∀ n ∈ s.ownerChans owner, n < 24 := fun n hn => by
    unfold State.ownerChans at hn
    split at hn
    · exact List.mem_range.1 hn
    · exact List.mem_range.1 (List.mem_of_mem_filter hn)
  have hget : ∀ k, (s.ownerChans owner).getD k 0 < 24 := fun k => by
    rw [List.getD_eq_getElem?_getD]
    cases hk : (s.ownerChans owner)[k]? with
    | none => decide
    | some n => exact hall n (List.mem_of_getElem? hk)
  exact hget _

namespace Keeps

variable {R : Untold}

/-! ### Memory and the day books -/

theorem countGddr (h : Keeps R s₀ s) {chan n : Nat} {write : Bool} (hc : chan < 24) :
    Keeps R s₀ (s.countGddr chan n write) := by
  have hfree : ∀ o, o = GDR_RD_LO ∨ o = GDR_RD_LO + 4 ∨ o = GDR_WR_LO ∨ o = GDR_WR_LO + 4 →
      ¬ R.keys (regKey o chan) := fun o ho hk => Nat.not_le_of_lt hc (R.counters _ hk o chan rfl ho)
  cases write
  · exact .ite h ((h.setReg (hfree _ (.inl rfl))).setReg (hfree _ (.inr (.inl rfl))))
  · exact .ite h ((h.setReg (hfree _ (.inr (.inr (.inl rfl))))).setReg (hfree _ (.inr (.inr (.inr rfl)))))

theorem writeBack (h : Keeps R s₀ s) {c : Nat} {l : LoftLine} : Keeps R s₀ (s.writeBack c l) := by
  unfold State.writeBack
  extract_lets n t lofts u
  have ht : Keeps R s₀ t := .ite h h.bumpHigh
  have hu : Keeps R s₀ u := ht.on rfl
  exact hu.countGddr (State.channelOf_lt ..)

theorem evict (h : Keeps R s₀ s) {c set way cls : Nat} : Keeps R s₀ (s.evict c set way cls) := by
  unfold State.evict
  split
  · exact h
  · next l _ =>
    have hl : ∀ ls, Keeps R s₀ ((s.writeBack c l).setLoftLines c set ls) := fun _ => h.writeBack.on rfl
    dsimp only
    split
    · exact (hl _).bumpHigh
    · exact (hl _).bumpHigh
    · exact (hl _).bumpHigh
    · exact hl _

theorem allocate (h : Keeps R s₀ s) {c set line : Nat} {due : Option Nat} (ht : s.allocate c set line due = some t) :
    Keeps R s₀ t := by
  unfold State.allocate at ht
  split at ht
  · cases ht
  · cases ht
    exact h.evict.on rfl

theorem keepStale (h : Keeps R s₀ s) {owner off : Nat} : Keeps R s₀ (s.keepStale owner off) := .ite h (h.on rfl)

theorem staleFills (h : Keeps R s₀ s) {line sec : Nat} : Keeps R s₀ (s.staleFills line sec) := h.on rfl

theorem waitSet (h : Keeps R s₀ s) {c : Nat} {w : SetWait} : Keeps R s₀ (s.waitSet c w) := by
  have hb : Keeps R s₀ (s.bump LFT_SET_BUSY_COUNT c) := h.bumpHigh
  exact hb.on rfl

theorem loftWrite (h : Keeps R s₀ s) {p off : Nat} {hint : Option Nat} : Keeps R s₀ (s.loftWrite p off hint) := by
  have dirty : ∀ {t : State}, Keeps R s₀ t → ∀ c set line mask due,
      Keeps R s₀ ((t.keepStale (p + 1) off).fillLine c set line mask due true) := fun ht _ _ _ _ _ =>
    ht.keepStale.on rfl
  unfold State.loftWrite
  refine .ite (dirty h ..) ?_
  split
  · exact (h.bumpHigh (f := LFT_WRITE_AROUND_COUNT)).staleFills.countGddr (State.channelOf_lt ..)
  · split
    · next ht => exact dirty (h.allocate ht) ..
    · exact h.keepStale.waitSet

theorem writeMem (h : Keeps R s₀ s) {owner off : Nat} {bs : List Byte} {hint : Option Nat} :
    Keeps R s₀ (s.writeMem owner off bs hint) :=
  (h.foldl fun t _ => .ite ((refl t).countGddr (State.channelOf_lt ..)) (refl t).loftWrite).on rfl

theorem writeAt (h : Keeps R s₀ s) {fn : Nat} {pl : Place} {bs : List Byte} : Keeps R s₀ (s.writeAt fn pl bs) := by
  cases pl with
  | host a => exact h.on rfl
  | gddr o => exact h.writeMem
  | scratch c o => exact h.on rfl

theorem restoreStale (h : Keeps R s₀ s) {k : Nat} : Keeps R s₀ (s.restoreStale k) := by
  unfold State.restoreStale
  split
  · exact h
  · exact h.on rfl

theorem dayRecord (h : Keeps R s₀ s) {fn type plan step : Nat} {body ext : List Byte} :
    Keeps R s₀ (s.dayRecord fn type plan step body ext) := by
  unfold State.dayRecord
  extract_lets n bs upto old old' t u
  have ht : Keeps R s₀ t := .ite h h.setFldHigh
  have hu : Keeps R s₀ u := (ht.setReg64High (o := DAY_OLDEST_SEQ_LO)).foldl fun v _ => (refl v).writeMem
  exact .ite h ((hu.setReg64High (o := DAY_NEXT_SEQ_LO)).bump64High (o := DAY_RECORDS_LO))

end Keeps

namespace Quiet

/-- A register of CLK or BOOT. -/
theorem reg (h : Quiet s t) {o : Nat} (ho : 0x200000 ≤ o) (ho' : o < 0x400000) (i : Nat) (hi : i < 1048576) :
    t.reg o i = s.reg o i := by
  unfold State.reg
  rw [h.find _ (.inl (by unfold regKey; omega))]

theorem gdrStatus (h : Quiet s t) {n : Nat} (hn : n < 1048576) : t.reg GDR_STATUS n = s.reg GDR_STATUS n := by
  unfold State.reg
  rw [h.find _ (.inr (.inl (by unfold regKey; omega)))]

theorem shdStatus (h : Quiet s t) {n : Nat} (hn : n < 1048576) : t.reg SHD_STATUS n = s.reg SHD_STATUS n := by
  unfold State.reg
  rw [h.find _ (.inr (.inr (by unfold regKey; omega)))]

/-! ### Registers and sources -/

theorem refl (s : State) : Quiet s s := Keeps.refl s

theorem setFld (h : Quiet s₀ s) {f : Field} {i x : Nat} (hi : i < 1048576) (ho : Loose f.off := by decide) :
    Quiet s₀ (s.setFld f i x) := h.setReg (ho.not_steady hi)

theorem bump (h : Quiet s₀ s) {f : Field} {i n : Nat} (hi : i < 1048576) (ho : Loose f.off := by decide) :
    Quiet s₀ (s.bump f i n) := h.setFld hi ho

theorem setFldAbove (h : Quiet s₀ s) {f : Field} {i x : Nat} (ho : SHD_STATUS < f.off := by decide) :
    Quiet s₀ (s.setFld f i x) := h.setReg (not_steady_above i ho)

theorem bumpAbove (h : Quiet s₀ s) {f : Field} {i n : Nat} (ho : SHD_STATUS < f.off := by decide) :
    Quiet s₀ (s.bump f i n) := h.setFldAbove ho

theorem bump64 (h : Quiet s₀ s) {o i n : Nat} (hi : i < 1048576) (ho : Loose o := by decide)
    (ho' : Loose (o + 4) := by decide) : Quiet s₀ (s.bump64 o i n) :=
  (h.setReg (ho.not_steady hi)).setReg (ho'.not_steady hi)

/-- A source of the owner or of a partition is raised. -/
theorem raise (h : Quiet s₀ s) {fn src : Nat} (hfn : fn < 1024) : Quiet s₀ (s.raise fn src) := by
  unfold State.raise
  refine .ite (h.on rfl) ?_
  unfold State.bellRaise
  by_cases ha : bellAssigned fn src = true
  · have hsrc : src < 128 := by
      unfold bellAssigned at ha
      split at ha <;> (simp at ha; omega)
    have hinst : bellInst fn src < 1048576 := by unfold bellInst; omega
    have hp : Quiet s₀ (s.setBellP fn src true) := h.setFld hinst (show Loose BEL_PENDING by decide)
    exact .ite h (.ite (h.bump (by omega)) (.ite hp (.ite hp (h.bump (by omega)))))
  · rw [if_pos (by simp [ha])]
    exact h

theorem alertCheck (h : Quiet s₀ s) : Quiet s₀ s.alertCheck := h.on s.regs_alertCheck

/-! ### Steps -/

theorem updStep (h : Quiet s₀ s) {p : Nat} {f : Step → Step} : Quiet s₀ (s.updStep p f) :=
  h.on (s.regs_updStep p f)

theorem stepFault (h : Quiet s₀ s) {p code : Nat} (hp : p < 32) : Quiet s₀ (s.stepFault p code) :=
  (h.updStep).raise (by omega)

/-! ### The Lofts -/

theorem dropLines (h : Quiet s₀ s) {c : Nat} {count : Bool} {q : LoftLine → Bool} :
    Quiet s₀ (s.dropLines c count q) :=
  h.foldl fun t set => by
    extract_lets gone u
    have hu : Quiet t u := (refl t).on rfl
    refine .ite (refl t) (hu.foldl fun v l => ?_)
    extract_lets ks w
    have hw : Quiet v w := .ite (refl v).bumpAbove (refl v)
    exact hw.foldl fun x _ => (refl x).restoreStale

theorem cancelPf (h : Quiet s₀ s) {q : Prefetch → Bool} : Quiet s₀ (s.cancelPf q) := by
  unfold State.cancelPf
  extract_lets gone mark yards lofts t
  have ht : Quiet s₀ t := h.on rfl
  exact .ite h (ht.foldl fun u _ => (refl u).bumpAbove)

/-! ### The Farrier's reports -/

theorem farLog (h : Quiet s₀ s) {event kind index detail : Nat} : Quiet s₀ (s.farLog event kind index detail) := by
  unfold State.farLog
  extract_lets e fars t u v
  have ht : Quiet s₀ t := h.on rfl
  have hu : Quiet s₀ u := ht.bumpAbove.setFldAbove
  have hv : Quiet s₀ v := hu.dayRecord
  exact hv.raise (by decide)

theorem spareOut (h : Quiet s₀ s) {kind index detail : Nat} : Quiet s₀ (s.spareOut kind index detail) := by
  unfold State.spareOut
  extract_lets t u
  have ht : Quiet s₀ t := h.setFldAbove.setFldAbove
  have hu : Quiet s₀ u := ht.setFldAbove.setFldAbove
  exact hu.farLog.alertCheck

theorem dayLose (h : Quiet s₀ s) {fn : Nat} {lost : Nat → Bool} : Quiet s₀ (s.dayLose fn lost) := by
  have hlost : Quiet s₀ ((s.setFld DAY_STATUS_LOST fn 1).bump DAY_LOST_COUNT fn
    (s.dayLostFrom fn lost (s.reg64 DAY_NEXT_SEQ_LO fn)
      (s.reg64 DAY_NEXT_SEQ_LO fn - s.reg64 DAY_OLDEST_SEQ_LO fn) (s.reg64 DAY_OLDEST_SEQ_LO fn))) :=
    h.setFldAbove.bumpAbove
  exact .ite h (.ite h (.ite (hlost.raise (by decide)) hlost))

end Quiet

end Sys2Proof.Machine

namespace Sys2Proof.Machine

variable {s₀ s t u : State}

namespace Quiet

/-! ### The content of a channel (R297, R225) -/

theorem markLines (h : Quiet s₀ s) {owner : Nat} {ls : List Nat} : Quiet s₀ (s.markLines owner ls) :=
  h.foldl fun t _ => (refl t).on ((State.regs_poisonGddr ..).trans (State.regs_writeGddr ..))

theorem wipeChannel (h : Quiet s₀ s) {n : Nat} (hn : n < 24) : Quiet s₀ (s.wipeChannel n) := by
  unfold State.wipeChannel
  extract_lets owners t rest
  have ht : Quiet s₀ t := h.foldl fun u _ => (refl u).markLines
  exact Keeps.countGddr (s := { t with gddrs := { t.gddrs with marked := tabSet [] t.gddrs.marked n rest } })
    (ht.on rfl) hn

theorem setPageField (h : Quiet s₀ s) {p at_ n v : Nat} {pl : Place} : Quiet s₀ (s.setPageField p pl at_ n v) :=
  h.writeAt

theorem unmarkPage (h : Quiet s₀ s) {p f : Nat} : Quiet s₀ (s.unmarkPage p f) := h.setPageField.setPageField

theorem dropNode (h : Quiet s₀ s) {p id : Nat} : Quiet s₀ (s.dropNode p id) := by
  unfold State.dropNode
  extract_lets t kvs
  have ht : Quiet s₀ t := by
    unfold t
    split
    · exact h.unmarkPage
    · exact h
  exact ht.on rfl

theorem refreshPool (h : Quiet s₀ s) {p : Nat} : Quiet s₀ (s.refreshPool p) :=
  h.setFldAbove.setFldAbove.setFldAbove.setFldAbove

theorem dropNodes (h : Quiet s₀ s) {p : Nat} : Quiet s₀ (s.dropNodes p) :=
  refreshPool (h.foldl fun t _ => (refl t).dropNode)

theorem poisonPool (h : Quiet s₀ s) {p : Nat} : Quiet s₀ (s.poisonPool p) :=
  .ite h (dropNodes (h.foldl fun t _ => (refl t).setPageField))

/-! ### Collectives that cannot complete (R392) -/

theorem stepReset (h : Quiet s₀ s) {p : Nat} : Quiet s₀ (s.stepReset p) := h.updStep

theorem markBale (h : Quiet s₀ s) {p : Nat} {pl : Place} {b : Bale} {dirty : Bool} :
    Quiet s₀ (s.markBale p pl b dirty) := .ite h.updStep.updStep h.updStep

theorem writeBale (h : Quiet s₀ s) {p : Nat} {pl : Place} {b : Bale} {dirty : Bool} {hint : Option Nat} :
    Quiet s₀ (s.writeBale p pl b dirty hint) := by
  unfold State.writeBale
  extract_lets bs t u
  have ht : Quiet s₀ t := by
    unfold t
    split
    · exact h.writeMem
    · exact h.writeAt
  have hu : Quiet s₀ u := ht.updStep.updStep
  exact hu.markBale

variable {p : Nat}

theorem musFault (h : Quiet s₀ s) (hp : p < 32) {code k : Nat} : Quiet s₀ (s.musFault p code k) := by
  have hi : p < 1048576 := by omega
  unfold State.musFault
  extract_lets t
  have ht : Quiet s₀ t := .ite h ((h.setFld (f := MUS_FAULT_CODE) hi).setFld (f := MUS_FAULT_COLL) hi)
  exact ((ht.setFld (f := MUS_STATUS_FAULT) hi).bump (f := MUS_FAULT_COUNT_COUNT) hi).stepFault hp

theorem writeBales (h : Quiet s₀ s) (hp : p < 32) {k : Nat} {x : CollCtx} {dirty : Bool} {bs : List (Nat × Bale)} :
    Quiet s₀ (s.writeBales p k x dirty bs) := by
  unfold State.writeBales
  extract_lets out t
  have ht : Quiet s₀ t := .ite h (h.musFault hp)
  refine ht.foldl fun u b => ?_
  split
  · exact .refl u
  · exact (refl u).writeBale

theorem writeShard (h : Quiet s₀ s) (hp : p < 32) {k j : Nat} {x : CollCtx} {g : List (List Byte)} {d : SumHdr}
    {data : List Word} {dirty : Bool} : Quiet s₀ (s.writeShard p k x g j d data dirty) := h.writeBales hp

theorem writeRaw (h : Quiet s₀ s) (hp : p < 32) {k off : Nat} {x : CollCtx} {data : List Word} {poison : Bool} :
    Quiet s₀ (s.writeRaw p k x off data poison) := by
  unfold State.writeRaw
  split
  · exact .ite h (h.musFault hp)
  · exact writeBales h.writeAt hp

theorem resetRaw (h : Quiet s₀ s) (hp : p < 32) {k off : Nat} {x : CollCtx} : Quiet s₀ (s.resetRaw p k x off) := by
  unfold State.resetRaw
  dsimp only
  split
  · exact h.writeRaw hp
  · exact .ite (h.writeRaw hp) (h.writeBales hp)

theorem setTensorWord (h : Quiet s₀ s) {id k v : Nat} : Quiet s₀ (s.setTensorWord p id k v) := by
  unfold State.setTensorWord
  split
  · exact h
  · exact h.writeAt

theorem a2aCounts (h : Quiet s₀ s) {x : CollCtx} {cs : List Nat} : Quiet s₀ (s.a2aCounts p x cs) :=
  h.foldl fun t _ => (refl t).setTensorWord

theorem resetRows (h : Quiet s₀ s) (hp : p < 32) {k : Nat} {x : CollCtx} {r : CollRun} :
    Quiet s₀ (s.resetRows p k x r) := .ite (h.writeBales hp) (h.writeBales hp).a2aCounts

theorem musSend (h : Quiet s₀ s) (hp : p < 32) {x : CollCtx} {k shard kind : Nat} {dests : List Nat} {hdr : SumHdr}
    {data : List Word} {rows : Option RowMsg} : Quiet s₀ (s.musSend p x k shard kind dests hdr data rows) := by
  have hi : p < 1048576 := by omega
  unfold State.musSend
  extract_lets bytes m side t
  have ht : Quiet s₀ t := h.on rfl
  exact .ite h (ht.bump64 (o := MUS_BYTES_LO) hi)

theorem halterSend (h : Quiet s₀ s) {id : Nat} {op : HalterOp} : Quiet s₀ (s.halterSend p id op) := by
  unfold State.halterSend
  exact h.on rfl

theorem collReset (h : Quiet s₀ s) (hp : p < 32) {k : Nat} : Quiet s₀ (s.collReset p k) := by
  unfold State.collReset
  split
  · next r x _ _ =>
    extract_lets geom none' lost unwritten t others u v
    have ht : Quiet s₀ t := .ite (h.foldl fun w _ => (refl w).writeShard hp) (.ite
      (h.foldl fun w _ => (refl w).resetRaw hp) (.ite (h.writeRaw hp) (h.resetRows hp)))
    have hu : Quiet s₀ u := ht.musSend hp
    have hv : Quiet s₀ v := hu.updStep
    exact .ite h (halterSend (op := .signal 1) hv).stepReset
  · exact h

end Quiet

/-! ### The partitions that execute a step

A reset of a link or of a die goes over them, partition by partition (R392). -/

/-- Only partitions execute. -/
def OnlyParts (s : State) : Prop := ∀ p ∈ s.stepping, p < 32

theorem mem_keys_iff {α : Type} (t : Tab α) (k : Nat) : k ∈ t.map (·.1) ↔ tabFind t k ≠ none := by
  induction t with
  | nil => simp [tabFind]
  | cons e t ih =>
    obtain ⟨a, v⟩ := e
    by_cases h : a = k
    · simp [tabFind, h]
    · simp [tabFind, h, ih, Ne.symm h]

theorem OnlyParts.of_frame {F : List Piece} (hp : OnlyParts s) (h : Frame F s t)
    (hF : F.contains .runs = false := by rfl) : OnlyParts t := fun p hmem => by
  refine hp p ((mem_keys_iff ..).2 fun hnone => (mem_keys_iff ..).1 hmem ?_)
  have hrun := h.runs_eq hF p
  unfold State.stepOf at hrun
  rw [hnone] at hrun
  simpa using hrun

theorem OnlyParts.of_yard (hp : OnlyParts s) (h : t.yard = s.yard) : OnlyParts t := by
  unfold OnlyParts State.stepping
  rw [h]
  exact hp

namespace Quiet

theorem dieColls (h : Quiet s₀ s) (hp : OnlyParts s) {d : Nat} : Quiet s₀ (s.dieColls d) := by
  refine h.foldl_mem fun t p hmem => .ite ?_ (.refl t)
  split
  · exact (refl t).foldl fun u _ => (refl u).collReset (hp p hmem)
  · exact .refl t

/-! ### Links (R456, R331) -/

theorem loseTransfer (h : Quiet s₀ s) {p k : Nat} {reset : Bool} : Quiet s₀ (s.loseTransfer p k reset) := by
  unfold State.loseTransfer
  split
  · exact h
  · exact .ite (.ite h.updStep.stepReset h.updStep.updStep) h

theorem dropEdgeDeferrals (h : Quiet s₀ s) {p l : Nat} (hp : p < 32) : Quiet s₀ (s.dropEdgeDeferrals p l) := by
  have hi : p < 1048576 := by omega
  unfold State.dropEdgeDeferrals
  extract_lets held lost rest side t
  have ht : Quiet s₀ t := h.on rfl
  exact .ite h ((ht.bump (f := MUS_DROPPED_COUNT) hi).setFld (f := MUS_STATUS_DEFER_HELD) hi)

theorem loseLink (h : Quiet s₀ s) {p l : Nat} {reset : Bool} (hp : p < 32) : Quiet s₀ (s.loseLink p l reset) := by
  unfold State.loseLink
  split
  · exact .ite (h.dropEdgeDeferrals hp) h
  · extract_lets gone t u
    have ht : Quiet s₀ t := h.foldl fun v _ => (refl v).loseTransfer
    have hu : Quiet s₀ u := ht.foldl fun v _ => (refl v).collReset hp
    exact .ite (hu.dropEdgeDeferrals hp) hu

theorem updLink (h : Quiet s₀ s) {l : Nat} {f : LinkSt → LinkSt} : Quiet s₀ (s.updLink l f) := h.on rfl

theorem linkDown (h : Quiet s₀ s) (hp : OnlyParts s) {l : Nat} (hl : l < 12) {reset : Bool} :
    Quiet s₀ (s.linkDown l reset) := by
  have hi : l < 1048576 := by omega
  unfold State.linkDown
  extract_lets t u v w
  have ht : Quiet s₀ t := (h.setFld (f := HLK_STATUS_UP) hi).setFld (f := HLK_STATUS_DOWN_EVENT) hi
  have hu : Quiet s₀ u := ht.setFld (f := HLK_STATUS_EPOCH) hi
  have hv : Quiet s₀ v := hu.bump (f := HLK_DOWN_COUNT_COUNT) hi
  have hw : Quiet s₀ w := hv.updLink
  have hframe : Frame [.links] s w := .updLink (.bump (.setFld (.setFld (.setFld (.refl s)))))
  have hpw : OnlyParts w := hp.of_frame hframe
  refine .ite h ((hw.foldl_mem fun x p hmem => ?_).foldl_mem fun x p hmem => (refl x).loseLink (hpw p hmem))
  exact .ite ((refl x).dropEdgeDeferrals (List.mem_range.1 hmem)) (.refl x)

theorem startTrain (h : Quiet s₀ s) {l : Nat} (hl : l < 12) : Quiet s₀ (s.startTrain l) := by
  have hi : l < 1048576 := by omega
  have hset : Quiet s₀ ((s.setFld HLK_STATUS_TRAINING l 1).setFld HLK_STATUS_MISWIRED l 0) :=
    (h.setFld (f := HLK_STATUS_TRAINING) hi).setFld (f := HLK_STATUS_MISWIRED) hi
  exact .ite (hset.on rfl) (h.setFld (f := HLK_STATUS_TRAINING) hi)

theorem linkRetrain (h : Quiet s₀ s) (hp : OnlyParts s) {l : Nat} (hl : l < 12) {reset : Bool} :
    Quiet s₀ (s.linkRetrain l reset) := (h.linkDown hp hl).startTrain hl

/-! ### Clusters (R156, R283, R284) -/

theorem clearPort (h : Quiet s₀ s) {f : Field} {core port : Nat} (ho : SHD_STATUS < f.off := by decide) :
    Quiet s₀ (s.clearPort f core port) := .ite (h.setFldAbove ho) h

theorem setBroken (h : Quiet s₀ s) {core port : Nat} : Quiet s₀ (s.setBroken core port) := .ite h.setFldAbove h

theorem breakChute (h : Quiet s₀ s) {p plan k c : Nat} {e : BoundEdge} : Quiet s₀ (s.breakChute p plan k e c) := by
  have hoff : SHD_STATUS < (COR_CHUTE_TX_BALES_COUNT e.srcPort).off := by
    simp only [SHD_STATUS]
    omega
  unfold State.breakChute
  extract_lets src dst ch t new u v w x
  have ht : Quiet s₀ t := .ite (h.bumpAbove hoff) h
  have hu : Quiet s₀ u := ht.on rfl
  have hv : Quiet s₀ v := .ite hu.clearPort hu
  have hw : Quiet s₀ w := .ite hv.clearPort hv
  have hx : Quiet s₀ x := .ite hw hw.setBroken
  exact .ite h (.ite hx hx.setBroken)

theorem breakChutes (h : Quiet s₀ s) {c : Nat} : Quiet s₀ (s.breakChutes c) :=
  h.foldl fun t _ => (refl t).foldl fun u _ => (refl u).breakChute

theorem dropHalter (h : Quiet s₀ s) {c : Nat} : Quiet s₀ (s.dropHalter c) := h.on rfl

theorem zeroScratch (h : Quiet s₀ s) {core : Nat} : Quiet s₀ (s.zeroScratch core) := h.on rfl

end Quiet

end Sys2Proof.Machine

namespace Sys2Proof.Machine

variable {s₀ s t u : State}

/-! ## The reset of one unit (R456 to R459) -/

/-! ### Its bit and its epoch -/

theorem bitOf_iff_getBits (v : Word) (k : Nat) : bitOf v k = (getBits v k 1 == 1) := by
  unfold bitOf getBits
  rw [Nat.testBit_eq_decide_div_mod_eq, pow_one]
  rfl

section

variable (s) {o o' i i' j k : Nat} {b : Bool}

theorem State.bitOf_setBitOf (hk : k < 32) : bitOf ((s.setBitOf o i k b).reg o i) k = b := by
  unfold State.setBitOf
  rw [State.reg_setReg_same, bitOf_iff_getBits, getBits_setBits _ _ (by omega)]
  cases b <;> rfl

/-- The other bits of the word stay. -/
theorem State.bitOf_setBitOf_ne (hk : k < 32) (h : j ≠ k) :
    bitOf ((s.setBitOf o i k b).reg o i) j = bitOf (s.reg o i) j := by
  unfold State.setBitOf
  rw [State.reg_setReg_same, bitOf_iff_getBits, bitOf_iff_getBits]
  rcases Nat.lt_or_gt_of_ne h with h | h
  · rw [getBits_setBits_below _ _ (by omega) (by omega)]
  · rw [getBits_setBits_above _ _ (by omega) (by omega)]

theorem State.reg_setBitOf_off (hi : i < 1048576) (hi' : i' < 1048576) (h : o ≠ o' ∨ i ≠ i') :
    (s.setBitOf o i k b).reg o' i' = s.reg o' i' := s.reg_setReg_off _ hi hi' h

/-- Another bit of a register than the one set. -/
theorem State.flag_setFld_bit {a c x : Nat} (h : a ≠ c) (ha : a < 32) :
    (s.setFld ⟨o, a, 1⟩ i x).flag ⟨o, c, 1⟩ i = s.flag ⟨o, c, 1⟩ i :=
  s.flag_setFld_beside (f := ⟨o, a, 1⟩) (g := ⟨o, c, 1⟩) i x (by dsimp only; omega) rfl (by dsimp only; omega)

theorem State.epoch_epochUp (hk : k < 4) :
    getBits ((s.epochUp o k).reg o) (8 * k) 8 = (getBits (s.reg o) (8 * k) 8 + 1) % 256 := by
  unfold State.epochUp
  rw [State.reg_setReg_same, getBits_setBits _ _ (by omega)]
  rfl

theorem State.reg_epochUp_off (hi' : i' < 1048576) (h : o ≠ o') : (s.epochUp o k).reg o' i' = s.reg o' i' :=
  s.reg_setReg_off _ (by decide) hi' (.inl h)

end

/-- The register that holds a unit's epoch. -/
def epochReg (kind i : Nat) : Nat :=
  match kind with
  | 1 => BOOT_EPOCH_DIE
  | 2 => BOOT_EPOCH_CLU (i / 4)
  | 3 => BOOT_EPOCH_GDR (i / 4)
  | _ => BOOT_EPOCH_SHD (i / 4)

/-- The epoch of a unit (R458). -/
def State.unitEpoch (s : State) (kind i : Nat) : Nat :=
  match kind with
  | 1 => getBits (s.reg BOOT_EPOCH_DIE) (8 * i) 8
  | 2 => getBits (s.reg (BOOT_EPOCH_CLU (i / 4))) (8 * (i % 4)) 8
  | 3 => getBits (s.reg (BOOT_EPOCH_GDR (i / 4))) (8 * (i % 4)) 8
  | _ => getBits (s.reg (BOOT_EPOCH_SHD (i / 4))) (8 * (i % 4)) 8

/-- What the obligation's statement says of a unit that enters reset: it is down, of a new epoch, and the register of
the owner's order stands. -/
structure Entered (kind i : Nat) (s t : State) : Prop where
  down : t.unitDown kind i = true
  epoch : t.unitEpoch kind i = (s.unitEpoch kind i + 1) % 256
  order : t.reg BOOT_UNIT_RESET = s.reg BOOT_UNIT_RESET

/-- The registers that an entering unit's state is read from, in the block BOOT. -/
theorem Quiet.boot (h : Quiet s t) {o : Nat} (ho : 0x300000 ≤ o) (ho' : o < 0x400000) : t.reg o = s.reg o :=
  h.reg (by omega) ho' 0 (by decide)

theorem State.dieDown_eq (s : State) {d : Nat} (hd : d < 4) :
    s.dieDown d = bitOf (s.reg BOOT_INRESET_UNIT) (24 + d) := by
  unfold State.dieDown State.fld getBits bitOf
  rw [Nat.testBit_mod_two_pow, Nat.testBit_div_two_pow, decide_eq_true hd, Bool.true_and, Nat.add_comm]

theorem State.flag_eq_of_reg {f : Field} {i : Nat} (h : t.reg f.off i = s.reg f.off i) : t.flag f i = s.flag f i := by
  unfold State.flag State.fld
  rw [h]

/-- The registers that say whether a unit is down. -/
theorem unitDown_congr {kind i : Nat} (hi : i < unitCount kind)
    (hunit : t.reg BOOT_INRESET_UNIT = s.reg BOOT_INRESET_UNIT) (hclu : t.reg BOOT_INRESET_CLU = s.reg BOOT_INRESET_CLU)
    (hgdr : t.reg GDR_STATUS i = s.reg GDR_STATUS i) (hshd : t.reg SHD_STATUS i = s.reg SHD_STATUS i) :
    t.unitDown kind i = s.unitDown kind i := by
  match kind with
  | 1 =>
    show t.dieDown i = s.dieDown i
    rw [State.dieDown_eq t hi, State.dieDown_eq s hi, hunit]
  | 2 =>
    show bitOf (t.reg BOOT_INRESET_CLU) i = bitOf (s.reg BOOT_INRESET_CLU) i
    rw [hclu]
  | 3 => exact State.flag_eq_of_reg (f := GDR_STATUS_IN_RESET) hgdr
  | 4 => exact State.flag_eq_of_reg (f := SHD_STATUS_IN_RESET) hshd
  | 0 | n + 5 => rfl

theorem unitCount_le (kind : Nat) : unitCount kind ≤ 32 := by
  unfold unitCount
  split <;> decide

theorem unitDown_of_quiet (h : Quiet s t) {kind i : Nat} (hi : i < unitCount kind) :
    t.unitDown kind i = s.unitDown kind i := by
  have hi' : i < 1048576 := Nat.lt_of_lt_of_le hi (Nat.le_trans (unitCount_le kind) (by decide))
  exact unitDown_congr hi (h.boot (by decide) (by decide)) (h.boot (by decide) (by decide)) (h.gdrStatus hi')
    (h.shdStatus hi')

theorem epochReg_bounds {kind i : Nat} (hi : i < 32) : 0x300000 ≤ epochReg kind i ∧ epochReg kind i < 0x400000 := by
  unfold epochReg
  split <;> simp only [BOOT_EPOCH_DIE, BOOT_EPOCH_CLU, BOOT_EPOCH_GDR, BOOT_EPOCH_SHD] <;> omega

theorem State.unitEpoch_eq (s : State) (kind i : Nat) :
    s.unitEpoch kind i = getBits (s.reg (epochReg kind i)) (if kind = 1 then 8 * i else 8 * (i % 4)) 8 := by
  unfold State.unitEpoch epochReg
  split
  · rfl
  · rfl
  · rfl
  · next hdie _ _ => rw [if_neg hdie]

theorem unitEpoch_congr {kind i : Nat} (h : t.reg (epochReg kind i) = s.reg (epochReg kind i)) :
    t.unitEpoch kind i = s.unitEpoch kind i := by
  rw [State.unitEpoch_eq, State.unitEpoch_eq, h]

theorem unitEpoch_of_quiet (h : Quiet s t) {kind i : Nat} (hi : i < 32) : t.unitEpoch kind i = s.unitEpoch kind i :=
  unitEpoch_congr (h.boot (epochReg_bounds hi).1 (epochReg_bounds hi).2)

theorem Entered.quiet {kind i : Nat} (h : Entered kind i s t) (hq : Quiet t u) (hi : i < unitCount kind) :
    Entered kind i s u := by
  have hi' : i < 32 := Nat.lt_of_lt_of_le hi (unitCount_le kind)
  exact ⟨(unitDown_of_quiet hq hi).trans h.down, (unitEpoch_of_quiet hq hi').trans h.epoch,
    (hq.boot (by decide) (by decide)).trans h.order⟩

theorem Entered.after_quiet {kind i : Nat} (h : Entered kind i t u) (hq : Quiet s t) (hi : i < 32) :
    Entered kind i s u :=
  ⟨h.down, by rw [h.epoch, unitEpoch_of_quiet hq hi], h.order.trans (hq.boot (by decide) (by decide))⟩

/-! ### Clusters -/

/-- The registers of BOOT as a cluster enters reset. -/
def State.clusterMarked (s : State) (c : Nat) : State :=
  (s.epochUp (BOOT_EPOCH_CLU (c / 4)) (c % 4)).setBitOf BOOT_INRESET_CLU 0 c true

theorem clusterMarked_entered {c : Nat} (hc : c < 32) : Entered 2 c s (s.clusterMarked c) where
  down := State.bitOf_setBitOf _ hc
  epoch := by
    show getBits ((s.clusterMarked c).reg (BOOT_EPOCH_CLU (c / 4))) (8 * (c % 4)) 8 = _
    unfold State.clusterMarked
    rw [State.reg_setBitOf_off _ (by decide) (by decide) (.inl (by
      simp only [BOOT_INRESET_CLU, BOOT_EPOCH_CLU]; omega)),
      State.epoch_epochUp _ (Nat.mod_lt _ (by decide))]
    rfl
  order := by
    unfold State.clusterMarked
    rw [State.reg_setBitOf_off _ (by decide) (by decide) (.inl (by decide)),
      State.reg_epochUp_off _ (by decide) (by simp only [BOOT_UNIT_RESET, BOOT_EPOCH_CLU]; omega)]

theorem clusterReset_quiet {c : Nat} (hup : s.clusterDown c = false) :
    Quiet (s.clusterMarked c) (s.clusterReset c) := by
  unfold State.clusterReset
  rw [if_neg (by simp [hup])]
  extract_lets a b d yards e f g h
  have ha : Quiet (s.clusterMarked c) a := .refl _
  have hb : Quiet (s.clusterMarked c) b := ha.dropLines
  have hd : Quiet (s.clusterMarked c) d := hb.foldl fun t k =>
    ((Quiet.refl t).zeroScratch.setFldAbove (f := SEQ_STATUS_RUNNING)).setFldAbove (f := SEQ_STATUS_CUR_DESC)
  have he : Quiet (s.clusterMarked c) e := hd.on rfl
  have hf : Quiet (s.clusterMarked c) f := he.foldl fun t k => (Quiet.refl t).setFldAbove (f := DRV_STATUS_BUSY k) (by
    simp only [SHD_STATUS]; omega)
  have hg : Quiet (s.clusterMarked c) g := hf.breakChutes.dropHalter
  have hh : Quiet (s.clusterMarked c) h := hg.cancelPf
  split
  · exact hh.stepReset
  · exact hh

theorem clusterReset_entered {c : Nat} (hc : c < 32) (hup : s.clusterDown c = false) :
    Entered 2 c s (s.clusterReset c) := (clusterMarked_entered hc).quiet (clusterReset_quiet hup) hc

/-! ### Channels -/

/-- The registers as a channel enters reset, after the day books' losses. -/
def State.channelMarked (s : State) (n : Nat) : State :=
  ((((s.epochUp (BOOT_EPOCH_GDR (n / 4)) (n % 4)).setFld GDR_STATUS_IN_RESET n 1).setFld GDR_STATUS_TRAINED n 0).setFld
    GDR_STATUS_RETAINED n 0).setBitOf BOOT_INRESET_UNIT 0 n true

theorem channelMarked_entered {n : Nat} (hn : n < 24) : Entered 3 n s (s.channelMarked n) where
  down := by
    have hi : n < 1048576 := by omega
    show State.flag _ GDR_STATUS_IN_RESET n = true
    unfold State.channelMarked State.setBitOf
    rw [State.flag_setReg_off _ _ (by decide) hi (.inl (by decide)),
      State.flag_setFld_bit _ (by decide) (by decide), State.flag_setFld_bit _ (by decide) (by decide)]
    exact State.flag_setFld_same _ n true (by decide) rfl
  epoch := by
    have hi : n < 1048576 := by omega
    have ho : GDR_STATUS ≠ BOOT_EPOCH_GDR (n / 4) := by simp only [GDR_STATUS, BOOT_EPOCH_GDR]; omega
    show getBits ((s.channelMarked n).reg (BOOT_EPOCH_GDR (n / 4))) (8 * (n % 4)) 8 = _
    unfold State.channelMarked
    rw [State.reg_setBitOf_off _ (by decide) (by decide) (.inl (by
      simp only [BOOT_INRESET_UNIT, BOOT_EPOCH_GDR]; omega)),
      State.reg_setFld_off _ _ hi (by decide) ho, State.reg_setFld_off _ _ hi (by decide) ho,
      State.reg_setFld_off _ _ hi (by decide) ho, State.epoch_epochUp _ (Nat.mod_lt _ (by decide))]
    rfl
  order := by
    have hi : n < 1048576 := by omega
    unfold State.channelMarked
    rw [State.reg_setBitOf_off _ (by decide) (by decide) (.inl (by decide)),
      State.reg_setFld_off _ _ hi (by decide) (by decide), State.reg_setFld_off _ _ hi (by decide) (by decide),
      State.reg_setFld_off _ _ hi (by decide) (by decide),
      State.reg_epochUp_off _ (by decide) (by simp only [BOOT_UNIT_RESET, BOOT_EPOCH_GDR]; omega)]

theorem channelReset_quiet {n : Nat} (hup : s.chanDown n = false) :
    ∃ t, Quiet s t ∧ Quiet (t.channelMarked n) (s.channelReset n) := by
  unfold State.channelReset
  rw [if_neg (by simp [hup])]
  extract_lets t a b d gddrs lofts e f
  have ht : Quiet s t := (Quiet.refl s).foldl fun u _ => (Quiet.refl u).dayLose
  have hd : Quiet (t.channelMarked n) d := .refl _
  have he : Quiet (t.channelMarked n) e := hd.on rfl
  have hf : Quiet (t.channelMarked n) f := he.foldl fun u _ => (Quiet.refl u).dropLines
  exact ⟨t, ht, hf.cancelPf⟩

theorem channelReset_entered {n : Nat} (hn : n < 24) (hup : s.chanDown n = false) :
    Entered 3 n s (s.channelReset n) := by
  obtain ⟨t, ht, hquiet⟩ := channelReset_quiet hup
  exact ((channelMarked_entered hn).quiet hquiet hn).after_quiet ht (by omega)

/-! ### Shed channels -/

theorem shedReset_entered {n : Nat} (hn : n < 16) (hup : s.shedDown n = false) :
    Entered 4 n s (s.shedReset n [] []) := by
  have hi : n < 1048576 := by omega
  have ho : SHD_STATUS ≠ BOOT_EPOCH_SHD (n / 4) := by simp only [SHD_STATUS, BOOT_EPOCH_SHD]; omega
  have hreset : s.shedReset n [] [] = (((s.epochUp (BOOT_EPOCH_SHD (n / 4)) (n % 4)).setBitOf BOOT_INRESET_SHD 0 n
      true).setFld SHD_STATUS_IN_RESET n 1).setFld SHD_STATUS_READY n 0 := if_neg (by simp [hup])
  rw [hreset]
  refine ⟨?_, ?_, ?_⟩
  · show State.flag _ SHD_STATUS_IN_RESET n = true
    rw [State.flag_setFld_bit _ (by decide) (by decide)]
    exact State.flag_setFld_same _ n true (by decide) rfl
  · show getBits (State.reg _ (BOOT_EPOCH_SHD (n / 4))) (8 * (n % 4)) 8 = _
    rw [State.reg_setFld_off _ _ hi (by decide) ho, State.reg_setFld_off _ _ hi (by decide) ho,
      State.reg_setBitOf_off _ (by decide) (by decide) (.inl (by simp only [BOOT_INRESET_SHD, BOOT_EPOCH_SHD]; omega)),
      State.epoch_epochUp _ (Nat.mod_lt _ (by decide))]
    rfl
  · rw [State.reg_setFld_off _ _ hi (by decide) (by decide), State.reg_setFld_off _ _ hi (by decide) (by decide),
      State.reg_setBitOf_off _ (by decide) (by decide) (.inl (by decide)),
      State.reg_epochUp_off _ (by decide) (by simp only [BOOT_UNIT_RESET, BOOT_EPOCH_SHD]; omega)]

/-! ### Dies -/

/-- What the resets of a die's units leave of the die's own registers. -/
structure DieSame (s t : State) : Prop where
  epoch : t.reg BOOT_EPOCH_DIE = s.reg BOOT_EPOCH_DIE
  order : t.reg BOOT_UNIT_RESET = s.reg BOOT_UNIT_RESET
  dies : ∀ k, 24 ≤ k → bitOf (t.reg BOOT_INRESET_UNIT) k = bitOf (s.reg BOOT_INRESET_UNIT) k

namespace DieSame

theorem refl (s : State) : DieSame s s := ⟨rfl, rfl, fun _ _ => rfl⟩

theorem trans (h : DieSame s t) (h' : DieSame t u) : DieSame s u :=
  ⟨h'.epoch.trans h.epoch, h'.order.trans h.order, fun k hk => (h'.dies k hk).trans (h.dies k hk)⟩

theorem of_quiet (h : Quiet s t) : DieSame s t :=
  ⟨h.boot (by decide) (by decide), h.boot (by decide) (by decide), fun k _ => by
    rw [h.boot (o := BOOT_INRESET_UNIT) (by decide) (by decide)]⟩

theorem foldl_mem {β : Type} {g : State → β → State} {l : List β} (h : DieSame s t)
    (hg : ∀ t, ∀ x ∈ l, DieSame t (g t x)) : DieSame s (l.foldl g t) := by
  induction l generalizing t with
  | nil => exact h
  | cons x l ih =>
    exact ih (h.trans (hg t x List.mem_cons_self)) fun t y hy => hg t y (List.mem_cons_of_mem x hy)

end DieSame

theorem clusterReset_dieSame {c : Nat} (hc : c < 32) : DieSame s (s.clusterReset c) := by
  cases hup : s.clusterDown c with
  | true =>
    have hsame : s.clusterReset c = s := if_pos hup
    rw [hsame]
    exact .refl s
  | false =>
    refine .trans (t := s.clusterMarked c) ?_ (.of_quiet (clusterReset_quiet hup))
    have hreg : ∀ o, o ≠ BOOT_INRESET_CLU → o ≠ BOOT_EPOCH_CLU (c / 4) →
        (s.clusterMarked c).reg o = s.reg o := fun o ho ho' => by
      unfold State.clusterMarked
      rw [State.reg_setBitOf_off _ (by decide) (by decide) (.inl ho.symm),
        State.reg_epochUp_off _ (by decide) ho'.symm]
    have hclu : ∀ o, 0x300120 ≤ o → o ≠ BOOT_EPOCH_CLU (c / 4) := fun o ho => by
      simp only [BOOT_EPOCH_CLU]; omega
    refine ⟨hreg _ (by decide) (hclu _ (by decide)), hreg _ (by decide) ?_, fun k _ => ?_⟩
    · simp only [BOOT_UNIT_RESET, BOOT_EPOCH_CLU]
      omega
    rw [hreg _ (by decide) (hclu _ (by decide))]

theorem channelReset_dieSame {n : Nat} (hn : n < 24) : DieSame s (s.channelReset n) := by
  have hi : n < 1048576 := by omega
  cases hup : s.chanDown n with
  | true =>
    have hsame : s.channelReset n = s := if_pos hup
    rw [hsame]
    exact .refl s
  | false =>
    obtain ⟨t, ht, hquiet⟩ := channelReset_quiet hup
    refine .trans (.of_quiet ht) (.trans ?_ (.of_quiet hquiet))
    have hset : ∀ (f : Field) x o, f.off = GDR_STATUS → o < 0x800000 →
        ∀ u : State, (u.setFld f n x).reg o = u.reg o := fun f x o hf ho u =>
      u.reg_setFld_off _ hi (by decide) (by rw [hf]; simp only [GDR_STATUS]; omega)
    have hreg : ∀ o, o < 0x800000 → o ≠ BOOT_INRESET_UNIT → o ≠ BOOT_EPOCH_GDR (n / 4) →
        (t.channelMarked n).reg o = t.reg o := fun o ho hunit hgdr => by
      unfold State.channelMarked
      rw [State.reg_setBitOf_off _ (by decide) (by decide) (.inl hunit.symm), hset _ _ _ rfl ho, hset _ _ _ rfl ho,
        hset _ _ _ rfl ho, State.reg_epochUp_off _ (by decide) hgdr.symm]
    refine ⟨hreg _ (by decide) (by decide) (by simp only [BOOT_EPOCH_DIE, BOOT_EPOCH_GDR]; omega),
      hreg _ (by decide) (by decide) (by simp only [BOOT_UNIT_RESET, BOOT_EPOCH_GDR]; omega), fun k hk => ?_⟩
    unfold State.channelMarked
    rw [State.bitOf_setBitOf_ne _ (by omega) (by omega), hset _ _ _ rfl (by decide), hset _ _ _ rfl (by decide),
      hset _ _ _ rfl (by decide),
      State.reg_epochUp_off _ (by decide) (by simp only [BOOT_INRESET_UNIT, BOOT_EPOCH_GDR]; omega)]

theorem dieLinks_lt (d : Nat) : ∀ l ∈ dieLinks d, l < 12 := by
  unfold dieLinks
  split <;> decide

/-- The registers of BOOT as a die enters reset. -/
def State.dieMarked (s : State) (d : Nat) : State :=
  (s.epochUp BOOT_EPOCH_DIE d).setBitOf BOOT_INRESET_UNIT 0 (24 + d) true

theorem dieMarked_entered {d : Nat} (hd : d < 4) : Entered 1 d s (s.dieMarked d) where
  down := by
    show State.dieDown _ d = true
    rw [State.dieDown_eq _ hd]
    exact State.bitOf_setBitOf _ (by omega)
  epoch := by
    show getBits ((s.dieMarked d).reg BOOT_EPOCH_DIE) (8 * d) 8 = _
    unfold State.dieMarked
    rw [State.reg_setBitOf_off _ (by decide) (by decide) (.inl (by decide)), State.epoch_epochUp _ hd]
    rfl
  order := by
    unfold State.dieMarked
    rw [State.reg_setBitOf_off _ (by decide) (by decide) (.inl (by decide)),
      State.reg_epochUp_off _ (by decide) (by decide)]

/-- The pieces of the state that a die's units take with them. -/
abbrev unitPieces : List Piece :=
  [.hostMem, .gddr, .scratch, .plans, .chutes, .halter, .sequencers, .drovers, .gddrs, .loft, .links, .muster]

theorem Quiet.links {ls : List Nat} {reset : Bool} (h : Quiet s₀ s) (hp : OnlyParts s) (hl : ∀ l ∈ ls, l < 12) :
    Quiet s₀ (ls.foldl (fun s l => s.linkRetrain l reset) s) := by
  induction ls generalizing s with
  | nil => exact h
  | cons l ls ih =>
    have hframe : Frame unitPieces s (s.linkRetrain l reset) := .linkRetrain (.refl s)
    exact ih (h.linkRetrain hp (hl l List.mem_cons_self)) (hp.of_frame hframe) fun m hm =>
      hl m (List.mem_cons_of_mem l hm)

theorem dieReset_dieSame {d : Nat} (hd : d < 4) (hp : OnlyParts s) (hup : s.dieDown d = false) :
    DieSame (s.dieMarked d) (s.dieReset d) := by
  unfold State.dieReset
  rw [if_neg (by simp [hup])]
  extract_lets a b e f
  have ha : DieSame (s.dieMarked d) a := .refl _
  have hpa : OnlyParts a := hp.of_yard rfl
  have hb : DieSame (s.dieMarked d) b := ha.trans (.of_quiet ((Quiet.refl a).dieColls hpa))
  have he : DieSame (s.dieMarked d) e := hb.foldl_mem fun t k hk =>
    clusterReset_dieSame (by have := List.mem_range.1 hk; omega)
  have hf : DieSame (s.dieMarked d) f := he.foldl_mem fun t k hk =>
    channelReset_dieSame (by have := List.mem_range.1 hk; omega)
  have hframe : Frame unitPieces a f := .foldl (.foldl (.dieColls (.refl a)) fun _ _ => .clusterReset (.refl _))
    fun _ _ => .channelReset (.refl _)
  refine hf.trans (.of_quiet ?_)
  exact (Quiet.refl f).links (hpa.of_frame hframe) (dieLinks_lt d)

theorem dieReset_entered {d : Nat} (hd : d < 4) (hp : OnlyParts s) (hup : s.dieDown d = false) :
    Entered 1 d s (s.dieReset d) := by
  obtain ⟨hdown, hepoch, horder⟩ := dieMarked_entered (s := s) hd
  obtain ⟨hepoch', horder', hdies⟩ := dieReset_dieSame hd hp hup
  refine ⟨?_, ?_, horder'.trans horder⟩
  · show State.dieDown _ d = true
    rw [State.dieDown_eq _ hd, hdies _ (by omega), ← State.dieDown_eq _ hd]
    exact hdown
  · rw [unitEpoch_congr (kind := 1) (i := d) hepoch', hepoch]

/-! ### GO (R456, R468) -/

/-- A unit that exists and runs enters reset. -/
theorem unitReset_entered {kind i : Nat} (hp : OnlyParts s) (hi : i < unitCount kind)
    (hup : s.unitDown kind i = false) : Entered kind i s (s.unitReset kind i [] [] []) := by
  match kind with
  | 1 => exact dieReset_entered hi hp hup
  | 2 => exact clusterReset_entered hi hup
  | 3 => exact channelReset_entered hi hup
  | 4 => exact shedReset_entered hi hup
  | 0 | n + 5 => exact absurd hi (Nat.not_lt_zero i)

end Sys2Proof.Machine

namespace Sys2Proof.Machine

variable {s t u : State}

/-! ### The end of a reset (R458) -/

/-- What the obligation's statement says of a unit that leaves reset, and that the owner's order stands. -/
structure Left (kind i : Nat) (s t : State) : Prop where
  up : t.unitDown kind i = false
  epoch : t.unitEpoch kind i = s.unitEpoch kind i
  order : t.reg BOOT_UNIT_RESET = s.reg BOOT_UNIT_RESET

theorem Left.quiet {kind i : Nat} (h : Left kind i s t) (hq : Quiet t u) (hi : i < unitCount kind) :
    Left kind i s u := by
  have hi' : i < 32 := Nat.lt_of_lt_of_le hi (unitCount_le kind)
  exact ⟨(unitDown_of_quiet hq hi).trans h.up, (unitEpoch_of_quiet hq hi').trans h.epoch,
    (hq.boot (by decide) (by decide)).trans h.order⟩

theorem Left.after_quiet {kind i : Nat} (h : Left kind i t u) (hq : Quiet s t) (hi : i < 32) : Left kind i s u :=
  ⟨h.up, h.epoch.trans (unitEpoch_of_quiet hq hi), h.order.trans (hq.boot (by decide) (by decide))⟩

theorem dieExit_left {d : Nat} (hd : d < 4) : Left 1 d s (s.setBitOf BOOT_INRESET_UNIT 0 (24 + d) false) where
  up := by
    show State.dieDown _ d = false
    rw [State.dieDown_eq _ hd]
    exact State.bitOf_setBitOf _ (by omega)
  epoch := unitEpoch_congr (kind := 1) (i := d) (s.reg_setBitOf_off (o' := BOOT_EPOCH_DIE) (by decide) (by decide)
    (.inl (by decide)))
  order := s.reg_setBitOf_off (by decide) (by decide) (.inl (by decide))

theorem clusterExit_left {c : Nat} (hc : c < 32) : Left 2 c s (s.clusterExit c) where
  up := State.bitOf_setBitOf _ hc
  epoch := unitEpoch_congr (kind := 2) (i := c) (s.reg_setBitOf_off (by decide) (by decide)
    (.inl (by simp only [epochReg, BOOT_INRESET_CLU, BOOT_EPOCH_CLU]; omega)))
  order := s.reg_setBitOf_off (by decide) (by decide) (.inl (by decide))

/-- The registers as a channel leaves reset. -/
def State.channelCleared (s : State) (n r : Nat) : State :=
  (((s.setFld GDR_STATUS_IN_RESET n 0).setFld GDR_STATUS_TRAINED n 1).setBitOf BOOT_INRESET_UNIT 0 n false).setFld
    GDR_STATUS_RETAINED n r

theorem channelCleared_left {n : Nat} (hn : n < 24) (r : Nat) : Left 3 n s (s.channelCleared n r) := by
  have hi : n < 1048576 := by omega
  have hreg : ∀ o, o < 0x800000 → o ≠ BOOT_INRESET_UNIT →
      (s.channelCleared n r).reg o = s.reg o := fun o ho hunit => by
    have hgdr : GDR_STATUS ≠ o := by simp only [GDR_STATUS]; omega
    unfold State.channelCleared
    rw [State.reg_setFld_off _ _ hi (by decide) hgdr,
      State.reg_setBitOf_off _ (by decide) (by decide) (.inl hunit.symm),
      State.reg_setFld_off _ _ hi (by decide) hgdr, State.reg_setFld_off _ _ hi (by decide) hgdr]
  refine ⟨?_, unitEpoch_congr (hreg _ ?_ ?_), hreg _ (by decide) (by decide)⟩
  · show State.flag _ GDR_STATUS_IN_RESET n = false
    unfold State.channelCleared State.setBitOf
    rw [State.flag_setFld_bit _ (by decide) (by decide), State.flag_setReg_off _ _ (by decide) hi (.inl (by decide)),
      State.flag_setFld_bit _ (by decide) (by decide)]
    exact State.flag_setFld_same _ n false (by decide) rfl
  · simp only [epochReg, BOOT_EPOCH_GDR]
    omega
  · simp only [epochReg, BOOT_EPOCH_GDR, BOOT_INRESET_UNIT]
    omega

theorem channelExit_left {n : Nat} (hn : n < 24) (retained : Bool) : Left 3 n s (s.channelExit n retained) := by
  unfold State.channelExit
  extract_lets t a b
  have ht : Quiet s t := .ite (.refl s) (Quiet.wipeChannel ((Quiet.refl s).foldl fun u _ => (Quiet.refl u).dayLose) hn)
  have hb : Left 3 n t b := channelCleared_left hn _
  exact (hb.quiet ((Quiet.refl b).foldl fun u _ => (Quiet.refl u).poisonPool) hn).after_quiet ht (by omega)

theorem shedExit_left {n : Nat} (hn : n < 16) : Left 4 n s
    (((s.setFld SHD_STATUS_IN_RESET n 0).setFld SHD_STATUS_READY n 1).setBitOf BOOT_INRESET_SHD 0 n false) := by
  have hi : n < 1048576 := by omega
  have hreg : ∀ o, o < 0x800000 → o ≠ BOOT_INRESET_SHD →
      (((s.setFld SHD_STATUS_IN_RESET n 0).setFld SHD_STATUS_READY n 1).setBitOf BOOT_INRESET_SHD 0 n false).reg o =
        s.reg o := fun o ho hunit => by
    have hshd : SHD_STATUS ≠ o := by simp only [SHD_STATUS]; omega
    rw [State.reg_setBitOf_off _ (by decide) (by decide) (.inl hunit.symm),
      State.reg_setFld_off _ _ hi (by decide) hshd, State.reg_setFld_off _ _ hi (by decide) hshd]
  refine ⟨?_, unitEpoch_congr (hreg _ ?_ ?_), hreg _ (by decide) (by decide)⟩
  · show State.flag _ SHD_STATUS_IN_RESET n = false
    unfold State.setBitOf
    rw [State.flag_setReg_off _ _ (by decide) hi (.inl (by decide)), State.flag_setFld_bit _ (by decide) (by decide)]
    exact State.flag_setFld_same _ n false (by decide) rfl
  · simp only [epochReg, BOOT_EPOCH_SHD]
    omega
  · simp only [epochReg, BOOT_EPOCH_SHD, BOOT_INRESET_SHD]
    omega

/-- The order of the owner that a unit's end completes shows DONE (R457). -/
def State.orderDone (s : State) (kind i : Nat) : State :=
  if s.fld BOOT_UNIT_RESET_RESULT = 1 ∧ s.fld BOOT_UNIT_RESET_KIND = kind ∧ s.fld BOOT_UNIT_RESET_INDEX = i
  then s.setFld BOOT_UNIT_RESET_RESULT 0 2 else s

theorem fld_of_reg {f : Field} (h : t.reg f.off = s.reg f.off) : t.fld f = s.fld f := by
  unfold State.fld
  rw [h]

theorem State.orderDone_reg (s : State) {kind i o j : Nat} (hj : j < 1048576) (ho : o ≠ BOOT_UNIT_RESET) :
    (s.orderDone kind i).reg o j = s.reg o j := by
  unfold State.orderDone
  split
  · exact s.reg_setFld_off _ (by decide) hj ho.symm
  · rfl

theorem epochReg_ne_order (kind i : Nat) : epochReg kind i ≠ BOOT_UNIT_RESET := by
  unfold epochReg
  split <;> simp only [BOOT_EPOCH_DIE, BOOT_EPOCH_CLU, BOOT_EPOCH_GDR, BOOT_EPOCH_SHD, BOOT_UNIT_RESET] <;> omega

/-- A unit that left reset by its exit, with the owner's order done where it was of that unit. -/
theorem Left.orderDone {kind i : Nat} (h : Left kind i s t) (hi : i < unitCount kind) :
    (t.orderDone kind i).unitDown kind i = false ∧ (t.orderDone kind i).unitEpoch kind i = s.unitEpoch kind i ∧
      (s.fld BOOT_UNIT_RESET_RESULT = 1 → s.fld BOOT_UNIT_RESET_KIND = kind → s.fld BOOT_UNIT_RESET_INDEX = i →
        (t.orderDone kind i).fld BOOT_UNIT_RESET_RESULT = 2) := by
  have hi' : i < 32 := Nat.lt_of_lt_of_le hi (unitCount_le kind)
  refine ⟨?_,
    (unitEpoch_congr (t.orderDone_reg (by decide) (epochReg_ne_order kind i))).trans h.epoch,
    fun hresult hkind hindex => ?_⟩
  · have hj : i < 1048576 := by omega
    rw [unitDown_congr hi (t.orderDone_reg (by decide) (by decide)) (t.orderDone_reg (by decide) (by decide))
      (t.orderDone_reg hj (by decide)) (t.orderDone_reg hj (by decide)), h.up]
  have hsame : ∀ {f : Field}, f.off = BOOT_UNIT_RESET → t.fld f = s.fld f := fun hf =>
    fld_of_reg (by rw [hf]; exact h.order)
  unfold State.orderDone
  rw [if_pos ⟨(hsame rfl).trans hresult, (hsame rfl).trans hkind, (hsame rfl).trans hindex⟩]
  exact t.fld_setFld_same BOOT_UNIT_RESET_RESULT 0 2 (by decide)

/-- A report of the Farrier leaves what asks for the module's replacement (R467). -/
theorem State.flag_farLog (s : State) (event kind index detail : Nat) :
    (s.farLog event kind index detail).flag FAR_STATUS_REPLACE = s.flag FAR_STATUS_REPLACE := by
  unfold State.farLog
  extract_lets e fars a b c
  have ha : a.regs = s.regs := rfl
  have hb : b.flag FAR_STATUS_REPLACE = a.flag FAR_STATUS_REPLACE :=
    (State.flag_setFld_bit _ (by decide) (by decide)).trans
      (a.flag_setFld_off _ (by decide) (by decide) (.inl (by decide)))
  have hc : Keeps farStatus b c := (Keeps.refl b).dayRecord
  have hreg : c.reg FAR_STATUS = b.reg FAR_STATUS := by
    unfold State.reg
    rw [hc.find _ rfl]
  calc
    _ = c.flag FAR_STATUS_REPLACE := State.flag_eq_of_reg (f := FAR_STATUS_REPLACE)
      (c.reg_raise_owner (by decide) (by decide) (by decide))
    _ = b.flag FAR_STATUS_REPLACE := State.flag_eq_of_reg (f := FAR_STATUS_REPLACE) hreg
    _ = a.flag FAR_STATUS_REPLACE := hb
    _ = s.flag FAR_STATUS_REPLACE := State.flag_congr ha _ _

theorem State.flag_spareOut (s : State) (kind index detail : Nat) :
    (s.spareOut kind index detail).flag FAR_STATUS_REPLACE = true := by
  unfold State.spareOut
  extract_lets t u
  have ht : t.flag FAR_STATUS_REPLACE = true := State.flag_setFld_same _ 0 true (by decide) rfl
  have hu : u.reg FAR_STATUS = t.reg FAR_STATUS :=
    (State.reg_setFld_off _ _ (by decide) (by decide) (by decide)).trans
      (t.reg_setFld_off _ (by decide) (by decide) (by decide))
  rw [State.flag_congr (State.regs_alertCheck _), State.flag_farLog]
  exact (State.flag_eq_of_reg (f := FAR_STATUS_REPLACE) hu).trans ht

end Sys2Proof.Machine

namespace Sys2Proof.Machine

variable {s t u : State}

/-! ### The commands -/

section

variable (s) (val : Word) (pages fetches : List (Nat × Nat)) (lands : List (Nat × Landing))

/-- The unit that GO selects, where it may not be reset. -/
abbrev State.goBad (s : State) (val : Word) : Prop :=
  unitCount (getBits val 0 3) ≤ getBits val 8 5 ∨ s.unitDown (getBits val 0 3) (getBits val 8 5) = true ∨
    s.clk.off = true

/-- BOOT_UNIT_RESET with the selection of a write. -/
def State.selectUnit (s : State) (val : Word) : State :=
  (s.setFld BOOT_UNIT_RESET_KIND 0 (getBits val 0 3)).setFld BOOT_UNIT_RESET_INDEX 0 (getBits val 8 5)

/-- The check that the command makes of the unit. -/
theorem goBad_iff : (decide (unitCount (getBits val 0 3) ≤ getBits val 8 5) ||
    s.unitDown (getBits val 0 3) (getBits val 8 5) || s.clk.off) = true ↔ s.goBad val := by
  simp [or_assoc]

theorem unitResetGo_select (h : bitOf val 16 = false) :
    unitResetGo s val false pages fetches lands = s.selectUnit val := by
  unfold unitResetGo
  dsimp only
  rw [if_neg Bool.false_ne_true, if_pos (by simp [h])]
  rfl

theorem unitResetGo_bad (h : bitOf val 16 = true) (hbad : s.goBad val) :
    unitResetGo s val false pages fetches lands = (s.selectUnit val).setFld BOOT_UNIT_RESET_RESULT 0 3 := by
  unfold unitResetGo
  dsimp only
  rw [if_neg Bool.false_ne_true, if_neg (by simp [h]), if_pos ((goBad_iff s val).2 hbad)]
  rfl

theorem unitResetGo_good (h : bitOf val 16 = true) (hgood : ¬ s.goBad val) :
    unitResetGo s val false pages fetches lands = ((s.selectUnit val).setFld BOOT_UNIT_RESET_RESULT 0 1).unitReset
      (getBits val 0 3) (getBits val 8 5) pages fetches lands := by
  unfold unitResetGo
  dsimp only
  rw [if_neg Bool.false_ne_true, if_neg (by simp [h]), if_neg ((goBad_iff s val).not.2 hgood)]
  rfl

theorem unitResetGo_farBad (hbad : s.goBad val) : unitResetGo s val true pages fetches lands = s := by
  unfold unitResetGo
  dsimp only
  rw [if_pos rfl, if_pos ((goBad_iff s val).2 hbad)]

theorem unitResetGo_far (hgood : ¬ s.goBad val) :
    ∃ fk, unitResetGo s val true pages fetches lands = (s.unitReset (getBits val 0 3) (getBits val 8 5) pages fetches
      lands).farLog 5 fk (getBits val 8 5) 0 := by
  unfold unitResetGo
  dsimp only
  rw [if_pos rfl, if_neg ((goBad_iff s val).not.2 hgood)]
  exact ⟨_, rfl⟩

end

section

variable (s) (val : Word)

theorem selectUnit_off {o j : Nat} (h : regKey BOOT_UNIT_RESET 0 ≠ regKey o j) :
    (s.selectUnit val).reg o j = s.reg o j :=
  (State.reg_setFld_ne _ (f := BOOT_UNIT_RESET_INDEX) _ h).trans (s.reg_setFld_ne (f := BOOT_UNIT_RESET_KIND) _ h)

theorem fld_selectUnit_kind : (s.selectUnit val).fld BOOT_UNIT_RESET_KIND = getBits val 0 3 := by
  unfold State.selectUnit
  rw [State.fld_setFld_beside (f := BOOT_UNIT_RESET_INDEX) (g := BOOT_UNIT_RESET_KIND) _ 0 _ (by decide) rfl
    (.inl (by decide)), State.fld_setFld_same _ _ _ _ (by decide)]
  exact Nat.mod_eq_of_lt (getBits_lt val 0 3)

theorem fld_selectUnit_index : (s.selectUnit val).fld BOOT_UNIT_RESET_INDEX = getBits val 8 5 := by
  unfold State.selectUnit
  rw [State.fld_setFld_same _ _ _ _ (by decide)]
  exact Nat.mod_eq_of_lt (getBits_lt val 8 5)

/-- The order of the owner under way: only BOOT_UNIT_RESET differs. -/
theorem ordered_reg {n o j : Nat} (h : regKey BOOT_UNIT_RESET 0 ≠ regKey o j) :
    ((s.selectUnit val).setFld BOOT_UNIT_RESET_RESULT 0 n).reg o j = s.reg o j :=
  (State.reg_setFld_ne _ (f := BOOT_UNIT_RESET_RESULT) _ h).trans (selectUnit_off s val h)

end

/-- The state in which the owner's order takes its unit into reset. -/
def State.ordered (s : State) (val : Word) : State := (s.selectUnit val).setFld BOOT_UNIT_RESET_RESULT 0 1

theorem fld_ordered (s : State) (val : Word) : (s.ordered val).fld BOOT_UNIT_RESET_RESULT = 1 :=
  State.fld_setFld_same _ _ _ _ (by decide)

theorem State.reg_ordered (s : State) (val : Word) {o j : Nat} (hj : j < 1048576) (ho : BOOT_UNIT_RESET ≠ o) :
    (s.ordered val).reg o j = s.reg o j :=
  ordered_reg s val fun e => ho ((regKey_inj (by decide) hj).1 e).1

/-- GO of the owner, where the unit exists and runs. -/
theorem go_entered {val : Word} (hp : OnlyParts s) (hgood : ¬ s.goBad val) :
    ∃ t, t = (s.ordered val).unitReset (getBits val 0 3) (getBits val 8 5) [] [] [] ∧
      t.fld BOOT_UNIT_RESET_RESULT = 1 ∧ t.unitDown (getBits val 0 3) (getBits val 8 5) = true ∧
      t.unitEpoch (getBits val 0 3) (getBits val 8 5) =
        (s.unitEpoch (getBits val 0 3) (getBits val 8 5) + 1) % 256 := by
  have hi : getBits val 8 5 < unitCount (getBits val 0 3) := Nat.lt_of_not_le fun h => hgood (.inl h)
  have hup : s.unitDown (getBits val 0 3) (getBits val 8 5) = false := by
    simpa using fun h => hgood (.inr (.inl h))
  generalize getBits val 0 3 = kind at hi hup ⊢
  have hi' : getBits val 8 5 < 1048576 := Nat.lt_of_lt_of_le (getBits_lt val 8 5) (by decide)
  have hdown := unitDown_congr hi (s.reg_ordered val (by decide) (by decide))
    (s.reg_ordered val (by decide) (by decide)) (s.reg_ordered val hi' (by decide)) (s.reg_ordered val hi' (by decide))
  have hframe : Frame [] s (s.ordered val) := .setFld (.setFld (.setFld (.refl s)))
  obtain ⟨down, epoch, order⟩ := unitReset_entered (hp.of_frame hframe) hi (hdown.trans hup)
  refine ⟨_, rfl, (fld_of_reg (f := BOOT_UNIT_RESET_RESULT) order).trans (fld_ordered s val), down, ?_⟩
  have hreg : (s.ordered val).reg (epochReg kind (getBits val 8 5)) = s.reg (epochReg kind (getBits val 8 5)) :=
    s.reg_ordered val (by decide) (epochReg_ne_order kind _).symm
  rw [epoch, unitEpoch_congr hreg]

/-- GO by order of the Farrier, where the unit exists and runs. -/
theorem farGo_entered {val : Word} (hp : OnlyParts s) (hgood : ¬ s.goBad val) :
    Entered (getBits val 0 3) (getBits val 8 5) s (unitResetGo s val true [] [] []) := by
  have hi : getBits val 8 5 < unitCount (getBits val 0 3) := Nat.lt_of_not_le fun h => hgood (.inl h)
  have hup : s.unitDown (getBits val 0 3) (getBits val 8 5) = false := by
    simpa using fun h => hgood (.inr (.inl h))
  obtain ⟨fk, hgo⟩ := unitResetGo_far s val [] [] [] hgood
  rw [hgo]
  exact (unitReset_entered hp hi hup).quiet (Quiet.refl _).farLog hi

/-! ### The exit -/

/-- What keeps a unit in reset. -/
abbrev State.exitStays (s : State) (kind i : Nat) : Prop :=
  unitCount kind ≤ i ∨ s.unitDown kind i = false ∨ s.oldRequests kind i = true ∨ s.clk.off = true ∨
    s.fld BOOT_STATUS_STAGE ≠ 3 ∨ kind = 1 ∧ s.dieBusy i = true ∨
    kind = 3 ∧ s.flag GDR_STATUS_FAILED i = true ∨ kind = 4 ∧ tabGet false s.shed.held i = true

theorem unitResetExit_stays {kind i : Nat} {ok retained : Bool} (h : s.exitStays kind i) :
    unitResetExit s kind i ok retained = s := by
  unfold unitResetExit
  split
  · rfl
  · next hgo =>
    have hkind : kind = 1 ∧ s.dieBusy i = true ∨ kind = 3 ∧ s.flag GDR_STATUS_FAILED i = true ∨
        kind = 4 ∧ tabGet false s.shed.held i = true := by
      simp only [not_or, Bool.not_eq_true, Bool.not_eq_false', not_le, ne_eq, not_not] at hgo
      obtain ⟨hi, hdown, hold, hon, hstage⟩ := hgo
      obtain h | h | h | h | h | h := h
      · exact absurd h (Nat.not_le_of_lt hi)
      · simp [h] at hdown
      · simp [h] at hold
      · simp [h] at hon
      · exact absurd hstage h
      · exact h
    obtain ⟨rfl, hbusy⟩ | ⟨rfl, hfailed⟩ | ⟨rfl, hheld⟩ := hkind
    · exact if_pos hbusy
    · exact if_pos hfailed
    · exact if_pos hheld

/-- A unit's training failed: a channel shows it (R295). -/
def State.trainFailed (s : State) (kind i : Nat) : State := if kind = 3 then s.setFld GDR_STATUS_FAILED i 1 else s

/-- The exit of a unit that nothing keeps: it leaves, the owner's order done, or its training failed and the Farrier
reports it. -/
theorem unitResetExit_goes {kind i : Nat} (ok retained : Bool) (h : ¬ s.exitStays kind i) :
    (ok = true ∨ kind = 1 → ∃ t, Left kind i s t ∧ unitResetExit s kind i ok retained = t.orderDone kind i) ∧
      (ok = false → kind ≠ 1 → ∃ part,
        unitResetExit s kind i ok retained = (s.trainFailed kind i).spareOut part i 0) := by
  simp only [not_or, not_and, not_le, ne_eq, not_not, Bool.not_eq_true, Bool.not_eq_false] at h
  obtain ⟨hi, hdown, hold, hon, hstage, hbusy, hfailed, hheld⟩ := h
  have hgo : ¬ (unitCount kind ≤ i ∨ (!s.unitDown kind i) = true ∨ s.oldRequests kind i = true ∨
      s.clk.off = true ∨ s.fld BOOT_STATUS_STAGE ≠ 3) := by
    simp [hdown, hold, hon, hstage, hi]
  unfold unitResetExit
  rw [if_neg hgo]
  dsimp only
  match kind with
  | 1 =>
    refine ⟨fun _ => ⟨_, dieExit_left hi, ?_⟩, fun _ hk => absurd rfl hk⟩
    exact if_neg (by simp [hbusy rfl])
  | 2 =>
    refine ⟨fun hok => ⟨_, clusterExit_left hi, ?_⟩, fun hok _ => ⟨kCluster, ?_⟩⟩
    · exact if_pos (hok.resolve_right (by decide))
    · exact if_neg (by simp [hok])
  | 3 =>
    have hgo : ¬ s.flag GDR_STATUS_FAILED i = true := by simp [hfailed]
    refine ⟨fun hok => ⟨_, channelExit_left hi retained, ?_⟩, fun hok _ => ⟨kChan, ?_⟩⟩
    · exact (if_neg hgo).trans (if_pos (hok.resolve_right (by decide)))
    · exact (if_neg hgo).trans (if_neg (by simp [hok]))
  | 4 =>
    have hgo : ¬ tabGet false s.shed.held i = true := by simp [hheld]
    refine ⟨fun hok => ⟨_, shedExit_left hi, ?_⟩, fun hok _ => ⟨kShed, ?_⟩⟩
    · exact (if_neg hgo).trans (if_pos (hok.resolve_right (by decide)))
    · exact (if_neg hgo).trans (if_neg (by simp [hok]))
  | 0 | n + 5 => exact absurd hi (Nat.not_lt_zero i)

end Sys2Proof.Machine

namespace Sys2Proof.Machine

variable {s t u : State}

/-- A unit whose training failed stays in reset, reported (R295, R444, R467). -/
theorem trainFailed_stays {kind i part : Nat} (hi : i < unitCount kind) (hdown : s.unitDown kind i = true) :
    ((s.trainFailed kind i).spareOut part i 0).unitDown kind i = true ∧
      ((s.trainFailed kind i).spareOut part i 0).flag FAR_STATUS_REPLACE = true ∧
      (kind = 3 → ((s.trainFailed kind i).spareOut part i 0).flag GDR_STATUS_FAILED i = true) := by
  have hi' : i < 1048576 := Nat.lt_of_lt_of_le hi (Nat.le_trans (unitCount_le kind) (by decide))
  have hquiet : Quiet (s.trainFailed kind i) ((s.trainFailed kind i).spareOut part i 0) := (Quiet.refl _).spareOut
  refine ⟨(unitDown_of_quiet hquiet hi).trans ?_, State.flag_spareOut .., fun hk => ?_⟩
  · unfold State.trainFailed
    split
    · next hk =>
      subst hk
      exact (State.flag_setFld_bit _ (by decide) (by decide)).trans hdown
    · exact hdown
  · refine (State.flag_eq_of_reg (f := GDR_STATUS_FAILED) (hquiet.gdrStatus hi')).trans ?_
    unfold State.trainFailed
    rw [if_pos hk]
    exact s.flag_setFld_same i true (by decide) rfl

/-- Settles O55, by the registers that the reset of each kind of unit writes, all else being quiet on them. -/
theorem unitResets : Obligations.UnitResets := by
  unfold Obligations.UnitResets
  intro val s hp kind i go bad epoch
  refine ⟨fun hgo pages fetches lands => ?_, fun hgo hbad pages fetches lands => ?_,
    fun hbad pages fetches lands => ?_,
    fun hgo hgood => ?_, fun hgood => ?_, fun ok retained => ⟨fun hstays => ?_, fun hgoes hok => ?_,
      fun hgoes hok hk => ?_⟩⟩
  · refine ⟨_, rfl, ?_⟩
    rw [unitResetGo_select s val _ _ _ hgo]
    exact ⟨fld_selectUnit_kind s val, fld_selectUnit_index s val, fun o j h => selectUnit_off s val h⟩
  · refine ⟨_, rfl, ?_⟩
    rw [unitResetGo_bad s val _ _ _ hgo hbad]
    refine ⟨State.fld_setFld_same _ _ _ _ (by decide), ?_, fun o j h => ordered_reg s val h⟩
    unfold State.selectUnit
    rw [State.yard_setFld, State.yard_setFld, State.yard_setFld]
  · exact congrArg Host.Outcome.next (unitResetGo_farBad s val _ _ _ hbad)
  · obtain ⟨t, ht, hresult, hdown, hepoch⟩ := go_entered hp hgood
    exact ⟨t, congrArg Host.Outcome.next ((unitResetGo_good s val _ _ _ hgo hgood).trans ht.symm), hresult, hdown,
      hepoch⟩
  · obtain ⟨hdown, hepoch, horder⟩ := farGo_entered hp hgood
    exact ⟨_, rfl, horder, hdown, hepoch⟩
  · exact congrArg Host.Outcome.next (unitResetExit_stays hstays)
  · obtain ⟨t, hleft, hexit⟩ := (unitResetExit_goes ok retained hgoes).1 hok
    have hi : i < unitCount kind := Nat.lt_of_not_le fun h => hgoes (.inl h)
    obtain ⟨hup, hepoch, hdone⟩ := hleft.orderDone hi
    exact ⟨_, congrArg Host.Outcome.next hexit, hup, hepoch, hdone⟩
  · obtain ⟨part, hexit⟩ := (unitResetExit_goes ok retained hgoes).2 hok hk
    have hi : i < unitCount kind := Nat.lt_of_not_le fun h => hgoes (.inl h)
    have hdown : s.unitDown kind i = true := by simpa using fun h => hgoes (.inr (.inl h))
    obtain ⟨hstays, hreplace, hfailed⟩ := trainFailed_stays (part := part) hi hdown
    exact ⟨_, congrArg Host.Outcome.next hexit, hstays, hreplace, hfailed⟩

end Sys2Proof.Machine

namespace Sys2Proof.Machine

variable {s t u : State}

/-! ## CONFIRM and the causes of a module reset (R443, R449, R460) -/

/-! ### The pages that a reset carries through (R303) -/

/-- What the pages of the shed that a reset carries through depend on. -/
structure ShedSame (s t : State) : Prop where
  shed : t.shed = s.shed
  parts : t.parts = s.parts
  base : ∀ fn, t.shedBase fn = s.shedBase fn

theorem ShedSame.commitPage (h : ShedSame s t) (o : ShedOp) (k : Nat) (bs : List Byte) :
    ShedSame (s.commitPage o k bs) (t.commitPage o k bs) := by
  refine ⟨?_, h.parts, h.base⟩
  unfold State.commitPage State.opPage State.shedKey
  dsimp only
  rw [h.shed, h.parts, h.base]

theorem ShedSame.foldl {β : Type} {g : State → β → State} (hg : ∀ s t x, ShedSame s t → ShedSame (g s x) (g t x))
    (l : List β) (h : ShedSame s t) : ShedSame (l.foldl g s) (l.foldl g t) := by
  induction l generalizing s t with
  | nil => exact h
  | cons x l ih => exact ih (hg s t x h)

theorem ShedSame.commitStaged (h : ShedSame s t) : ShedSame s.commitStaged t.commitStaged := by
  unfold State.commitStaged
  rw [h.shed]
  refine ShedSame.foldl (fun s t o h => ShedSame.foldl (fun s t x h => ?_) o.staged h) s.shed.ops h
  split
  · exact h.commitPage ..
  · exact h

theorem foldl_eq_self {α β : Type} {g : α → β → α} {l : List β} {a : α} (h : ∀ x ∈ l, g a x = a) :
    l.foldl g a = a := by
  induction l with
  | nil => rfl
  | cons x l ih =>
    rw [List.foldl_cons, h x List.mem_cons_self]
    exact ih fun y hy => h y (List.mem_cons_of_mem x hy)

/-- With no page past step 2 there is none to carry through. -/
theorem State.commitStaged_none (h : ∀ o ∈ s.shed.ops, ∀ x ∈ o.staged, x.2.1 < 2) : s.commitStaged = s :=
  foldl_eq_self fun o ho => foldl_eq_self fun x hx => if_neg (Nat.not_le_of_lt (h o ho x hx))

/-! ### CONFIRM (R449) -/

/-- The slot and the fuse as CONFIRM leaves them. -/
def State.confirmedBoot (s : State) : State :=
  let m := max s.boot.fusedMin (s.slot s.running).secVer
  let u := (s.setSlot s.running { s.slot s.running with good := true }).setFld BOOT_STATUS_CONFIRMED 0 1
  { u with boot := { u.boot with fusedMin := m } }

theorem State.confirm_eq (h : s.fld BOOT_STATUS_STAGE = 3) : s.confirm =
    (s.confirmedBoot.setFld BOOT_SECVER_FUSED_MIN 0 (max s.boot.fusedMin (s.slot s.running).secVer)).refreshOther := by
  have hfused : ((s.setSlot s.running { s.slot s.running with good := true }).setFld BOOT_STATUS_CONFIRMED 0
      1).boot.fusedMin = s.boot.fusedMin := by
    rw [State.boot_setFld]
    unfold State.setSlot
    split <;> rfl
  unfold State.confirm State.confirmedBoot
  rw [if_neg (not_not.2 h)]
  dsimp only
  rw [hfused]

theorem State.confirm_notReady (h : s.fld BOOT_STATUS_STAGE ≠ 3) : s.confirm = s := if_pos h

theorem State.slot_setSlot (s : State) {x : Nat} (hx : x < 2) (f : FlashSlot) :
    (s.setSlot x f).slot x = f ∧ (s.setSlot x f).slot (1 - x) = s.slot (1 - x) := by
  match x, hx with
  | 0, _ => exact ⟨rfl, rfl⟩
  | 1, _ => exact ⟨rfl, rfl⟩

theorem State.slot_congr (h : t.boot.slotA = s.boot.slotA) (h' : t.boot.slotB = s.boot.slotB) (x : Nat) :
    t.slot x = s.slot x := by
  unfold State.slot
  rw [h, h']

theorem State.running_lt (s : State) : s.running < 2 := getBits_lt _ 4 1

theorem State.regs_setSlot (s : State) (x : Nat) (f : FlashSlot) : (s.setSlot x f).regs = s.regs := by
  unfold State.setSlot
  split <;> rfl

/-- What CONFIRM leaves of the flash, once the module is ready. -/
theorem State.boot_confirm (h : s.fld BOOT_STATUS_STAGE = 3) : s.confirm.boot = { (s.setSlot s.running
    { s.slot s.running with good := true }).boot with fusedMin := max s.boot.fusedMin (s.slot s.running).secVer } := by
  rw [State.confirm_eq h]
  unfold State.refreshOther State.confirmedBoot
  rw [State.boot_setFld, State.boot_setFld]
  dsimp only
  rw [State.boot_setFld]

theorem State.slot_confirm (h : s.fld BOOT_STATUS_STAGE = 3) (x : Nat) : s.confirm.slot x = (s.setSlot s.running
    { s.slot s.running with good := true }).slot x :=
  State.slot_congr (by rw [State.boot_confirm h]) (by rw [State.boot_confirm h]) x

/-- The registers that CONFIRM writes. -/
theorem State.reg_confirm (s : State) {o j : Nat} (hj : j < 1048576) (ho : o ≠ BOOT_STATUS)
    (ho' : o ≠ BOOT_SECVER) :
    s.confirm.reg o j = s.reg o j := by
  by_cases h : s.fld BOOT_STATUS_STAGE = 3
  · rw [State.confirm_eq h]
    unfold State.refreshOther
    rw [State.reg_setFld_off _ _ (by decide) hj ho.symm, State.reg_setFld_off _ _ (by decide) hj ho'.symm]
    unfold State.confirmedBoot
    refine (State.reg_congr (s := (s.setSlot s.running { s.slot s.running with good := true }).setFld
      BOOT_STATUS_CONFIRMED 0 1) rfl o j).trans ?_
    rw [State.reg_setFld_off _ _ (by decide) hj ho.symm]
    exact State.reg_congr (State.regs_setSlot ..) o j
  · rw [State.confirm_notReady h]

theorem State.flag_confirm (h : s.fld BOOT_STATUS_STAGE = 3) : s.confirm.flag BOOT_STATUS_CONFIRMED = true := by
  rw [State.confirm_eq h]
  unfold State.refreshOther
  rw [State.flag_setFld_bit _ (by decide) (by decide),
    State.flag_setFld_off _ _ (by decide) (by decide) (.inl (by decide))]
  exact (State.flag_congr (s := (s.setSlot s.running { s.slot s.running with good := true }).setFld
    BOOT_STATUS_CONFIRMED 0 1) rfl _ _).trans (State.flag_setFld_same _ 0 true (by decide) rfl)

theorem confirm_frame (s : State) : Frame [.flash] s s.confirm := .confirm (.refl s)

theorem confirm_shedSame (s : State) : ShedSame s s.confirm where
  shed := (confirm_frame s).same .shed rfl
  parts := (confirm_frame s).same .partitions rfl
  base fn := by
    unfold State.shedBase State.fld
    rw [s.reg_confirm (by decide) (by simp only [BOOT_STATUS]; omega)
      (by simp only [BOOT_SECVER]; omega)]

/-- A module reset after CONFIRM: the flash as CONFIRM left it. -/
theorem State.confirm_fresh (s : State) {cause : Nat} (h : cause < 16) :
    FreshFrom s.confirm s (s.confirm.moduleReset cause) cause := by
  have hF := confirm_frame s
  have hfresh := s.confirm.moduleReset_fresh h
  have hhost : s.confirm.host.mem = s.host.mem := hF.same .hostMem rfl
  have hfar : s.confirm.far = s.far := hF.same .farrier rfl
  have hboard : s.confirm.mbs = s.mbs := hF.same .board rfl
  exact
    { hfresh with
      hostMem := hfresh.hostMem.trans hhost
      shed := hfresh.shed.trans (congrArg (·.bytes) (confirm_shedSame s).commitStaged.shed)
      scores := hfresh.scores.trans (by rw [hfar])
      identity := hfresh.identity.trans (by rw [hboard])
      pending := hfresh.pending.trans hF.pending }

/-! ### A write to BOOT_CTRL (R460) -/

section

variable (val : Word)

theorem bitOf_setBits_same {k : Nat} (hk : k < 32) : bitOf (setBits val k 1 1) k = true := by
  rw [bitOf_iff_getBits, getBits_setBits _ _ (by omega)]
  rfl

theorem bitOf_setBits_ne {j k : Nat} (hk : k < 32) (h : j ≠ k) : bitOf (setBits val k 1 1) j = bitOf val j := by
  rw [bitOf_iff_getBits, bitOf_iff_getBits]
  rcases Nat.lt_or_gt_of_ne h with h | h
  · rw [getBits_setBits_below _ _ (by omega) (by omega)]
  · rw [getBits_setBits_above _ _ (by omega) (by omega)]

theorem key_setBits {k : Nat} (hk : k < 16) : getBits (setBits val k 1 1) 16 16 = getBits val 16 16 :=
  getBits_setBits_above _ _ (by omega) (by omega)

theorem bootCtrlWrite_reset (h : bitOf val 1 = true) (hkey : getBits val 16 16 = 0xB007) :
    bootCtrlWrite s val = (if bitOf val 0 then s.confirm else s).moduleReset 3 := by
  unfold bootCtrlWrite
  dsimp only
  rw [if_pos (by simp [h, hkey])]

theorem bootCtrlWrite_noReset (h : bitOf val 1 = false ∨ getBits val 16 16 ≠ 0xB007) :
    bootCtrlWrite s val = if bitOf val 0 then s.confirm else s := by
  unfold bootCtrlWrite
  dsimp only
  rw [if_neg (by rcases h with h | h <;> simp [h])]

end

/-- The flash after the confirmation that a write asks for. -/
theorem State.ifConfirm_fresh (s : State) (c : Bool) :
    FreshFrom (if c then s.confirm else s) s ((if c then s.confirm else s).moduleReset 3) 3 := by
  cases c with
  | false =>
    rw [if_neg Bool.false_ne_true]
    exact s.moduleReset_fresh (by decide)
  | true =>
    rw [if_pos rfl]
    exact s.confirm_fresh (by decide)

end Sys2Proof.Machine

namespace Sys2Proof.Machine

variable {s t u : State}

/-! ## Start-up (R444) -/

/-! ### The parts of a start-up from a slot (steps 5 to 9) -/

/-- Step 5: what the slot shows. -/
def State.bootShown (s : State) (x : Nat) : State :=
  let f := s.slot x
  let s := (s.setFld BOOT_STATUS_SLOT 0 x).setFld BOOT_STATUS_CONFIRMED 0 f.good.toNat
  let s := (s.setReg BOOT_VERSION 0 (BitVec.ofNat 32 f.version)).setFld BOOT_SECVER_RUNNING 0 f.secVer
  (s.setFld PRT_MODE_SIGNED 0 f.prod.toNat).refreshOther

/-- The torn records of the log are counted. -/
def State.tornShown (s : State) (torn : Nat) : State :=
  if torn = 0 then s else (s.bump BOOT_LOG_BAD_COUNT 0 torn).setFld BOOT_STATUS_SETTINGS_ERR 0 1

/-- Steps 5 and 6, and the torn records of the log. -/
def State.bootPrepared (s : State) (x : Nat) (xa xb : Bool) : State :=
  ((s.bootShown x).startClocks xa xb).tornShown (s.slot x).active.torn

/-- Step 7: the settings. -/
def State.bootApplied (s : State) (q : Parsing) : State :=
  [1, 2, 3, 4].foldl (fun (s : State) c => s.applyClass c) (s.translate q).refreshLog

/-- Step 8, and READY. -/
def State.bootReady (s : State) (chans sheds : List Nat) : State :=
  ((s.setFld MBS_STATUS_ID_BAD 0 (!identityGood s.mbs.identity).toNat).startMemory chans sheds).setFld BOOT_STATUS_STAGE
    0 3

/-- A trip is raised at the next start-up (R426). -/
def State.tripRaised (s : State) : State := if s.fld BOOT_LAST_CAUSE = 5 then s.raise 0 67 else s

section

variable (s) {x : Nat} (xa xb : Bool) {q : Parsing} (chans sheds : List Nat)

theorem State.boot1_ready (h : (s.slot x).active.firstFail q = none) : s.boot1 x xa xb q chans sheds =
    (((s.bootPrepared x xa xb).bootApplied q).bootReady chans sheds).tripRaised.alertCheck := by
  unfold State.boot1
  dsimp only
  rw [h]
  rfl

theorem State.boot1_unread {r : SettingsRec} (h : (s.slot x).active.firstFail q = some r) :
    s.boot1 x xa xb q chans sheds = (((((s.bootPrepared x xa xb).setSlot x { s.slot x with incompat := true }).setFld
      BOOT_SETTINGS_ERR_CLASS 0 r.cls).setFld BOOT_SETTINGS_ERR_VERSION 0 r.ver).setFld BOOT_STATUS_SETTINGS_ERR 0
        1).moduleReset 6 := by
  unfold State.boot1
  dsimp only
  rw [h]
  rfl

end

/-! ### What each part keeps -/

theorem State.inReset_setSlot (s : State) (x : Nat) (f : FlashSlot) :
    (s.setSlot x f).boot.inReset = s.boot.inReset := by
  unfold State.setSlot
  split <;> rfl

theorem State.inReset_translate (s : State) (q : Parsing) : (s.translate q).boot.inReset = s.boot.inReset :=
  foldl_keeps (·.boot.inReset) (fun u y => by
    split
    · rfl
    · exact u.inReset_setSlot ..) q.translates s

theorem bootPrepared_frame (s : State) (x : Nat) (xa xb : Bool) : Frame [.clocks] s (s.bootPrepared x xa xb) := by
  have hshown : Frame [.clocks] s (s.bootShown x) :=
    .refreshOther (.setFld (.setFld (.setReg (.setFld (.setFld (.refl s))))))
  have hclocks : Frame [.clocks] s ((s.bootShown x).startClocks xa xb) := .startClocks hshown
  exact .ite hclocks (.setFld (.bump hclocks))

/-- The pieces of the state that the saved settings change (R453). -/
abbrev settingsPieces : List Piece :=
  [.hostMem, .gddr, .scratch, .plans, .halter, .gddrs, .loft, .links, .yardTime, .muster, .clocks]

theorem State.inReset_bootApplied (s : State) (q : Parsing) : (s.bootApplied q).boot.inReset = s.boot.inReset := by
  have happlied : Frame settingsPieces (s.translate q) (s.bootApplied q) :=
    .foldl (.refreshLog (.refl _)) fun _ _ => .applyClass (.refl _)
  have hboot : (s.bootApplied q).boot = (s.translate q).boot := happlied.same .flash rfl
  rw [hboot, State.inReset_translate]

/-- The pieces of the state that the memories' start changes. -/
abbrev startPieces : List Piece := [.gddr, .shed, .gddrs, .loft, .links, .farrier, .board]

theorem readied_frame (s : State) (chans sheds : List Nat) :
    Frame startPieces s (s.bootReady chans sheds).tripRaised.alertCheck := by
  have hready : Frame startPieces s (s.bootReady chans sheds) := .setFld (.startMemory (.setFld (.refl s)))
  exact .alertCheck (.ite (.raise hready) hready)

theorem State.reg_tripRaised (s : State) {o : Nat} (ho : 0x200000 ≤ o) {j : Nat} (hj : j < 1048576) :
    s.tripRaised.alertCheck.reg o j = s.reg o j := by
  rw [State.reg_congr (State.regs_alertCheck _)]
  unfold State.tripRaised
  split
  · exact s.reg_raise_owner (by decide) hj ho
  · rfl

/-- The stage is READY once the memories have started. -/
theorem State.stage_bootReady (s : State) (chans sheds : List Nat) :
    (s.bootReady chans sheds).tripRaised.alertCheck.fld BOOT_STATUS_STAGE = 3 :=
  (fld_of_reg (f := BOOT_STATUS_STAGE) (State.reg_tripRaised _ (by decide) (by decide))).trans
    (State.fld_setFld_same _ BOOT_STATUS_STAGE 0 3 (by decide))

/-- Start-up from a slot comes to READY, or to a reset of cause 6. -/
theorem boot1_outcome {x : Nat} (xa xb : Bool) (q : Parsing) (chans sheds : List Nat) (h : s.boot.inReset = false) :
    let t := s.boot1 x xa xb q chans sheds
    t.boot.inReset = false ∧ t.fld BOOT_STATUS_STAGE = 3 ∨ t.boot.inReset = true ∧ t.fld BOOT_LAST_CAUSE = 6 := by
  cases hq : (s.slot x).active.firstFail q with
  | none =>
    refine .inl ?_
    rw [State.boot1_ready s xa xb chans sheds hq]
    refine ⟨?_, State.stage_bootReady ..⟩
    have hready : (((s.bootPrepared x xa xb).bootApplied q).bootReady chans sheds).tripRaised.alertCheck.boot =
        ((s.bootPrepared x xa xb).bootApplied q).boot := (readied_frame _ chans sheds).same .flash rfl
    have hprepared : (s.bootPrepared x xa xb).boot = s.boot := (bootPrepared_frame s x xa xb).same .flash rfl
    rw [hready, State.inReset_bootApplied, hprepared, h]
  | some r =>
    refine .inr ?_
    rw [State.boot1_unread s xa xb chans sheds hq]
    exact ⟨(State.moduleReset_fresh _ (by decide)).inReset, State.cause_moduleReset _ (by decide)⟩

end Sys2Proof.Machine

namespace Sys2Proof.Machine

variable {s t u : State}

/-! ### What a slot that boots shows -/

theorem State.reg_startClocks (s : State) (xa xb : Bool) {o : Nat} (ho : 0x300000 ≤ o) {j : Nat} (hj : j < 1048576) :
    (s.startClocks xa xb).reg o j = s.reg o j := by
  have hset : ∀ (t : State) (f : Field) x, f.off < 0x300000 → (t.setFld f 0 x).reg o j = t.reg o j := fun t f x hf =>
    t.reg_setFld_off _ (by decide) hj (by omega)
  have hroot : ∀ (t : State) r ref, (t.setRoot r ref).reg o j = t.reg o j := fun t r ref => by
    unfold State.setRoot
    rw [hset _ _ _ (by decide)]
    exact State.reg_congr rfl o j
  unfold State.startClocks
  extract_lets a b
  have hb : b.reg o j = s.reg o j := by
    unfold b a
    rw [hset _ _ _ (by decide), hset _ _ _ (by decide), hset _ _ _ (by decide), hset _ _ _ (by decide)]
  split
  · rw [hset _ _ _ (by decide), hroot, hb]
  · rw [hset _ _ _ (by decide), hroot, hb]

theorem State.root_startClocks (s : State) (xa xb : Bool) :
    (s.startClocks xa xb).clk.root = if xa || xb then .crystal else .clamped := by
  unfold State.startClocks State.setRoot
  dsimp only
  split
  · rw [State.clk_setFld, State.clk_setFld]
  · rw [State.clk_setFld, State.clk_setFld]

/-- A field of BOOT_STATUS beside those that what follows the slot's choice writes. -/
theorem State.status_tornShown (s : State) (torn : Nat) {f : Field} (hf : f.off = BOOT_STATUS)
    (hlo : f.lo + f.w ≤ 7) :
    (s.tornShown torn).fld f = s.fld f := by
  unfold State.tornShown
  split
  · rfl
  · rw [State.fld_setFld_beside _ _ _ (by decide) hf.symm (.inl hlo)]
    exact State.fld_setFld_off _ _ (by decide) (by decide) (.inl (by rw [hf]; decide))

theorem State.status_refreshOther (s : State) {f : Field} (hf : f.off = BOOT_STATUS) (hlo : f.lo + f.w ≤ 6) :
    s.refreshOther.fld f = s.fld f :=
  s.fld_setFld_beside 0 _ (by decide) hf.symm (.inl hlo)

/-- The slot and its confirmation are shown (step 5). -/
theorem State.status_bootPrepared (s : State) {x : Nat} (hx : x < 2) (xa xb : Bool) :
    (s.bootPrepared x xa xb).fld BOOT_STATUS_SLOT = x ∧
      (s.bootPrepared x xa xb).fld BOOT_STATUS_CONFIRMED = (s.slot x).good.toNat := by
  let a := (s.setFld BOOT_STATUS_SLOT 0 x).setFld BOOT_STATUS_CONFIRMED 0 (s.slot x).good.toNat
  have hslot : a.fld BOOT_STATUS_SLOT = x := by
    unfold a
    rw [State.fld_setFld_beside (f := BOOT_STATUS_CONFIRMED) (g := BOOT_STATUS_SLOT) _ _ _ (by decide) rfl
      (.inl (by decide)), State.fld_setFld_same _ _ _ _ (by decide)]
    exact Nat.mod_eq_of_lt hx
  have hgood : a.fld BOOT_STATUS_CONFIRMED = (s.slot x).good.toNat := by
    unfold a
    rw [State.fld_setFld_same _ _ _ _ (by decide)]
    exact Nat.mod_eq_of_lt (Bool.toNat_lt _)
  have hkeep : ∀ {f : Field}, f.off = BOOT_STATUS → f.lo + f.w ≤ 6 → (s.bootPrepared x xa xb).fld f = a.fld f :=
    fun {f} hf hlo => by
      unfold State.bootPrepared
      have hclocks : ((s.bootShown x).startClocks xa xb).fld f = (s.bootShown x).fld f :=
        fld_of_reg (State.reg_startClocks _ xa xb (by rw [hf]) (by decide))
      rw [State.status_tornShown _ _ hf (by omega), hclocks]
      unfold State.bootShown
      dsimp only
      rw [State.status_refreshOther _ hf hlo,
        State.fld_setFld_off _ _ (by decide) (by decide) (.inl (by rw [hf]; decide)),
        State.fld_setFld_off _ _ (by decide) (by decide) (.inl (by rw [hf]; decide)),
        State.fld_setReg_off _ _ (by decide) (by decide) (.inl (by rw [hf]; decide))]
  exact ⟨(hkeep rfl (by decide)).trans hslot, (hkeep rfl (by decide)).trans hgood⟩

theorem State.root_bootPrepared (s : State) (x : Nat) (xa xb : Bool) :
    (s.bootPrepared x xa xb).clk.root = if xa || xb then .crystal else .clamped := by
  unfold State.bootPrepared State.tornShown
  split
  · exact State.root_startClocks ..
  · rw [State.clk_setFld, State.clk_bump]
    exact State.root_startClocks ..

/-! ### Settings that hold no record (R455) -/

theorem Bank.live_empty {b : Bank} (h : b.recs = []) (cls inst : Nat) : b.live cls inst = none := by
  unfold Bank.live
  rw [h]
  rfl

theorem Bank.firstFail_empty {b : Bank} (h : b.recs = []) (q : Parsing) : b.firstFail q = none := by
  unfold Bank.firstFail
  rw [h]
  rfl

theorem State.translate_empty (q : Parsing) (h : (s.slot s.running).active.recs = []) : s.translate q = s :=
  foldl_eq_self fun y _ => by rw [Bank.live_empty h]

theorem State.applyClass_empty (cls : Nat) (h : (s.slot s.running).active.recs = []) : s.applyClass cls = s := by
  unfold State.applyClass
  rw [Bank.live_empty h]

theorem State.bootApplied_empty (q : Parsing) (h : (s.slot s.running).active.recs = []) :
    s.bootApplied q = s.refreshLog := by
  have hlog : (s.refreshLog.slot s.refreshLog.running).active.recs = [] := by
    have hboot : s.refreshLog.boot = s.boot := s.boot_setFld ..
    have hrun : s.refreshLog.running = s.running := s.fld_setFld_off _ (by decide) (by decide) (.inl (by decide))
    rw [hrun, State.slot_congr (s := s) (by rw [hboot]) (by rw [hboot]), h]
  unfold State.bootApplied
  rw [State.translate_empty q h]
  exact foldl_eq_self fun cls _ => State.applyClass_empty cls hlog

/-! ### The memories (step 8) -/

/-- A channel comes up, or is reported. -/
def State.chanStart (chans : List Nat) (s : State) (n : Nat) : State :=
  if chans.contains n then
    ((s.setFld GDR_STATUS_FAILED n 1).setBitOf BOOT_INRESET_UNIT 0 n true).spareOut kChan n 0
  else (s.setFld GDR_STATUS_IN_RESET n 0).setFld GDR_STATUS_TRAINED n 1

/-- A shed channel comes up, or is reported. -/
def State.shedStart (bad : Bool) (sheds : List Nat) (s : State) (n : Nat) : State :=
  if bad || sheds.contains n then
    let s := { s.memEvent 6 with shed := { s.shed with held := tabPut s.shed.held n true } }
    (s.setBitOf BOOT_INRESET_SHD 0 n true).spareOut kShed n 0
  else (s.setFld SHD_STATUS_IN_RESET n 0).setFld SHD_STATUS_READY n 1

theorem State.startMemory_eq (s : State) (chans sheds : List Nat) :
    let a := (List.range 24).foldl (State.chanStart chans) s
    s.startMemory chans sheds = (List.range 12).foldl (fun (s : State) l => s.startTrain l)
      ((List.range 16).foldl (State.shedStart (a.flag MBS_STATUS_ID_BAD) sheds) a) := rfl

theorem links_quiet (s : State) : Quiet s ((List.range 12).foldl (fun (s : State) l => s.startTrain l) s) :=
  (Quiet.refl s).foldl_mem fun t _ hl => (Quiet.refl t).startTrain (List.mem_range.1 hl)

theorem State.regs_memEvent (s : State) (k n : Nat) : (s.memEvent k n).regs = s.regs := by
  unfold State.memEvent
  split <;> rfl

/-- What the start of a channel keeps. -/
theorem State.reg_chanStart (chans : List Nat) (s : State) {m o j : Nat} (hne : regKey GDR_STATUS m ≠ regKey o j)
    (hunit : regKey BOOT_INRESET_UNIT 0 ≠ regKey o j) (hquiet : ∀ {t u : State}, Quiet t u → u.reg o j = t.reg o j) :
    (s.chanStart chans m).reg o j = s.reg o j := by
  unfold State.chanStart
  split
  · rw [hquiet (Quiet.refl _).spareOut]
    exact (State.reg_setReg_ne _ _ hunit).trans (s.reg_setFld_ne (f := GDR_STATUS_FAILED) _ hne)
  · exact (State.reg_setFld_ne _ (f := GDR_STATUS_TRAINED) _ hne).trans
      (s.reg_setFld_ne (f := GDR_STATUS_IN_RESET) _ hne)

theorem State.reg_shedStart (bad : Bool) (sheds : List Nat) (s : State) {m o j : Nat}
    (hne : regKey SHD_STATUS m ≠ regKey o j) (hshd : regKey BOOT_INRESET_SHD 0 ≠ regKey o j)
    (hquiet : ∀ {t u : State}, Quiet t u → u.reg o j = t.reg o j) : (s.shedStart bad sheds m).reg o j = s.reg o j := by
  unfold State.shedStart
  split
  · rw [hquiet (Quiet.refl _).spareOut]
    refine (State.reg_setReg_ne _ _ hshd).trans ?_
    exact State.reg_congr (t := { s.memEvent 6 with shed := _ }) (s.regs_memEvent 6 1) o j
  · exact (State.reg_setFld_ne _ (f := SHD_STATUS_READY) _ hne).trans
      (s.reg_setFld_ne (f := SHD_STATUS_IN_RESET) _ hne)

/-- What the start of the memories leaves of BOOT_STATUS. -/
theorem State.status_startMemory (s : State) (chans sheds : List Nat) :
    (s.startMemory chans sheds).reg BOOT_STATUS = s.reg BOOT_STATUS := by
  have hquiet : ∀ {t u : State}, Quiet t u → u.reg BOOT_STATUS = t.reg BOOT_STATUS := fun h =>
    h.boot (by decide) (by decide)
  have hkey : ∀ o m, BOOT_STATUS < o → regKey o m ≠ regKey BOOT_STATUS 0 := fun o m ho => by
    unfold regKey
    omega
  rw [State.startMemory_eq, hquiet (links_quiet _)]
  exact (foldl_keeps (·.reg BOOT_STATUS) (fun t m => t.reg_shedStart _ sheds (hkey _ m (by decide)) (by decide) hquiet)
    _ _).trans (foldl_keeps (·.reg BOOT_STATUS) (fun t m => t.reg_chanStart chans (hkey _ m (by decide)) (by decide)
      hquiet) _ _)

/-- What one turn establishes and every other turn keeps holds at the end. -/
theorem foldl_establishes {β : Type} {P : State → Prop} {g : State → β → State} {l : List β} {x : β} (hx : x ∈ l)
    (hset : ∀ s, P (g s x)) (hkeep : ∀ s y, P s → P (g s y)) (s : State) : P (l.foldl g s) := by
  have hall : ∀ (l : List β) s, P s → P (l.foldl g s) := fun l => by
    induction l with
    | nil => exact fun _ h => h
    | cons y l ih => exact fun s h => ih _ (hkeep s y h)
  induction l generalizing s with
  | nil => cases hx
  | cons y l ih =>
    rcases List.mem_cons.1 hx with rfl | hx
    · exact hall l _ (hset s)
    · exact ih hx _

/-- A channel that does not fail comes up TRAINED. -/
theorem State.trained_startMemory (s : State) {chans sheds : List Nat} {n : Nat} (hn : n < 24)
    (h : chans.contains n = false) : (s.startMemory chans sheds).flag GDR_STATUS_TRAINED n = true := by
  have hi : n < 1048576 := by omega
  have hquiet : ∀ {t u : State}, Quiet t u → u.reg GDR_STATUS n = t.reg GDR_STATUS n := fun h => h.gdrStatus hi
  have hset : ∀ t : State, (t.chanStart chans n).flag GDR_STATUS_TRAINED n = true := fun t => by
    unfold State.chanStart
    rw [if_neg (by simpa using h)]
    exact State.flag_setFld_same _ n true (by decide) rfl
  rw [State.startMemory_eq, State.flag_eq_of_reg (f := GDR_STATUS_TRAINED) (hquiet (links_quiet _)),
    State.flag_eq_of_reg (f := GDR_STATUS_TRAINED) (foldl_keeps (·.reg GDR_STATUS n) (fun t m =>
      t.reg_shedStart _ sheds (by unfold regKey; simp only [SHD_STATUS, GDR_STATUS]; omega)
        (by unfold regKey; simp only [BOOT_INRESET_SHD, GDR_STATUS]; omega) hquiet) _ _)]
  refine foldl_establishes (P := fun t => t.flag GDR_STATUS_TRAINED n = true) (List.mem_range.2 hn) hset
    (fun t m ht => ?_) s
  by_cases hm : m = n
  · rw [hm]
    exact hset t
  · refine (State.flag_eq_of_reg (f := GDR_STATUS_TRAINED) (t.reg_chanStart chans ?_ ?_ hquiet)).trans ht
    · exact fun e => hm (by simp only [regKey, GDR_STATUS] at e; omega)
    · unfold regKey
      simp only [BOOT_INRESET_UNIT]
      omega

end Sys2Proof.Machine

namespace Sys2Proof.Machine

variable {s t u : State}

/-! ### The ROM's choice (R448) -/

/-- Step 1: the module leaves reset. -/
def State.released (s : State) : State :=
  (({ s with
    boot := { s.boot with inReset := false }, clk := { s.clk with ccOn := true }
    mbs := { s.mbs with perst := false } }).setFld MBS_TARGET_ADDR 0 (0x58 + s.mbs.straps)).setFld BOOT_SECVER_FUSED_MIN
      0 s.boot.fusedMin

theorem State.boot_released (s : State) : s.released.boot = { s.boot with inReset := false } := by
  unfold State.released
  rw [State.boot_setFld, State.boot_setFld]

section

variable (unread : List Nat) (xa xb : Bool) (q : Parsing) (chans sheds : List Nat)

theorem startup_idle (h : s.boot.inReset = false ∨ s.clk.off = true) : startup s unread xa xb q chans sheds = s :=
  if_pos (by rcases h with h | h <;> simp [h])

variable {unread}

theorem startup_boots {x : Nat} (hreset : s.boot.inReset = true) (hon : s.clk.off = false)
    (h : s.released.romBad.romChoice unread 3 = (some x, u)) :
    startup s unread xa xb q chans sheds = u.boot1 x xa xb q chans sheds := by
  unfold startup
  rw [if_neg (by simp [hreset, hon])]
  unfold State.released at h
  dsimp only at h ⊢
  rw [h]

theorem startup_recovers (hreset : s.boot.inReset = true) (hon : s.clk.off = false)
    (h : s.released.romBad.romChoice unread 3 = (none, u)) :
    startup s unread xa xb q chans sheds = u.setFld BOOT_STATUS_STAGE 0 4 := by
  unfold startup
  rw [if_neg (by simp [hreset, hon])]
  unfold State.released at h
  dsimp only at h ⊢
  rw [h]

end

theorem State.inReset_romChoice (s : State) (unread : List Nat) (n : Nat) :
    (s.romChoice unread n).2.boot.inReset = s.boot.inReset := by
  induction n generalizing s with
  | zero => rfl
  | succ n ih =>
    unfold State.romChoice
    dsimp only
    split
    · rfl
    · split
      · rw [ih, State.inReset_setSlot, State.inReset_setSlot]
      · exact s.inReset_setSlot ..

/-- A slot as the first line of R448 leaves it. -/
def FlashSlot.judged (f : FlashSlot) : FlashSlot := if f.tried && !f.good && !f.bad then { f with bad := true } else f

theorem State.boot_romBad (s : State) :
    s.romBad.boot = { s.boot with slotA := s.boot.slotA.judged, slotB := s.boot.slotB.judged } := by
  have hA : ∀ t : State, (if (t.slot 0).tried && !(t.slot 0).good && !(t.slot 0).bad then
      t.setSlot 0 { t.slot 0 with bad := true } else t).boot = { t.boot with slotA := t.boot.slotA.judged } :=
    fun t => by
    unfold FlashSlot.judged
    show (if (t.boot.slotA.tried && !t.boot.slotA.good && !t.boot.slotA.bad) = true then _ else _ : State).boot = _
    split <;> rfl
  have hB : ∀ t : State, (if (t.slot 1).tried && !(t.slot 1).good && !(t.slot 1).bad then
      t.setSlot 1 { t.slot 1 with bad := true } else t).boot = { t.boot with slotB := t.boot.slotB.judged } :=
    fun t => by
    unfold FlashSlot.judged
    show (if (t.boot.slotB.tried && !t.boot.slotB.good && !t.boot.slotB.bad) = true then _ else _ : State).boot = _
    split <;> rfl
  exact (hB _).trans (by rw [hA])

theorem FlashSlot.installed_judged (f : FlashSlot) : f.judged.installed = f.installed := by
  unfold FlashSlot.judged
  split <;> rfl

theorem FlashSlot.judged_good {f : FlashSlot} (h : f.good = true) : f.judged = f := if_neg (by simp [h])

/-- A slot that is not installed is not chosen. -/
theorem State.newest_none {p : Nat → Bool} (h0 : p 0 = false) (h1 : p 1 = false) : s.newest p = none := by
  unfold State.newest
  simp [h0, h1]

theorem State.newest_zero {p : Nat → Bool} (h0 : p 0 = true) (h1 : p 1 = false) : s.newest p = some 0 := by
  unfold State.newest
  simp [h0, h1]

theorem State.eligible_uninstalled {x : Nat} (h : (s.slot x).installed = false) : s.eligible x = false := by
  unfold State.eligible
  simp [h]

theorem State.romChoice_none (hA : s.boot.slotA.installed = false) (hB : s.boot.slotB.installed = false)
    (unread : List Nat) : s.romChoice unread 3 = (none, s) := by
  have h0 : s.eligible 0 = false := State.eligible_uninstalled hA
  have h1 : s.eligible 1 = false := State.eligible_uninstalled hB
  unfold State.romChoice
  rw [State.newest_none (by simp [h0]) (by simp [h1]), State.newest_none (by simp [h0]) (by simp [h1])]

/-- Slot A alone, good and eligible, is chosen. -/
theorem State.romChoice_slotA (hA : s.eligible 0 = true) (hgood : s.boot.slotA.good = true)
    (hB : s.boot.slotB.installed = false) {unread : List Nat} (hread : unread.contains 0 = false) :
    s.romChoice unread 3 = (some 0, s.setSlot 0 { s.boot.slotA with tried := true }) := by
  have h1 : s.eligible 1 = false := State.eligible_uninstalled hB
  have hslot : (s.slot 0).good = true := hgood
  unfold State.romChoice
  cases htried : (s.slot 0).tried with
  | true =>
    rw [State.newest_none (by simp [htried]) (by simp [h1]), State.newest_zero (by simp [hA, hslot]) (by simp [h1])]
    exact if_neg (by simpa using hread)
  | false =>
    rw [State.newest_zero (by simp [hA, htried]) (by simp [h1])]
    exact if_neg (by simpa using hread)

/-! ### The obligation -/

/-- A good slot A that is installed alone, its header and body good. -/
structure OnlyGoodA (s : State) (unread : List Nat) : Prop where
  installed : s.boot.slotA.installed = true
  good : s.boot.slotA.good = true
  sound : s.boot.slotA.bad = false
  compatible : s.boot.slotA.incompat = false
  valid : s.imageValid s.boot.slotA = true
  alone : s.boot.slotB.installed = false
  read : unread.contains 0 = false

/-- Such a slot is booted. -/
theorem OnlyGoodA.boots {unread : List Nat} (h : OnlyGoodA s unread) :
    ∃ u, s.released.romBad.romChoice unread 3 = (some 0, u) ∧ u.boot.inReset = false ∧
      u.boot.slotA = { s.boot.slotA with tried := true } := by
  have hboot : s.released.romBad.boot =
      { s.boot with inReset := false, slotB := s.boot.slotB.judged } := by
    rw [State.boot_romBad, State.boot_released]
    dsimp only
    rw [FlashSlot.judged_good h.good]
  have hslot : s.released.romBad.slot 0 = s.boot.slotA := by
    show s.released.romBad.boot.slotA = _
    rw [hboot]
  have hvalid : s.released.romBad.imageValid s.boot.slotA = true := by
    rw [← h.valid]
    unfold State.imageValid
    rw [hboot]
  have helig : s.released.romBad.eligible 0 = true := by
    unfold State.eligible
    rw [hslot]
    simp [h.installed, h.sound, h.compatible, hvalid]
  refine ⟨_, State.romChoice_slotA helig ?_ ?_ h.read, ?_, ?_⟩
  · rw [hboot]
    exact h.good
  · rw [hboot]
    exact (FlashSlot.installed_judged _).trans h.alone
  · rw [State.inReset_setSlot, hboot]
  · show FlashSlot.mk .. = _
    rw [hboot]

end Sys2Proof.Machine

namespace Sys2Proof.Machine

variable {s t u : State}

section

variable {unread : List Nat} (xa xb : Bool) (q : Parsing) (chans sheds : List Nat)

/-- Start-up comes to READY, to RECOVERY, or to a reset of cause 6. -/
theorem startup_outcome (unread : List Nat) (hreset : s.boot.inReset = true) (hon : s.clk.off = false) :
    let t := startup s unread xa xb q chans sheds
    t.boot.inReset = false ∧ t.fld BOOT_STATUS_STAGE = 3 ∨ t.boot.inReset = false ∧ t.fld BOOT_STATUS_STAGE = 4 ∨
      t.boot.inReset = true ∧ t.fld BOOT_LAST_CAUSE = 6 := by
  have hrom : s.released.romBad.boot.inReset = false := by rw [State.boot_romBad, State.boot_released]
  have hout : (s.released.romBad.romChoice unread 3).2.boot.inReset = false :=
    (State.inReset_romChoice _ unread 3).trans hrom
  rcases hchoice : s.released.romBad.romChoice unread 3 with ⟨choice, u⟩
  rw [hchoice] at hout
  cases choice with
  | none =>
    rw [startup_recovers xa xb q chans sheds hreset hon hchoice]
    exact .inr (.inl ⟨(congrArg (·.inReset) (u.boot_setFld ..)).trans hout,
      u.fld_setFld_same BOOT_STATUS_STAGE 0 4 (by decide)⟩)
  | some x =>
    rw [startup_boots xa xb q chans sheds hreset hon hchoice]
    exact (boot1_outcome xa xb q chans sheds hout).imp_right .inr

/-- With no slot installed the module rests in RECOVERY. -/
theorem startup_recovery (unread : List Nat) (hreset : s.boot.inReset = true) (hon : s.clk.off = false)
    (hA : s.boot.slotA.installed = false) (hB : s.boot.slotB.installed = false) :
    let t := startup s unread xa xb q chans sheds
    t.boot.inReset = false ∧ t.fld BOOT_STATUS_STAGE = 4 := by
  have hrom : s.released.romBad.boot =
      { s.boot with inReset := false, slotA := s.boot.slotA.judged, slotB := s.boot.slotB.judged } := by
    rw [State.boot_romBad, State.boot_released]
  have hchoice := State.romChoice_none (s := s.released.romBad)
    (by rw [hrom]; exact (FlashSlot.installed_judged _).trans hA)
    (by rw [hrom]; exact (FlashSlot.installed_judged _).trans hB) unread
  intro t
  unfold t
  rw [startup_recovers xa xb q chans sheds hreset hon hchoice]
  refine ⟨?_, State.fld_setFld_same _ BOOT_STATUS_STAGE 0 4 (by decide)⟩
  rw [State.boot_setFld, hrom]

/-- The fields of BOOT_STATUS above its stage stay as the memories start. -/
theorem State.status_bootReady (s : State) {f : Field} (hf : f.off = BOOT_STATUS) (hlo : 4 ≤ f.lo) :
    (s.bootReady chans sheds).tripRaised.alertCheck.fld f = s.fld f := by
  let a := s.setFld MBS_STATUS_ID_BAD 0 (!identityGood s.mbs.identity).toNat
  have hmem : (a.startMemory chans sheds).reg f.off = a.reg f.off := by
    rw [hf]
    exact a.status_startMemory chans sheds
  calc
    _ = (s.bootReady chans sheds).fld f := fld_of_reg (State.reg_tripRaised _ (by rw [hf]; decide) (by decide))
    _ = (a.startMemory chans sheds).fld f :=
      State.fld_setFld_beside (f := BOOT_STATUS_STAGE) (g := f) _ _ _ (by decide) hf.symm (.inr hlo)
    _ = a.fld f := fld_of_reg hmem
    _ = s.fld f := s.fld_setFld_off _ (by decide) (by decide) (.inl (by rw [hf]; decide))

/-- What a start-up from slot A with no saved settings comes to. -/
theorem boot1_empty (hreset : s.boot.inReset = false) (hgood : s.boot.slotA.good = true)
    (hrecs : s.boot.slotA.active.recs = []) :
    let t := s.boot1 0 xa xb q chans sheds
    t.boot.inReset = false ∧ t.fld BOOT_STATUS_STAGE = 3 ∧ t.fld BOOT_STATUS_SLOT = 0 ∧
      t.flag BOOT_STATUS_CONFIRMED = true ∧ t.clk.root = (if xa || xb then .crystal else .clamped) ∧
      ∀ n, n < 24 → chans.contains n = false → t.flag GDR_STATUS_TRAINED n = true := by
  have hboot : (s.bootPrepared 0 xa xb).boot = s.boot := (bootPrepared_frame s 0 xa xb).same .flash rfl
  obtain ⟨hslot, hconf⟩ := s.status_bootPrepared (x := 0) (by decide) xa xb
  have hrun : (s.bootPrepared 0 xa xb).running = 0 := hslot
  have happlied : (s.bootPrepared 0 xa xb).bootApplied q = (s.bootPrepared 0 xa xb).refreshLog := by
    refine State.bootApplied_empty q ?_
    rw [hrun]
    show (s.bootPrepared 0 xa xb).boot.slotA.active.recs = []
    rw [hboot, hrecs]
  let a := (s.bootPrepared 0 xa xb).refreshLog
  have ht : s.boot1 0 xa xb q chans sheds = (a.bootReady chans sheds).tripRaised.alertCheck := by
    rw [State.boot1_ready s (x := 0) (q := q) xa xb chans sheds (Bank.firstFail_empty hrecs q), happlied]
  have hframe := readied_frame a chans sheds
  have hflash : (a.bootReady chans sheds).tripRaised.alertCheck.boot = a.boot := hframe.same .flash rfl
  have hclk : (a.bootReady chans sheds).tripRaised.alertCheck.clk = a.clk := hframe.same .clocks rfl
  have hlast : ∀ {f : Field}, f.off = BOOT_STATUS → 4 ≤ f.lo →
      (a.bootReady chans sheds).tripRaised.alertCheck.fld f = (s.bootPrepared 0 xa xb).fld f := fun hf hlo =>
    (a.status_bootReady chans sheds hf hlo).trans
      (State.fld_setFld_off _ _ (by decide) (by decide) (.inl (by rw [hf]; decide)))
  have haboot : a.boot = s.boot := (State.boot_setFld ..).trans hboot
  have haclk : a.clk = (s.bootPrepared 0 xa xb).clk := State.clk_setFld ..
  intro t
  unfold t
  rw [ht]
  refine ⟨?_, State.stage_bootReady .., (hlast rfl (by decide)).trans hslot, ?_, ?_, fun n hn hchan => ?_⟩
  · rw [hflash, haboot, hreset]
  · unfold State.flag
    rw [hlast rfl (by decide), hconf]
    show (s.boot.slotA.good.toNat == 1) = true
    rw [hgood]
    rfl
  · rw [hclk, haclk]
    exact s.root_bootPrepared 0 xa xb
  · have hi : n < 1048576 := by omega
    rw [State.flag_eq_of_reg (f := GDR_STATUS_TRAINED) (State.reg_tripRaised _ (by decide) hi)]
    unfold State.bootReady
    rw [State.flag_setFld_off _ _ (by decide) hi (.inl (by decide))]
    exact State.trained_startMemory _ hn hchan

/-- What a start-up from slot A with a record it cannot read comes to (R455). -/
theorem boot1_incompat (h : ∃ r ∈ s.boot.slotA.active.recs, r.cls < 2 ^ 15 ∧ (r.cls, r.ver) ∈ q.fails) :
    let t := s.boot1 0 xa xb q chans sheds
    t.boot.inReset = true ∧ t.fld BOOT_LAST_CAUSE = 6 ∧ t.boot.slotA.incompat = true := by
  obtain ⟨r, hr, hcls, hfail⟩ := h
  have hfirst : (s.slot 0).active.firstFail q ≠ none := fun hnone => by
    refine List.find?_eq_none.1 hnone r hr ?_
    rw [decide_eq_true hcls, List.contains_iff_mem.2 hfail]
    rfl
  obtain ⟨r', hr'⟩ := Option.ne_none_iff_exists'.1 hfirst
  rw [State.boot1_unread s xa xb chans sheds hr']
  let a := (s.bootPrepared 0 xa xb).setSlot 0 { s.slot 0 with incompat := true }
  let b := ((a.setFld BOOT_SETTINGS_ERR_CLASS 0 r'.cls).setFld BOOT_SETTINGS_ERR_VERSION 0 r'.ver).setFld
    BOOT_STATUS_SETTINGS_ERR 0 1
  have hfresh : FreshFrom b b (b.moduleReset 6) 6 := b.moduleReset_fresh (by decide)
  have hslot : b.boot.slotA = { s.slot 0 with incompat := true } := by
    unfold b
    rw [State.boot_setFld, State.boot_setFld, State.boot_setFld]
    rfl
  exact ⟨hfresh.inReset, hfresh.cause_eq, by rw [hfresh.slotA, hslot]⟩

/-- Slot A boots where it is good and installed alone. -/
theorem OnlyGoodA.startup_ready (h : OnlyGoodA s unread) (hreset : s.boot.inReset = true) (hon : s.clk.off = false)
    (hrecs : s.boot.slotA.active.recs = []) :
    let t := startup s unread xa xb q chans sheds
    t.boot.inReset = false ∧ t.fld BOOT_STATUS_STAGE = 3 ∧ t.fld BOOT_STATUS_SLOT = 0 ∧
      t.flag BOOT_STATUS_CONFIRMED = true ∧ t.clk.root = (if xa || xb then .crystal else .clamped) ∧
      ∀ n, n < 24 → chans.contains n = false → t.flag GDR_STATUS_TRAINED n = true := by
  obtain ⟨u, hchoice, hout, hslot⟩ := h.boots
  rw [startup_boots xa xb q chans sheds hreset hon hchoice]
  exact boot1_empty xa xb q chans sheds hout (by rw [hslot]; exact h.good) (by rw [hslot]; exact hrecs)

theorem OnlyGoodA.startup_incompat (h : OnlyGoodA s unread) (hreset : s.boot.inReset = true) (hon : s.clk.off = false)
    (hfails : ∃ r ∈ s.boot.slotA.active.recs, r.cls < 2 ^ 15 ∧ (r.cls, r.ver) ∈ q.fails) :
    let t := startup s unread xa xb q chans sheds
    t.boot.inReset = true ∧ t.fld BOOT_LAST_CAUSE = 6 ∧ t.boot.slotA.incompat = true := by
  obtain ⟨u, hchoice, -, hslot⟩ := h.boots
  rw [startup_boots xa xb q chans sheds hreset hon hchoice]
  exact boot1_incompat xa xb q chans sheds (by rw [hslot]; exact hfails)

end

theorem contains_vals_false {m : Nat} {l : List (Fin m)} {x : Fin m} (h : x ∉ l) :
    (l.map (·.val)).contains x.val = false := by
  rw [Bool.eq_false_iff, ne_eq, List.contains_iff_mem]
  exact fun hmem => h ((List.mem_map_of_injective Fin.val_injective).1 hmem)

/-- PERST# resets the module and stays asserted. -/
theorem State.perst_fresh (s : State) :
    let t := ({ s with mbs := { s.mbs with perst := true } }).moduleReset 1
    FreshFrom s s t 1 ∧ t.mbs.perst = true := by
  let p := { s with mbs := { s.mbs with perst := true } }
  have hsame : ShedSame s p := ⟨rfl, rfl, fun _ => rfl⟩
  have hfresh : FreshFrom p p (p.moduleReset 1) 1 := p.moduleReset_fresh (by decide)
  have hperst : (p.moduleReset 1).mbs.perst = p.commitStaged.mbs.perst :=
    State.moduleReset_keeps (·.mbs.perst) (fun _ _ _ _ => rfl) (fun _ _ _ => rfl) p 1
  have hboard : p.commitStaged.mbs = p.mbs := p.commitStaged_frame.same .board rfl
  refine ⟨{ hfresh with shed := ?_ }, by rw [hperst, hboard]⟩
  exact hfresh.shed.trans (congrArg (·.bytes) hsame.commitStaged.shed)

/-- CONFIRM leaves what is neither register nor flash. -/
theorem State.confirm_keeps {α : Type} (π : State → α) (hf : ∀ (s : State) f i x, π (s.setFld f i x) = π s)
    (hb : ∀ (s : State) b, π { s with boot := b } = π s) (s : State) : π s.confirm = π s := by
  by_cases h : s.fld BOOT_STATUS_STAGE = 3
  · rw [State.confirm_eq h]
    unfold State.refreshOther State.confirmedBoot
    dsimp only
    rw [hf, hf, hb, hf]
    unfold State.setSlot
    split
    · exact hb _ _
    · exact hb _ _
  · rw [State.confirm_notReady h]

/-- CONFIRM in a module that is ready (R449). -/
theorem State.confirm_confirms (s : State) (h : s.fld BOOT_STATUS_STAGE = 3) :
    (s.confirm.slot s.running).good = true ∧ s.confirm.flag BOOT_STATUS_CONFIRMED = true ∧
      s.confirm.boot.fusedMin = max s.boot.fusedMin (s.slot s.running).secVer ∧
      s.confirm.slot (1 - s.running) = s.slot (1 - s.running) ∧ s.confirm.host = s.host ∧ s.confirm.mem = s.mem := by
  obtain ⟨hset, hother⟩ := s.slot_setSlot s.running_lt { s.slot s.running with good := true }
  refine ⟨?_, State.flag_confirm h, by rw [State.boot_confirm h], ?_, ?_, ?_⟩
  · rw [State.slot_confirm h, hset]
  · rw [State.slot_confirm h, hother]
  · exact State.confirm_keeps (·.host) State.host_setFld (fun _ _ => rfl) s
  · exact State.confirm_keeps (·.mem) State.mem_setFld (fun _ _ => rfl) s

/-- Settles O53, by what a module reset keeps and, for start-up, by the parts of R444 in turn. -/
theorem moduleResetAndStartup : Obligations.ModuleResetAndStartup := by
  unfold Obligations.ModuleResetAndStartup
  intro s fresh
  have tuple : ∀ {c t cause}, FreshFrom c s t cause → fresh c t cause := fun ⟨h₁, h₂, h₃, h₄, h₅, h₆, h₇, h₈, h₉, h₁₀,
    h₁₁, h₁₂, h₁₃, h₁₄⟩ => ⟨h₁, h₂, h₃, h₄, h₅, h₆, h₇, h₈, h₉, h₁₀, h₁₁, h₁₂, h₁₃, h₁₄⟩
  refine ⟨State.commitStaged_none, fun h => ?_, fun d hoff htrip hd => ?_, fun hoff => ?_, fun hon => ?_, fun h => ?_,
    fun hon hreset => ?_, fun val => ⟨fun hkey => ?_, fun hkey => ?_, fun hmod hkey => ?_, fun h => ?_⟩,
    ⟨fun h => s.confirm_confirms h, State.confirm_notReady⟩,
    fun unread xa xb fails translates chans sheds => ⟨fun h => ?_, fun hreset hon => ?_⟩⟩
  · refine ⟨s.moduleReset 0, congrArg Host.Outcome.next (if_neg ?_), tuple (s.moduleReset_fresh (by decide))⟩
    rcases h with h | h <;> simp [h]
  · exact ⟨s.moduleReset 5, congrArg Host.Outcome.next (if_pos (by simp [hoff, htrip])),
      tuple (s.moduleReset_fresh (by decide)), s.die_moduleReset htrip hd⟩
  · exact congrArg Host.Outcome.next (if_pos hoff)
  · obtain ⟨hfresh, hperst⟩ := s.perst_fresh
    exact ⟨_, congrArg Host.Outcome.next (if_neg (by simp [hon])), tuple hfresh, hperst⟩
  · exact congrArg Host.Outcome.next (if_pos (by rcases h with h | h <;> simp [h]))
  · exact ⟨s.moduleReset 4, congrArg Host.Outcome.next (if_neg (by simp [hon, hreset])),
      tuple (s.moduleReset_fresh (by decide))⟩
  · refine ⟨_, congrArg Host.Outcome.next (bootCtrlWrite_reset _ (bitOf_setBits_same val (by decide))
      ((key_setBits val (by decide)).trans hkey)), ?_⟩
    rw [bitOf_setBits_ne val (by decide) (by decide)]
    exact tuple (s.ifConfirm_fresh _)
  · refine congrArg Host.Outcome.next ((bootCtrlWrite_noReset _ (.inr ?_)).trans ?_)
    · rwa [key_setBits val (by decide)]
    · rw [bitOf_setBits_ne val (by decide) (by decide)]
  · refine ⟨_, congrArg Host.Outcome.next (bootCtrlWrite_reset _ ((bitOf_setBits_ne val (by decide) (by decide)).trans
      hmod) ((key_setBits val (by decide)).trans hkey)), ?_⟩
    rw [if_pos (bitOf_setBits_same val (by decide))]
    exact tuple (s.confirm_fresh (by decide))
  · refine congrArg Host.Outcome.next ((bootCtrlWrite_noReset _ ?_).trans ?_)
    · rwa [bitOf_setBits_ne val (by decide) (by decide), key_setBits val (by decide)]
    · rw [if_pos (bitOf_setBits_same val (by decide))]
  · exact congrArg Host.Outcome.next (startup_idle _ _ _ _ _ _ h)
  · refine ⟨_, rfl, startup_outcome xa xb _ _ _ _ hreset hon, startup_recovery xa xb _ _ _ _ hreset hon,
      fun hinst hgood hsound hcompat hvalid halone hrecs hread => ?_,
      fun hinst hgood hsound hcompat hvalid halone hread hfails => ?_⟩
    · have hA : OnlyGoodA s (unread.map (·.val)) :=
        ⟨hinst, hgood, hsound, hcompat, hvalid, halone, contains_vals_false hread⟩
      obtain ⟨h₁, h₂, h₃, h₄, h₅, h₆⟩ := hA.startup_ready xa xb ⟨fails, translates⟩ (chans.map (·.val))
        (sheds.map (·.val)) hreset hon hrecs
      exact ⟨h₁, h₂, h₃, h₄, h₅, fun n hn => h₆ n n.isLt (contains_vals_false hn)⟩
    · have hA : OnlyGoodA s (unread.map (·.val)) :=
        ⟨hinst, hgood, hsound, hcompat, hvalid, halone, contains_vals_false hread⟩
      obtain ⟨h₁, h₂, h₃⟩ := hA.startup_incompat xa xb ⟨fails, translates⟩ (chans.map (·.val)) (sheds.map (·.val))
        hreset hon hfails
      exact ⟨h₁, h₂, h₃⟩

end Sys2Proof.Machine
